-- ==== Sys2Proof/Word.lean ====
section
/-! DEFINITION. The plain word types of the OL-NM7240 model (R6, R9, R11). -/

namespace Sys2Proof

/-- The smallest addressable unit of every memory (R9). -/
abbrev Byte := BitVec 8

/-- A register's contents; 32-bit registers use the low half (R6). -/
abbrev Word := BitVec 64

/-- An FP32 value as its bits (R144). -/
abbrev F32 := BitVec 32

/-- Device time in ticks of 1 ns (R11). -/
abbrev DT := Nat

/-- The largest device time the 64-bit counter shows; several registers use it to mean never (R37). -/
abbrev dtMax : DT := 0xFFFFFFFFFFFFFFFF

end Sys2Proof
end

