-- ==== Sys2Proof/OperandTypes.lean ====
section
/-! DEFINITION. The structured operands that some commands carry. -/

namespace Sys2Proof

/-- Who issues a rendezvous operation (R108, R109): an initiator of class c at software port n, or a stage of a fabric
context with its deadline (0: none). -/
inductive CellVia where
  | port (c n : Nat)
  | stage (ctx deadline : Nat)
  deriving DecidableEq, Repr

/-- Why a sluice part fails (R204): a near-store link CRC after four retries, a Canal CRC or credit timeout, an
uncorrectable line of T1 or T2 with its address, an NVMe error, an access fault or protection denial. -/
inductive PartFailure where
  | nearLink
  | canalLink
  | uncorrectable (tier address : Nat)
  | flash
  | access
  deriving DecidableEq, Repr

/-- Where a tile of a window operator's output begins (R245): its first output row and column. -/
structure WinAt where
  row : Nat
  col : Nat := 0
  deriving DecidableEq, Repr

/-- What lands with a TILE_LAND (R190, R208, R210): 64-byte units of a linear move, far-store lines and near-store words corrected on the way,
link transfers repeated. -/
structure Landing where
  units : Nat
  farFixed : Nat := 0
  nearFixed : Nat := 0
  retries : Nat := 0
  deriving DecidableEq, Repr

/-- What a stage of an attention invocation works on (R212 to R215): nothing; pass 1's drain over a block of keys of a chain with
the position of its first query and the rows that share a query position; pass 2 over a block; pass 3's drain.  multi:
the group has more than one key block. -/
inductive AttnOp where
  | none
  | scores (slot layer group firstKey firstQuery per : Nat)
  | probs (slot layer group firstKey : Nat) (multi : Bool)
  | output (multi : Bool)
  deriving DecidableEq, Repr

/-- The header of a sequenced Canal flit as a port receives it (R402, R403): the port, the sequence, whether its CRC fails, the modules
it comes from and goes to, its virtual channel. -/
structure FlitIn where
  port : Nat
  seq : Nat
  bad : Bool
  src : Nat
  dst : Nat
  vc : Nat
  deriving DecidableEq, Repr

/-- An order key as a command carries it: DT, source id, counter (R12). -/
structure KeyIn where
  dt : Nat
  src : Nat
  cnt : Nat
  deriving DecidableEq, Repr

/-- A request packet on the Ulzil port (R445): its first two bytes' fields, target, address, payload, and the CRC it carries. -/
structure UlzilPacket where
  gen : Nat
  flags : Nat
  seq : Nat
  type : Nat
  index : Nat
  addr : Nat
  payload : List (BitVec 8)
  crc : Nat
  deriving DecidableEq, Repr

end Sys2Proof
end

