-- ==== Sys2Proof/Syntax.lean ====
section
/-! DEFINITION. The commands of the block and the operands they carry. -/

namespace Sys2Proof

/-- The commands of the block: one constructor per row of the table.  The first operand of each, t, is the DT at
which the command reaches the device or the event comes about (log entry 1). -/
inductive Instr where
  /-- SERVO_UPDATE (R33): A write of the measured offset to TIME_SERVO_OFFSET performs one servo update of integrator and rate.  c: initiator class; off: the value written. -/
  | servoUpdate (t : DT) (c : Nat) (off : Word)
  /-- HOLDOVER (R35): HOLDOVER_MS of DT pass with no offset write and the time unit sets HOLDOVER, keeping the last rate. -/
  | holdover (t : DT)
  /-- PLL_LOCK (R53): The root PLL locks to 6.0 GHz within 2 ms of early-domain power-good. -/
  | pllLock (t : DT)
  /-- FRAME_RECEIVE (R39): A robot-bus frame arrives and is stamped at its MDI instant and routed to its consumer or receive ring.  p: port, 0-3 robot bus, 4-11 multidrop, 12-13 10GBASE-KR; fault: 0 good, 1 bad, 2 lost to a full crossing; data: bytes from the destination address. -/
  | frameReceive (t : DT) (p : Nat) (stamp : Nat) (fault : Nat) (data : List Nat)
  /-- FRAME_TRANSMIT (R391): A port starts a frame from an open gate when its last bit will leave before the gate closes.  q: queue; data: a frame of software's ring, or nothing for a waiting frame. -/
  | frameTransmit (t : DT) (p : Nat) (q : Nat) (insert : Bool) (stamped : Bool) (data : List Nat)
  /-- GATE_ENTRY_END (R390): The interval of a gate control entry ends and the next entry's gate states take effect. -/
  | gateEntryEnd (t : DT) (p : Nat)
  /-- PREEMPTION_VERIFY (R392): IEEE 802.3br verification with the link partner succeeds and preemption becomes active. -/
  | preemptionVerify (t : DT) (p : Nat)
  /-- WAIT_EXPIRE (R47): No on-time arrival has been delivered by D + G, so the waiting unit commits EXPIRED at D + G + 1.  id: the wait. -/
  | waitExpire (t : DT) (id : Nat)
  /-- CUE_FIRE (R49): A cue channel fires at the first DT at or above TIME, raises its trigger, drives its pin and re-arms if periodic.  n: the channel. -/
  | cueFire (t : DT) (n : Nat)
  /-- CUE_PULSE_END (R50): PULSE_W after the last fire the pulsed CUE_OUT pin returns to its base level. -/
  | cuePulseEnd (t : DT) (n : Nat)
  /-- CUE_ARM (R52): A write of 1 to ARM arms the channel, firing at once or skipping periods if TIME is in the past.  c: the initiator class; n: the channel; v: the value written to CUE_CHn_CFG. -/
  | cueArm (t : DT) (c : Nat) (n : Nat) (v : Nat)
  /-- CUE_TIME_WRITE (R52): A write of TIME while armed applies from the DT of the write.  c: the initiator class; n: the channel; v: the value. -/
  | cueTimeWrite (t : DT) (c : Nat) (n : Nat) (v : Word)
  /-- CAPTURE_EDGE (R51): A selected edge is stamped, takes a counter value and goes as a capture record to every consumer and the registers.  src: the source; stamp: the DT of the edge; stable: for how many ns the level stood before it. -/
  | captureEdge (t : DT) (src : Nat) (rising : Bool) (stamp : Nat) (stable : Nat)
  /-- CAPTURE_DATA_READ (R51): A read of CAP_CHn_DATA returns and removes the oldest held stamp. -/
  | captureDataRead (t : DT) (c : Nat) (n : Nat)
  /-- QUEUE_ENTER_ELASTIC (R58): A dual-clock queue finds its phase outside the window and changes to elastic mode. -/
  | queueEnterElastic (t : DT) (block : Nat) (q : Nat)
  /-- QUEUE_RETURN_FIXED (R59): After 1,024 in-window destination cycles with the queue empty it returns to fixed-latency mode. -/
  | queueReturnFixed (t : DT) (block : Nat) (q : Nat)
  /-- CROSSING_STALE (R63): Sixteen consecutive disagreeing sample pairs set the crossing's STALE bit. -/
  | crossingStale (t : DT) (block : Nat) (n : Nat)
  /-- BASIN_PAIR_READY (R67): A basin pair powered on for a bind becomes usable 20 µs later with zeroed stores.  pd: the pair's power domain. -/
  | basinPairReady (t : DT) (pd : Nat)
  /-- PERIOD_START (R81): A PBU period-start trigger records the DT, swaps banks if set, carries debt and renews all budgets.  avg: the 10 ms average of the input power in W. -/
  | periodStart (t : DT) (avg : F32)
  /-- PBU_MISSED_PERIOD (R82): No trigger arrives by PBU_PERIOD_AT + 2 × LEN and the PBU starts a period itself and sets MISSED.  avg: the 10 ms average of the input power in W. -/
  | pbuMissedPeriod (t : DT) (avg : F32)
  /-- FAR_STORE_TRAINING (R73): Far-store training at the new rate completes and the retraining window closes.  vals: the trained values in the order of the KIND 1 payload. -/
  | farStoreTraining (t : DT) (vals : List Nat)
  /-- RETRAIN_WINDOW_TIMEOUT (R75): Training not done 2 ms after the boundary: the window closes, the far store runs at 4,800 MT/s and FAR_LOW is set. -/
  | retrainWindowTimeout (t : DT)
  /-- FORCED_STEP (R79): The MC forces a step down by one envelope, superseding any pending request and capping armed rates. -/
  | forcedStep (t : DT)
  /-- POWER_LIMIT_BROKEN (R80): The 10 ms input power average breaks its limit and POWER_SCALED is set and logged.  avg: the 10 ms average in W; overMs: ms of the last 20 s above 180 W. -/
  | powerLimitBroken (t : DT) (avg : F32) (overMs : Nat)
  /-- STAGE_DISPATCH (R129): The weir dispatches the lowest-index dispatchable stage of a basin in the cycle after its conditions hold.  l: logical basin. -/
  | stageDispatch (t : DT) (l : Nat)
  /-- LOAD (R244): A LOAD stage reads linear, window, gathered or transposed data from the basin store into the datapath.  st: stage index; row0: first output row and column of a window's tile. -/
  | load (t : DT) (l : Nat) (st : Nat) (row0 : WinAt)
  /-- MATRIX (R153): A MATRIX stage multiplies activations by weights into the accumulators or drains them to the result. -/
  | matrix (t : DT) (l : Nat) (st : Nat) (op : AttnOp)
  /-- VECTOR (R161): A VECTOR stage performs its element-wise FP32 operation on 64 lanes. -/
  | vector (t : DT) (l : Nat) (st : Nat)
  /-- REDUCE (R162): A REDUCE stage reduces 64 inputs to one result per cycle. -/
  | reduce (t : DT) (l : Nat) (st : Nat) (last : Bool)
  /-- NORMALISE (R163): A NORMALISE stage performs row softmax, layer or RMS normalisation. -/
  | normalise (t : DT) (l : Nat) (st : Nat) (op : AttnOp)
  /-- CONVERT (R164): A CONVERT stage converts elements from FMT_A to FMT_OUT with scale selection and rounding. -/
  | convert (t : DT) (l : Nat) (st : Nat)
  /-- STORE (R117): A STORE stage writes datapath results into the basin store, linearly or by scatter. -/
  | store (t : DT) (l : Nat) (st : Nat)
  /-- FORWARD (R124): A FORWARD stage injects flits of a slot onto the mesh, or multicast along a row, with a ready token.  n: flits. -/
  | forward (t : DT) (l : Nat) (st : Nat) (n : Nat)
  /-- TILE_END (R124): A running stage finishes its tile and posts its ready and free tokens.  cycles: basin-cycles to charge; stalls: those in which every running engine stalled. -/
  | tileEnd (t : DT) (l : Nat) (st : Nat) (cycles : Nat) (stalls : Nat)
  /-- CONTEXT_SWITCH_DONE (R98): Save of the outgoing and restore of the incoming context complete and the first incoming stage may dispatch. -/
  | contextSwitchDone (t : DT) (region : Nat)
  /-- FLIT_DELIVER (R132): A mesh flit is written into the destination basin store and its ready token sets READY + 1. -/
  | flitDeliver (t : DT) (src : Nat) (dst : Nat) (entry : Nat)
  /-- CREDIT_RETURN (R124): A freed mesh-inbound slot returns a credit on the sideband, setting FREE + 1 at the producer.  l, e: producer's basin and outbound entry. -/
  | creditReturn (t : DT) (l : Nat) (e : Nat)
  /-- BASIN_STORE_UNCORRECTABLE (R100): An uncorrectable basin-store error tears down the context that holds the basin.  l: logical basin; a: offset in its store. -/
  | basinStoreUncorrectable (t : DT) (l : Nat) (a : Nat)
  /-- DEADLOCK_WATCHDOG (R100): No scoreboard of a running, ungated, unwaiting context changes for WDOG_MS and the context is torn down.  c: context. -/
  | deadlockWatchdog (t : DT) (c : Nat)
  /-- HOLD_LIMIT_EXPIRE (R115): A carry's hold limit expires: the cell is force-released and broken, the waiter gets BROKEN and the holder is torn down. -/
  | holdLimitExpire (t : DT)
  /-- CALIBRATION_RUN_DONE (R102): A calibration run ends and the steward returns the calibration record of the largest USED values. -/
  | calibrationRunDone (t : DT)
  /-- ACQUIRE (R108): Take one semaphore unit if free, otherwise wait.  rsvd: the other bits of the write, GEN in bits 10:9, bits 61:58 in bits 8:5, bits 36:32 in bits 4:0. -/
  | acquire (t : DT) (via : CellVia) (cell : Nat) (arg : Nat) (rsvd : Nat)
  /-- TRY_ACQUIRE (R108): Take one semaphore unit or complete at once with BUSY. -/
  | tryAcquire (t : DT) (via : CellVia) (cell : Nat) (arg : Nat) (rsvd : Nat)
  /-- CELL_RELEASE (R108): Return one semaphore unit, granting the next waiter and ending any carry. -/
  | cellRelease (t : DT) (via : CellVia) (cell : Nat) (arg : Nat) (rsvd : Nat)
  /-- ARRIVE (R108): Count one barrier arrival without waiting. -/
  | arrive (t : DT) (via : CellVia) (cell : Nat) (arg : Nat) (rsvd : Nat)
  /-- ARRIVE_WAIT (R108): Count one barrier arrival and wait for the phase to end. -/
  | arriveWait (t : DT) (via : CellVia) (cell : Nat) (arg : Nat) (rsvd : Nat)
  /-- FLAG_SET (R108): OR ARG into a flag cell's COUNT and grant satisfied waiters. -/
  | flagSet (t : DT) (via : CellVia) (cell : Nat) (arg : Nat) (rsvd : Nat)
  /-- FLAG_CLEAR (R108): Clear ARG bits from a flag cell's COUNT. -/
  | flagClear (t : DT) (via : CellVia) (cell : Nat) (arg : Nat) (rsvd : Nat)
  /-- WAIT_ANY (R108): Wait until any of the ARG flag bits is set. -/
  | waitAny (t : DT) (via : CellVia) (cell : Nat) (arg : Nat) (rsvd : Nat)
  /-- WAIT_ALL (R108): Wait until all of the ARG flag bits are set. -/
  | waitAll (t : DT) (via : CellVia) (cell : Nat) (arg : Nat) (rsvd : Nat)
  /-- READ (R108): Return a cell's COUNT. -/
  | read (t : DT) (via : CellVia) (cell : Nat) (arg : Nat) (rsvd : Nat)
  /-- RDV_RESULT_READ (R110): A read of RDV_PORTn_RES returns the result, moves STATE from done to idle and clears REFUSED. -/
  | rdvResultRead (t : DT) (c : Nat) (n : Nat)
  /-- MOVE_COMMIT (R203): The last part of a staged move succeeds and the destination copy changes in one step.  r: request. -/
  | moveCommit (t : DT) (r : Nat)
  /-- DESCRIPTOR_START (R191): A sluice engine starts its first-ranked eligible queued descriptor.  eng: sluice engine. -/
  | descriptorStart (t : DT) (eng : Nat)
  /-- TILE_LAND (R190): The last byte of a tile lands, setting its ready bit or posting its ready token.  n: bytes of the tile (R190). -/
  | tileLand (t : DT) (eng : Nat) (x : Landing)
  /-- REQUEST_COMPLETE (R195): The last part of a request ends; the engine writes the completion record and applies CELL_OP. -/
  | requestComplete (t : DT) (r : Nat)
  /-- PART_FAIL (R204): A sluice part fails and is retried once if transient or fails the request for good. -/
  | partFail (t : DT) (eng : Nat) (why : PartFailure)
  /-- PART_TIMEOUT (R204): A part not finished 100 µs after its last byte was issued fails as transient.  lastByte: DT at which the last byte was issued. -/
  | partTimeout (t : DT) (eng : Nat) (lastByte : Nat)
  /-- PATROL_SCRUB (R209): The far-store controllers patrol-read T2 lines, correcting and writing back.  n: controller; ce: errors corrected; ue: address of an uncorrectable line. -/
  | patrolScrub (t : DT) (n : Nat) (ce : Nat) (ue : Option Nat)
  /-- STEP_BOUNDARY (R230): A KV step boundary commits the previous step, reserves growth, admits and makes room. -/
  | stepBoundary (t : DT)
  /-- LINE_RECEIVE (R254): A CSI-2 long packet of a line arrives and passes the ingest pipeline.  fault: 0 good, 1 payload CRC, 2 header uncorrectable, 3 lost to an overrun; px: pixels. -/
  | lineReceive (t : DT) (n : Nat) (dtype : Nat) (vc : Nat) (stamp : Nat) (fault : Nat) (px : List Nat)
  /-- FRAME_START (R256): A frame begins in the lowest free buffer, or is dropped if none is free. -/
  | frameStart (t : DT) (n : Nat)
  /-- FRAME_END (R256): A frame ends; the record is written, READY set and the flag cell set. -/
  | frameEnd (t : DT) (n : Nat)
  /-- CAM_STROBE_EDGE (R257): A rising CAM_STROBE edge stamps the start of exposure. -/
  | camStrobeEdge (t : DT) (n : Nat) (stamp : Nat)
  /-- BUFFER_RELEASE (R256): Writing 1 to RELEASE bit b clears READY for buffer b.  c: initiator class. -/
  | bufferRelease (t : DT) (c : Nat) (n : Nat) (v : Nat)
  /-- CAMERA_ENABLE (R261): A write of CFG.EN = 1 enables the port or is refused with STAT.ERR.  c: initiator class; n: port; v: value. -/
  | cameraEnable (t : DT) (c : Nat) (n : Nat) (v : Nat)
  /-- SAMPLE_ARRIVE (R264): A stream sample is delivered to the fusion sequencer with its stamp.  source: the SOURCE selector; bound: the crossing's error bound. -/
  | sampleArrive (t : DT) (kind : Nat) (source : Nat) (stamp : Nat) (cnt : Nat) (unc : Bool) (bound : Nat) (raw : List Nat)
  /-- SAMPLE_POST (R269): A write to FUS_PORTp_POST delivers a sample from the port's ring.  c: initiator class. -/
  | samplePost (t : DT) (c : Nat) (p : Nat) (idx : Nat)
  /-- CUTOFF (R271): A fusion cut-off takes the newest eligible sample of each stream and starts the estimator. -/
  | cutoff (t : DT)
  /-- FUSED_RECORD_PUBLISH (R273): The estimator finishes and the fused record is published to all consumers. -/
  | fusedRecordPublish (t : DT)
  /-- ESTIMATOR_TIMEOUT (R273): An estimator run reaches EST_NS, is stopped and the cut-off has no record. -/
  | estimatorTimeout (t : DT)
  /-- AMENDMENT (R282): A replayed record is published again as an amendment with REV + 1. -/
  | amendment (t : DT)
  /-- LADDER_RISE (R290): After 500 ms of a less severe condition the ladder rises one level. -/
  | ladderRise (t : DT)
  /-- GRID_WRITE_DONE (R300): A held or running PLAN_GRID finishes writing the inactive bank. -/
  | gridWriteDone (t : DT)
  /-- WAVEFRONT_RUN_END (R303): The wavefront run converges or hits SWEEPS_MAX and writes the field. -/
  | wavefrontRunEnd (t : DT)
  /-- CHECK_BATCH_START (R311): The candidate flag arrives in time and the batch pins the epoch and starts checking.  stamp: DT of the FLAG_SET. -/
  | checkBatchStart (t : DT) (stamp : Nat)
  /-- CHECK_PASS_END (R308): An edge-checker pass ends with the pass or fail result of each edge. -/
  | checkPassEnd (t : DT)
  /-- SWEEP_COMPLETE (R309): A sweep writes its validity bitmap and completes, with EPOCH_STALE if superseded. -/
  | sweepComplete (t : DT)
  /-- LOOP_TICK (R324): A loop engine tick latches references and states and runs its laws.  n: engine. -/
  | loopTick (t : DT) (n : Nat)
  /-- COMMAND_FRAME_QUEUE (R317): At tick DT + TX_OFF the engine queues its joint command frame.  n: engine. -/
  | commandFrameQueue (t : DT) (n : Nat)
  /-- REFERENCE_FLIP (R25): The completed device-outbound slot is copied and the reference buffers flip with a DT stamp.  l, e: the producing basin and outbound entry. -/
  | referenceFlip (t : DT) (l : Nat) (e : Nat)
  /-- INJECTION_END (R337): An injection ends after its duration or at holding, and LAW_INJECT completes.  n: engine. -/
  | injectionEnd (t : DT) (n : Nat)
  /-- CAPTURE_END (R338): The capture buffer fills and the capture is copied out and completes.  n: engine. -/
  | captureEnd (t : DT) (n : Nat)
  /-- DOORBELL (R345): A write of MBX_m_REQ.TAIL posts requests, stamping SEQ and SUBMIT_DT.  c: initiator class; m: mailbox; v: value written. -/
  | doorbell (t : DT) (c : Nat) (m : Nat) (v : Nat)
  /-- REQUEST_TAKE (R346): The steward takes the next request of a mailbox when completion space allows.  m: mailbox. -/
  | requestTake (t : DT) (m : Nat)
  /-- HELLO (R357): Open a session, negotiating the version, with ADOPT or RESET handling.  m: the mailbox; seq: the request's SEQ. -/
  | hello (t : DT) (m : Nat) (seq : Nat)
  /-- BYE (R358): Close the session once earlier commands complete.  m: the mailbox; seq: the request's SEQ. -/
  | bye (t : DT) (m : Nat) (seq : Nat)
  /-- CTX_OPEN (R360): Open a fabric context of a class with a share and seed.  m: the mailbox; seq: the request's SEQ. -/
  | ctxOpen (t : DT) (m : Nat) (seq : Nat)
  /-- CTX_CLOSE (R185): Close a context, releasing its cascades, sequences, needs, objects and claims.  m: the mailbox; seq: the request's SEQ. -/
  | ctxClose (t : DT) (m : Nat) (seq : Nat)
  /-- CTX_SHARES (R94): Change the shares of contexts from the next period start.  m: the mailbox; seq: the request's SEQ. -/
  | ctxShares (t : DT) (m : Nat) (seq : Nat)
  /-- CASCADE_LOAD (R121): Check and install a cascade image.  the request SEQ of the session on mailbox m. -/
  | cascadeLoad (t : DT) (m : Nat) (seq : Nat)
  /-- CASCADE_BIND (R140): Bind a cascade's basins, all parts or none. -/
  | cascadeBind (t : DT) (m : Nat) (seq : Nat)
  /-- CASCADE_RUN (R362): Arm a period-start cascade or run invocations. -/
  | cascadeRun (t : DT) (m : Nat) (seq : Nat)
  /-- CASCADE_UNLOAD (R131): Stop dispatch, drain, scrub and return the cascade's basins. -/
  | cascadeUnload (t : DT) (m : Nat) (seq : Nat)
  /-- OBJ_CREATE (R179): Allocate a pack or linear object in its home tier.  m, seq: mailbox and SEQ of the taken request. -/
  | objCreate (t : DT) (m : Nat) (seq : Nat)
  /-- OBJ_CREATE_CELL (R107): Allocate and initialise a rendezvous cell. -/
  | objCreateCell (t : DT) (m : Nat) (seq : Nat)
  /-- OBJ_CREATE_KV_POOL (R221): Create the KV pool objects in T1 and T2. -/
  | objCreateKvPool (t : DT) (m : Nat) (seq : Nat)
  /-- OBJ_DELETE (R179): Remove an object or cell by its creator. -/
  | objDelete (t : DT) (m : Nat) (seq : Nat)
  /-- OBJ_PLACE (R181): Record a need for a copy in a tier, making it if absent. -/
  | objPlace (t : DT) (m : Nat) (seq : Nat)
  /-- OBJ_PIN (R184): Record a pinned need in a tier. -/
  | objPin (t : DT) (m : Nat) (seq : Nat)
  /-- OBJ_PIN_RELEASE (R184): Remove the issuer's pin in a tier. -/
  | objPinRelease (t : DT) (m : Nat) (seq : Nat)
  /-- OBJ_EVICT (R182): Remove the issuer's or every unpinned need in a tier, releasing the copy. -/
  | objEvict (t : DT) (m : Nat) (seq : Nat)
  /-- SEQ_JOIN (R234): Queue a sequence for admission, sharing prefix pages or forking. -/
  | seqJoin (t : DT) (m : Nat) (seq : Nat)
  /-- SEQ_LEAVE (R234): Queue a sequence's leave for the next commit. -/
  | seqLeave (t : DT) (m : Nat) (seq : Nat)
  /-- SEQ_STEP (R234): Request a step for a batch with new token counts. -/
  | seqStep (t : DT) (m : Nat) (seq : Nat)
  /-- BUDGET_SET (R90): Write class budgets to the shadow bank, calibrate or apply a record.  m: the mailbox; seq: the request's SEQ. -/
  | budgetSet (t : DT) (m : Nat) (seq : Nat)
  /-- MODE_SET (R77): Request an envelope and profile change with replacement rates.  m: the mailbox; seq: the request's SEQ. -/
  | modeSet (t : DT) (m : Nat) (seq : Nat)
  /-- PROFILE_SET (R69): Request an emphasis profile change.  m: the mailbox; seq: the request's SEQ. -/
  | profileSet (t : DT) (m : Nat) (seq : Nat)
  /-- CLAIM (R366): Claim a shared resource in order-key order.  m: the mailbox; seq: the request's SEQ. -/
  | claim (t : DT) (m : Nat) (seq : Nat)
  /-- RELEASE (R366): Release an owned resource to its reset configuration.  m: the mailbox; seq: the request's SEQ. -/
  | release (t : DT) (m : Nat) (seq : Nat)
  /-- CONFIG_SET (R364): Write settable fields of a device register by mask.  m: the mailbox; seq: the request's SEQ. -/
  | configSet (t : DT) (m : Nat) (seq : Nat)
  /-- CUE_SET (R49): Configure an owned cue channel.  m: the mailbox; seq: the request's SEQ. -/
  | cueSet (t : DT) (m : Nat) (seq : Nat)
  /-- CAPTURE_SET (R360): Configure an owned capture channel.  m: the mailbox; seq: the request's SEQ. -/
  | captureSet (t : DT) (m : Nat) (seq : Nat)
  /-- FUSE_CONFIG (R267): Load a fusion configuration and FUS_CTRL from the next cut-off.  m: mailbox; seq: the taken request's SEQ. -/
  | fuseConfig (t : DT) (m : Nat) (seq : Nat)
  /-- FUSE_SUBSCRIBE (R278): Add or remove a fusion subscriber. -/
  | fuseSubscribe (t : DT) (m : Nat) (seq : Nat)
  /-- PLAN_GRID (R298): Write the inactive grid bank in full or by delta, optionally publishing. -/
  | planGrid (t : DT) (m : Nat) (seq : Nat)
  /-- PLAN_ROADMAP (R304): Load a roadmap and grid geometry. -/
  | planRoadmap (t : DT) (m : Nat) (seq : Nat)
  /-- EDGE_DISABLE (R306): Set disable bits of up to 1,024 edges. -/
  | edgeDisable (t : DT) (m : Nat) (seq : Nat)
  /-- EDGE_ENABLE (R306): Clear disable bits of up to 1,024 edges. -/
  | edgeEnable (t : DT) (m : Nat) (seq : Nat)
  /-- PLAN_RUN (R363): Run one replan. -/
  | planRun (t : DT) (m : Nat) (seq : Nat)
  /-- PLAN_RUN_REPEAT (R310): Arm replans at each fire of a replan cue. -/
  | planRunRepeat (t : DT) (m : Nat) (seq : Nat)
  /-- PLAN_SWEEP (R309): Check every enabled edge into a validity bitmap. -/
  | planSweep (t : DT) (m : Nat) (seq : Nat)
  /-- PLAN_WAVE (R301): Start a wavefront run from goal voxels. -/
  | planWave (t : DT) (m : Nat) (seq : Nat)
  /-- PLAN_RUN_STOP (R363): Disarm a repeating replan. -/
  | planRunStop (t : DT) (m : Nat) (seq : Nat)
  /-- LAW_LOAD (R318): Write a law descriptor into an engine slot. -/
  | lawLoad (t : DT) (m : Nat) (seq : Nat)
  /-- LAW_ARM (R316): Arm laws on engines. -/
  | lawArm (t : DT) (m : Nat) (seq : Nat)
  /-- LAW_DISARM (R360): Disarm laws on engines. -/
  | lawDisarm (t : DT) (m : Nat) (seq : Nat)
  /-- LAW_HOLD (R330): Make engines hold. -/
  | lawHold (t : DT) (m : Nat) (seq : Nat)
  /-- LAW_RESUME (R332): Leave holding, restoring original laws. -/
  | lawResume (t : DT) (m : Nat) (seq : Nat)
  /-- LAW_SWAP (R331): Replace armed laws by others at a tick. -/
  | lawSwap (t : DT) (m : Nat) (seq : Nat)
  /-- LAW_HANDOVER (R342): Hand the joints from the early service to full service at H. -/
  | lawHandover (t : DT) (m : Nat) (seq : Nat)
  /-- LAW_INJECT (R337): Add a test signal at a summing point of an armed law. -/
  | lawInject (t : DT) (m : Nat) (seq : Nat)
  /-- LAW_CAPTURE (R338): Capture selected law signals into the engine's buffer. -/
  | lawCapture (t : DT) (m : Nat) (seq : Nat)
  /-- STORE_SAFE (R440): Start a safe store, split into parts under the hold-up check.  m: the mailbox; seq: the request's SEQ; mv: the bank. -/
  | storeSafe (t : DT) (m : Nat) (seq : Nat) (mv : Nat)
  /-- SAFE_STORE_PART_START (R442): A later part of a safe store passes the hold-up check and starts.  m, seq: the store's command; mv: the bank. -/
  | safeStorePartStart (t : DT) (m : Nat) (seq : Nat) (mv : Nat)
  /-- SAFE_STORE_PART_COMMIT (R441): A part lands and its header copy is rewritten with its committed bit.  m, seq: the store's command. -/
  | safeStorePartCommit (t : DT) (m : Nat) (seq : Nat)
  /-- TEMP (R431): Return a temperature reading.  m: the mailbox; seq: the request's SEQ; v, lo, hi: the newest reading and the extremes since the last one. -/
  | temp (t : DT) (m : Nat) (seq : Nat) (v : F32) (lo : F32) (hi : F32)
  /-- RAIL (R431): Return a rail voltage and current.  m: the mailbox; seq: the request's SEQ; v, a: volts and amps. -/
  | rail (t : DT) (m : Nat) (seq : Nat) (v : F32) (a : F32)
  /-- HUMIDITY (R431): Return humidity and dew-point margin.  m: the mailbox; seq: the request's SEQ; rh, margin: the readings. -/
  | humidity (t : DT) (m : Nat) (seq : Nat) (rh : F32) (margin : F32)
  /-- SHOCK (R431): Return shock peak and counts.  m: the mailbox; seq: the request's SEQ. -/
  | shock (t : DT) (m : Nat) (seq : Nat)
  /-- HOLDUP (R431): Return hold-up bank figures.  m: the mailbox; seq: the request's SEQ; mv: the bank in mV. -/
  | holdup (t : DT) (m : Nat) (seq : Nat) (mv : Nat)
  /-- INPUT (R431): Return input voltage, current and power.  m: the mailbox; seq: the request's SEQ; vin, iin, avg: volts, amps and the 10 ms average in W. -/
  | input (t : DT) (m : Nat) (seq : Nat) (vin : F32) (iin : F32) (avg : F32)
  /-- MEASURE (R431): Return the boot measurements.  m: the mailbox; seq: the request's SEQ. -/
  | measure (t : DT) (m : Nat) (seq : Nat)
  /-- ATTEST (R426): Sign evidence binding the mailbox's newest MC_LOG record.  m: the mailbox; seq: the request's SEQ. -/
  | attest (t : DT) (m : Nat) (seq : Nat)
  /-- COUNTER (R431): Return an OTP counter value.  m: the mailbox; seq: the request's SEQ. -/
  | counter (t : DT) (m : Nat) (seq : Nat)
  /-- COUNTER_ADVANCE (R427): Raise a user OTP counter by 1.  m: the mailbox; seq: the request's SEQ. -/
  | counterAdvance (t : DT) (m : Nat) (seq : Nat)
  /-- UPDATE_STAGE (R435): Copy an image into the inactive slot and verify it.  m: the mailbox; seq: the request's SEQ. -/
  | updateStage (t : DT) (m : Nat) (seq : Nat)
  /-- STAGING_DONE (R435): Staging ends with the slot STAGED or REFUSED.  kind: the image kind. -/
  | stagingDone (t : DT) (kind : Nat)
  /-- UPDATE_ACTIVATE (R435): Mark a staged slot on trial.  m: the mailbox; seq: the request's SEQ. -/
  | updateActivate (t : DT) (m : Nat) (seq : Nat)
  /-- UPDATE_CONFIRM (R437): Make the trial slot active and raise its rollback counter.  m: the mailbox; seq: the request's SEQ. -/
  | updateConfirm (t : DT) (m : Nat) (seq : Nat)
  /-- UPDATE_STATUS (R431): Return the update state of an image kind.  m: the mailbox; seq: the request's SEQ. -/
  | updateStatus (t : DT) (m : Nat) (seq : Nat)
  /-- ALMANAC (R431): Return the almanac sequence range and counts.  m: the mailbox; seq: the request's SEQ. -/
  | almanac (t : DT) (m : Nat) (seq : Nat)
  /-- RESET (R417): Request a main-domain or cold reset 10 ms after completion.  m: the mailbox; seq: the request's SEQ. -/
  | reset (t : DT) (m : Nat) (seq : Nat)
  /-- MC_LOG (R360): Write a record from your software to the almanac.  m: the mailbox; seq: the request's SEQ. -/
  | mcLog (t : DT) (m : Nat) (seq : Nat)
  /-- MC_LOG_READ (R434): Copy almanac records from a DT to an object.  m: the mailbox; seq: the request's SEQ. -/
  | mcLogRead (t : DT) (m : Nat) (seq : Nat)
  /-- EIC_CLAIM (R378): A read of EIC_Tt_CLAIM claims the highest-priority eligible source. -/
  | eicClaim (t : DT) (c : Nat) (tgt : Nat)
  /-- EIC_COMPLETE (R380): A write to EIC_Tt_COMPLETE ends a source's activation. -/
  | eicComplete (t : DT) (c : Nat) (tgt : Nat) (src : Nat)
  /-- GPIO_EDGE (R382): A GPIO level change held for FILTER samples is sensed and pends its source. -/
  | gpioEdge (t : DT) (line : Nat) (level : Bool) (samples : Nat)
  /-- TIMER_INTERRUPT (R374): DT reaches a timer compare value and the timer interrupt pends. -/
  | timerInterrupt (t : DT) (tgt : Nat)
  /-- WFI (R383): A core executing WFI stops its clock. -/
  | wfi (t : DT) (core : Nat)
  /-- CORE_WAKE (R383): A pending source or timer wakes a sleeping core within 200 ns. -/
  | coreWake (t : DT) (core : Nat)
  /-- CAN_FRAME_RECEIVE (R388): A CAN frame is received and stamped at its start-of-frame edge.  fmt: 0 CAN XL, 1 Classical or FD. -/
  | canFrameReceive (t : DT) (n : Nat) (fmt : Nat) (id : Nat) (stamp : Nat) (bad : Bool) (data : List Nat)
  /-- SPI_DATA_READY (R394): A data-ready edge runs the TRIG slots of an SPI controller. -/
  | spiDataReady (t : DT) (n : Nat) (rising : Bool) (stamp : Nat)
  /-- SPI_GO (R394): A write of GO runs a slot once.  c: initiator class. -/
  | spiGo (t : DT) (c : Nat) (n : Nat) (slot : Nat) (v : Nat)
  /-- SPI_TRANSACTION_END (R394): The slot runs of an edge complete and form a stamped sample.  rd: bytes read by each slot of the run. -/
  | spiTransactionEnd (t : DT) (n : Nat) (rd : List (List Nat))
  /-- TDM_BLOCK (R395): A TDM port completes a block of 32 frames to its ring. -/
  | tdmBlock (t : DT) (n : Nat) (stamp : Nat) (data : List Nat)
  /-- SAFE_STOP_CHANGE (R397): A SAFE_STOP input changes state; it is stamped and logged.  a, b: levels of the lines; heldUs: how long the newest low lasted. -/
  | safeStopChange (t : DT) (k : Nat) (a : Bool) (b : Bool) (heldUs : Nat)
  /-- SAFE_STOP_DISCREPANCY (R396): The two lines differ longer than DISC_MS and the input becomes DISCREPANT. -/
  | safeStopDiscrepancy (t : DT) (k : Nat)
  /-- DATA (R404): A Canal DATA flit carries a remote mesh flit with token and order key. -/
  | data (t : DT) (f : FlitIn) (srcBasin : Nat) (basin : Nat) (entry : Nat) (srcEntry : Nat) (index : Nat) (last : Bool) (key : KeyIn) (data : List Byte)
  /-- CREDIT (R403): A Canal CREDIT flit returns entry and link credits. -/
  | credit (t : DT) (f : FlitIn) (basin : Nat) (entry : Nat) (consumer : Nat) (count : Nat) (v0 : Nat) (v1 : Nat)
  /-- MEM_RD (R402): A Canal window or sluice read request. -/
  | memRd (t : DT) (f : FlitIn) (tag : Nat) (addr : Nat) (len : Nat)
  /-- MEM_WR (R402): A Canal window or sluice write. -/
  | memWr (t : DT) (f : FlitIn) (tag : Nat) (addr : Nat) (data : List Byte)
  /-- MEM_CPL (R402): Canal read data or write acknowledgement. -/
  | memCpl (t : DT) (f : FlitIn) (tag : Nat) (status : Nat) (data : List Byte)
  /-- ACK (R403): Acknowledge flits received in order, freeing the replay buffer. -/
  | ack (t : DT) (port : Nat) (seq : Nat)
  /-- NAK (R403): Request replay from a failed flit. -/
  | nak (t : DT) (port : Nat) (seq : Nat)
  /-- PTP (R402): A gPTP message over the Canal link. -/
  | ptp (t : DT) (f : FlitIn) (data : List Byte)
  /-- PREPARE (R405): The coordinator asks participants to stage and vote. -/
  | prepare (t : DT) (f : FlitIn) (key : KeyIn) (kind : Nat) (subject : Nat) (arg : Nat)
  /-- VOTE (R405): A participant votes YES or NO. -/
  | vote (t : DT) (f : FlitIn) (key : KeyIn) (status : Nat) (castAt : Nat)
  /-- DECIDE (R405): The coordinator sends COMMIT or ABORT and participants apply it. -/
  | decide (t : DT) (f : FlitIn) (key : KeyIn) (commit : Bool)
  /-- QUERY (R406): A participant asks for a missing outcome. -/
  | query (t : DT) (f : FlitIn) (key : KeyIn)
  /-- DONE (R405): A participant reports the decision applied. -/
  | done (t : DT) (f : FlitIn) (key : KeyIn)
  /-- DECIDE_TIMEOUT (R406): A YES voter without DECIDE for 10 ms queries, and aborts after three rounds. -/
  | decideTimeout (t : DT) (key : KeyIn)
  /-- CANAL_RETRAIN (R403): After four failed replays a port retrains, possibly dropping lanes or going down. -/
  | canalRetrain (t : DT) (port : Nat) (lanes : Nat)
  /-- CREDIT_TIMEOUT (R403): No credit for 10 µs while flits wait: a transient failure and retrain. -/
  | creditTimeout (t : DT) (port : Nat)
  /-- MC_START (R414): The MC starts on always-on supply and measures the hold-up bank.  ns, mv: the time of the bank's discharge by 4.0 V and V1 in mV. -/
  | mcStart (t : DT) (ns : Nat) (mv : Nat)
  /-- EARLY_DOMAIN_RELEASE (R414): Input in range and bank at 50 V: the MC powers the early domain, starting the boot ROM.  vin, mv: the input in V and the bank in mV; module: the module index of the straps. -/
  | earlyDomainRelease (t : DT) (vin : F32) (mv : Nat) (module : Nat)
  /-- MAIN_POWER_GOOD (R415): The main domains come up and boot code is verified and started. -/
  | mainPowerGood (t : DT)
  /-- BASIN_SELF_TEST (R136): Basins are self-tested and the MC decides retirements for the repair map.  fails: the physical basins that fail. -/
  | basinSelfTest (t : DT) (fails : List Nat)
  /-- BASIN_FAIL (R137): A basin fails in a column whose spare is used and its logical basin becomes unavailable.  phys: the physical basin. -/
  | basinFail (t : DT) (phys : Nat)
  /-- NEAR_STORE_TRAINING (R70): Near-store training at boot completes. -/
  | nearStoreTraining (t : DT)
  /-- BOOT_LATCH_CLOSE (R420): A write of 1 to BOOT_LATCH.CLOSE closes the latch.  c: the initiator class; v: the value written to BOOT_LATCH. -/
  | bootLatchClose (t : DT) (c : Nat) (v : Nat)
  /-- CORE_RELEASE (R416): Boot code releases the application cores at the maker loader's entry. -/
  | coreRelease (t : DT)
  /-- PMAP_GRANT (R421): A write of PMAP_GRANT grants or revokes a window page.  c: the initiator class; v: the value written. -/
  | pmapGrant (t : DT) (c : Nat) (v : Word)
  /-- PMAP_VIOL_READ (R419): A read of PMAP_VIOL returns and clears the fault count.  c: the initiator class. -/
  | pmapViolRead (t : DT) (c : Nat)
  /-- UDS_READ (R423): The one read of the UDS after cold reset, after which it reads zero.  c: the initiator class. -/
  | udsRead (t : DT) (c : Nat)
  /-- MEMORY_ACCESS (R419): An initiator access checked against the protection map, or faulted.  c: the initiator class; kind: 0 read, 1 write, 2 execute; a, n: the address and the bytes; data: the bytes written; ecc: what a read of a store finds there, 0 no error, 1 a corrected one, 2 an uncorrectable one. -/
  | memoryAccess (t : DT) (c : Nat) (kind : Nat) (a : Nat) (n : Nat) (data : List (BitVec 8)) (ecc : Nat)
  /-- REGISTER_WRITE (R5): A write to a register with no row of its own.  c: the initiator class; a, n: the address and the access's bytes; v: the value. -/
  | registerWrite (t : DT) (c : Nat) (a : Nat) (n : Nat) (v : Word)
  /-- RESET_IN (R417): A low level on RESET_IN# ends, its duration selecting warning or reset.  us: how long RESET_IN# was low. -/
  | resetIn (t : DT) (us : Nat)
  /-- COLD_RESET (R417): All but the always-on domain reset and the latch opens. -/
  | coldReset (t : DT)
  /-- MAIN_DOMAIN_RESET (R417): The main domains reset while the early domain and DT run on. -/
  | mainDomainReset (t : DT)
  /-- MC_RESTART (R417): The MC restarts on activation or watchdog.  watchdog: by the watchdog, else by an activation. -/
  | mcRestart (t : DT) (watchdog : Bool)
  /-- HEARTBEAT (R429): A steward heartbeat reaches the MC, clearing cause 5. -/
  | heartbeat (t : DT)
  /-- STEWARD_STOPPED (R429): No heartbeat for 100 ms: cause 5 set, MC_ALERT# low. -/
  | stewardStopped (t : DT)
  /-- MC_THRESHOLD_CROSSING (R428): An MC sensor reading crosses a threshold and is logged.  kind: 0 temperature, 1 volts, 2 amps, 3 dew-point margin; idx: the sensor; v: the reading. -/
  | mcThresholdCrossing (t : DT) (kind : Nat) (idx : Nat) (v : F32)
  /-- SHOCK_IMPACT (R430): A shock of 50 g or more is logged and a stop is requested.  g: the magnitude. -/
  | shockImpact (t : DT) (g : F32)
  /-- FALL_DETECT (R430): Magnitude below 0.3 g for 100 ms: a fall is logged and a stop requested.  g: the magnitude; ms: for how long. -/
  | fallDetect (t : DT) (g : F32) (ms : Nat)
  /-- SHOCK_STOP_END (R430): One second after the last fall or impact the shock stop request ends. -/
  | shockStopEnd (t : DT)
  /-- HOLDUP_FAULT (R430): The bank below 28 V over 1 s with input present sets the hold-up fault.  mv: the bank; ms: for how long. -/
  | holdupFault (t : DT) (mv : Nat) (ms : Nat)
  /-- ALMANAC_WRITE (R434): The MC writes buffered records to the ring. -/
  | almanacWrite (t : DT)
  /-- CHECKPOINT (R433): The MC writes a signed checkpoint after 1,024 records or 10 s. -/
  | checkpoint (t : DT)
  /-- VIN_LOW_STEP (R462): VIN below 24 V for 10 ms forces a step down.  vin: the input; ms: for how long. -/
  | vinLowStep (t : DT) (vin : F32) (ms : Nat)
  /-- VIN_BELOW_RANGE (R462): VIN below 22 V for 1 ms sets stop cause 2.  vin: the input; us: for how long. -/
  | vinBelowRange (t : DT) (vin : F32) (us : Nat)
  /-- VIN_RECOVER (R462): VIN at 24 V or more for 100 ms clears stop cause 2.  vin: the input; ms: for how long. -/
  | vinRecover (t : DT) (vin : F32) (ms : Nat)
  /-- INPUT_LOSS (R465): VIN out of range for 50 µs: the bank takes over and domains outside the hold-up set switch off.  vin: the input; us: for how long. -/
  | inputLoss (t : DT) (vin : F32) (us : Nat)
  /-- PROCESSOR_OFF (R466): Running parts and the flush end and the MC switches off the processor. -/
  | processorOff (t : DT)
  /-- INPUT_RETURN (R466): VIN returns for 10 ms, leading to a main-domain reset or cold start-up.  vin: the input; ms: for how long. -/
  | inputReturn (t : DT) (vin : F32) (ms : Nat)
  /-- MC_OFF (R466): The bank falls to 28 V and the MC switches off.  mv: the bank. -/
  | mcOff (t : DT) (mv : Nat)
  /-- OVERTEMP_STEP (R468): 95 °C for 100 ms, and each further 1 s, forces a step down.  v: the hottest of sensors 0 to 23; ms: for how long. -/
  | overtempStep (t : DT) (v : F32) (ms : Nat)
  /-- OVERTEMP_STOP (R468): 105 °C sets stop cause 1.  v: the hottest of sensors 0 to 23. -/
  | overtempStop (t : DT) (v : F32)
  /-- OVERTEMP_CLEAR (R468): Below 100 °C for 1 s clears stop cause 1.  v: the hottest of sensors 0 to 23; ms: for how long. -/
  | overtempClear (t : DT) (v : F32) (ms : Nat)
  /-- OVERTEMP_SHUTDOWN (R468): 110 °C switches off every domain but the always-on domain.  v: the hottest of sensors 0 to 23. -/
  | overtempShutdown (t : DT) (v : F32)
  /-- ATTACH (R450): Open a debug session at level locked.  p: the request packet. -/
  | attach (t : DT) (p : UlzilPacket)
  /-- ATTACH_RELEASE (R450): End the debug session, resuming halted targets.  p: the request packet. -/
  | attachRelease (t : DT) (p : UlzilPacket)
  /-- AUTH_CHALLENGE (R451): Issue a challenge block for a level.  p: the request packet. -/
  | authChallenge (t : DT) (p : UlzilPacket)
  /-- AUTH_RESPONSE (R452): Grant the level if both signatures verify.  p: the request packet. -/
  | authResponse (t : DT) (p : UlzilPacket)
  /-- HALT (R456): Halt a debug target.  p: the request packet. -/
  | halt (t : DT) (p : UlzilPacket)
  /-- RESUME (R456): Resume a halted target.  p: the request packet. -/
  | resume (t : DT) (p : UlzilPacket)
  /-- STEP (R456): Execute one instruction or tick, then halt.  p: the request packet. -/
  | step (t : DT) (p : UlzilPacket)
  /-- BP_SET (R457): Set a breakpoint or watchpoint.  p: the request packet. -/
  | bpSet (t : DT) (p : UlzilPacket)
  /-- BP_CLEAR (R457): Clear a breakpoint or watchpoint.  p: the request packet. -/
  | bpClear (t : DT) (p : UlzilPacket)
  /-- MEM_READ (R454): Read physical memory or trace as class 8.  p: the request packet. -/
  | memRead (t : DT) (p : UlzilPacket)
  /-- MEM_WRITE (R454): Write physical memory as class 8.  p: the request packet. -/
  | memWrite (t : DT) (p : UlzilPacket)
  /-- REG_READ (R455): Read a register of a halted target.  p: the request packet. -/
  | regRead (t : DT) (p : UlzilPacket)
  /-- REG_WRITE (R455): Write a register of a halted target.  p: the request packet. -/
  | regWrite (t : DT) (p : UlzilPacket)
  /-- STATUS (R453): Return levels in force, latch state and halted bits.  p: the request packet. -/
  | status (t : DT) (p : UlzilPacket)
  /-- BREAKPOINT_HIT (R457): A target reaches a breakpoint and halts before the instruction.  k: target, 0-15 cores, 16-17 steward, 26 MC. -/
  | breakpointHit (t : DT) (k : Nat) (slot : Nat)
  /-- WATCHPOINT_HIT (R457): A watched access completes and the target halts.  kind: 1 load, 2 store; n bytes at a. -/
  | watchpointHit (t : DT) (k : Nat) (slot : Nat) (kind : Nat) (a : Nat) (n : Nat)
  /-- ULZIL_BUSY_TIMEOUT (R446): Work taking 65,536 UDCK cycles ends the request with BUSY.  UDCK cycles the work has taken. -/
  | ulzilBusyTimeout (t : DT) (cycles : Nat)
  /-- SESSION_TIMEOUT (R450): Ten seconds with no request end the debug session. -/
  | sessionTimeout (t : DT)
  /-- UDRST (R443): UDRST low for 1 µs ends the session and resets the debug logic.  ns the input was low. -/
  | udrst (t : DT) (ns : Nat)
  /-- LINK_CHANGE (R65): A robot-bus or 10GBASE-KR port's link goes up or down, changing ETH_PORTp_STAT.LINK and the crossed link state. -/
  | linkChange (t : DT) (p : Nat) (up : Bool)
  /-- CANAL_PORT_TRAINING (R399): A Canal port trains with its peer, exchanges module indices and comes up, or stays down on an index that breaks the ring rule. -/
  | canalPortTraining (t : DT) (port : Nat) (lanes : Nat) (peer : Nat) (ring : Nat)
  /-- DYNAMIC_SIGNAL_EDGE (R398): With SS_CFG.DYN = 1 and no request, STOP_REQ toggles every 500 µs to form the 1 kHz no-request square wave. -/
  | dynamicSignalEdge (t : DT)
  /-- GPIO_GLITCH (R382): A pulse on a GPIO line covers at least one sample but is not sensed, and EIC_STAT.GLITCH is set. -/
  | gpioGlitch (t : DT) (line : Nat) (samples : Nat)
  /-- PTM_REQUEST (R389): A PCIe endpoint's PTM request is answered with DT at the root port's stamp point. -/
  | ptmRequest (t : DT)
  /-- SYNC_INTERVAL (R389): The gPTP protocol engine's interval timer runs out and it sends Sync, Pdelay_Req or Announce messages on its gPTP ports.  msg: messageType; delay: measured neighbour delay in ns; data: the message's frame. -/
  | syncInterval (t : DT) (p : Nat) (msg : Nat) (q : Nat) (delay : Nat) (data : List Nat)
  /-- PROBE_VREF_CHANGE (R443): Probe VREF appears or disappears, and the port starts or stops taking UDCK and driving UDIO. -/
  | probeVrefChange (t : DT) (present : Bool)
  /-- RECHARGE_WAIT_TIMEOUT (R442): A safe store that has waited 100 ms for the bank to recharge for its next part reaches the end of that wait.  m, seq: the store's command. -/
  | rechargeWaitTimeout (t : DT) (m : Nat) (seq : Nat)
  /-- MC_QUERY_TIMEOUT (R360): The MC has not answered an MC_QUERY within 10 ms, and the command completes with BUSY.  m: the mailbox; seq: the request's SEQ. -/
  | mcQueryTimeout (t : DT) (m : Nat) (seq : Nat)
  deriving DecidableEq, Repr

end Sys2Proof
end

