-- ==== Sys2Proof/Decode.lean ====
section
/-! DEFINITION. The words of the table: no row of it gives bits, so no word spells a command. -/

/-- The command that a word spells by the table's bits: the table's rows carry no bits, so there is none. -/
def Sys2Proof.decodeTableWord (nbits w : Nat) : Option Sys2Proof.Instr :=
  match nbits, w with
  | _, _ => none
end

