-- ==== Sys2Proof/Config.lean ====
section
/-! DEFINITION. What an implementation fixes and what the spec leaves open: constants and functions without a body, so
that no proof can see a value (each is named in notes/assumptions). -/

namespace Sys2Proof.Config

/-- PBU_FAB_REPAIR_LO as fused at test (R138). -/
opaque fabRepairLo : Word

/-- PBU_FAB_REPAIR_HI as fused at test (R138). -/
opaque fabRepairHi : Word

/-- A fresh unconstrained number: the n-th value the spec leaves open (assumption log). -/
opaque freeNat : Nat → Nat

/-- Demosaic of one pixel at the frame's edge, or edge-directed (R254): mode (0 bilinear, 1 edge-directed), colour filter order, row and
column, rows and columns of the frame, and the FP32 values around it row by row; answers R, G and B. -/
opaque demosaic : Nat → Nat → Nat → Nat → Nat → Nat → List Nat → Nat × Nat × Nat

/-- The FP32 sum of a pixel's four neighbours, in an order that R254 does not state. -/
opaque sumFour : List Nat → Nat

/-- The lane rate of a camera in kb/s (R60), by port. -/
opaque laneKbps : Nat → Nat

/-- The last places of a box-filter downscale (R254): input and output height, input and output width, output row and column, and the FP32 values
of the source pixels it covers. -/
opaque boxFilter : Nat → Nat → Nat → Nat → Nat → Nat → List Nat → Nat

/-- What an input that only starts from a measurement takes where no state of its joint was latched (R329, R330): tick DT, joint index,
MFIELD. -/
opaque unlatched : Nat → Nat → Nat → Nat

/-- The estimator program (R273, R280): the program, its state before, and the inputs in order; answers its state after, whose
first 17 words are the record's state block from POS to CONTACT. -/
opaque estimator : List Byte → List Nat → List Nat → List Nat

/-- The magnitude in FP32 of the sine of a phase given as a fraction of a turn, numerator and denominator (R337): its last places are the
implementation's. -/
opaque sine : Nat → Nat → Nat

/-- The phase of a logarithmic chirp in 2^-52 turns (R337): F0 and F1 as FP32 bits, ns since T0 and the duration.  Its last places are the
implementation's. -/
opaque logTurns : Nat → Nat → Nat → Nat → Nat

/-- Destination and source address of the frames a port sends by itself, 12 bytes. -/
opaque frameAddresses : Nat → List Byte

/-- A port's fixed egress latency to the MDI in units of 2^-16 ns (R40), by port. -/
opaque egressLatency : Nat → Nat

/-- SHA-384, HMAC-SHA-384 of a key and a message, and HKDF-SHA-384 of a secret and an info string (R411, R423, R424). -/
opaque sha384 : List Byte → List Byte
opaque hmac384 : List Byte → List Byte → List Byte
opaque hkdf384 : List Byte → List Byte → List Byte

/-- Verification under Ed25519 and ML-DSA-65 (R411, R452): public key, signature, message. -/
opaque edVerify : List Byte → List Byte → List Byte → Bool
opaque mlVerify : List Byte → List Byte → List Byte → Bool

/-- Public keys and signatures of a 32-byte seed (R424, R425). -/
opaque edPublic : List Byte → List Byte
opaque mlPublic : List Byte → List Byte
opaque edSign : List Byte → List Byte → List Byte
opaque mlSign : List Byte → List Byte → List Byte

/-- The unique device secret (R423) and the MC's own secret (R424). -/
opaque uds : List Byte
opaque mcSecret : List Byte

/-- The compound identifier that boot code gets of M_B when boot resumes after a main-domain reset (R423). -/
opaque cdiResumed : List Byte → List Byte

/-- Where in T1 the copy of the boot summary lies that a1 names at the release of the cores (R416). -/
opaque summaryAt : Nat

/-- The nonce of the n-th challenge (R451). -/
opaque nonce : Nat → List Byte

end Sys2Proof.Config
end

