-- ==== Sys2Proof/Machine/Tbl.lean ====
section
/-! DEFINITION. Sparse tables keyed by a number, byte lists and small helpers that the whole model shares. -/

namespace Sys2Proof.Machine

/-- A sparse table: entries by number, at most one of them read (the first).  Plain data. -/
abbrev Tbl (α : Type) := List (Nat × α)

/-- The entry of key k, if any. -/
def tget {α : Type} : Tbl α → Nat → Option α
  | [], _ => none
  | (j, v) :: rest, k => if j = k then some v else tget rest k

/-- The entry of key k, or the given default. -/
def tgetD {α : Type} (t : Tbl α) (k : Nat) (dflt : α) : α := (tget t k).getD dflt

/-- Write the entry of key k. -/
def tset {α : Type} : Tbl α → Nat → α → Tbl α
  | [], k, v => [(k, v)]
  | (j, w) :: rest, k, v => if j = k then (k, v) :: rest else (j, w) :: tset rest k v

/-- Remove the entry of key k. -/
def tdel {α : Type} (t : Tbl α) (k : Nat) : Tbl α := t.filter (fun e => e.1 != k)

/-- Change the entry of key k, if there is one. -/
def tmod {α : Type} (t : Tbl α) (k : Nat) (f : α → α) : Tbl α :=
  t.map (fun e => if e.1 = k then (e.1, f e.2) else e)

/-- Change every entry. -/
def tmap {α : Type} (t : Tbl α) (f : Nat → α → α) : Tbl α := t.map (fun e => (e.1, f e.1 e.2))

/-- Whether key k has an entry. -/
def thas {α : Type} (t : Tbl α) (k : Nat) : Bool := t.any (fun e => e.1 == k)

/-- The keys of a table. -/
def tkeys {α : Type} (t : Tbl α) : List Nat := t.map (·.1)

/-- The lowest of n numbers from k on that satisfies the test. -/
def lowestFrom : Nat → Nat → (Nat → Bool) → Option Nat
  | 0, _, _ => none
  | n + 1, k, p => if p k then some k else lowestFrom n (k + 1) p

/-- The lowest number below the bound that satisfies the test. -/
def lowest (bound : Nat) (p : Nat → Bool) : Option Nat := lowestFrom bound 0 p

/-- Little-endian bytes of a number (R9). -/
def leBytes : Nat → Nat → List Byte
  | 0, _ => []
  | n + 1, v => BitVec.ofNat 8 v :: leBytes n (v / 256)

/-- The number that little-endian bytes spell (R9). -/
def leNat : List Byte → Nat
  | [] => 0
  | b :: bs => b.toNat + 256 * leNat bs

/-- Network-byte-order bytes of a number (R9). -/
def beBytes (n v : Nat) : List Byte := (leBytes n v).reverse

/-- The number that network-byte-order bytes spell (R9). -/
def beNat (bs : List Byte) : Nat := leNat bs.reverse

/-- The little-endian field of n bytes at an offset of a byte list; absent bytes read 0. -/
def bytesAt (bs : List Byte) (off n : Nat) : Nat := leNat ((bs.drop off).take n)

/-- Bits lo .. lo+w−1 of a number. -/
def bits (v lo w : Nat) : Nat := (v / 2 ^ lo) % 2 ^ w

/-- One bit of a number. -/
def bit (v i : Nat) : Bool := v.testBit i

/-- A Bool as a bit. -/
def b2n (b : Bool) : Nat := if b then 1 else 0

/-- A number read as a two's-complement integer of w bits. -/
def sext (w v : Nat) : Int := if v % 2 ^ w < 2 ^ (w - 1) then ((v % 2 ^ w : Nat) : Int) else ((v % 2 ^ w : Nat) : Int) - (2 ^ w : Nat)

/-- The two's-complement image of an integer in w bits. -/
def wrapInt (w : Nat) (i : Int) : Nat := (i % ((2 ^ w : Nat) : Int)).toNat

/-- A saturating sum (R37). -/
def satAdd (top a b : Nat) : Nat := if a = top then top else min top (a + b)

/-- Bound an integer on both sides. -/
def clampInt (lo hi x : Int) : Int := max lo (min hi x)

/-- Overwrite a stretch of a byte list, the length staying as it is. -/
def splice (bs : List Byte) (off : Nat) (new : List Byte) : List Byte :=
  bs.take off ++ new ++ bs.drop (off + new.length)

/-- Insert in a list kept sorted by a test. -/
def insertBy {α : Type} (before : α → α → Bool) (x : α) : List α → List α
  | [] => [x]
  | y :: rest => if before x y then x :: y :: rest else y :: insertBy before x rest

/-- Sort a list by a test. -/
def sortBy {α : Type} (before : α → α → Bool) (l : List α) : List α := l.foldr (insertBy before) []

/-- A number with a field of it replaced. -/
def withBits (v lo w x : Nat) : Nat := v - bits v lo w * 2 ^ lo + x % 2 ^ w * 2 ^ lo

/-- A byte list cut or filled with zeros to a length. -/
def fixed (n : Nat) (bs : List Byte) : List Byte := (bs ++ List.replicate n 0).take n

end Sys2Proof.Machine
end

