-- ==== Sys2Proof/Machine/RegMap.lean ====
section
/-! DEFINITION. The register map: every register the chapters list, with its block, offset, strides, width, reset
value and access masks (R4 to R8), and every named field's place. -/

namespace Sys2Proof.Machine

/-- The registers of the part, one name per register family; numbered registers share a name (R6). -/
inductive RegName where
  /-- TIME_CTRL, 02_device_time.md, R38. -/
  | timeCtrl
  /-- TIME_STATUS, 02_device_time.md, R38. -/
  | timeStatus
  /-- TIME_DT_NOW, 02_device_time.md, R38. -/
  | timeDtNow
  /-- TIME_SERVO_OFFSET, 02_device_time.md, R38. -/
  | timeServoOffset
  /-- TIME_SERVO_KP, 02_device_time.md, R38. -/
  | timeServoKp
  /-- TIME_SERVO_KI, 02_device_time.md, R38. -/
  | timeServoKi
  /-- TIME_SERVO_RATE, 02_device_time.md, R38. -/
  | timeServoRate
  /-- TIME_SERVO_INTEG, 02_device_time.md, R38. -/
  | timeServoInteg
  /-- TIME_JUMP_AT, 02_device_time.md, R38. -/
  | timeJumpAt
  /-- TIME_JUMP_SIZE, 02_device_time.md, R38. -/
  | timeJumpSize
  /-- CUE_CHn_CFG, 02_device_time.md, R52. -/
  | cueChCfg
  /-- CUE_CHn_TIME, 02_device_time.md, R52. -/
  | cueChTime
  /-- CUE_CHn_PERIOD, 02_device_time.md, R52. -/
  | cueChPeriod
  /-- CUE_CHn_STAT, 02_device_time.md, R52. -/
  | cueChStat
  /-- CAP_CHn_CFG, 02_device_time.md, R52. -/
  | capChCfg
  /-- CAP_CHn_CNT, 02_device_time.md, R52. -/
  | capChCnt
  /-- CAP_CHn_DATA, 02_device_time.md, R52. -/
  | capChData
  /-- CAP_CHn_STAT, 02_device_time.md, R52. -/
  | capChStat
  /-- BLOCK_CDC_STATUS, 03_clocks_power_modes.md, R64. -/
  | cdcStatus
  /-- BLOCK_CDC_LOST, 03_clocks_power_modes.md, R64. -/
  | cdcLost
  /-- CPC_MODE, 03_clocks_power_modes.md, R80. -/
  | cpcMode
  /-- CPC_MODE_AT, 03_clocks_power_modes.md, R80. -/
  | cpcModeAt
  /-- CPC_WINDOW_END, 03_clocks_power_modes.md, R80. -/
  | cpcWindowEnd
  /-- PBU_CTRL, 04_budgets_contexts.md, R90. -/
  | pbuCtrl
  /-- PBU_STAT, 04_budgets_contexts.md, R90. -/
  | pbuStat
  /-- PBU_PERIOD, 04_budgets_contexts.md, R90. -/
  | pbuPeriod
  /-- PBU_SQUALL_CFG, 04_budgets_contexts.md, R90. -/
  | pbuSquallCfg
  /-- PBU_PERIOD_AT, 04_budgets_contexts.md, R90. -/
  | pbuPeriodAt
  /-- PBU_CLASSc_CFG, 04_budgets_contexts.md, R90. -/
  | pbuClassCfg
  /-- PBU_CLASSc_STAT, 04_budgets_contexts.md, R90. -/
  | pbuClassStat
  /-- PBU_CLASSc_OVR, 04_budgets_contexts.md, R90. -/
  | pbuClassOvr
  /-- PBU_CLASSc_BUDGETk, 04_budgets_contexts.md, R90. -/
  | pbuClassBudget
  /-- PBU_CLASSc_SHADOWk, 04_budgets_contexts.md, R90. -/
  | pbuClassShadow
  /-- PBU_CLASSc_USEDk, 04_budgets_contexts.md, R90. -/
  | pbuClassUsed
  /-- PBU_CTXn_CFG, 04_budgets_contexts.md, R90. -/
  | pbuCtxCfg
  /-- PBU_CTXn_CONSUMED, 04_budgets_contexts.md, R90. -/
  | pbuCtxConsumed
  /-- RDV_PORTn_OP, 04_budgets_contexts.md, R110. -/
  | rdvPortOp
  /-- RDV_PORTn_DL, 04_budgets_contexts.md, R110. -/
  | rdvPortDl
  /-- RDV_PORTn_RES, 04_budgets_contexts.md, R110. -/
  | rdvPortRes
  /-- PBU_WEIRr_STAT, 05_cascade_fabric.md, R131. -/
  | pbuWeirStat
  /-- PBU_WEIRr_DISPATCHED, 05_cascade_fabric.md, R131. -/
  | pbuWeirDispatched
  /-- PBU_WEIRr_STALLS, 05_cascade_fabric.md, R131. -/
  | pbuWeirStalls
  /-- PBU_FAB_REPAIR_LO, 05_cascade_fabric.md, R138. -/
  | pbuFabRepairLo
  /-- PBU_FAB_REPAIR_HI, 05_cascade_fabric.md, R138. -/
  | pbuFabRepairHi
  /-- PBU_FAB_AVAILk, 05_cascade_fabric.md, R138. -/
  | pbuFabAvail
  /-- SLU_ENGn_STAT, 07_memory_tiers.md, R197. -/
  | sluEngStat
  /-- SLU_ENGn_BYTES, 07_memory_tiers.md, R197. -/
  | sluEngBytes
  /-- SLU_CTXn_SPILL, 07_memory_tiers.md, R202. -/
  | sluCtxSpill
  /-- SLU_FAR_ECC, 07_memory_tiers.md, R211. -/
  | sluFarEcc
  /-- SLU_FAR_ECC_ADDR, 07_memory_tiers.md, R211. -/
  | sluFarEccAddr
  /-- SLU_NEAR_ECC, 07_memory_tiers.md, R211. -/
  | sluNearEcc
  /-- KV_CTRL, 08_attention_kv.md, R242. -/
  | kvCtrl
  /-- KV_STAT, 08_attention_kv.md, R242. -/
  | kvStat
  /-- KV_FREE, 08_attention_kv.md, R242. -/
  | kvFree
  /-- KV_USE, 08_attention_kv.md, R242. -/
  | kvUse
  /-- KV_COLLISIONS, 08_attention_kv.md, R242. -/
  | kvCollisions
  /-- KV_HASH_KEY0, 08_attention_kv.md, R242. -/
  | kvHashKey0
  /-- KV_HASH_KEY1, 08_attention_kv.md, R242. -/
  | kvHashKey1
  /-- KV_WINDOW, 08_attention_kv.md, R242. -/
  | kvWindow
  /-- CAM_PORTn_CFG, 09_convolution_vision.md, R263. -/
  | camPortCfg
  /-- CAM_PORTn_SIZE, 09_convolution_vision.md, R263. -/
  | camPortSize
  /-- CAM_PORTn_TIMING, 09_convolution_vision.md, R263. -/
  | camPortTiming
  /-- CAM_PORTn_BLACK, 09_convolution_vision.md, R263. -/
  | camPortBlack
  /-- CAM_PORTn_CCMk, 09_convolution_vision.md, R263. -/
  | camPortCcm
  /-- CAM_PORTn_BUFBASE, 09_convolution_vision.md, R263. -/
  | camPortBufbase
  /-- CAM_PORTn_BUF, 09_convolution_vision.md, R263. -/
  | camPortBuf
  /-- CAM_PORTn_REC, 09_convolution_vision.md, R263. -/
  | camPortRec
  /-- CAM_PORTn_STAT, 09_convolution_vision.md, R263. -/
  | camPortStat
  /-- CAM_LIMIT, 09_convolution_vision.md, R263. -/
  | camLimit
  /-- CAM_LOAD, 09_convolution_vision.md, R263. -/
  | camLoad
  /-- FUS_CTRL, 10_fusion.md, R292. -/
  | fusCtrl
  /-- FUS_STAT, 10_fusion.md, R292. -/
  | fusStat
  /-- FUS_LADDER_AT, 10_fusion.md, R292. -/
  | fusLadderAt
  /-- FUS_LATE, 10_fusion.md, R292. -/
  | fusLate
  /-- FUS_PORTp_POST, 10_fusion.md, R292. -/
  | fusPortPost
  /-- FUS_PORTp_RING, 10_fusion.md, R292. -/
  | fusPortRing
  /-- FUS_STRm_STAT, 10_fusion.md, R292. -/
  | fusStrStat
  /-- FUS_STRm_LAST, 10_fusion.md, R292. -/
  | fusStrLast
  /-- PLAN_CTRL, 11_planning.md, R314. -/
  | planCtrl
  /-- PLAN_STAT, 11_planning.md, R314. -/
  | planStat
  /-- PLAN_EPOCH, 11_planning.md, R314. -/
  | planEpoch
  /-- PLAN_EPOCH_AT, 11_planning.md, R314. -/
  | planEpochAt
  /-- PLAN_GEOM, 11_planning.md, R314. -/
  | planGeom
  /-- PLAN_COUNT, 11_planning.md, R314. -/
  | planCount
  /-- LE_ENGn_CFG, 12_loop_engines.md, R343. -/
  | leEngCfg
  /-- LE_ENGn_STAT, 12_loop_engines.md, R343. -/
  | leEngStat
  /-- LE_ENGn_TICK_AT, 12_loop_engines.md, R343. -/
  | leEngTickAt
  /-- LE_ENGn_FLIP_AT, 12_loop_engines.md, R343. -/
  | leEngFlipAt
  /-- LE_ENGn_REF_AGE, 12_loop_engines.md, R343. -/
  | leEngRefAge
  /-- LE_ENGn_HOLD_AT, 12_loop_engines.md, R343. -/
  | leEngHoldAt
  /-- LE_ENGn_CAP, 12_loop_engines.md, R343. -/
  | leEngCap
  /-- LE_ENGn_CAP_START, 12_loop_engines.md, R343. -/
  | leEngCapStart
  /-- LE_EARLY, 12_loop_engines.md, R343. -/
  | leEarly
  /-- LE_VNOM, 12_loop_engines.md, R343. -/
  | leVnom
  /-- LE_JOINTj, 12_loop_engines.md, R343. -/
  | leJoint
  /-- MBX_m_BASE, 13_steward_commands.md, R348. -/
  | mbxBase
  /-- MBX_m_REQ, 13_steward_commands.md, R348. -/
  | mbxReq
  /-- MBX_m_CPL, 13_steward_commands.md, R348. -/
  | mbxCpl
  /-- MBX_m_STAT, 13_steward_commands.md, R348. -/
  | mbxStat
  /-- MBX_m_LAST_DB, 13_steward_commands.md, R348. -/
  | mbxLastDb
  /-- EIC_SRCs_CFG, 14_application_cores.md, R384. -/
  | eicSrcCfg
  /-- EIC_PENDk, 14_application_cores.md, R384. -/
  | eicPend
  /-- EIC_ACTIVEk, 14_application_cores.md, R384. -/
  | eicActive
  /-- EIC_STAT, 14_application_cores.md, R384. -/
  | eicStat
  /-- EIC_Tt_ENABLEk, 14_application_cores.md, R384. -/
  | eicTEnable
  /-- EIC_Tt_THRESH, 14_application_cores.md, R384. -/
  | eicTThresh
  /-- EIC_Tt_CLAIM, 14_application_cores.md, R384. -/
  | eicTClaim
  /-- EIC_Tt_COMPLETE, 14_application_cores.md, R384. -/
  | eicTComplete
  /-- EIC_Tt_TIMECMP, 14_application_cores.md, R384. -/
  | eicTTimecmp
  /-- EIC_Tt_SOFT, 14_application_cores.md, R384. -/
  | eicTSoft
  /-- ETH_PORTp_CFG, 15_robot_interfaces.md, R392. -/
  | ethPortCfg
  /-- ETH_PORTp_STAT, 15_robot_interfaces.md, R392. -/
  | ethPortStat
  /-- ETH_PORTp_GCLb_e, 15_robot_interfaces.md, R392. -/
  | ethPortGcl
  /-- SPI_n_SLOTs, 15_robot_interfaces.md, R394. -/
  | spiSlot
  /-- SPI_n_CFG, 15_robot_interfaces.md, R394. -/
  | spiCfg
  /-- SS_CFG, 15_robot_interfaces.md, R398. -/
  | ssCfg
  /-- SS_STAT, 15_robot_interfaces.md, R398. -/
  | ssStat
  /-- CNL_PORTp_STAT, 15_robot_interfaces.md, R406. -/
  | cnlPortStat
  /-- BOOT_LATCH, 16_boot_security_management.md, R422. -/
  | bootLatch
  /-- PMAP_VIOL, 16_boot_security_management.md, R422. -/
  | pmapViol
  /-- PMAP_DEBUG, 16_boot_security_management.md, R422. -/
  | pmapDebug
  /-- PMAP_PERMc, 16_boot_security_management.md, R422. -/
  | pmapPerm
  /-- PMAP_MBXm, 16_boot_security_management.md, R422. -/
  | pmapMbx
  /-- PMAP_WINw, 16_boot_security_management.md, R422. -/
  | pmapWin
  /-- PMAP_GRANT, 16_boot_security_management.md, R422. -/
  | pmapGrant
  /-- PMAP_FWc_rB, 16_boot_security_management.md, R422. -/
  | pmapFwB
  /-- PMAP_FWc_rL, 16_boot_security_management.md, R422. -/
  | pmapFwL
  deriving DecidableEq, Repr

/-- One register: its name and up to two numbers (channel, class, port, ...). -/
structure Reg where
  name : RegName
  i : Nat
  j : Nat
  deriving DecidableEq, Repr

/-- A named bit field of a register: lowest bit and width. -/
structure Fld where
  lo : Nat
  w : Nat
  deriving DecidableEq, Repr

/-- What a register's map says: block base and offset, the two strides and counts, width in bits, reset value, and
the masks of its RW, W1C, WO and RW-L bits (R6 to R8); every other bit is RO or reserved. -/
structure RegInfo where
  base : Nat
  off : Nat
  si : Nat
  ci : Nat
  sj : Nat
  cj : Nat
  width : Nat
  reset : Nat
  rw : Nat
  w1c : Nat
  wo : Nat
  rwl : Nat
  deriving DecidableEq, Repr

/-- The register map (R4, R6, R8 and the register tables of the chapters). -/
def RegName.info : RegName → RegInfo
  | .timeCtrl => ⟨0x20200000, 0x0, 0x0, 1, 0x0, 1, 32, 0x3e82, 0xffff3, 0x0, 0x0, 0x0⟩
  | .timeStatus => ⟨0x20200000, 0x4, 0x0, 1, 0x0, 1, 32, 0x1, 0x0, 0x10, 0x0, 0x0⟩
  | .timeDtNow => ⟨0x20200000, 0x8, 0x0, 1, 0x0, 1, 64, 0x0, 0x0, 0x0, 0x0, 0x0⟩
  | .timeServoOffset => ⟨0x20200000, 0x10, 0x0, 1, 0x0, 1, 64, 0x0, 0x0, 0x0, 0xffffffffffffffff, 0x0⟩
  | .timeServoKp => ⟨0x20200000, 0x18, 0x0, 1, 0x0, 1, 32, 0x180000, 0xffffffff, 0x0, 0x0, 0x0⟩
  | .timeServoKi => ⟨0x20200000, 0x1c, 0x0, 1, 0x0, 1, 32, 0x4000, 0xffffffff, 0x0, 0x0, 0x0⟩
  | .timeServoRate => ⟨0x20200000, 0x20, 0x0, 1, 0x0, 1, 32, 0x0, 0x0, 0x0, 0x0, 0x0⟩
  | .timeServoInteg => ⟨0x20200000, 0x28, 0x0, 1, 0x0, 1, 64, 0x0, 0xffffffffffffffff, 0x0, 0x0, 0x0⟩
  | .timeJumpAt => ⟨0x20200000, 0x30, 0x0, 1, 0x0, 1, 64, 0x0, 0x0, 0x0, 0x0, 0x0⟩
  | .timeJumpSize => ⟨0x20200000, 0x38, 0x0, 1, 0x0, 1, 64, 0x0, 0x0, 0x0, 0x0, 0x0⟩
  | .cueChCfg => ⟨0x20300000, 0x0, 0x20, 64, 0x0, 1, 32, 0x0, 0xffffffff, 0x0, 0x0, 0x0⟩
  | .cueChTime => ⟨0x20300000, 0x8, 0x20, 64, 0x0, 1, 64, 0x0, 0xffffffffffffffff, 0x0, 0x0, 0x0⟩
  | .cueChPeriod => ⟨0x20300000, 0x10, 0x20, 64, 0x0, 1, 64, 0x0, 0xffffffffff, 0x0, 0x0, 0x0⟩
  | .cueChStat => ⟨0x20300000, 0x18, 0x20, 64, 0x0, 1, 32, 0x0, 0x0, 0x3, 0x0, 0x0⟩
  | .capChCfg => ⟨0x20300000, 0x800, 0x20, 32, 0x0, 1, 32, 0x0, 0xffffffe1, 0x0, 0x0, 0x0⟩
  | .capChCnt => ⟨0x20300000, 0x808, 0x20, 32, 0x0, 1, 32, 0x0, 0x0, 0x0, 0x0, 0x0⟩
  | .capChData => ⟨0x20300000, 0x810, 0x20, 32, 0x0, 1, 64, 0x0, 0x0, 0x0, 0x0, 0x0⟩
  | .capChStat => ⟨0x20300000, 0x818, 0x20, 32, 0x0, 1, 32, 0x0, 0x0, 0x1, 0x0, 0x0⟩
  | .cdcStatus => ⟨0x0, 0xfff00, 0x0, 4, 0x0, 1, 32, 0x0, 0x0, 0xff00ffff, 0x0, 0x0⟩
  | .cdcLost => ⟨0x0, 0xfff04, 0x0, 4, 0x0, 1, 32, 0x0, 0x0, 0x0, 0x0, 0x0⟩
  | .cpcMode => ⟨0x20500000, 0x0, 0x0, 1, 0x0, 1, 32, 0x410, 0xf00, 0x0, 0x0, 0x0⟩
  | .cpcModeAt => ⟨0x20500000, 0x8, 0x0, 1, 0x0, 1, 64, 0x0, 0x0, 0x0, 0x0, 0x0⟩
  | .cpcWindowEnd => ⟨0x20500000, 0x10, 0x0, 1, 0x0, 1, 64, 0x0, 0x0, 0x0, 0x0, 0x0⟩
  | .pbuCtrl => ⟨0x20000000, 0x0, 0x0, 1, 0x0, 1, 32, 0xa1400, 0xffff03, 0x0, 0x0, 0x0⟩
  | .pbuStat => ⟨0x20000000, 0x4, 0x0, 1, 0x0, 1, 32, 0x0, 0x0, 0x1, 0x0, 0x0⟩
  | .pbuPeriod => ⟨0x20000000, 0x8, 0x0, 1, 0x0, 1, 32, 0x3d090, 0xffffffff, 0x0, 0x0, 0x0⟩
  | .pbuSquallCfg => ⟨0x20000000, 0xc, 0x0, 1, 0x0, 1, 32, 0x0, 0xff7f7f00, 0x0, 0x0, 0x0⟩
  | .pbuPeriodAt => ⟨0x20000000, 0x10, 0x0, 1, 0x0, 1, 64, 0x0, 0x0, 0x0, 0x0, 0x0⟩
  | .pbuClassCfg => ⟨0x20000000, 0x1000, 0x100, 16, 0x0, 1, 32, 0x0, 0xffd8ffff, 0x0, 0x0, 0x0⟩
  | .pbuClassStat => ⟨0x20000000, 0x1004, 0x100, 16, 0x0, 1, 32, 0x0, 0x0, 0xffff, 0x0, 0x0⟩
  | .pbuClassOvr => ⟨0x20000000, 0x1008, 0x100, 16, 0x0, 1, 32, 0x0, 0x0, 0x0, 0x0, 0x0⟩
  | .pbuClassBudget => ⟨0x20000000, 0x1010, 0x100, 16, 0x8, 8, 64, 0xffffffffffffffff, 0x0, 0x0, 0x0, 0x0⟩
  | .pbuClassShadow => ⟨0x20000000, 0x1050, 0x100, 16, 0x8, 8, 64, 0xffffffffffffffff, 0xffffffffffffffff, 0x0, 0x0, 0x0⟩
  | .pbuClassUsed => ⟨0x20000000, 0x1090, 0x100, 16, 0x8, 8, 64, 0x0, 0x0, 0x0, 0x0, 0x0⟩
  | .pbuCtxCfg => ⟨0x20000000, 0x80000, 0x20, 1024, 0x0, 1, 32, 0x1, 0xffff, 0x0, 0x0, 0x0⟩
  | .pbuCtxConsumed => ⟨0x20000000, 0x80008, 0x20, 1024, 0x0, 1, 64, 0x0, 0x0, 0x0, 0x0, 0x0⟩
  | .rdvPortOp => ⟨0x20700000, 0x0, 0x1000, 64, 0x0, 1, 64, 0x0, 0x0, 0x0, 0xc3ffffe0ffffffff, 0x0⟩
  | .rdvPortDl => ⟨0x20700000, 0x8, 0x1000, 64, 0x0, 1, 64, 0x0, 0xffffffffffffffff, 0x0, 0x0, 0x0⟩
  | .rdvPortRes => ⟨0x20700000, 0x10, 0x1000, 64, 0x0, 1, 64, 0x0, 0x0, 0x0, 0x0, 0x0⟩
  | .pbuWeirStat => ⟨0x20000000, 0x40000, 0x100, 4, 0x0, 1, 32, 0x40, 0x0, 0x0, 0x0, 0x0⟩
  | .pbuWeirDispatched => ⟨0x20000000, 0x40008, 0x100, 4, 0x0, 1, 64, 0x0, 0x0, 0x0, 0x0, 0x0⟩
  | .pbuWeirStalls => ⟨0x20000000, 0x40010, 0x100, 4, 0x0, 1, 64, 0x0, 0x0, 0x0, 0x0, 0x0⟩
  | .pbuFabRepairLo => ⟨0x20000000, 0x41000, 0x0, 1, 0x0, 1, 64, 0x0, 0x0, 0x0, 0x0, 0x0⟩
  | .pbuFabRepairHi => ⟨0x20000000, 0x41008, 0x0, 1, 0x0, 1, 64, 0x0, 0x0, 0x0, 0x0, 0x0⟩
  | .pbuFabAvail => ⟨0x20000000, 0x41010, 0x8, 4, 0x0, 1, 64, 0xffffffffffffffff, 0x0, 0x0, 0x0, 0x0⟩
  | .sluEngStat => ⟨0x20800000, 0x0, 0x40, 12, 0x0, 1, 32, 0x0, 0x0, 0x6, 0x0, 0x0⟩
  | .sluEngBytes => ⟨0x20800000, 0x8, 0x40, 12, 0x0, 1, 64, 0x0, 0x0, 0x0, 0x0, 0x0⟩
  | .sluCtxSpill => ⟨0x20800000, 0x20000, 0x8, 1024, 0x0, 1, 32, 0x0, 0x0, 0x0, 0x0, 0x0⟩
  | .sluFarEcc => ⟨0x20800000, 0x1000, 0x0, 1, 0x0, 1, 32, 0x0, 0x0, 0x1, 0x0, 0x0⟩
  | .sluFarEccAddr => ⟨0x20800000, 0x1008, 0x0, 1, 0x0, 1, 64, 0x0, 0x0, 0x0, 0x0, 0x0⟩
  | .sluNearEcc => ⟨0x20800000, 0x1010, 0x0, 1, 0x0, 1, 32, 0x0, 0x0, 0x1, 0x0, 0x0⟩
  | .kvCtrl => ⟨0x20900000, 0x0, 0x0, 1, 0x0, 1, 32, 0x50, 0xffd, 0x0, 0x0, 0x0⟩
  | .kvStat => ⟨0x20900000, 0x4, 0x0, 1, 0x0, 1, 32, 0x0, 0x0, 0xe, 0x0, 0x0⟩
  | .kvFree => ⟨0x20900000, 0x8, 0x0, 1, 0x0, 1, 64, 0x0, 0x0, 0x0, 0x0, 0x0⟩
  | .kvUse => ⟨0x20900000, 0x10, 0x0, 1, 0x0, 1, 64, 0x0, 0x0, 0x0, 0x0, 0x0⟩
  | .kvCollisions => ⟨0x20900000, 0x18, 0x0, 1, 0x0, 1, 32, 0x0, 0x0, 0x0, 0x0, 0x0⟩
  | .kvHashKey0 => ⟨0x20900000, 0x20, 0x0, 1, 0x0, 1, 64, 0x0, 0x0, 0x0, 0xffffffffffffffff, 0x0⟩
  | .kvHashKey1 => ⟨0x20900000, 0x28, 0x0, 1, 0x0, 1, 64, 0x0, 0x0, 0x0, 0xffffffffffffffff, 0x0⟩
  | .kvWindow => ⟨0x20900000, 0x30, 0x0, 1, 0x0, 1, 32, 0x0, 0x1f, 0x0, 0x0, 0x0⟩
  | .camPortCfg => ⟨0x20e00000, 0x0, 0x1000, 8, 0x0, 1, 32, 0x0, 0xfffffff8, 0x0, 0x0, 0x0⟩
  | .camPortSize => ⟨0x20e00000, 0x8, 0x1000, 8, 0x0, 1, 64, 0x0, 0xffffffffffffffc0, 0x0, 0x0, 0x0⟩
  | .camPortTiming => ⟨0x20e00000, 0x10, 0x1000, 8, 0x0, 1, 64, 0x0, 0xffffffffffffc0ff, 0x0, 0x0, 0x0⟩
  | .camPortBlack => ⟨0x20e00000, 0x18, 0x1000, 8, 0x0, 1, 64, 0x0, 0xffffffffffffffff, 0x0, 0x0, 0x0⟩
  | .camPortCcm => ⟨0x20e00000, 0x20, 0x1000, 8, 0x8, 3, 64, 0x0, 0xffffffffffffffff, 0x0, 0x0, 0x0⟩
  | .camPortBufbase => ⟨0x20e00000, 0x40, 0x1000, 8, 0x0, 1, 64, 0x0, 0xffffffffffffffff, 0x0, 0x0, 0x0⟩
  | .camPortBuf => ⟨0x20e00000, 0x48, 0x1000, 8, 0x0, 1, 64, 0x0, 0x3ffff, 0x0, 0xff00000000, 0x0⟩
  | .camPortRec => ⟨0x20e00000, 0x50, 0x1000, 8, 0x0, 1, 64, 0x0, 0xff00ffffffffffff, 0x0, 0x0, 0x0⟩
  | .camPortStat => ⟨0x20e00000, 0x58, 0x1000, 8, 0x0, 1, 32, 0x0, 0x0, 0xe, 0x0, 0x0⟩
  | .camLimit => ⟨0x20e00000, 0x8000, 0x0, 1, 0x0, 1, 64, 0x0, 0xffffffffffffffff, 0x0, 0x0, 0x0⟩
  | .camLoad => ⟨0x20e00000, 0x8008, 0x0, 1, 0x0, 1, 64, 0x0, 0x0, 0x0, 0x0, 0x0⟩
  | .fusCtrl => ⟨0x20a00000, 0x0, 0x0, 1, 0x0, 1, 32, 0xc800a00, 0xfff7ff07, 0x0, 0x0, 0x0⟩
  | .fusStat => ⟨0x20a00000, 0x4, 0x0, 1, 0x0, 1, 32, 0x34, 0x0, 0x300, 0x0, 0x0⟩
  | .fusLadderAt => ⟨0x20a00000, 0x8, 0x0, 1, 0x0, 1, 64, 0x0, 0x0, 0x0, 0x0, 0x0⟩
  | .fusLate => ⟨0x20a00000, 0x10, 0x0, 1, 0x0, 1, 32, 0x0, 0x0, 0x0, 0x0, 0x0⟩
  | .fusPortPost => ⟨0x20a00000, 0x100, 0x8, 16, 0x0, 1, 32, 0x0, 0x0, 0x0, 0xff, 0x0⟩
  | .fusPortRing => ⟨0x20a00000, 0x180, 0x8, 16, 0x0, 1, 64, 0x0, 0x0, 0x0, 0x0, 0x0⟩
  | .fusStrStat => ⟨0x20a00000, 0x1000, 0x10, 128, 0x0, 1, 32, 0x0, 0x0, 0x8, 0x0, 0x0⟩
  | .fusStrLast => ⟨0x20a00000, 0x1008, 0x10, 128, 0x0, 1, 64, 0x0, 0x0, 0x0, 0x0, 0x0⟩
  | .planCtrl => ⟨0x20b00000, 0x0, 0x0, 1, 0x0, 1, 32, 0x10c000, 0xfff001, 0x0, 0x0, 0x0⟩
  | .planStat => ⟨0x20b00000, 0x4, 0x0, 1, 0x0, 1, 32, 0x0, 0x0, 0x30, 0x0, 0x0⟩
  | .planEpoch => ⟨0x20b00000, 0x8, 0x0, 1, 0x0, 1, 64, 0x0, 0x0, 0x0, 0x0, 0x0⟩
  | .planEpochAt => ⟨0x20b00000, 0x10, 0x0, 1, 0x0, 1, 64, 0x0, 0x0, 0x0, 0x0, 0x0⟩
  | .planGeom => ⟨0x20b00000, 0x18, 0x0, 1, 0x0, 1, 64, 0x0, 0x0, 0x0, 0x0, 0x0⟩
  | .planCount => ⟨0x20b00000, 0x20, 0x0, 1, 0x0, 1, 64, 0x0, 0x0, 0x0, 0x0, 0x0⟩
  | .leEngCfg => ⟨0x20c00000, 0x0, 0x10000, 8, 0x0, 1, 32, 0x1e07d0, 0xf8ffffff, 0x0, 0x0, 0x0⟩
  | .leEngStat => ⟨0x20c00000, 0x4, 0x10000, 8, 0x0, 1, 32, 0x0, 0x0, 0xf80, 0x0, 0x0⟩
  | .leEngTickAt => ⟨0x20c00000, 0x8, 0x10000, 8, 0x0, 1, 64, 0x0, 0x0, 0x0, 0x0, 0x0⟩
  | .leEngFlipAt => ⟨0x20c00000, 0x10, 0x10000, 8, 0x0, 1, 64, 0x0, 0x0, 0x0, 0x0, 0x0⟩
  | .leEngRefAge => ⟨0x20c00000, 0x18, 0x10000, 8, 0x0, 1, 32, 0x0, 0x0, 0x0, 0x0, 0x0⟩
  | .leEngHoldAt => ⟨0x20c00000, 0x20, 0x10000, 8, 0x0, 1, 64, 0x0, 0x0, 0x0, 0x0, 0x0⟩
  | .leEngCap => ⟨0x20c00000, 0x28, 0x10000, 8, 0x0, 1, 32, 0x0, 0x0, 0x0, 0x0, 0x0⟩
  | .leEngCapStart => ⟨0x20c00000, 0x30, 0x10000, 8, 0x0, 1, 64, 0x0, 0x0, 0x0, 0x0, 0x0⟩
  | .leEarly => ⟨0x20c00000, 0x80000, 0x0, 1, 0x0, 1, 32, 0x0, 0x0, 0x0, 0x0, 0x0⟩
  | .leVnom => ⟨0x20c00000, 0x80008, 0x0, 1, 0x0, 1, 32, 0x42400000, 0xffffffff, 0x0, 0x0, 0x0⟩
  | .leJoint => ⟨0x20c00000, 0x80100, 0x4, 64, 0x0, 1, 32, 0x0, 0xe000ffff, 0x0, 0x0, 0x0⟩
  | .mbxBase => ⟨0x20400000, 0x0, 0x1000, 256, 0x0, 1, 64, 0x0, 0x0, 0x0, 0x0, 0xffffffff8001⟩
  | .mbxReq => ⟨0x20400000, 0x8, 0x1000, 256, 0x0, 1, 32, 0x0, 0x3f, 0x0, 0x0, 0x0⟩
  | .mbxCpl => ⟨0x20400000, 0xc, 0x1000, 256, 0x0, 1, 32, 0x0, 0x3f, 0x0, 0x0, 0x0⟩
  | .mbxStat => ⟨0x20400000, 0x10, 0x1000, 256, 0x0, 1, 32, 0x0, 0x0, 0x1, 0x0, 0x0⟩
  | .mbxLastDb => ⟨0x20400000, 0x18, 0x1000, 256, 0x0, 1, 64, 0x0, 0x0, 0x0, 0x0, 0x0⟩
  | .eicSrcCfg => ⟨0x20100000, 0x0, 0x4, 1024, 0x0, 1, 32, 0x0, 0xff6f, 0x0, 0x0, 0x0⟩
  | .eicPend => ⟨0x20100000, 0x1000, 0x4, 32, 0x0, 1, 32, 0x0, 0x0, 0x0, 0x0, 0x0⟩
  | .eicActive => ⟨0x20100000, 0x1080, 0x4, 32, 0x0, 1, 32, 0x0, 0x0, 0x0, 0x0, 0x0⟩
  | .eicStat => ⟨0x20100000, 0x1200, 0x0, 1, 0x0, 1, 32, 0x0, 0x0, 0x3, 0x0, 0x0⟩
  | .eicTEnable => ⟨0x20100000, 0x10000, 0x1000, 34, 0x4, 32, 32, 0x0, 0xffffffff, 0x0, 0x0, 0x0⟩
  | .eicTThresh => ⟨0x20100000, 0x10800, 0x1000, 34, 0x0, 1, 32, 0x0, 0xf, 0x0, 0x0, 0x0⟩
  | .eicTClaim => ⟨0x20100000, 0x10804, 0x1000, 34, 0x0, 1, 32, 0x0, 0x0, 0x0, 0x0, 0x0⟩
  | .eicTComplete => ⟨0x20100000, 0x10808, 0x1000, 34, 0x0, 1, 32, 0x0, 0x0, 0x0, 0x3ff, 0x0⟩
  | .eicTTimecmp => ⟨0x20100000, 0x10810, 0x1000, 34, 0x0, 1, 64, 0xffffffffffffffff, 0xffffffffffffffff, 0x0, 0x0, 0x0⟩
  | .eicTSoft => ⟨0x20100000, 0x10818, 0x1000, 34, 0x0, 1, 32, 0x0, 0x1, 0x0, 0x0, 0x0⟩
  | .ethPortCfg => ⟨0x20d00000, 0x0, 0x10000, 4, 0x0, 1, 32, 0x8000, 0xff00fdff, 0x0, 0x0, 0x0⟩
  | .ethPortStat => ⟨0x20d00000, 0x4, 0x10000, 4, 0x0, 1, 32, 0x0, 0x0, 0x8, 0x0, 0x0⟩
  | .ethPortGcl => ⟨0x20d00000, 0x1000, 0x10000, 4, 0x4, 512, 32, 0x0, 0xffffffff, 0x0, 0x0, 0x0⟩
  | .spiSlot => ⟨0x20f00000, 0x20000, 0x1000, 2, 0x8, 16, 64, 0x0, 0xffffffffbffffc00, 0x0, 0x40000000, 0x0⟩
  | .spiCfg => ⟨0x20f00000, 0x20800, 0x1000, 2, 0x0, 1, 32, 0x0, 0x3, 0x0, 0x0, 0x0⟩
  | .ssCfg => ⟨0x20f00000, 0x80000, 0x0, 1, 0x0, 1, 32, 0x1403e8, 0x80ffffff, 0x0, 0x0, 0x0⟩
  | .ssStat => ⟨0x20f00000, 0x80004, 0x0, 1, 0x0, 1, 32, 0x31, 0x0, 0x0, 0x0, 0x0⟩
  | .cnlPortStat => ⟨0x20d00000, 0xc0000, 0x100, 2, 0x0, 1, 32, 0x0, 0x0, 0xc, 0x0, 0x0⟩
  | .bootLatch => ⟨0x20600000, 0x0, 0x0, 1, 0x0, 1, 32, 0x0, 0x0, 0x0, 0x1, 0x0⟩
  | .pmapViol => ⟨0x20600000, 0x8, 0x0, 1, 0x0, 1, 64, 0x0, 0x0, 0x0, 0x0, 0x0⟩
  | .pmapDebug => ⟨0x20600000, 0x10, 0x0, 1, 0x0, 1, 32, 0x0, 0x0, 0x0, 0x0, 0xffc⟩
  | .pmapPerm => ⟨0x20600000, 0x100, 0x4, 11, 0x0, 1, 32, 0x0, 0x0, 0x0, 0x0, 0x7⟩
  | .pmapMbx => ⟨0x20600000, 0x400, 0x4, 256, 0x0, 1, 32, 0x0, 0x0, 0x0, 0x0, 0x87ffffff⟩
  | .pmapWin => ⟨0x20600000, 0x800, 0x8, 32, 0x0, 1, 64, 0x0, 0x0, 0x0, 0x0, 0xffe0ffffffffffff⟩
  | .pmapGrant => ⟨0x20600000, 0x900, 0x0, 1, 0x0, 1, 64, 0x0, 0x0, 0x0, 0xf8ffffc000000000, 0x0⟩
  | .pmapFwB => ⟨0x20600000, 0x10000, 0x400, 11, 0x10, 64, 64, 0x0, 0x0, 0x0, 0x0, 0xfffffffff000⟩
  | .pmapFwL => ⟨0x20600000, 0x10008, 0x400, 11, 0x10, 64, 64, 0x0, 0x0, 0x0, 0x0, 0xfffffffff00f⟩

/-- A part of the list of register names. -/
def regNames0 : List RegName :=
  [.timeCtrl, .timeStatus, .timeDtNow, .timeServoOffset, .timeServoKp, .timeServoKi, .timeServoRate, .timeServoInteg, .timeJumpAt, .timeJumpSize, .cueChCfg, .cueChTime, .cueChPeriod, .cueChStat, .capChCfg, .capChCnt, .capChData, .capChStat, .cdcStatus, .cdcLost, .cpcMode, .cpcModeAt, .cpcWindowEnd, .pbuCtrl, .pbuStat, .pbuPeriod, .pbuSquallCfg, .pbuPeriodAt, .pbuClassCfg, .pbuClassStat, .pbuClassOvr, .pbuClassBudget]

/-- A part of the list of register names. -/
def regNames1 : List RegName :=
  [.pbuClassShadow, .pbuClassUsed, .pbuCtxCfg, .pbuCtxConsumed, .rdvPortOp, .rdvPortDl, .rdvPortRes, .pbuWeirStat, .pbuWeirDispatched, .pbuWeirStalls, .pbuFabRepairLo, .pbuFabRepairHi, .pbuFabAvail, .sluEngStat, .sluEngBytes, .sluCtxSpill, .sluFarEcc, .sluFarEccAddr, .sluNearEcc, .kvCtrl, .kvStat, .kvFree, .kvUse, .kvCollisions, .kvHashKey0, .kvHashKey1, .kvWindow, .camPortCfg, .camPortSize, .camPortTiming, .camPortBlack, .camPortCcm]

/-- A part of the list of register names. -/
def regNames2 : List RegName :=
  [.camPortBufbase, .camPortBuf, .camPortRec, .camPortStat, .camLimit, .camLoad, .fusCtrl, .fusStat, .fusLadderAt, .fusLate, .fusPortPost, .fusPortRing, .fusStrStat, .fusStrLast, .planCtrl, .planStat, .planEpoch, .planEpochAt, .planGeom, .planCount, .leEngCfg, .leEngStat, .leEngTickAt, .leEngFlipAt, .leEngRefAge, .leEngHoldAt, .leEngCap, .leEngCapStart, .leEarly, .leVnom, .leJoint, .mbxBase]

/-- A part of the list of register names. -/
def regNames3 : List RegName :=
  [.mbxReq, .mbxCpl, .mbxStat, .mbxLastDb, .eicSrcCfg, .eicPend, .eicActive, .eicStat, .eicTEnable, .eicTThresh, .eicTClaim, .eicTComplete, .eicTTimecmp, .eicTSoft, .ethPortCfg, .ethPortStat, .ethPortGcl, .spiSlot, .spiCfg, .ssCfg, .ssStat, .cnlPortStat, .bootLatch, .pmapViol, .pmapDebug, .pmapPerm, .pmapMbx, .pmapWin, .pmapGrant, .pmapFwB, .pmapFwL]

/-- Every register name. -/
def regNames : List RegName := regNames0 ++ regNames1 ++ regNames2 ++ regNames3

namespace F

/-- TIME_CTRL.HOLDOVER_MS. -/
abbrev timeCtrl.HOLDOVER_MS : Fld := ⟨4, 16⟩
/-- TIME_CTRL.JUMP_ARM. -/
abbrev timeCtrl.JUMP_ARM : Fld := ⟨1, 1⟩
/-- TIME_CTRL.SERVO_EN. -/
abbrev timeCtrl.SERVO_EN : Fld := ⟨0, 1⟩
/-- TIME_STATUS.STEP_REFUSED. -/
abbrev timeStatus.STEP_REFUSED : Fld := ⟨4, 1⟩
/-- TIME_STATUS.RATE_CLAMPED. -/
abbrev timeStatus.RATE_CLAMPED : Fld := ⟨3, 1⟩
/-- TIME_STATUS.HOLDOVER. -/
abbrev timeStatus.HOLDOVER : Fld := ⟨2, 1⟩
/-- TIME_STATUS.JUMPED. -/
abbrev timeStatus.JUMPED : Fld := ⟨1, 1⟩
/-- TIME_STATUS.UNSYNCED. -/
abbrev timeStatus.UNSYNCED : Fld := ⟨0, 1⟩
/-- TIME_DT_NOW.DT. -/
abbrev timeDtNow.DT : Fld := ⟨0, 64⟩
/-- TIME_SERVO_OFFSET.OFFSET. -/
abbrev timeServoOffset.OFFSET : Fld := ⟨0, 64⟩
/-- TIME_SERVO_KP.KP. -/
abbrev timeServoKp.KP : Fld := ⟨0, 32⟩
/-- TIME_SERVO_KI.KI. -/
abbrev timeServoKi.KI : Fld := ⟨0, 32⟩
/-- TIME_SERVO_RATE.RATE. -/
abbrev timeServoRate.RATE : Fld := ⟨0, 32⟩
/-- TIME_SERVO_INTEG.INTEG. -/
abbrev timeServoInteg.INTEG : Fld := ⟨0, 64⟩
/-- TIME_JUMP_AT.JUMP_AT. -/
abbrev timeJumpAt.JUMP_AT : Fld := ⟨0, 64⟩
/-- TIME_JUMP_SIZE.JUMP_SIZE. -/
abbrev timeJumpSize.JUMP_SIZE : Fld := ⟨0, 64⟩
/-- CUE_CHn_CFG.OWNER. -/
abbrev cueChCfg.OWNER : Fld := ⟨22, 10⟩
/-- CUE_CHn_CFG.OWNED. -/
abbrev cueChCfg.OWNED : Fld := ⟨21, 1⟩
/-- CUE_CHn_CFG.PULSE_W. -/
abbrev cueChCfg.PULSE_W : Fld := ⟨15, 6⟩
/-- CUE_CHn_CFG.PIN. -/
abbrev cueChCfg.PIN : Fld := ⟨11, 4⟩
/-- CUE_CHn_CFG.PIN_ACT. -/
abbrev cueChCfg.PIN_ACT : Fld := ⟨9, 2⟩
/-- CUE_CHn_CFG.PIN_EN. -/
abbrev cueChCfg.PIN_EN : Fld := ⟨8, 1⟩
/-- CUE_CHn_CFG.TRIG. -/
abbrev cueChCfg.TRIG : Fld := ⟨2, 6⟩
/-- CUE_CHn_CFG.PERIODIC. -/
abbrev cueChCfg.PERIODIC : Fld := ⟨1, 1⟩
/-- CUE_CHn_CFG.ARM. -/
abbrev cueChCfg.ARM : Fld := ⟨0, 1⟩
/-- CUE_CHn_TIME.TIME. -/
abbrev cueChTime.TIME : Fld := ⟨0, 64⟩
/-- CUE_CHn_PERIOD.PERIOD. -/
abbrev cueChPeriod.PERIOD : Fld := ⟨0, 40⟩
/-- CUE_CHn_STAT.SKIPPED. -/
abbrev cueChStat.SKIPPED : Fld := ⟨16, 16⟩
/-- CUE_CHn_STAT.REBASED. -/
abbrev cueChStat.REBASED : Fld := ⟨2, 1⟩
/-- CUE_CHn_STAT.PAST. -/
abbrev cueChStat.PAST : Fld := ⟨1, 1⟩
/-- CUE_CHn_STAT.FIRED. -/
abbrev cueChStat.FIRED : Fld := ⟨0, 1⟩
/-- CAP_CHn_CFG.OWNER. -/
abbrev capChCfg.OWNER : Fld := ⟨22, 10⟩
/-- CAP_CHn_CFG.OWNED. -/
abbrev capChCfg.OWNED : Fld := ⟨21, 1⟩
/-- CAP_CHn_CFG.FILTER. -/
abbrev capChCfg.FILTER : Fld := ⟨13, 8⟩
/-- CAP_CHn_CFG.SRC. -/
abbrev capChCfg.SRC : Fld := ⟨7, 6⟩
/-- CAP_CHn_CFG.EDGE. -/
abbrev capChCfg.EDGE : Fld := ⟨5, 2⟩
/-- CAP_CHn_CFG.EN. -/
abbrev capChCfg.EN : Fld := ⟨0, 1⟩
/-- CAP_CHn_CNT.CNT. -/
abbrev capChCnt.CNT : Fld := ⟨0, 32⟩
/-- CAP_CHn_DATA.DT. -/
abbrev capChData.DT : Fld := ⟨0, 64⟩
/-- CAP_CHn_STAT.LOST. -/
abbrev capChStat.LOST : Fld := ⟨16, 16⟩
/-- CAP_CHn_STAT.LEVEL. -/
abbrev capChStat.LEVEL : Fld := ⟨1, 5⟩
/-- CAP_CHn_STAT.OVF. -/
abbrev capChStat.OVF : Fld := ⟨0, 1⟩
/-- BLOCK_CDC_STATUS.STALE. -/
abbrev cdcStatus.STALE : Fld := ⟨24, 8⟩
/-- BLOCK_CDC_STATUS.ELASTIC. -/
abbrev cdcStatus.ELASTIC : Fld := ⟨16, 8⟩
/-- BLOCK_CDC_STATUS.WAS_ELASTIC. -/
abbrev cdcStatus.WAS_ELASTIC : Fld := ⟨8, 8⟩
/-- BLOCK_CDC_STATUS.OVR. -/
abbrev cdcStatus.OVR : Fld := ⟨0, 8⟩
/-- BLOCK_CDC_LOST.LOST. -/
abbrev cdcLost.LOST : Fld := ⟨0, 32⟩
/-- CPC_MODE.FAR_LOW. -/
abbrev cpcMode.FAR_LOW : Fld := ⟨20, 1⟩
/-- CPC_MODE.STATE. -/
abbrev cpcMode.STATE : Fld := ⟨16, 4⟩
/-- CPC_MODE.PEND_PROFILE. -/
abbrev cpcMode.PEND_PROFILE : Fld := ⟨10, 2⟩
/-- CPC_MODE.PEND_ENVELOPE. -/
abbrev cpcMode.PEND_ENVELOPE : Fld := ⟨8, 2⟩
/-- CPC_MODE.PROFILE. -/
abbrev cpcMode.PROFILE : Fld := ⟨4, 2⟩
/-- CPC_MODE.ENVELOPE. -/
abbrev cpcMode.ENVELOPE : Fld := ⟨0, 2⟩
/-- CPC_MODE_AT.AT. -/
abbrev cpcModeAt.AT : Fld := ⟨0, 64⟩
/-- CPC_WINDOW_END.END. -/
abbrev cpcWindowEnd.END : Fld := ⟨0, 64⟩
/-- PBU_CTRL.WDOG_MS. -/
abbrev pbuCtrl.WDOG_MS : Fld := ⟨16, 8⟩
/-- PBU_CTRL.SLICE. -/
abbrev pbuCtrl.SLICE : Fld := ⟨8, 8⟩
/-- PBU_CTRL.SWAP. -/
abbrev pbuCtrl.SWAP : Fld := ⟨1, 1⟩
/-- PBU_CTRL.EN. -/
abbrev pbuCtrl.EN : Fld := ⟨0, 1⟩
/-- PBU_STAT.POWER_SCALED. -/
abbrev pbuStat.POWER_SCALED : Fld := ⟨1, 1⟩
/-- PBU_STAT.MISSED. -/
abbrev pbuStat.MISSED : Fld := ⟨0, 1⟩
/-- PBU_PERIOD.LEN. -/
abbrev pbuPeriod.LEN : Fld := ⟨0, 32⟩
/-- PBU_SQUALL_CFG.EN. -/
abbrev pbuSquallCfg.EN : Fld := ⟨31, 1⟩
/-- PBU_SQUALL_CFG.MESH. -/
abbrev pbuSquallCfg.MESH : Fld := ⟨24, 7⟩
/-- PBU_SQUALL_CFG.FAR. -/
abbrev pbuSquallCfg.FAR : Fld := ⟨16, 7⟩
/-- PBU_SQUALL_CFG.NEAR. -/
abbrev pbuSquallCfg.NEAR : Fld := ⟨8, 7⟩
/-- PBU_PERIOD_AT.AT. -/
abbrev pbuPeriodAt.AT : Fld := ⟨0, 64⟩
/-- PBU_CLASSc_CFG.PRIO. -/
abbrev pbuClassCfg.PRIO : Fld := ⟨28, 4⟩
/-- PBU_CLASSc_CFG.DONOR. -/
abbrev pbuClassCfg.DONOR : Fld := ⟨24, 4⟩
/-- PBU_CLASSc_CFG.DONOR_EN. -/
abbrev pbuClassCfg.DONOR_EN : Fld := ⟨23, 1⟩
/-- PBU_CLASSc_CFG.CRIT. -/
abbrev pbuClassCfg.CRIT : Fld := ⟨22, 1⟩
/-- PBU_CLASSc_CFG.CAL_DEFAULT. -/
abbrev pbuClassCfg.CAL_DEFAULT : Fld := ⟨21, 1⟩
/-- PBU_CLASSc_CFG.GROUP. -/
abbrev pbuClassCfg.GROUP : Fld := ⟨19, 2⟩
/-- PBU_CLASSc_CFG.WEIGHT. -/
abbrev pbuClassCfg.WEIGHT : Fld := ⟨0, 16⟩
/-- PBU_CLASSc_STAT.GATED. -/
abbrev pbuClassStat.GATED : Fld := ⟨16, 8⟩
/-- PBU_CLASSc_STAT.WAS_GATED. -/
abbrev pbuClassStat.WAS_GATED : Fld := ⟨8, 8⟩
/-- PBU_CLASSc_STAT.BORROWED. -/
abbrev pbuClassStat.BORROWED : Fld := ⟨0, 8⟩
/-- PBU_CLASSc_OVR.OVR. -/
abbrev pbuClassOvr.OVR : Fld := ⟨0, 32⟩
/-- PBU_CLASSc_BUDGETk.BUDGET. -/
abbrev pbuClassBudget.BUDGET : Fld := ⟨0, 64⟩
/-- PBU_CLASSc_SHADOWk.BUDGET. -/
abbrev pbuClassShadow.BUDGET : Fld := ⟨0, 64⟩
/-- PBU_CLASSc_USEDk.USED. -/
abbrev pbuClassUsed.USED : Fld := ⟨0, 64⟩
/-- PBU_CTXn_CFG.STATE. -/
abbrev pbuCtxCfg.STATE : Fld := ⟨30, 2⟩
/-- PBU_CTXn_CFG.PINNED. -/
abbrev pbuCtxCfg.PINNED : Fld := ⟨29, 1⟩
/-- PBU_CTXn_CFG.CARRY. -/
abbrev pbuCtxCfg.CARRY : Fld := ⟨28, 1⟩
/-- PBU_CTXn_CFG.CLASS. -/
abbrev pbuCtxCfg.CLASS : Fld := ⟨24, 4⟩
/-- PBU_CTXn_CFG.SHARE. -/
abbrev pbuCtxCfg.SHARE : Fld := ⟨0, 16⟩
/-- PBU_CTXn_CONSUMED.CONSUMED. -/
abbrev pbuCtxConsumed.CONSUMED : Fld := ⟨0, 64⟩
/-- RDV_PORTn_OP.GEN. -/
abbrev rdvPortOp.GEN : Fld := ⟨62, 2⟩
/-- RDV_PORTn_OP.OP. -/
abbrev rdvPortOp.OP : Fld := ⟨54, 4⟩
/-- RDV_PORTn_OP.CELL. -/
abbrev rdvPortOp.CELL : Fld := ⟨37, 17⟩
/-- RDV_PORTn_OP.ARG. -/
abbrev rdvPortOp.ARG : Fld := ⟨0, 32⟩
/-- RDV_PORTn_DL.DEADLINE. -/
abbrev rdvPortDl.DEADLINE : Fld := ⟨0, 64⟩
/-- RDV_PORTn_RES.STATUS. -/
abbrev rdvPortRes.STATUS : Fld := ⟨48, 16⟩
/-- RDV_PORTn_RES.STATE. -/
abbrev rdvPortRes.STATE : Fld := ⟨46, 2⟩
/-- RDV_PORTn_RES.REFUSED. -/
abbrev rdvPortRes.REFUSED : Fld := ⟨45, 1⟩
/-- RDV_PORTn_RES.VALUE. -/
abbrev rdvPortRes.VALUE : Fld := ⟨0, 32⟩
/-- PBU_WEIRr_STAT.BOUND. -/
abbrev pbuWeirStat.BOUND : Fld := ⟨16, 8⟩
/-- PBU_WEIRr_STAT.BUSY. -/
abbrev pbuWeirStat.BUSY : Fld := ⟨8, 8⟩
/-- PBU_WEIRr_STAT.AVAIL. -/
abbrev pbuWeirStat.AVAIL : Fld := ⟨0, 8⟩
/-- PBU_WEIRr_DISPATCHED.COUNT. -/
abbrev pbuWeirDispatched.COUNT : Fld := ⟨0, 64⟩
/-- PBU_WEIRr_STALLS.COUNT. -/
abbrev pbuWeirStalls.COUNT : Fld := ⟨0, 64⟩
/-- PBU_FAB_AVAILk.AVAIL. -/
abbrev pbuFabAvail.AVAIL : Fld := ⟨0, 64⟩
/-- SLU_ENGn_STAT.QUEUED. -/
abbrev sluEngStat.QUEUED : Fld := ⟨16, 8⟩
/-- SLU_ENGn_STAT.PARKED. -/
abbrev sluEngStat.PARKED : Fld := ⟨8, 4⟩
/-- SLU_ENGn_STAT.RETRIED. -/
abbrev sluEngStat.RETRIED : Fld := ⟨2, 1⟩
/-- SLU_ENGn_STAT.FAILED. -/
abbrev sluEngStat.FAILED : Fld := ⟨1, 1⟩
/-- SLU_ENGn_STAT.ACTIVE. -/
abbrev sluEngStat.ACTIVE : Fld := ⟨0, 1⟩
/-- SLU_ENGn_BYTES.BYTES. -/
abbrev sluEngBytes.BYTES : Fld := ⟨0, 64⟩
/-- SLU_CTXn_SPILL.SPILLED. -/
abbrev sluCtxSpill.SPILLED : Fld := ⟨16, 16⟩
/-- SLU_CTXn_SPILL.STALLED. -/
abbrev sluCtxSpill.STALLED : Fld := ⟨0, 16⟩
/-- SLU_FAR_ECC.CE. -/
abbrev sluFarEcc.CE : Fld := ⟨16, 16⟩
/-- SLU_FAR_ECC.UE. -/
abbrev sluFarEcc.UE : Fld := ⟨8, 8⟩
/-- SLU_FAR_ECC.UE_FLAG. -/
abbrev sluFarEcc.UE_FLAG : Fld := ⟨0, 1⟩
/-- SLU_FAR_ECC_ADDR.ADDR. -/
abbrev sluFarEccAddr.ADDR : Fld := ⟨0, 48⟩
/-- SLU_NEAR_ECC.CRC_RETRY. -/
abbrev sluNearEcc.CRC_RETRY : Fld := ⟨16, 16⟩
/-- SLU_NEAR_ECC.CE. -/
abbrev sluNearEcc.CE : Fld := ⟨8, 8⟩
/-- SLU_NEAR_ECC.UE_FLAG. -/
abbrev sluNearEcc.UE_FLAG : Fld := ⟨0, 1⟩
/-- KV_CTRL.WMARK. -/
abbrev kvCtrl.WMARK : Fld := ⟨2, 10⟩
/-- KV_CTRL.EN. -/
abbrev kvCtrl.EN : Fld := ⟨0, 1⟩
/-- KV_STAT.FMT_FAULT. -/
abbrev kvStat.FMT_FAULT : Fld := ⟨3, 1⟩
/-- KV_STAT.SUSPENDED. -/
abbrev kvStat.SUSPENDED : Fld := ⟨2, 1⟩
/-- KV_STAT.SWAPPED. -/
abbrev kvStat.SWAPPED : Fld := ⟨1, 1⟩
/-- KV_STAT.IN_BOUNDARY. -/
abbrev kvStat.IN_BOUNDARY : Fld := ⟨0, 1⟩
/-- KV_FREE.FREE_T2. -/
abbrev kvFree.FREE_T2 : Fld := ⟨32, 32⟩
/-- KV_FREE.FREE_T1. -/
abbrev kvFree.FREE_T1 : Fld := ⟨0, 32⟩
/-- KV_USE.SLOTS. -/
abbrev kvUse.SLOTS : Fld := ⟨32, 13⟩
/-- KV_USE.PAGES. -/
abbrev kvUse.PAGES : Fld := ⟨0, 19⟩
/-- KV_COLLISIONS.COUNT. -/
abbrev kvCollisions.COUNT : Fld := ⟨0, 32⟩
/-- KV_HASH_KEY0.KEY. -/
abbrev kvHashKey0.KEY : Fld := ⟨0, 64⟩
/-- KV_HASH_KEY1.KEY. -/
abbrev kvHashKey1.KEY : Fld := ⟨0, 64⟩
/-- KV_WINDOW.SEL. -/
abbrev kvWindow.SEL : Fld := ⟨0, 5⟩
/-- CAM_PORTn_CFG.EN. -/
abbrev camPortCfg.EN : Fld := ⟨31, 1⟩
/-- CAM_PORTn_CFG.CLASS. -/
abbrev camPortCfg.CLASS : Fld := ⟨27, 4⟩
/-- CAM_PORTn_CFG.NBUF. -/
abbrev camPortCfg.NBUF : Fld := ⟨24, 3⟩
/-- CAM_PORTn_CFG.REGROUP. -/
abbrev camPortCfg.REGROUP : Fld := ⟨22, 2⟩
/-- CAM_PORTn_CFG.OUT_FMT. -/
abbrev camPortCfg.OUT_FMT : Fld := ⟨17, 5⟩
/-- CAM_PORTn_CFG.EXP_SRC. -/
abbrev camPortCfg.EXP_SRC : Fld := ⟨15, 2⟩
/-- CAM_PORTn_CFG.DEMOSAIC. -/
abbrev camPortCfg.DEMOSAIC : Fld := ⟨14, 1⟩
/-- CAM_PORTn_CFG.CFA. -/
abbrev camPortCfg.CFA : Fld := ⟨11, 3⟩
/-- CAM_PORTn_CFG.DTYPE. -/
abbrev camPortCfg.DTYPE : Fld := ⟨5, 6⟩
/-- CAM_PORTn_CFG.VC. -/
abbrev camPortCfg.VC : Fld := ⟨3, 2⟩
/-- CAM_PORTn_SIZE.IN_W. -/
abbrev camPortSize.IN_W : Fld := ⟨51, 13⟩
/-- CAM_PORTn_SIZE.IN_H. -/
abbrev camPortSize.IN_H : Fld := ⟨38, 13⟩
/-- CAM_PORTn_SIZE.OUT_W. -/
abbrev camPortSize.OUT_W : Fld := ⟨25, 13⟩
/-- CAM_PORTn_SIZE.OUT_H. -/
abbrev camPortSize.OUT_H : Fld := ⟨12, 13⟩
/-- CAM_PORTn_SIZE.TROWS. -/
abbrev camPortSize.TROWS : Fld := ⟨6, 6⟩
/-- CAM_PORTn_TIMING.PERIOD_US. -/
abbrev camPortTiming.PERIOD_US : Fld := ⟨32, 32⟩
/-- CAM_PORTn_TIMING.EXP_DELAY. -/
abbrev camPortTiming.EXP_DELAY : Fld := ⟨14, 18⟩
/-- CAM_PORTn_TIMING.TIMEOUT_MS. -/
abbrev camPortTiming.TIMEOUT_MS : Fld := ⟨0, 8⟩
/-- CAM_PORTn_BLACK.BL3. -/
abbrev camPortBlack.BL3 : Fld := ⟨48, 16⟩
/-- CAM_PORTn_BLACK.BL2. -/
abbrev camPortBlack.BL2 : Fld := ⟨32, 16⟩
/-- CAM_PORTn_BLACK.BL1. -/
abbrev camPortBlack.BL1 : Fld := ⟨16, 16⟩
/-- CAM_PORTn_BLACK.BL0. -/
abbrev camPortBlack.BL0 : Fld := ⟨0, 16⟩
/-- CAM_PORTn_CCMk.OFFSET. -/
abbrev camPortCcm.OFFSET : Fld := ⟨48, 16⟩
/-- CAM_PORTn_CCMk.C2. -/
abbrev camPortCcm.C2 : Fld := ⟨32, 16⟩
/-- CAM_PORTn_CCMk.C1. -/
abbrev camPortCcm.C1 : Fld := ⟨16, 16⟩
/-- CAM_PORTn_CCMk.C0. -/
abbrev camPortCcm.C0 : Fld := ⟨0, 16⟩
/-- CAM_PORTn_BUFBASE.STRIDE. -/
abbrev camPortBufbase.STRIDE : Fld := ⟨48, 16⟩
/-- CAM_PORTn_BUFBASE.BASE. -/
abbrev camPortBufbase.BASE : Fld := ⟨0, 48⟩
/-- CAM_PORTn_BUF.READY. -/
abbrev camPortBuf.READY : Fld := ⟨48, 8⟩
/-- CAM_PORTn_BUF.FILLING. -/
abbrev camPortBuf.FILLING : Fld := ⟨40, 8⟩
/-- CAM_PORTn_BUF.RELEASE. -/
abbrev camPortBuf.RELEASE : Fld := ⟨32, 8⟩
/-- CAM_PORTn_BUF.CELL_EN. -/
abbrev camPortBuf.CELL_EN : Fld := ⟨17, 1⟩
/-- CAM_PORTn_BUF.CELL. -/
abbrev camPortBuf.CELL : Fld := ⟨0, 17⟩
/-- CAM_PORTn_REC.SIZE. -/
abbrev camPortRec.SIZE : Fld := ⟨56, 8⟩
/-- CAM_PORTn_REC.WR. -/
abbrev camPortRec.WR : Fld := ⟨48, 8⟩
/-- CAM_PORTn_REC.ADDR. -/
abbrev camPortRec.ADDR : Fld := ⟨0, 48⟩
/-- CAM_PORTn_STAT.DROPPED. -/
abbrev camPortStat.DROPPED : Fld := ⟨16, 16⟩
/-- CAM_PORTn_STAT.ERR. -/
abbrev camPortStat.ERR : Fld := ⟨12, 4⟩
/-- CAM_PORTn_STAT.EXPIRED. -/
abbrev camPortStat.EXPIRED : Fld := ⟨3, 1⟩
/-- CAM_PORTn_STAT.BADLINE. -/
abbrev camPortStat.BADLINE : Fld := ⟨2, 1⟩
/-- CAM_PORTn_STAT.SHORT. -/
abbrev camPortStat.SHORT : Fld := ⟨1, 1⟩
/-- CAM_PORTn_STAT.IN_FRAME. -/
abbrev camPortStat.IN_FRAME : Fld := ⟨0, 1⟩
/-- CAM_LIMIT.LIMIT. -/
abbrev camLimit.LIMIT : Fld := ⟨0, 64⟩
/-- CAM_LOAD.LOAD. -/
abbrev camLoad.LOAD : Fld := ⟨0, 64⟩
/-- FUS_CTRL.STARTUP. -/
abbrev fusCtrl.STARTUP : Fld := ⟨20, 12⟩
/-- FUS_CTRL.FLOOR. -/
abbrev fusCtrl.FLOOR : Fld := ⟨16, 3⟩
/-- FUS_CTRL.GUARD. -/
abbrev fusCtrl.GUARD : Fld := ⟨8, 8⟩
/-- FUS_CTRL.EGO_SEL. -/
abbrev fusCtrl.EGO_SEL : Fld := ⟨1, 2⟩
/-- FUS_CTRL.EN. -/
abbrev fusCtrl.EN : Fld := ⟨0, 1⟩
/-- FUS_STAT.REPLAY. -/
abbrev fusStat.REPLAY : Fld := ⟨10, 1⟩
/-- FUS_STAT.LATE_DROP. -/
abbrev fusStat.LATE_DROP : Fld := ⟨9, 1⟩
/-- FUS_STAT.MISSED. -/
abbrev fusStat.MISSED : Fld := ⟨8, 1⟩
/-- FUS_STAT.STOP. -/
abbrev fusStat.STOP : Fld := ⟨5, 1⟩
/-- FUS_STAT.EGO. -/
abbrev fusStat.EGO : Fld := ⟨3, 2⟩
/-- FUS_STAT.LEVEL. -/
abbrev fusStat.LEVEL : Fld := ⟨0, 3⟩
/-- FUS_LADDER_AT.AT. -/
abbrev fusLadderAt.AT : Fld := ⟨0, 64⟩
/-- FUS_LATE.AMENDS. -/
abbrev fusLate.AMENDS : Fld := ⟨16, 16⟩
/-- FUS_LATE.DROPPED. -/
abbrev fusLate.DROPPED : Fld := ⟨0, 16⟩
/-- FUS_PORTp_POST.INDEX. -/
abbrev fusPortPost.INDEX : Fld := ⟨0, 8⟩
/-- FUS_PORTp_RING.ENTRIES. -/
abbrev fusPortRing.ENTRIES : Fld := ⟨56, 8⟩
/-- FUS_PORTp_RING.VALID. -/
abbrev fusPortRing.VALID : Fld := ⟨48, 1⟩
/-- FUS_PORTp_RING.ADDR. -/
abbrev fusPortRing.ADDR : Fld := ⟨0, 48⟩
/-- FUS_STRm_STAT.EXCL. -/
abbrev fusStrStat.EXCL : Fld := ⟨16, 16⟩
/-- FUS_STRm_STAT.TSU. -/
abbrev fusStrStat.TSU : Fld := ⟨5, 1⟩
/-- FUS_STRm_STAT.CONTESTED. -/
abbrev fusStrStat.CONTESTED : Fld := ⟨4, 1⟩
/-- FUS_STRm_STAT.LATE. -/
abbrev fusStrStat.LATE : Fld := ⟨3, 1⟩
/-- FUS_STRm_STAT.STATE. -/
abbrev fusStrStat.STATE : Fld := ⟨0, 3⟩
/-- FUS_STRm_LAST.STAMP. -/
abbrev fusStrLast.STAMP : Fld := ⟨0, 64⟩
/-- PLAN_CTRL.SWEEPS_MAX. -/
abbrev planCtrl.SWEEPS_MAX : Fld := ⟨16, 8⟩
/-- PLAN_CTRL.BLOCK. -/
abbrev planCtrl.BLOCK : Fld := ⟨12, 4⟩
/-- PLAN_CTRL.EN. -/
abbrev planCtrl.EN : Fld := ⟨0, 1⟩
/-- PLAN_STAT.NOT_CONV. -/
abbrev planStat.NOT_CONV : Fld := ⟨5, 1⟩
/-- PLAN_STAT.NO_CAND. -/
abbrev planStat.NO_CAND : Fld := ⟨4, 1⟩
/-- PLAN_STAT.WRITE_HELD. -/
abbrev planStat.WRITE_HELD : Fld := ⟨3, 1⟩
/-- PLAN_STAT.WAVE. -/
abbrev planStat.WAVE : Fld := ⟨2, 1⟩
/-- PLAN_STAT.CHECK. -/
abbrev planStat.CHECK : Fld := ⟨1, 1⟩
/-- PLAN_STAT.RUN. -/
abbrev planStat.RUN : Fld := ⟨0, 1⟩
/-- PLAN_EPOCH.PINS1. -/
abbrev planEpoch.PINS1 : Fld := ⟨56, 8⟩
/-- PLAN_EPOCH.PINS0. -/
abbrev planEpoch.PINS0 : Fld := ⟨48, 8⟩
/-- PLAN_EPOCH.BANK. -/
abbrev planEpoch.BANK : Fld := ⟨32, 1⟩
/-- PLAN_EPOCH.EPOCH. -/
abbrev planEpoch.EPOCH : Fld := ⟨0, 32⟩
/-- PLAN_EPOCH_AT.AT. -/
abbrev planEpochAt.AT : Fld := ⟨0, 64⟩
/-- PLAN_GEOM.NX. -/
abbrev planGeom.NX : Fld := ⟨56, 8⟩
/-- PLAN_GEOM.NY. -/
abbrev planGeom.NY : Fld := ⟨48, 8⟩
/-- PLAN_GEOM.NZ. -/
abbrev planGeom.NZ : Fld := ⟨42, 6⟩
/-- PLAN_GEOM.RES_MM. -/
abbrev planGeom.RES_MM : Fld := ⟨34, 8⟩
/-- PLAN_GEOM.STEP_MS. -/
abbrev planGeom.STEP_MS : Fld := ⟨24, 10⟩
/-- PLAN_COUNT.NOCAND. -/
abbrev planCount.NOCAND : Fld := ⟨32, 32⟩
/-- PLAN_COUNT.REPLANS. -/
abbrev planCount.REPLANS : Fld := ⟨0, 32⟩
/-- LE_ENGn_CFG.EN. -/
abbrev leEngCfg.EN : Fld := ⟨31, 1⟩
/-- LE_ENGn_CFG.PORT. -/
abbrev leEngCfg.PORT : Fld := ⟨29, 2⟩
/-- LE_ENGn_CFG.VSRC. -/
abbrev leEngCfg.VSRC : Fld := ⟨27, 2⟩
/-- LE_ENGn_CFG.TX_OFF. -/
abbrev leEngCfg.TX_OFF : Fld := ⟨16, 8⟩
/-- LE_ENGn_CFG.REF_MAX_AGE. -/
abbrev leEngCfg.REF_MAX_AGE : Fld := ⟨0, 16⟩
/-- LE_ENGn_STAT.NAN. -/
abbrev leEngStat.NAN : Fld := ⟨11, 1⟩
/-- LE_ENGn_STAT.VFAULT. -/
abbrev leEngStat.VFAULT : Fld := ⟨10, 1⟩
/-- LE_ENGn_STAT.STATE_STALE. -/
abbrev leEngStat.STATE_STALE : Fld := ⟨9, 1⟩
/-- LE_ENGn_STAT.REF_STALE. -/
abbrev leEngStat.REF_STALE : Fld := ⟨8, 1⟩
/-- LE_ENGn_STAT.SAT. -/
abbrev leEngStat.SAT : Fld := ⟨7, 1⟩
/-- LE_ENGn_STAT.CAPTURE. -/
abbrev leEngStat.CAPTURE : Fld := ⟨6, 1⟩
/-- LE_ENGn_STAT.INJECT. -/
abbrev leEngStat.INJECT : Fld := ⟨5, 1⟩
/-- LE_ENGn_STAT.BUF. -/
abbrev leEngStat.BUF : Fld := ⟨4, 1⟩
/-- LE_ENGn_STAT.MODE. -/
abbrev leEngStat.MODE : Fld := ⟨0, 3⟩
/-- LE_ENGn_TICK_AT.AT. -/
abbrev leEngTickAt.AT : Fld := ⟨0, 64⟩
/-- LE_ENGn_FLIP_AT.AT. -/
abbrev leEngFlipAt.AT : Fld := ⟨0, 64⟩
/-- LE_ENGn_REF_AGE.AGE. -/
abbrev leEngRefAge.AGE : Fld := ⟨0, 32⟩
/-- LE_ENGn_HOLD_AT.AT. -/
abbrev leEngHoldAt.AT : Fld := ⟨0, 64⟩
/-- LE_ENGn_CAP.STATE. -/
abbrev leEngCap.STATE : Fld := ⟨30, 2⟩
/-- LE_ENGn_CAP.K. -/
abbrev leEngCap.K : Fld := ⟨27, 3⟩
/-- LE_ENGn_CAP.DEC. -/
abbrev leEngCap.DEC : Fld := ⟨22, 5⟩
/-- LE_ENGn_CAP.ROWS. -/
abbrev leEngCap.ROWS : Fld := ⟨0, 17⟩
/-- LE_ENGn_CAP_START.START. -/
abbrev leEngCapStart.START : Fld := ⟨0, 64⟩
/-- LE_EARLY.JOINTS. -/
abbrev leEarly.JOINTS : Fld := ⟨8, 7⟩
/-- LE_EARLY.STATE. -/
abbrev leEarly.STATE : Fld := ⟨0, 3⟩
/-- LE_VNOM.VNOM. -/
abbrev leVnom.VNOM : Fld := ⟨0, 32⟩
/-- LE_JOINTj.EN. -/
abbrev leJoint.EN : Fld := ⟨31, 1⟩
/-- LE_JOINTj.PORT. -/
abbrev leJoint.PORT : Fld := ⟨29, 2⟩
/-- LE_JOINTj.JOINT. -/
abbrev leJoint.JOINT : Fld := ⟨0, 16⟩
/-- MBX_m_BASE.BASE. -/
abbrev mbxBase.BASE : Fld := ⟨15, 33⟩
/-- MBX_m_BASE.EN. -/
abbrev mbxBase.EN : Fld := ⟨0, 1⟩
/-- MBX_m_REQ.HEAD. -/
abbrev mbxReq.HEAD : Fld := ⟨8, 6⟩
/-- MBX_m_REQ.TAIL. -/
abbrev mbxReq.TAIL : Fld := ⟨0, 6⟩
/-- MBX_m_CPL.TAIL. -/
abbrev mbxCpl.TAIL : Fld := ⟨8, 6⟩
/-- MBX_m_CPL.HEAD. -/
abbrev mbxCpl.HEAD : Fld := ⟨0, 6⟩
/-- MBX_m_STAT.INFLIGHT. -/
abbrev mbxStat.INFLIGHT : Fld := ⟨24, 6⟩
/-- MBX_m_STAT.SESSION. -/
abbrev mbxStat.SESSION : Fld := ⟨16, 1⟩
/-- MBX_m_STAT.HELD. -/
abbrev mbxStat.HELD : Fld := ⟨1, 1⟩
/-- MBX_m_STAT.IDX_ERR. -/
abbrev mbxStat.IDX_ERR : Fld := ⟨0, 1⟩
/-- MBX_m_LAST_DB.AT. -/
abbrev mbxLastDb.AT : Fld := ⟨0, 64⟩
/-- EIC_SRCs_CFG.FILTER. -/
abbrev eicSrcCfg.FILTER : Fld := ⟨8, 8⟩
/-- EIC_SRCs_CFG.POL. -/
abbrev eicSrcCfg.POL : Fld := ⟨6, 1⟩
/-- EIC_SRCs_CFG.TRIG. -/
abbrev eicSrcCfg.TRIG : Fld := ⟨5, 1⟩
/-- EIC_SRCs_CFG.PRIO. -/
abbrev eicSrcCfg.PRIO : Fld := ⟨0, 4⟩
/-- EIC_PENDk.PEND. -/
abbrev eicPend.PEND : Fld := ⟨0, 32⟩
/-- EIC_ACTIVEk.ACTIVE. -/
abbrev eicActive.ACTIVE : Fld := ⟨0, 32⟩
/-- EIC_STAT.LAST_BAD. -/
abbrev eicStat.LAST_BAD : Fld := ⟨16, 10⟩
/-- EIC_STAT.GLITCH. -/
abbrev eicStat.GLITCH : Fld := ⟨1, 1⟩
/-- EIC_STAT.BAD_COMPLETE. -/
abbrev eicStat.BAD_COMPLETE : Fld := ⟨0, 1⟩
/-- EIC_Tt_ENABLEk.EN. -/
abbrev eicTEnable.EN : Fld := ⟨0, 32⟩
/-- EIC_Tt_THRESH.THRESH. -/
abbrev eicTThresh.THRESH : Fld := ⟨0, 4⟩
/-- EIC_Tt_CLAIM.SOURCE. -/
abbrev eicTClaim.SOURCE : Fld := ⟨0, 10⟩
/-- EIC_Tt_COMPLETE.SOURCE. -/
abbrev eicTComplete.SOURCE : Fld := ⟨0, 10⟩
/-- EIC_Tt_TIMECMP.CMP. -/
abbrev eicTTimecmp.CMP : Fld := ⟨0, 64⟩
/-- EIC_Tt_SOFT.PEND. -/
abbrev eicTSoft.PEND : Fld := ⟨0, 1⟩
/-- ETH_PORTp_CFG.EXPRESS. -/
abbrev ethPortCfg.EXPRESS : Fld := ⟨24, 8⟩
/-- ETH_PORTp_CFG.ROLE. -/
abbrev ethPortCfg.ROLE : Fld := ⟨15, 1⟩
/-- ETH_PORTp_CFG.ADDFRAG. -/
abbrev ethPortCfg.ADDFRAG : Fld := ⟨13, 2⟩
/-- ETH_PORTp_CFG.PREEMPT_EN. -/
abbrev ethPortCfg.PREEMPT_EN : Fld := ⟨12, 1⟩
/-- ETH_PORTp_CFG.GCL_EN. -/
abbrev ethPortCfg.GCL_EN : Fld := ⟨11, 1⟩
/-- ETH_PORTp_CFG.SWAP. -/
abbrev ethPortCfg.SWAP : Fld := ⟨10, 1⟩
/-- ETH_PORTp_CFG.BANK. -/
abbrev ethPortCfg.BANK : Fld := ⟨9, 1⟩
/-- ETH_PORTp_CFG.NENT. -/
abbrev ethPortCfg.NENT : Fld := ⟨1, 8⟩
/-- ETH_PORTp_CFG.EN. -/
abbrev ethPortCfg.EN : Fld := ⟨0, 1⟩
/-- ETH_PORTp_STAT.RXERR. -/
abbrev ethPortStat.RXERR : Fld := ⟨16, 16⟩
/-- ETH_PORTp_STAT.VERIFIED. -/
abbrev ethPortStat.VERIFIED : Fld := ⟨4, 1⟩
/-- ETH_PORTp_STAT.GATE_OVR. -/
abbrev ethPortStat.GATE_OVR : Fld := ⟨3, 1⟩
/-- ETH_PORTp_STAT.AS_CAPABLE. -/
abbrev ethPortStat.AS_CAPABLE : Fld := ⟨2, 1⟩
/-- ETH_PORTp_STAT.LINK. -/
abbrev ethPortStat.LINK : Fld := ⟨1, 1⟩
/-- ETH_PORTp_GCLb_e.GATES. -/
abbrev ethPortGcl.GATES : Fld := ⟨24, 8⟩
/-- ETH_PORTp_GCLb_e.INTERVAL. -/
abbrev ethPortGcl.INTERVAL : Fld := ⟨0, 24⟩
/-- SPI_n_SLOTs.CMD. -/
abbrev spiSlot.CMD : Fld := ⟨32, 32⟩
/-- SPI_n_SLOTs.TRIG. -/
abbrev spiSlot.TRIG : Fld := ⟨31, 1⟩
/-- SPI_n_SLOTs.GO. -/
abbrev spiSlot.GO : Fld := ⟨30, 1⟩
/-- SPI_n_SLOTs.CS. -/
abbrev spiSlot.CS : Fld := ⟨29, 1⟩
/-- SPI_n_SLOTs.MODE. -/
abbrev spiSlot.MODE : Fld := ⟨27, 2⟩
/-- SPI_n_SLOTs.CMDLEN. -/
abbrev spiSlot.CMDLEN : Fld := ⟨24, 3⟩
/-- SPI_n_SLOTs.RDLEN. -/
abbrev spiSlot.RDLEN : Fld := ⟨18, 6⟩
/-- SPI_n_SLOTs.DIV. -/
abbrev spiSlot.DIV : Fld := ⟨10, 8⟩
/-- SPI_n_CFG.SKIPPED. -/
abbrev spiCfg.SKIPPED : Fld := ⟨16, 16⟩
/-- SPI_n_CFG.DRDY_POL. -/
abbrev spiCfg.DRDY_POL : Fld := ⟨1, 1⟩
/-- SPI_n_CFG.EN. -/
abbrev spiCfg.EN : Fld := ⟨0, 1⟩
/-- SS_CFG.DYN. -/
abbrev ssCfg.DYN : Fld := ⟨31, 1⟩
/-- SS_CFG.DISC_MS. -/
abbrev ssCfg.DISC_MS : Fld := ⟨16, 8⟩
/-- SS_CFG.TP_US. -/
abbrev ssCfg.TP_US : Fld := ⟨0, 16⟩
/-- SS_STAT.MC_CAUSE. -/
abbrev ssStat.MC_CAUSE : Fld := ⟨12, 4⟩
/-- SS_STAT.DISC. -/
abbrev ssStat.DISC : Fld := ⟨6, 2⟩
/-- SS_STAT.STOP_IN. -/
abbrev ssStat.STOP_IN : Fld := ⟨4, 2⟩
/-- SS_STAT.MC_REQ. -/
abbrev ssStat.MC_REQ : Fld := ⟨1, 1⟩
/-- SS_STAT.REQ. -/
abbrev ssStat.REQ : Fld := ⟨0, 1⟩
/-- CNL_PORTp_STAT.REPLAYS. -/
abbrev cnlPortStat.REPLAYS : Fld := ⟨16, 16⟩
/-- CNL_PORTp_STAT.PEER. -/
abbrev cnlPortStat.PEER : Fld := ⟨14, 2⟩
/-- CNL_PORTp_STAT.LANES. -/
abbrev cnlPortStat.LANES : Fld := ⟨8, 4⟩
/-- CNL_PORTp_STAT.MODULE. -/
abbrev cnlPortStat.MODULE : Fld := ⟨4, 4⟩
/-- CNL_PORTp_STAT.CREDIT_TO. -/
abbrev cnlPortStat.CREDIT_TO : Fld := ⟨3, 1⟩
/-- CNL_PORTp_STAT.RETRAINED. -/
abbrev cnlPortStat.RETRAINED : Fld := ⟨2, 1⟩
/-- CNL_PORTp_STAT.INDEX_ERR. -/
abbrev cnlPortStat.INDEX_ERR : Fld := ⟨1, 1⟩
/-- CNL_PORTp_STAT.UP. -/
abbrev cnlPortStat.UP : Fld := ⟨0, 1⟩
/-- BOOT_LATCH.IGNORED. -/
abbrev bootLatch.IGNORED : Fld := ⟨16, 16⟩
/-- BOOT_LATCH.CLOSED. -/
abbrev bootLatch.CLOSED : Fld := ⟨1, 1⟩
/-- BOOT_LATCH.CLOSE. -/
abbrev bootLatch.CLOSE : Fld := ⟨0, 1⟩
/-- PMAP_VIOL.CLASS. -/
abbrev pmapViol.CLASS : Fld := ⟨60, 4⟩
/-- PMAP_VIOL.TYPE. -/
abbrev pmapViol.TYPE : Fld := ⟨58, 2⟩
/-- PMAP_VIOL.COUNT. -/
abbrev pmapViol.COUNT : Fld := ⟨48, 10⟩
/-- PMAP_VIOL.ADDR. -/
abbrev pmapViol.ADDR : Fld := ⟨0, 48⟩
/-- PMAP_DEBUG.TRACE. -/
abbrev pmapDebug.TRACE : Fld := ⟨10, 2⟩
/-- PMAP_DEBUG.MC. -/
abbrev pmapDebug.MC : Fld := ⟨8, 2⟩
/-- PMAP_DEBUG.LE. -/
abbrev pmapDebug.LE : Fld := ⟨6, 2⟩
/-- PMAP_DEBUG.STW. -/
abbrev pmapDebug.STW : Fld := ⟨4, 2⟩
/-- PMAP_DEBUG.APP. -/
abbrev pmapDebug.APP : Fld := ⟨2, 2⟩
/-- PMAP_PERMc.CANAL. -/
abbrev pmapPerm.CANAL : Fld := ⟨2, 1⟩
/-- PMAP_PERMc.MSG. -/
abbrev pmapPerm.MSG : Fld := ⟨1, 1⟩
/-- PMAP_PERMc.EN. -/
abbrev pmapPerm.EN : Fld := ⟨0, 1⟩
/-- PMAP_MBXm.MC_ADMIN. -/
abbrev pmapMbx.MC_ADMIN : Fld := ⟨31, 1⟩
/-- PMAP_MBXm.INIT. -/
abbrev pmapMbx.INIT : Fld := ⟨16, 11⟩
/-- PMAP_MBXm.GROUPS. -/
abbrev pmapMbx.GROUPS : Fld := ⟨0, 16⟩
/-- PMAP_WINw.CLASSES. -/
abbrev pmapWin.CLASSES : Fld := ⟨53, 11⟩
/-- PMAP_WINw.BASE. -/
abbrev pmapWin.BASE : Fld := ⟨12, 36⟩
/-- PMAP_WINw.PAGES. -/
abbrev pmapWin.PAGES : Fld := ⟨0, 12⟩
/-- PMAP_GRANT.WIN. -/
abbrev pmapGrant.WIN : Fld := ⟨59, 5⟩
/-- PMAP_GRANT.PAGE. -/
abbrev pmapGrant.PAGE : Fld := ⟨44, 12⟩
/-- PMAP_GRANT.CLASS. -/
abbrev pmapGrant.CLASS : Fld := ⟨40, 4⟩
/-- PMAP_GRANT.ACCESS. -/
abbrev pmapGrant.ACCESS : Fld := ⟨38, 2⟩
/-- PMAP_GRANT.REFUSED. -/
abbrev pmapGrant.REFUSED : Fld := ⟨0, 1⟩
/-- PMAP_FWc_rB.BASE. -/
abbrev pmapFwB.BASE : Fld := ⟨12, 36⟩
/-- PMAP_FWc_rL.LIMIT. -/
abbrev pmapFwL.LIMIT : Fld := ⟨12, 36⟩
/-- PMAP_FWc_rL.X. -/
abbrev pmapFwL.X : Fld := ⟨3, 1⟩
/-- PMAP_FWc_rL.W. -/
abbrev pmapFwL.W : Fld := ⟨2, 1⟩
/-- PMAP_FWc_rL.R. -/
abbrev pmapFwL.R : Fld := ⟨1, 1⟩
/-- PMAP_FWc_rL.EN. -/
abbrev pmapFwL.EN : Fld := ⟨0, 1⟩

end F

/-- The reset values of the PBU class registers (the class defaults table, R90). -/
def pbuClassReset : Nat → Nat
  | 0 => 0xF4C00001
  | 1 => 0xE2C00001
  | 2 => 0x80080004
  | 3 => 0x80080001
  | 4 => 0x80080003
  | _ => 0x80100000

/-- The reset value of a register (R8); the repair words are as fused at test (R138). -/
def Reg.reset (r : Reg) : Word :=
  match r.name with
  | .pbuClassCfg => BitVec.ofNat 64 (pbuClassReset r.i)
  | .pbuFabRepairLo => Config.fabRepairLo
  | .pbuFabRepairHi => Config.fabRepairHi
  | .camPortCcm => BitVec.ofNat 64 (0x3C00 * 2 ^ (16 * r.j))
  | .pmapPerm => if r.i = 2 ∨ r.i = 10 then 1 else 0
  | n => BitVec.ofNat 64 n.info.reset

/-- The four blocks that have crossings, by the number the model gives them: robot bus Ethernet, camera ingest, clock
and power controller, low-speed I/O (R65). -/
def cdcBase : Nat → Nat
  | 0 => 0x20D00000
  | 1 => 0x20E00000
  | 2 => 0x20500000
  | _ => 0x20F00000

/-- The two numbers of a register family at an address, where the address is one of its registers. -/
def RegInfo.decode (x : RegInfo) (a : Nat) : Option (Nat × Nat) :=
  let o := a - (x.base + x.off)
  let i := if x.si = 0 then 0 else o / x.si
  let o1 := o - i * x.si
  let j := if x.sj = 0 then 0 else o1 / x.sj
  if a < x.base + x.off then none
  else if i < x.ci ∧ j < x.cj ∧ o1 - j * x.sj = 0 then some (i, j) else none

/-- The register of a family at an address, if the address is one (R4, R5). -/
def RegName.at (n : RegName) (a : Nat) : Option Reg :=
  match n with
  | .cdcStatus => (lowest 4 fun b => cdcBase b + 0xFFF00 == a).map fun b => ⟨n, b, 0⟩
  | .cdcLost => (lowest 4 fun b => cdcBase b + 0xFFF04 == a).map fun b => ⟨n, b, 0⟩
  | .eicSrcCfg =>
    match n.info.decode a with
    | some (i, j) => if i = 0 then none else some ⟨n, i, j⟩
    | none => none
  | _ => (n.info.decode a).map fun p => ⟨n, p.1, p.2⟩

/-- The register at a physical address (R4, R5, R6). -/
def regAt (a : Nat) : Option Reg := regNames.findSome? (fun n => n.at a)

/-- A field's value in a register's contents. -/
def fget (v : Word) (f : Fld) : Nat := bits v.toNat f.lo f.w

/-- A register's contents with one field written. -/
def fput (v : Word) (f : Fld) (n : Nat) : Word :=
  BitVec.ofNat 64 (v.toNat - fget v f * 2 ^ f.lo + (n % 2 ^ f.w) * 2 ^ f.lo)

/-- The register file: the registers whose contents differ from their reset value or were written, newest contents
read first. -/
abbrev Regs := List (Reg × Word)

/-- The contents of a register; one never written holds its reset value (R8). -/
def Regs.rd (rs : Regs) (r : Reg) : Word :=
  match rs with
  | [] => r.reset
  | (q, v) :: rest => if q = r then v else Regs.rd rest r

/-- Write a register's contents. -/
def Regs.wr (rs : Regs) (r : Reg) (v : Word) : Regs :=
  match rs with
  | [] => [(r, v)]
  | (q, w) :: rest => if q = r then (r, v) :: rest else (q, w) :: Regs.wr rest r v

/-- What a software write leaves in a register, by its access masks: RW bits take the value, W1C bits clear where the
value has 1, and every other bit stays (R7; RW-L bits follow R420 and are written where the latch is open). -/
def maskedWrite (x : RegInfo) (latchOpen : Bool) (old new : Nat) : Nat :=
  let rw := if latchOpen then x.rw ||| x.rwl else x.rw
  let keep := old - (old &&& rw)
  let kept := keep - (keep &&& (x.w1c &&& new))
  kept ||| (new &&& rw)

end Sys2Proof.Machine
end

