-- ==== Sys2Proof/Machine/Records.lean ====
section
/-! DEFINITION. The records that State is made of: time, cue and capture, crossings, power, interrupts and the
management controller (chapters 02, 03, 14, 16, 18). -/

namespace Sys2Proof.Machine

/-- An order key (R12, R13): DT, 16-bit source id, 32-bit per-source counter. -/
structure Key where
  dt : Nat := 0
  src : Nat := 0
  cnt : Nat := 0
  deriving DecidableEq, Repr

/-- What a record the device produced or ingested is. -/
inductive RecKind where
  | cueFire | capture | frame | sample | fused | amendment | ladder | plan | camera | sluice | flip | reference
  | flit | spi | can | tdm | stage | kv | canal | trace | sync | mcEvent
  deriving DecidableEq, Repr

/-- A record with its order key (R12); unc is TS_UNCERTAIN (R58); body holds the kind's numbers in the order its
chapter lists them. -/
structure Rec where
  key : Key
  kind : RecKind
  unc : Bool
  body : List Nat
  deriving DecidableEq, Repr

/-- Who waits on a deadline (R47, R48): an operation waiting on a rendezvous cell, a mailbox command, a sluice request's DEADLINE, a
stalled layer (R200), a stream's age, a camera's first line, the planner's candidate or replan, a standby's flip, a vote of the two-phase
commit. -/
inductive WaitOwner where
  | rdv (cell : Nat)
  | command (mbx seq : Nat)
  | needBy (req : Nat)
  | stall (req : Nat)
  | age (stream : Nat)
  | firstLine (port : Nat)
  | candidate
  | replan
  | standby (ctx : Nat)
  | vote (tx part : Nat)
  deriving DecidableEq, Repr

/-- A wait with its deadline D, guard G, the source id of its deadline's key and its outcome: none while pending, else
whether ARRIVED was committed; how far the jump moved D, the deadline's key drawn at the commit, and the keys of late arrivals that
came before it (R37, R38, R46 to R48). -/
structure Wait where
  owner : WaitOwner
  deadline : Nat
  guard : Nat
  src : Nat
  outcome : Option Bool := none
  moved : Nat := 0
  key : Option Key := none
  late : List Key := []
  deriving DecidableEq, Repr

/-- A running pulse of a cue channel (R50): its pin, its level and the DT of its trailing edge. -/
structure Pulse where
  pin : Nat
  level : Bool
  endAt : Nat
  deriving DecidableEq, Repr

/-- A capture record on its way to the blocks that consume its channel (R51): channel, stamp, counter value, TS_UNCERTAIN,
edge polarity and the DT at which it is delivered. -/
structure CapOut where
  chan : Nat
  stamp : Nat
  cnt : Nat
  unc : Bool
  rising : Bool
  at_ : Nat
  deriving DecidableEq, Repr

/-- The cue and capture unit beside its registers (R49 to R52): base level of each CUE_OUT pin, running pulses by
channel, the fire DT of each trigger target whose target has not yet acted on it, the held stamps of each capture
channel, oldest first, with their counter values, the capture records not yet taken by their consumers, oldest first, and the DT of
the write since which each channel's TIME stands. -/
structure CueSt where
  base : Tbl Bool := []
  pulses : Tbl Pulse := []
  trig : Tbl Nat := []
  held : Tbl (List (Nat × Nat)) := []
  out : List CapOut := []
  since : Tbl Nat := []
  deriving DecidableEq, Repr

/-- The time unit beside its registers: the instant from which R35 counts, while the holdover timer runs. -/
structure TimeSt where
  holdBase : Option Nat := none
  deriving DecidableEq, Repr

/-- Power and clocks (R53, R66, R67): domains that are on, root PLL lock, main domains started, stores trained at boot, the DT at which each
basin pair becomes usable, and the input-loss and off conditions. -/
structure PowSt where
  on : List Nat := []
  pllLocked : Bool := false
  mainGood : Bool := false
  near : Bool := false
  far : Bool := false
  pairs : Tbl Nat := []
  inputLost : Bool := false
  off : Bool := false
  deriving DecidableEq, Repr

/-- One sensed external line of the EIC (R382). -/
structure Line where
  level : Bool
  deriving DecidableEq, Repr

/-- The EIC beside its registers (R376 to R383): pending sources, active (source, target) pairs, sensed lines, cores
stopped in WFI, the S-level compare value of each core (stimecmp, R374), timer interrupts pending by target, and what the priority, threshold
and enable registers written in cycle `since` held before it (R381). -/
structure EicSt where
  pend : List Nat := []
  active : List (Nat × Nat) := []
  lines : Tbl Line := []
  asleep : List Nat := []
  stimecmp : Tbl Nat := []
  timer : List Nat := []
  since : Nat := 0
  olds : List (Reg × Word) := []
  deriving DecidableEq, Repr

/-- An almanac record as posted (R432): order key of the event, kind, severity, writer, DT of receipt, payload. -/
structure AlmRec where
  key : Key
  kind : Nat
  sev : Nat
  writer : Nat
  at_ : Nat
  payload : List Byte
  deriving DecidableEq, Repr

/-- An almanac record in the ring (R432, R433). -/
structure AlmStored where
  entry : AlmRec
  aseq : Nat
  boot : Nat
  chain : List Byte
  offset : Nat
  deriving DecidableEq, Repr

/-- The lost record that stands for records not kept (R434): number and range of AT. -/
structure AlmLost where
  number : Nat
  first : Nat
  last : Nat
  deriving DecidableEq, Repr

/-- One sensor's newest reading and its extremes since boot, FP32 bits (R428, R431). -/
structure Sensor where
  value : F32 := 0
  min : F32 := 0
  max : F32 := 0
  at_ : Nat := 0
  deriving DecidableEq, Repr

/-- The update state of one image kind (R431 UPDATE_STATUS, R435 to R437).  state: 0 none, 2 STAGED, 3 REFUSED,
4 on trial, 5 active after confirmation, 1 staging.  active and running: slot 0 is A, 1 is B. -/
structure Update where
  state : Nat := 0
  active : Nat := 0
  running : Nat := 0
  boots : Nat := 0
  object : Nat := 0
  req : Key := {}
  deriving DecidableEq, Repr

/-- A safe store in progress (R438 to R442): who asked, the split, what has committed, and the wait for recharge. -/
structure SafeStore where
  mbx : Nat
  seq : Nat
  ctx : Nat
  key : Key
  kind : Nat
  src : Nat
  size : Nat
  dest : Nat
  part : Nat
  nparts : Nat
  committed : List Nat
  running : List Nat
  copies : List Nat
  waitFrom : Option Nat
  deriving DecidableEq, Repr

/-- The management controller (chapter 16, 18).  Voltages are mV, the capacitance is nF; opNs: the operating time of earlier boots (R136). -/
structure McSt where
  running : Bool := false
  romOnly : Bool := false
  restartAt : Option Nat := none
  started : Bool := false
  cMeas : Nat := 0
  cAt : Nat := 0
  bankMv : Nat := 0
  vin : F32 := 0
  vinLow : Bool := false
  iin : F32 := 0
  pAvg : F32 := 0
  inputAt : Nat := 0
  causes : List Nat := []
  condense : Bool := false
  heartbeatAt : Nat := 0
  stewardStopped : Bool := false
  falls : Nat := 0
  impacts : Nat := 0
  peak : F32 := 0
  shockLast : Nat := 0
  temps : Tbl Sensor := []
  volts : Tbl Sensor := []
  amps : Tbl Sensor := []
  rh : Sensor := {}
  margin : Sensor := {}
  hotSteps : Nat := 0
  hotAt : Nat := 0
  buf : List AlmRec := []
  bufLost : Option AlmLost := none
  lostTotal : Nat := 0
  ring : List AlmStored := []
  wrPos : Nat := 0
  aseq : Nat := 0
  boot : Nat := 0
  chain : List Byte := []
  sinceCkpt : Nat := 0
  ckptAt : Nat := 0
  violSec : Tbl (Nat × Nat) := []
  updates : Tbl Update := []
  stores : List SafeStore := []
  resetAt : Option (Nat × Bool) := none
  nonces : Tbl (Key × List Byte) := []
  certs : List (List Byte) := []
  mE : List Byte := []
  mB : List Byte := []
  mS : List Byte := []
  mL : List Byte := []
  mP : List Byte := []
  mMC : List Byte := []
  opNs : Nat := 0
  deriving DecidableEq, Repr

/-- A breakpoint or watchpoint (R457): kind 0 execution, 1 load, 2 store, 3 either. -/
structure Bp where
  kind : Nat
  addr : Nat
  size : Nat
  deriving DecidableEq, Repr

/-- What the debug port sees of a core, an engine or the MC (R455 to R458): halted, one instruction or tick pending,
registers by the numbers of R455, and its breakpoints and watchpoints by slot. -/
structure DbgTarget where
  halted : Bool := false
  stepping : Bool := false
  hitBp : Bool := false
  haltAt : Option Nat := none
  regs : Tbl Nat := []
  bps : Tbl Bp := []
  deriving DecidableEq, Repr

/-- The cores (R370, R415, R416): whether the application cores and the steward run, and the debug view of each target:
0 to 15 application cores, 16 and 17 steward cores, 18 to 25 loop engines, 26 the MC. -/
structure CoreSt where
  released : Bool := false
  steward : Bool := false
  targets : Tbl DbgTarget := []
  deriving DecidableEq, Repr

/-- One-time-programmable memory (R411, R423, R427): the counters, the two key hashes of each key slot, the slots whose
revoke fuse is blown. -/
structure Otp where
  counters : Tbl Nat := []
  edHash : Tbl (List Byte) := []
  mlHash : Tbl (List Byte) := []
  revoked : List Nat := []
  deriving DecidableEq, Repr

/-- Identity (R423, R424): the UDS read of this cold reset, the compound identifiers still held, the alias
seeds the steward holds, the key vault. -/
structure IdSt where
  udsRead : Bool := false
  cdiE : List Byte := []
  cdiB : List Byte := []
  alias_ : List Byte := []
  vault : List Byte := []
  deriving DecidableEq, Repr

/-- A request the steward has taken and not completed (R346, R349): the header fields, the payload, and whether the
steward has decided it and its completion waits for an event.  submit is the DT that orders it (R353). -/
structure Req where
  mbx : Nat
  word0 : Nat
  tag : Nat
  word8 : Nat
  seq : Nat
  stamp : Nat
  order : Nat
  payload : List Byte
  decided : Bool := false
  rsvd : Nat := 0
  deriving DecidableEq, Repr

/-- A completion or notice the steward has written (R347, R349, R359). -/
structure Cpl where
  mbx : Nat
  code : Nat
  tag : Nat
  ctx : Nat
  status : Nat
  detail : Nat
  dt : Nat
  seq : Nat
  result : List Byte
  deriving DecidableEq, Repr

/-- A notice that waits for room (R359). -/
structure Notice where
  kind : Nat
  subject : Nat
  status : Nat
  cause : Key
  deriving DecidableEq, Repr

/-- An owner of a claimable resource: a context, or the device (R365 to R368). -/
inductive Owner where
  | ctx (n : Nat)
  | device
  deriving DecidableEq, Repr

/-- A mode or profile change that waits for its boundary (R71, R78, R79): when written, the envelope and profile, whether
it is forced, the request that asked for it, the periods that go with it and the shadow bank's new budgets. -/
structure PendMode where
  writtenAt : Nat
  envelope : Nat
  profile : Nat
  forced : Bool
  isMode : Bool
  req : Option (Nat × Nat)
  rpl : Bool
  pbuLen : Nat
  loops : List Nat
  replan : Nat
  camStop : Nat
  deriving DecidableEq, Repr

/-- A CONFIG_SET that waits for the point at which its row is written (R364). -/
structure Setting where
  code : Nat
  index : Nat
  mask : Nat
  value : Nat
  mbx : Nat
  seq : Nat
  deriving DecidableEq, Repr

/-- The steward (chapter 13): agreed minor version of each mailbox's session, requests in flight, completions written,
newest first, notices waiting and lost by mailbox, owners of claimable resources by TYPE × 65,536 + INDEX, gPTP
priorities (R389), settings that wait for their point (R364), cue
channels passed to the device (R368), pin-mux groups that serve function B (R409), and the firmware's versions. -/
structure StewSt where
  sessions : Tbl Nat := []
  inflight : List Req := []
  cpls : List Cpl := []
  notices : Tbl (List Notice) := []
  lost : Tbl Nat := []
  rung : List Nat := []
  owners : Tbl Owner := []
  ptpPrio : Nat := 0xF6F8
  settings : List Setting := []
  fixedCh : List Nat := []
  muxB : List Nat := []
  minor : Nat := 0
  fwVersion : Nat := 0
  deriving DecidableEq, Repr

/-- An accepted calibration record kept for a class and envelope (R102, R103). -/
structure CalRec where
  tband : Nat
  margin : Nat
  worst : List Nat
  deriving DecidableEq, Repr

/-- A calibration run in progress (R102): its command, class and object, periods still to run and asked for, the largest USED by resource,
the band of the hottest sensor, and PBU_SQUALL_CFG before it. -/
structure CalRun where
  mbx : Nat
  seq : Nat
  cls : Nat
  object : Nat
  periodsLeft : Nat
  periods : Nat
  worst : List Nat
  band : Nat := 0
  squall : Nat := 0
  begun : Bool := false
  deriving DecidableEq, Repr

/-- A draw on a donor in the current fabric cycle (R86, R87): its DT, donor, resource and class, what it asked for, what the donor gave, and
whether the class's BORROWED bit stood before. -/
structure Draw where
  at_ : Nat
  donor : Nat
  k : Nat
  cls : Nat
  rest : Nat
  got : Nat
  had : Bool
  deriving DecidableEq, Repr

/-- A far-store access that waits for the end of a retraining window (R73, R74): initiator class, type (0 read, 1 write, 2 execute), address,
length, bytes to write, what the check bits will tell, and the module and tag of one over the Canal link. -/
structure FarAccess where
  cls : Nat
  kind : Nat
  addr : Nat
  len : Nat
  data : List Byte
  ecc : Nat
  link : Option (Nat × Nat)
  deriving DecidableEq, Repr

/-- The PBU beside its registers (R80 to R90, R102 to R104): the active bank before power scaling, the number of 3/4
factors in the scale, whether a first trigger came, shares that wait for a period start, fixed budgets by class and
resource, ceiling budgets and accepted records by class × 4 + envelope, changes of floor source that wait by class with the DT from which
they may take effect, whether SWAP was asked for beside them, the far-store window of a mode change, the draws of the current cycle,
charges of the period whose start waits, the far load of the squall generator as (DT, percent), newest first, whether the far store's
conservative default is in force, whether a recalibration of its training is requested, the far-store accesses that a retraining window
holds, oldest first, and whether the period in force still owes a reference flip (R26). -/
structure PbuSt where
  bank : Tbl Nat := []
  scale : Nat := 0
  triggered : Bool := false
  selfAt : Nat := 0
  shares : Tbl Nat := []
  fixed : Tbl Nat := []
  ceil : Tbl (List Nat) := []
  cal : Tbl CalRec := []
  calRun : Option CalRun := none
  floorDue : Tbl Nat := []
  swapSet : Bool := false
  pend : Option PendMode := none
  windowFrom : Option Nat := none
  windowReq : Option (Nat × Nat) := none
  trained : Tbl (List Byte) := []
  rebase : Bool := false
  draws : List Draw := []
  late : List (Nat × Nat × Nat) := []
  squalls : List (Nat × Nat) := []
  farDefault : Bool := true
  recal : Bool := false
  farHeld : List FarAccess := []
  flipDue : Bool := false
  deriving DecidableEq, Repr

/-- A fabric context beside its PBU registers (R91 to R101): the mailbox that opened it, its seed, the cascade bound to
it, when it was last switched in and saved, whether it is blocked, its hold table of cell and acquire key, whether it was
torn down, whether it became runnable before, its basins and save area, the SEQ of a CTX_CLOSE that closes it and when that or the
teardown came about, when its scoreboards last changed or the watchdog's conditions last began to hold (R100), whether it is a warm standby (1) or
one that took over (2) (R142), and whether it has not been runnable at some time since it was saved (R94). -/
structure Ctx where
  mbx : Nat
  cls : Nat
  seed : Nat
  runSince : Nat := 0
  savedAt : Nat := 0
  blocked : Bool := false
  held : List (Nat × Key) := []
  torn : Bool := false
  began : Bool := false
  basins : List Nat := []
  saveArea : Nat := 0
  closing : Option Nat := none
  endedAt : Nat := 0
  lastChange : Nat := 0
  standby : Nat := 0
  away : Bool := false
  deriving DecidableEq, Repr

/-- A scoreboard entry (R123 to R126): its configuration, the ready slots oldest first with their stamps, the free slots
oldest first, credits of an outbound entry, and the tokens received. -/
structure SbEntry where
  kind : Nat
  latest : Bool
  slots : Nat
  base : Nat
  size : Nat
  peer : Nat
  peerEntry : Nat
  peerModule : Nat
  remote : Bool
  readyQ : List (Nat × Nat)
  freeQ : List Nat
  credits : Nat
  tokens : Nat
  deriving DecidableEq, Repr

/-- A running stage (R128): the slots it holds, the dimensions in force, its dispatch DT, and whether its data operation
has been done, flits sent, and whether its end posts the result slot. -/
structure Running where
  slotA : Nat
  slotB : Option Nat
  slotOut : Nat
  slotParam : Option Nat
  dim0 : Nat
  dim1 : Nat
  dim2 : Nat
  at_ : Nat
  worked : Bool
  sent : Nat
  post : Bool := true
  deriving DecidableEq, Repr

/-- The configuration and scoreboard state of a logical basin bound to a context (R98, R121 to R128): chain header,
stage words, entries, running stages by index, the accumulators as 32-bit patterns with whether they hold integers and the
scales their drain applies (R155), row statistics of attention (R213), running sums (R162), padded elements of a slot by
entry × 16 + slot (R248), the rounding generators, the DT up to which its occupation is charged (R83, R130), and the score sheets that stand in
the spill area, by entry, address and size, oldest first (R217). -/
structure Basin where
  ctx : Nat
  header : Nat
  stages : List Nat
  entries : Tbl SbEntry
  running : Tbl Running := []
  acc : List Nat := []
  accInt : Bool := false
  rowScale : List Nat := []
  colScale : List Nat := []
  stats : List (Nat × Nat) := []
  sums : List Nat := []
  masks : Tbl (List Nat) := []
  lfsr : List Nat := []
  chargedTo : Nat := 0
  sheets : List (Nat × Nat × Nat) := []
  deriving DecidableEq, Repr

/-- A mesh flit on its way (R132 to R134): where it goes, its bytes and whether it carries the slot's ready token. -/
structure Flit where
  src : Nat
  dst : Nat
  entry : Nat
  srcEntry : Nat
  index : Nat
  data : List Byte
  last : Bool
  copies : Nat
  key : Key
  deriving DecidableEq, Repr

/-- A credit on its way back to a producer's outbound entry (R124, R134). -/
structure CreditBack where
  basin : Nat
  entry : Nat
  count : Nat
  deriving DecidableEq, Repr

/-- A context switch in progress (R97 to R99). -/
structure Switch where
  region : Nat
  out : Nat
  inn : Nat
  at_ : Nat
  doneAt : Nat
  deriving DecidableEq, Repr

/-- Borrowed budget (R113 to R115): the cell, the cell its chain starts from, its carried holder, the context whose wait started the chain,
the context that waits on this cell, the time held so far and since when the limit counts. -/
structure Carry where
  cell : Nat
  root : Nat
  holder : Nat
  waiter : Nat
  by_ : Nat
  heldNs : Nat
  since : Option Nat
  deriving DecidableEq, Repr

/-- A split record of a cascade (R139, R140, R142). -/
structure Split where
  id : Nat
  part : Nat
  parts : Nat
  mods : List Nat
  takeoverUs : Nat
  deriving DecidableEq, Repr

/-- One basin's part of a cascade image (R361). -/
structure ImgBasin where
  lbasin : Nat
  header : Nat
  stages : List Nat
  entries : List Nat
  deriving DecidableEq, Repr

/-- A run of a cascade in progress (R362). -/
structure CascRun where
  mbx : Nat
  seq : Nat
  left : Nat
  done : Nat
  spilled : Nat
  stalled : Nat
  deriving DecidableEq, Repr

/-- A loaded cascade (R121, R139, R361, R362): its context, its image's parts, areas it took as (tier, address), and whether it is bound,
pinned, run since its bind (begun), armed, binding, unloading, staged for a two-phase commit (R405) or running, and whether a run of it is ending early and its deadline passed (R200). -/
structure Cascade where
  ctx : Nat
  basins : List ImgBasin
  ceil : List Nat
  cells : List Nat
  packs : List Nat
  windows : List (List Byte)
  spills : List (List Byte)
  lists : List (Nat × Nat × List (List Byte))
  attn : List (List Byte)
  split : Split
  taken : List (Nat × Nat)
  bound : Bool := false
  pin : Bool := false
  begun : Bool := false
  armed : Bool := false
  binding : Option (Nat × Nat) := none
  unloading : Option (Nat × Nat) := none
  staged : Bool := false
  run : Option CascRun := none
  ending : Option Bool := none
  deriving DecidableEq, Repr

/-- The cascade fabric (chapters 04, 05): contexts, cascades by handle, basins by logical number, configurations of
saved contexts by context, flits (those for other modules by module) and credits on their way, switches, carries, trace records and the sequence. -/
structure FabSt where
  ctxs : Tbl Ctx := []
  cascades : Tbl Cascade := []
  basins : Tbl Basin := []
  saved : Tbl (List (Nat × Basin)) := []
  flits : List Flit := []
  remote : List (Nat × Flit) := []
  credits : List CreditBack := []
  switches : List Switch := []
  carries : List Carry := []
  trace : List (List Nat) := []
  traceSeq : Nat := 0
  uncorr : List (Nat × Nat) := []
  deriving DecidableEq, Repr

/-- Who operates a rendezvous cell (R109): a software port, a fabric stage's context, a sluice completion. -/
inductive CellWho where
  | port (n : Nat)
  | stage (ctx : Nat)
  | sluice (ctx req : Nat)
  deriving DecidableEq, Repr

/-- A waiter on a cell (R109): who, its operation and argument, its class priority, its order key and its wait. -/
structure Waiter where
  who : CellWho
  ctx : Nat
  op : Nat
  arg : Nat
  prio : Nat
  key : Key
  wait : Option Nat
  deriving DecidableEq, Repr

/-- A rendezvous cell (R106) with contexts that may operate it beside those of its creator's session, the mailbox through which
OBJ_CREATE made it (none: a cascade declared it), its waiters in order, its creator and the order key of the last FLAG_SET. -/
structure Cell where
  type : Nat
  broken : Bool
  owner : Nat
  ceiling : Nat
  count : Nat
  target : Nat
  hold : Nat
  phase : Bool
  users : List Nat
  session : Option Nat
  waiters : List Waiter
  creator : Nat
  flagKey : Option Key := none
  deriving DecidableEq, Repr

end Sys2Proof.Machine
end

