-- ==== Sys2Proof/Machine/IoRec.lean ====
section
/-! DEFINITION. The records of the robot-side interfaces, the safe-stop signals, the Canal link, the two-phase commit and the Ulzil port
(chapters 15 and 17). -/

namespace Sys2Proof.Machine

/-- The safe-stop signals (R396, R398): lines that read high by 2 × input + line, since when an input's lines differ, inputs whose lines
were both low since they became DISCREPANT, and the dynamic signal's level and last edge. -/
structure SsSt where
  high : List Nat := []
  differ : Tbl Nat := []
  bothLow : List Nat := []
  phase : Bool := false
  phaseAt : Nat := 0
  deriving DecidableEq, Repr

/-- A frame that waits to leave (R40, R42, R390): its queue, whether it has the insert flag or asks for a stamp, its source id, its
bytes. -/
structure TxFrame where
  queue : Nat
  insert : Bool
  stamped : Bool
  src : Nat
  data : List Byte
  deriving DecidableEq, Repr

/-- A frame in a receive ring with its order key (R388). -/
structure RxFrame where
  key : Key
  unc : Bool
  data : List Byte
  deriving DecidableEq, Repr

/-- A transmit completion (R40, R42): the frame's source, its departure DT and status. -/
structure TxDone where
  src : Nat
  depart : Nat
  status : Nat
  deriving DecidableEq, Repr

/-- An Ethernet port beside its registers (R388 to R392): whether its gate list has started, the running entry and the DT at which it
began, the entries of the active bank, queued frames in order, the DT up to which an express frame holds the line, the one at which
the line is free, the start of the fragment a preemptable frame sends, the receive ring, the transmit completions, and the
crossed link state. -/
structure EthPort where
  started : Bool := false
  entry : Nat := 0
  entryAt : Nat := 0
  nent : Nat := 1
  txq : List TxFrame := []
  expressTo : Nat := 0
  busyTo : Nat := 0
  fragAt : Nat := 0
  rx : List RxFrame := []
  done : List TxDone := []
  link : Bool := false
  deriving DecidableEq, Repr

/-- An SPI controller beside its registers (R394): the edges that wait, slots that wait for one run, the run in progress with its
stamp and slots, and the bytes each slot read last. -/
structure SpiSt where
  waiting : List Nat := []
  goes : List Nat := []
  run : Option (Nat × List Nat) := none
  data : Tbl (List Byte) := []
  deriving DecidableEq, Repr

/-- A TDM port (R395): blocks received with the DT of their first edge, blocks waiting to be sent. -/
structure TdmSt where
  rx : List (Key × List Byte) := []
  tx : List (List Byte) := []
  deriving DecidableEq, Repr

/-- A Canal flit (R402): type, the module it goes to, its body as numbers, its payload. -/
structure CnlFlit where
  type : Nat
  dst : Nat
  src : Nat
  vc : Nat
  body : List Nat
  payload : List Byte
  deriving DecidableEq, Repr

/-- A Canal port beside its registers (R403): next sequence to send, the replay buffer, next sequence expected, link credits by virtual
channel, whether a replay is under way and the replays that failed in a row, flits that wait to be sent with the DT since which no credit came, and the last ACK (true) or NAK it
sent with its sequence. -/
structure CnlPort where
  txSeq : Nat := 0
  replay : List (Nat × CnlFlit) := []
  rxSeq : Nat := 0
  credits : List Nat := [64, 64]
  replaying : Bool := false
  failures : Nat := 0
  out : List CnlFlit := []
  stuckAt : Option Nat := none
  answer : Option (Bool × Nat) := none
  deriving DecidableEq, Repr

/-- A commit that this module coordinates (R405): its command, kind (0 bind, 1 run, 2 unload, 3 request), participants, votes with
their status, outcome, parts at fault, and those that reported DONE. -/
structure TpcCoord where
  id : Key
  cmd : Option (Nat × Nat)
  kind : Nat
  subject : Nat
  arg : Nat := 0
  parts : List Nat
  deadline : Nat
  votes : Tbl Nat := []
  fails : Nat := 0
  outcome : Option Bool := none
  done : List Nat := []
  deriving DecidableEq, Repr

/-- A commit that this module takes part in (R405, R406): its command's iterations for a run, its vote with the DT at which it was cast,
queries sent and the DT of the last one, and whether it was decided. -/
structure TpcPart where
  id : Key
  coord : Nat
  kind : Nat
  subject : Nat
  arg : Nat := 0
  vote : Option (Bool × Nat) := none
  rounds : Nat := 0
  askedAt : Nat := 0
  decided : Bool := false
  deriving DecidableEq, Repr

/-- An open memory request to another module: its tag, the module, the bytes it reads (0 for a write), the offset and the bytes written, the
initiator's class. -/
structure CnlReq where
  tag : Nat
  dst : Nat
  n : Nat
  off : Nat := 0
  data : List Byte := []
  cls : Nat := 0
  deriving DecidableEq, Repr

/-- The Canal link: ports, the number of modules of the ring, commits, outcomes kept with the DT of the decision, open memory requests to
other modules, and gPTP messages received. -/
structure CnlSt where
  ports : Tbl CnlPort := []
  ring : Nat := 1
  coords : List TpcCoord := []
  parts : List TpcPart := []
  outcomes : List (Key × Bool × Nat) := []
  reads : List CnlReq := []
  ptp : List (List Byte) := []
  deriving DecidableEq, Repr

/-- A breakpoint set through the port, by target × 16 + slot, is in the target's table; the rest of the debug session (R443 to R453):
whether VREF is present, whether a session is open, its granted level, the DT of its last request, the last executed request
and its stored response, the response sent last, the unused challenge with its level and expiry, refused responses since cold reset,
and a request whose response waits: the target that steps, or 27 for a memory access. -/
structure DbgSt where
  vref : Bool := false
  session : Bool := false
  level : Nat := 0
  lastAt : Nat := 0
  last : Option (Nat × Nat × Nat) := none
  stored : Nat × List Byte := (0, [])
  resp : Nat × List Byte := (0, [])
  challenge : Option (List Byte × Nat × Nat) := none
  refused : Nat := 0
  work : Option (Nat × Nat) := none
  deriving DecidableEq, Repr

/-- The low-speed and network interfaces: Ethernet ports (0–3 robot bus, 4–11 multidrop, 12–13 10GBASE-KR), receive rings of the
CAN controllers, SPI and TDM. -/
structure IoSt where
  eth : Tbl EthPort := []
  can : Tbl (List RxFrame) := []
  spi : Tbl SpiSt := []
  tdm : Tbl TdmSt := []
  deriving DecidableEq, Repr

end Sys2Proof.Machine
end

