-- ==== Sys2Proof/Machine/KvRec.lean ====
section
/-! DEFINITION. The records of the KV page table (chapter 08). -/

namespace Sys2Proof.Machine

/-- A page record (R221), and whether the prefix index holds the page (R224).  state: 1 filling, 2 sealed, 3 moving. -/
structure KvPage where
  state : Nat
  tier : Nat
  fmt : Nat
  fill : Nat
  seq : Nat
  kscale : Nat
  vscale : Nat
  refs : Nat
  pins : Nat
  parent : Option Nat
  domain : Nat
  hash : Nat
  layer : Nat
  group : Nat
  frame : Nat
  indexed : Bool
  deriving DecidableEq, Repr

/-- States of a sequence (chapter 08). -/
inductive SeqState where
  | queued | atRest | inStep | swapped | suspended
  deriving DecidableEq, Repr

/-- A sequence (R223, R234): its context and the command that joined it, its shape, the tokens of its prompt or the slot
it forks from, its length, its state, its page list by chain (layer × 64 + group) and that list's place in T1 as address and bytes, pages it pins, a
leave that waits, the wait of its deadline, and what its step entry reports. -/
structure KvSeq where
  ctx : Nat
  mbx : Nat
  seq : Nat
  key : Key
  domain : Nat
  layers : Nat
  groups : Nat
  fmt : Nat
  headDim : Nat
  prompt : List Nat
  fork : Option Nat
  len : Nat := 0
  state : SeqState := .queued
  pages : Tbl (List Nat) := []
  pinned : List Nat := []
  leaving : Option (Nat × Nat × Key) := none
  wait : Option Nat := none
  faulted : Bool := false
  copied : Bool := false
  readmitted : Bool := false
  noPages : Bool := false
  moving : Bool := false
  runs : Bool := false
  grow : Nat := 0
  narrow : Bool := false
  listAt : Option (Nat × Nat) := none
  deriving DecidableEq, Repr

/-- A step of a batch (R228, R234): its context and command, the result object, slots with their new tokens, the key of
its boundary's commit once that has come about, and its open sluice requests. -/
structure KvStep where
  ctx : Nat
  mbx : Nat
  seq : Nat
  key : Key
  result : Nat
  entries : List (Nat × Nat)
  commit : Option Key := none
  open_ : List Nat := []
  torn : List Nat := []
  deriving DecidableEq, Repr

/-- The KV pool (R221): its T1 and T2 objects, frame size and frames of each. -/
structure KvPool where
  t1 : Nat
  t2 : Nat
  frameBytes : Nat
  t1Frames : Nat
  t2Frames : Nat
  base1 : Nat
  base2 : Nat
  deriving DecidableEq, Repr

/-- The KV page table beside its registers: the pool, page records by index, sequences by slot, steps. -/
structure KvSt where
  pool : Option KvPool := none
  pages : Tbl KvPage := []
  seqs : Tbl KvSeq := []
  steps : List KvStep := []
  deriving DecidableEq, Repr

end Sys2Proof.Machine
end

