-- ==== Sys2Proof/Machine/Mem.lean ====
section
/-! DEFINITION. Byte memories as sorted lists of the bytes that are not zero: an unlisted address reads as 0. -/

namespace Sys2Proof.Machine

/-- A memory: addresses strictly rising, no listed byte equal to 0, which is what an unlisted address reads as. -/
abbrev Memory := List Host.Cell

/-- Addresses rise strictly from the bound on, and no listed byte is 0. -/
def Memory.wfFrom : Nat → Memory → Bool
  | _, [] => true
  | lo, (a, b) :: rest => decide (lo ≤ a) && (b != 0) && Memory.wfFrom (a + 1) rest

/-- The canonical form of a memory. -/
def Memory.wf (m : Memory) : Bool := Memory.wfFrom 0 m

/-- Read one byte. -/
def Memory.get : Memory → Nat → Byte
  | [], _ => 0
  | (k, b) :: rest, a => if k = a then b else Memory.get rest a

/-- The listed bytes of a stretch, by their distance from its start. -/
def Memory.slice (m : Memory) (a n : Nat) : Memory :=
  (m.filter fun c => decide (a ≤ c.1) && decide (c.1 < a + n)).map fun c => (c.1 - a, c.2)

/-- Replace a stretch of n bytes by the given bytes, listed by their distance from its start. -/
def Memory.put (m : Memory) (a n : Nat) (rel : Memory) : Memory :=
  (m.filter fun c => decide (c.1 < a)) ++
    ((rel.filter fun c => decide (c.1 < n)).map fun c => (c.1 + a, c.2)) ++
    (m.filter fun c => decide (a + n ≤ c.1))

/-- A byte list as the listed bytes of a stretch. -/
def Memory.relOf : Nat → List Byte → Memory
  | _, [] => []
  | i, b :: bs => if b = 0 then Memory.relOf (i + 1) bs else (i, b) :: Memory.relOf (i + 1) bs

/-- Write a byte list. -/
def Memory.write (m : Memory) (a : Nat) (bs : List Byte) : Memory := m.put a bs.length (Memory.relOf 0 bs)

/-- Read n bytes. -/
def Memory.read (m : Memory) (a n : Nat) : List Byte := (List.range n).map fun i => m.get (a + i)

/-- Read an n-byte little-endian number (R9). -/
def Memory.le (m : Memory) (a n : Nat) : Nat := leNat (m.read a n)

/-- Write an n-byte little-endian number (R9). -/
def Memory.putLe (m : Memory) (a n v : Nat) : Memory := m.write a (leBytes n v)

/-- Set a stretch to zero. -/
def Memory.clear (m : Memory) (a n : Nat) : Memory := m.put a n []

/-- Copy a stretch of one memory into another. -/
def Memory.copy (dst : Memory) (d n : Nat) (src : Memory) (a : Nat) : Memory := dst.put d n (src.slice a n)

end Sys2Proof.Machine
end

