-- ==== Sys2Proof/Machine/LoopRec.lean ====
section
/-! DEFINITION. The records of the loop engines and the early holding service (chapter 12). -/

namespace Sys2Proof.Machine

/-- A joint's state entry from a state frame (R322, R334): ingress stamp, delivery DT, TS_UNCERTAIN, drive status, position,
velocity, effort, bus voltage, sampling instant. -/
structure JointState where
  stamp : Nat
  delivered : Nat
  unc : Bool
  dstat : Nat
  pos : Nat
  vel : Nat
  eff : Nat
  vbus : Nat
  sampleDt : Nat
  deriving DecidableEq, Repr

/-- A law slot (R318): its descriptor with converted matrices, the accepted plant models by output with their KIND 2 records, and
whether each is in use (R336). -/
structure LawSlot where
  desc : List Byte
  models : Tbl (List Byte) := []
  inUse : List Nat := []
  deriving DecidableEq, Repr

/-- An armed law (R316, R324, R329 to R331): its slot, DIV at the tick period in force, the anchor A, its states, the shaped
references by input and those frozen by holding, and the mailbox and context that armed it. -/
structure ArmedLaw where
  slot : Nat
  div : Nat
  anchor : Nat
  x : List Nat
  reff : List (Option Nat)
  frozen : List (Option Nat)
  mbx : Nat
  ctx : Nat
  deriving DecidableEq, Repr

/-- An injection in progress (R337); vsum and vcnt: the sum of V_meas over the law's ticks and their number (R335). -/
structure Inject where
  mbx : Nat
  seq : Nat
  slot : Nat
  output : Bool
  index : Nat
  sig : Nat
  n : Nat
  m : Nat
  a : Nat
  f0 : Nat
  f1 : Nat
  t0 : Nat
  len : Nat
  cal : Nat
  calibrate : Bool
  lfsr : Nat
  steps : Nat
  squall : Nat
  vsum : Nat := 0
  vcnt : Nat := 0
  deriving DecidableEq, Repr

/-- A capture in progress (R338). -/
structure Capture where
  mbx : Nat
  seq : Nat
  k : Nat
  dec : Nat
  object : Nat
  start : Nat
  codes : List Nat
  first : Option Nat
  ticks : Nat
  rows : Nat
  data : List Nat
  holdAt : Nat
  deriving DecidableEq, Repr

/-- A change of armed laws that waits for its tick (R316, R331, R342): 0 arm, 1 disarm, 2 hold, 3 resume, 4 swap, 5 handover; the command, the slots and, at a handover, H. -/
structure LawChange where
  what : Nat
  cmd : Option (Nat × Nat)
  slots : Nat
  at_ : Nat
  mbx : Nat
  ctx : Nat
  deriving DecidableEq, Repr

/-- A loop engine beside its registers: law slots, armed laws, the laws that holding ones stand for (original by holding slot), holding and its
command, the flipped sets as (stamp, bytes), changes that wait, frames built and not yet queued, latched states by joint index, injection and
capture. -/
structure Engine where
  slots : Tbl LawSlot := []
  armed : List ArmedLaw := []
  held : List (Nat × ArmedLaw) := []
  holding : Bool := false
  holdCmd : Bool := false
  sets : List (Nat × List Byte) := []
  changes : List LawChange := []
  frames : List (Nat × List Byte) := []
  latched : Tbl JointState := []
  inject : Option Inject := none
  capture : Option Capture := none
  deriving DecidableEq, Repr

/-- The early holding service (R339 to R343): the image, reference and first DT of each joint index. -/
structure EarlySt where
  image : List Byte := []
  refs : Tbl Nat := []
  seatFrom : Tbl Nat := []
  deriving DecidableEq, Repr

/-- The loop engines: engines by number, state entries by joint index, newest first, and the early service. -/
structure LoopSt where
  eng : Tbl Engine := []
  joints : Tbl (List JointState) := []
  early : EarlySt := {}
  deriving DecidableEq, Repr

end Sys2Proof.Machine
end

