-- ==== Sys2Proof/Machine/SenseRec.lean ====
section
/-! DEFINITION. The records of camera ingest, the fusion sequencer and the planner (chapters 09, 10, 11). -/

namespace Sys2Proof.Machine

/-- An exposure that no frame has taken yet (R257, R258): its stamp and the wait for its first line. -/
structure CamExp where
  stamp : Nat
  wait : Option Nat
  deriving DecidableEq, Repr

/-- The frame a port receives (R255 to R260): dropped, its buffer, good and replaced lines as pixels, extra lines seen, replaced
lines, elastic crossing, status LATE_ACCEPTED, estimated stamp, untriggered, the exposure stamp once known, first and last
line's stamps and tiles landed. -/
structure CamFrame where
  dropped : Bool := false
  buf : Nat := 0
  rows : List (Bool × List Nat) := []
  extra : Bool := false
  bad : Nat := 0
  unc : Bool := false
  late : Bool := false
  est : Bool := false
  untrig : Bool := false
  stamp : Option Nat := none
  first : Nat := 0
  last : Nat := 0
  tiles : Nat := 0
  deriving DecidableEq, Repr

/-- A camera port beside its registers: open exposures, oldest first, the frame in progress, the stamp of the previous accepted
frame, and the end of CAM_TRIG's pulse. -/
structure CamPort where
  exps : List CamExp := []
  frame : Option CamFrame := none
  lastStamp : Option Nat := none
  trigEnd : Nat := 0
  deriving DecidableEq, Repr

/-- A stream descriptor (R266). -/
structure FusStream where
  gen : Nat
  kind : Nat
  role : Nat
  extero : Bool
  ego : Nat
  nval : Nat
  stream : Nat
  srcfmt : Nat
  source : Nat
  maxAge : Nat
  group : Nat
  gval : Nat
  sigma : Nat
  scale : Nat
  deriving DecidableEq, Repr

/-- A group descriptor (R285). -/
structure FusGroup where
  gen : Nat
  num : Nat
  conserve : Nat
  ncon : Nat
  gate : Nat
  deriving DecidableEq, Repr

/-- A fusion configuration (R268): streams, groups, sample ports as (entries, ring address), worst-case run time, estimator
program. -/
structure FusConf where
  streams : List FusStream
  groups : List FusGroup
  ports : Tbl (Nat × Nat)
  estNs : Nat
  program : List Byte
  deriving DecidableEq, Repr

/-- A delivered sample (R264, R265, R271): stamp, source counter, delivery DT, TS_UNCERTAIN with its bound, FP32 values, and
whether it was delivered after the guard of a cut-off it belonged to. -/
structure FusSample where
  stamp : Nat
  cnt : Nat
  delivered : Nat
  unc : Bool
  bound : Nat
  vals : List Nat
  late : Bool
  deriving DecidableEq, Repr

/-- What a stream contributes to a record (R271, R272, R287, R288). -/
structure FusContr where
  sample : Option FusSample
  excl : Bool
  outv : Bool
  cont : Bool
  deriving DecidableEq, Repr

/-- A fused record that the history holds (R274), with what it was computed from and the estimator's state after it. -/
structure FusRecd where
  tov : Nat
  cut : Nat
  rev : Nat
  guard : Nat
  conf : FusConf
  contrs : Tbl FusContr
  ego : Nat
  before : List Nat
  after : List Nat
  takers : List Nat := []
  deriving DecidableEq, Repr

/-- A contradiction group's counts (R286, R287): consecutive evaluations as the odd member and as agreeing by stream, consecutive
unresolved and resolved evaluations, and the members' stamps at the previous evaluation. -/
structure FusGroupSt where
  odd : Tbl Nat := []
  agree : Tbl Nat := []
  unres : Nat := 0
  clear : Nat := 0
  last : Tbl Nat := []
  deriving DecidableEq, Repr

/-- An estimator run in progress (R273). -/
structure FusRun where
  tov : Nat
  cut : Nat
  guard : Nat
  contrs : Tbl FusContr
  ego : Nat
  deriving DecidableEq, Repr

/-- A subscriber (R278): the context that asked, its target (a device-inbound entry, or a ring object), every Nth record, the
flag it sets on a cell, whether it takes only the newest amendment of a replay, and records seen. -/
structure FusSub where
  ctx : Nat
  kind : Nat
  target : Nat
  every : Nat
  flag : Nat
  cell : Nat
  last : Bool
  count : Nat
  wr : Nat
  deriving DecidableEq, Repr

/-- The fusion sequencer beside its registers: configuration in force, one that waits for the next cut-off with its CTRL, samples
by stream (newest first), those of streams that a later configuration removed or gave another source, for the records held (R267), outvoted streams, contested groups, group counts, the ladder's own level and since when the condition
is less severe, whether it left Whiteout since cold reset, the instants of R279, the ego source, the next cut-off number, the
estimator's run and state, missed cut-offs in a row, history (oldest first), the replay's position, subscribers, changes of the
dedicated lines (newest first), its history's area. -/
structure FusSt where
  conf : Option FusConf := none
  pend : Option (Option FusConf × Nat) := none
  samples : Tbl (List FusSample) := []
  past : List (FusStream × List FusSample) := []
  outv : List Nat := []
  contested : List Nat := []
  groups : Tbl FusGroupSt := []
  ladder : Nat := 4
  below : Option Nat := none
  everLeft : Bool := false
  enabledAt : Nat := 0
  whiteLeftAt : Option Nat := none
  egoCleanSince : Option Nat := none
  ego : Nat := 2
  cut : Nat := 0
  run : Option FusRun := none
  missed : Nat := 0
  est : List Nat := []
  hist : List FusRecd := []
  newestTov : Option Nat := none
  newestGuard : Nat := 0
  replay : Option Nat := none
  subs : Tbl FusSub := []
  lines : List (Nat × Nat × Nat × Bool) := []
  area : Nat := 0
  deriving DecidableEq, Repr

/-- A loaded roadmap (R295, R304): its object, the geometry, the tables' places and lengths. -/
structure Roadmap where
  object : Nat
  nx : Nat
  ny : Nat
  nz : Nat
  resMm : Nat
  stepMs : Nat
  origin : List Nat
  nnodes : Nat
  nedges : Nat
  edges : Nat
  lists : Nat
  deriving DecidableEq, Repr

/-- A grid write (R298, R300): the command, its form, source and runs, whether it publishes and with which T0, and its order. -/
structure GridWrite where
  mbx : Nat
  seq : Nat
  delta : Bool
  publish : Bool
  src : Nat
  nruns : Nat
  t0 : Nat
  started : Bool
  deriving DecidableEq, Repr

/-- A wavefront run in progress (R301 to R303): its command where it runs on its own, pinned bank, goals, slice mask, field object and
cell. -/
structure WaveRun where
  cmd : Option (Nat × Nat)
  bank : Nat
  epoch : Nat
  goals : List (Nat × Nat × Nat)
  slices : Nat
  field : Nat
  cell : Nat
  deriving DecidableEq, Repr

/-- A sweep in progress (R309). -/
structure SweepRun where
  mbx : Nat
  seq : Nat
  bank : Nat
  epoch : Nat
  start : Nat
  off : Nat
  field : Nat
  speed : Nat
  disabled : List Nat
  deriving DecidableEq, Repr

/-- What a PLAN_RUN fixes for its replans (R310, R311, R363). -/
structure PlanCfg where
  mbx : Nat
  seq : Nat
  ctx : Nat
  cands : Nat
  ring : Nat
  field : Nat
  goals : List (Nat × Nat × Nat)
  wave : Bool
  slices : Nat
  cell : Nat
  deadlineUs : Nat
  checkUs : Nat
  repeat_ : Bool
  cue : Nat
  deriving DecidableEq, Repr

/-- A replan in progress (R310 to R313): its fire, whether its batch runs and on which bank and epoch, level and SPEED at the batch
start, the candidates that passed, the one being rechecked with its epoch, candidates ruled out since, whether its
wavefront did not converge, and whether a run waits for the engine. -/
structure Replan where
  cfg : PlanCfg
  fire : Nat
  batch : Bool := false
  bank : Nat := 0
  epoch : Nat := 0
  level : Nat := 0
  speed : Nat := 100
  passed : Option Nat := none
  recheck : Option (Nat × Nat × Nat) := none
  ruled : List Nat := []
  rechecked : Bool := false
  notConv : Bool := false
  waveDue : Bool := false
  deriving DecidableEq, Repr

/-- The planner beside its registers: the two banks of its store with base time, the pins as (bank, owner), the roadmap and one that
waits for running work, disabled edges with the DT of the change, grid writes in order, runs in progress, the repeat, replans of
the repeat, the START of the last plan, ring positions by object, the near-store bytes issued of each engine's work in hand,
and the wavefront engine's field buffer (R301). -/
structure PlanSt where
  bank0 : Memory := []
  bank1 : Memory := []
  t00 : Nat := 0
  t01 : Nat := 0
  geom : Option Roadmap := none
  geomNext : Option (Roadmap × Nat × Nat) := none
  disabled : Tbl Nat := []
  writes : List GridWrite := []
  wave : Option WaveRun := none
  sweep : Option SweepRun := none
  replan : Option Replan := none
  rep : Option PlanCfg := none
  repCount : Nat := 0
  prevStart : Nat := 0
  ring : Tbl Nat := []
  issued : Tbl Nat := []
  field : Memory := []
  deriving DecidableEq, Repr

end Sys2Proof.Machine
end

