-- ==== Sys2Proof/Machine/SluiceRec.lean ====
section
/-! DEFINITION. The records of the memory tiers: objects, sluice requests and their parts, list positions (chapter 07). -/

namespace Sys2Proof.Machine

/-- Where bytes lie: a tier and an address there; for an object's T0 copy the byte offset in each basin store, the first logical basin, the
number of basins used and the context that holds them (R176, LOC_T0, BYTE_T0). -/
structure Loc where
  tier : Nat
  addr : Nat
  first : Nat := 0
  used : Nat := 0
  ctx : Nat := 0
  deriving DecidableEq, Repr

/-- What a request queued behind an object's lock wants (R181 to R187). -/
inductive LockKind where
  | place | pin | evict | force
  | slu (req : Nat)
  deriving DecidableEq, Repr

/-- A request queued behind an object's lock: its order key, its command and context, the tier. -/
structure LockReq where
  key : Key
  mbx : Nat
  seq : Nat
  ctx : Nat
  tier : Nat
  kind : LockKind
  deriving DecidableEq, Repr

/-- An object (R179): reuse tag, kind (0 pack, 1 linear), size, home tier, creating context, whether that context has
closed, committed copies by tier, needs and pins as (tier, context), the lock's request and the requests behind it. -/
structure Obj where
  tag : Nat
  kind : Nat
  size : Nat
  home : Nat
  creator : Nat
  orphan : Bool := false
  pool : Bool := false
  dirty : Bool := false
  stuck : Bool := false
  copies : Tbl Loc
  needs : List (Nat × Nat) := []
  pins : List (Nat × Nat) := []
  lock : Option Nat := none
  queue : List LockReq := []
  deriving DecidableEq, Repr

/-- A sluice descriptor's fields (chapter 07). -/
structure Desc where
  gen : Nat := 0
  op : Nat
  srcTier : Nat
  dstTier : Nat
  cls : Nat
  ctx : Nat
  staged : Bool
  entryDst : Bool
  entrySrc : Bool
  req : Nat := 0
  part : Nat := 0
  nparts : Nat := 1
  srcAddr : Nat
  dstAddr : Nat
  packHdr : Nat := 0
  first : Nat := 0
  count : Nat
  deadline : Nat := 0
  object : Nat := 0
  cellOp : Nat := 0
  flagBit : Nat := 0
  cell : Nat := 0
  spill : Nat := 0
  crec : Nat := 0
  rsvd : Nat := 0
  deriving DecidableEq, Repr

/-- The state of a part on its engine (R191, R192). -/
inductive PartState where
  | held | queued | running | parked | ended
  deriving DecidableEq, Repr

/-- A part of a request: its engine, descriptor, order key of queuing, progress in tiles, bytes of the current tile
already issued, whether it failed for good or was retried, its start, the DT at which it was parked and the times it has spent parked as
(from, to), and the staging area that a part takes for itself (R203). -/
structure Part where
  index : Nat
  engine : Nat
  desc : Desc
  key : Key
  state : PartState
  pos : Nat := 0
  prog : Nat := 0
  failed : Bool := false
  retried : Bool := false
  startAt : Nat := 0
  parkedAt : Nat := 0
  parks : List (Nat × Nat) := []
  area : Option (Loc × Nat) := none
  deriving DecidableEq, Repr

/-- What a request of the KV page table moves (R212, R222, R232, R233, R236): pages read into a basin, each item a page and twice the slot that
reads it, plus 1 for its V; new positions written from one; pages swapped out or in; a page copied. -/
inductive KvMove where
  | read | write | swapOut | swapIn | copy
  deriving DecidableEq, Repr

/-- What a request is for: a command's copy, pin or write-back of an object, the copy of OBJ_CREATE's INIT, a part of STORE_SAFE, a list of a
cascade, or the KV page table's moves for a sequence slot, each item a page with its new fill, new frame or copy. -/
inductive Purpose where
  | place (mbx seq ctx : Nat) (pin : Bool)
  | writeBack (mbx seq tier : Nat) (force : Bool)
  | initCopy (mbx seq : Nat)
  | safe (mbx seq part : Nat)
  | list (handle list : Nat)
  | kv (slot : Nat) (move : KvMove) (items : List (Nat × Nat))
  deriving DecidableEq, Repr

/-- A sluice request (R193 to R205): its purpose, context and class, order key, the object copy it makes, or with rewrites the one it overwrites,
its staging, its parts, its deadline's wait and the second one of a layer that stalls, and its outcome so far; closed: it has completed, and
only that second deadline is still open (R206). -/
structure SluReq where
  purpose : Purpose
  ctx : Nat
  cls : Nat
  key : Key
  reqId : Nat := 0
  nparts : Nat := 1
  making : Option (Nat × Nat) := none
  rewrites : Bool := false
  stage : Option (Loc × Nat) := none
  parts : List Part := []
  wait : Option Nat := none
  stall : Option Nat := none
  deadline : Nat := 0
  spill : Nat := 0
  crec : Nat := 0
  cellOp : Nat := 0
  flagBit : Nat := 0
  cell : Nat := 0
  failMask : Nat := 0
  bytes : Nat := 0
  expired : Bool := false
  committed : Bool := false
  closed : Bool := false
  status : Option Nat := none
  lastEngine : Nat := 0
  deriving DecidableEq, Repr

/-- The memory tiers and sluice engines beside their registers: objects by index, the last reuse tag of each index, open
requests by number, the instant of each engine's last start, the active lists of cascades by handle × 65,536 + list
with the next descriptor, namespace 1 of the flash (R178), and areas the steward took as (tier, address, length). -/
structure SluSt where
  objs : Tbl Obj := []
  tags : Tbl Nat := []
  reqs : Tbl SluReq := []
  nextReq : Nat := 0
  lastStart : Tbl Nat := []
  lists : Tbl Nat := []
  flash : Memory := []
  areas : List (Nat × Nat × Nat) := []
  deriving DecidableEq, Repr

end Sys2Proof.Machine
end

