-- ==== Sys2Proof/Machine/State.lean ====
section
/-! DEFINITION. The state of the block, its reasons to stop, and its state right after reset. -/

namespace Sys2Proof.Machine

/-- Why the block stops. -/
inductive Fault where
  /-- Raised by a step on an empty queue when DT stands at 2^64 − 1, which R30 says is not reached for 584 years.  Safe: the block stops where the counter would wrap. -/
  | dtExhausted
  deriving DecidableEq, Repr

/-- Why a command has no meaning here. -/
inductive Refusal where
  /-- The command with this mnemonic has no meaning yet.  Safe: nothing is claimed of it. -/
  | notModelled (mnemonic : String)
  deriving DecidableEq, Repr

/-- What the last access to a register or to memory answered (R5, R6). -/
inductive Bus where
  | idle
  | ok
  | data (v : Nat)
  | bytes (bs : List Byte)
  | accessFault
  deriving DecidableEq, Repr

/-- The device without its time, its latch and its one-time-programmable memory. -/
structure Dev where
  regs : Regs := []
  recs : List Rec := []
  cnt : Tbl Nat := []
  free : Nat := 0
  bus : Bus := .idle
  module : Nat := 0
  mem : Memory := []
  grants : Tbl (Nat × Nat) := []
  waits : Tbl Wait := []
  nextWait : Nat := 0
  sysArea : Memory := []
  nor : Memory := []
  time : TimeSt := {}
  cue : CueSt := {}
  pow : PowSt := {}
  eic : EicSt := {}
  stew : StewSt := {}
  pbu : PbuSt := {}
  fab : FabSt := {}
  slu : SluSt := {}
  kv : KvSt := {}
  cam : Tbl CamPort := []
  fus : FusSt := {}
  plan : PlanSt := {}
  le : LoopSt := {}
  ss : SsSt := {}
  io : IoSt := {}
  cnl : CnlSt := {}
  dbg : DbgSt := {}
  cells : Tbl Cell := []
  cellRes : Tbl (Nat × Nat) := []
  mc : McSt := {}
  cores : CoreSt := {}
  idn : IdSt := {}
  deriving DecidableEq, Repr

/-- The state of the block: device time and its fraction of 2^-32 ns (R29), the boot latch with its count of ignored
writes and the instant of the close (R420), one-time-programmable memory (R427), the device, and the queue of waiting commands. -/
structure State where
  dt : Nat
  frac : Nat
  latchClosed : Bool
  ignored : Nat
  closedAt : Option Nat
  otp : Otp
  dev : Dev
  pending : List Instr
  deriving DecidableEq, Repr

/-- The block right after a cold reset with the module unpowered until the MC starts: DT 0, latch open, every register at
its reset value (R8, R30, R414, R420). -/
def State.reset : State :=
  { dt := 0, frac := 0, latchClosed := false, ignored := 0, closedAt := none, otp := {}, dev := {}, pending := [] }

end Sys2Proof.Machine
end

