-- ==== Sys2Proof/Machine/Ops.lean ====
section
/-! DEFINITION. The named operations that every family of commands uses: registers, order keys, records, interrupts, the
almanac, time and free values. -/

namespace Sys2Proof.Machine

/-- A register with no number. -/
abbrev r0 (n : RegName) : Reg := ⟨n, 0, 0⟩

/-- A register with one number. -/
abbrev r1 (n : RegName) (i : Nat) : Reg := ⟨n, i, 0⟩

/-- A register with two numbers. -/
abbrev r2 (n : RegName) (i j : Nat) : Reg := ⟨n, i, j⟩

/-- A register's contents. -/
def Dev.rd (d : Dev) (r : Reg) : Word := d.regs.rd r

/-- A register's contents as a number. -/
def Dev.rn (d : Dev) (r : Reg) : Nat := (d.regs.rd r).toNat

/-- The device with a register's contents written by the hardware. -/
def Dev.wr (d : Dev) (r : Reg) (v : Word) : Dev := { d with regs := d.regs.wr r v }

/-- The device with a register set to a number. -/
def Dev.wn (d : Dev) (r : Reg) (n : Nat) : Dev := d.wr r (BitVec.ofNat 64 n)

/-- A register's field. -/
def Dev.f (d : Dev) (r : Reg) (x : Fld) : Nat := fget (d.rd r) x

/-- Whether a one-bit field is 1. -/
def Dev.fb (d : Dev) (r : Reg) (x : Fld) : Bool := d.f r x == 1

/-- The device with one field of a register written by the hardware. -/
def Dev.sf (d : Dev) (r : Reg) (x : Fld) (n : Nat) : Dev := d.wr r (fput (d.rd r) x n)

/-- Increment a field that saturates. -/
def Dev.incSat (d : Dev) (r : Reg) (x : Fld) : Dev := d.sf r x (min (2 ^ x.w - 1) (d.f r x + 1))

/-- Add to a field that saturates. -/
def Dev.addSat (d : Dev) (r : Reg) (x : Fld) (k : Nat) : Dev := d.sf r x (min (2 ^ x.w - 1) (d.f r x + k))

/-- The order key of an arrival from another module or device whose counter value does not come with it: that value is free (log entry 59). -/
def Dev.foreignKey (d : Dev) (at_ src : Nat) : Key × Dev := (⟨at_, src, Config.freeNat d.free % 2 ^ 32⟩, { d with free := d.free + 1 })

/-- Whether a power domain is on (R66). -/
def Dev.on (d : Dev) (pd : Nat) : Bool := d.pow.on.contains pd

/-- Whether the early domain is powered and out of reset (R21, R66). -/
def Dev.earlyOn (d : Dev) : Bool := d.on 170

/-- Whether the main domains run (R417). -/
def Dev.mainOn (d : Dev) : Bool := d.pow.mainGood

/-- DT when a command presented at t acts: DT never decreases and stops at its largest value; while the early domain
is off DT does not run (R29, R30, log entry 1). -/
def State.now (s : State) (t : Nat) : Nat := if s.dev.earlyOn then max s.dt (min t dtMax) else s.dt

/-- Run an effect on the device at a command's instant. -/
def State.run (s : State) (t : Nat) (f : Nat → Dev → Dev) : Host.Outcome State Fault Refusal :=
  .next { s with dt := s.now t, dev := f (s.now t) s.dev }

/-- A fresh unconstrained number for a value the spec leaves open (the model's free values). -/
def Dev.fresh (d : Dev) : Nat × Dev := (Config.freeNat d.free, { d with free := d.free + 1 })

/-- Module index in bits 15:14 of a source id (R44, R399). -/
def Dev.src (d : Dev) (x : Nat) : Nat := d.module % 4 * 0x4000 + x

/-- The next value of a source's counter, which wraps modulo 2^32 (R43). -/
def Dev.cntOf (d : Dev) (x : Nat) : Nat := tgetD d.cnt x 0

/-- Draw the order key of a record of source x at an instant (R12, R43). -/
def Dev.draw (d : Dev) (x dt : Nat) : Key × Dev :=
  (⟨dt, d.src x, d.cntOf x⟩, { d with cnt := tset d.cnt x ((d.cntOf x + 1) % 2 ^ 32) })

/-- Order keys compare by DT, then source id, then counter (R12, R44). -/
def Key.lt (a b : Key) : Bool :=
  decide (a.dt < b.dt) || (a.dt == b.dt && (decide (a.src < b.src) || (a.src == b.src && decide (a.cnt < b.cnt))))

/-- An order key's 16 bytes in memory (R13). -/
def Key.bytes (k : Key) : List Byte := leBytes 8 k.dt ++ leBytes 4 k.cnt ++ leBytes 2 k.src ++ leBytes 2 0

/-- The order key that 16 bytes of memory hold (R13). -/
def Key.ofBytes (bs : List Byte) : Key := ⟨bytesAt bs 0 8, bytesAt bs 12 2, bytesAt bs 8 4⟩

/-- Add a record to the device's record log. -/
def Dev.log (d : Dev) (r : Rec) : Dev := { d with recs := r :: d.recs }

/-- Produce a record of source x at an instant, with the next value of the source's counter (R12, R43). -/
def Dev.emit (d : Dev) (x dt : Nat) (kind : RecKind) (unc : Bool) (body : List Nat) : Dev :=
  (d.draw x dt).2.log ⟨(d.draw x dt).1, kind, unc, body⟩

/-- The EIC sources that are assigned; the others never pend (R376). -/
def eicListed (x : Nat) : Bool :=
  (1 ≤ x && x ≤ 4) || (16 ≤ x && x ≤ 202) || x == 204 || x == 205 || x == 208 || x == 209 ||
  (212 ≤ x && x ≤ 225) || (232 ≤ x && x ≤ 243) || (256 ≤ x && x ≤ 781) || (800 ≤ x && x ≤ 818) ||
  (832 ≤ x && x ≤ 876)

/-- An event of an EIC source sets its pending bit, while the EIC is powered (R376, R377, R380, PD156). -/
def Dev.raise (d : Dev) (x : Nat) : Dev :=
  if eicListed x && d.on 156 && !d.eic.pend.contains x then { d with eic := { d.eic with pend := x :: d.eic.pend } }
  else d

/-- Bytes a record takes in the almanac: 96 bytes and its payload, padded to 32 (R432). -/
def AlmRec.size (r : AlmRec) : Nat := (96 + r.payload.length + 31) / 32 * 32

/-- Bytes of records the MC holds (R431, R434). -/
def McSt.buffered (m : McSt) : Nat := (m.buf.map AlmRec.size).sum

/-- The lost record after one more record was not kept (R434). -/
def AlmLost.add (l : Option AlmLost) (at_ : Nat) : AlmLost :=
  match l with
  | none => ⟨1, at_, at_⟩
  | some x => ⟨x.number + 1, x.first, at_⟩

/-- Whether the debug port has halted the MC (R459). -/
def Dev.mcHalted (d : Dev) : Bool := (tgetD d.cores.targets 26 {}).halted

/-- The MC takes a record into its 1 MiB buffer, or counts it in the one lost record when the buffer is full or the MC
is halted or off (R434, R459). -/
def Dev.almPost (d : Dev) (r : AlmRec) : Dev :=
  if d.mc.running && !d.mcHalted && decide (d.mc.buffered + r.size ≤ 2 ^ 20) then { d with mc := { d.mc with buf := d.mc.buf ++ [r] } }
  else { d with mc := { d.mc with bufLost := some (AlmLost.add d.mc.bufLost r.at_), lostTotal := d.mc.lostTotal + 1 } }

/-- Write an event with its order key to the almanac: kind, severity, writer, payload numbers as 64-bit fields. -/
def Dev.alm (d : Dev) (kind sev : Nat) (key : Key) (now : Nat) (body : List Nat) : Dev :=
  d.almPost ⟨key, kind, sev, key.src, now, body.flatMap (leBytes 8)⟩

/-- Write an event without an order key of its own: the MC's own key, source 0x3000 (R432). -/
def Dev.almMc (d : Dev) (kind sev now : Nat) (body : List Nat) : Dev :=
  (d.draw 0x3000 now).2.alm kind sev (d.draw 0x3000 now).1 now body

/-- A time difference between two stamps, the first-lock jump taken out (R38). -/
def Dev.elapsed (d : Dev) (a b : Nat) : Nat :=
  if d.fb (r0 .timeStatus) F.timeStatus.JUMPED && decide (a < d.rn (r0 .timeJumpAt)) && decide (d.rn (r0 .timeJumpAt) ≤ b)
  then b - a - d.rn (r0 .timeJumpSize) else b - a

/-- The operating time of the module: while the early domain was powered (R136, log entry 51). -/
def Dev.opTime (d : Dev) (now : Nat) : Nat := d.mc.opNs + (if d.earlyOn then d.elapsed 0 now else 0)

/-- The instant n ticks after a stored instant; the jump moves it where it was still to come (R37). -/
def Dev.dueAfter (d : Dev) (a n : Nat) : Nat :=
  let j := d.rn (r0 .timeJumpAt)
  let k := d.rn (r0 .timeJumpSize)
  if d.fb (r0 .timeStatus) F.timeStatus.JUMPED && decide (a < j) && decide (j < a + n + k) then satAdd dtMax (a + n) k else a + n

/-- A queue's elastic state (R58, R65). -/
def Dev.elastic (d : Dev) (block q : Nat) : Bool := (d.f (r1 .cdcStatus block) F.cdcStatus.ELASTIC).testBit q

/-- Set one bit of a field. -/
def Dev.setBit (d : Dev) (r : Reg) (x : Fld) (i : Nat) : Dev := d.sf r x (d.f r x ||| 2 ^ i)

/-- Clear one bit of a field. -/
def Dev.clrBit (d : Dev) (r : Reg) (x : Fld) (i : Nat) : Dev := d.sf r x (d.f r x - (d.f r x &&& 2 ^ i))

/-- An event that reaches a full crossing is discarded: OVR, LOST and the block's crossing interrupt (R64). -/
def Dev.overrun (d : Dev) (block q : Nat) : Dev :=
  ((d.setBit (r1 .cdcStatus block) F.cdcStatus.OVR q).incSat (r1 .cdcLost block) F.cdcLost.LOST).raise (240 + block)

/-- The debug view of a target. -/
def Dev.target (d : Dev) (k : Nat) : DbgTarget := tgetD d.cores.targets k {}

/-- The device with a target's debug view changed. -/
def Dev.setTarget (d : Dev) (k : Nat) (x : DbgTarget) : Dev := { d with cores := { d.cores with targets := tset d.cores.targets k x } }

/-- Whether an application core is released, powered and not halted (R416, R456). -/
def Dev.coreRuns (d : Dev) (core : Nat) : Bool := d.cores.released && d.on (136 + core / 4) && !(d.target core).halted

/-- Whether the steward serves its mailboxes: released, powered, core 0 not halted (R20, R415, R456). -/
def Dev.stewardRuns (d : Dev) : Bool := d.cores.steward && d.on 141 && !(d.target 16).halted

/-- The envelope in force (R68). -/
def Dev.envelope (d : Dev) : Nat := d.f (r0 .cpcMode) F.cpcMode.ENVELOPE

/-- The profile in force (R69). -/
def Dev.profile (d : Dev) : Nat := d.f (r0 .cpcMode) F.cpcMode.PROFILE

end Sys2Proof.Machine
end

