-- ==== Sys2Proof/Machine/CamRegs.lean ====
section
/-! DEFINITION. What a camera port's registers declare: geometry and load (R254, R261). -/

namespace Sys2Proof.Machine

/-- The geometry a port's registers declare: input and output size, regroup factor, channels, bits, tile rows, format. -/
structure CamGeom where
  inW : Nat
  inH : Nat
  outW : Nat
  outH : Nat
  f : Nat
  c : Nat
  bits : Nat
  trows : Nat
  fmt : Nat
  deriving DecidableEq, Repr

/-- Bits of a pixel of a CSI-2 data type (R254). -/
def dtypeBits (dt : Nat) : Nat := 8 + 2 * (dt - 0x2A)

/-- A port's geometry. -/
def Dev.camGeom (d : Dev) (n : Nat) : CamGeom :=
  let c := r1 .camPortCfg n
  let z := r1 .camPortSize n
  { inW := d.f z F.camPortSize.IN_W, inH := d.f z F.camPortSize.IN_H, outW := d.f z F.camPortSize.OUT_W, outH := d.f z F.camPortSize.OUT_H,
    f := 2 ^ d.f c F.camPortCfg.REGROUP, c := if d.f c F.camPortCfg.CFA = 4 then 1 else 3, bits := dtypeBits (d.f c F.camPortCfg.DTYPE),
    trows := d.f z F.camPortSize.TROWS + 1, fmt := d.f c F.camPortCfg.OUT_FMT }

/-- The load of a port in pixels/s (R261). -/
def Dev.camLoadOf (d : Dev) (n : Nat) : Nat :=
  let g := d.camGeom n
  g.inW * g.inH * 1000000 / max 1 (d.f (r1 .camPortTiming n) F.camPortTiming.PERIOD_US)

/-- CAM_LOAD is the sum of the loads of the enabled ports (R261). -/
def Dev.syncCamLoad (d : Dev) : Dev :=
  d.wn (r0 .camLoad) (((List.range 8).filter fun n => d.fb (r1 .camPortCfg n) F.camPortCfg.EN).map d.camLoadOf).sum

end Sys2Proof.Machine
end

