-- ==== Sys2Proof/Machine/Flags.lean ====
section
/-! DEFINITION. Comparisons and checks the blocks compute from values: FP32 order, sensor bands, CRC codes. -/

namespace Sys2Proof.Machine

/-- An FP32 pattern's place in numeric order (NaN excluded): both zeros stand at 0. -/
def f32Order (v : F32) : Int :=
  let m : Int := (v.toNat % 2 ^ 31 : Nat)
  if v.toNat < 2 ^ 31 then m else -m

/-- Whether an FP32 pattern is a NaN. -/
def f32IsNan (v : F32) : Bool := decide (0x7F800000 < v.toNat % 2 ^ 31)

/-- Whether an FP32 pattern is finite. -/
def f32Finite (v : F32) : Bool := decide (v.toNat % 2 ^ 31 < 0x7F800000)

/-- a < b as FP32 numbers. -/
def f32Lt (a b : F32) : Bool := !f32IsNan a && !f32IsNan b && decide (f32Order a < f32Order b)

/-- a ≤ b as FP32 numbers. -/
def f32Le (a b : F32) : Bool := !f32IsNan a && !f32IsNan b && decide (f32Order a ≤ f32Order b)

/-- Hottest of the processor's temperature sensors 0 to 23 (R468), FP32 bits; very cold where none was read. -/
def Dev.hottest (d : Dev) : F32 :=
  (List.range 24).foldl (fun m i =>
    match tget d.mc.temps i with
    | some x => if f32Lt m x.value then x.value else m
    | none => m) 0xFF7FFFFF

/-- The band of the hottest sensor (R102): 0 up to 70 °C, 1 up to 90 °C, 2 up to 105 °C, 3 above. -/
def Dev.hotBand (d : Dev) : Nat :=
  if f32Le d.hottest 0x428C0000 then 0 else if f32Le d.hottest 0x42B40000 then 1 else if f32Le d.hottest 0x42D20000 then 2 else 3

/-- One byte of a reflected CRC-32C (R361, R404): polynomial 0x82F63B78. -/
def crc32cByte (crc b : Nat) : Nat :=
  (List.range 8).foldl (fun c _ => if c % 2 = 1 then (c / 2) ^^^ 0x82F63B78 else c / 2) (crc ^^^ b)

/-- CRC-32C of a byte list. -/
def crc32c (bs : List Byte) : Nat := (bs.foldl (fun c b => crc32cByte c b.toNat) 0xFFFFFFFF) ^^^ 0xFFFFFFFF

/-- One byte of a reflected CRC-32 (IEEE 802.3): polynomial 0xEDB88320. -/
def crc32Byte (crc b : Nat) : Nat :=
  (List.range 8).foldl (fun c _ => if c % 2 = 1 then (c / 2) ^^^ 0xEDB88320 else c / 2) (crc ^^^ b)

/-- A frame as it leaves: with its check sequence at the end (R41, log entry 45). -/
def withFcs (bs : List Byte) : List Byte := bs ++ leBytes 4 ((bs.foldl (fun c b => crc32Byte c b.toNat) 0xFFFFFFFF) ^^^ 0xFFFFFFFF)

/-- CRC-16 of R447: polynomial x^16 + x^12 + x^5 + 1, initial 0xFFFF, not reflected, not inverted. -/
def crc16 (bs : List Byte) : Nat :=
  bs.foldl (fun crc b =>
    (List.range 8).foldl (fun c _ => if c / 2 ^ 15 % 2 = 1 then ((c * 2) ^^^ 0x1021) % 2 ^ 16 else c * 2 % 2 ^ 16)
      (crc ^^^ (b.toNat * 256))) 0xFFFF

end Sys2Proof.Machine
end

