-- ==== Sys2Proof/Machine/Access.lean ====
section
/-! DEFINITION. The protection map's check of an access, power-domain checks, and the address map (R4 to R6, R67, R418
to R421). -/

namespace Sys2Proof.Machine

/-- Types of access (R419, PMAP_VIOL.TYPE). -/
inductive Acc where
  | read | write | exec
  deriving DecidableEq, Repr

/-- PMAP_VIOL.TYPE of an access. -/
def Acc.code : Acc → Nat
  | .read => 0
  | .write => 1
  | .exec => 2

/-- The window that holds an address, if any (R421). -/
def Dev.windowOf (d : Dev) (a : Nat) : Option Nat :=
  lowest 32 fun w =>
    let r := r1 .pmapWin w
    let b := d.f r F.pmapWin.BASE
    let n := d.f r F.pmapWin.PAGES
    n != 0 && decide (b ≤ a / 4096) && decide (a / 4096 < b + n)

/-- Whether a page of a window is granted to a class for a type of access (R419, R421). -/
def Dev.granted (d : Dev) (c page : Nat) (x : Acc) : Bool :=
  match tget d.grants page with
  | some (k, acc) => k == c && (match x with | .read => acc == 1 || acc == 2 | .write => acc == 2 | .exec => false)
  | none => false

/-- Whether one page is permitted to a class by an enabled region; permissions of overlapping regions add (R419). -/
def Dev.regionOk (d : Dev) (c page : Nat) (x : Acc) : Bool :=
  (List.range 64).any fun r =>
    let l := d.rd (r2 .pmapFwL c r)
    fget l F.pmapFwL.EN == 1 && decide (d.f (r2 .pmapFwB c r) F.pmapFwB.BASE ≤ page) &&
      decide (page ≤ fget l F.pmapFwL.LIMIT) &&
      (match x with | .read => fget l F.pmapFwL.R == 1 | .write => fget l F.pmapFwL.W == 1 | .exec => fget l F.pmapFwL.X == 1)

/-- Whether the whole of an access is permitted to an initiator class (R418 to R421).  While the latch is open classes 2
and 10 are not checked against regions; a mailbox page admits the classes of its INIT mask (R344, PMAP_MBXm). -/
def Dev.permits (d : Dev) (latchClosed : Bool) (c a n : Nat) (x : Acc) : Bool :=
  decide (c ≤ 10) && d.fb (r1 .pmapPerm c) F.pmapPerm.EN &&
    ((!latchClosed && (c == 2 || c == 10)) ||
      ((List.range ((a + n - 1) / 4096 - a / 4096 + 1)).all fun k =>
        let page := a / 4096 + k
        if 0x20400 ≤ page ∧ page < 0x20500 then (d.f (r1 .pmapMbx (page - 0x20400)) F.pmapMbx.INIT).testBit c
        else match d.windowOf (page * 4096) with
        | some _ => d.granted c page x
        | none => d.regionOk c page x))

/-- An access fault of the protection map: PMAP_VIOL, and the almanac at most 1,000 times a second per class (R419). -/
def Dev.violate (d : Dev) (now c a : Nat) (x : Acc) : Dev :=
  let r := r0 .pmapViol
  let d1 := (((d.sf r F.pmapViol.CLASS c).sf r F.pmapViol.TYPE x.code).incSat r F.pmapViol.COUNT).sf r F.pmapViol.ADDR a
  let e := tgetD d.mc.violSec c (0, 0)
  let e' := if e.1 = now / 1000000000 then (e.1, e.2 + 1) else (now / 1000000000, 1)
  let d2 := { d1 with mc := { d1.mc with violSec := tset d1.mc.violSec c e' }, bus := .accessFault }
  if e'.2 ≤ 1000 then d2.almMc 0x011 1 now [c, x.code, a] else d2

/-- The power domains an address needs; none where no span holds it (R4, R66, R67). -/
def domainOf (a : Nat) : Option (List Nat) :=
  if a < 0x40000 then some [170]
  else if 0x1000000 ≤ a ∧ a < 0x1200000 then some [170]
  else if 0x20000000 ≤ a ∧ a < 0x20100000 then some [155]
  else if 0x20100000 ≤ a ∧ a < 0x20200000 then some [156]
  else if 0x20200000 ≤ a ∧ a < 0x20400000 then some [170]
  else if 0x20400000 ≤ a ∧ a < 0x20700000 then some [156]
  else if 0x20700000 ≤ a ∧ a < 0x20800000 then some [154]
  else if 0x20800000 ≤ a ∧ a < 0x20900000 then
    (if a < 0x20800180 then some [152] else if a < 0x20800300 then some [153] else some [152])
  else if 0x20900000 ≤ a ∧ a < 0x20A00000 then some [154]
  else if 0x20A00000 ≤ a ∧ a < 0x20B00000 then some [149]
  else if 0x20B00000 ≤ a ∧ a < 0x20C00000 then some [150]
  else if 0x20C00000 ≤ a ∧ a < 0x20C10000 then some [170]
  else if 0x20C10000 ≤ a ∧ a < 0x20C80000 then some [141 + (a - 0x20C00000) / 0x10000]
  else if 0x20C80000 ≤ a ∧ a < 0x20D10000 then some [170]
  else if 0x20D10000 ≤ a ∧ a < 0x20DC0000 then some [162]
  else if 0x20DC0000 ≤ a ∧ a < 0x20DF0000 then some [165]
  else if 0x20DF0000 ≤ a ∧ a < 0x20E00000 then some [170]
  else if 0x20E00000 ≤ a ∧ a < 0x20E04000 then some [160]
  else if 0x20E04000 ≤ a ∧ a < 0x20E08000 then some [161]
  else if 0x20E08000 ≤ a ∧ a < 0x20F00000 then some [160]
  else if 0x20F00000 ≤ a ∧ a < 0x21000000 then some [166]
  else if 0x400000000 ≤ a ∧ a < 0x400000000 + 272 * 0x100000 then
    some [8 * ((a - 0x400000000) / 0x100000 / 16) + (a - 0x400000000) / 0x100000 % 16 / 2]
  else if 0x800000000 ≤ a ∧ a < 0x800000000 + 24 * 0x40000000 then some [157]
  else if 0x1000000000 ≤ a ∧ a < 0x1000000000 + 84 * 0x40000000 then some [158, 159]
  else if 0x4000000000 ≤ a ∧ a < 0x14000000000 then some [165]
  else none

/-- Whether the domains an address needs are on, a basin pair also usable (R67). -/
def Dev.powered (d : Dev) (now a : Nat) : Bool :=
  match domainOf a with
  | some pds => pds.all fun pd => d.on pd && (decide (136 ≤ pd) || decide (tgetD d.pow.pairs pd 0 ≤ now))
  | none => false

/-- Whether an initiator's access reaches its address: the map permits it and the address's domains are on. -/
def Dev.reaches (d : Dev) (latchClosed : Bool) (now c a n : Nat) (x : Acc) : Bool :=
  d.permits latchClosed c a n x && d.powered now a

/-- An access that does not reach its address: access fault, recorded by the protection map where the map refused
it (R5, R67, R419). -/
def Dev.faulted (d : Dev) (latchClosed : Bool) (now c a n : Nat) (x : Acc) : Dev :=
  if d.permits latchClosed c a n x then { d with bus := .accessFault } else d.violate now c a x

/-- The address of a register. -/
def Reg.addr (r : Reg) : Nat :=
  match r.name with
  | .cdcStatus => cdcBase r.i + 0xFFF00
  | .cdcLost => cdcBase r.i + 0xFFF04
  | n => n.info.base + n.info.off + r.i * n.info.si + r.j * n.info.sj

/-- A register's width in bytes (R6). -/
def Reg.bytes (r : Reg) : Nat := r.name.info.width / 8

/-- A register access by an initiator class: the effect where the access reaches the register, else a fault. -/
def State.regAccess (s : State) (t c : Nat) (r : Reg) (x : Acc) (f : Nat → Dev → Dev) :
    Host.Outcome State Fault Refusal :=
  s.run t fun now d =>
    if d.reaches s.latchClosed now c r.addr r.bytes x then f now { d with bus := .ok }
    else d.faulted s.latchClosed now c r.addr r.bytes x

end Sys2Proof.Machine
end

