-- ==== Sys2Proof/Machine/Deadlines.lean ====
section
/-! DEFINITION. Waits with deadlines, decided by stamps (R46 to R48), and their move at the first-lock jump (R37). -/

namespace Sys2Proof.Machine

/-- Register a wait; answers its number. -/
def Dev.addWait (d : Dev) (w : Wait) : Nat × Dev :=
  (d.nextWait, { d with waits := tset d.waits d.nextWait w, nextWait := d.nextWait + 1 })

/-- The pending wait of an owner, if it has one. -/
def Dev.waitOf (d : Dev) (o : WaitOwner) : Option (Nat × Wait) :=
  d.waits.find? fun e => e.2.owner == o && e.2.outcome.isNone

/-- The newest wait of an owner, pending or committed. -/
def Dev.waitAny (d : Dev) (o : WaitOwner) : Option (Nat × Wait) :=
  d.waits.reverse.find? fun e => e.2.owner == o

/-- Forget every wait of an owner. -/
def Dev.dropWait (d : Dev) (o : WaitOwner) : Dev := { d with waits := d.waits.filter fun e => e.2.owner != o }

/-- The almanac entry for the event that did not decide a wait: D, A, both order keys and the outcome (R48). -/
def Dev.waitAlm (d : Dev) (now : Nat) (w : Wait) (arrival : Key) (arrived : Bool) : Dev :=
  let dk := w.key.getD ⟨w.deadline, d.src w.src, 0⟩
  let keys := [arrival.dt, arrival.src, arrival.cnt, dk.dt, dk.src, dk.cnt]
  d.alm 0x020 0 (if arrived then dk else arrival) now ([w.deadline, arrival.dt] ++ keys ++ [b2n arrived])

/-- What an arrival does to a wait (R46 to R48): ARRIVED, LATE_ACCEPTED, or a record with no tie to the wait. -/
inductive Arrival where
  | arrived | lateAccepted | unmatched
  deriving DecidableEq, Repr

/-- A wait commits its outcome; its deadline's key takes the next value of its source's counter (R46, R48). -/
def Dev.commitWait (d : Dev) (id : Nat) (w : Wait) (o : Bool) : Wait × Dev :=
  let p := d.draw w.src w.deadline
  let w1 := { w with outcome := some o, key := some p.1 }
  (w1, { p.2 with waits := tset p.2.waits id w1 })

/-- Whether an arrival is on time (R46); a stamp from before the jump meets the deadline as it stood before (R38). -/
def Dev.onTime (d : Dev) (w : Wait) (stamp : Nat) : Bool :=
  decide (stamp ≤ if stamp < d.rn (r0 .timeJumpAt) then w.deadline - w.moved else w.deadline)

/-- Deliver an arrival with order key k to a wait at an instant: the wait commits ARRIVED for an on-time arrival
delivered at or before D + G; after EXPIRED an on-time arrival is LATE_ACCEPTED; a late one is unmatched (R46, R47). -/
def Dev.arrive (d : Dev) (now id : Nat) (k : Key) : Arrival × Dev :=
  match tget d.waits id with
  | none => (.unmatched, d)
  | some w =>
    let ok := d.onTime w k.dt
    match w.outcome with
    | some true => (.unmatched, d)
    | some false => (if ok then .lateAccepted else .unmatched, d.waitAlm now w k false)
    | none =>
      if ok ∧ now ≤ w.deadline + w.guard then
        (let p := d.commitWait id w true
         (.arrived, if w.deadline < now then p.2.waitAlm now p.1 k true else p.2))
      else (if ok then .lateAccepted else .unmatched, { d with waits := tset d.waits id { w with late := w.late ++ [k] } })

/-- A pending wait commits EXPIRED at the first DT after D + G, and late arrivals that came before go to the almanac (R47, R48);
answers whether it did. -/
def Dev.expire (d : Dev) (now id : Nat) : Bool × Dev :=
  match tget d.waits id with
  | some w =>
    if w.outcome.isNone && decide (w.deadline + w.guard < now) then
      (let p := d.commitWait id { w with late := [] } false
       (true, w.late.foldl (fun d k => d.waitAlm now p.1 k false) p.2))
    else (false, d)
  | none => (false, d)

/-- The order key of a wait's deadline (R48). -/
def Dev.waitKey (d : Dev) (id : Nat) (w : Wait) : Key := ((tget d.waits id).bind Wait.key).getD ⟨w.deadline, d.src w.src, 0⟩

/-- A pending wait of an owner commits and is over (R46, R48): b: what it waited for came in time. -/
def Dev.endWait (d : Dev) (o : WaitOwner) (b : Bool) : Dev :=
  match d.waitOf o with
  | some e => ((d.commitWait e.1 e.2 b).2).dropWait o
  | none => d.dropWait o

/-- A descriptor's DEADLINE, moved by the jump; 0 is none (R37, R197). -/
def rebaseDeadline (k x : Nat) : Nat := if x = 0 then 0 else satAdd dtMax x k

/-- A request's deadlines moved by the jump (R37). -/
def SluReq.rebased (r : SluReq) (k : Nat) : SluReq :=
  { r with deadline := rebaseDeadline k r.deadline, parts := r.parts.map fun p => { p with desc := { p.desc with deadline := rebaseDeadline k p.desc.deadline } } }

/-- An engine's waiting changes, frames, injection, capture and the anchors of its laws moved by the jump (R37): their schedules keep their
phase. -/
def Engine.rebased (e : Engine) (k : Nat) : Engine :=
  { e with
    changes := e.changes.map fun c => { c with at_ := satAdd dtMax c.at_ k }
    frames := e.frames.map fun f => (satAdd dtMax f.1 k, f.2)
    armed := e.armed.map fun a => { a with anchor := satAdd dtMax a.anchor k }
    held := e.held.map fun h => (h.1, { h.2 with anchor := satAdd dtMax h.2.anchor k })
    capture := e.capture.map fun c => { c with start := satAdd dtMax c.start k }
    inject := e.inject.map fun x => { x with t0 := satAdd dtMax x.t0 k } }

/-- A port's gate walk and line occupation moved by the jump (R37). -/
def EthPort.rebased (p : EthPort) (k : Nat) : EthPort :=
  { p with entryAt := satAdd dtMax p.entryAt k, expressTo := satAdd dtMax p.expressTo k, busyTo := satAdd dtMax p.busyTo k, fragAt := satAdd dtMax p.fragAt k }

/-- Every pending deadline of every block moves by the jump's size, saturating (R37). -/
def Dev.rebaseDeadlines (d : Dev) (k : Nat) : Dev :=
  { d with
    waits := tmap d.waits fun _ w =>
      if w.outcome.isNone then { w with deadline := satAdd dtMax w.deadline k, moved := satAdd dtMax w.deadline k - w.deadline } else w
    cue := { d.cue with pulses := tmap d.cue.pulses fun _ p => { p with endAt := satAdd dtMax p.endAt k } }
    pow := { d.pow with pairs := tmap d.pow.pairs fun _ x => satAdd dtMax x k }
    cam := tmap d.cam fun _ p => { p with trigEnd := satAdd dtMax p.trigEnd k }
    slu := { d.slu with reqs := tmap d.slu.reqs fun _ r => r.rebased k }
    pbu := { d.pbu with floorDue := tmap d.pbu.floorDue fun _ x => satAdd dtMax x k }
    fab := { d.fab with switches := d.fab.switches.map fun x => { x with doneAt := satAdd dtMax x.doneAt k } }
    le := { d.le with eng := tmap d.le.eng fun _ e => e.rebased k }
    io := { d.io with eth := tmap d.io.eth fun _ p => p.rebased k }
    cnl := { d.cnl with coords := d.cnl.coords.map fun x => { x with deadline := satAdd dtMax x.deadline k } }
    dbg := { d.dbg with challenge := d.dbg.challenge.map fun c => (c.1, c.2.1, satAdd dtMax c.2.2 k) }
    mc := { d.mc with
      restartAt := d.mc.restartAt.map fun x => satAdd dtMax x k
      resetAt := d.mc.resetAt.map fun x => (satAdd dtMax x.1 k, x.2) } }

end Sys2Proof.Machine
end

