-- ==== Sys2Proof/Machine/Mbx.lean ====
section
/-! DEFINITION. Mailboxes: doorbells, taking requests, the checks every command passes, completions and notices (R344 to
R359). -/

namespace Sys2Proof.Machine

/-- Status codes (R16). -/
inductive Status where
  | ok | degraded | lateAccepted | busy | conflict | superseded | noPages | noCandidate | epochStale | expired
  | partialFail | faultTorndown | broken | holdupShort | calEnvelope | badReserved | badVersion | badConfig | denied
  deriving DecidableEq, Repr

/-- The 16-bit code of a status (R16). -/
def Status.code : Status → Nat
  | .ok => 0x0000
  | .degraded => 0x0001
  | .lateAccepted => 0x0002
  | .busy => 0x0010
  | .conflict => 0x0011
  | .superseded => 0x0012
  | .noPages => 0x0013
  | .noCandidate => 0x0014
  | .epochStale => 0x0015
  | .expired => 0x0016
  | .partialFail => 0x0020
  | .faultTorndown => 0x0021
  | .broken => 0x0022
  | .holdupShort => 0x0023
  | .calEnvelope => 0x0024
  | .badReserved => 0x0030
  | .badVersion => 0x0031
  | .badConfig => 0x0032
  | .denied => 0x0033

/-- The fields of a request's header (R349). -/
def Req.code (r : Req) : Nat := bits r.word0 0 16
def Req.minor (r : Req) : Nat := bits r.word0 20 6
def Req.major (r : Req) : Nat := bits r.word0 26 4
def Req.gen (r : Req) : Nat := bits r.word0 30 2
def Req.len (r : Req) : Nat := bits r.word8 0 9
def Req.flags (r : Req) : Nat := bits r.word8 12 10
def Req.ctx (r : Req) : Nat := bits r.word8 22 10
def Req.flag (r : Req) (i : Nat) : Bool := r.flags.testBit i
def Req.fence (r : Req) : Bool := r.flag 9

/-- A payload field: byte offset of its word, lowest bit, width (R350). -/
def Req.fld (r : Req) (off lo w : Nat) : Nat := bits (bytesAt r.payload off 8) lo w

/-- A payload word and a payload double word (R350). -/
def Req.w32 (r : Req) (off : Nat) : Nat := bytesAt r.payload off 4
def Req.w64 (r : Req) (off : Nat) : Nat := bytesAt r.payload off 8

/-- The command's order key (R345). -/
def Req.key (r : Req) (d : Dev) : Key := ⟨r.stamp, d.src (0x2000 + r.mbx), r.seq⟩

/-- The key by which the command is ordered: a request held under R346 counts as stamped when it was taken (R353). -/
def Req.orderKey (r : Req) (d : Dev) : Key := ⟨r.order, d.src (0x2000 + r.mbx), r.seq⟩

/-- The base of a mailbox's rings (R344). -/
def Dev.ring (d : Dev) (m : Nat) : Nat := d.f (r1 .mbxBase m) F.mbxBase.BASE * 2 ^ 15

/-- Completions of a mailbox that software has not consumed (R346). -/
def Dev.unconsumed (d : Dev) (m : Nat) : Nat :=
  (d.f (r1 .mbxCpl m) F.mbxCpl.TAIL + 64 - d.f (r1 .mbxCpl m) F.mbxCpl.HEAD) % 64

/-- Requests of a mailbox the steward has not taken (R345). -/
def Dev.requests (d : Dev) (m : Nat) : Nat :=
  (d.f (r1 .mbxReq m) F.mbxReq.TAIL + 64 - d.f (r1 .mbxReq m) F.mbxReq.HEAD) % 64

/-- Commands of a mailbox taken and not completed. -/
def Dev.inflightOf (d : Dev) (m : Nat) : Nat := (d.stew.inflight.filter (·.mbx == m)).length

/-- Notices of a mailbox that wait. -/
def Dev.noticesOf (d : Dev) (m : Nat) : List Notice := tgetD d.stew.notices m []

/-- MBX_m_STAT.INFLIGHT follows the commands in flight. -/
def Dev.syncInflight (d : Dev) (m : Nat) : Dev := d.sf (r1 .mbxStat m) F.mbxStat.INFLIGHT (d.inflightOf m)

/-- Write one entry of a mailbox's completion ring, advance TAIL, raise the mailbox's EIC source (R347, R349). -/
def Dev.cplEntry (d : Dev) (now m word0 tag ctx status detail : Nat) (result : List Byte) : Dev :=
  let tail := d.f (r1 .mbxCpl m) F.mbxCpl.TAIL
  let p := d.draw (0x2000 + m) now
  let hdr := leBytes 4 word0 ++ leBytes 4 tag ++ leBytes 4 (status * 2 ^ 16 + result.length) ++ leBytes 4 detail ++
    leBytes 8 now ++ leBytes 4 p.1.cnt ++ leBytes 4 (ctx * 2 ^ 22)
  let d1 := { p.2 with
    mem := p.2.mem.write (p.2.ring m + 0x4000 + 512 * (tail % 32)) (hdr ++ result)
    stew := { p.2.stew with
      cpls := ({ mbx := m, code := bits word0 0 16, tag := tag, ctx := ctx, status := status, detail := detail, dt := now, seq := p.1.cnt, result := result } : Cpl) :: p.2.stew.cpls } }
  (d1.sf (r1 .mbxCpl m) F.mbxCpl.TAIL ((tail + 1) % 64)).raise (256 + m)

/-- Room in a mailbox's completion ring beyond the commands in flight (R346, R359). -/
def Dev.room (d : Dev) (m : Nat) : Bool := decide (d.inflightOf m + d.unconsumed m < 32)

/-- Write the oldest waiting notice of a mailbox if there is room (R359). -/
def Dev.flushNotice (d : Dev) (now m : Nat) : Dev :=
  match d.noticesOf m with
  | [] => d
  | n :: rest =>
    if d.room m then
      let d1 := { d with stew := { d.stew with notices := tset d.stew.notices m rest, lost := tset d.stew.lost m 0 } }
      d1.cplEntry now m (tgetD d1.stew.sessions m 0 * 2 ^ 20 + 2 ^ 26) 0 0 n.status 0
        (leBytes 2 n.kind ++ leBytes 2 n.subject ++ leBytes 4 (tgetD d.stew.lost m 0) ++ n.cause.bytes)
    else d

/-- Write waiting notices while there is room. -/
def Dev.flushNotices (d : Dev) (now m : Nat) : Nat → Dev
  | 0 => d
  | k + 1 => (d.flushNotice now m).flushNotices now m k

/-- An event no command awaits becomes a notice in the mailbox of the session that owns the context concerned; each
mailbox holds up to 64 that wait, further ones are counted (R359). -/
def Dev.notice (d : Dev) (now m kind subject : Nat) (st : Status) (cause : Key) : Dev :=
  let q := d.noticesOf m
  if q.length < 64 then
    ({ d with stew := { d.stew with notices := tset d.stew.notices m (q ++ [({ kind := kind, subject := subject, status := st.code, cause := cause } : Notice)]) } }).flushNotices now m 64
  else { d with stew := { d.stew with lost := tset d.stew.lost m (tgetD d.stew.lost m 0 + 1) } }

/-- Whether a far-store retraining window is open (R73). -/
def Dev.windowOpen (d : Dev) : Bool := d.pbu.windowFrom.isSome

/-- A fabric context. -/
def Dev.ctx? (d : Dev) (c : Nat) : Option Ctx := tget d.fab.ctxs c

/-- A completion of a class 2 to 15 inside a retraining window carries DEGRADED in place of OK (R74). -/
def Dev.windowStatus (d : Dev) (ctx : Nat) (st : Status) : Status :=
  match st, d.ctx? ctx with
  | .ok, some x => if d.windowOpen && decide (2 ≤ x.cls) then .degraded else .ok
  | st, _ => st

/-- The version word of a completion: the request's code with the agreed version (R349). -/
def Dev.cplWord0 (d : Dev) (r : Req) : Nat := r.code + tgetD d.stew.sessions r.mbx 0 * 2 ^ 20 + 2 ^ 26

/-- A request in flight. -/
def Dev.req? (d : Dev) (m seq : Nat) : Option Req := d.stew.inflight.find? fun r => r.mbx == m && r.seq == seq

/-- Complete a request: it leaves the commands in flight and its completion is written (R347). -/
def Dev.finish (d : Dev) (now : Nat) (r : Req) (st : Status) (detail : Nat) (result : List Byte) : Dev :=
  let d1 := { d with stew := { d.stew with inflight := d.stew.inflight.filter fun x => !(x.mbx == r.mbx && x.seq == r.seq) } }
  ((d1.cplEntry now r.mbx (d1.cplWord0 r) r.tag r.ctx (d1.windowStatus r.ctx st).code detail result).syncInflight r.mbx).flushNotices now r.mbx 64

/-- Complete the request of a mailbox and SEQ, if it is in flight. -/
def Dev.finishAt (d : Dev) (now : Nat) (ms : Nat × Nat) (st : Status) (detail : Nat) (result : List Byte) : Dev :=
  match d.req? ms.1 ms.2 with
  | some r => d.finish now r st detail result
  | none => d

/-- The steward has decided a request, which completes at a later event. -/
def Dev.decide' (d : Dev) (r : Req) : Dev :=
  { d with stew := { d.stew with inflight := d.stew.inflight.map fun x =>
      if x.mbx = r.mbx ∧ x.seq = r.seq then { x with decided := true } else x } }

/-- A failed check: its status and DETAIL (R352). -/
abbrev Fail := Status × Nat

/-- The first failing check decides (R352). -/
def firstFail : List (Option Fail) → Option Fail
  | [] => none
  | some f :: _ => some f
  | none :: rest => firstFail rest

/-- A check: nothing where the condition holds, else the failure. -/
def need (ok : Bool) (st : Status) (detail : Nat) : Option Fail := if ok then none else some (st, detail)

/-- A configuration check at a payload offset. -/
def needCfg (ok : Bool) (off : Nat) : Option Fail := need ok .badConfig (32 + off)

/-- A failed check at an offset of the named object (R352). -/
def objFail (ok : Bool) (st : Status) (off : Nat) : Option Fail := need ok st (2 ^ 31 + off)

/-- The first field of the named object that fails, among (condition, offset): the one at the lowest offset (R352). -/
def firstObj (st : Status) (l : List (Bool × Nat)) : Option Fail :=
  match (l.filter fun e => !e.1).map (·.2) with
  | [] => none
  | o :: rest => some (st, 2 ^ 31 + rest.foldl min o)

/-- Whether no number occurs twice. -/
def allDistinct {α : Type} [BEq α] : List α → Bool
  | [] => true
  | x :: rest => !rest.contains x && allDistinct rest

/-- The codes the command set defines at minor 0 (R357, R360). -/
def definedCodes : List Nat :=
  [0x0001, 0x0002, 0x0101, 0x0102, 0x0103, 0x0201, 0x0202, 0x0203, 0x0204, 0x0301, 0x0302, 0x0303, 0x0304, 0x0401,
   0x0402, 0x0403, 0x0501, 0x0502, 0x0503, 0x0601, 0x0602, 0x0603, 0x0701, 0x0702, 0x0801, 0x0802, 0x0901, 0x0902,
   0x0903, 0x0A01, 0x0A02, 0x0A03, 0x0A04, 0x0B01, 0x0C01, 0x0C02]

/-- The steward's highest version in the layout of an offer: generation 0, major 1 and the firmware's minor (R356,
R357). -/
def Dev.highest (d : Dev) : Nat := d.stew.minor * 2 ^ 20 + 2 ^ 26

/-- The version check (R356, R357). -/
def Dev.versionFail (d : Dev) (r : Req) : Option Fail :=
  if r.code = 0x0001 then none
  else
    match tget d.stew.sessions r.mbx with
    | none => some (.badVersion, d.highest)
    | some minor =>
      need (r.gen == 0 && r.major == 1 && decide (r.minor ≤ minor) && definedCodes.contains r.code) .badVersion 0

/-- The group mask of a mailbox (R355). -/
def Dev.groups (d : Dev) (m : Nat) : Nat := d.f (r1 .pmapMbx m) F.pmapMbx.GROUPS

/-- DETAIL of SUPERSEDED where a command overtook: its mailbox and the low 23 bits of its SEQ (R369). -/
def overtaker (m seq : Nat) : Nat := m * 2 ^ 24 + seq % 2 ^ 23

/-- The permission check: the mailbox's group mask and the context named; a command pending when its context was torn down
or closed (R101, R354, R355). -/
def Dev.permFail (d : Dev) (r : Req) : Option Fail :=
  if r.code = 0x0001 ∨ r.code = 0x0002 then none
  else firstFail
    [need ((d.groups r.mbx).testBit (r.code / 256)) .denied 0,
     if r.code = 0x0101 then none
     else match d.ctx? r.ctx with
       | some x =>
         if x.mbx ≠ r.mbx then some (.denied, 0)
         else if x.torn then some (if r.stamp ≤ x.endedAt then (.faultTorndown, 0) else (.denied, 0))
         else match x.closing with
           | some q => if q = r.seq then none else some (if r.stamp ≤ x.endedAt then (.superseded, overtaker r.mbx q) else (.denied, 0))
           | none => none
       | none => some (.denied, 0)]

/-- The first reserved field that is not zero, among payload fields given as byte offset of the word, lowest bit and
width, as far as LEN reaches (R351, R352). -/
def Req.rsvdFail (r : Req) : List (Nat × Nat × Nat) → Option Fail
  | [] => none
  | (off, lo, w) :: rest =>
    if r.fld off lo w ≠ 0 then some (.badReserved, 32 + off + lo / 8) else r.rsvdFail rest

/-- The reserved fields of the header, and FLAGS bits the catalogue does not name (R349, R352, R360). -/
def Req.headerFail (r : Req) (flagMask : Nat) : Option Fail :=
  firstFail
    [need (bits r.word0 16 4 == 0) .badReserved 2,
     need (bits r.word8 9 3 == 0) .badReserved 9,
     need (r.flags &&& (1023 - (flagMask ||| 512)) == 0) .badReserved 9,
     need (r.rsvd == 0) .badReserved 24]

/-- The checks of a command up to its LEN, in the order of R352: version, permission, reserved fields, then LEN (R351). -/
def Dev.front (d : Dev) (r : Req) (flagMask len : Nat) (rsvd : List (Nat × Nat × Nat)) : Option Fail :=
  firstFail [d.versionFail r, d.permFail r, r.headerFail flagMask, r.rsvdFail rsvd, need (r.len == len) .badConfig 8]

/-- Whether a command is decided in order-key order (R353): it changes owner fields, residency, cells, sequences, budgets,
modes, planner state or law arming.  A cascade's load, bind and unload change cells, fixed channels and T0 needs; a closing
context or session changes all that its contexts hold. -/
def Req.keyed (r : Req) : Bool :=
  [0x0102, 0x0201, 0x0202, 0x0204, 0x0301, 0x0302, 0x0303, 0x0304, 0x0401, 0x0402, 0x0403, 0x0501, 0x0502, 0x0503, 0x0601, 0x0602,
   0x0901, 0x0902, 0x0903, 0x0A02].contains r.code || (r.code == 0x0001 && r.flag 1) || (r.code == 0x0002 && r.flag 0)

/-- Whether a command with FENCE waits for an earlier command of its mailbox (R353). -/
def Dev.fenced (d : Dev) (r : Req) : Bool := r.fence && d.stew.inflight.any fun x => x.mbx == r.mbx && decide (x.seq < r.seq)

/-- Whether every command that the steward took before one, and that is not decided in order-key order, has started; one that
its own FENCE holds back holds no other (R353, log entry 37). -/
def Dev.inTurn (d : Dev) (r : Req) : Bool :=
  (d.stew.inflight.takeWhile fun x => !(x.mbx == r.mbx && x.seq == r.seq)).all fun x => x.decided || x.keyed || d.fenced x

/-- The oldest request of a mailbox the steward has not taken: its stamp and SEQ in the ring (R345, R349). -/
def Dev.frontStamp (d : Dev) (m : Nat) : Key :=
  let a := d.ring m + 512 * (d.f (r1 .mbxReq m) F.mbxReq.HEAD % 32)
  ⟨d.mem.le (a + 16) 8, d.src (0x2000 + m), d.mem.le (a + 12) 4⟩

/-- Whether the steward may decide a request now (R353): 1 µs after its stamp, every earlier-stamped request taken
except held ones, no earlier keyed command undecided; the others start in the order in which they were taken; with FENCE, no
earlier command of its mailbox in flight. -/
def Dev.mayDecide (d : Dev) (now : Nat) (r : Req) : Bool :=
  !r.decided && !d.fenced r &&
  (if r.keyed then
    (decide (r.order ≤ now ∧ 1000 ≤ d.elapsed r.order now) &&
      (d.stew.rung.all fun m =>
        d.requests m == 0 || d.fb (r1 .mbxStat m) F.mbxStat.HELD || !(d.frontStamp m).lt (r.orderKey d)) &&
      d.stew.inflight.all fun x => x.decided || !x.keyed || !(x.orderKey d).lt (r.orderKey d))
   else d.inTurn r)

/-- A command row of the steward: the taken request of mailbox m and SEQ seq, of the given code, is decided when it may
be: its failing check completes it, else its effect runs. -/
def Dev.command (d : Dev) (now m seq code : Nat) (form : Req → Bool) (check : Req → Option Fail) (effect : Req → Dev) : Dev :=
  match d.req? m seq with
  | none => d
  | some r =>
    if d.stewardRuns && r.code == code && form r && d.mayDecide now r then
      match check r with
      | some f => d.finish now r f.1 f.2 []
      | none => effect r
    else d

/-- DOORBELL (R345): initiator class c writes MBX_m_REQ with a TAIL. -/
def Dev.doorbell (d : Dev) (now m v : Nat) : Dev :=
  let old := d.f (r1 .mbxReq m) F.mbxReq.TAIL
  let head := d.f (r1 .mbxReq m) F.mbxReq.HEAD
  let new := v % 64
  if d.fb (r1 .mbxBase m) F.mbxBase.EN = false then d
  else if 32 < (new + 64 - head) % 64 then d.sf (r1 .mbxStat m) F.mbxStat.IDX_ERR 1
  else
    let n := if (old + 64 - head) % 64 ≤ (new + 64 - head) % 64 then (new + 64 - old) % 64 else 0
    let d1 := (List.range n).foldl (fun d i =>
      let a := d.ring m + 512 * ((old + i) % 64 % 32)
      let p := d.draw (0x2000 + m) now
      { p.2 with mem := (p.2.mem.putLe (a + 12) 4 p.1.cnt).putLe (a + 16) 8 now }) d
    let d2 := (d1.sf (r1 .mbxReq m) F.mbxReq.TAIL new).wn (r1 .mbxLastDb m) now
    ({ d2 with stew := { d2.stew with rung := if d2.stew.rung.contains m then d2.stew.rung else m :: d2.stew.rung } }).raise (512 + m)

/-- DOORBELL (R345). -/
def execDoorbell (t c m v : Nat) (s : State) : Host.Outcome State Fault Refusal :=
  s.regAccess t c (r1 .mbxReq m) .write fun now d => if m < 256 then d.doorbell now m v else { d with bus := .accessFault }

/-- The request in a mailbox's ring at HEAD (R349). -/
def Dev.readReq (d : Dev) (now m : Nat) : Req :=
  let a := d.ring m + 512 * (d.f (r1 .mbxReq m) F.mbxReq.HEAD % 32)
  let w8 := d.mem.le (a + 8) 4
  let held := d.fb (r1 .mbxStat m) F.mbxStat.HELD
  { mbx := m, word0 := d.mem.le a 4, tag := d.mem.le (a + 4) 4, word8 := w8, seq := d.mem.le (a + 12) 4,
    stamp := d.mem.le (a + 16) 8, order := if held then now else d.mem.le (a + 16) 8,
    payload := d.mem.read (a + 32) (min 480 (bits w8 0 9)), rsvd := d.mem.le (a + 24) 8 }

/-- The form a request's flags, KIND or ITEM select is one the catalogue has; the others are refused when taken, by the
checks of R352 (R351, R357, R360, R431). -/
def Dev.formFail (d : Dev) (r : Req) : Option Fail :=
  let f := r.flags &&& 511
  firstFail
    [d.versionFail r, d.permFail r,
     if r.code = 0x0301 then
       (if r.len < 1 then some (.badConfig, 8) else firstFail [r.headerFail 1, needCfg (decide (r.fld 0 0 4 < 4)) 0])
     else if r.code = 0x0A02 then
       firstFail [r.headerFail 63, need ([1, 2, 4, 8, 16, 32].contains f) .badConfig 9]
     else if r.code = 0x0903 then
       firstFail [r.headerFail 15, need ([0, 1, 2, 4, 5, 8].contains f) .badConfig 9]
     else if r.code = 0x0902 then firstFail [r.headerFail 3, need (f != 3) .badConfig 9]
     else if r.code = 0x0C01 then
       (if r.len < 4 then firstFail [r.headerFail 0, some (.badConfig, 8)]
        else firstFail [r.headerFail 0, needCfg ([0x0001, 0x0002, 0x0003, 0x0004, 0x0005, 0x0006, 0x0010, 0x0011, 0x0020,
          0x0021, 0x0030, 0x0031, 0x0032, 0x0033, 0x0040, 0x0050].contains (r.fld 0 0 16)) 0])
     else none]

/-- The steward takes the next request of a mailbox when completion space allows, or holds it (R346). -/
def Dev.take (d : Dev) (now m : Nat) : Dev :=
  if d.inflightOf m + d.unconsumed m + (d.noticesOf m).length < 32 then
    let r := d.readReq now m
    let d1 := (d.sf (r1 .mbxReq m) F.mbxReq.HEAD ((d.f (r1 .mbxReq m) F.mbxReq.HEAD + 1) % 64)).sf (r1 .mbxStat m) F.mbxStat.HELD 0
    let d2 := ({ d1 with stew := { d1.stew with inflight := d1.stew.inflight ++ [r] } }).syncInflight m
    match d2.formFail r with
    | some f => d2.finish now r f.1 f.2 []
    | none => d2
  else d.sf (r1 .mbxStat m) F.mbxStat.HELD 1

/-- REQUEST_TAKE (R346). -/
def execRequestTake (t m : Nat) (s : State) : Host.Outcome State Fault Refusal :=
  s.run t fun now d => if d.stewardRuns ∧ m < 256 ∧ 0 < d.requests m then d.take now m else d

end Sys2Proof.Machine
end

