-- ==== Sys2Proof/Machine/Pbu.lean ====
section
/-! DEFINITION. The period budget unit: capacities, charging, gating, donors, and the steward's budgets (R80 to R90,
R102 to R104). -/

namespace Sys2Proof.Machine

/-- A resource's capacity per period of an envelope at a period length (R68, R83), outside a retraining window. -/
def capacity (env len k : Nat) : Nat :=
  let fab := if env = 0 then 6 else if env = 1 then 10 else 12
  if k < 4 then 64 * len * fab / 10
  else if k = 4 then (if env = 0 then 5120 else if env = 1 then 8192 else 10240) * len / 10
  else if k = 5 then (if env = 0 then 2304 else if env = 1 then 3072 else 3840) * len / 10
  else if k = 6 then 256 * len * fab / 10
  else 12 * len / 64

/-- A class's active budget, its shadow and its USED counter (R90). -/
def Dev.budget (d : Dev) (c k : Nat) : Nat := d.rn (r2 .pbuClassBudget c k)
def Dev.used (d : Dev) (c k : Nat) : Nat := d.rn (r2 .pbuClassUsed c k)

/-- Whether budgets are enforced (PBU_CTRL.EN). -/
def Dev.enforced (d : Dev) : Bool := d.fb (r0 .pbuCtrl) F.pbuCtrl.EN

/-- Whether a class is gated on a resource (R84). -/
def Dev.gated (d : Dev) (c k : Nat) : Bool := (d.f (r1 .pbuClassStat c) F.pbuClassStat.GATED).testBit k

/-- A class's priority. -/
def Dev.classPrio (d : Dev) (c : Nat) : Nat := d.f (r1 .pbuClassCfg c) F.pbuClassCfg.PRIO

/-- A fabric context's class (PBU_CTXn_CFG). -/
def Dev.ctxClass (d : Dev) (c : Nat) : Nat := d.f (r1 .pbuCtxCfg c) F.pbuCtxCfg.CLASS

/-- A fabric context's state: 0 closed, 1 bound, 2 running, 3 saved. -/
def Dev.ctxState (d : Dev) (c : Nat) : Nat := d.f (r1 .pbuCtxCfg c) F.pbuCtxCfg.STATE

/-- Whether a carry is gated on the waiter's basin-cycle budget in a region its holder uses (R114). -/
def Dev.carryGated (d : Dev) (x : Carry) : Bool :=
  match d.ctx? x.holder with
  | some h => h.basins.any fun l => d.gated (d.ctxClass x.waiter) (l / 64)
  | none => false

/-- The hold limit counts only while the carry is not gated (R114). -/
def Dev.syncCarries (d : Dev) (now : Nat) : Dev :=
  { d with fab := { d.fab with carries := d.fab.carries.map fun x =>
      match x.since, d.carryGated x with
      | some a, true => { x with heldNs := x.heldNs + d.elapsed a now, since := none }
      | none, false => { x with since := some now }
      | _, _ => x } }

/-- The class that pays for a context: its own, or the waiter's while it runs on carry (R113). -/
def Dev.payer (d : Dev) (ctx : Nat) : Nat :=
  match d.fab.carries.find? fun x => x.holder == ctx with
  | some x => if d.fb (r1 .pbuCtxCfg ctx) F.pbuCtxCfg.CARRY then d.ctxClass x.waiter else d.ctxClass ctx
  | none => d.ctxClass ctx

/-- The deadlock watchdog counts anew for every context that a gate holds, where gates lift (R100). -/
def Dev.letGo (d : Dev) (now : Nat) : Dev :=
  { d with fab := { d.fab with ctxs := tmap d.fab.ctxs fun e x => if x.basins.any fun l => d.gated (d.payer e) (l / 64) then { x with lastChange := now } else x } }

/-- With EN = 0 nothing is gated: GATED, WAS_GATED and BORROWED of every class are 0 (R85). -/
def Dev.ungate (d : Dev) (now : Nat) : Dev :=
  ((List.range 16).foldl (fun (d : Dev) c =>
    let r := r1 .pbuClassStat c
    ((d.sf r F.pbuClassStat.GATED 0).sf r F.pbuClassStat.WAS_GATED 0).sf r F.pbuClassStat.BORROWED 0) (d.letGo now)).syncCarries now

/-- Whether a context that a class pays for uses region k. -/
def Dev.paidIn (d : Dev) (c k e : Nat) (x : Ctx) : Bool := d.payer e == c && x.basins.any fun l => l / 64 == k

/-- Gate a class on a resource (R84, R85): a saved context of it is not runnable for that time (R94). -/
def Dev.gate (d : Dev) (now c k : Nat) : Dev :=
  let r := r1 .pbuClassStat c
  let d1 := { d with fab := { d.fab with ctxs := tmap d.fab.ctxs fun e x => if d.ctxState e == 3 && d.paidIn c k e x then { x with away := true } else x } }
  ((d1.setBit r F.pbuClassStat.GATED k).setBit r F.pbuClassStat.WAS_GATED k).syncCarries now

/-- An exhaustion: the overrun counter and the class's overrun event (R85); the period has its overrun of class 0 then (R26). -/
def Dev.overrunClass (d : Dev) (c : Nat) : Dev :=
  let d1 := if c = 0 then { d with pbu := { d.pbu with flipDue := false } } else d
  (d1.sf (r1 .pbuClassOvr c) F.pbuClassOvr.OVR (d1.f (r1 .pbuClassOvr c) F.pbuClassOvr.OVR + 1)).raise (16 + c)

/-- Whether a class borrows from its donor (R86). -/
def Dev.borrows (d : Dev) (c : Nat) : Bool :=
  d.fb (r1 .pbuClassCfg c) F.pbuClassCfg.CRIT && d.fb (r1 .pbuClassCfg c) F.pbuClassCfg.DONOR_EN

/-- A class's donor. -/
def Dev.donor (d : Dev) (c : Nat) : Nat := d.f (r1 .pbuClassCfg c) F.pbuClassCfg.DONOR

/-- Whether a class's own budget for a resource is exhausted. -/
def Dev.exhausted (d : Dev) (c k : Nat) : Bool := decide (d.budget c k ≤ d.used c k)

/-- Once a donor is exhausted it is gated, and so is every borrower of it whose own budget is exhausted (R86). -/
def Dev.donorExhausted (d : Dev) (now dn k : Nat) : Dev :=
  (List.range 16).foldl (fun d c =>
    if d.borrows c && d.donor c == dn && d.exhausted c k then d.gate now c k else d) ((d.overrunClass dn).gate now dn k)

/-- Raise a class's USED counter. -/
def Dev.addUsed (d : Dev) (c k n : Nat) : Dev := d.wn (r2 .pbuClassUsed c k) (min dtMax (d.used c k + n))

/-- Whether a period start is due and not yet carried out: a trigger that waits, or one that the PBU makes by itself (R82). -/
def Dev.periodDue (d : Dev) (now : Nat) : Bool :=
  match tget d.cue.trig 1 with
  | some b => decide (b ≤ now)
  | none => d.pbu.triggered && decide (d.dueAfter (d.rn (r0 .pbuPeriodAt)) (if d.pbu.selfAt = 0 then 2 * d.f (r0 .pbuPeriod) F.pbuPeriod.LEN else d.f (r0 .pbuPeriod) F.pbuPeriod.LEN) ≤ now)

/-- Whether one class is charged before another in a fabric cycle: by higher PRIO, then by lower number (R87). -/
def Dev.chargedFirst (d : Dev) (a b : Nat) : Bool := decide (d.classPrio b < d.classPrio a) || (d.classPrio a == d.classPrio b && decide (a ≤ b))

/-- A draw among those of its cycle in the order of R87; two of one class are one. -/
def Dev.insertDraw (d : Dev) (x : Draw) : List Draw → List Draw
  | [] => [x]
  | y :: l => if y.cls = x.cls then { y with rest := y.rest + x.rest } :: l
    else if d.chargedFirst x.cls y.cls then x :: y :: l else y :: d.insertDraw x l

/-- What each draw of a cycle gets of what the donor had left at the cycle's start (R87). -/
def allotDraws (left : Nat) : List Draw → List Draw
  | [] => []
  | x :: l => { x with got := min x.rest left } :: allotDraws (left - min x.rest left) l

/-- A draw of class c on its donor for what lies beyond its own budget (R86, R87): the draws of one cycle share what the donor had left in the
order of R87.  DESIGN CHOICE, unsafe (log entry 62): draws at one DT are draws of one fabric cycle, and the part of a draw beyond the
donor's remainder is added to the borrower's USED. -/
def Dev.drawDonor (d : Dev) (now c k rest : Nat) : Dev :=
  let dn := d.donor c
  let r (c : Nat) : Reg := r1 .pbuClassStat c
  let fresh := d.pbu.draws.filter fun x => x.at_ == now
  let mine := fresh.filter fun x => x.donor == dn && x.k == k
  let others := fresh.filter fun x => !(x.donor == dn && x.k == k)
  let given := (mine.map Draw.got).sum
  let left := d.budget dn k - (d.used dn k - given)
  let next := allotDraws left (d.insertDraw ⟨now, dn, k, c, rest, 0, (d.f (r c) F.pbuClassStat.BORROWED).testBit k⟩ mine)
  let d0 := mine.foldl (fun (d : Dev) x => d.wn (r2 .pbuClassUsed x.cls k) (d.used x.cls k - (x.rest - x.got))) d
  let d1 := (d0.wn (r2 .pbuClassUsed dn k) (min dtMax (d0.used dn k - given + (next.map Draw.got).sum)))
  let d2 := next.foldl (fun (d : Dev) x =>
    let d' := d.addUsed x.cls k (x.rest - x.got)
    if x.got = 0 then (if x.had then d' else d'.clrBit (r x.cls) F.pbuClassStat.BORROWED k) else d'.setBit (r x.cls) F.pbuClassStat.BORROWED k) d1
  { d2 with pbu := { d2.pbu with draws := next ++ others } }

/-- Charge a class in the period in force (R83 to R87): its own budget first, then its donor's; at an exhaustion the overrun is counted and,
unless it borrows, the class is gated.  With EN = 0 exhaustions are counted and nothing is gated (R85). -/
def Dev.chargeNow (d : Dev) (now c k n : Nat) : Dev :=
  let was := d.exhausted c k
  if d.enforced = false then
    let d1 := d.addUsed c k n
    if !was && d1.exhausted c k then d1.overrunClass c else d1
  else if d.borrows c then
    let own := min n (d.budget c k - d.used c k)
    let rest := n - own
    let d1 := d.addUsed c k own
    let d2 := if !was && d1.exhausted c k then
        (let d2 := d1.overrunClass c
         if d2.exhausted (d2.donor c) k then d2.gate now c k else d2)
      else d1
    if rest = 0 then d2
    else
      let dn := d2.donor c
      let dnWas := d2.exhausted dn k
      let d3 := d2.drawDonor now c k rest
      if !dnWas && d3.exhausted dn k then d3.donorExhausted now dn k else d3
  else
    let d1 := d.addUsed c k n
    if !was && d1.exhausted c k then d1.donorExhausted now c k else d1

/-- Charge a class (R83 to R87); a charge made where a period start is due belongs to the new period (R82) and is made in it. -/
def Dev.charge (d : Dev) (now c k n : Nat) : Dev :=
  if d.periodDue now then { d with pbu := { d.pbu with late := d.pbu.late ++ [(c, k, n)] } } else d.chargeNow now c k n

/-- Entries of a load history back to an instant, with the one in force then. -/
def keepSince (lo : Nat) : List (Nat × Nat) → List (Nat × Nat)
  | [] => []
  | x :: l => if x.1 ≤ lo then [x] else x :: keepSince lo l

/-- The squall generator's loads change (PBU_SQUALL_CFG); the load on the far store is kept for 20 ms, for the record of a training (R76). -/
def Dev.setSquall (d : Dev) (now : Nat) (v : Nat) : Dev :=
  let d1 := d.wn (r0 .pbuSquallCfg) v
  let far := if d1.fb (r0 .pbuSquallCfg) F.pbuSquallCfg.EN then d1.f (r0 .pbuSquallCfg) F.pbuSquallCfg.FAR else 0
  { d1 with pbu := { d1.pbu with squalls := (now, far) :: keepSince (now - 20000000) d1.pbu.squalls } }

/-- The far loads in force in the 10 ms before an instant (R76). -/
def Dev.farLoads (d : Dev) (at_ : Nat) : List (Nat × Nat) → List Nat
  | [] => [0]
  | x :: l => if at_ ≤ x.1 then d.farLoads at_ l else if 10000000 ≤ d.elapsed x.1 at_ then [x.2] else x.2 :: d.farLoads at_ l

/-- LOAD of a training that began at an instant (R76, R102): 2 where the far store carried 100 % for the 10 ms before, 0 where it carried
nothing, else 1. -/
def Dev.trainLoad (d : Dev) (at_ : Nat) : Nat :=
  let l := d.farLoads at_ d.pbu.squalls
  if l.all (fun x => decide (100 ≤ x)) then 2 else if l.all (fun x => x == 0) then 0 else 1

/-- What a class may still issue of a resource: what its own budget and its donor's leave, and no more than 64 KiB beyond (R84, R85). -/
def Dev.issuable (d : Dev) (c k : Nat) : Nat :=
  if d.enforced = false then dtMax
  else if d.gated c k then 0
  else (d.budget c k - d.used c k) + (if d.borrows c then d.budget (d.donor c) k - d.used (d.donor c) k else 0) + 65536

/-- A context's CONSUMED counter rises (R92); past 2^62 the counters are rebased at the next period start (R95). -/
def Dev.addConsumed (d : Dev) (ctx n : Nat) : Dev :=
  let v := min dtMax (d.rn (r1 .pbuCtxConsumed ctx) + n)
  let d1 := d.wn (r1 .pbuCtxConsumed ctx) v
  if 2 ^ 62 < v then { d1 with pbu := { d1.pbu with rebase := true } } else d1

/-- Charge basin-cycles to a context: its payer's budget of the region and its CONSUMED counter (R83, R92). -/
def Dev.chargeBasin (d : Dev) (now ctx region n : Nat) : Dev := (d.charge now (d.payer ctx) region n).addConsumed ctx n

/-- A budget after s = (3/4)^k, rounded down (R80). -/
def scaled (b k : Nat) : Nat := b * 3 ^ k / 4 ^ k

/-- The active bank shown in the BUDGET registers: classes 2 to 15 scaled on basin-cycles (R80). -/
def Dev.showBank (d : Dev) : Dev :=
  (List.range 128).foldl (fun d i =>
    let b := tgetD d.pbu.bank i dtMax
    d.wn (r2 .pbuClassBudget (i / 8) (i % 8)) (if 16 ≤ i ∧ i % 8 < 4 then scaled b d.pbu.scale else b)) d

/-- The shadow bank becomes active (R81, R90). -/
def Dev.swapBank (d : Dev) : Dev :=
  let bank := (List.range 128).map fun i => (i, d.rn (r2 .pbuClassShadow (i / 8) (i % 8)))
  ({ d with pbu := { d.pbu with bank := bank, swapSet := false } }).sf (r0 .pbuCtrl) F.pbuCtrl.SWAP 0

/-- Whether a class is critical, and its group (PBU_CLASSc_CFG). -/
def Dev.crit (d : Dev) (c : Nat) : Bool := d.fb (r1 .pbuClassCfg c) F.pbuClassCfg.CRIT
def Dev.group (d : Dev) (c : Nat) : Nat := d.f (r1 .pbuClassCfg c) F.pbuClassCfg.GROUP

/-- The accepted record of a class for an envelope, while the hottest sensor is not above its band (R103, R104). -/
def Dev.calInUse (d : Dev) (env c : Nat) : Option CalRec :=
  match tget d.pbu.cal (c * 4 + env) with
  | some x => if d.hotBand ≤ x.tband then some x else none
  | none => none

/-- Whether the ceiling budget is to be the floor of a class (R104): no accepted record for the envelope, or a hotter sensor than its band. -/
def Dev.wantsDefault (d : Dev) (env c : Nat) : Bool := (d.calInUse env c).isNone

/-- Where a class's floor comes from in a calculation of budgets: the conditions as they stand, for a change of mode; else the source in force,
which a change that waits replaces where next asks for it (R104). -/
inductive FloorSrc where
  | asNow
  | inForce (next : Bool)
  deriving DecidableEq, Repr

/-- Whether the ceiling budget is the floor of a class under an envelope (R104). -/
def Dev.onDefault (d : Dev) (src : FloorSrc) (env c : Nat) : Bool :=
  match src with
  | .asNow => d.wantsDefault env c
  | .inForce next => (d.fb (r1 .pbuClassCfg c) F.pbuClassCfg.CAL_DEFAULT) != (next && thas d.pbu.floorDue c)

/-- The floor of a class for a resource: the record's worst case with its margin, or the ceiling budget (R88, R103,
R104). -/
def Dev.floor (d : Dev) (src : FloorSrc) (env c k : Nat) : Nat :=
  if d.crit c = false then 0
  else match tget d.pbu.cal (c * 4 + env), d.onDefault src env c with
    | some x, false => ((x.worst.getD k 0) * (256 + x.margin) + 255) / 256
    | _, _ => (tgetD d.pbu.ceil c []).getD k 0

/-- The fast share in percent (R69, R88). -/
def fastPercent (profile : Nat) : Nat := if profile = 0 then 70 else if profile = 1 then 50 else 30

/-- A fixed class's budget of a region as given by BUDGET_SET; none given counts as 0 (R88, log entry 12). -/
def Dev.fixedBudget (d : Dev) (c k : Nat) : Nat := tgetD d.pbu.fixed (c * 8 + k) 0

/-- The classes of a group. -/
def Dev.classesOf (d : Dev) (g : Nat) : List Nat := (List.range 16).filter fun c => d.group c == g

/-- The budgets of the classes of one group in a region from its pool (R88): floors, then the spare by weight, the
rounding residue to the lowest-numbered class. -/
def Dev.groupBudgets (d : Dev) (src : FloorSrc) (env g region pool : Nat) : Option (List (Nat × Nat)) :=
  let cs := d.classesOf g
  let floors := (cs.map fun c => d.floor src env c region).sum
  if pool < floors then none
  else
    let spare := pool - floors
    let weights := (cs.map fun c => d.f (r1 .pbuClassCfg c) F.pbuClassCfg.WEIGHT).sum
    let b := cs.map fun c => (c, d.floor src env c region +
      (if weights = 0 then 0 else spare * d.f (r1 .pbuClassCfg c) F.pbuClassCfg.WEIGHT / weights))
    let residue := pool - (b.map (·.2)).sum
    match b with
    | [] => some []
    | (c, v) :: rest => some ((c, v + residue) :: rest)

/-- The fixed budgets of a region, reduced in proportion where a forced step needs it (R88). -/
def Dev.fixedFor (d : Dev) (forced : Bool) (cap region : Nat) : Option (List (Nat × Nat)) :=
  let b := ((d.classesOf 2).filter fun c => thas d.pbu.fixed (c * 8 + region)).map fun c => (c, d.fixedBudget c region)
  let sum := (b.map (·.2)).sum
  if sum ≤ cap then some b
  else if forced then some (b.map fun e => (e.1, e.2 * cap / sum)) else none

/-- The budgets of one region under an envelope, profile and period length; none where the fixed classes or a group's
floors do not fit (R77, R88).  DESIGN CHOICE, unsafe (log entry 12): under a forced step, which cannot be refused, a group whose floors do
not fit its pool keeps the shadow budgets it has. -/
def Dev.regionBudgets (d : Dev) (src : FloorSrc) (forced : Bool) (env profile len region : Nat) : Option (List (Nat × Nat)) :=
  let cap := capacity env len region
  match d.fixedFor forced cap region with
  | none => none
  | some fixed =>
    let rem := cap - (fixed.map (·.2)).sum
    let fast := rem * fastPercent profile / 100
    match d.groupBudgets src env 0 region fast, d.groupBudgets src env 1 region (rem - fast) with
    | some a, some b => some (fixed ++ a ++ b)
    | some a, none => if forced then some (fixed ++ a) else none
    | none, some b => if forced then some (fixed ++ b) else none
    | none, none => if forced then some fixed else none

/-- The budgets of the four regions as (class × 8 + region, budget), or none where some region does not fit. -/
def Dev.allBudgets (d : Dev) (src : FloorSrc) (forced : Bool) (env profile len : Nat) : Option (List (Nat × Nat)) :=
  (List.range 4).foldl (fun acc r =>
    match acc, d.regionBudgets src forced env profile len r with
    | some l, some b => some (l ++ b.map fun e => (e.1 * 8 + r, e.2))
    | _, _ => none) (some [])

/-- Write budgets into the shadow bank (R88, R90). -/
def Dev.writeShadow (d : Dev) (b : List (Nat × Nat)) : Dev :=
  b.foldl (fun d e => d.wn (r2 .pbuClassShadow (e.1 / 8) (e.1 % 8)) e.2) d

/-- The steward's budgets of a mode into the shadow bank; unchanged where they do not fit. -/
def Dev.reshadow (d : Dev) (src : FloorSrc) (forced : Bool) (env profile len : Nat) : Dev :=
  match d.allBudgets src forced env profile len with
  | some b => d.writeShadow b
  | none => d

/-- The half-capacity limit of classes 0 and 1 in Endurance at a period length (R89), over a table of budgets. -/
def halfLimit (budget : Nat → Nat → Nat) (len : Nat) : Bool :=
  [4, 5, 6, 7].all fun k => decide (2 * (budget 0 k + budget 1 k) ≤ capacity 0 len k)

/-- The period length in force. -/
def Dev.periodLen (d : Dev) : Nat := d.f (r0 .pbuPeriod) F.pbuPeriod.LEN

/-- Every class that draws beyond a budget carries its debt (R81, R85): what it used beyond its budget. -/
def Dev.debt (d : Dev) (c k : Nat) : Nat := if d.enforced then d.used c k - d.budget c k else 0

/-- Enforcement begins (PBU_CTRL.EN): a class that has used its budget is gated unless its donor has some left (R84, R86). -/
def Dev.enforce (d : Dev) (now : Nat) : Dev :=
  (List.range 128).foldl (fun (d : Dev) i =>
    if d.exhausted (i / 8) (i % 8) && !(d.borrows (i / 8) && !(d.exhausted (d.donor (i / 8)) (i % 8))) then d.gate now (i / 8) (i % 8) else d) d

/-- Renew the budgets at a period start (R81): USED takes the debt of the old budgets, gates lift, and a class whose
debt already reaches its new budget is exhausted at once (R85). -/
def Dev.renew (d : Dev) (now : Nat) (debts : List Nat) : Dev :=
  let d1 := (List.range 128).foldl (fun d i => d.wn (r2 .pbuClassUsed (i / 8) (i % 8)) (debts.getD i 0)) d
  let d2 := (List.range 16).foldl (fun (d : Dev) c => d.sf (r1 .pbuClassStat c) F.pbuClassStat.GATED 0) (d1.letGo now)
  let d3 := (List.range 128).foldl (fun d i =>
    let c := i / 8
    let k := i % 8
    if d.exhausted c k then
      (let d' := d.overrunClass c
       if !d.enforced then d'
       else if d.borrows c && !(d.exhausted (d.donor c) k) then d' else d'.gate now c k)
    else d) d2
  d3.syncCarries now

end Sys2Proof.Machine
end

