-- ==== Sys2Proof/Machine/Fabric.lean ====
section
/-! DEFINITION. Basins, scoreboards and contexts: repair map, chain headers and stage words, tokens, the weirs' choice and
context switches (R91 to R99, R112, R116 to R138). -/

namespace Sys2Proof.Machine

/-- The repair entry of a column (R135, R138). -/
def Dev.repairByte (d : Dev) (col : Nat) : Nat :=
  if col < 8 then bits (d.rn (r0 .pbuFabRepairLo)) (8 * col) 8 else bits (d.rn (r0 .pbuFabRepairHi)) (8 * (col - 8)) 8

/-- The physical basin of a logical basin (R135). -/
def Dev.physical (d : Dev) (l : Nat) : Nat :=
  let e := d.repairByte (l % 16)
  let row := l / 16
  16 * (if e.testBit 7 && decide (e % 32 ≤ row) then row + 1 else row) + l % 16

/-- The power domain of a physical basin's pair (R66). -/
def pairOf (phys : Nat) : Nat := 8 * (phys / 16) + phys % 16 / 2

/-- The basin store of a logical basin (R4, R120). -/
def Dev.storeAddr (d : Dev) (l : Nat) : Nat := 0x400000000 + d.physical l * 0x100000

/-- Fields of a chain header (chapter 05). -/
def hdrGen (h : Nat) : Nat := bits h 62 2
def hdrCtx (h : Nat) : Nat := bits h 52 10
def hdrClass (h : Nat) : Nat := bits h 48 4
def hdrNstage (h : Nat) : Nat := bits h 45 3 + 1
def hdrPeriod (h : Nat) : Bool := h.testBit 44
def hdrTrace (h : Nat) : Bool := h.testBit 43

/-- Fields of a stage word (chapter 05). -/
def stGen (w : Nat) : Nat := bits w 126 2
def stKind (w : Nat) : Nat := bits w 122 4
def stFmtA (w : Nat) : Nat := bits w 117 5
def stFmtB (w : Nat) : Nat := bits w 112 5
def stFmtOut (w : Nat) : Nat := bits w 107 5
def stRound (w : Nat) : Nat := bits w 105 2
def stSparse (w : Nat) : Bool := w.testBit 104
def stSat (w : Nat) : Bool := w.testBit 103
def stSubop (w : Nat) : Nat := bits w 97 6
def stLast (w : Nat) : Bool := w.testBit 96
def stInA (w : Nat) : Nat := bits w 90 6
def stInB (w : Nat) : Nat := bits w 84 6
def stOut (w : Nat) : Nat := bits w 78 6
def stParam (w : Nat) : Nat := bits w 72 6
def stDim0 (w : Nat) : Nat := bits w 60 12
def stDim1 (w : Nat) : Nat := bits w 48 12
def stDim2 (w : Nat) : Nat := bits w 36 12
def stRoute (w : Nat) : Nat := bits w 28 8
def stStride (w : Nat) : Nat := bits w 24 4
def stDilation (w : Nat) : Nat := bits w 16 8
def stKh (w : Nat) : Nat := bits w 12 4 + 1
def stKw (w : Nat) : Nat := bits w 8 4 + 1
def stModule (w : Nat) : Nat := bits w 6 2
def stRemote (w : Nat) : Bool := w.testBit 5
def stMcast (w : Nat) : Bool := w.testBit 4

/-- Fields of a scoreboard entry's 16 bytes as one number (chapter 05). -/
def seGen (e : Nat) : Nat := bits e 30 2
def seKind (e : Nat) : Nat := bits e 26 4
def seLatest (e : Nat) : Bool := e.testBit 25
def seSlots (e : Nat) : Nat := bits e 21 4
def seBase (e : Nat) : Nat := bits e 50 14
def seSize (e : Nat) : Nat := bits e 36 14
def sePeer (e : Nat) : Nat := bits e 88 8
def sePeerEntry (e : Nat) : Nat := bits e 82 6
def sePeerModule (e : Nat) : Nat := bits e 80 2
def seRemote (e : Nat) : Bool := e.testBit 79

/-- A scoreboard entry at CASCADE_BIND (R123): every slot free, none ready; a mesh-outbound entry holds as many credits
as its peer entry has slots. -/
def SbEntry.init (e peerSlots : Nat) : SbEntry :=
  { kind := seKind e, latest := seLatest e, slots := seSlots e, base := seBase e * 64, size := seSize e * 64,
    peer := sePeer e, peerEntry := sePeerEntry e, peerModule := sePeerModule e, remote := seRemote e,
    readyQ := [], freeQ := if seKind e = 2 then [] else List.range (seSlots e),
    credits := if seKind e = 2 then peerSlots else 0, tokens := 0 }

/-- READY and FREE of an entry (R123, R124). -/
def SbEntry.ready (e : SbEntry) : Nat := e.readyQ.length
def SbEntry.free (e : SbEntry) : Nat := if e.kind = 2 then e.credits else e.freeQ.length

/-- A slot becomes ready with a stamp, and the entry counts a token (R124). -/
def SbEntry.post (e : SbEntry) (slot stamp : Nat) : SbEntry :=
  { e with readyQ := e.readyQ ++ [(slot, stamp)], tokens := (e.tokens + 1) % 2 ^ 32 }

/-- A slot is handed back free (R124). -/
def SbEntry.giveBack (e : SbEntry) (slot : Nat) : SbEntry := { e with freeQ := e.freeQ ++ [slot] }

/-- A logical basin's configuration, if a context is resident there. -/
def Dev.basin? (d : Dev) (l : Nat) : Option Basin := tget d.fab.basins l

/-- The device with a basin's configuration changed. -/
def Dev.setBasin (d : Dev) (l : Nat) (b : Basin) : Dev := { d with fab := { d.fab with basins := tset d.fab.basins l b } }

/-- An entry of a basin. -/
def Basin.entry (b : Basin) (e : Nat) : SbEntry :=
  tgetD b.entries e ⟨0, false, 0, 0, 0, 0, 0, 0, false, [], [], 0, 0⟩

/-- A basin with an entry changed. -/
def Basin.setEntry (b : Basin) (e : Nat) (x : SbEntry) : Basin := { b with entries := tset b.entries e x }

/-- The device with an entry of a basin changed; its context's scoreboards have changed state (R100). -/
def Dev.modEntry (d : Dev) (now l e : Nat) (f : SbEntry → SbEntry) : Dev :=
  match d.basin? l with
  | some b =>
    let d1 := d.setBasin l (b.setEntry e (f (b.entry e)))
    { d1 with fab := { d1.fab with ctxs := tmod d1.fab.ctxs b.ctx fun c => { c with lastChange := now } } }
  | none => d

/-- Whether a stage index is running in a basin. -/
def Basin.isRunning (b : Basin) (i : Nat) : Bool := thas b.running i

/-- PBU_WEIRr_STAT.BOUND and BUSY follow the basins of each region (R131). -/
def Dev.syncWeirs (d : Dev) : Dev :=
  (List.range 4).foldl (fun d r =>
    let bs := d.fab.basins.filter fun e => e.1 / 64 == r
    (d.sf (r1 .pbuWeirStat r) F.pbuWeirStat.BOUND bs.length).sf (r1 .pbuWeirStat r) F.pbuWeirStat.BUSY
      (bs.filter fun e => !e.2.running.isEmpty).length) d

/-- A basin pair of which no context holds a basin loses its power (R67, DEDUCED). -/
def Dev.powerIdlePairs (d : Dev) : Dev :=
  let held := d.fab.ctxs.flatMap fun e => e.2.basins.map fun l => pairOf (d.physical l)
  { d with pow := { d.pow with
      on := d.pow.on.filter fun p => decide (136 ≤ p) || held.contains p
      pairs := d.pow.pairs.filter fun e => held.contains e.1 } }

/-- A context is runnable for a region: bound, running or saved, not blocked, its class not gated there (R93). -/
def Dev.runnable (d : Dev) (c region : Nat) : Bool :=
  match d.ctx? c with
  | some x => d.ctxState c != 0 && !x.blocked && !x.torn && !d.gated (d.payer c) region
  | none => false

/-- A context's share, at least 1. -/
def Dev.share (d : Dev) (c : Nat) : Nat := max 1 (d.f (r1 .pbuCtxCfg c) F.pbuCtxCfg.SHARE)

/-- A context's CONSUMED counter. -/
def Dev.consumed (d : Dev) (c : Nat) : Nat := d.rn (r1 .pbuCtxConsumed c)

/-- Fabric cycles per 10 ns of an envelope (R68). -/
def fabricRate (env : Nat) : Nat := if env = 0 then 6 else if env = 1 then 10 else 12

/-- The basin-cycles that stages occupied a basin for up to b and that are not charged yet, at most a tile's 2,048 (R83, R118). -/
def Dev.openCycles (d : Dev) (b : Nat) (x : Basin) : Nat :=
  match x.running with
  | [] => 0
  | r :: rest =>
    let from_ := max x.chargedTo (rest.foldl (fun m y => min m y.2.at_) r.2.at_)
    min 2048 (d.elapsed from_ b * fabricRate d.envelope / 10)

/-- What running stages occupied up to a period start at b is charged to the period that ends there (R82, R83). -/
def Dev.closePeriod (d : Dev) (now b : Nat) : Dev :=
  d.fab.basins.foldl (fun (d : Dev) e =>
    let n := d.openCycles b e.2
    if n = 0 then d
    else ((d.chargeNow now (d.payer e.2.ctx) (e.1 / 64) n).addConsumed e.2.ctx n).setBasin e.1 { e.2 with chargedTo := b }) d

/-- The basin-cycles of a tile that ends now and that no overlapping stage of its basin has charged (R118, R130): of its own cycles, at most
2,048, those after what is charged. -/
def Dev.tileCycles (d : Dev) (now cycles : Nat) (x : Basin) (r : Running) : Nat :=
  let n := min 2048 cycles
  let rate := fabricRate d.envelope
  let start := max r.at_ (now - n * 10 / rate)
  if x.chargedTo ≤ r.at_ then n else n - min n ((x.chargedTo - start) * rate / 10)

/-- The better of two candidates (R93): higher class PRIO, then less CONSUMED / SHARE by exact products, then the lower
context id. -/
def Dev.ctxBetter (d : Dev) (a b : Nat) : Bool :=
  let pa := d.classPrio (d.payer a)
  let pb := d.classPrio (d.payer b)
  let x := d.consumed a * d.share b
  let y := d.consumed b * d.share a
  decide (pb < pa) || (pa == pb && (decide (x < y) || (x == y && decide (a < b))))

/-- The contexts that want a basin. -/
def Dev.wanting (d : Dev) (l : Nat) : List Nat := (d.fab.ctxs.filter fun e => e.2.basins.contains l).map (·.1)

/-- The contexts that want some basin of a region. -/
def Dev.wantingRegion (d : Dev) (r : Nat) : List Nat :=
  (d.fab.ctxs.filter fun e => e.2.basins.any fun l => l / 64 == r).map (·.1)

/-- The least CONSUMED / SHARE, rounded down, among some contexts. -/
def Dev.leastRatio (d : Dev) (cs : List Nat) : Option Nat :=
  cs.foldl (fun m c => match m with
    | none => some (d.consumed c / d.share c)
    | some x => some (min x (d.consumed c / d.share c))) none

/-- A context that becomes runnable for the first time, or after it was saved for longer than 100 ms, starts from the
least ratio of the region's other runnable contexts (R94).  DESIGN CHOICE, unsafe (log entry 15): with no other runnable context its
CONSUMED stays as it is. -/
def Dev.joinShares (d : Dev) (now c region : Nat) : Dev :=
  match d.ctx? c with
  | some x =>
    let d0 := { d with fab := { d.fab with ctxs := tmod d.fab.ctxs c fun x => { x with began := true, away := false } } }
    if !x.began || (d.ctxState c == 3 && x.away && decide (100000000 < d.elapsed x.savedAt now)) then
      let others := (d.wantingRegion region).filter fun o => o != c && d.runnable o region
      match d.leastRatio others with
      | some m => d0.wn (r1 .pbuCtxConsumed c) (d.share c * m)
      | none => d0
    else d0
  | none => d

/-- A context's effective ceiling: the highest ceiling among the cells it holds (R112). -/
def Dev.effCeiling (d : Dev) (c : Nat) : Option Nat :=
  match d.ctx? c with
  | some x => x.held.foldl (fun m e =>
      match tget d.cells e.1, m with
      | some cell, some v => some (max v cell.ceiling)
      | some cell, none => some cell.ceiling
      | none, m => m) none
  | none => none

/-- Nanoseconds to move 1 MiB at the near-store rate of an envelope (R68, R98). -/
def mibNs (env : Nat) : Nat := if env = 0 then 2048 else if env = 1 then 1280 else 1024

/-- The duration of a switch (R98). -/
def Dev.switchNs (d : Dev) (nOut nIn : Nat) : Nat := 20000 + (nOut + nIn) * mibNs d.envelope

/-- Whether a context takes part in a switch in progress. -/
def Dev.switching (d : Dev) (c : Nat) : Bool := d.fab.switches.any fun s => s.out == c || s.inn == c

/-- Whether a running best-effort context may be switched out for another (R91, R96, R97, R112).  DESIGN CHOICE, safe (log entry 15): the
choice never switches an unpinned class-1 context out, since R97 names best-effort contexts, which are those of classes 2 to 15. -/
def Dev.maySwitch (d : Dev) (now out inn region : Nat) : Bool :=
  match d.ctx? out with
  | some x =>
    decide (2 ≤ x.cls) && !d.fb (r1 .pbuCtxCfg out) F.pbuCtxCfg.PINNED && !d.switching out && !d.switching inn &&
    (decide (d.f (r0 .pbuCtrl) F.pbuCtrl.SLICE * 100000 ≤ d.elapsed x.runSince now) || x.blocked || d.gated (d.payer out) region) &&
    (match d.effCeiling out with
     | some ceil => decide (ceil < d.classPrio (d.payer inn))
     | none => true)
  | none => true

/-- The number of basins a context holds. -/
def Dev.nBasins (d : Dev) (c : Nat) : Nat :=
  match d.ctx? c with
  | some x => x.basins.length
  | none => 0

/-- Start a switch: dispatch to the outgoing context stops at once (R97, R98); a context that comes in on free basins is named as both. -/
def Dev.startSwitch (d : Dev) (now out inn region : Nat) : Dev :=
  { d with fab := { d.fab with
      switches := ⟨region, out, inn, now, now + d.switchNs (if out = inn then 0 else d.nBasins out) (d.nBasins inn)⟩ :: d.fab.switches } }

/-- Whether every basin another context needs is free or held by one given context (log entry 15). -/
def Dev.basinsFrom (d : Dev) (inn out : Nat) : Bool :=
  match d.ctx? inn with
  | some x => x.basins.all fun l =>
      match d.basin? l with
      | some b => b.ctx == out || b.ctx == inn
      | none => true
  | none => false

/-- The weir's choice when a basin becomes free and at a period start (R93, R97): the best runnable context that wants
the basin runs, by a switch where another is resident; a free basin takes the best saved context. -/
def Dev.weirChoose (d0 : Dev) (now l : Nat) : Dev :=
  let region := l / 64
  let cands := (d0.wanting l).filter fun c => d0.runnable c region
  let d := cands.foldl (fun d c => d.joinShares now c region) d0
  match cands.foldl (fun m c => match m with
      | none => some c
      | some x => some (if d.ctxBetter c x then c else x)) none with
  | none => d
  | some best =>
    match d.basin? l with
    | some b =>
      if b.ctx = best then
        (if d.ctxState best = 1 ∧ ¬ d.switching best then
          (let d1 := d.sf (r1 .pbuCtxCfg best) F.pbuCtxCfg.STATE 2
           { d1 with fab := { d1.fab with ctxs := tmod d1.fab.ctxs best fun x => { x with runSince := now, lastChange := now } } })
         else d)
      else if d.maySwitch now b.ctx best region && d.basinsFrom best b.ctx then d.startSwitch now b.ctx best region
      else d
    | none =>
      if d.ctxState best = 3 ∧ d.switching best = false ∧ d.basinsFrom best best = true then d.startSwitch now best best region
      else d

/-- Whether the mesh between a context's basins has drained, its credits are back and no stage of it runs (R99, R131). -/
def Dev.drained (d : Dev) (c : Nat) : Bool :=
  d.fab.basins.all (fun e => e.2.ctx != c || e.2.running.isEmpty) &&
  (d.fab.flits.all fun f => match d.basin? f.dst with
    | some b => b.ctx != c
    | none => true) &&
  d.fab.credits.all fun k => match d.basin? k.basin with
    | some b => b.ctx != c
    | none => true

/-- Save a context's basins: configuration, scoreboards and rounding registers to its saved state, stores to its save
area (R97, R98); whether it has been away from the choice begins to count (R94). -/
def Dev.saveCtx (d : Dev) (now c : Nat) : Dev :=
  match d.ctx? c with
  | some x =>
    let mine := d.fab.basins.filter fun e => e.2.ctx == c
    let m := (List.range mine.length).foldl (fun m i =>
      match mine[i]? with
      | some e => (m.copy (x.saveArea + i * 0x101000) 0x100000 d.mem (d.storeAddr e.1)).clear (d.storeAddr e.1) 0x100000
      | none => m) d.mem
    let d1 := { d with mem := m, fab := { d.fab with
      basins := d.fab.basins.filter fun e => e.2.ctx != c
      saved := tset d.fab.saved c mine
      ctxs := tmod d.fab.ctxs c fun x => { x with savedAt := now, away := x.blocked || x.basins.any fun l => d.gated (d.payer c) (l / 64) } } }
    d1.sf (r1 .pbuCtxCfg c) F.pbuCtxCfg.STATE 3
  | none => d

/-- Restore a context's basins from its saved state (R97, R98). -/
def Dev.restoreCtx (d : Dev) (now c : Nat) : Dev :=
  match d.ctx? c with
  | some x =>
    let mine := tgetD d.fab.saved c []
    let m := (List.range mine.length).foldl (fun m i =>
      match mine[i]? with
      | some e => m.copy (d.storeAddr e.1) 0x100000 d.mem (x.saveArea + i * 0x101000)
      | none => m) d.mem
    let d1 := { d with mem := m, fab := { d.fab with
      basins := mine.foldl (fun (bs : Tbl Basin) (e : Nat × Basin) => tset bs e.1 e.2) d.fab.basins
      saved := tdel d.fab.saved c
      ctxs := tmod d.fab.ctxs c fun x => { x with runSince := now, lastChange := now, began := true } } }
    d1.sf (r1 .pbuCtxCfg c) F.pbuCtxCfg.STATE 2
  | none => d

/-- The charges of a switch (R99): the save to the outgoing class's near-store budget, the restore to the incoming
class's, and its duration on every basin involved to the incoming context. -/
def Dev.chargeSwitch (d : Dev) (now : Nat) (s : Switch) : Dev :=
  let d1 := if s.out = s.inn then d else d.charge now (d.payer s.out) 4 (d.nBasins s.out * 0x101000)
  let d2 := d1.charge now (d1.payer s.inn) 4 (d1.nBasins s.inn * 0x101000)
  let cycles := (s.doneAt - s.at_) * fabricRate d.envelope / 10
  let ls := match d.ctx? s.out, d.ctx? s.inn with
    | some a, some b => a.basins ++ b.basins.filter fun l => !a.basins.contains l
    | _, _ => []
  ls.foldl (fun d l => d.chargeBasin now s.inn (l / 64) cycles) d2

/-- The start values of a basin's 64 rounding generators, from the context's seed and the logical basin (R172). -/
def lfsrSeeds (seed l : Nat) : List Nat :=
  (List.range 64).map fun i =>
    let v := seed ^^^ ((64 * l + i + 1) * 0x9E3779B9 % 2 ^ 32)
    if v = 0 then 1 else v

end Sys2Proof.Machine
end

