-- ==== Sys2Proof/Machine/Cells.lean ====
section
/-! DEFINITION. Rendezvous cells: the ten operations, waiters in order, the hold table and carry (R106 to R115). -/

namespace Sys2Proof.Machine

/-- The device with a cell written. -/
def Dev.setCell (d : Dev) (n : Nat) (x : Cell) : Dev := { d with cells := tset d.cells n x }

/-- Forget one wait. -/
def Dev.dropWaitId (d : Dev) (id : Option Nat) : Dev :=
  match id with
  | some i => { d with waits := tdel d.waits i }
  | none => d

/-- A rendezvous wait commits its outcome, with the next value of the cell table's counter, and is over (R46, R48, R109). -/
def Dev.endCellWait (d : Dev) (id : Option Nat) (arrived : Bool) : Dev :=
  match id with
  | none => d
  | some i => match tget d.waits i with
    | some w => (if w.outcome.isNone then (d.commitWait i w arrived).2 else d).dropWaitId id
    | none => d

/-- Whether a stage of a context waits on some cell. -/
def Dev.stageWaits (d : Dev) (c : Nat) : Bool := d.cells.any fun e => e.2.waiters.any fun w => w.who == .stage c

/-- A context whose stage waits on a cell is blocked (R93); the watchdog counts anew once it no longer is (R100). -/
def Dev.syncBlocked (d : Dev) (now c : Nat) : Dev :=
  let b := d.stageWaits c
  { d with fab := { d.fab with ctxs := tmod d.fab.ctxs c fun x => { x with blocked := b, lastChange := if x.blocked && !b then now else x.lastChange } } }

/-- The context that claimed an operation port (R110). -/
def Dev.portCtx (d : Dev) (n : Nat) : Option Nat :=
  match tget d.stew.owners (0x0B * 65536 + n) with
  | some (.ctx c) => some c
  | _ => none

/-- An operation completes: at a port its result register (R110), for a stage its result; inside a retraining window with DEGRADED in
place of OK for classes 2 to 15 (R74). -/
def Dev.cellDone (d : Dev) (who : CellWho) (st : Status) (value : Nat) : Dev :=
  match who with
  | .port n =>
    let r := r1 .rdvPortRes n
    let code := ((d.portCtx n).elim st fun c => d.windowStatus c st).code
    ((d.sf r F.rdvPortRes.STATUS code).sf r F.rdvPortRes.STATE 2).sf r F.rdvPortRes.VALUE value
  | .stage c => { d with cellRes := tset d.cellRes c ((d.windowStatus c st).code, value) }
  | .sluice _ _ => d

/-- A waiter completes: its wait commits, its context is no longer blocked by it; a port with the operation pending raises its EIC source
(R48, R110, R376). -/
def Dev.waiterDone (d : Dev) (now : Nat) (w : Waiter) (st : Status) (value : Nat) : Dev :=
  let d1 := ((d.endCellWait w.wait (st != .expired)).cellDone w.who st value).syncBlocked now w.ctx
  match w.who with
  | .port n => d1.raise (128 + n)
  | _ => d1

/-- Whether a waiter's deadline has passed (R109: G is 0, so it expires at D + 1). -/
def Dev.lapsed (d : Dev) (now : Nat) (w : Waiter) : Bool :=
  match w.wait with
  | some id => match tget d.waits id with
    | some x => decide (x.deadline < now)
    | none => false
  | none => false

/-- Semaphore units a context holds (R111). -/
def Dev.holds (d : Dev) (c : Nat) : List (Nat × Key) :=
  match d.ctx? c with
  | some x => x.held
  | none => []

/-- The device with a context's hold table changed. -/
def Dev.setHolds (d : Dev) (c : Nat) (h : List (Nat × Key)) : Dev :=
  { d with fab := { d.fab with ctxs := tmod d.fab.ctxs c fun x => { x with held := h } } }

/-- A unit of a cell goes to a context with the key of its acquire (R111). -/
def Dev.takeUnit (d : Dev) (n c : Nat) (k : Key) : Dev :=
  ({ d with cells := tmod d.cells n fun x => { x with count := x.count - 1 } }).setHolds c (d.holds c ++ [(n, k)])

/-- The units free, arrivals or flag bits of a cell. -/
def Dev.cellCount (d : Dev) (n : Nat) : Nat :=
  match tget d.cells n with
  | some x => x.count
  | none => 0

/-- Links of one chain of carry. -/
def Carry.sameChain (a b : Carry) : Bool := a.root == b.root && a.waiter == b.waiter

/-- The links that end with those of a test: the later links of their chains, up to a depth (R113). -/
def carryEnds (all : List Carry) (p : Carry → Bool) : Nat → List Carry
  | 0 => all.filter p
  | n + 1 =>
    let gone := carryEnds all p n
    all.filter fun x => gone.contains x || gone.any fun g => g.sameChain x && g.holder == x.by_

/-- Links of carry end, and with each the later links of its chain (R113 to R115). -/
def Dev.endCarry (d : Dev) (p : Carry → Bool) : Dev :=
  let gone := carryEnds d.fab.carries p 8
  let d1 := { d with fab := { d.fab with carries := d.fab.carries.filter fun x => !(gone.contains x) } }
  gone.foldl (fun d x =>
    if d.fab.carries.any fun y => y.holder == x.holder then d else d.sf (r1 .pbuCtxCfg x.holder) F.pbuCtxCfg.CARRY 0) d1

/-- Insert a waiter by class priority, then order key (R109). -/
def insertWaiter (w : Waiter) : List Waiter → List Waiter
  | [] => [w]
  | x :: rest =>
    if x.prio < w.prio ∨ (x.prio = w.prio ∧ w.key.lt x.key = true) then w :: x :: rest else x :: insertWaiter w rest

/-- Remove a waiter from a cell's queue and end the carry its wait started (R110, R115). -/
def Dev.unqueue (d : Dev) (n : Nat) (w : Waiter) : Dev :=
  ({ d with cells := tmod d.cells n fun x => { x with waiters := x.waiters.filter (· != w) } }).endCarry
    fun y => y.cell == n && y.by_ == w.ctx

/-- Free units of a semaphore go to its waiters in order (R109, R111): one that has expired completes with EXPIRED, one
whose context holds 16 units with BUSY. -/
def Dev.grantUnits (d : Dev) (now n : Nat) : Nat → Dev
  | 0 => d
  | k + 1 =>
    match tget d.cells n with
    | none => d
    | some x =>
      match x.waiters with
      | [] => d
      | w :: _ =>
        if x.count = 0 then d
        else
          let d1 := d.unqueue n w
          if d.lapsed now w then (d1.waiterDone now w .expired x.count).grantUnits now n k
          else if 16 ≤ (d.holds w.ctx).length then (d1.waiterDone now w .busy x.count).grantUnits now n k
          else
            let d2 := d1.takeUnit n w.ctx w.key
            (d2.waiterDone now w .ok (d2.cellCount n)).grantUnits now n k

/-- Complete every waiter of a cell that satisfies a test, in order; one whose deadline has passed completes with EXPIRED (R109, R115). -/
def Dev.completeWaiters (d : Dev) (now n : Nat) (p : Waiter → Bool) (st : Status) : Dev :=
  match tget d.cells n with
  | none => d
  | some x => (x.waiters.filter p).foldl (fun d w =>
      (d.unqueue n w).waiterDone now w (if d.lapsed now w then .expired else st) (d.cellCount n)) d

/-- Whether a flag waiter is satisfied by the flags (R108). -/
def flagMet (op count arg : Nat) : Bool := if op = 8 then count &&& arg != 0 else count &&& arg == arg

/-- Whether the flags satisfy a waiter of a cell. -/
def Dev.flagsMet (d : Dev) (n : Nat) (w : Waiter) : Bool := flagMet w.op (d.cellCount n) w.arg

/-- FLAG_SET's effect on a cell of flags (R108), also by a unit of the device. -/
def Dev.flagSet (d : Dev) (now n arg : Nat) : Dev :=
  match tget d.cells n with
  | some x =>
    if x.type = 2 ∧ x.broken = false then
      (let d1 := d.setCell n { x with count := x.count ||| (arg % 2 ^ 32) }
       d1.completeWaiters now n (d1.flagsMet n) .ok)
    else d
  | none => d

/-- One arrival at a barrier (R108): at TARGET every waiter is released, COUNT returns to 0 and PHASE toggles. -/
def Dev.arriveAt (d : Dev) (now n : Nat) (x : Cell) : Dev :=
  if x.target ≤ x.count + 1 then
    (d.setCell n { x with count := 0, phase := !x.phase }).completeWaiters now n (fun _ => true) .ok
  else d.setCell n { x with count := x.count + 1 }

/-- The earliest holder of a semaphore, by acquire order key (R113). -/
def Dev.earliestHolder (d : Dev) (n : Nat) : Option Nat :=
  let all := d.fab.ctxs.flatMap fun e => (e.2.held.filter fun h => h.1 == n).map fun h => (h.2, e.1)
  (all.foldl (fun m e => match m with
    | none => some e
    | some x => if e.1.lt x.1 then some e else some x) none).map (·.2)

/-- A semaphore on which a context waits. -/
def Dev.waitsOn (d : Dev) (c : Nat) : Option Nat :=
  (d.cells.find? fun e => e.2.type == 0 && e.2.waiters.any fun w => w.ctx == c).map (·.1)

/-- The saved holders that carry reaches from a context's wait on a cell, each with the context that waits for it and the cell (R113). -/
def Dev.carryChain (d : Dev) (by_ n : Nat) : Nat → List (Nat × Nat × Nat)
  | 0 => []
  | k + 1 =>
    match d.earliestHolder n with
    | none => []
    | some h =>
      if d.ctxState h = 3 then
        (by_, n, h) :: (match d.waitsOn h with
          | some n' => d.carryChain h n' k
          | none => [])
      else []

/-- The carried holder is switched in as the replacement of the context that waits for it; where that cannot give way, in place of the one
context that holds its basins, which must be one that a switch may take out, or on free basins (R97, R112, R113, log entry 15). -/
def Dev.carrySwitch (d0 : Dev) (now by_ holder : Nat) : Dev :=
  let region := match d0.ctx? holder with
    | some x => x.basins.headD 0 / 64
    | none => 0
  if d0.switching holder || d0.ctxState holder != 3 then d0
  else
    let d := d0.joinShares now holder region
    let resident := d.fab.basins.any fun e => e.2.ctx == by_
    if resident && !d.fb (r1 .pbuCtxCfg by_) F.pbuCtxCfg.PINNED && !d.switching by_ && d.basinsFrom holder by_ then d.startSwitch now by_ holder region
    else match d.ctx? holder with
      | none => d
      | some x =>
        match (x.basins.filterMap fun l => d.basin? l).head? with
        | some b => if d.maySwitch now b.ctx holder region && d.basinsFrom holder b.ctx then d.startSwitch now b.ctx holder region else d
        | none => d.startSwitch now holder holder region

/-- Carried holders that are still saved are switched in where that has become possible (R113). -/
def Dev.carryResume (d : Dev) (now : Nat) : Dev :=
  d.fab.carries.foldl (fun d x => d.carrySwitch now x.by_ x.holder) d

/-- One link of carry: the cell that a context waits for and its holder, paid for by the context whose wait started the chain. -/
def Dev.addCarry (d : Dev) (now root payer by_ n holder : Nat) : Dev :=
  if d.fab.carries.any fun x => x.cell == n && x.holder == holder then d
  else
    let d1 := { d with fab := { d.fab with carries := d.fab.carries ++ [({ cell := n, root := root, holder := holder, waiter := payer, by_ := by_, heldNs := 0, since := some now } : Carry)] } }
    ((d1.sf (r1 .pbuCtxCfg holder) F.pbuCtxCfg.CARRY 1).carrySwitch now by_ holder).syncCarries now

/-- The hold limit of a cell in nanoseconds (R106). -/
def Dev.holdLimit (d : Dev) (n : Nat) : Nat :=
  match tget d.cells n with
  | some x => x.hold * 1000
  | none => 0

/-- Carry starts from a waiter that finds the earliest holder saved, or goes on from a carried holder that waits in its turn, to a depth of
8; a ninth step counts as an expiry of the first cell's hold limit (R113), which HOLD_LIMIT_EXPIRE then carries out. -/
def Dev.startCarry (d : Dev) (now n ctx : Nat) : Dev :=
  let up := d.fab.carries.find? fun x => x.holder == ctx
  let root := up.elim n Carry.root
  let payer := up.elim ctx Carry.waiter
  let depth := up.elim 0 fun x => (d.fab.carries.filter x.sameChain).length
  let chain := d.carryChain ctx n (9 - depth)
  let d1 := (chain.take (8 - depth)).foldl (fun d e => d.addCarry now root payer e.1 e.2.1 e.2.2) d
  if chain.length + depth < 9 then d1
  else { d1 with fab := { d1.fab with carries := d1.fab.carries.map fun x =>
    if x.cell = root ∧ x.root = root ∧ x.waiter = payer then { x with heldNs := d1.holdLimit root + 1 } else x } }

/-- A context that was saved holds a semaphore on which a resident context already waits: the waiter finds its earliest holder saved (R113). -/
def Dev.carrySaved (d : Dev) (now c : Nat) : Dev :=
  if d.ctxState c != 3 then d
  else d.cells.foldl (fun d e => match e.2.waiters with
    | w :: _ => if e.2.type = 0 ∧ d.earliestHolder e.1 = some c ∧ (d.fab.basins.any fun b => b.2.ctx == w.ctx) ∧ d.basinsFrom c w.ctx then d.startCarry now e.1 w.ctx else d
    | [] => d) d

/-- An operation waits (R109).  DESIGN CHOICE, unsafe (log entry 40): a waiter keeps its place by the PRIO that its class has when it is
queued. -/
def Dev.enqueue (d : Dev) (now n : Nat) (who : CellWho) (ctx op arg dl : Nat) (k : Key) : Dev :=
  let p := if dl = 0 then (none, d)
    else
      let q := d.addWait { owner := .rdv n, deadline := dl, guard := 0, src := 0x0740 }
      (some q.1, q.2)
  let w : Waiter := { who := who, ctx := ctx, op := op, arg := arg, prio := d.classPrio (d.ctxClass ctx), key := k, wait := p.1 }
  ({ p.2 with cells := tmod p.2.cells n fun x => { x with waiters := insertWaiter w x.waiters } }).syncBlocked now ctx

/-- Whether an operation can wait (R108). -/
def opWaits (op : Nat) : Bool := op == 1 || op == 5 || op == 8 || op == 9

/-- The cell type an operation works on (R108): none where it works on any. -/
def opType (op : Nat) : Option Nat := if op ≤ 3 then some 0 else if op ≤ 5 then some 1 else if op ≤ 9 then some 2 else none

/-- Whether an operation takes an ARG (R108, R110). -/
def opHasArg (op : Nat) : Bool := decide (6 ≤ op) && decide (op ≤ 9)

/-- Whether a context may operate a cell (R107): every context of its creator's session. -/
def Dev.mayOperate (d : Dev) (x : Cell) (ctx : Nat) : Bool :=
  x.users.contains ctx || (match d.ctx? x.creator, d.ctx? ctx with
    | some a, some b => a.mbx == b.mbx
    | _, _ => false)

/-- The checks of an operation in the order of R352 (R10, R107, R108, R110): the generation, bits 10:9 of rsvd, the context, reserved
fields, the cell, BROKEN, the operation, a wait of a class-0 context on a cell of another class than 0 and 1, its type. -/
def Dev.cellFail (d : Dev) (ctx op n arg rsvd : Nat) : Option Status :=
  if 512 ≤ rsvd then some .badVersion
  else if (tget d.cells n).elim false fun x => !d.mayOperate x ctx then some .denied
  else if rsvd ≠ 0 ∨ (arg ≠ 0 ∧ opHasArg op = false) then some .badReserved
  else match tget d.cells n with
    | none => some .badConfig
    | some x =>
      if x.broken then some .broken
      else if op = 0 ∨ 10 < op then some .badConfig
      else if opWaits op && d.ctxClass ctx == 0 && decide (2 ≤ d.ctxClass x.owner) then some .badConfig
      else if opType op = none ∨ opType op = some x.type then none else some .badConfig

/-- RELEASE of one unit by a holder: its earliest unit returns, carry on the cell ends, the next waiter is granted (R108,
R109, R114). -/
def Dev.releaseUnit (d : Dev) (now n ctx : Nat) (x : Cell) : Dev :=
  let h := d.holds ctx
  match h.find? fun e => e.1 == n with
  | none => d
  | some e =>
    let d1 := (d.setHolds ctx (h.erase e)).setCell n { x with count := min x.target (x.count + 1) }
    (d1.endCarry fun y => y.cell == n && y.holder == ctx).grantUnits now n x.waiters.length

/-- The effect of an operation whose checks passed (R108, R109, R111). -/
def Dev.cellRun (d : Dev) (now : Nat) (who : CellWho) (ctx op n arg dl : Nat) (k : Key) (x : Cell) : Dev :=
  if op = 1 ∨ op = 2 then
    (if 16 ≤ (d.holds ctx).length then d.cellDone who .busy x.count
     else if 0 < x.count then (let d1 := d.takeUnit n ctx k; d1.cellDone who .ok (d1.cellCount n))
     else if op = 2 then d.cellDone who .busy x.count
     else (d.enqueue now n who ctx op arg dl k).startCarry now n ctx)
  else if op = 3 then
    (if (d.holds ctx).any fun e => e.1 == n then
       (let d1 := d.releaseUnit now n ctx x; d1.cellDone who .ok (d1.cellCount n))
     else d.cellDone who .denied x.count)
  else if op = 4 then (let d1 := d.arriveAt now n x; d1.cellDone who .ok (d1.cellCount n))
  else if op = 5 then
    (let d1 := d.arriveAt now n x
     if x.target ≤ x.count + 1 then d1.cellDone who .ok (d1.cellCount n) else d1.enqueue now n who ctx op arg dl k)
  else if op = 6 then (let d1 := ({ d with cells := tmod d.cells n fun y => { y with flagKey := some k } }).flagSet now n arg; d1.cellDone who .ok (d1.cellCount n))
  else if op = 7 then
    (let d1 := d.setCell n { x with count := x.count - (x.count &&& arg) }; d1.cellDone who .ok (d1.cellCount n))
  else if op = 8 ∨ op = 9 then
    (if flagMet op x.count arg then d.cellDone who .ok x.count else d.enqueue now n who ctx op arg dl k)
  else d.cellDone who .ok x.count

/-- One operation on a cell (R108). -/
def Dev.cellOp (d : Dev) (now : Nat) (who : CellWho) (ctx op n arg rsvd dl : Nat) (k : Key) : Dev :=
  match d.cellFail ctx op n arg rsvd with
  | some st => d.cellDone who st (d.cellCount n)
  | none => match tget d.cells n with
    | some x => d.cellRun now who ctx op n arg dl k x
    | none => d

/-- A write to RDV_PORTn_OP (R110): refused with BUSY while an operation is pending. -/
def Dev.portOp (d : Dev) (now n op cell arg rsvd : Nat) : Dev :=
  let r := r1 .rdvPortRes n
  match d.portCtx n with
  | none => { d with bus := .accessFault }
  | some ctx =>
    if d.f r F.rdvPortRes.STATE = 1 then d.sf r F.rdvPortRes.REFUSED 1
    else
      let p := d.draw (0x0700 + n) now
      let d1 := ((p.2.sf r F.rdvPortRes.STATE 1).sf r F.rdvPortRes.STATUS 0).sf r F.rdvPortRes.VALUE 0
      d1.cellOp now (.port n) ctx op cell arg rsvd (d1.rn (r1 .rdvPortDl n)) p.1

/-- A write of a raw value to RDV_PORTn_OP. -/
def Dev.portWrite (d : Dev) (now n v : Nat) : Dev :=
  d.portOp now n (bits v 54 4) (bits v 37 17) (bits v 0 32) (bits v 32 5 + 32 * bits v 58 4 + 512 * bits v 62 2)

/-- One of the ten operations as a command (R108, R109): by a software port or by a stage of a running context. -/
def cellCommand (t : Nat) (via : CellVia) (op cell arg rsvd : Nat) (s : State) : Host.Outcome State Fault Refusal :=
  match via with
  | .port c n => s.regAccess t c (r1 .rdvPortOp n) .write fun now d =>
      if n < 64 then d.portOp now n op (cell % 2 ^ 17) (arg % 2 ^ 32) rsvd else { d with bus := .accessFault }
  | .stage ctx dl => s.run t fun now d =>
      if d.ctxState ctx = 2 ∧ d.on 154 then
        (let p := d.draw (0x1000 + ctx) now
         p.2.cellOp now (.stage ctx) ctx op cell (arg % 2 ^ 32) 0 dl p.1)
      else d

/-- ACQUIRE (R108, R111, R113). -/
def execAcquire (t : Nat) (via : CellVia) (cell arg rsvd : Nat) (s : State) := cellCommand t via 1 cell arg rsvd s

/-- TRY_ACQUIRE (R108). -/
def execTryAcquire (t : Nat) (via : CellVia) (cell arg rsvd : Nat) (s : State) := cellCommand t via 2 cell arg rsvd s

/-- CELL_RELEASE (R108, R109, R114). -/
def execCellRelease (t : Nat) (via : CellVia) (cell arg rsvd : Nat) (s : State) := cellCommand t via 3 cell arg rsvd s

/-- ARRIVE (R108). -/
def execArrive (t : Nat) (via : CellVia) (cell arg rsvd : Nat) (s : State) := cellCommand t via 4 cell arg rsvd s

/-- ARRIVE_WAIT (R108, R109). -/
def execArriveWait (t : Nat) (via : CellVia) (cell arg rsvd : Nat) (s : State) := cellCommand t via 5 cell arg rsvd s

/-- FLAG_SET (R108). -/
def execFlagSet (t : Nat) (via : CellVia) (cell arg rsvd : Nat) (s : State) := cellCommand t via 6 cell arg rsvd s

/-- FLAG_CLEAR (R108). -/
def execFlagClear (t : Nat) (via : CellVia) (cell arg rsvd : Nat) (s : State) := cellCommand t via 7 cell arg rsvd s

/-- WAIT_ANY (R108, R109). -/
def execWaitAny (t : Nat) (via : CellVia) (cell arg rsvd : Nat) (s : State) := cellCommand t via 8 cell arg rsvd s

/-- WAIT_ALL (R108, R109). -/
def execWaitAll (t : Nat) (via : CellVia) (cell arg rsvd : Nat) (s : State) := cellCommand t via 9 cell arg rsvd s

/-- READ (R108). -/
def execRead (t : Nat) (via : CellVia) (cell arg rsvd : Nat) (s : State) := cellCommand t via 10 cell arg rsvd s

/-- A read of RDV_PORTn_RES (R110): the result, then STATE from done to idle, and REFUSED clears. -/
def Dev.readPortRes (d : Dev) (n : Nat) : Dev :=
  let r := r1 .rdvPortRes n
  match d.portCtx n with
  | none => { d with bus := .accessFault }
  | some _ =>
    let d1 := { d with bus := .data (d.rn r) }.sf r F.rdvPortRes.REFUSED 0
    if d.f r F.rdvPortRes.STATE = 2 then d1.sf r F.rdvPortRes.STATE 0 else d1

/-- RDV_RESULT_READ (R110): initiator class c reads RDV_PORTn_RES. -/
def execRdvResultRead (t c n : Nat) (s : State) : Host.Outcome State Fault Refusal :=
  s.regAccess t c (r1 .rdvPortRes n) .read fun _ d => if n < 64 then d.readPortRes n else { d with bus := .accessFault }

/-- A rendezvous wait expires: EXPIRED, and carry that it started ends (R109, R115). -/
def Dev.expireCellWait (d : Dev) (now n id : Nat) : Dev :=
  match tget d.cells n with
  | none => d
  | some x =>
    match x.waiters.find? fun w => w.wait == some id with
    | some w => (d.unqueue n w).waiterDone now w .expired x.count
    | none => d

/-- A cell becomes BROKEN (R101, R115): every waiter completes with BROKEN, its units are no longer held. -/
def Dev.breakCell (d : Dev) (now n : Nat) : Dev :=
  match tget d.cells n with
  | none => d
  | some x =>
    let d1 := (d.setCell n { x with broken := true }).completeWaiters now n (fun _ => true) .broken
    let d2 := { d1 with fab := { d1.fab with ctxs := tmap d1.fab.ctxs fun _ c => { c with held := c.held.filter fun h => h.1 != n } } }
    d2.endCarry fun y => y.cell == n

/-- A port is released (R110): a pending operation is withdrawn and the port's registers return to their reset values. -/
def Dev.releasePort (d : Dev) (n : Nat) : Dev :=
  let d1 := d.cells.foldl (fun d e => e.2.waiters.foldl (fun d w =>
    if w.who = .port n then (d.unqueue e.1 w).dropWaitId w.wait else d) d) d
  ((d1.wn (r1 .rdvPortOp n) 0).wn (r1 .rdvPortDl n) 0).wn (r1 .rdvPortRes n) 0

/-- Allocate a cell at the lowest free number (R107). -/
def Dev.newCell (d : Dev) (x : Cell) : Option (Nat × Dev) :=
  match lowest 131072 fun n => !thas d.cells n with
  | some n => some (n, d.setCell n x)
  | none => none

/-- Free a cell (R107): whatever waits on it completes with BROKEN first. -/
def Dev.freeCell (d : Dev) (now n : Nat) : Dev :=
  let d1 := d.breakCell now n
  { d1 with cells := tdel d1.cells n }

end Sys2Proof.Machine
end

