-- ==== Sys2Proof/Machine/Cue.lean ====
section
/-! DEFINITION. The cue and capture unit: firing, pins and pulses, arming, stamps (R49 to R52). -/

namespace Sys2Proof.Machine

/-- Channels 0 to 3 run in the early domain, the others with the main domains (R52). -/
def Dev.chanRuns (d : Dev) (n : Nat) : Bool := if n < 4 then d.earlyOn else d.mainOn

/-- The base level of a CUE_OUT pin (R50). -/
def Dev.pinBase (d : Dev) (p : Nat) : Bool := tgetD d.cue.base p false

/-- The level at a CUE_OUT pin: a running pulse's, else the base level. -/
def Dev.pinLevel (d : Dev) (p : Nat) : Bool :=
  match d.cue.pulses.find? fun e => e.2.pin == p with
  | some e => e.2.level
  | none => d.pinBase p

/-- The pin action of a fire (R50, PIN_ACT). -/
def Dev.pinAct (d : Dev) (now n : Nat) : Dev :=
  let r := r1 .cueChCfg n
  let p := d.f r F.cueChCfg.PIN
  let setBase (b : Bool) : Dev := { d with cue := { d.cue with base := tset d.cue.base p b } }
  match d.f r F.cueChCfg.PIN_ACT with
  | 0 => setBase true
  | 1 => setBase false
  | 2 => setBase !(d.pinBase p)
  | _ =>
    let w := (d.f r F.cueChCfg.PULSE_W + 1) * 16
    let level := match tget d.cue.pulses n with
      | some x => if x.pin = p then x.level else !(d.pinBase p)
      | none => !(d.pinBase p)
    { d with cue := { d.cue with pulses := tset d.cue.pulses n ({ pin := p, level := level, endAt := now + w } : Pulse) } }

/-- LE_EARLY.STATE, and whether the early holding service runs (R340). -/
def Dev.earlyState (d : Dev) : Nat := d.f (r0 .leEarly) F.leEarly.STATE
def Dev.earlyRuns (d : Dev) : Bool := decide (2 ≤ d.earlyState) && decide (d.earlyState ≤ 5)

/-- Whether a channel's fire reaches a trigger target: engine 0 ticks from channel 0 only while the early service runs (R315, R340). -/
def Dev.triggers (d : Dev) (n trig : Nat) : Bool := trig != 0 && (trig != 3 || n == 0 || !d.earlyRuns)

/-- The DT at which a due channel fires (R49, R52): the first one at or above its TIME, counted from the write since which
TIME stands. -/
def Dev.fireDt (d : Dev) (now n : Nat) : Nat := min now (max (d.rn (r1 .cueChTime n)) (tgetD d.cue.since n 0))

/-- The channel's TIME stands from a write's DT (R52). -/
def Dev.timeSince (d : Dev) (now n : Nat) : Dev := { d with cue := { d.cue with since := tset d.cue.since n now } }

/-- One fire of a channel at its fire DT (R49): the fire record, FIRED, the interrupt, the internal trigger, the pin; a periodic channel
with a PERIOD of 64 or more advances TIME, any other clears ARM.  A reserved target never fires. -/
def Dev.fireCue (d : Dev) (now n : Nat) : Dev :=
  let r := r1 .cueChCfg n
  let trig := d.f r F.cueChCfg.TRIG
  if 0x17 < trig then d
  else
    let d1 := ((d.sf (r1 .cueChStat n) F.cueChStat.FIRED 1).raise (32 + n)).emit (0x0030 + n) now .cueFire false [n, trig, now]
    let d2 := if d1.fb r F.cueChCfg.PIN_EN then d1.pinAct now n else d1
    let d3 := if d.triggers n trig = false then d2 else { d2 with cue := { d2.cue with trig := tset d2.cue.trig trig now } }
    let period := d3.f (r1 .cueChPeriod n) F.cueChPeriod.PERIOD
    if d3.fb r F.cueChCfg.PERIODIC ∧ 64 ≤ period then d3.wn (r1 .cueChTime n) ((d3.rn (r1 .cueChTime n) + period) % 2 ^ 64)
    else d3.sf r F.cueChCfg.ARM 0

/-- Whether a channel's fire is due (R49). -/
def Dev.cueDue (d : Dev) (now n : Nat) : Bool :=
  decide (n < 64) && d.chanRuns n && d.fb (r1 .cueChCfg n) F.cueChCfg.ARM && decide (d.rn (r1 .cueChTime n) ≤ now)

/-- What arming a channel does beside setting ARM (R52): SKIPPED and REBASED clear; a TIME before the write plus 16 ns sets
PAST, and a periodic channel skips whole periods. -/
def Dev.armCue (d : Dev) (now n : Nat) : Dev :=
  let st := r1 .cueChStat n
  let d1 := (((d.timeSince now n).sf (r1 .cueChCfg n) F.cueChCfg.ARM 1).sf st F.cueChStat.SKIPPED 0).sf st F.cueChStat.REBASED 0
  let time := d.rn (r1 .cueChTime n)
  let period := d.f (r1 .cueChPeriod n) F.cueChPeriod.PERIOD
  if now + 16 ≤ time then d1
  else
    let d2 := d1.sf st F.cueChStat.PAST 1
    if d2.fb (r1 .cueChCfg n) F.cueChCfg.PERIODIC ∧ 64 ≤ period then
      (let k := (now + 16 - time + period - 1) / period
       (d2.wn (r1 .cueChTime n) ((time + k * period) % 2 ^ 64)).sf st F.cueChStat.SKIPPED (min 65535 k))
    else d2

/-- Whether arming a channel makes it fire at once: a one-shot with a TIME before the write's DT plus 16 ns (R52). -/
def Dev.firesAtOnce (d : Dev) (now n : Nat) : Bool :=
  d.chanRuns n && decide (d.rn (r1 .cueChTime n) < now + 16) &&
    !(d.fb (r1 .cueChCfg n) F.cueChCfg.PERIODIC && decide (64 ≤ d.f (r1 .cueChPeriod n) F.cueChPeriod.PERIOD))

/-- CUE_PULSE_END (R50): the pin returns to its base level. -/
def execCuePulseEnd (t n : Nat) (s : State) : Host.Outcome State Fault Refusal :=
  s.run t fun now d =>
    match tget d.cue.pulses n with
    | some p =>
      if p.endAt ≤ now then
        { d with cue := { d.cue with pulses := tdel d.cue.pulses n } }
      else d
    | none => d

/-- A channel returns to its reset configuration: disarmed, its pulse over (R366). -/
def Dev.resetCue (d : Dev) (n : Nat) : Dev :=
  let d1 := ((d.wn (r1 .cueChCfg n) 0).wn (r1 .cueChTime n) 0).wn (r1 .cueChPeriod n) 0
  { d1 with cue := { d1.cue with pulses := tdel d1.cue.pulses n, since := tdel d1.cue.since n } }

/-- A CUE_OUT pin takes its reset state: low, with no pulse (R50, R366). -/
def Dev.resetPin (d : Dev) (p : Nat) : Dev :=
  { d with cue := { d.cue with base := tdel d.cue.base p, pulses := d.cue.pulses.filter fun e => e.2.pin != p } }

/-- Stamps a capture channel's registers hold. -/
def Dev.heldOf (d : Dev) (n : Nat) : List (Nat × Nat) := tgetD d.cue.held n []

/-- A capture channel's registers follow its held stamps: the oldest in DATA and CNT, LEVEL (R51). -/
def Dev.syncCap (d : Dev) (n : Nat) : Dev :=
  let h := d.heldOf n
  ((d.wn (r1 .capChData n) ((h.headD (0, 0)).1)).wn (r1 .capChCnt n) ((h.headD (0, 0)).2)).sf
    (r1 .capChStat n) F.capChStat.LEVEL h.length

/-- A stamp of a capture channel, delivered at now (R51): its record with the channel's next counter value goes to every block that
consumes the channel; the registers hold 16, a further one is discarded, counted and flagged.  A stamp from a synchroniser or an
elastic queue is uncertain (R58). -/
def Dev.capture (d : Dev) (now n stamp : Nat) (rising unc : Bool) : Dev :=
  let cnt := d.cntOf (0x0010 + n)
  let d0 := d.emit (0x0010 + n) stamp .capture unc [n, stamp, b2n rising]
  let d1 := { d0 with cue := { d0.cue with out := d0.cue.out ++ [({ chan := n, stamp := stamp, cnt := cnt, unc := unc, rising := rising, at_ := now } : CapOut)] } }
  let h := d1.heldOf n
  if h.length < 16 then
    (({ d1 with cue := { d1.cue with held := tset d1.cue.held n (h ++ [(stamp, cnt)]) } }).syncCap n).raise (96 + n)
  else ((d1.incSat (r1 .capChStat n) F.capChStat.LOST).sf (r1 .capChStat n) F.capChStat.OVF 1).raise (96 + n)

/-- Whether a channel captures an edge of a source: enabled, the source selected and not reserved, the edge selected, the
input stable for FILTER ns (R51, CAP_CHn_CFG).  DESIGN CHOICE, unsafe (log entry 61): the stable time is the one of the level before the
edge, which the command gives, and an internal source counts as stable for 255 ns. -/
def Dev.captures (d : Dev) (n src : Nat) (rising : Bool) (stable : Nat) : Bool :=
  let r := r1 .capChCfg n
  let e := d.f r F.capChCfg.EDGE
  decide (n < 32) && d.chanRuns n && d.fb r F.capChCfg.EN && d.f r F.capChCfg.SRC == src && decide (src ≤ 0x24) &&
    (if rising then e == 0 || e == 2 else e == 1 || e == 2) && decide (d.f r F.capChCfg.FILTER ≤ stable)

/-- Every capture channel that selects a source stamps its edge (R51). -/
def Dev.captureAll (d : Dev) (now src : Nat) (rising : Bool) (stamp : Nat) : Dev :=
  (List.range 32).foldl (fun d n => if d.captures n src rising 255 then d.capture now n stamp rising false else d) d

/-- A read of CAP_CHn_DATA returns the oldest held stamp and removes it (R51). -/
def Dev.capRead (d : Dev) (n : Nat) : Dev :=
  match d.heldOf n with
  | [] => { d with bus := .data 0 }
  | x :: rest => ({ d with bus := .data x.1, cue := { d.cue with held := tset d.cue.held n rest } }).syncCap n

/-- CAPTURE_DATA_READ (R51): initiator class c reads CAP_CHn_DATA. -/
def execCaptureDataRead (t c n : Nat) (s : State) : Host.Outcome State Fault Refusal :=
  s.regAccess t c (r1 .capChData n) .read fun _ d => if n < 32 then d.capRead n else { d with bus := .accessFault }

/-- A capture channel returns to its reset configuration (R366). -/
def Dev.resetCap (d : Dev) (n : Nat) : Dev := d.wn (r1 .capChCfg n) 0

end Sys2Proof.Machine
end

