-- ==== Sys2Proof/Machine/Operands.lean ====
section
/-! DEFINITION. Number formats: decoding, exact arithmetic, rounding, conversion, block scales and packing (R14, R144 to
R175). -/

namespace Sys2Proof.Machine

/-- A value: NaN, a signed infinity, or ± m × 2^e with zero signed. -/
inductive FV where
  | nan
  | inf (neg : Bool)
  | fin (neg : Bool) (m : Nat) (e : Int)
  deriving DecidableEq, Repr

/-- A floating-point element layout: exponent and mantissa bits, bias, and which encodings are special (0 none, 1 as
IEEE, 2 only NaN at all ones) (R144). -/
structure Layout where
  eb : Nat
  mb : Nat
  bias : Nat
  special : Nat
  deriving DecidableEq, Repr

/-- The floating element of a format code (R14, R144, R145). -/
def layoutOf (fmt : Nat) : Option Layout :=
  if fmt = 0 then some ⟨8, 23, 127, 1⟩
  else if fmt = 1 then some ⟨8, 7, 127, 1⟩
  else if fmt = 2 then some ⟨5, 10, 15, 1⟩
  else if fmt = 3 ∨ fmt = 5 then some ⟨4, 3, 7, 2⟩
  else if fmt = 4 ∨ fmt = 6 then some ⟨5, 2, 15, 1⟩
  else if fmt = 7 then some ⟨3, 2, 3, 0⟩
  else if fmt = 8 then some ⟨2, 3, 1, 0⟩
  else if fmt = 9 then some ⟨2, 1, 1, 0⟩
  else none

/-- Format codes that are assigned (R14). -/
def fmtAssigned (fmt : Nat) : Bool := decide (fmt ≤ 0x0E)

/-- Bits of an element of a format (R145, R147). -/
def elemBits (fmt : Nat) : Nat :=
  if fmt = 0 ∨ fmt = 0x0E then 32
  else if fmt = 1 ∨ fmt = 2 then 16
  else if fmt = 7 ∨ fmt = 8 then 6
  else if fmt = 9 ∨ fmt = 0x0C ∨ fmt = 0x0D then 4
  else 8

/-- Whether a format has an E8M0 scale per block of 32 (R145). -/
def hasE8M0 (fmt : Nat) : Bool := (decide (5 ≤ fmt) && decide (fmt ≤ 0x0A)) || fmt == 0x0D

/-- Whether a format is block-scaled along DIM2 (R149). -/
def blockScaled (fmt : Nat) : Bool := hasE8M0 fmt || fmt == 0x0C

/-- A floating element's value (R144). -/
def Layout.decode (l : Layout) (v : Nat) : FV :=
  let s := bit v (l.eb + l.mb)
  let ex := bits v l.mb l.eb
  let m := bits v 0 l.mb
  if l.special = 1 ∧ ex = 2 ^ l.eb - 1 then (if m = 0 then .inf s else .nan)
  else if l.special = 2 ∧ ex = 2 ^ l.eb - 1 ∧ m = 2 ^ l.mb - 1 then .nan
  else if ex = 0 then .fin s m (1 - l.bias - l.mb)
  else .fin s (2 ^ l.mb + m) ((ex : Int) - l.bias - l.mb)

/-- √2 × 2^100, rounded down, with its lowest bit set so that no rounding sees it as exact (R150). -/
def sqrt2bits : Nat := Nat.sqrt (2 ^ 201) ||| 1

/-- An L4 element's value (R150, R151). -/
def decodeL4 (v : Nat) : FV :=
  let m := v % 8
  if m = 0 then .fin false 0 0
  else if m % 2 = 1 then .fin (bit v 3) 1 (((m : Int) - 7) / 2)
  else .fin (bit v 3) sqrt2bits (((m : Int) - 8) / 2 - 100)

/-- An integer as a value. -/
def FV.ofInt (i : Int) (e : Int) : FV := .fin (decide (i < 0)) i.natAbs e

/-- An element's value before its scale (R144 to R151). -/
def elemVal (fmt v : Nat) : FV :=
  match layoutOf fmt with
  | some l => l.decode v
  | none =>
    if fmt = 0x0A then .ofInt (sext 8 v) (-6)
    else if fmt = 0x0B then .ofInt (sext 8 v) 0
    else if fmt = 0x0C then .ofInt (sext 4 v) 0
    else if fmt = 0x0D then decodeL4 v
    else .ofInt (sext 32 v) 0

/-- An E8M0 scale's value (R145). -/
def e8m0 (e : Nat) : FV := if e = 0xFF then .nan else .fin false 1 ((e : Int) - 127)

/-- Exact negation. -/
def FV.negate : FV → FV
  | .nan => .nan
  | .inf s => .inf (!s)
  | .fin s m e => .fin (!s) m e

/-- Exact product (R154, R158). -/
def FV.mul : FV → FV → FV
  | .nan, _ => .nan
  | _, .nan => .nan
  | .inf s, .inf t => .inf (s != t)
  | .inf s, .fin t m _ => if m = 0 then .nan else .inf (s != t)
  | .fin s m _, .inf t => if m = 0 then .nan else .inf (s != t)
  | .fin s m e, .fin t n f => .fin (s != t) (m * n) (e + f)

/-- A finite value as an integer multiple of 2^q, for q at most its exponent. -/
def scaledInt (s : Bool) (m : Nat) (e q : Int) : Int :=
  let v : Int := (m * 2 ^ (e - q).toNat : Nat)
  if s then -v else v

/-- Exact sum (R158). -/
def FV.add : FV → FV → FV
  | .nan, _ => .nan
  | _, .nan => .nan
  | .inf s, .inf t => if s = t then .inf s else .nan
  | .inf s, .fin _ _ _ => .inf s
  | .fin _ _ _, .inf t => .inf t
  | .fin s m e, .fin t n f =>
    let q := min e f
    let v := scaledInt s m e q + scaledInt t n f q
    if v = 0 then .fin (s && t) 0 0 else .ofInt v q

/-- Number of significant bits minus one: the binade of m × 2^e. -/
def binade (m : Nat) (e : Int) : Int := (Nat.log2 m : Int) + e

/-- m × 2^e in units of 2^q: to nearest even, or stochastically by 16 random bits (R164, R170). -/
def quantise (m : Nat) (e q : Int) (rnd : Option Nat) : Nat :=
  if q ≤ e then m * 2 ^ (e - q).toNat
  else
    let s := (q - e).toNat
    match rnd with
    | some r => (m * 2 ^ 16 + r * 2 ^ s) / 2 ^ (16 + s)
    | none =>
      let f := m / 2 ^ s
      let rem := m % 2 ^ s
      if 2 * rem < 2 ^ s ∨ (2 * rem = 2 ^ s ∧ f % 2 = 0) then f else f + 1

/-- A value rounded to nearest even at a number of significant bits. -/
def FV.roundSig (p : Nat) : FV → FV
  | .fin s m e => if m = 0 then .fin s 0 0 else
      let q := binade m e - (p : Int) + 1
      if q ≤ e then .fin s m e else .fin s (quantise m e q none) q
  | x => x

/-- The largest biased exponent of a finite value. -/
def Layout.topExp (l : Layout) : Nat := if l.special = 1 then 2 ^ l.eb - 2 else 2 ^ l.eb - 1

/-- The mantissa field of the largest finite value. -/
def Layout.topMant (l : Layout) : Nat := if l.special = 2 then 2 ^ l.mb - 2 else 2 ^ l.mb - 1

/-- Assemble an element. -/
def Layout.pack (l : Layout) (s : Bool) (ex m : Nat) : Nat := b2n s * 2 ^ (l.eb + l.mb) + ex * 2 ^ l.mb + m

/-- The largest finite element with a sign. -/
def Layout.top (l : Layout) (s : Bool) : Nat := l.pack s l.topExp l.topMant

/-- The canonical NaN of a format (R168); 0 where the layout has none. -/
def Layout.canonNan (l : Layout) : Nat :=
  if l.special = 1 then l.pack false (2 ^ l.eb - 1) (2 ^ (l.mb - 1))
  else if l.special = 2 then l.pack false (2 ^ l.eb - 1) (2 ^ l.mb - 1) else 0

/-- What a finite overflow or an infinity becomes (R167). -/
def Layout.overflow (l : Layout) (s sat : Bool) : Nat :=
  if sat ∨ l.special = 0 then l.top s
  else if l.special = 1 then l.pack s (2 ^ l.eb - 1) 0 else l.canonNan

/-- Round a value into a floating element (R164, R167, R168, R170). -/
def Layout.encode (l : Layout) (rnd : Option Nat) (sat : Bool) : FV → Nat
  | .nan => l.canonNan
  | .inf s => l.overflow s sat
  | .fin s m e =>
    if m = 0 then l.pack s 0 0
    else
      let q0 := max (binade m e) (1 - (l.bias : Int)) - l.mb
      let n0 := quantise m e q0 rnd
      let n := if 2 ^ (l.mb + 1) ≤ n0 then n0 / 2 else n0
      let q := if 2 ^ (l.mb + 1) ≤ n0 then q0 + 1 else q0
      if n < 2 ^ l.mb then l.pack s 0 n
      else
        let ex := (q + l.mb + l.bias).toNat
        let mant := n - 2 ^ l.mb
        if l.topExp < ex ∨ (ex = l.topExp ∧ l.topMant < mant) then l.overflow s sat else l.pack s ex mant

/-- The layout of FP32. -/
def fp32 : Layout := ⟨8, 23, 127, 1⟩

/-- FP32 bits to a value. -/
def dec32 (v : Nat) : FV := fp32.decode v

/-- A value to FP32 bits by rounding to nearest even (R161). -/
def enc32 (x : FV) : Nat := fp32.encode none false x

/-- IEEE binary32 sum, product and fused multiply-add of values (R161). -/
def add32 (x y : FV) : FV := dec32 (enc32 (x.add y))
def mul32 (x y : FV) : FV := dec32 (enc32 (x.mul y))
def fma32 (x y z : FV) : FV := dec32 (enc32 ((x.mul y).add z))

/-- Compare finite or infinite values: x < y. -/
def FV.lt (x y : FV) : Bool :=
  match x, y with
  | .nan, _ => false
  | _, .nan => false
  | .inf s, .inf t => s && !t
  | .inf s, .fin _ _ _ => s
  | .fin _ _ _, .inf t => !t
  | .fin s m e, .fin t n f =>
    let q := min e f
    decide (scaledInt s m e q < scaledInt t n f q) || (m == 0 && n == 0 && s && !t)

/-- Maximum and minimum (R162): the other operand beside one NaN, −0 below +0. -/
def FV.max (x y : FV) : FV :=
  match x, y with
  | .nan, b => b
  | a, .nan => a
  | a, b => if a.lt b then b else a
def FV.min (x y : FV) : FV :=
  match x, y with
  | .nan, b => b
  | a, .nan => a
  | a, b => if b.lt a then b else a

/-- Magnitude. -/
def FV.abs : FV → FV
  | .fin _ m e => .fin false m e
  | .inf _ => .inf false
  | .nan => .nan

/-- An integer rounded to nearest even from a finite value, or stochastically (R164, R170). -/
def roundInt (rnd : Option Nat) (s : Bool) (m : Nat) (e : Int) : Int :=
  let v : Int := (quantise m e 0 rnd : Nat)
  if s then -v else v

/-- A value to a symmetric integer format (R146, R167): NaN gives 0. -/
def toIntFmt (top : Nat) (rnd : Option Nat) : FV → Int
  | .nan => 0
  | .inf s => if s then -(top : Int) else top
  | .fin s m e => clampInt (-(top : Int)) top (roundInt rnd s m e)

/-- A value to INT32 (R145, R167): −2^31 is in its range, and what lies beyond the range becomes ±(2^31 − 1). -/
def toInt32 (rnd : Option Nat) : FV → Int
  | .fin s m e => if roundInt rnd s m e = -(2 ^ 31) then -(2 ^ 31) else toIntFmt (2 ^ 31 - 1) rnd (.fin s m e)
  | x => toIntFmt (2 ^ 31 - 1) rnd x

/-- A value to L4 against its scale (R166, R167): t is the value over the scale.  m is the nearest code in the log
domain, found by comparing t^4 with odd powers of 2 over 2. -/
def toL4 : FV → Nat
  | .nan => 0
  | .inf s => b2n s * 8 + 7
  | .fin s m e =>
    let ge (k : Int) : Bool := -- t^4 ≥ 2^k
      if 4 * e < k then decide (2 ^ (k - 4 * e).toNat ≤ m ^ 4) else decide (2 ^ 0 ≤ m ^ 4 * 2 ^ (4 * e - k).toNat)
    if ge (-16) = false then 0
    else
      -- round(2 log2 t) + 7 ≥ j iff 2 log2 t ≥ j − 7 − 1/2 iff t^4 ≥ 2^(2j − 15)
      let code := ((List.range 6).filter fun i => ge (2 * ((i : Int) + 2) - 15)).length + 1
      b2n s * 8 + code

/-- Divide a value by a power of two. -/
def FV.shift (k : Int) : FV → FV
  | .fin s m e => .fin s m (e + k)
  | x => x

/-- Quotient of two finite values, to 100 significant bits with a sticky bit: enough to round it once to any format. -/
def FV.div : FV → FV → FV
  | .nan, _ => .nan
  | _, .nan => .nan
  | .inf _, .inf _ => .nan
  | .inf s, .fin t _ _ => .inf (s != t)
  | .fin s _ _, .inf t => .fin (s != t) 0 0
  | .fin s m e, .fin t n f =>
    if n = 0 then (if m = 0 then .nan else .inf (s != t))
    else if m = 0 then .fin (s != t) 0 0
    else
      let k := 128 + Nat.log2 n
      let a := m * 2 ^ k
      .fin (s != t) (if a % n = 0 then a / n else (a / n) ||| 1) (e - f - k)

/-- The largest finite magnitude of a list; zero where there is none (R165). -/
def amax (vs : List FV) : FV :=
  vs.foldl (fun a v => match v with
    | .fin _ m e => a.max (.fin false m e)
    | _ => a) (.fin false 0 0)

/-- floor and ceil of log2 of a positive finite value. -/
def floorLog2 : FV → Int
  | .fin _ m e => binade m e
  | _ => 0
def ceilLog2 : FV → Int
  | .fin _ m e => if 2 ^ Nat.log2 m = m then binade m e else binade m e + 1
  | _ => 0

/-- emax of an MX format (R165). -/
def emaxOf (fmt : Nat) : Int :=
  if fmt = 5 then 8 else if fmt = 6 then 15 else if fmt = 7 then 4 else if fmt = 0x0A then 0 else 2

/-- Whether a value is a finite zero. -/
def FV.isZero : FV → Bool
  | .fin _ m _ => m == 0
  | _ => false

/-- The E8M0 scale a conversion chooses for a block (R165, R167): 0xFF for a NaN, or for an infinity with SAT = 0. -/
def chooseE8M0 (fmt : Nat) (sat : Bool) (vs : List FV) : Nat :=
  if vs.any (fun v => v == .nan) ∧ (fmt = 0x0D ∨ 7 ≤ fmt) then 0xFF
  else if (vs.any fun v => v == .inf true || v == .inf false) ∧ sat = false ∧ 7 ≤ fmt then 0xFF
  else
    let a := amax vs
    if a.isZero then 0
    else
      let x := if fmt = 0x0D then ceilLog2 a else floorLog2 a - emaxOf fmt
      (clampInt (-127) 127 x + 127).toNat

/-- FP16 rounding toward +∞ of a positive finite value (R165). -/
def fp16Up : FV → Nat
  | .fin _ m e =>
    let l : Layout := ⟨5, 10, 15, 1⟩
    let q := max (binade m e) (-14) - 10
    let n := if q ≤ e then m * 2 ^ (e - q).toNat else (m + 2 ^ (q - e).toNat - 1) / 2 ^ (q - e).toNat
    l.encode none false (.fin false n q)
  | _ => 0x3C00

/-- Encode one element against its scale (R164 to R170). -/
def encodeElem (fmt : Nat) (rnd : Option Nat) (sat : Bool) (x : FV) : Nat :=
  match layoutOf fmt with
  | some l => l.encode rnd sat x
  | none =>
    if fmt = 0x0A then wrapInt 8 (toIntFmt 127 rnd (x.shift 6))
    else if fmt = 0x0B then wrapInt 8 (toIntFmt 127 rnd x)
    else if fmt = 0x0C then wrapInt 4 (toIntFmt 7 rnd x)
    else if fmt = 0x0D then toL4 x
    else wrapInt 32 (toInt32 rnd x)

/-- Element index → its packed bits read from a plane (R147). -/
def planeElem (fmt : Nat) (plane : List Byte) (i : Nat) : Nat :=
  let w := elemBits fmt
  if w = 4 then bits (bytesAt plane (i / 2) 1) (4 * (i % 2)) 4
  else if w = 6 then bits (bytesAt plane (i / 4 * 3) 3) (6 * (i % 4)) 6
  else bytesAt plane (i * (w / 8)) (w / 8)

/-- Pack numbers of w bits in order, lowest bits first, into bytes. -/
def packBits (w : Nat) (vs : List Nat) : List Byte :=
  let n := vs.foldr (fun v acc => v % 2 ^ w + acc * 2 ^ w) 0
  leBytes ((vs.length * w + 7) / 8) n

/-- The bytes of an element plane (R147). -/
def packPlane (fmt : Nat) : List Nat → List Byte
  | [] => []
  | a :: b :: c :: e :: rest => packBits (elemBits fmt) [a, b, c, e] ++ packPlane fmt rest
  | vs => packBits (elemBits fmt) vs

/-- Bytes of the element plane of n elements. -/
def planeSize (fmt n : Nat) : Nat := (n * elemBits fmt + 7) / 8

/-- Bytes of the scale plane of n elements with ch channels (R148). -/
def scaleSize (fmt n ch : Nat) : Nat :=
  if hasE8M0 fmt then (n + 31) / 32 else if fmt = 0x0C then (n + 31) / 32 * 2 else if fmt = 0x0B then 4 * ch else 0

/-- Round up to a 64-byte line. -/
def up64 (n : Nat) : Nat := (n + 63) / 64 * 64

/-- One Galois LFSR step: output bit and next state (R171). -/
def lfsrStep (s : Nat) : Nat × Nat := (s % 2, if s % 2 = 1 then (s / 2) ^^^ 0x80200003 else s / 2)

/-- Sixteen steps: the first gives bit 0 (R171). -/
def lfsr16 (s : Nat) : Nat × Nat :=
  (List.range 16).foldl (fun p i => let q := lfsrStep p.2; (p.1 + q.1 * 2 ^ i, q.2)) (0, s)

end Sys2Proof.Machine
end

