-- ==== Sys2Proof/Machine/Objects.lean ====
section
/-! DEFINITION. Memory tiers, objects and their records, space, sluice descriptors and parts (R176 to R197). -/

namespace Sys2Proof.Machine

/-- First address and bytes of a tier (R4, R176). -/
def tierBase (t : Nat) : Nat := if t = 1 then 0x800000000 else if t = 2 then 0x1000000000 else 0
def tierSize (t : Nat) : Nat := if t = 1 then 24 * 2 ^ 30 else if t = 2 then 84 * 2 ^ 30 else if t = 3 then 1016 * 2 ^ 30 else 0

/-- The object table's address in T1, 64 bytes for each index (R179, log entry 20). -/
def objTable : Nat := tierBase 1

/-- A place in plain memory or flash. -/
def flat (t a : Nat) : Loc := { tier := t, addr := a }

/-- Granularity of space in a tier (R178, R179). -/
def tierUnit (t : Nat) : Nat := if t = 3 then 4096 else 64

/-- Round a length up to a tier's granularity. -/
def tierRound (t n : Nat) : Nat := (n + tierUnit t - 1) / tierUnit t * tierUnit t

/-- Space of a tier in use: the object table, mailbox rings, copies, staging and areas the steward took. -/
def Dev.extents (d : Dev) (t : Nat) : List (Nat × Nat) :=
  (if t = 1 then (objTable, 0x400000) ::
      ((List.range 256).filter fun m => d.fb (r1 .mbxBase m) F.mbxBase.EN).map fun m => (d.ring m, 0x8000)
   else []) ++
  (d.slu.objs.flatMap fun e => match tget e.2.copies t with
    | some l => [(l.addr, tierRound t e.2.size)]
    | none => []) ++
  (d.slu.reqs.flatMap fun e => (e.2.stage.toList ++ e.2.parts.filterMap Part.area).filterMap fun s =>
    if s.1.tier = t then some (s.1.addr, tierRound t s.2) else none) ++
  ((d.slu.areas.filter fun a => a.1 == t).map fun a => a.2)

/-- The lowest address of a tier with room for n bytes (log entry 20). -/
def Dev.findSpace (d : Dev) (t n : Nat) : Option Nat :=
  let xs := d.extents t
  let len := tierRound t n
  let ok (a : Nat) : Bool := decide (a + len ≤ tierBase t + tierSize t) &&
    xs.all fun x => decide (a + len ≤ x.1) || decide (x.1 + x.2 ≤ a)
  let cands := tierBase t :: xs.map fun x => (x.1 + x.2 + tierUnit t - 1) / tierUnit t * tierUnit t
  (cands.filter ok).foldl (fun m a => match m with
    | none => some a
    | some b => some (min a b)) none

/-- Take an area of a tier; answers its address. -/
def Dev.takeArea (d : Dev) (t n : Nat) : Option (Nat × Dev) :=
  match d.findSpace t n with
  | some a => some (a, { d with slu := { d.slu with areas := (t, a, tierRound t n) :: d.slu.areas } })
  | none => none

/-- Give an area back. -/
def Dev.dropArea (d : Dev) (t a : Nat) : Dev :=
  { d with slu := { d.slu with areas := d.slu.areas.filter fun x => !(x.1 == t && x.2.1 == a) } }

/-- Bytes of each basin store that a T0 copy can use from its offset on. -/
def Loc.chunk (l : Loc) : Nat := max 64 (0x100000 - l.addr)

/-- Where the store of a logical basin of a context lies: in the fabric, or in the save area while the context is switched out (R98, R185). -/
def Dev.storeOf (d : Dev) (c l : Nat) : Nat :=
  if (d.basin? l).elim false fun b => b.ctx == c then d.storeAddr l
  else match (tgetD d.fab.saved c []).findIdx? fun e => e.1 == l, d.ctx? c with
    | some j, some x => x.saveArea + j * 0x101000
    | _, _ => d.storeAddr l

/-- The stretches of memory that bytes off .. off+n−1 of a place cover: whether flash, address, offset among the n,
length. -/
def Dev.pieces (d : Dev) (l : Loc) (off n : Nat) : List (Bool × Nat × Nat × Nat) :=
  if l.tier = 0 then
    (List.range l.used).filterMap fun i =>
      let lo := max off (i * l.chunk)
      let hi := min (off + n) ((i + 1) * l.chunk)
      if lo < hi then some (false, d.storeOf l.ctx (l.first + i) + l.addr + (lo - i * l.chunk), lo - off, hi - lo) else none
  else [(l.tier == 3, l.addr + off, 0, n)]

/-- Read n bytes of a place as the listed bytes of a stretch. -/
def Dev.locSlice (d : Dev) (l : Loc) (off n : Nat) : Memory :=
  (d.pieces l off n).flatMap fun p =>
    ((if p.1 then d.slu.flash else d.mem).slice p.2.1 p.2.2.2).map fun c => (c.1 + p.2.2.1, c.2)

/-- Write n bytes of a place from the listed bytes of a stretch. -/
def Dev.locPut (d : Dev) (l : Loc) (off n : Nat) (rel : Memory) : Dev :=
  (d.pieces l off n).foldl (fun d p =>
    let part := Memory.slice rel p.2.2.1 p.2.2.2
    if p.1 then { d with slu := { d.slu with flash := d.slu.flash.put p.2.1 p.2.2.2 part } }
    else { d with mem := d.mem.put p.2.1 p.2.2.2 part }) d

/-- Bytes of a place as a list. -/
def Dev.locBytes (d : Dev) (l : Loc) (off n : Nat) : List Byte := Memory.read (d.locSlice l off n) 0 n

/-- The index of an object id (R179). -/
def idIndex (id : Nat) : Nat := id % 65536

/-- A live object by its id: a freed index or a stale tag names none (R179). -/
def Dev.obj? (d : Dev) (id : Nat) : Option Obj :=
  match tget d.slu.objs (idIndex id) with
  | some o => if o.tag = id / 65536 then some o else none
  | none => none

/-- The id of an object. -/
def objId (i : Nat) (o : Obj) : Nat := i + o.tag * 65536

/-- Committed copy of an object in a tier. -/
def Obj.copy (o : Obj) (t : Nat) : Option Loc := tget o.copies t

/-- The highest tier (lowest number) with a committed copy. -/
def Obj.highest (o : Obj) : Nat := (lowest 4 fun t => thas o.copies t).getD o.home

/-- Pins in a tier. -/
def Obj.pinsIn (o : Obj) (t : Nat) : List Nat := (o.pins.filter fun p => p.1 == t).map (·.2)

/-- Needs in a tier. -/
def Obj.needsIn (o : Obj) (t : Nat) : List Nat := (o.needs.filter fun p => p.1 == t).map (·.2)

/-- The T1 copy of an object that is pinned in T1 (R360). -/
def Dev.pinned1 (d : Dev) (id : Nat) : Option (Obj × Loc) :=
  match d.obj? id with
  | some o => match o.copy 1 with
    | some l => if o.pinsIn 1 = [] then none else some (o, l)
    | none => none
  | none => none

/-- An object's record as its 64 bytes (R179). -/
def Obj.record (o : Obj) : List Byte :=
  let res := ((List.range 4).map fun t => b2n (thas o.copies t) * 2 ^ t).sum
  let st := if (List.range o.home).any fun t => thas o.copies t then 2 else 1
  let w0 := st * 2 ^ 28 + o.kind * 2 ^ 27 + b2n o.lock.isSome * 2 ^ 26 + b2n o.dirty * 2 ^ 25 + b2n o.stuck * 2 ^ 24 +
    o.home * 2 ^ 22 + res * 2 ^ 18 + o.tag
  let addr (t : Nat) : Nat := match o.copy t with
    | some l => l.addr
    | none => 0
  let t0 := match o.copy 0 with
    | some l => (l.ctx * 2 ^ 16 + l.first * 2 ^ 8 + l.used % 256, l.addr)
    | none => (0, 0)
  leBytes 4 w0 ++ leBytes 4 0 ++ leBytes 8 o.size ++ leBytes 8 (addr 1) ++ leBytes 8 (addr 2) ++ leBytes 8 (addr 3) ++
    leBytes 4 t0.1 ++ leBytes 4 t0.2 ++ leBytes 2 o.pins.length ++ leBytes 2 (o.needsIn 2).length ++
    leBytes 2 (o.needsIn 1).length ++ leBytes 2 (o.needsIn 0).length ++ leBytes 8 0

/-- The device with an object written, and its record in the table (R179). -/
def Dev.setObj (d : Dev) (i : Nat) (o : Obj) : Dev :=
  { d with slu := { d.slu with objs := tset d.slu.objs i o }, mem := d.mem.write (objTable + 64 * i) o.record }

/-- The device with an object changed. -/
def Dev.modObj (d : Dev) (i : Nat) (f : Obj → Obj) : Dev :=
  match tget d.slu.objs i with
  | some o => d.setObj i (f o)
  | none => d

/-- Allocate an object in its home tier (R179): lowest free index, next reuse tag; none where table or tier is full.  The
copy is filled with zeros. -/
def Dev.newObj (d : Dev) (kind size home creator : Nat) (pool : Bool) : Option (Nat × Dev) :=
  match lowest 65536 (fun i => i != 0 && !thas d.slu.objs i), d.findSpace home size with
  | some i, some a =>
    let tag := (tget d.slu.tags i).elim 0 fun t => (t + 1) % 65536
    let o : Obj := { tag := tag, kind := kind, size := size, home := home, creator := creator, pool := pool,
                     copies := [(home, ({ tier := home, addr := a } : Loc))] }
    let d1 := { d with slu := { d.slu with tags := tset d.slu.tags i tag } }.setObj i o
    some (objId i o, d1.locPut { tier := home, addr := a } 0 size [])
  | _, _ => none

/-- The device with a request changed. -/
def Dev.modReq (d : Dev) (r : Nat) (f : SluReq → SluReq) : Dev := { d with slu := { d.slu with reqs := tmod d.slu.reqs r f } }

/-- Parts of all requests in a state on an engine. -/
def Dev.partsOn (d : Dev) (eng : Nat) (st : PartState) : List (Nat × Part) :=
  d.slu.reqs.flatMap fun e => (e.2.parts.filter fun p => p.engine == eng && p.state == st).map fun p => (e.1, p)

/-- SLU_ENGn_STAT's QUEUED, PARKED and ACTIVE follow the engine. -/
def Dev.syncEngine (d : Dev) (eng : Nat) : Dev :=
  let r := r1 .sluEngStat eng
  ((d.sf r F.sluEngStat.QUEUED (d.partsOn eng .queued).length).sf r F.sluEngStat.PARKED (d.partsOn eng .parked).length).sf r
    F.sluEngStat.ACTIVE (b2n !(d.partsOn eng .running).isEmpty)

/-- Every engine's counts. -/
def Dev.syncEngines (d : Dev) : Dev := (List.range 12).foldl (fun d n => d.syncEngine n) d

/-- The engine the steward queues a part on (log entry 21): fewest queued, lowest number, one of those given. -/
def Dev.pickEngine (d : Dev) (ok : Nat → Bool) : Option Nat :=
  let cands := (List.range 12).filter fun n => ok n && decide ((d.partsOn n .queued).length < 64)
  cands.foldl (fun m n => match m with
    | none => some n
    | some k => if (d.partsOn n .queued).length < (d.partsOn k .queued).length then some n else some k) none

/-- A descriptor from its 64 bytes (chapter 07). -/
def Desc.parse (bs : List Byte) : Desc :=
  let w0 := bytesAt bs 0 4
  let w4 := bytesAt bs 4 4
  let w52 := bytesAt bs 52 4
  let w56 := bytesAt bs 56 8
  { gen := bits w0 30 2, op := bits w0 26 4, srcTier := bits w0 24 2, dstTier := bits w0 22 2, cls := bits w0 18 4,
    ctx := bits w0 8 10, staged := bit w0 7, entryDst := bit w0 6, entrySrc := bit w0 5, req := bits w4 16 16,
    part := bits w4 12 4, nparts := bits w4 8 4 + 1, srcAddr := bits (bytesAt bs 8 8) 0 48,
    dstAddr := bits (bytesAt bs 16 8) 0 48, packHdr := bits (bytesAt bs 24 8) 0 48, first := bytesAt bs 32 4,
    count := bytesAt bs 36 4, deadline := bytesAt bs 40 8, object := bytesAt bs 48 4, cellOp := bits w52 30 2,
    flagBit := bits w52 17 5, cell := bits w52 0 17, spill := bits w56 48 16, crec := bits w56 0 48,
    rsvd := bits w0 0 5 + bits w4 0 8 + bits w52 22 8 + bits (bytesAt bs 8 8) 48 16 + bits (bytesAt bs 16 8) 48 16 +
      bits (bytesAt bs 24 8) 48 16 }

/-- Fields of a pack header (R188). -/
structure Pack where
  gen : Nat
  fmt : Nat
  sparse : Bool
  layout : Nat
  object : Nat
  tiles : Nat
  tileBytes : Nat
  tdim : List Nat
  elemOff : Nat
  scaleOff : Nat
  metaOff : Nat
  payload : Nat
  deriving DecidableEq, Repr

/-- A pack header from its 128 bytes. -/
def Pack.parse (bs : List Byte) : Pack :=
  let w0 := bytesAt bs 0 4
  { gen := bits w0 30 2, fmt := bits w0 25 5, sparse := bit w0 24, layout := bits w0 20 4, object := bytesAt bs 4 4,
    tiles := bytesAt bs 8 4, tileBytes := bytesAt bs 12 4, tdim := [bytesAt bs 32 2, bytesAt bs 34 2, bytesAt bs 36 2],
    elemOff := bytesAt bs 40 4, scaleOff := bytesAt bs 44 4, metaOff := bytesAt bs 48 4, payload := bytesAt bs 56 8 }

/-- Elements and channels of a tile by its layout (R146, R188). -/
def Pack.dense (p : Pack) : Nat :=
  let a := p.tdim.getD 0 0
  let b := p.tdim.getD 1 0
  let c := p.tdim.getD 2 0
  if p.layout = 0 then b * c else if p.layout = 1 then a * c else a * b * c
def Pack.channels (p : Pack) : Nat :=
  if p.layout = 0 then p.tdim.getD 1 0 else if p.layout = 2 then p.tdim.getD 0 0 * p.tdim.getD 1 0 else p.tdim.getD 0 0

/-- The planes of a tile as (offset, length) (R148, R173, R188). -/
def Pack.planes (p : Pack) : List (Nat × Nat) :=
  let n := if p.sparse then p.dense / 2 else p.dense
  [(p.elemOff, planeSize p.fmt n)] ++
    (if scaleSize p.fmt p.dense p.channels = 0 then [] else [(p.scaleOff, scaleSize p.fmt p.dense p.channels)]) ++
    (if p.sparse then [(p.metaOff, (p.dense + 31) / 32 * 4)] else [])

/-- Whether planes neither overrun the tile nor overlap. -/
def planesFit (size : Nat) : List (Nat × Nat) → Bool
  | [] => true
  | p :: rest => decide (p.1 + p.2 ≤ size) && rest.all (fun q => decide (p.1 + p.2 ≤ q.1) || decide (q.1 + q.2 ≤ p.1)) &&
      planesFit size rest

/-- The checks of a pack header (R189).  R189's list does not name GEN: DESIGN CHOICE (log entry 25), a GEN other than 0b00 fails them too, so
the request or command completes with BAD_CONFIG. -/
def packOk (bs : List Byte) : Bool :=
  let p := Pack.parse bs
  p.gen == 0 && fmtAssigned p.fmt && decide (p.layout ≤ 3) && decide (1 ≤ p.tiles) && decide (1 ≤ p.tileBytes) &&
    p.tileBytes % 64 == 0 && decide (p.tileBytes ≤ 1048512) && planesFit p.tileBytes p.planes &&
    (p.sparse || p.metaOff == 0) && p.payload == p.tiles * p.tileBytes && bytesAt bs 120 4 == crc32c (bs.take 120) &&
    bits (bytesAt bs 0 4) 0 20 == 0 && bytesAt bs 38 2 == 0 && bytesAt bs 52 4 == 0 && leNat ((bs.drop 64).take 56) == 0 &&
    bytesAt bs 124 4 == 0

/-- Bytes before the first tile: header and ready bitmap (R188). -/
def packHead (tiles : Nat) : Nat := 128 + (tiles + 511) / 512 * 64

/-- Offset of a tile in its pack. -/
def Pack.tileOff (p : Pack) (i : Nat) : Nat := packHead p.tiles + i * p.tileBytes

/-- Planes of a tile, each as its offset in the pack's tile, its offset in a slot and its bytes: a slot holds them in the same order, each on the
next 64-byte line (R148, log entry 25). -/
def Pack.moves (p : Pack) : List (Nat × Nat × Nat) :=
  let e := planeSize p.fmt (if p.sparse then p.dense / 2 else p.dense)
  let s := scaleSize p.fmt p.dense p.channels
  [(p.elemOff, 0, e)] ++ (if s = 0 then [] else [(p.scaleOff, up64 e, s)]) ++
    (if p.sparse then [(p.metaOff, up64 e + up64 s, (p.dense + 31) / 32 * 4)] else [])

/-- Bytes of a tile's planes in a slot. -/
def Pack.slotLen (p : Pack) : Nat := p.moves.foldl (fun m e => max m (e.2.1 + e.2.2)) 0

/-- A tile of a pack as a slot holds it, and the other way (R148, R188). -/
def Pack.toSlot (p : Pack) (tile : Memory) : Memory :=
  p.moves.foldl (fun m e => m.put e.2.1 e.2.2 (Memory.slice tile e.1 e.2.2)) []
def Pack.ofSlot (p : Pack) (slot : Memory) : Memory :=
  (sortBy (fun (a b : Nat × Nat × Nat) => decide (a.1 < b.1)) p.moves).foldl (fun m e => Memory.put m e.1 e.2.2 (Memory.slice slot e.2.1 e.2.2)) []

/-- The place whose copy of a tile a reader takes (R186): the highest tier whose copy, also one that a running move makes, has the
tile's ready bit set; the home copy else. -/
def Dev.tileSource (d : Dev) (i tile : Nat) : Option Loc :=
  match tget d.slu.objs i with
  | none => none
  | some o =>
    let makingAt (t : Nat) : Option Loc :=
      (d.slu.reqs.find? fun e => e.2.making == some (i, t) && !e.2.rewrites && e.2.parts.any fun p => p.startAt != 0).bind fun e => e.2.stage.map (·.1)
    let readyIn (l : Loc) : Bool := bit (leNat (d.locBytes l (128 + tile / 8) 1)) (tile % 8)
    let pick (t : Nat) : Option Loc :=
      match o.copy t with
      | some l => some l
      | none => match makingAt t with
        | some l => if o.kind = 0 ∧ readyIn l then some l else none
        | none => none
    (List.range 4).findSome? pick

/-- Bytes of a range in T0 that lie in the stores of a context's own basins. -/
def Dev.ownBytes (d : Dev) (c a n : Nat) : Nat :=
  (((d.ctx? c).elim [] Ctx.basins).map fun l => min (a + n) (d.storeAddr l + 0x100000) - max a (d.storeAddr l)).sum

/-- Whether a context's sluice traffic may touch a range (R194, R418 class 3): in T1 and T2 as the protection map says, in T0 its own basins'
stores; T3 is reached only by the engines. -/
def Dev.regionFor (d : Dev) (c t a n : Nat) (x : Acc) : Bool :=
  if t = 1 ∨ t = 2 then decide (tierBase t ≤ a) && decide (a + n ≤ tierBase t + tierSize t) && d.permits true 3 a n x
  else if t = 3 then decide (a + n ≤ tierSize 3) else d.ownBytes c a n == n

/-- A scoreboard entry that a descriptor names: basin and entry (chapter 07). -/
def entryOf (a : Nat) : Nat × Nat := (a % 256, a / 256 % 64)

/-- The place of a descriptor's raw address; in T0 it is the address of a store. -/
def rawLoc (t a : Nat) : Loc := flat (if t = 3 then 3 else 1) a

/-- The pack that a descriptor moves tiles of: its object's, else the one whose header it names (R188, R189). -/
def Dev.packOf (d : Dev) (x : Desc) : List Byte :=
  d.locBytes (if x.object ≠ 0 then (d.tileSource (idIndex x.object) 0).getD (rawLoc x.srcTier x.packHdr) else rawLoc x.srcTier x.packHdr) 0 128

/-- The bytes that a descriptor covers, as offset and length from its address. -/
def Desc.span (x : Desc) (p : Pack) : Nat × Nat :=
  if x.op = 0 then (p.tileOff x.first, x.count * p.tileBytes) else (64 * x.first, 64 * x.count)

/-- Whether two ranges given as stretches meet. -/
def overlaps (a b : List (Bool × Nat × Nat × Nat)) : Bool :=
  a.any fun p => b.any fun q => p.1 == q.1 && decide (p.2.1 < q.2.1 + q.2.2.2) && decide (q.2.1 < p.2.1 + p.2.2.2)

/-- The objects, by index, whose copies in some tier a write to a raw range touches. -/
def Dev.touched (d : Dev) (t a n : Nat) : List (Nat × Obj) :=
  d.slu.objs.filter fun e => (e.2.copy t).elim false fun c => overlaps (d.pieces (rawLoc t a) 0 n) (d.pieces c 0 e.2.size)

/-- Whether a descriptor makes a copy of its object (R201, R203): a staged one that names an object and no entry. -/
def Desc.makes (x : Desc) : Bool := x.staged && x.object != 0 && !x.entryDst && !x.entrySrc && x.op != 2

/-- Objects whose copies a descriptor writes by its raw destination (R183). -/
def Dev.writes (d : Dev) (x : Desc) : List (Nat × Obj) :=
  let s := x.span (Pack.parse (d.packOf x))
  if x.entryDst || x.makes then [] else d.touched x.dstTier (x.dstAddr + s.1) s.2

/-- Whether a context may use an entry in a descriptor: it is in one of its basins. -/
def Dev.ownEntry (d : Dev) (c a : Nat) : Bool := ((d.ctx? c).elim [] Ctx.basins).contains (entryOf a).1

/-- Whether the copies of an object that a descriptor can read are in the context's regions (R186, R194). -/
def Dev.mayRead (d : Dev) (c : Nat) (o : Obj) : Bool :=
  o.copies.all fun e => e.1 == 0 || d.regionFor c e.1 e.2.addr o.size .read

/-- The steward's checks before it queues a descriptor (R183, R194).  class0: the descriptor is part of a bind, a switch or an unloading.  Only the
page table's own descriptors write the frames of the KV pool (R222). -/
def Dev.descFail (d : Dev) (x : Desc) (class0 : Bool) : Option Status :=
  if x.rsvd ≠ 0 then some .badReserved
  else
    let p := Pack.parse (d.packOf x)
    let s := x.span p
    let hdr := if x.op = 0 then x.packHdr else x.srcAddr
    let n := if x.op = 0 then p.tileOff p.tiles else s.1 + s.2
    let range : Bool := if x.op = 0 then decide (x.first + x.count ≤ p.tiles)
      else x.object == 0 || (d.obj? x.object).elim true fun o => decide (s.1 + s.2 ≤ o.size)
    let hits := d.writes x
    if x.gen ≠ 0 ∨ 2 < x.op ∨ x.count = 0 ∨ x.nparts ≤ x.part ∨ (x.entryDst ∧ x.dstTier ≠ 0) ∨
        (x.entrySrc ∧ x.srcTier ≠ 0) ∨ range = false ∨ (x.cls = 0 ∧ class0 = false) ∨
        (x.srcTier = 3 ∧ x.op ≠ 2 ∧ (x.srcAddr % 4096 ≠ 0 ∨ x.packHdr % 4096 ≠ 0)) ∨ (x.dstTier = 3 ∧ x.dstAddr % 4096 ≠ 0) then some .badConfig
    else if (x.entryDst ∧ d.ownEntry x.ctx x.dstAddr = false) ∨ (x.entrySrc ∧ d.ownEntry x.ctx x.srcAddr = false) then some .badConfig
    else if x.op ≠ 2 ∧ x.entrySrc = false ∧ x.object = 0 ∧ d.regionFor x.ctx x.srcTier hdr n .read = false then some .badConfig
    else if x.op ≠ 2 ∧ x.entrySrc = false ∧ x.object ≠ 0 ∧ (d.obj? x.object).elim true (fun o => !d.mayRead x.ctx o) then some .badConfig
    else if x.entryDst = false ∧ x.makes = false ∧ d.regionFor x.ctx x.dstTier (x.dstAddr + s.1) s.2 .write = false then some .badConfig
    else if hits.any (fun e => x.dstTier != e.2.highest || e.2.pool) then some .badConfig
    else if x.object ≠ 0 ∧ (d.obj? x.object).isNone then some .badConfig
    else none

/-- A request added to the open ones. -/
def Dev.addReq (d : Dev) (r : SluReq) : Nat × Dev :=
  (d.slu.nextReq, { d with slu := { d.slu with reqs := tset d.slu.reqs d.slu.nextReq r, nextReq := d.slu.nextReq + 1 } })

/-- Queue a part of a request on an engine (R191): its order key is drawn from the engine; the first part's engine decides the deadline until one
ends the request (R197). -/
def Dev.queuePart (d : Dev) (now r eng index : Nat) (x : Desc) (st : PartState) (area : Option (Loc × Nat) := none) : Dev :=
  let p := d.draw (0x0500 + eng) now
  (p.2.modReq r fun q => { q with
    lastEngine := if q.parts = [] then eng else q.lastEngine
    parts := q.parts ++ [({ index := index, engine := eng, desc := x, key := p.1, state := st, area := area } : Part)] }).syncEngine eng

/-- Open the wait of a request's deadline (R197): G is 0, the engine's own source id. -/
def Dev.openDeadline (d : Dev) (r dl eng : Nat) : Dev :=
  if dl = 0 then d
  else
    let p := d.addWait { owner := .needBy r, deadline := dl, guard := 0, src := 0x0500 + eng }
    p.2.modReq r fun q => { q with wait := some p.1, deadline := dl }

/-- The descriptor of a move of a whole object from a place to a place (R193). -/
def moveDesc (o : Obj) (id : Nat) (hdr : Pack) (cls ctx : Nat) (src dst : Loc) : Desc :=
  { op := if o.kind = 0 then 0 else 1, srcTier := src.tier, dstTier := dst.tier, cls := cls, ctx := ctx,
    staged := dst.tier != 0, entryDst := false, entrySrc := false, srcAddr := src.addr, dstAddr := dst.addr,
    packHdr := if o.kind = 0 then src.addr else 0, count := if o.kind = 0 then hdr.tiles else o.size / 64, object := id }

/-- Start a move of an object into a place taken in a tier, as one part (R193, R203). -/
def Dev.startMove (d : Dev) (now i : Nat) (o : Obj) (src dst : Loc) (cls ctx : Nat) (key : Key) (purpose : Purpose)
    (making : Option (Nat × Nat)) : Option (Nat × Dev) :=
  match d.pickEngine fun _ => true with
  | none => none
  | some eng =>
    let hdr := Pack.parse (d.locBytes src 0 128)
    let q := d.addReq { purpose := purpose, ctx := ctx, cls := cls, key := key, making := making, stage := some (dst, o.size) }
    let d1 := q.2.modObj i fun o => { o with lock := some q.1 }
    some (q.1, d1.queuePart now q.1 eng 0 (moveDesc o (objId i o) hdr cls ctx src dst) .queued)

/-- The basins of a context that can hold a T0 copy, as a place (R181, log entry 20): consecutive basins from its lowest,
above every entry and other T0 copy in them. -/
def Dev.t0Place (d : Dev) (ctx size : Nat) : Option Loc :=
  let mine := (d.fab.basins.filter fun e => e.2.ctx == ctx)
  let firstL := mine.foldl (fun m e => min m e.1) 256
  let top := mine.foldl (fun m e => e.2.entries.foldl (fun m x => max m (x.2.base + x.2.slots * x.2.size)) m) 0
  let taken := (d.slu.objs.filterMap fun e => (e.2.copy 0).map fun l => (l, e.2.size)) ++
    d.slu.reqs.flatMap fun e => (e.2.stage.toList ++ e.2.parts.filterMap Part.area).filter fun s => s.1.tier == 0
  let others := taken.foldl (fun m e => if e.1.ctx = ctx then max m (e.1.addr + min e.1.chunk (up64 e.2)) else m) 0
  let off := up64 (max top others)
  let chunk := 0x100000 - off
  if mine = [] ∨ chunk = 0 then none
  else
    let used := (size + chunk - 1) / chunk
    if (List.range used).all fun i => mine.any fun e => e.1 == firstL + i then
      some { tier := 0, addr := off, first := firstL, used := used, ctx := ctx }
    else none

/-- Space for a copy in a tier. -/
def Dev.copyPlace (d : Dev) (ctx t size : Nat) : Option Loc :=
  if t = 0 then d.t0Place ctx size else (d.findSpace t size).map fun a => { tier := t, addr := a }

/-- The nearest tier below t with a committed copy (R181). -/
def Obj.below (o : Obj) (t : Nat) : Option Loc := (List.range 4).findSome? fun u => if t < u then o.copy u else none

/-- Add a pair to a list without repeats. -/
def addPair (l : List (Nat × Nat)) (p : Nat × Nat) : List (Nat × Nat) := if l.contains p then l else l ++ [p]

/-- A copy in a tier above home is released without write-back (R182). -/
def Dev.dropCopy (d : Dev) (i t : Nat) : Dev :=
  d.modObj i fun o => if t = o.home then o else { o with copies := tdel o.copies t, dirty := o.dirty && o.highest != t }

/-- Free an object: every copy released without write-back (R179, R185). -/
def Dev.freeObj (d : Dev) (i : Nat) : Dev :=
  { d with slu := { d.slu with objs := tdel d.slu.objs i }, mem := d.mem.write (objTable + 64 * i) (leBytes 64 0) }

/-- After pins of an object went: one whose creator has closed is freed with its last pin (R179). -/
def Dev.freeOrphan (d : Dev) (i : Nat) : Dev :=
  match tget d.slu.objs i with
  | some o => if o.orphan ∧ o.pins = [] then d.freeObj i else d
  | none => d

end Sys2Proof.Machine
end

