-- ==== Sys2Proof/Machine/Sluice.lean ====
section
/-! DEFINITION. The sluice engines: locks, moves, lists, spillways, tiles, failures and completion (R181 to R206). -/

namespace Sys2Proof.Machine

/-- An object's lock is free (R187). -/
def Obj.unlocked (o : Obj) : Bool := o.lock.isNone

/-- A promotion that may start: it records need and pin at once where the copy stands, else it takes space and moves the
object up (R181, R184). -/
def Dev.tryPromote (d : Dev) (now i : Nat) (q : LockReq) : Dev :=
  match tget d.slu.objs i with
  | none => d.finishAt now (q.mbx, q.seq) .badConfig 32 []
  | some o =>
    let pin := q.kind == .pin
    match o.copy q.tier with
    | some _ =>
      (d.modObj i fun o => { o with
        needs := addPair o.needs (q.tier, q.ctx), pins := if pin then addPair o.pins (q.tier, q.ctx) else o.pins }).finishAt
        now (q.mbx, q.seq) .ok 0 []
    | none =>
      match o.below q.tier, d.copyPlace q.ctx q.tier o.size with
      | some src, some dst =>
        match d.startMove now i o src dst (d.ctxClass q.ctx) q.ctx q.key (.place q.mbx q.seq q.ctx pin) (some (i, q.tier)) with
        | some r => r.2
        | none => d.finishAt now (q.mbx, q.seq) .busy 0 []
      | _, _ => d.finishAt now (q.mbx, q.seq) .busy 0 []

/-- Needs left in a tier after an eviction (R182, R184). -/
def Obj.afterEvict (o : Obj) (t ctx : Nat) (force : Bool) : List (Nat × Nat) :=
  o.needs.filter fun p => !(p.1 == t && (force || p.2 == ctx))

/-- An eviction that may start (R182, R184): CONFLICT with the first pinning context under FORCE, a staged write-back of a
dirty highest copy, or the release at once. -/
def Dev.tryEvict (d : Dev) (now i : Nat) (q : LockReq) : Dev :=
  match tget d.slu.objs i with
  | none => d.finishAt now (q.mbx, q.seq) .badConfig 32 []
  | some o =>
    let force := q.kind == .force
    match force, o.pinsIn q.tier with
    | true, c :: _ => d.finishAt now (q.mbx, q.seq) .conflict c []
    | _, pins =>
      let needs := o.afterEvict q.tier q.ctx force
      if q.tier = o.home ∨ o.copy q.tier = none ∨ pins ≠ [] ∨ (needs.any fun p => p.1 == q.tier) then
        (d.modObj i fun o => { o with needs := needs }).finishAt now (q.mbx, q.seq) .ok 0 []
      else if o.dirty ∧ q.tier = o.highest then
        (match o.copy q.tier, o.below q.tier with
         | some src, some lower =>
           match d.copyPlace q.ctx lower.tier o.size with
           | some dst =>
             match d.startMove now i o src dst (d.ctxClass q.ctx) q.ctx q.key (.writeBack q.mbx q.seq q.tier force) (some (i, lower.tier)) with
             | some r => r.2
             | none => d.finishAt now (q.mbx, q.seq) .busy 0 []
           | none => d.finishAt now (q.mbx, q.seq) .busy 0 []
         | _, _ => d)
      else (((d.modObj i fun o => { o with needs := needs }).dropCopy i q.tier)).finishAt now (q.mbx, q.seq) .ok 0 []

/-- Serve a request that has the lock's turn. -/
def Dev.serveLock (d : Dev) (now i : Nat) (q : LockReq) : Dev :=
  match q.kind with
  | .place => d.tryPromote now i q
  | .pin => d.tryPromote now i q
  | .evict => d.tryEvict now i q
  | .force => d.tryEvict now i q
  | .slu r =>
    if thas d.slu.reqs r then
      ((d.modObj i fun o => { o with lock := some r }).modReq r fun x => { x with
        parts := x.parts.map fun p => if p.state = .held then { p with state := .queued } else p }).syncEngines
    else d

/-- The lock passes to the requests behind it in order until one holds it (R187). -/
def Dev.unlock (d : Dev) (now i : Nat) : Nat → Dev
  | 0 => d.modObj i fun o => { o with lock := none }
  | k + 1 =>
    let d1 := d.modObj i fun o => { o with lock := none }
    match tget d1.slu.objs i with
    | none => d1
    | some o =>
      match o.queue with
      | [] => d1
      | q :: rest =>
        let d2 := (d1.modObj i fun o => { o with queue := rest }).serveLock now i q
        match tget d2.slu.objs i with
        | some o2 => if o2.unlocked then d2.unlock now i k else d2
        | none => d2

/-- Insert a lock request in order-key order. -/
def insertLock (q : LockReq) : List LockReq → List LockReq
  | [] => [q]
  | x :: rest => if q.key.lt x.key then q :: x :: rest else x :: insertLock q rest

/-- Forget a request and its staging. -/
def Dev.dropReq (d : Dev) (r : Nat) : Dev :=
  (({ d with slu := { d.slu with reqs := tdel d.slu.reqs r } }).dropWait (.needBy r) |>.dropWait (.stall r)).syncEngines

/-- The command behind a request completes. -/
def Dev.finishPurpose (d : Dev) (now : Nat) (p : Purpose) (st : Status) (detail : Nat) : Dev :=
  match p with
  | .place m s _ _ => d.finishAt now (m, s) st detail []
  | .writeBack m s _ _ => d.finishAt now (m, s) st detail []
  | .initCopy m s => d.finishAt now (m, s) st detail []
  | .safe _ _ _ => d
  | .list _ _ => d
  | .kv _ _ _ => d

/-- A request that is to complete with a status: what of it has not ended is cancelled, its staging goes (R187, R195, R197). -/
def SluReq.cut (x : SluReq) (st : Status) : SluReq :=
  { x with status := some st.code, stage := none, making := none, parts := x.parts.map fun (p : Part) => { p with state := .ended, area := none } }
def Dev.cutReq (d : Dev) (r : Nat) (st : Status) : Dev := (d.modReq r fun x => x.cut st).syncEngines

/-- The lock of the object that a request has just let go passes on. -/
def Dev.unlockOf (d : Dev) (now r : Nat) (making : Option (Nat × Nat)) : Dev :=
  match making with
  | some (i, _) => if (tget d.slu.objs i).bind Obj.lock = some r then d.unlock now i 9 else d
  | none => d

/-- A move that lost to a later request is cancelled with SUPERSEDED: its staging goes, its lock passes (R187).  by_: what
overtook it (R369). -/
def Dev.cancelMove (d : Dev) (now r by_ : Nat) : Dev :=
  match tget d.slu.reqs r with
  | none => d
  | some x =>
    let d1 := d.finishPurpose now x.purpose .superseded by_
    match x.purpose with
    | .list _ _ => (d1.cutReq r .superseded).unlockOf now r x.making
    | _ => (d1.dropReq r).unlockOf now r x.making

/-- A lock request that gets no turn: its command completes, or its list's request does (R187). -/
def Dev.turnAway (d : Dev) (now : Nat) (q : LockReq) (st : Status) (detail : Nat) : Dev :=
  match q.kind with
  | .slu r => (d.cutReq r st).unlockOf now r ((tget d.slu.reqs r).bind SluReq.making)
  | _ => d.finishAt now (q.mbx, q.seq) st detail []

/-- Whether a request makes a copy in a tier, or evicts it by force. -/
def SluReq.promotes (x : SluReq) (i t : Nat) : Bool :=
  x.making == some (i, t) && !x.rewrites && (match x.purpose with
    | .place _ _ _ _ => true
    | .list _ _ => true
    | _ => false)
def SluReq.forces (x : SluReq) (t : Nat) : Bool :=
  match x.purpose with
  | .writeBack _ _ u f => f && u == t
  | _ => false

/-- Whether a request for the lock of an object wants a promotion: a command's, or a list's that makes a copy (R187, R201). -/
def Dev.promoting (d : Dev) (q : LockReq) : Bool :=
  match q.kind with
  | .place => true
  | .pin => true
  | .slu r => (tget d.slu.reqs r).elim false fun x => !x.rewrites
  | _ => false

/-- The command of a request that holds a lock, by mailbox and SEQ; mailbox 256: none. -/
def SluReq.cmd (x : SluReq) : Nat × Nat :=
  match x.purpose with
  | .place m s _ _ => (m, s)
  | .writeBack m s _ _ => (m, s)
  | .initCopy m s => (m, s)
  | _ => (256, 0)

/-- DETAIL of SUPERSEDED: the command that overtook; 0 where none did (R369). -/
def overtakenBy (c : Nat × Nat) : Nat := if c.1 < 256 then overtaker c.1 c.2 else 0

/-- A request on an object's copies takes the lock, waits behind it (up to 8), or is refused (R187): a forced eviction and
a promotion of the same tier collide, and the later order key wins. -/
def Dev.requestLock (d : Dev) (now i : Nat) (q : LockReq) : Dev :=
  match tget d.slu.objs i with
  | none => d.turnAway now q .badConfig 32
  | some o =>
    let against (x : LockReq) : Bool := if q.kind == .force then d.promoting x else d.promoting q && x.kind == .force
    let holder := o.lock.bind fun r => (tget d.slu.reqs r).map fun x => (r, x)
    let hit := match holder with
      | some (_, x) => if q.kind == .force then x.promotes i q.tier else d.promoting q && x.forces q.tier
      | none => false
    let foes := o.queue.filter fun x => against x && x.tier == q.tier
    let later := (foes.all fun x => x.key.lt q.key) && (!hit || (match holder with
      | some (_, x) => x.key.lt q.key
      | none => true))
    if later = false then
      (let winner := match foes.find? fun x => q.key.lt x.key with
        | some x => (x.mbx, x.seq)
        | none => match holder with
          | some (_, x) => x.cmd
          | none => (256, 0)
       d.turnAway now q .superseded (overtakenBy winner))
    else
      let d1 := foes.foldl (fun d x => d.turnAway now x .superseded (overtakenBy (q.mbx, q.seq)))
        (d.modObj i fun o => { o with queue := o.queue.filter fun x => !(against x && x.tier == q.tier) })
      let d2 := match holder with
        | some (r, _) => if hit then d1.cancelMove now r (overtakenBy (q.mbx, q.seq)) else d1
        | none => d1
      match tget d2.slu.objs i with
      | none => d2.turnAway now q .badConfig 32
      | some o2 =>
        if o2.unlocked then d2.serveLock now i q
        else if o2.queue.length < 8 then d2.modObj i fun o => { o with queue := insertLock q o.queue }
        else d2.turnAway now q .busy 0

/-- A basin as CASCADE_BIND leaves it (R123, R172): entries from the image, rounding generators from the seed.  DESIGN CHOICE, unsafe (log entry
63): an outbound entry whose peer is on another module starts with the SLOTS that the image gives the entry itself, which the peer's image is to
match. -/
def Dev.freshBasin (d : Dev) (ctx : Nat) (c : Cascade) (b : ImgBasin) (lfsr : List Nat) : Basin :=
  let slotsAt (l e : Nat) : Nat :=
    match c.basins.find? fun x => x.lbasin == l with
    | some x => seSlots (x.entries.getD e 0)
    | none => match d.basin? l with
      | some x => (x.entry e).slots
      | none => 0
  let mk (i e : Nat) : SbEntry :=
    let x := SbEntry.init e (if seRemote e then seSlots e else slotsAt (sePeer e) (sePeerEntry e))
    if i = 0 ∧ hdrPeriod b.header then { x with slots := 1, freeQ := [0] } else x
  { ctx := ctx, header := b.header, stages := b.stages, lfsr := lfsr,
    entries := ((List.range 64).filter fun i => seSlots (b.entries.getD i 0) != 0 || (i == 0 && hdrPeriod b.header)).map fun i =>
      (i, mk i (b.entries.getD i 0)) }

/-- A cascade by its handle. -/
def Dev.cascade? (d : Dev) (h : Nat) : Option Cascade := tget d.fab.cascades h

/-- The device with a cascade changed. -/
def Dev.modCascade (d : Dev) (h : Nat) (f : Cascade → Cascade) : Dev :=
  { d with fab := { d.fab with cascades := tmod d.fab.cascades h f } }

/-- The end of a CASCADE_RUN: its counts in DETAIL, invocations done and the end DT as result (R202, R362). -/
def Dev.finishRun (d : Dev) (now h : Nat) (st : Status) : Dev :=
  match (d.cascade? h).bind Cascade.run with
  | some r =>
    let d1 := d.modCascade h fun c => { c with run := none }
    d1.finishAt now (r.mbx, r.seq) st (min 65535 r.spilled * 65536 + min 65535 r.stalled)
      (leBytes 4 r.done ++ leBytes 4 0 ++ leBytes 8 now)
  | none => d

/-- The lists of a cascade stop (R131, R200): their open requests are withdrawn, but a prefetch goes on (R201), and no layer waits for it any
more. -/
def Dev.stopLists (d : Dev) (h : Nat) : Dev :=
  let mine := d.slu.reqs.filter fun e => match e.2.purpose with
    | .list h' _ => h' == h
    | _ => false
  mine.foldl (fun (d : Dev) e =>
    if e.2.closed then d.dropReq e.1
    else if e.2.spill = 0 ∧ e.2.status = none then d.cutReq e.1 .superseded
    else (d.dropWait (.stall e.1)).modReq e.1 fun x => { x with stall := none })
    { d with slu := { d.slu with lists := d.slu.lists.filter fun e => e.1 / 65536 != h } }

/-- Whether the basins of a cascade have come to rest: no stage runs there, and no flit or credit of theirs is on its way. -/
def Dev.atRest (d : Dev) (c : Cascade) : Bool :=
  let ls := c.basins.map ImgBasin.lbasin
  (ls.all fun l => (d.basin? l).elim true fun b => b.ctx != c.ctx || b.running.isEmpty) &&
  d.fab.flits.all (fun f => !(ls.contains f.dst) && !(ls.contains f.src)) && d.fab.credits.all fun k => !(ls.contains k.basin)

/-- A basin of a cascade as CASCADE_BIND left it, where its context holds it or has it saved. -/
def Dev.resetBasin (d : Dev) (c : Cascade) (b : ImgBasin) : Dev :=
  match d.basin? b.lbasin with
  | some x => if x.ctx = c.ctx then d.setBasin b.lbasin (d.freshBasin c.ctx c b x.lfsr) else d
  | none => { d with fab := { d.fab with saved := tmod d.fab.saved c.ctx fun l => l.map fun e =>
      if e.1 = b.lbasin then (e.1, d.freshBasin c.ctx c b e.2.lfsr) else e } }

/-- Runs that end early end once their tiles have ended and the mesh has drained (R200, R362): scoreboards return to their state at bind and the
command completes. -/
def Dev.settleRuns (d : Dev) (now : Nat) : Dev :=
  d.fab.cascades.foldl (fun (d : Dev) e => match e.2.ending with
    | some late =>
      if d.atRest e.2 then
        (let d1 := (e.2.basins.foldl (fun (d : Dev) b => d.resetBasin e.2 b) d).modCascade e.1 fun c => { c with ending := none }
         d1.syncWeirs.finishRun now e.1 (if late then .expired else .degraded))
      else d
    | none => d) d

/-- A run ends early (R200, R362): its list requests are withdrawn, dispatch stops and its tiles stop at their boundaries. -/
def Dev.endRun (d : Dev) (now h : Nat) (late : Bool) : Dev :=
  ((d.modCascade h fun c => { c with ending := some late }).stopLists h).settleRuns now

/-- A spillway declaration's fields (R198). -/
structure SpillDecl where
  kind : Nat
  layer : Nat
  mainList : Nat
  altList : Nat
  gateBasin : Nat
  gateEntry : Nat
  allowUs : Nat
  altObject : Nat
  deriving DecidableEq, Repr

/-- A spillway declaration from its 32 bytes. -/
def SpillDecl.parse (bs : List Byte) : SpillDecl :=
  { kind := bits (bytesAt bs 0 4) 28 2, layer := bits (bytesAt bs 0 4) 0 16, mainList := bits (bytesAt bs 4 4) 16 16,
    altList := bits (bytesAt bs 4 4) 0 16, gateBasin := bits (bytesAt bs 8 4) 8 8, gateEntry := bits (bytesAt bs 8 4) 0 6,
    allowUs := bytesAt bs 12 4, altObject := bytesAt bs 16 4 }

/-- Declaration k of a cascade, counted from 1. -/
def Dev.spillDecl (d : Dev) (h k : Nat) : Option SpillDecl :=
  (d.cascade? h).bind fun c => if k = 0 then none else (c.spills[k - 1]?).map SpillDecl.parse

/-- List li of a cascade: basin, entry, descriptors. -/
def Dev.listOf (d : Dev) (h li : Nat) : Option (Nat × Nat × List (List Byte)) := (d.cascade? h).bind fun c => c.lists[li]?

/-- Where in an object's copy a write to a raw range of the same tier goes, where the whole range lies in it. -/
def Obj.spot (o : Obj) (t a n : Nat) : Option Nat :=
  (o.copy t).bind fun c => if c.tier ≠ 0 ∧ c.addr ≤ a ∧ a + n ≤ c.addr + o.size then some (a - c.addr) else none

/-- Whether a descriptor lands in staging (R203): STAGED without a scoreboard entry, and always where it overwrites a copy in T1, T2 or T3. -/
def Dev.stages (d : Dev) (x : Desc) : Bool := !x.entryDst && (x.staged || (x.dstTier != 0 && d.writes x != []))

/-- A request of no list, for a read that finds none. -/
def noReq : SluReq := { purpose := .list 0 0, ctx := 0, cls := 0, key := {} }

/-- Add a part to a list's request (R187, R203): a part of a request that takes an object's lock is held until it has it, and a staged one without
a copy takes an area of its own, or the request completes with BUSY.  The steward prefers an engine that has no part of the request (log
entry 21). -/
def Dev.addListPart (d : Dev) (now r : Nat) (x : Desc) : Dev :=
  let q := tgetD d.slu.reqs r noReq
  let s := x.span (Pack.parse (d.packOf x))
  let area : Option (Option (Loc × Nat)) :=
    if d.stages x ∧ q.making = none then (d.copyPlace x.ctx x.dstTier s.2).map fun l => some (l, s.2) else some none
  let eng := match d.pickEngine fun n => !(q.parts.any fun p => p.engine == n) with
    | some n => some n
    | none => d.pickEngine fun _ => true
  match area, eng with
  | some a, some n =>
    let mine : Bool := match q.making with
      | some (i, _) => ((tget d.slu.objs i).bind Obj.lock) == some r
      | none => true
    let d1 := d.queuePart now r n x.part x (if mine then .queued else .held) a
    let d2 := if q.wait.isNone then d1.openDeadline r x.deadline n else d1
    match q.making with
    | some (i, t) =>
      if mine ∨ ((tget d2.slu.objs i).elim false fun o => o.queue.any fun y => y.kind == .slu r) then d2
      else d2.requestLock now i ⟨q.key, 256, 0, x.ctx, t, .slu r⟩
    | none => d2
  | _, _ => d.cutReq r .busy

/-- Whether a cascade's lists run as part of its bind (R27, R194): a class-0 cascade that has not been run since. -/
def Dev.inBind (d : Dev) (h : Nat) : Bool := (d.cascade? h).elim false fun c => d.ctxClass c.ctx == 0 && !c.begun

/-- Queue the next descriptor of a cascade's list (R193, R194, R201, R203): its request, its staging, its part. -/
def Dev.queueDesc (d : Dev) (now h li : Nat) (x : Desc) : Dev :=
  let p := d.draw 0x0510 now
  let d0 := p.2
  let mk (st : Option Status) (committed : Bool) : SluReq :=
    { purpose := .list h li, ctx := x.ctx, cls := x.cls, key := p.1, reqId := x.req, nparts := x.nparts, spill := x.spill,
      crec := x.crec, cellOp := x.cellOp, flagBit := x.flagBit, cell := x.cell, status := st.map Status.code, committed := committed }
  let whole (i t : Nat) (o : Obj) (rewrites : Bool) : Dev := match d0.copyPlace x.ctx t o.size with
    | none => (d0.addReq (mk (some .busy) false)).2
    | some l =>
      let q := d0.addReq { (mk none false) with making := some (i, t), rewrites := rewrites, stage := some (l, o.size) }
      q.2.addListPart now q.1 x
  match d0.descFail x (d0.inBind h) with
  | some st => (d0.addReq (mk (some st) false)).2
  | none =>
    match d0.slu.reqs.find? fun e => e.2.purpose == .list h li && e.2.reqId == x.req && e.2.status.isNone && decide (e.2.parts.length < e.2.nparts) with
    | some e => d0.addListPart now e.1 x
    | none =>
      if x.makes then
        match tget d0.slu.objs (idIndex x.object) with
        | none => (d0.addReq (mk (some .badConfig) false)).2
        | some o =>
          if (o.copy x.dstTier).isSome then (if x.part ≠ 0 then d0 else (d0.addReq { (mk none true) with nparts := 0 }).2)
          else whole (idIndex x.object) x.dstTier o false
      else
        let s := x.span (Pack.parse (d0.packOf x))
        match d0.writes x with
        | [e] => if x.dstTier ≠ 0 ∧ (e.2.spot x.dstTier (x.dstAddr + s.1) s.2).isSome then whole e.1 x.dstTier e.2 true
          else (let q := d0.addReq (mk none false); q.2.addListPart now q.1 x)
        | _ => (let q := d0.addReq (mk none false); q.2.addListPart now q.1 x)

/-- A list's next descriptor is queued (R193). -/
def Dev.listQueue (d : Dev) (now h li : Nat) : Dev :=
  match tget d.slu.lists (h * 65536 + li), d.listOf h li with
  | some pos, some l =>
    match l.2.2[pos]? with
    | some bs => ({ d with slu := { d.slu with lists := tset d.slu.lists (h * 65536 + li) (pos + 1) } }).queueDesc now h li (Desc.parse bs)
    | none => d
  | _, _ => d

/-- An entry of a context, in the fabric or among what is saved of it. -/
def Dev.ctxEntry (d : Dev) (c l e : Nat) : Option SbEntry :=
  match d.basin? l with
  | some b => if b.ctx = c then some (b.entry e) else ((tgetD d.fab.saved c []).find? fun x => x.1 == l).map fun x => x.2.entry e
  | none => ((tgetD d.fab.saved c []).find? fun x => x.1 == l).map fun x => x.2.entry e

/-- A list starts: its first descriptor is queued when its entry holds a credit or a ready slot (R193). -/
def Dev.listStart (d : Dev) (now h li : Nat) : Dev :=
  match d.listOf h li with
  | none => d
  | some l =>
    let d1 := { d with slu := { d.slu with lists := tset d.slu.lists (h * 65536 + li) 0 } }
    match d1.ctxEntry ((d.cascade? h).elim 0 Cascade.ctx) l.1 l.2.1 with
    | some e => if (e.kind = 4 ∧ 0 < e.ready) ∨ (e.kind ≠ 4 ∧ 0 < e.free) then d1.listQueue now h li else d1
    | none => d1

/-- Whether a layer of a cascade still waits for what its lists bring: a run of it has not been ended (R200). -/
def Dev.feeds (d : Dev) (h : Nat) : Bool := (d.cascade? h).elim false fun c => c.ending.isNone && (c.run.isSome || c.armed)

/-- A prefetch has arrived on time: the layer's main list is queued (R200). -/
def Dev.mainList (d : Dev) (now r : Nat) : Dev :=
  match tget d.slu.reqs r with
  | some x => match x.purpose with
    | .list h _ => match d.spillDecl h x.spill with
      | some s => if d.feeds h then d.listStart now h s.mainList else d
      | none => d
    | _ => d
  | none => d

/-- A list goes on (R193, R201): its next descriptor is queued; a prefetch whose copy already stands has arrived at once. -/
def Dev.listNext (d : Dev) (now h li : Nat) : Dev :=
  let d1 := d.listQueue now h li
  match tget d1.slu.reqs d.slu.nextReq with
  | some x => if x.committed ∧ x.spill ≠ 0 then d1.mainList now d.slu.nextReq else d1
  | none => d1

/-- A cascade's list starts at an invocation (R193, R201). -/
def Dev.listBegin (d : Dev) (now h li : Nat) : Dev :=
  let d1 := d.listStart now h li
  match tget d1.slu.reqs d.slu.nextReq with
  | some x => if x.committed ∧ x.spill ≠ 0 then d1.mainList now d.slu.nextReq else d1
  | none => d1

/-- An entry returned a credit or posted a ready slot: the active lists bound to it go on (R193). -/
def Dev.listAdvance (d : Dev) (now l e : Nat) : Dev :=
  d.slu.lists.foldl (fun d x =>
    match d.listOf (x.1 / 65536) (x.1 % 65536) with
    | some y => if y.1 = l ∧ y.2.1 = e then d.listNext now (x.1 / 65536) (x.1 % 65536) else d
    | none => d) d

/-- Count a spilled or stalled layer (R202). -/
def Dev.countSpill (d : Dev) (h ctx : Nat) (stalled : Bool) : Dev :=
  let d1 := d.modCascade h fun c => { c with run := c.run.map fun r =>
    if stalled then { r with stalled := r.stalled + 1 } else { r with spilled := r.spilled + 1 } }
  d1.incSat (r1 .sluCtxSpill ctx) (if stalled then F.sluCtxSpill.STALLED else F.sluCtxSpill.SPILLED)

/-- A ready token for an entry from outside the stages: the oldest free slot becomes ready (R124, R198). -/
def Dev.postToken (d : Dev) (now l e : Nat) : Dev :=
  d.modEntry now l e fun x => match x.freeQ with
    | s :: rest => { x with freeQ := rest }.post s now
    | [] => x

/-- A prefetch's spillway is taken (R200, R206). -/
def Dev.takeSpillway (d : Dev) (now r : Nat) : Dev :=
  match tget d.slu.reqs r with
  | none => d
  | some x =>
    match x.purpose with
    | .list h _ =>
      match d.spillDecl h x.spill with
      | none => d
      | some s =>
        if d.feeds h = false then d
        else if s.kind = 0 then ((d.countSpill h x.ctx false).listStart now h s.altList).postToken now s.gateBasin s.gateEntry
        else if s.kind = 1 then (d.countSpill h x.ctx false).postToken now s.gateBasin s.gateEntry
        else
          let p := (d.countSpill h x.ctx true).addWait
            { owner := .stall r, deadline := satAdd dtMax x.deadline (s.allowUs * 1000), guard := 0, src := 0x0500 + x.lastEngine }
          p.2.modReq r fun x => { x with stall := some p.1 }
    | _ => d

/-- A request's deadline expired (R197, R200): without a spillway what has not started is cancelled and the staging goes;
with one the spillway is taken and the move goes on (R201). -/
def Dev.sluiceExpired (d : Dev) (now r : Nat) : Dev :=
  match tget d.slu.reqs r with
  | none => d
  | some x =>
    let d1 := d.modReq r fun x => { x with expired := true }
    if x.spill ≠ 0 then d1.takeSpillway now r
    else (d1.cutReq r .expired).unlockOf now r x.making

/-- The wait of a layer that stalls expired: the run ends with DEGRADED (R200). -/
def Dev.stallExpired (d : Dev) (now r : Nat) : Dev :=
  match tget d.slu.reqs r with
  | some x => match x.purpose with
    | .list h _ => if d.feeds h then d.endRun now h false else d
    | _ => d
  | none => d

/-- The arrival that a request's waits see (R197, R200): stamp now, engine's key.  A deadline already past expires first. -/
def Dev.sluiceArrive (d : Dev) (now r : Nat) : Dev :=
  match tget d.slu.reqs r with
  | none => d
  | some x =>
    let late (id : Option Nat) (d : Dev) : Bool × Dev := match id with
      | some w => d.expire now w
      | none => (false, d)
    let a := late x.wait d
    let d1 := if a.1 then a.2.sluiceExpired now r else a.2
    let stall := (tget d1.slu.reqs r).bind SluReq.stall
    let b := late stall d1
    let d2 := if b.1 then b.2.stallExpired now r else b.2
    let k := d2.draw (0x0500 + x.lastEngine) now
    let c := match x.wait with
      | some w => k.2.arrive now w k.1
      | none => (Arrival.arrived, k.2)
    let d3 := if c.1 = .arrived ∧ x.expired = false ∧ x.spill ≠ 0 then c.2.mainList now r else c.2
    match stall with
    | some w =>
      let e := d3.arrive now w k.1
      if e.1 = .arrived then e.2.mainList now r else e.2
    | none => d3

/-- Whether the parts of a request that this module has queued have ended, and whether all have. -/
def SluReq.hereEnded (x : SluReq) : Bool := x.parts.all fun p => p.state == .ended
def SluReq.allEnded (x : SluReq) : Bool := (x.status.isSome || decide (x.nparts ≤ x.parts.length)) && x.hereEnded

/-- Whether a request lands in staging and commits (R203). -/
def SluReq.staged (x : SluReq) : Bool :=
  x.rewrites || (x.parts.any fun p => p.desc.staged && !p.desc.entryDst) || x.stage.elim false fun s => s.1.tier != 0

/-- A write lands at a descriptor's raw destination: objects whose highest copy it touches are dirty from then on (R183). -/
def Dev.putRaw (d : Dev) (x : Desc) (off n : Nat) (data : Memory) : Dev :=
  (d.touched x.dstTier (x.dstAddr + off) n).foldl (fun (d : Dev) e => d.modObj e.1 fun o => { o with dirty := true })
    (d.locPut (rawLoc x.dstTier x.dstAddr) off n data)

/-- The staged areas of a request's parts go to their destinations (R203). -/
def Dev.commitAreas (d : Dev) (x : SluReq) : Dev :=
  x.parts.foldl (fun (d : Dev) p => match p.area with
    | some a => d.putRaw p.desc (p.desc.span (Pack.parse (d.packOf p.desc))).1 a.2 (d.locSlice a.1 0 a.2)
    | none => d) d

/-- The staged copy becomes the committed one in one step (R181, R182, R203). -/
def Dev.commitMove (d : Dev) (now r : Nat) : Dev :=
  match tget d.slu.reqs r with
  | none => d
  | some x =>
    let d1 := (d.commitAreas x).modReq r fun x => { x with committed := true, stage := none, making := none, parts := x.parts.map fun (p : Part) => { p with area := none } }
    match x.stage, x.purpose with
    | some s, .place m q ctx pin =>
      (match x.making with
       | some (i, t) =>
         ((d1.modObj i fun o => { o with copies := tset o.copies t s.1, needs := addPair o.needs (t, ctx), pins := if pin then addPair o.pins (t, ctx) else o.pins }).finishAt now (m, q) .ok 0 []).unlock now i 9
       | none => d1)
    | some s, .writeBack m q t force =>
      (match x.making with
       | some (i, lower) =>
         let d2 := d1.modObj i fun o => { o with copies := tset (tdel o.copies t) lower s.1, needs := o.afterEvict t x.ctx force, stuck := false, dirty := lower != o.home }
         (d2.finishAt now (m, q) .ok 0 []).unlock now i 9
       | none => d1)
    | some _, .initCopy m q =>
      (match x.making with
       | some (i, _) => (d1.finishAt now (m, q) .ok ((tget d1.slu.objs i).elim 0 fun o => objId i o) []).unlock now i 9
       | none => d1)
    | some s, .list _ _ =>
      (match x.making with
       | some (i, t) =>
         (d1.modObj i fun o => if x.rewrites then { o with copies := tset o.copies t s.1, dirty := true }
           else { o with copies := tset o.copies t s.1, needs := addPair o.needs (t, x.ctx) }).unlock now i 9
       | none => d1)
    | _, _ => d1

/-- The status a request completes with (R195, R201, R205). -/
def SluReq.outcome (x : SluReq) : Nat :=
  match x.status with
  | some s => s
  | none => if x.failMask ≠ 0 then Status.partialFail.code else if x.expired then Status.expired.code else Status.ok.code

/-- The status of a code (R16). -/
def statusOf (code : Nat) : Status :=
  ([Status.ok, .degraded, .lateAccepted, .busy, .conflict, .superseded, .noPages, .noCandidate, .epochStale, .expired,
    .partialFail, .faultTorndown, .broken, .holdupShort, .calEnvelope, .badReserved, .badVersion, .badConfig, .denied].find?
      fun s => s.code == code).getD .ok

/-- Whether a request that completes leaves a stalled layer waiting for its second deadline: its prefetch failed (R200, R206). -/
def SluReq.leavesStall (x : SluReq) : Bool :=
  x.stall.isSome && !(([Status.ok, .expired, .superseded, .faultTorndown].map Status.code).contains x.outcome)

/-- A request completes (R195): the completion record, then CELL_OP, then the command it serves; its staging goes and its
lock passes. -/
def Dev.completeReq (d : Dev) (now r : Nat) : Dev :=
  match tget d.slu.reqs r with
  | none => d
  | some x =>
    let unstaged := x.making.isSome && x.status.isNone && x.failMask == 0 && !x.committed
    let d0 := if unstaged then d.commitMove now r else d
    let k := d0.draw (0x0500 + x.lastEngine) now
    let st := x.outcome
    let record := k.1.bytes ++ leBytes 4 ((d0.windowStatus x.ctx (statusOf st)).code * 2 ^ 16 + x.failMask) ++ leBytes 4 (x.reqId * 2 ^ 16) ++ leBytes 8 x.bytes
    let d1 := if x.crec = 0 then k.2 else { k.2 with mem := k.2.mem.write x.crec record }
    let op := if x.cellOp = 2 then 3 else if x.cellOp = 3 then 4 else 6
    let d2 := if x.cellOp = 0 then d1
      else d1.cellOp now (.sluice x.ctx r) x.ctx op x.cell (if x.cellOp = 1 then 2 ^ x.flagBit else 0) 0 0 k.1
    let d3 := if st = 0 ∨ st = Status.expired.code then d2
      else
        let e := d2.finishPurpose now x.purpose (statusOf st) x.failMask
        match x.purpose, x.making with
        | .writeBack _ _ t force, some (i, _) =>
          (e.modObj i fun o => { o with stuck := true, needs := o.afterEvict t x.ctx force }).alm 0x052 2 k.1 now [i, t]
        | .initCopy _ _, some (i, _) => e.freeObj i
        | _, _ => e
    let d4 := if x.leavesStall then
        ((d3.dropWait (.needBy r)).modReq r fun x => { x with closed := true, stage := none, making := none, parts := [] }).syncEngines
      else d3.dropReq r
    d4.unlockOf now r x.making

/-- Budgeted resources of a tier's bytes (R83, R196). -/
def tierRes (t : Nat) : List Nat := if t = 1 then [4] else if t = 2 then [5] else []

/-- The tier that a part's next bytes come from: for an object the tier of the copy that its tile is read from (R186, R196). -/
def Dev.srcTier (d : Dev) (x : Desc) (pos : Nat) : Nat :=
  if x.object = 0 then x.srcTier else (d.tileSource (idIndex x.object) (x.first + pos)).elim x.srcTier Loc.tier

/-- The budgeted resources that the next bytes of a part use. -/
def Dev.resources (d : Dev) (p : Part) : List Nat :=
  (if p.desc.op = 2 ∨ p.desc.entrySrc then [] else tierRes (d.srcTier p.desc p.pos)) ++ (if p.desc.entryDst then [] else tierRes p.desc.dstTier)

/-- Issue bytes to the controllers in requests of at most 64 KiB, until all are issued or the class is gated (R85, R192,
R196); answers the bytes not issued. -/
def Dev.issueBytes (d : Dev) (now cls : Nat) (ks : List Nat) : Nat → Nat → Nat × Dev
  | 0, n => (n, d)
  | k + 1, n =>
    if n = 0 ∨ ks.any (fun r => d.gated cls r) then (n, d)
    else
      let c := min 65536 n
      (ks.foldl (fun d r => d.charge now cls r c) d).issueBytes now cls ks k (n - c)

/-- The part that runs on an engine, with its request. -/
def Dev.runningPart (d : Dev) (eng : Nat) : Option (Nat × Part) := (d.partsOn eng .running).head?

/-- The device with a part of a request changed. -/
def Dev.modPart (d : Dev) (r index : Nat) (f : Part → Part) : Dev :=
  d.modReq r fun x => { x with parts := x.parts.map fun p => if p.index = index then f p else p }

/-- A part is parked with its progress (R192). -/
def Dev.park (d : Dev) (now r : Nat) (p : Part) : Dev :=
  (d.modPart r p.index fun p => { p with state := .parked, parkedAt := now }).syncEngine p.engine

/-- The class that pays for a part (R113): the descriptor's, or where that is its context's the one that pays for the context. -/
def Dev.partPayer (d : Dev) (p : Part) : Nat := if p.desc.cls = d.ctxClass p.desc.ctx then d.payer p.desc.ctx else p.desc.cls

/-- Whether the class that pays for a part is gated on the memory bytes it moves next (R192). -/
def Dev.partGated (d : Dev) (p : Part) : Bool := (d.resources p).any fun k => d.gated (d.partPayer p) k

/-- An idle engine resumes a parked part whose class's gates have lifted (R192). -/
def Dev.resumeParked (d : Dev) (now eng : Nat) : Dev :=
  if (d.runningPart eng).isSome then d
  else match (d.partsOn eng .parked).find? fun e => !(d.partGated e.2) with
    | some e => (d.modPart e.1 e.2.index fun p => { p with state := .running, parks := (p.parkedAt, now) :: p.parks }).syncEngine eng
    | none => d

/-- Whether a sluice engine is powered (R66). -/
def Dev.sluiceOn (d : Dev) (eng : Nat) : Bool := decide (eng < 12) && d.on (152 + eng / 6)

/-- Of two queued parts, the one that ranks first (R191): class PRIO, earliest DEADLINE with 0 latest, order key. -/
def Dev.rankFirst (d : Dev) (a b : Nat × Part) : Bool :=
  let pa := d.classPrio a.2.desc.cls
  let pb := d.classPrio b.2.desc.cls
  let da := if a.2.desc.deadline = 0 then dtMax + 1 else a.2.desc.deadline
  let db := if b.2.desc.deadline = 0 then dtMax + 1 else b.2.desc.deadline
  decide (pb < pa) || (pa == pb && (decide (da < db) || (da == db && a.2.key.lt b.2.key)))

/-- The purpose of a request. -/
def Dev.purposeOf (d : Dev) (r : Nat) : Option Purpose := (tget d.slu.reqs r).map SluReq.purpose

/-- An attention record of a cascade image (R361): basin, heads, head dimension, query format, sheet, longest sequence,
query rows. -/
structure AttnRec where
  lbasin : Nat
  heads : Nat
  dim : Nat
  qfmt : Nat
  bf16 : Bool
  causal : Bool
  maxLen : Nat
  qrows : Nat
  deriving DecidableEq, Repr

/-- An attention record from its 32 bytes. -/
def AttnRec.parse (bs : List Byte) : AttnRec :=
  let w := bytesAt bs 0 4
  { lbasin := bits w 0 8, heads := bits w 8 3, dim := bits w 11 9, qfmt := bits w 20 5, bf16 := bit w 25, causal := bit w 26,
    maxLen := bytesAt bs 4 4, qrows := bits (bytesAt bs 8 4) 0 8 }

/-- Whether keys of a page format are narrower than a query format (R240). -/
def keyNarrow (page query : Nat) : Bool := if page = 1 then false else if page = 3 ∨ page = 4 then query == 1 else true

/-- The attention records of a context's bound cascades, in order. -/
def Dev.attnOf (d : Dev) (ctx : Nat) : List AttnRec :=
  d.fab.cascades.flatMap fun e => if e.2.ctx = ctx ∧ e.2.bound then e.2.attn.map AttnRec.parse else []

/-- Page formats of R240. -/
def kvFormat (fmt : Nat) : Bool := [1, 3, 4, 7, 8, 9].contains fmt

/-- Whether a sequence takes part in the step that runs: it was not suspended, faulted or torn down since (R233, R242). -/
def Dev.kvRuns (d : Dev) (slot : Nat) : Bool := (tget d.kv.seqs slot).elim false fun s => s.runs && !s.faulted

/-- A part that reads pages pins them when it starts, each once for the sequence (R237); a page whose format is no page
format faults the sequence alone, whose query rows leave the step (R242). -/
def Dev.kvPin (d : Dev) (now r : Nat) : Dev :=
  match d.purposeOf r with
  | some (.kv _ .read items) =>
    items.foldl (fun d i =>
      let slot := i.2 / 2
      match tget d.kv.seqs slot, tget d.kv.pages i.1 with
      | some s, some g =>
        let d1 := if s.pinned.contains i.1 then d
          else { d with kv := { d.kv with
            pages := tset d.kv.pages i.1 { g with pins := min 65535 (g.pins + 1) }
            seqs := tset d.kv.seqs slot { s with pinned := i.1 :: s.pinned } } }
        if kvFormat g.fmt || s.faulted then d1
        else
          (({ d1 with kv := { d1.kv with seqs := tmod d1.kv.seqs slot fun s => { s with faulted := true, runs := false, state := .atRest } } }).sf
            (r0 .kvStat) F.kvStat.FMT_FAULT 1).raise 209 |>.almMc 0x053 2 now [slot, i.1]
      | _, _ => d) d
  | _ => d

/-- A part starts (R189, R190, R191, R196): it charges one descriptor; the first part of a pack's request checks the header, and a move that
makes a pack writes header and cleared bitmap first.  The staging of an overwrite starts with the old content, so that the swap changes only
what the parts write (R203); these bytes are charged to nobody (DESIGN CHOICE, log entry 25). -/
def Dev.startPart (d : Dev) (now r : Nat) (p : Part) : Dev :=
  match tget d.slu.reqs r with
  | none => d
  | some x =>
    let d1 := (d.charge now (d.partPayer p) 7 1)
    let d2 := ({ d1 with slu := { d1.slu with lastStart := tset d1.slu.lastStart p.engine now } }).kvPin now r
    let hdr := d2.packOf p.desc
    let firstStart := x.parts.all fun q => q.startAt == 0
    if p.desc.op = 0 ∧ p.desc.entrySrc = false ∧ firstStart ∧ packOk hdr = false then
      (d2.modReq r fun x => { x.cut .badConfig with lastEngine := p.engine }).syncEngines |>.unlockOf now r x.making
    else
      let d3 := match x.stage with
        | some (l, n) =>
          if firstStart = false then d2
          else if x.rewrites then
            (match x.making.bind fun m => (tget d2.slu.objs m.1).bind fun o => o.copy m.2 with
             | some c => d2.locPut l 0 n (d2.locSlice c 0 n)
             | none => d2)
          else if p.desc.op = 0 then d2.locPut l 0 (packHead (Pack.parse hdr).tiles) (Memory.relOf 0 hdr) else d2
        | none => d2
      (d3.modPart r p.index fun p => { p with state := .running, startAt := max 1 now }).syncEngine p.engine

/-- A part of the page table that found its engine's 64 places taken joins its queue once there is room (R191, R233). -/
def Dev.admitHeld (d : Dev) (eng : Nat) : Dev :=
  let waits := (d.partsOn eng .held).find? fun e => match d.purposeOf e.1 with
    | some (.kv _ _ _) => true
    | _ => false
  match waits with
  | some e => if (d.partsOn eng .queued).length < 64 then (d.modPart e.1 e.2.index fun p => { p with state := .queued }).syncEngine eng else d
  | none => d

/-- DESCRIPTOR_START (R191, R192): a running part whose class is gated on memory bytes is parked, up to 4; an idle engine
resumes a parked part whose gates have lifted, else starts its first-ranked eligible queued part, at most one every 64 ns. -/
def Dev.descriptorStart (d : Dev) (now eng : Nat) : Dev :=
  let d := d.admitHeld eng
  let d0 := match d.runningPart eng with
    | some e => if d.partGated e.2 ∧ (d.partsOn eng .parked).length < 4 then d.park now e.1 e.2 else d
    | none => d
  let d1 := d0.resumeParked now eng
  if (d1.runningPart eng).isSome then d1
  else if d1.elapsed (tgetD d1.slu.lastStart eng 0) now < 64 ∧ thas d1.slu.lastStart eng then d1
  else
    let cands := (d1.partsOn eng .queued).filter fun e => !d1.gated (d1.partPayer e.2) 7
    match cands.foldl (fun m e => match m with
        | none => some e
        | some b => if d1.rankFirst e b then some e else some b) none with
    | some e => d1.startPart now e.1 e.2
    | none => d1

/-- DESCRIPTOR_START (R191). -/
def execDescriptorStart (t eng : Nat) (s : State) : Host.Outcome State Fault Refusal :=
  s.run t fun now d => if d.sluiceOn eng then d.descriptorStart now eng else d

/-- A slot's place. -/
def Dev.slotLoc (d : Dev) (l : Nat) (e : SbEntry) (slot : Nat) : Loc := flat 1 (d.storeAddr l + e.base + slot * e.size)

/-- The pack header a part reads by. -/
def Dev.partPack (d : Dev) (p : Part) : Pack := Pack.parse (d.packOf p.desc)

/-- The page-table item that a part of a KV request moves next: its slot, the move, the page, its new fill or frame, or 1 for its V. -/
def Dev.kvItem (d : Dev) (r : Nat) (p : Part) : Option (Nat × KvMove × Nat × Nat) :=
  match d.purposeOf r with
  | some (.kv _ .read items) => (items[p.pos]?).map fun i => (i.2 / 2, .read, i.1, i.2 % 2)
  | some (.kv slot m items) => (items[p.pos]?).map fun i => (slot, m, i.1, i.2)
  | _ => none

/-- Whether a part's next item belongs to a sequence that left the step: nothing moves for it (R233, R242). -/
def Dev.kvSkips (d : Dev) (r : Nat) (p : Part) : Bool :=
  match d.kvItem r p with
  | some (slot, .read, _, _) => !d.kvRuns slot
  | some (slot, .write, _, _) => !d.kvRuns slot
  | _ => false

/-- Bytes of a row of one position's K or V, and of its block scales (R221). -/
def kvRow (fmt dim : Nat) : Nat := dim * elemBits fmt / 8
def kvScales (fmt dim : Nat) : Nat := if hasE8M0 fmt then dim / 32 else 0

/-- Bytes a frame's contents take (R221). -/
def kvFrame (fmt dim : Nat) : Nat := 64 + 32 * kvRow fmt dim + 32 * kvScales fmt dim

/-- The frame bytes of a sequence's pages. -/
def Dev.kvSize (d : Dev) (slot : Nat) : Nat :=
  match tget d.kv.seqs slot with
  | some s => kvFrame s.fmt s.headDim
  | none => 0

/-- Address of a page's frame. -/
def Dev.frameOf (d : Dev) (page : Nat) : Nat :=
  match tget d.kv.pages page with
  | some x => x.frame
  | none => 0

/-- The stretches of a frame that positions lo .. hi−1 cover: token ids, K and V rows, their scales (R221). -/
def kvStretches (fmt dim lo hi : Nat) : List (Nat × Nat) :=
  let w := kvRow fmt dim
  let c := kvScales fmt dim
  [(4 * lo, 4 * (hi - lo)), (64 + w * lo, w * (hi - lo)), (64 + 16 * w + w * lo, w * (hi - lo)),
   (64 + 32 * w + c * lo, c * (hi - lo)), (64 + 32 * w + 16 * c + c * lo, c * (hi - lo))]

/-- Copy positions lo .. hi−1 of a frame image into a frame. -/
def Dev.putPositions (d : Dev) (slot page lo hi : Nat) (image : Memory) : Dev :=
  match tget d.kv.seqs slot with
  | some s => (kvStretches s.fmt s.headDim lo hi).foldl (fun d x =>
      { d with mem := d.mem.put (d.frameOf page + x.1) x.2 (Memory.slice image x.1 x.2) }) d
  | none => d

/-- Pages that open swap-outs take out of T1, and their frames: writes into those are held (R232). -/
def Dev.leavingPages (d : Dev) : List Nat :=
  d.slu.reqs.flatMap fun e => match e.2.purpose with
    | .kv _ .swapOut items => if e.2.committed then [] else items.map (·.1)
    | _ => []
def Dev.vacating (d : Dev) : List Nat := d.leavingPages.map d.frameOf

/-- Pages whose copy from a shared page has not landed: the step neither writes nor reads them before (R236). -/
def Dev.copying (d : Dev) : List Nat :=
  d.slu.reqs.flatMap fun e => match e.2.purpose with
    | .kv _ .copy items => if e.2.committed then [] else items.map (·.2)
    | _ => []

/-- The attention record whose basin a part delivers to. -/
def Dev.attnAt (d : Dev) (c l : Nat) : Option AttnRec := (d.attnOf c).find? fun a => a.lbasin == l

/-- Whether K, or with v V, of a page enters a basin widened to BF16 (R240). -/
def widens (page query : Nat) (v : Bool) : Bool := page != 1 && (v || query == 1)

/-- Elements widened to BF16 as bytes: each times its block scale, saturating (R241). -/
def widened (fmt n : Nat) (plane scales : List Byte) : List Byte :=
  (List.range n).flatMap fun i =>
    leBytes 2 (encodeElem 1 none true ((elemVal fmt (planeElem fmt plane i)).mul (if hasE8M0 fmt then e8m0 (bytesAt scales (i / 32) 1) else .fin false 1 0)))

/-- The tile that K or V of a page makes in a slot (R212, R240, R241, log entry 22): 16 rows of the head dimension, widened or as they stand, then
the scale plane of what stands; answers bytes and content. -/
def Dev.kvTile (d : Dev) (g : KvPage) (dim query : Nat) (v : Bool) : Nat × Memory :=
  let n := 16 * dim
  let e := g.frame + 64 + (if v then 16 * kvRow g.fmt dim else 0)
  let s := g.frame + 64 + 32 * kvRow g.fmt dim + (if v then 16 * kvScales g.fmt dim else 0)
  let rows := 16 * kvRow g.fmt dim
  let ss := 16 * kvScales g.fmt dim
  if widens g.fmt query v then (2 * n, Memory.relOf 0 (widened g.fmt n (d.mem.read e rows) (d.mem.read s ss)))
  else (up64 rows + ss, Memory.put (d.mem.slice e rows) (up64 rows) ss (d.mem.slice s ss))

/-- The bytes a landing moves: the tile of a pack, K or V of a page, its new positions or its frame, n 64-byte units else. -/
def Dev.landBytes (d : Dev) (r : Nat) (p : Part) (n : Nat) : Nat :=
  match d.kvItem r p with
  | some (slot, .read, _, _) => if d.kvSkips r p then 0 else (tget d.kv.seqs slot).elim 0 fun s => 16 * (kvRow s.fmt s.headDim + kvScales s.fmt s.headDim)
  | some (slot, .write, page, fill) =>
    if d.kvSkips r p then 0 else (tget d.kv.seqs slot).elim 0 fun s =>
      (fill - (tget d.kv.pages page).elim 0 KvPage.fill) * (4 + 2 * kvRow s.fmt s.headDim + 2 * kvScales s.fmt s.headDim)
  | some (slot, _, _, _) => d.kvSize slot
  | none => if p.desc.op = 0 then (d.partPack p).tileBytes else 64 * n

/-- The data of a landing (R186); a tile from a slot takes its pack's layout (R148). -/
def Dev.landData (d : Dev) (r : Nat) (p : Part) (len : Nat) : Memory :=
  let x := p.desc
  let idx := x.first + p.pos
  let off := if x.op = 0 then (d.partPack p).tileOff idx else 64 * idx
  if x.op = 2 then []
  else if x.entrySrc then
    (let le := entryOf x.srcAddr
     match d.basin? le.1 with
     | some b => match (b.entry le.2).readyQ with
       | s :: _ =>
         let slot := d.locSlice (d.slotLoc le.1 (b.entry le.2) s.1) 0 (b.entry le.2).size
         if x.op = 0 then (d.partPack p).ofSlot slot else Memory.slice slot 0 len
       | [] => []
     | none => [])
  else if (d.kvItem r p).isSome then
    (match d.kvItem r p with
     | some i => d.mem.slice (d.frameOf i.2.2.1) len
     | none => [])
  else if x.object ≠ 0 then
    (match d.tileSource (idIndex x.object) idx with
     | some l => d.locSlice l off len
     | none => [])
  else d.locSlice (rawLoc x.srcTier (if x.op = 0 then x.packHdr else x.srcAddr)) off len

/-- Whether a request is a part of a safe store, whose place keeps its old content until the part commits (R442). -/
def Dev.isSafe (d : Dev) (r : Nat) : Bool :=
  match d.purposeOf r with
  | some (.safe _ _ _) => true
  | _ => false

/-- Where a landing puts its data: a slot, as slots hold tiles, with its token, the copy being made with its ready bit, the staging of an overwrite or of
the part itself, or plain memory (R148, R183, R190, R203). -/
def Dev.landPut (d : Dev) (now r : Nat) (p : Part) (len : Nat) (data : Memory) : Dev :=
  let x := p.desc
  let idx := x.first + p.pos
  let off := if x.op = 0 then (d.partPack p).tileOff idx else 64 * idx
  if d.kvSkips r p then d
  else if x.entryDst then
    (let le := entryOf x.dstAddr
     match d.basin? le.1 with
     | some b => match (b.entry le.2).freeQ with
       | s :: rest =>
         let k := d.partPack p
         let query := (d.attnAt b.ctx le.1).elim 1 AttnRec.qfmt
         let tile : Nat × Memory := match d.kvItem r p with
           | some (slot, _, page, half) => (match tget d.kv.pages page, tget d.kv.seqs slot with
             | some g, some q => d.kvTile g q.headDim query (half == 1)
             | _, _ => (0, []))
           | none => if x.op = 0 then (k.slotLen, k.toSlot data) else (len, data)
         let d1 : Dev := match d.kvItem r p with
           | some (slot, _, page, _) => { d with kv := { d.kv with seqs := tmod d.kv.seqs slot fun q =>
               { q with narrow := q.narrow || (tget d.kv.pages page).elim false fun g => keyNarrow g.fmt query } } }
           | none => d
         ((d1.locPut (d.slotLoc le.1 (b.entry le.2) s) 0 (min tile.1 (b.entry le.2).size) tile.2).modEntry now le.1 le.2 fun e => { e with freeQ := rest }.post s now)
       | [] => d
     | none => d)
  else if d.isSafe r then d
  else match d.kvItem r p with
  | some (slot, .write, page, fill) =>
    d.putPositions slot page ((tget d.kv.pages page).elim 0 KvPage.fill) fill data
  | some (slot, .copy, src, dst) => d.putPositions slot dst 0 ((tget d.kv.pages src).elim 0 KvPage.fill) data
  | some (_, .swapOut, _, frame) => { d with mem := d.mem.put frame len data }
  | some (_, .swapIn, _, frame) => { d with mem := d.mem.put frame len data }
  | some (_, .read, _, _) => d
  | none =>
    let q := tgetD d.slu.reqs r noReq
    match p.area, q.stage with
    | some a, _ => d.locPut a.1 (off - (x.span (d.partPack p)).1) len data
    | none, some (l, _) =>
      if q.rewrites then
        (match q.making.bind fun m => (tget d.slu.objs m.1).bind fun o => o.spot m.2 (x.dstAddr + off) len with
         | some at_ => d.locPut l at_ len data
         | none => d)
      else
        let d1 := d.locPut l off len data
        if x.op = 0 then
          (let old := (d1.locBytes l (128 + idx / 8) 1).headD 0
           d1.locPut l (128 + idx / 8) 1 (Memory.relOf 0 [old ||| BitVec.ofNat 8 (2 ^ (idx % 8))]))
        else d1
    | none, none => d.putRaw x off len data

/-- A sluice-outbound slot that was read is free again (R124). -/
def Dev.landFree (d : Dev) (now : Nat) (p : Part) (skip : Bool) : Dev :=
  if p.desc.entrySrc ∧ skip = false then
    (let le := entryOf p.desc.srcAddr
     d.modEntry now le.1 le.2 fun e => match e.readyQ with
       | s :: rest => { e with readyQ := rest }.giveBack s.1
       | [] => e)
  else d

/-- Whether a context's basins are in the fabric. -/
def Dev.residentCtx (d : Dev) (c : Nat) : Bool := d.fab.basins.any fun b => b.2.ctx == c

/-- Whether a part can land now (R97, R99, R193, R197): its entries are its context's and hold the credit or the ready slot, a context whose T0 it
uses is not switched out, and no retraining window stops the far store. -/
def Dev.canLand (d : Dev) (r : Nat) (p : Part) : Bool :=
  let x := p.desc
  let ent (a : Nat) (f : SbEntry → Bool) : Bool := match d.basin? (entryOf a).1 with
    | some b => b.ctx == (tgetD d.slu.reqs r noReq).ctx && f (b.entry (entryOf a).2)
    | none => false
  let inT0 := (!x.entryDst && x.dstTier == 0) || (x.op != 2 && !x.entrySrc && x.object == 0 && x.srcTier == 0)
  d.kvSkips r p || (!inT0 || (d.kvItem r p).isSome || d.residentCtx (tgetD d.slu.reqs r noReq).ctx) && (!x.entryDst || ent x.dstAddr fun e => !e.freeQ.isEmpty) && (!x.entrySrc || ent x.srcAddr fun e => !e.readyQ.isEmpty) &&
    !(d.windowOpen && (d.resources p).contains 5) &&
    (match d.kvItem r p with
     | some (_, .write, page, _) => !d.vacating.contains (d.frameOf page) && !d.copying.contains page
     | some (_, .read, page, _) => !d.copying.contains page
     | some (_, .copy, _, dst) => !d.vacating.contains (d.frameOf dst)
     | some (_, .swapIn, _, frame) => !d.vacating.contains frame
     | _ => true)

/-- TILE_LAND (R186, R190, R192, R196, R197): the last byte of the running part's next tile, or its next n 64-byte units, lands on an engine; the
bytes are charged as they are issued, and where its class is gated first the part is parked, if fewer than 4 are, else it waits. -/
def Dev.tileLand (d : Dev) (now eng n : Nat) : Dev :=
  match d.runningPart eng with
  | none => d
  | some (r, p) =>
    if d.canLand r p = false then d
    else
      let units := if p.desc.op = 0 ∨ (d.kvItem r p).isSome then 1 else min (max 1 n) (p.desc.count - p.pos)
      let len := d.landBytes r p units
      let q := d.issueBytes now (d.partPayer p) (d.resources p) (len / 65536 + 2) (len - p.prog)
      if q.1 ≠ 0 then
        (let e := q.2.modPart r p.index fun p => { p with prog := len - q.1 }
         if (d.partsOn eng .parked).length < 4 then e.park now r p else e)
      else
        let data := q.2.landData r p len
        let d1 := (q.2.landPut now r p len data).landFree now p (d.kvSkips r p)
        let d2 := d1.wn (r1 .sluEngBytes eng) ((d1.rn (r1 .sluEngBytes eng) + len) % 2 ^ 64)
        let d3 := (d2.modReq r fun x => { x with bytes := x.bytes + len }).modPart r p.index fun p =>
          { p with pos := p.pos + units, prog := 0, state := if p.desc.count ≤ p.pos + units then .ended else p.state }
        let d4 := d3.syncEngine eng
        if p.pos + units < p.desc.count then d4
        else
          let d4 := d4.modReq r fun x => { x with lastEngine := eng }
          let d5 := match tget d4.slu.reqs r with
            | some x => if x.allEnded && x.failMask == 0 && !x.staged then d4.sluiceArrive now r else d4
            | none => d4
          d5.resumeParked now eng

/-- What a landing found corrected or repeated on the way (R208, R210, R211): far-store lines and near-store words corrected, link retries. -/
def Dev.landNotes (d : Dev) (x : Landing) : Dev :=
  ((d.addSat (r0 .sluFarEcc) F.sluFarEcc.CE x.farFixed).addSat (r0 .sluNearEcc) F.sluNearEcc.CE x.nearFixed).addSat (r0 .sluNearEcc) F.sluNearEcc.CRC_RETRY x.retries

/-- TILE_LAND (R190, R208, R210). -/
def execTileLand (t eng : Nat) (x : Landing) (s : State) : Host.Outcome State Fault Refusal :=
  s.run t fun now d =>
    if d.sluiceOn eng then
      (match d.runningPart eng with
       | some (r, p) => (if d.canLand r p then d.landNotes x else d).tileLand now eng x.units
       | none => d)
    else d

/-- Whether a request swaps or copies pages. -/
def SluReq.kvMoves (x : SluReq) : Bool :=
  match x.purpose with
  | .kv _ .swapOut _ => true
  | .kv _ .swapIn _ => true
  | .kv _ .copy _ => true
  | _ => false

/-- The pages of a swap stand at their new frames, a copied page holds its positions (R232, R236). -/
def Dev.kvCommit (d : Dev) (_now r : Nat) : Dev :=
  match tget d.slu.reqs r with
  | none => d
  | some x =>
    let d1 := d.modReq r fun x => { x with committed := true }
    let put (d : Dev) (slot tier : Nat) (items : List (Nat × Nat)) : Dev :=
      { d with kv := { d.kv with
          pages := items.foldl (fun ps i => tmod ps i.1 fun g =>
            { g with tier := tier, frame := i.2, state := if g.fill = 16 then 2 else 1 }) d.kv.pages
          seqs := tmod d.kv.seqs slot fun s => { s with moving := false, state := if tier = 1 then .atRest else s.state } } }
    match x.purpose with
    | .kv slot .swapOut items => put d1 slot 2 items
    | .kv slot .swapIn items => put d1 slot 1 items
    | _ => d1

/-- A staged request commits: the commit DT is the arrival that its deadline sees (R197, R203). -/
def Dev.commitStaged (d : Dev) (now r : Nat) : Dev :=
  let d1 := d.sluiceArrive now r
  match (tget d1.slu.reqs r).bind SluReq.status with
  | some _ => d1
  | none => d1.commitMove now r

/-- MOVE_COMMIT (R203): every part of a staged request has succeeded and the destination changes in one step. -/
def Dev.moveCommit (d : Dev) (now r : Nat) : Dev :=
  match tget d.slu.reqs r with
  | some x =>
    if x.allEnded = false ∨ x.failMask ≠ 0 ∨ x.status ≠ none ∨ x.committed then d
    else if x.kvMoves then d.kvCommit now r
    else if x.staged then d.commitStaged now r
    else d
  | none => d

/-- Failing a part for good (R204, R205): FAILMASK, FAILED, the almanac with address, request id and the part's key. -/
def Dev.partDead (d : Dev) (now r : Nat) (p : Part) : Dev :=
  let d1 := (d.modPart r p.index fun p => { p with failed := true, state := .ended }).modReq r fun x =>
    { x with failMask := x.failMask ||| 2 ^ p.index, lastEngine := p.engine }
  let d2 := ((d1.sf (r1 .sluEngStat p.engine) F.sluEngStat.FAILED 1).raise (212 + p.engine)).syncEngine p.engine
  let d3 := d2.alm 0x051 2 p.key now [p.desc.srcAddr, p.desc.req, p.key.dt, p.key.src, p.key.cnt]
  let spills := match tget d3.slu.reqs r with
    | some x => x.spill != 0 && !x.expired
    | none => false
  (if spills then (d3.modReq r fun x => { x with expired := true }).takeSpillway now r else d3).resumeParked now p.engine

/-- The staging that a part writes moves to a fresh block where the tier has room, with what has landed in it (R204). -/
def Dev.restage (d : Dev) (r : Nat) (p : Part) : Dev :=
  match tget d.slu.reqs r with
  | none => d
  | some x =>
    let move (s : Loc × Nat) (put : Loc → SluReq → SluReq) : Dev := match d.findSpace s.1.tier s.2 with
      | some a => (d.locPut (flat s.1.tier a) 0 s.2 (d.locSlice s.1 0 s.2)).modReq r (put (flat s.1.tier a))
      | none => d
    match p.area, x.stage with
    | some s, _ => if s.1.tier = 0 then d else move s fun l y => { y with parts := y.parts.map fun q => if q.index = p.index then { q with area := some (l, s.2) } else q }
    | none, some s => if s.1.tier = 0 then d else move s fun l y => { y with stage := some (l, s.2) }
    | none, none => d

/-- A transient failure (R204): retried once by the lowest-numbered other engine with room, in a fresh staging block; a
retry that fails again is permanent. -/
def Dev.partTransient (d : Dev) (now r : Nat) (p : Part) : Dev :=
  if p.retried then d.partDead now r p
  else match lowest 12 fun n => n != p.engine && decide ((d.partsOn n .queued).length < 64) with
    | none => d.partDead now r p
    | some n =>
      let k := (d.restage r p).draw (0x0500 + n) now
      let d1 := k.2.modPart r p.index fun q => { q with
        engine := n, key := k.1, state := .queued, retried := true, prog := 0, pos := if q.desc.entryDst || q.desc.entrySrc then q.pos else 0 }
      (((d1.sf (r1 .sluEngStat n) F.sluEngStat.RETRIED 1).raise (212 + n)).syncEngines).resumeParked now p.engine

/-- An uncorrectable word or line in the ECC registers (R208, R210). -/
def Dev.eccUncorrectable (d : Dev) (now tier a : Nat) : Dev :=
  if tier = 2 then
    (((d.incSat (r0 .sluFarEcc) F.sluFarEcc.UE).sf (r0 .sluFarEcc) F.sluFarEcc.UE_FLAG 1).sf (r0 .sluFarEccAddr)
      F.sluFarEccAddr.ADDR a).raise 224 |>.almMc 0x050 2 now [a]
  else ((d.sf (r0 .sluNearEcc) F.sluNearEcc.UE_FLAG 1).raise 225).almMc 0x050 2 now [a]

/-- PART_FAIL (R204 to R206, R208, R210): the running part of an engine fails. -/
def Dev.partFail (d : Dev) (now eng : Nat) (why : PartFailure) : Dev :=
  match d.runningPart eng with
  | none => d
  | some (r, p) =>
    match why with
    | .nearLink => (((d.addSat (r0 .sluNearEcc) F.sluNearEcc.CRC_RETRY 4).sf (r0 .sluNearEcc) F.sluNearEcc.UE_FLAG 1).raise 225).partTransient now r p
    | .canalLink => d.partTransient now r p
    | .uncorrectable tier a => (d.eccUncorrectable now tier a).partDead now r p
    | .flash => d.partDead now r p
    | .access => d.partDead now r p

/-- PART_FAIL (R204). -/
def execPartFail (t eng : Nat) (why : PartFailure) (s : State) : Host.Outcome State Fault Refusal :=
  s.run t fun now d => if d.sluiceOn eng then d.partFail now eng why else d

/-- The time since a DT for which a part was not parked (R204). -/
def Dev.activeSince (d : Dev) (p : Part) (a now : Nat) : Nat :=
  d.elapsed a now - (p.parks.map fun k => if a < k.2 then d.elapsed (max a k.1) k.2 else 0).sum

/-- PART_TIMEOUT (R204): a running part not finished 100 µs after its last byte was issued fails as transient. -/
def execPartTimeout (t eng lastByte : Nat) (s : State) : Host.Outcome State Fault Refusal :=
  s.run t fun now d =>
    match d.runningPart eng with
    | some (r, p) =>
      if d.sluiceOn eng ∧ p.startAt ≤ lastByte ∧ lastByte ≤ now ∧ 100000 ≤ d.activeSince p lastByte now then d.partTransient now r p else d
    | none => d

/-- PATROL_SCRUB (R208, R209): the far-store controllers patrol-read n bytes of T2, correct and write back; charged to
class 5.  ce: corrected lines; ue: the address of an uncorrectable line. -/
def execPatrolScrub (t n ce : Nat) (ue : Option Nat) (s : State) : Host.Outcome State Fault Refusal :=
  s.run t fun now d =>
    if d.on 158 ∧ d.on 159 ∧ d.windowOpen = false then
      (let d1 := (d.charge now 5 5 n).addSat (r0 .sluFarEcc) F.sluFarEcc.CE ce
       match ue with
       | some a => d1.eccUncorrectable now 2 a
       | none => d1)
    else d

end Sys2Proof.Machine
end

