-- ==== Sys2Proof/Machine/Kv.lean ====
section
/-! DEFINITION. The KV page table: pages, prefix sharing, step boundaries, victims, forks and copies, attention sizes
(R212 to R243). -/

namespace Sys2Proof.Machine

/-- 64-bit rotation left. -/
def rotl64 (x k : Nat) : Nat := (x * 2 ^ k % 2 ^ 64) + x / 2 ^ (64 - k)

/-- One SipRound (R224). -/
def sipRound (v : Nat × Nat × Nat × Nat) : Nat × Nat × Nat × Nat :=
  let a := (v.1 + v.2.1) % 2 ^ 64
  let b := rotl64 v.2.1 13 ^^^ a
  let a := rotl64 a 32
  let c := (v.2.2.1 + v.2.2.2) % 2 ^ 64
  let e := rotl64 v.2.2.2 16 ^^^ c
  let a := (a + e) % 2 ^ 64
  let e := rotl64 e 21 ^^^ a
  let c := (c + b) % 2 ^ 64
  let b := rotl64 b 17 ^^^ c
  let c := rotl64 c 32
  (a, b, c, e)

/-- SipHash-2-4's compression of one word. -/
def sipWord (v : Nat × Nat × Nat × Nat) (m : Nat) : Nat × Nat × Nat × Nat :=
  let w := sipRound (sipRound (v.1, v.2.1, v.2.2.1, v.2.2.2 ^^^ m))
  (w.1 ^^^ m, w.2.1, w.2.2.1, w.2.2.2)

/-- SipHash-2-4 of a message whose length is a multiple of 8 bytes (R224). -/
def sipHash (k0 k1 : Nat) (msg : List Byte) : Nat :=
  let v0 := (k0 ^^^ 0x736f6d6570736575, k1 ^^^ 0x646f72616e646f6d, k0 ^^^ 0x6c7967656e657261, k1 ^^^ 0x7465646279746573)
  let words := (List.range (msg.length / 8)).map fun i => bytesAt msg (8 * i) 8
  let v1 := sipWord (words.foldl sipWord v0) (msg.length % 256 * 2 ^ 56)
  let v2 := sipRound (sipRound (sipRound (sipRound (v1.1, v1.2.1, v1.2.2.1 ^^^ 0xFF, v1.2.2.2))))
  v2.1 ^^^ v2.2.1 ^^^ v2.2.2.1 ^^^ v2.2.2.2

/-- The hash of 16 tokens under a chain value (R224). -/
def Dev.kvHash (d : Dev) (chain : Nat) (tokens : List Byte) : Nat :=
  sipHash (d.rn (r0 .kvHashKey0)) (d.rn (r0 .kvHashKey1)) (leBytes 8 chain ++ tokens)

/-- The chain value of a chain's first page (R224). -/
def chainStart (domain layer group : Nat) : Nat := domain * 2 ^ 48 + layer * 2 ^ 40 + group * 2 ^ 32

/-- A page record. -/
def Dev.page? (d : Dev) (i : Nat) : Option KvPage := tget d.kv.pages i

/-- The device with a page record changed. -/
def Dev.modPage (d : Dev) (i : Nat) (f : KvPage → KvPage) : Dev := { d with kv := { d.kv with pages := tmod d.kv.pages i f } }

/-- The device with a sequence changed. -/
def Dev.modSeq (d : Dev) (i : Nat) (f : KvSeq → KvSeq) : Dev := { d with kv := { d.kv with seqs := tmod d.kv.seqs i f } }

/-- REFS of a page. -/
def Dev.refs (d : Dev) (i : Nat) : Nat := (d.page? i).elim 0 KvPage.refs

/-- Frames of a tier in use, by address: pages there that are not leaving it, and frames that moves bring pages to (R232). -/
def Dev.framesUsed (d : Dev) (tier : Nat) : List Nat :=
  let leaving := d.leavingPages
  let here := (d.kv.pages.filter fun e => e.2.tier == tier && !(tier == 1 && leaving.contains e.1)).map fun e => e.2.frame
  let coming := d.slu.reqs.flatMap fun e => match e.2.purpose with
    | .kv _ .swapOut items => if tier = 2 ∧ e.2.committed = false then items.map (·.2) else []
    | .kv _ .swapIn items => if tier = 1 ∧ e.2.committed = false then items.map (·.2) else []
    | _ => []
  here ++ coming

/-- Frames and base of a tier's pool. -/
def Dev.poolFrames (d : Dev) (tier : Nat) : Nat := d.kv.pool.elim 0 fun p => if tier = 1 then p.t1Frames else p.t2Frames
def Dev.frameAt (d : Dev) (tier i : Nat) : Nat :=
  d.kv.pool.elim 0 fun p => (if tier = 1 then p.base1 else p.base2) + i * p.frameBytes

/-- Free frames of a tier. -/
def Dev.freeFrames (d : Dev) (tier : Nat) : Nat := d.poolFrames tier - (d.framesUsed tier).length

/-- The first n free frames of a tier, lowest first. -/
def Dev.pickFrames (d : Dev) (tier n : Nat) : List Nat :=
  let used := d.framesUsed tier
  (((List.range (d.poolFrames tier)).map (d.frameAt tier)).filter fun a => !used.contains a).take n

/-- KV_FREE and KV_USE follow the table. -/
def Dev.syncKv (d : Dev) : Dev :=
  (d.wn (r0 .kvFree) (d.freeFrames 2 * 2 ^ 32 + d.freeFrames 1)).wn (r0 .kvUse) (d.kv.seqs.length * 2 ^ 32 + d.kv.pages.length)

/-- A new page of a chain at the lowest free record and frame (R221); no rule states its page scales: free values. -/
def Dev.newPage (d : Dev) (slot layer group : Nat) (parent : Option Nat) (s : KvSeq) : Option (Nat × Dev) :=
  match lowest 262144 (fun i => !thas d.kv.pages i), (d.pickFrames 1 1).head? with
  | some i, some f =>
    let g : KvPage := { state := 1, tier := 1, fmt := s.fmt, fill := 0, seq := slot, kscale := Config.freeNat d.free % 65536, vscale := Config.freeNat (d.free + 1) % 65536, refs := 1, pins := 0, parent := parent, domain := s.domain, hash := 0, layer := layer, group := group, frame := f, indexed := false }
    some (i, { d with free := d.free + 2, kv := { d.kv with pages := tset d.kv.pages i g } })
  | _, _ => none

/-- A page that takes the content of another takes its fill, format and scales (R226, R236). -/
def Dev.likePage (d : Dev) (p q : Nat) : Dev :=
  match d.page? p with
  | some x => d.modPage q fun g => { g with fill := x.fill, fmt := x.fmt, kscale := x.kscale, vscale := x.vscale }
  | none => d

/-- A page's 16 token ids. -/
def Dev.pageTokens (d : Dev) (i : Nat) : List Byte := d.mem.read (d.frameOf i) 64

/-- A page that reached FILL 16 is sealed and hashed (R222, R224). -/
def Dev.sealPage (d : Dev) (i : Nat) : Dev :=
  match d.page? i with
  | some g =>
    if g.fill = 16 ∧ g.state = 1 then
      (let chain := match g.parent with
         | some p => (d.page? p).elim 0 KvPage.hash
         | none => chainStart g.domain g.layer g.group
       d.modPage i fun g => { g with state := 2, hash := d.kvHash chain (d.pageTokens i) })
    else d
  | none => d

/-- The chains of a sequence: (layer, group) and its key. -/
def KvSeq.chains (s : KvSeq) : List (Nat × Nat × Nat) :=
  (List.range s.layers).flatMap fun l => (List.range s.groups).map fun g => (l, g, l * 64 + g)

/-- The page list of a chain. -/
def KvSeq.list (s : KvSeq) (k : Nat) : List Nat := tgetD s.pages k []

/-- Every page of a sequence. -/
def KvSeq.all (s : KvSeq) : List Nat := s.pages.flatMap (·.2)

/-- Pages of n tokens. -/
def pagesOf (n : Nat) : Nat := (n + 15) / 16

/-- The places in a chain that n new tokens are written to. -/
def KvSeq.span (s : KvSeq) (n : Nat) : List Nat :=
  if n = 0 then [] else (List.range (pagesOf (s.len + n) - s.len / 16)).map fun i => s.len / 16 + i

/-- Those of them at which the chain holds a page that other sequences hold too (R236). -/
def Dev.mustCopy (d : Dev) (s : KvSeq) (n : Nat) (l : List Nat) : List Nat :=
  (s.span n).filter fun i => (l[i]?).elim false fun p => decide (1 < d.refs p)

/-- The growth of a sequence by n tokens (R229, R236): pages beyond its chains, and one for each shared page it writes into. -/
def Dev.growth (d : Dev) (s : KvSeq) (n : Nat) : Nat :=
  (s.chains.map fun c =>
    let l := s.list c.2.2
    pagesOf (s.len + n) - l.length + (d.mustCopy s n l).length).sum

/-- Growth of a set of sequences with their new tokens. -/
def Dev.growthAll (d : Dev) (run : List (Nat × Nat)) : Nat :=
  (run.map fun e => (tget d.kv.seqs e.1).elim 0 fun s => d.growth s e.2).sum

/-- REFS falls on every page of a list (R238). -/
def Dev.derefAll (d : Dev) (pages : List Nat) : Dev := pages.foldl (fun d p => d.modPage p fun g => { g with refs := g.refs - 1 }) d

/-- The pins a sequence holds are released (R235, R237). -/
def Dev.unpinSeq (d : Dev) (slot : Nat) : Dev :=
  match tget d.kv.seqs slot with
  | some s => (s.pinned.foldl (fun d p => d.modPage p fun g => { g with pins := g.pins - 1 }) d).modSeq slot fun s => { s with pinned := [] }
  | none => d

/-- Pages with REFS and PINS 0 return their frames (R239). -/
def Dev.reclaim (d : Dev) : Dev :=
  { d with kv := { d.kv with pages := d.kv.pages.filter fun e => !(e.2.refs == 0 && e.2.pins == 0) } }

/-- A sequence leaves: REFS − 1 per page, its slot is free; a join not yet admitted is superseded by its leave (R230, R369). -/
def Dev.leaveSeq (d : Dev) (now slot : Nat) : Dev :=
  match tget d.kv.seqs slot with
  | some s =>
    let d1 := s.listAt.elim ((d.unpinSeq slot).derefAll s.all) fun a => ((d.unpinSeq slot).derefAll s.all).dropArea 1 a.1
    let d2 := { d1 with kv := { d1.kv with seqs := tdel d1.kv.seqs slot } }
    let d3 := match s.state, s.leaving with
      | .queued, some l => (d2.dropWait (.command s.mbx s.seq)).finishAt now (s.mbx, s.seq) .superseded (overtaker l.1 l.2.1) []
      | _, _ => d2
    match s.leaving with
    | some l => d3.finishAt now (l.1, l.2.1) .ok 0 []
    | none => d3
  | none => d

/-- Confirm a candidate for the next 16 tokens of a chain (R225). -/
def Dev.confirms (d : Dev) (i : Nat) (parent : Option Nat) (domain layer group : Nat) (tokens : List Byte) : Bool :=
  match d.page? i with
  | some g => d.pageTokens i == tokens && (match parent with
      | some p => g.parent == some p
      | none => g.parent.isNone && g.domain == domain && g.layer == layer && g.group == group)
  | none => false

/-- The confirmed page for the next 16 tokens of a chain, and the candidates refused on the way (R225). -/
def Dev.lookup (d : Dev) (parent : Option Nat) (domain layer group : Nat) (tokens : List Byte) : Option Nat × Nat :=
  let chain := match parent with
    | some p => (d.page? p).elim 0 KvPage.hash
    | none => chainStart domain layer group
  let h := d.kvHash chain tokens
  let cands := (d.kv.pages.filter fun e => e.2.indexed && e.2.hash == h && e.2.tier == 1 && e.2.state == 2).map (·.1)
  let good := cands.find? fun i => d.confirms i parent domain layer group tokens
  (good, (cands.takeWhile fun i => !d.confirms i parent domain layer group tokens).length)

/-- The confirmed pages of one chain, one sealed page at a time (R226). -/
def Dev.matchChain (d : Dev) (domain layer group : Nat) : Option Nat → List (List Byte) → List Nat × Nat
  | _, [] => ([], 0)
  | parent, t :: rest =>
    match d.lookup parent domain layer group t with
    | (some p, k) => let r := d.matchChain domain layer group (some p) rest; (p :: r.1, k + r.2)
    | (none, k) => ([], k)

/-- Whole 16-token blocks of a prompt as bytes. -/
def promptBlocks (prompt : List Nat) : List (List Byte) :=
  (List.range (prompt.length / 16)).map fun i => ((prompt.drop (16 * i)).take 16).flatMap (leBytes 4)

/-- Shared pages by chain, all cut to the smallest number, and the candidates refused (R226). -/
def Dev.sharedPrefix (d : Dev) (s : KvSeq) : Tbl (List Nat) × Nat :=
  let ms := s.chains.map fun c => (c.2.2, d.matchChain s.domain c.1 c.2.1 none (promptBlocks s.prompt))
  let p := (ms.map fun m => m.2.1.length).foldl min (s.prompt.length / 16)
  (ms.map fun m => (m.1, m.2.1.take p), (ms.map fun m => m.2.2).sum)

/-- Queue a move of the page table as one request (R233): source id 0x0521.  Where every engine's places are taken it waits at engine 0 for one
(DESIGN CHOICE, safe, log entry 21). -/
def Dev.kvMove (d : Dev) (now slot : Nat) (m : KvMove) (items : List (Nat × Nat)) (x : Desc) : Nat × Dev :=
  let eng := d.pickEngine fun _ => true
  let k := d.draw 0x0521 now
  let q := k.2.addReq { purpose := .kv slot m items, ctx := x.ctx, cls := x.cls, key := k.1 }
  (q.1, q.2.queuePart now q.1 (eng.getD 0) 0 x (if eng.isSome then .queued else .held))

/-- The descriptor of a move of n pages between tiers. -/
def kvDesc (cls ctx src dst n : Nat) : Desc :=
  { op := 1, srcTier := src, dstTier := dst, cls := cls, ctx := ctx, staged := true, entryDst := false, entrySrc := false,
    srcAddr := 0, dstAddr := 0, count := n }

/-- A sequence is suspended with NO_PAGES (R230, R233). -/
def Dev.suspend (d : Dev) (slot : Nat) : Dev :=
  ((d.modSeq slot fun s => { s with state := .suspended, noPages := true, runs := false }).sf (r0 .kvStat) F.kvStat.SUSPENDED 1).raise 209

/-- Pages of a sequence that a swap-out may move: exclusive, in T1, not pinned (R232, R239). -/
def Dev.exclusive (d : Dev) (s : KvSeq) (tier : Nat) : List Nat :=
  s.all.filter fun p => match d.page? p with
    | some g => g.refs == 1 && g.pins == 0 && g.tier == tier
    | none => false

/-- A victim is swapped out, or suspended where T2 has no room (R230, R232). -/
def Dev.makeRoom (d : Dev) (now slot : Nat) : Dev :=
  match tget d.kv.seqs slot with
  | none => d
  | some s =>
    let ex := d.exclusive s 1
    if ex.length ≤ d.freeFrames 2 then
      (let items := ex.zip (d.pickFrames 2 ex.length)
       let d1 := ((d.modSeq slot fun s => { s with state := .swapped, runs := false }).sf (r0 .kvStat) F.kvStat.SWAPPED 1).raise 209
       if items = [] then d1
       else
         let r := d1.kvMove now slot .swapOut items (kvDesc (d.ctxClass s.ctx) s.ctx 1 2 items.length)
         ((items.foldl (fun d i => d.modPage i.1 fun g => { g with state := 3 }) r.2)).modSeq slot fun s => { s with moving := true })
    else d.suspend slot

/-- Whether a victim ranks before another (R232): lower SHARE, then the later join. -/
def Dev.victimBefore (d : Dev) (a b : Nat × KvSeq) : Bool :=
  decide (d.share a.2.ctx < d.share b.2.ctx) || (d.share a.2.ctx == d.share b.2.ctx && b.2.key.lt a.2.key)

/-- The next victim (R232): at rest, not in a move. -/
def Dev.victim (d : Dev) : Option Nat :=
  let cands := d.kv.seqs.filter fun e => e.2.state == .atRest && !e.2.moving
  (cands.foldl (fun m e => match m with
    | none => some e
    | some b => if d.victimBefore e b then some e else some b) none).map (·.1)

/-- Make room until the running sequences' growth fits (R230 steps 4 and 5); answers who still runs. -/
def Dev.fitGrowth (d : Dev) (now : Nat) (run : List (Nat × Nat)) : Nat → List (Nat × Nat) × Dev
  | 0 => (run, d)
  | k + 1 =>
    if d.growthAll run ≤ d.freeFrames 1 then (run, d)
    else match d.victim with
      | none => (run, d)
      | some v => (d.makeRoom now v).fitGrowth now (run.filter fun e => e.1 != v) k

/-- The watermark in frames (R231). -/
def Dev.watermark (d : Dev) : Nat := d.f (r0 .kvCtrl) F.kvCtrl.WMARK * d.poolFrames 1 / 1000

/-- A readmission that fits above the watermark (R231, R232): a suspended sequence is at rest again, a swapped one has its
pages moved back.  reserved: growth already promised.  Answers whether it fitted. -/
def Dev.readmit (d : Dev) (now slot n reserved : Nat) : Bool × Dev :=
  match tget d.kv.seqs slot with
  | none => (true, d)
  | some s =>
    let back := s.all.filter fun p => (d.page? p).elim false fun g => g.tier == 2
    let need := d.growth s n + back.length
    if d.freeFrames 1 < reserved + need + d.watermark then (false, d)
    else if back = [] then
      (true, d.modSeq slot fun s => { s with state := .atRest, readmitted := true, noPages := false })
    else
      let items := back.zip (d.pickFrames 1 back.length)
      let r := d.kvMove now slot .swapIn items (kvDesc (d.ctxClass s.ctx) s.ctx 2 1 items.length)
      (true, (items.foldl (fun d i => d.modPage i.1 fun g => { g with state := 3 }) r.2).modSeq slot
          fun s => { s with state := .swapped, noPages := false, moving := true, readmitted := true })

/-- Add fresh pages to a chain up to a number of pages. -/
def Dev.extendChain (d : Dev) (slot layer group want : Nat) : Nat → Dev
  | 0 => d
  | k + 1 =>
    match tget d.kv.seqs slot with
    | none => d
    | some s =>
      let key := layer * 64 + group
      let l := s.list key
      if want ≤ l.length then d
      else match d.newPage slot layer group l.getLast? s with
        | some p => (p.2.modSeq slot fun s => { s with pages := tset s.pages key (s.list key ++ [p.1]) }).extendChain slot layer group want k
        | none => d

/-- A page that a joiner or fork takes: REFS + 1, or a fresh copy where REFS is full (R226). -/
def Dev.takePage (d : Dev) (now slot layer group : Nat) (s : KvSeq) (p : Nat) : Nat × Dev :=
  if d.refs p < 65535 then (p, d.modPage p fun g => { g with refs := g.refs + 1 })
  else match d.newPage slot layer group ((d.page? p).bind KvPage.parent) s with
    | some q =>
      (q.1, ((q.2.likePage p q.1).kvMove now slot .copy [(p, q.1)] (kvDesc (d.ctxClass s.ctx) s.ctx 1 1 1)).2)
    | none => (p, d)

/-- Frames a join needs beyond what it shares (R231): prompt pages, copies, and the growth of a first step of one token (log entry 22); a fork's
partly filled last pages are all shared from then on, so that first step copies each (R229, R236). -/
def Dev.joinNeed (d : Dev) (s : KvSeq) (shared : Tbl (List Nat)) : Nat :=
  let chains := s.layers * s.groups
  match s.fork with
  | some src => match tget d.kv.seqs src with
    | some x => (x.chains.map fun c => pagesOf (x.len + 1) - (x.list c.2.2).length + ((x.span 1).filter fun i => decide (i < (x.list c.2.2).length)).length).sum
    | none => 0
  | none =>
    let full := (shared.flatMap (·.2)).filter fun p => d.refs p == 65535
    chains * pagesOf s.prompt.length - (shared.flatMap (·.2)).length + full.length +
      (if s.prompt.length % 16 = 0 then chains else 0)

/-- Admit a queued join if it fits (R226, R231, R234); answers whether it fitted. -/
def Dev.takeIn (d : Dev) (now slot reserved : Nat) : Bool × Dev :=
  match tget d.kv.seqs slot with
  | none => (true, d)
  | some s =>
    let sh := if s.fork.isSome then (([] : Tbl (List Nat)), 0) else d.sharedPrefix s
    let d0 := d.addSat (r0 .kvCollisions) F.kvCollisions.COUNT sh.2
    let ready := match s.fork with
      | some src => (tget d.kv.seqs src).elim false fun x => (x.state == .atRest || x.state == .suspended) && !x.moving
      | none => true
    if ready = false ∨ d0.freeFrames 1 < reserved + d0.joinNeed s sh.1 + d0.watermark then (false, d0)
    else
      let src := s.fork.bind fun f => tget d0.kv.seqs f
      let lists : Tbl (List Nat) := match src with
        | some x => x.pages
        | none => sh.1
      let d1 := lists.foldl (fun (d : Dev) (e : Nat × List Nat) =>
        let r := e.2.foldl (fun (acc : List Nat × Dev) p =>
          let q := acc.2.takePage now slot (e.1 / 64) (e.1 % 64) s p
          (acc.1 ++ [q.1], q.2)) (([] : List Nat), d)
        r.2.modSeq slot fun s => { s with pages := tset s.pages e.1 r.1 }) d0
      let p := (lists.map fun e => e.2.length).foldl min (s.prompt.length / 16)
      let len := match src with
        | some x => x.len
        | none => 16 * p
      let d2 := (s.chains.foldl (fun d c => d.extendChain slot c.1 c.2.1 (pagesOf s.prompt.length) (pagesOf s.prompt.length)) d1).modSeq slot
        fun s => { s with state := .atRest, len := len, wait := none }
      (true, ((d2.endWait (.command s.mbx s.seq) true).finishAt now (s.mbx, s.seq) .ok slot (leBytes 4 (if src.isSome then len else 16 * p) ++ leBytes 4 0)))

/-- Readmissions of a batch until the first that does not fit (R230 step 3). -/
def Dev.readmitAll (d : Dev) (now : Nat) (entries : List (Nat × Nat)) (run : List (Nat × Nat)) :
    List Nat → Bool × List (Nat × Nat) × Dev
  | [] => (true, run, d)
  | slot :: rest =>
    let n := ((entries.find? fun e => e.1 == slot).map (·.2)).getD 0
    let was := (tget d.kv.seqs slot).map KvSeq.state
    let r := d.readmit now slot n (d.growthAll run)
    if r.1 = false then (false, run, r.2)
    else
      let run' := if was = some .suspended ∧ (entries.any fun e => e.1 == slot) then run ++ [(slot, n)] else run
      r.2.readmitAll now entries run' rest

/-- Joins of a batch until the first that does not fit (R230 step 3). -/
def Dev.admitAll (d : Dev) (now reserved : Nat) : List Nat → Dev
  | [] => d
  | slot :: rest =>
    let r := d.takeIn now slot reserved
    if r.1 then r.2.admitAll now reserved rest else r.2

/-- A sequence's own copy of a shared page that it must write into, at a place of a chain (R236). -/
def Dev.copyPage (d : Dev) (now slot : Nat) (c : Nat × Nat × Nat) (i : Nat) : Dev :=
  match tget d.kv.seqs slot with
  | none => d
  | some s =>
    let l := s.list c.2.2
    match l[i]? with
    | none => d
    | some p =>
      match d.newPage slot c.1 c.2.1 ((d.page? p).bind KvPage.parent) s with
      | none => d
      | some q =>
        let a := ((q.2.likePage p q.1).modPage p fun g => { g with refs := g.refs - 1 }).modSeq slot
          fun s => { s with copied := true, pages := tset s.pages c.2.2 (l.set i q.1) }
        (a.kvMove now slot .copy [(p, q.1)] (kvDesc (d.ctxClass s.ctx) s.ctx 1 1 1)).2

/-- A sequence's page list in T1 (R223): one 32-bit entry a page, by layer, group and position. -/
def KvSeq.listBytes (s : KvSeq) : List Byte := s.chains.flatMap fun c => (s.list c.2.2).flatMap fun p => leBytes 4 p

/-- The table keeps a sequence's page list in an area of T1 that the steward takes for it, a larger one when it outgrows that (log entry 22: none
where T1 has no room). -/
def Dev.writeList (d : Dev) (slot : Nat) : Dev :=
  match tget d.kv.seqs slot with
  | none => d
  | some s =>
    let bs := s.listBytes
    let d1 : Dev := if bs.length ≤ (s.listAt.elim 0 (·.2)) then d
      else (let d0 := s.listAt.elim d fun a => d.dropArea 1 a.1
            match d0.takeArea 1 bs.length with
            | some p => p.2.modSeq slot fun s => { s with listAt := some (p.1, tierRound 1 bs.length) }
            | none => d0.modSeq slot fun s => { s with listAt := none })
    match (tget d1.kv.seqs slot).bind KvSeq.listAt with
    | some a => { d1 with mem := d1.mem.write a.1 (fixed a.2 bs) }
    | none => d1

/-- Every list follows its sequence (R223). -/
def Dev.writeLists (d : Dev) : Dev := (d.kv.seqs.map (·.1)).foldl (fun (d : Dev) e => d.writeList e) d

/-- A running sequence's growth: copies of the shared pages it must write into, then its new pages (R229, R236). -/
def Dev.growSeq (d : Dev) (now slot n : Nat) : Dev :=
  match tget d.kv.seqs slot with
  | none => d
  | some s0 =>
    s0.chains.foldl (fun d c =>
      let d1 := (d.mustCopy s0 n (s0.list c.2.2)).foldl (fun d i => d.copyPage now slot c i) d
      d1.extendChain slot c.1 c.2.1 (pagesOf (s0.len + n)) (pagesOf (s0.len + n))) d

/-- W_max (R216). -/
def wMax (heads : Nat) (bf16 : Bool) : Nat := (if bf16 then 262144 else 131072) / (64 * max 1 heads) / 64 * 64

/-- The bucket of a length (R219). -/
def bucketOf (len : Nat) : Nat :=
  if len ≤ 256 then 0 else if len ≤ 512 then 1 else if len ≤ 1024 then 2 else if len ≤ 2048 then 3
  else if len ≤ 4096 then 4 else if len ≤ 8192 then 5 else if len ≤ 32768 then 6 else 7

/-- The key block width of a bucket (R219). -/
def blockWidth (len heads : Nat) (bf16 : Bool) : Nat :=
  let w := wMax heads bf16
  if len ≤ 256 then min 256 w else if len ≤ 512 then min 512 w else if len ≤ 1024 then min 1024 w
  else if len ≤ 2048 then min 2048 w else w

/-- Key blocks that spill for a length (R217, R219). -/
def spilledBlocks (len : Nat) (a : AttnRec) : Nat :=
  let w := max 1 (blockWidth len a.heads a.bf16)
  (len + w - 1) / w - 1

/-- Bytes of the query rows' scores of n keys, and of the spill area for the longest sequence that a record, or a cascade's records, declare
(R216, R217). -/
def AttnRec.rowBytes (a : AttnRec) (n : Nat) : Nat := a.qrows * n * (if a.bf16 then 2 else 4)
def AttnRec.spillBytes (a : AttnRec) : Nat := spilledBlocks a.maxLen a * a.rowBytes (blockWidth a.maxLen a.heads a.bf16)
def Cascade.spillBytes (c : Cascade) : Nat := ((c.attn.map AttnRec.parse).map AttnRec.spillBytes).sum

/-- Where the spilled sheets of a basin's attention lie: its record's share of the area its cascade reserved (R217). -/
def Dev.spillAt (d : Dev) (ctx l : Nat) : Option (AttnRec × Nat) :=
  d.fab.cascades.findSome? fun e =>
    if e.2.ctx = ctx ∧ e.2.bound then
      (let rs := e.2.attn.map AttnRec.parse
       match rs.find? fun a => a.lbasin == l, e.2.taken.head? with
       | some a, some t => if a.spillBytes = 0 then none else some (a, t.2 + ((rs.takeWhile fun a => a.lbasin != l).map AttnRec.spillBytes).sum)
       | _, _ => none)
    else none

/-- The entries of a kind in a basin, in order. -/
def Dev.entriesOfKind (d : Dev) (l kind : Nat) : List Nat :=
  match d.basin? l with
  | some b => (List.range 64).filter fun e => match tget b.entries e with
    | some x => x.kind == kind
    | none => false
  | none => []

/-- Whether attention record k of n serves a chain of a sequence (R212, R218): one KV group a basin, the layers spread over the basins of a group
(log entry 22). -/
def kvServes (s : KvSeq) (k n : Nat) (c : Nat × Nat × Nat) : Bool :=
  if s.groups ≤ n then c.2.1 == k % max 1 s.groups && c.1 % max 1 (n / max 1 s.groups) == k / max 1 s.groups else c.2.1 % n == k

/-- Pages that a basin's attention reads of a sequence in a layer, and pages it writes with their new fills. -/
def kvReads (s : KvSeq) (k n layer : Nat) : List Nat :=
  (s.chains.filter fun c => c.1 == layer && kvServes s k n c).flatMap fun c => (s.list c.2.2).take (pagesOf s.len)
def kvWrites (s : KvSeq) (k n layer new : Nat) : List (Nat × Nat) :=
  (s.chains.filter fun c => c.1 == layer && kvServes s k n c).flatMap fun c =>
    (List.range (pagesOf (s.len + new) - s.len / 16)).filterMap fun i =>
      let idx := s.len / 16 + i
      (s.list c.2.2)[idx]?.map fun p => (p, min 16 (s.len + new - 16 * idx))

/-- The running sequences of a bucket with their new tokens, by length after the step and then by the order key of their joins (R219, R220). -/
def Dev.bucketSeqs (d : Dev) (run : List (Nat × Nat)) (b : Nat) : List (Nat × Nat) :=
  let len (e : Nat × Nat) : Nat := (tget d.kv.seqs e.1).elim 0 fun s => s.len + e.2
  let key (e : Nat × Nat) : Key := (tget d.kv.seqs e.1).elim {} KvSeq.key
  sortBy (fun x y => decide (len x < len y) || (len x == len y && (key x).lt (key y))) (run.filter fun e => bucketOf (len e) == b)

/-- A request of a step, if it moves anything; answers the requests so far. -/
def Dev.stepMove (acc : List Nat × Dev) (now slot : Nat) (m : KvMove) (items : List (Nat × Nat)) (x : Desc) : List Nat × Dev :=
  if items = [] then acc else let r := acc.2.kvMove now slot m items x; (acc.1 ++ [r.1], r.2)

/-- The descriptors of one invocation: a bucket's sequences in a layer (R212, R219, R222, log entry 22).  For each attention record K of their pages goes to the
first sluice-inbound entry of its basin and V to the second, where there is one, and their new positions come from its first sluice-outbound entry. -/
def Dev.invocation (d : Dev) (now ctx layer : Nat) (es : List (Nat × Nat)) (acc : List Nat × Dev) : List Nat × Dev :=
  let attn := d.attnOf ctx
  let cls := d.ctxClass ctx
  (List.range attn.length).foldl (fun (acc : List Nat × Dev) k =>
    match attn[k]? with
    | none => acc
    | some a =>
      let pages := es.flatMap fun e => (tget d.kv.seqs e.1).elim [] fun s => (kvReads s k attn.length layer).map fun p => (p, 2 * e.1)
      let first := (es.head?).elim 0 (·.1)
      let rd (acc : List Nat × Dev) (e half : Nat) : List Nat × Dev :=
        Dev.stepMove acc now first .read (pages.map fun p => (p.1, p.2 + half))
          { kvDesc cls ctx 1 0 pages.length with staged := false, entryDst := true, dstAddr := e * 256 + a.lbasin }
      let acc1 := match d.entriesOfKind a.lbasin 3 with
        | e :: rest => rd (rd acc e 0) (rest.headD e) 1
        | [] => acc
      match d.entriesOfKind a.lbasin 4 with
      | e :: _ => es.foldl (fun (acc : List Nat × Dev) q =>
          let wr := if q.2 = 0 then [] else (tget d.kv.seqs q.1).elim [] fun s => kvWrites s k attn.length layer q.2
          Dev.stepMove acc now q.1 .write wr { kvDesc cls ctx 0 1 wr.length with staged := false, entrySrc := true, srcAddr := e * 256 + a.lbasin }) acc1
      | [] => acc1) acc

/-- The descriptors a step generates (R212, R219, R222, R228): one invocation for each layer and non-empty bucket; answers the request numbers. -/
def Dev.stepMoves (d : Dev) (now ctx : Nat) (run : List (Nat × Nat)) : List Nat × Dev :=
  if d.attnOf ctx = [] then ([], d)
  else
    let layers := (run.map fun e => (tget d.kv.seqs e.1).elim 0 KvSeq.layers).foldl max 0
    (List.range layers).foldl (fun (acc : List Nat × Dev) layer =>
      (List.range 8).foldl (fun (acc : List Nat × Dev) b =>
        let es := d.bucketSeqs run b
        if es = [] then acc else d.invocation now ctx layer es acc) acc) ([], d)

/-- The status of a slot's step entry (R234). -/
def Dev.entryStatus (d : Dev) (st : KvStep) (slot : Nat) : Status :=
  if st.torn.contains slot then .faultTorndown
  else match tget d.kv.seqs slot with
    | none => .faultTorndown
    | some s => if s.faulted then .badConfig else if s.runs then .ok else if s.state = .suspended ∨ s.noPages then .noPages else .busy

/-- A step entry (R234). -/
def Dev.stepEntry (d : Dev) (st : KvStep) (k : Key) (slot new : Nat) : List Byte :=
  let s := (tget d.kv.seqs slot)
  let run := s.elim false KvSeq.runs
  let len := s.elim 0 fun s => s.len + (if run then new else 0)
  let attn := d.attnOf st.ctx
  let narrow := s.elim false KvSeq.narrow
  let spilled := if run then (s.elim 0 KvSeq.layers) * (attn.map (spilledBlocks len)).foldl max 0 else 0
  let w16 := (d.entryStatus st slot).code * 2 ^ 16 + bucketOf len * 2 ^ 12 + b2n narrow * 2 ^ 11 +
    b2n (s.elim false KvSeq.copied) * 2 ^ 10 + b2n (s.elim false KvSeq.readmitted) * 2 ^ 9
  k.bytes ++ leBytes 4 w16 ++ leBytes 4 (slot * 2 ^ 20) ++ leBytes 4 len ++ leBytes 4 (min 65535 spilled)

/-- Whether passes of a context's attention still run (R228, R234): a stage runs in one of its basins, or K or V waits there to be read. -/
def Dev.passesRun (d : Dev) (ctx : Nat) : Bool :=
  (d.attnOf ctx).any fun a =>
    let b : Option Basin := match d.basin? a.lbasin with
      | some b => if b.ctx = ctx then some b else none
      | none => ((tgetD d.fab.saved ctx []).find? fun e => e.1 == a.lbasin).map (·.2)
    match b with
    | none => false
    | some b => b.running != [] || ((b.entries.filter fun e => e.2.kind == 3).take 2).any fun e => e.2.readyQ != []

/-- A step ends when its last request has ended and its passes have (R228, R234): entries into the result object, lengths grow, the command
completes. -/
def Dev.endStep (d : Dev) (now ctx : Nat) : Dev :=
  match d.kv.steps.find? fun s => s.ctx == ctx && s.commit.isSome && s.open_.isEmpty && s.torn.isEmpty && !(d.passesRun ctx) with
  | none => d
  | some st =>
    match st.commit with
    | none => d
    | some k =>
      let bs := st.entries.flatMap fun e => d.stepEntry st k e.1 e.2
      let bad := (st.entries.filter fun e => d.entryStatus st e.1 != .ok).length
      let d1 := match d.pinned1 st.result with
        | some x => d.locPut x.2 0 bs.length (Memory.relOf 0 bs)
        | none => d
      let d2 := st.entries.foldl (fun (d : Dev) e => d.modSeq e.1 fun s =>
        let t : KvSeq := { s with copied := false, readmitted := false, narrow := false }
        if s.runs then { t with len := s.len + e.2, state := .atRest, runs := false } else t) d1
      let d3 := { d2 with kv := { d2.kv with steps := d2.kv.steps.filter fun s => !(s.mbx == st.mbx && s.seq == st.seq) } }
      d3.finishAt now (st.mbx, st.seq) (if bad = 0 then .ok else .degraded) bad []

/-- Steps whose passes have come to their end end (R234). -/
def Dev.endSteps (d : Dev) (now : Nat) : Dev := (d.kv.steps.map KvStep.ctx).foldl (fun (d : Dev) c => d.endStep now c) d

/-- Whether a context's previous step still has open requests. -/
def Dev.stepRunning (d : Dev) (ctx : Nat) : Bool := d.kv.steps.any fun s => s.ctx == ctx && s.commit.isSome

/-- The SEQ_STEP whose boundary is next: the earliest accepted one whose batch's previous step has completed (R228). -/
def Dev.nextStep (d : Dev) : Option KvStep :=
  (d.kv.steps.filter fun s => s.commit.isNone && !d.stepRunning s.ctx).foldl (fun m s => match m with
    | none => some s
    | some b => if s.key.lt b.key then some s else some b) none

/-- Step 1 of a boundary (R230, R237, R239): pins released, leaves in key order, sealed pages indexed, pages reclaimed. -/
def Dev.commitStep (d : Dev) (now ctx : Nat) : Dev :=
  let closing (c : Nat) : Bool := (d.ctx? c).elim true fun x => x.closing.isSome
  let mine := d.kv.seqs.filter fun e => e.2.ctx == ctx || (closing e.2.ctx && e.2.state != .inStep)
  let d1 := mine.foldl (fun d e => d.unpinSeq e.1) d
  let going := sortBy (fun (a b : Nat × KvSeq) => (a.2.leaving.elim a.2.key (·.2.2)).lt (b.2.leaving.elim b.2.key (·.2.2)))
    (mine.filter fun e => e.2.leaving.isSome || e.2.faulted)
  let d2 := going.foldl (fun d e => d.leaveSeq now e.1) d1
  let d3 := { d2 with kv := { d2.kv with pages := tmap d2.kv.pages fun _ g => if g.state = 2 then { g with indexed := true } else g } }
  d3.reclaim

/-- Contexts with queued joins and no sequence that a SEQ_STEP could name (log entry 22), in the order of their joins. -/
def Dev.joinsOnly (d : Dev) : List Nat :=
  ((sortBy (fun (a b : Nat × KvSeq) => a.2.key.lt b.2.key) (d.kv.seqs.filter fun e => e.2.state == .queued &&
    !(d.kv.seqs.any fun x => x.2.ctx == e.2.ctx && x.2.state != .queued))).map fun e => e.2.ctx).eraseDups

/-- A boundary of no step: the commit and the joins of a context that has no sequence yet (log entry 22). -/
def Dev.joinBoundary (d : Dev) (now ctx : Nat) : Dev :=
  let d1 := d.commitStep now ctx
  let joins := sortBy (fun (a b : Nat × KvSeq) => a.2.key.lt b.2.key) (d1.kv.seqs.filter fun e => e.2.ctx == ctx && e.2.state == .queued)
  let d2 := d1.admitAll now 0 (joins.map (·.1))
  let k := d2.draw 0x0520 now
  (k.2.writeLists.log ⟨k.1, .kv, false, [ctx]⟩).raise 208

/-- STEP_BOUNDARY (R228 to R232): the next boundary is processed; where no SEQ_STEP waits, a context's closing sequences leave, and the
first joins of contexts without a sequence are admitted. -/
def Dev.stepBoundary (d : Dev) (now : Nat) : Dev :=
  match d.nextStep with
  | none =>
    let closing := d.kv.seqs.filter fun e => e.2.leaving.isSome && (d.ctx? e.2.ctx).elim true fun x => x.closing.isSome
    let d1 := closing.foldl (fun d e => d.commitStep now e.2.ctx) d
    (d1.joinsOnly.foldl (fun d c => d.joinBoundary now c) d1).syncKv
  | some st =>
    let d1 := d.commitStep now st.ctx
    let run0 := st.entries.filter fun e => (tget d1.kv.seqs e.1).elim false fun s => s.state == .atRest && !s.moving
    let short := d1.freeFrames 1 < d1.growthAll run0
    let r2 : List (Nat × Nat) × Dev :=
      if short then (run0, d1)
      else
        let waiting := sortBy (fun (a b : Nat × KvSeq) => a.2.key.lt b.2.key)
          (d1.kv.seqs.filter fun e => e.2.ctx == st.ctx && (e.2.state == .swapped || e.2.state == .suspended) && !e.2.moving)
        let a := d1.readmitAll now st.entries run0 (waiting.map (·.1))
        let joins := sortBy (fun (a b : Nat × KvSeq) => a.2.key.lt b.2.key)
          (a.2.2.kv.seqs.filter fun e => e.2.ctx == st.ctx && e.2.state == .queued)
        (a.2.1, if a.1 then a.2.2.admitAll now (a.2.2.growthAll a.2.1) (joins.map (·.1)) else a.2.2)
    let r3 := r2.2.fitGrowth now r2.1 (r2.2.kv.seqs.length + 1)
    let d4 := r3.1.foldl (fun d e => d.growSeq now e.1 e.2) r3.2
    let d5 := r3.1.foldl (fun d e => d.modSeq e.1 fun s => { s with state := .inStep, runs := true, grow := e.2 }) d4
    let k := d5.draw 0x0520 now
    let d6 := (k.2.log ⟨k.1, .kv, false, [st.ctx]⟩).raise 208
    let mv := d6.stepMoves now st.ctx r3.1
    let d7 := { mv.2 with kv := { mv.2.kv with steps := mv.2.kv.steps.map fun (s : KvStep) =>
      if s.mbx = st.mbx ∧ s.seq = st.seq then { s with commit := some k.1, open_ := mv.1 } else s } }
    ((d7.writeLists).endStep now st.ctx).syncKv

/-- A page list goes back to a page whose copy failed; the copy is no sequence's (R233). -/
def Dev.uncopy (d : Dev) (slot src dst : Nat) : Dev :=
  let held := (tget d.kv.seqs slot).elim false fun s => s.all.contains dst
  if held then
    ((d.modSeq slot fun s => { s with copied := false, pages := tmap s.pages fun _ (l : List Nat) => l.map fun p => if p = dst then src else p }).modPage src fun g =>
      { g with refs := g.refs + 1 }).modPage dst fun g => { g with refs := g.refs - 1, fill := 0 }
  else d

/-- A page stays on its frame whose swap-out failed: a page that was placed there meanwhile, still unwritten, takes another free frame (R232, R233, log
entry 22). -/
def Dev.giveWay (d : Dev) (page : Nat) : Dev :=
  (d.kv.pages.filter fun e => e.1 != page && e.2.tier == 1 && e.2.frame == d.frameOf page).foldl (fun (d : Dev) e =>
    match (d.pickFrames 1 1).head? with
    | some f => d.modPage e.1 fun g => { g with frame := f }
    | none => d) d

/-- A move of the table that failed leaves its pages where they were; the sequence is suspended and no longer runs (R233). -/
def Dev.moveFailed (d : Dev) (now slot : Nat) (m : KvMove) (items : List (Nat × Nat)) : Dev :=
  let d1 : Dev := match m with
    | .copy => items.foldl (fun (d : Dev) (i : Nat × Nat) => d.uncopy slot i.1 i.2) d
    | _ => items.foldl (fun (d : Dev) (i : Nat × Nat) => (d.modPage i.1 fun g => { g with state := if g.fill = 16 then 2 else 1 }).giveWay i.1) d
  ((d1.modSeq slot fun s => { s with moving := false }).suspend slot).almMc 0x054 2 now [slot]

/-- What a completed request of the page table leaves (R222, R224, R233, R234): fills and seals, a failed move suspends
its sequence, a step whose last request ended completes. -/
def Dev.kvRequestDone (d : Dev) (now r : Nat) (p : Purpose) (failed : Bool) : Dev :=
  match p with
  | .kv slot m items =>
    let d1 :=
      if failed then
        (match m with
         | .read => d
         | .write => d
         | _ => if (tget d.kv.seqs slot).isSome then d.moveFailed now slot m items else d)
      else match m with
        | .write => if d.kvRuns slot then items.foldl (fun (d : Dev) (i : Nat × Nat) => (d.modPage i.1 fun g => { g with fill := max g.fill i.2 }).sealPage i.1) d else d
        | .copy => items.foldl (fun (d : Dev) (i : Nat × Nat) => d.sealPage i.2) d
        | _ => d
    let mine := (d1.kv.steps.filter fun s => s.open_.contains r).map KvStep.ctx
    let d2 := { d1 with kv := { d1.kv with steps := d1.kv.steps.map fun (s : KvStep) => { s with open_ := s.open_.filter (· != r) } } }
    (mine.foldl (fun (d : Dev) c => d.endStep now c) d2).syncKv
  | _ => d

/-- The entries of a context's steps are to carry FAULT_TORNDOWN (R235). -/
def Dev.tearSteps (d : Dev) (c : Nat) : Dev :=
  { d with kv := { d.kv with steps := d.kv.steps.map fun (s : KvStep) => if s.ctx = c then { s with torn := s.entries.map (·.1) } else s } }

/-- The entries of a context's committed steps are written with FAULT_TORNDOWN and the commands complete with it (R235). -/
def Dev.endTornSteps (d : Dev) (now ctx : Nat) : Dev :=
  (d.kv.steps.filter fun s => s.ctx == ctx).foldl (fun (d : Dev) st =>
    match st.commit with
    | none => d.finishAt now (st.mbx, st.seq) .faultTorndown 0 []
    | some k =>
      let bs := st.entries.flatMap fun e => d.stepEntry st k e.1 e.2
      (match d.pinned1 st.result with
       | some x => d.locPut x.2 0 bs.length (Memory.relOf 0 bs)
       | none => d).finishAt now (st.mbx, st.seq) .faultTorndown 0 [])
    { d with kv := { d.kv with seqs := tmap d.kv.seqs fun _ (s : KvSeq) => if s.ctx = ctx then { s with runs := false } else s } }

/-- A context's sequences end at a teardown (R235): step entries, pending joins and leaves carry FAULT_TORNDOWN, pins released, REFS down,
slots free. -/
def Dev.kvTeardown (d : Dev) (now ctx : Nat) : Dev :=
  let d0 := d.endTornSteps now ctx
  let mine := d0.kv.seqs.filter fun e => e.2.ctx == ctx
  let d1 := mine.foldl (fun (d : Dev) (e : Nat × KvSeq) =>
    let d1 := e.2.listAt.elim ((d.unpinSeq e.1).derefAll e.2.all) fun a => ((d.unpinSeq e.1).derefAll e.2.all).dropArea 1 a.1
    let d2 := { d1 with kv := { d1.kv with seqs := tdel d1.kv.seqs e.1 } }
    let d3 := if e.2.state = .queued then (d2.dropWait (.command e.2.mbx e.2.seq)).finishAt now (e.2.mbx, e.2.seq) .faultTorndown 0 [] else d2
    match e.2.leaving with
    | some l => d3.finishAt now (l.1, l.2.1) .faultTorndown 0 []
    | none => d3) d0
  ({ d1 with kv := { d1.kv with steps := d1.kv.steps.filter fun s => s.ctx != ctx } }).syncKv

/-- A SEQ_JOIN's deadline passed before its admission (R234). -/
def Dev.joinExpired (d : Dev) (now mbx seq : Nat) : Dev :=
  match d.kv.seqs.find? fun e => e.2.mbx == mbx && e.2.seq == seq && e.2.state == .queued with
  | some e => (({ d with kv := { d.kv with seqs := tdel d.kv.seqs e.1 } }).finishAt now (mbx, seq) .expired 0 []).syncKv
  | none => d

/-- A page record's 32 bytes (R221, R243). -/
def Dev.pageRecord (d : Dev) (i : Nat) : List Byte :=
  match d.page? i with
  | none => leBytes 32 0
  | some g =>
    leBytes 4 (g.state * 2 ^ 27 + g.tier * 2 ^ 25 + g.fmt * 2 ^ 20 + g.fill * 2 ^ 15 + g.seq) ++
    leBytes 4 (g.kscale * 2 ^ 16 + g.vscale) ++ leBytes 4 (g.refs * 2 ^ 16 + g.pins) ++
    leBytes 4 (b2n g.parent.isSome * 2 ^ 31 + g.parent.getD 0 * 2 ^ 13 + g.domain) ++ leBytes 8 g.hash ++
    leBytes 8 (g.layer * 2 ^ 56 + g.group * 2 ^ 50 + g.frame)

end Sys2Proof.Machine
end

