-- ==== Sys2Proof/Machine/Math32.lean ====
section
/-! DEFINITION. FP32 functions with the hardware's own order or last places: sums, exponent, reciprocal, reciprocal square
root (R157, R161 to R163).  k counts the free values drawn. -/

namespace Sys2Proof.Machine

/-- Zero as a value. -/
def FV.zero : FV := .fin false 0 0

/-- Sum values in FP32 in an order nothing fixes: two of them at a time (R157, R162). -/
def sumAny : Nat → List FV → Nat → FV × Nat
  | 0, l, k => (l.headD .zero, k)
  | _ + 1, [], k => (.zero, k)
  | _ + 1, [x], k => (x, k)
  | n + 1, l, k =>
    let i := Config.freeNat k % l.length
    let x := l.getD i .zero
    let l1 := l.eraseIdx i
    let j := Config.freeNat (k + 1) % max 1 l1.length
    sumAny n (add32 x (l1.getD j .zero) :: l1.eraseIdx j) (k + 2)

/-- The FP32 sum of a list. -/
def sum32 (l : List FV) (k : Nat) : FV × Nat := sumAny l.length l k

/-- ln 2 in units of 2^-128. -/
def ln2 : Int := 235865763225513294137944142764154484399

/-- e^r in units of 2^-128 for r in the same units, 0 ≤ r < ln 2. -/
def expFrac (r : Int) : Int :=
  ((List.range 40).foldl (fun (p : Int × Int) i => let t := p.1 * r / (2 ^ 128 * ((i : Int) + 1)); (t, p.2 + t)) ((2 : Int) ^ 128, (2 : Int) ^ 128)).2

/-- e^x of a finite value to more than 64 bits; x of 256 or more in magnitude is bounded there. -/
def FV.exp (s : Bool) (m : Nat) (e : Int) : FV :=
  let big := decide ((8 : Int) ≤ binade m e) && m != 0
  let x := if big then (if s then -256 * (2 : Int) ^ 128 else 256 * (2 : Int) ^ 128)
    else (let v := if 0 ≤ e + 128 then (m : Int) * 2 ^ (e + 128).toNat else (m : Int) / 2 ^ (-(e + 128)).toNat; if s then -v else v)
  let q := x / ln2
  .fin false (expFrac (x - q * ln2)).toNat (q - 128)

/-- Whether a value is a finite FP32 number. -/
def fits32 (x : FV) : Bool := !(FV.lt (dec32 (enc32 x)) x) && !(FV.lt x (dec32 (enc32 x)))

/-- The FP32 numbers up to two units in the last place away from a finite value that is not zero (R161); below a power of two they lie half as
far apart. -/
def near2 (s : Bool) (m : Nat) (e : Int) : List FV :=
  let h := binade m e - 24
  let t : Nat := if h ≤ e then m * 2 ^ (e - h).toNat else m / 2 ^ (h - e).toNat
  let exact : Bool := decide (h ≤ e) || m % 2 ^ (h - e).toNat == 0
  (List.range 9).filterMap fun i =>
    let v : FV := .fin s (t + i - 4) h
    if (exact || i != 0) && fits32 v then some v else none

/-- One of the FP32 numbers up to two units in the last place away (R161). -/
def within2 (x : FV) (k : Nat) : FV :=
  match x with
  | .fin s m e => let l := near2 s m e; l.getD (Config.freeNat k % max 1 l.length) x
  | x => x

/-- A result of exponent, reciprocal or reciprocal square root (R161): within two units in the last place where it is a
finite normal value; a value the spec does not bound is free. -/
def unary2 (x : FV) (k : Nat) : Nat :=
  match x with
  | .fin _ m e => if m ≠ 0 ∧ -126 ≤ binade m e ∧ binade m e ≤ 127 then enc32 (within2 x k) else Config.freeNat k % 2 ^ 32
  | x => enc32 x

/-- Whether a positive finite value lies above 88.7228 (R161). -/
def expOver (m : Nat) (e : Int) : Bool :=
  if 0 ≤ e then decide (887228 < m * 2 ^ e.toNat * 10000) else decide (887228 * 2 ^ (-e).toNat < m * 10000)

/-- Exponent (R161): FP32 bits to FP32 bits. -/
def exp32 (v k : Nat) : Nat :=
  match dec32 v with
  | .nan => enc32 .nan
  | .inf s => if s then 0 else enc32 (.inf false)
  | .fin s m e =>
    if m = 0 then 0x3F800000
    else if s = false ∧ expOver m e then enc32 (.inf false)
    else
      let y := FV.exp s m e
      if FV.lt y (.fin false 1 (-149)) then 0 else if FV.lt y (.fin false 1 128) then unary2 y k else enc32 (.inf false)

/-- Reciprocal (R161): of a negative finite number it is finite or −0. -/
def recip32 (v k : Nat) : Nat :=
  match dec32 v with
  | .nan => enc32 .nan
  | .inf s => enc32 (.fin s 0 0)
  | .fin s m e =>
    if m = 0 then enc32 (.inf s)
    else
      let r := unary2 (FV.div (.fin false 1 0) (.fin s m e)) k
      if s ∧ bits r 23 8 = 255 then 0x80000000 else r

/-- Reciprocal square root (R161). -/
def rsqrt32 (v k : Nat) : Nat :=
  match dec32 v with
  | .nan => enc32 .nan
  | .inf s => if s then enc32 .nan else 0
  | .fin s m e =>
    if m = 0 then enc32 (.inf s)
    else if s then enc32 .nan
    else
      let m2 := if e % 2 = 0 then m else 2 * m
      let e2 := if e % 2 = 0 then e else e - 1
      -- 1 / sqrt(m2 × 2^e2) = sqrt(2^200 / m2) × 2^(-100 - e2/2)
      unary2 (.fin false (Nat.sqrt (2 ^ 256 / m2)) (-128 - e2 / 2)) k

/-- FP32 arithmetic on bit patterns. -/
def fadd (a b : Nat) : Nat := enc32 ((dec32 a).add (dec32 b))
def fsub (a b : Nat) : Nat := enc32 ((dec32 a).add (dec32 b).negate)
def fmul (a b : Nat) : Nat := enc32 ((dec32 a).mul (dec32 b))
def fdiv (a b : Nat) : Nat := enc32 ((dec32 a).div (dec32 b))
def ffma (a b c : Nat) : Nat := enc32 (((dec32 a).mul (dec32 b)).add (dec32 c))
def fneg (a : Nat) : Nat := enc32 (dec32 a).negate
def fabs (a : Nat) : Nat := enc32 (dec32 a).abs
def flt (a b : Nat) : Bool := (dec32 a).lt (dec32 b)
def fle (a b : Nat) : Bool := dec32 a != .nan && dec32 b != .nan && !((dec32 b).lt (dec32 a))

/-- Whether an FP32 pattern is a finite number. -/
def ffinite (a : Nat) : Bool := decide (a % 2 ^ 31 < 0x7F800000)

/-- The place of an FP32 pattern among the numbers in rising order, and the pattern at a place. -/
def ulpPlace (a : Nat) : Int := if a < 2 ^ 31 then a else -((a % 2 ^ 31 : Nat) : Int)
def ulpAt (i : Int) : Nat := if 0 ≤ i then i.toNat else 2 ^ 31 + (-i).toNat

/-- A finite FP32 number moved by some units in the last place, within the finite numbers. -/
def ulpStep (a : Nat) (k : Int) : Nat :=
  if ffinite a then ulpAt (max (-0x7F7FFFFF) (min 0x7F7FFFFF (ulpPlace a + k))) else a

/-- The square root of an FP32 number, rounded to nearest even; NaN below zero. -/
def fsqrt (a : Nat) : Nat :=
  match dec32 a with
  | .nan => enc32 .nan
  | .inf s => if s then enc32 .nan else enc32 (.inf false)
  | .fin s m e =>
    if m = 0 then enc32 (.fin s 0 0)
    else if s then enc32 .nan
    else
      let m2 := if e % 2 = 0 then m * 2 ^ 128 else 2 * m * 2 ^ 128
      let e2 := if e % 2 = 0 then e else e - 1
      let r := Nat.sqrt m2
      enc32 (.fin false (if r * r = m2 then r else 2 * r + 1) (if r * r = m2 then e2 / 2 - 64 else e2 / 2 - 65))

/-- An integer as FP32, and an FP32 number rounded to the nearest integer, ties to even. -/
def fofInt (i : Int) : Nat := enc32 (FV.ofInt i 0)
def ftoInt (a : Nat) : Int :=
  match dec32 a with
  | .fin s m e => roundInt none s m e
  | _ => 0

/-- A finite FP32 number cut down to the integer below it. -/
def ffloor (a : Nat) : Int :=
  match dec32 a with
  | .fin s m e =>
    let v : Int := if s then -(m : Int) else m
    if 0 ≤ e then v * 2 ^ e.toNat else v / 2 ^ (-e).toNat
  | _ => 0

end Sys2Proof.Machine
end

