-- ==== Sys2Proof/Machine/StageForm.lean ====
section
/-! DEFINITION. What a stage word asks of its engine: operand shapes, sizes, accepted formats and static cycle counts (R116 to R122,
R149, R153, R160, R244 to R252). -/

namespace Sys2Proof.Machine

/-- The dimensions of a tile. -/
structure Dims where
  d0 : Nat
  d1 : Nat
  d2 : Nat
  deriving DecidableEq, Repr

/-- The dimensions in a stage word. -/
def stDims (w : Nat) : Dims := ⟨stDim0 w, stDim1 w, stDim2 w⟩

/-- A window record (R244). -/
structure WinRec where
  gen : Nat
  mode : Nat
  exclude : Bool
  stage : Nat
  lbasin : Nat
  inH : Nat
  inW : Nat
  top : Nat
  bottom : Nat
  left : Nat
  right : Nat
  pad : Nat
  skipRows : Nat
  skipCols : Nat
  rsvd : Nat
  deriving DecidableEq, Repr

/-- A window record from its 32 bytes. -/
def WinRec.parse (bs : List Byte) : WinRec :=
  let w := bytesAt bs 0 4
  let k := bytesAt bs 20 4
  { gen := bits w 30 2, mode := bits w 28 2, exclude := bit w 27, stage := bits w 8 3, lbasin := bits w 0 8,
    inH := bytesAt bs 6 2, inW := bytesAt bs 4 2, top := bytesAt bs 10 2, bottom := bytesAt bs 8 2, left := bytesAt bs 14 2,
    right := bytesAt bs 12 2, pad := bytesAt bs 16 4, skipRows := bits k 16 15, skipCols := bits k 0 15,
    rsvd := bits w 11 16 + bits k 31 1 + bits k 15 1 + bytesAt bs 24 8 }

/-- Whether a stage word is a window LOAD. -/
def isWindow (w : Nat) : Bool := stKind w == 0 && stSubop w == 1

/-- Kernel rows and columns that are not skipped (R249). -/
def WinRec.rows (x : WinRec) (w : Nat) : List Nat := (List.range (stKh w)).filter fun i => !(x.skipRows.testBit i)
def WinRec.cols (x : WinRec) (w : Nat) : List Nat := (List.range (stKw w)).filter fun j => !(x.skipCols.testBit j)

/-- The taps of a window, row by row. -/
def WinRec.taps (x : WinRec) (w : Nat) : List (Nat × Nat) := (x.rows w).flatMap fun i => (x.cols w).map fun j => (i, j)

/-- The input row of an output row and kernel row, and the input column likewise; negative or large values lie in padding. -/
def WinRec.rowAt (x : WinRec) (w out i : Nat) : Int := ((out * stStride w + i * stDilation w : Nat) : Int) - x.top
def WinRec.colAt (x : WinRec) (w out j : Nat) : Int := ((out * stStride w + j * stDilation w : Nat) : Int) - x.left

/-- Output rows and columns of the whole operator. -/
def WinRec.outH (x : WinRec) (w : Nat) : Nat :=
  (x.inH + x.top + x.bottom - ((stKh w - 1) * stDilation w + 1)) / max 1 (stStride w) + 1
def WinRec.outW (x : WinRec) (w : Nat) : Nat :=
  (x.inW + x.left + x.right - ((stKw w - 1) * stDilation w + 1)) / max 1 (stStride w) + 1

/-- Whether the kernel reaches past the padded input, so that there is no output. -/
def WinRec.empty (x : WinRec) (w : Nat) : Bool :=
  decide (x.inH + x.top + x.bottom < (stKh w - 1) * stDilation w + 1) || decide (x.inW + x.left + x.right < (stKw w - 1) * stDilation w + 1)

/-- Whether a kernel row, or column, is wholly in padding for an output of h rows, or v columns (R249). -/
def WinRec.rowPadded (x : WinRec) (w h i : Nat) : Bool :=
  (List.range h).all fun o => decide (x.rowAt w o i < 0) || decide ((x.inH : Int) ≤ x.rowAt w o i)
def WinRec.colPadded (x : WinRec) (w v j : Nat) : Bool :=
  (List.range v).all fun o => decide (x.colAt w o j < 0) || decide ((x.inW : Int) ≤ x.colAt w o j)

/-- Whether no kernel row or column is wholly in padding under reflect or replicate, for an output of h rows and v columns (R251). -/
def WinRec.edgeOk (x : WinRec) (w h v : Nat) : Bool :=
  decide (x.mode < 2) || ((List.range (stKh w)).all (fun i => !(x.rowPadded w h i)) && (List.range (stKw w)).all (fun j => !(x.colPadded w v j)))

/-- The padding rules of R249 and R251: no SKIP bit of a row or column that is not wholly in padding; none wholly in padding under
reflect or replicate; under reflect no element more than the input's size less one beyond the edge. -/
def WinRec.padOk (x : WinRec) (w : Nat) : Bool :=
  (List.range 15).all (fun i => !(x.skipRows.testBit i) || (decide (i < stKh w) && x.rowPadded w (x.outH w) i)) &&
  (List.range 15).all (fun j => !(x.skipCols.testBit j) || (decide (j < stKw w) && x.colPadded w (x.outW w) j)) &&
  x.edgeOk w (x.outH w) (x.outW w) && (x.mode != 2 || (decide (x.top < x.inH) && decide (x.bottom < x.inH) && decide (x.left < x.inW) && decide (x.right < x.inW)))

/-- Whether sizes taken at dispatch, m0 output rows and m1 output columns, keep R251 (R252, DEDUCED, log entry 25): no kernel row or column is wholly in
padding over them, and under reflect no element they read lies more than the input's size less one beyond the edge. -/
def WinRec.padFits (x : WinRec) (w m0 m1 : Nat) : Bool :=
  x.edgeOk w m0 m1 && (x.mode != 2 ||
    (decide (x.top < x.inH) && decide (x.left < x.inW) &&
     decide (x.rowAt w (m0 - 1) (stKh w - 1) ≤ 2 * (x.inH : Int) - 2) && decide (x.colAt w (m1 - 1) (stKw w - 1) ≤ 2 * (x.inW : Int) - 2)))

/-- Whether every tap but the centre is skipped, so that a window reads the rows and columns of the centre tap only (R250). -/
def WinRec.centre (x : WinRec) (w : Nat) : Bool :=
  stKh w % 2 == 1 && stKw w % 2 == 1 && decide (1 < stKh w * stKw w) && x.taps w == [((stKh w - 1) / 2, (stKw w - 1) / 2)]

/-- The taps along an axis of k, dilation d, whose distances from an output's first input element bound what is read (R245, R250). -/
def WinRec.reach (x : WinRec) (w k : Nat) : Nat × Nat :=
  if x.centre w then ((k - 1) / 2 * stDilation w, (k - 1) / 2 * stDilation w) else (0, (k - 1) * stDilation w)

/-- Input rows a stripe of n output rows from row0 reads (R245): the first one fetched, and how many are fetched. -/
def WinRec.firstRow (x : WinRec) (w row0 : Nat) : Nat := row0 * stStride w + (x.reach w (stKh w)).1 - x.top
def WinRec.stripeRows (x : WinRec) (w row0 n : Nat) : Nat :=
  min x.inH ((row0 + n - 1) * stStride w + (x.reach w (stKh w)).2 + 1 - x.top) - x.firstRow w row0

/-- Whether a tile of v output columns is cut out of the rows (R245), and the input columns that a tile's slot holds: those the tile reads where it is
cut, whole rows else. -/
def WinRec.cut (x : WinRec) (w v : Nat) : Bool := decide (v < x.outW w)
def WinRec.firstCol (x : WinRec) (w col0 v : Nat) : Nat := if x.cut w v then col0 * stStride w + (x.reach w (stKw w)).1 - x.left else 0
def WinRec.tileCols (x : WinRec) (w col0 v : Nat) : Nat :=
  if x.cut w v then min x.inW ((col0 + v - 1) * stStride w + (x.reach w (stKw w)).2 + 1 - x.left) - x.firstCol w col0 v else x.inW

/-- The pixels of a window LOAD's input tile. -/
def WinRec.pixels (x : WinRec) (w : Nat) (m : Dims) (at_ : WinAt) : Nat := x.stripeRows w at_.row m.d0 * x.tileCols w at_.col m.d1

/-- The pixels of the largest tile of these output rows and columns, one that no edge shortens (R245). -/
def WinRec.mostPixels (x : WinRec) (w : Nat) (m : Dims) : Nat :=
  let span (k n : Nat) : Nat := (n - 1) * stStride w + (x.reach w k).2 - (x.reach w k).1 + 1
  min x.inH (span (stKh w) m.d0) * (if x.cut w m.d1 then min x.inW (span (stKw w) m.d1) else x.inW)

/-- The engine that runs a stage kind. -/
def engineOf (kind : Nat) : Nat := if kind = 4 then 2 else kind

/-- Whether an operand fits one of the accepted pairs, and the dense rate of the pair (R153). -/
def pairRate (a b : Nat) : Option Nat :=
  let fp8 := decide (3 ≤ a) && decide (a ≤ 6)
  if b = 1 ∨ b = 2 then (if a = 1 ∨ a = 2 then some 512 else none)
  else if 3 ≤ b ∧ b ≤ 6 then (if fp8 then some 2048 else none)
  else if b = 7 ∨ b = 8 then (if fp8 ∨ a = 7 ∨ a = 8 then some 2048 else none)
  else if b = 0x0A then (if fp8 ∨ a = 0x0A then some 2048 else none)
  else if b = 0x0B then (if a = 0x0B then some 2048 else none)
  else if b = 9 then (if fp8 ∨ a = 0x0A ∨ a = 9 then some 4096 else none)
  else if b = 0x0C then (if a = 0x0B then some 4096 else none)
  else if b = 0x0D then (if fp8 ∨ a = 0x0A ∨ a = 0x0B then some 4096 else none)
  else none

/-- Whether a weight format may be sparse (R153). -/
def sparseOk (b : Nat) : Bool := !([1, 2, 7, 8].contains b)

/-- A format the vector engines take as it is (R160). -/
def wide (fmt : Nat) : Bool := decide (fmt ≤ 2)

/-- Whether a vector or reduction operation takes INT32 (R160). -/
def int32Op (kind sub : Nat) : Bool := (kind == 2 && [0, 3, 4, 9].contains sub) || (kind == 3 && sub ≤ 2)

/-- Whether a stage's operation reads IN_B: a list of indices, weights, a second vector. -/
def usesB (kind sub : Nat) : Bool :=
  (kind == 0 && sub == 2) || (kind == 1 && sub != 2) || (kind == 2 && [0, 1, 2, 3, 4, 8].contains sub) || (kind == 6 && sub == 1)

/-- Whether a stage's operation may read IN_B. -/
def mayUseB (kind sub fmtOut : Nat) : Bool :=
  usesB kind sub || (kind == 2 && sub == 9) || (kind == 5 && (fmtOut == 0x0B || fmtOut == 0x0C))

/-- Whether SUBOP is assigned for a kind. -/
def subopOk (kind sub : Nat) : Bool :=
  match kind with
  | 0 => decide (sub ≤ 3)
  | 1 => decide (sub ≤ 2)
  | 2 => decide (sub ≤ 9)
  | 3 => decide (sub ≤ 4)
  | 4 => decide (sub ≤ 2)
  | 5 => sub == 0
  | 6 => decide (sub ≤ 1)
  | 7 => sub == 0
  | _ => false

/-- The format of operand A that a drain may name (R116, DEDUCED, log entry 25): one of an activation operand, or 0 for none. -/
def drainFmt (a : Nat) : Bool := decide (a ≤ 0x0B)

/-- Whether the formats of a stage word suit its engine (R116, R121, R153, R160, R166). -/
def formatsOk (w : Nat) : Bool :=
  let k := stKind w
  let a := stFmtA w
  let b := stFmtB w
  let o := stFmtOut w
  fmtAssigned a && fmtAssigned b && fmtAssigned o && !(o == 0x0D && stRound w == 1) &&
  (match k with
   | 1 => (stSubop w == 2 && drainFmt a) || (stSubop w != 2 && (pairRate a b).isSome && (!stSparse w || sparseOk b))
   | 2 | 3 | 4 =>
     let pair := usesB k (stSubop w) && k == 2 || (k == 2 && stSubop w == 9 && stInB w != 63)
     if a = 0x0E then int32Op k (stSubop w) && o == 0x0E && (!pair || b == 0x0E)
     else wide a && (!pair || wide b)
   | 5 => true
   | _ => a == o)

/-- Whether a stage names a block-scaled format for a MATRIX operand or a CONVERT (R149). -/
def needs32 (w : Nat) : Bool :=
  (stKind w == 1 && (blockScaled (stFmtA w) || blockScaled (stFmtB w))) ||
  (stKind w == 5 && (blockScaled (stFmtA w) || blockScaled (stFmtOut w)))

/-- Bytes of a tile of n elements and ch channels in a slot: element, scale and metadata planes, each on a 64-byte line (R148). -/
def tileBytes (fmt n ch : Nat) (sparse : Bool) : Nat :=
  up64 (planeSize fmt (if sparse then n / 2 else n)) + up64 (scaleSize fmt n ch) + (if sparse then up64 ((n + 31) / 32 * 4) else 0)

/-- Elements and channels of operand A, operand B and the result of a stage (R146, log entry 25). -/
def shapeA (w : Nat) (m : Dims) (x : Option WinRec) (at_ : WinAt) : Nat × Nat :=
  if stKind w = 1 then (m.d0 * m.d2, m.d0)
  else match x with
    | some r => if isWindow w then (r.pixels w m at_ * m.d2, r.pixels w m at_) else (m.d0 * m.d1 * m.d2, m.d0)
    | none => (m.d0 * m.d1 * m.d2, m.d0)

/-- The same for the largest tile of operand A that the dimensions allow. -/
def shapeMost (w : Nat) (m : Dims) (x : Option WinRec) : Nat × Nat :=
  match x with
  | some r => if isWindow w then (r.mostPixels w m * m.d2, r.mostPixels w m) else shapeA w m x ⟨0, 0⟩
  | none => shapeA w m x ⟨0, 0⟩
def shapeB (w : Nat) (m : Dims) : Nat × Nat :=
  let k := stKind w
  let s := stSubop w
  if k = 1 then (m.d1 * m.d2, m.d1)
  else if k = 2 then (if s = 8 then (m.d2, 1) else if s = 9 then (2, 1) else (m.d0 * m.d1 * m.d2, m.d0))
  else (m.d0 * m.d1, 1)
def shapeOut (w : Nat) (m : Dims) (x : Option WinRec) : Nat × Nat :=
  let k := stKind w
  if k = 1 then (m.d0 * m.d1, m.d0)
  else if k = 3 then (if stSubop w = 4 then (m.d2, 1) else (m.d0 * m.d2, m.d0))
  else if k = 0 ∧ stSubop w = 3 then (m.d0 * m.d1 * m.d2, m.d1)
  else match x with
    | some r => if isWindow w then (m.d0 * m.d1 * (r.taps w).length * m.d2, m.d0 * m.d1) else (m.d0 * m.d1 * m.d2, m.d0)
    | none => (m.d0 * m.d1 * m.d2, m.d0)

/-- a / b rounded up. -/
def ceilDiv (a b : Nat) : Nat := (a + b - 1) / b

/-- Columns of a weight block that the matrix unit holds: 64 at 4 bits and L4, 8 at BF16 and FP16, 32 else (R116). -/
def blockCols (b : Nat) : Nat := if b = 9 ∨ b = 0x0C ∨ b = 0x0D then 64 else if b = 1 ∨ b = 2 then 8 else 32

/-- The static cycle count of a stage for one tile, from its engine's rate (R116, R118, log entry 26). -/
def stageCycles (w : Nat) (m : Dims) (x : Option WinRec) : Nat :=
  let n := m.d0 * m.d1 * m.d2
  let out := shapeOut w m x
  match stKind w with
  | 0 | 6 => ceilDiv (tileBytes (stFmtA w) out.1 out.2 false) 512
  | 1 =>
    if stSubop w = 2 then ceilDiv (m.d0 * m.d1) 64
    else m.d0 * ceilDiv m.d1 (blockCols (stFmtB w)) * ceilDiv m.d2 (if stSparse w then 128 else 64)
  | 2 => ceilDiv n (if 5 ≤ stSubop w ∧ stSubop w ≤ 7 then 16 else 64)
  | 3 => m.d0 * m.d2 * ceilDiv m.d1 64
  | 4 => if stSubop w = 0 then ceilDiv n 16 + 3 * ceilDiv n 64 else 4 * ceilDiv n 64
  | 5 => ceilDiv n 64
  | _ => ceilDiv (tileBytes (stFmtA w) n m.d0 false) 256

/-- Whether DIM2 obeys R149. -/
def dim2Ok (w : Nat) (m : Dims) : Bool := !needs32 w || m.d2 % 32 == 0

/-- Whether a tile's dimensions obey the limits of R118 and R149, and a MATRIX tile fits the 64 × 64 accumulators (R116). -/
def dimsOk (w : Nat) (m : Dims) (x : Option WinRec) : Bool :=
  decide (1 ≤ m.d0) && decide (m.d0 ≤ 4095) && decide (1 ≤ m.d1) && decide (m.d1 ≤ 4095) && decide (1 ≤ m.d2) && decide (m.d2 ≤ 4095) &&
  dim2Ok w m && (stKind w != 1 || (decide (m.d0 ≤ 64) && decide (m.d1 ≤ 64))) && decide (stageCycles w m x ≤ 1536)

/-- Whether a stage's tiles fit slots of the given sizes in bytes (R122, log entry 25). -/
def fitsSlots (w : Nat) (m : Dims) (x : Option WinRec) (sa sb so : Nat) : Bool :=
  let a := shapeMost w m x
  let b := shapeB w m
  let o := shapeOut w m x
  decide (tileBytes (stFmtA w) a.1 a.2 false ≤ sa || (stKind w == 1 && stSubop w == 2)) &&
  (stInB w == 63 || decide ((if stKind w = 0 ∨ stKind w = 6 then 4 * b.1 else if stKind w = 5 then scaleSize (stFmtOut w) o.1 o.2
    else tileBytes (stFmtB w) b.1 b.2 (stSparse w)) ≤ sb)) &&
  (stKind w == 7 || (stKind w == 1 && stSubop w != 2) || decide (tileBytes (stFmtOut w) o.1 o.2 false ≤ so))

end Sys2Proof.Machine
end

