-- ==== Sys2Proof/Machine/StageData.lean ====
section
/-! DEFINITION. The data operations of the stages: tiles in slots, loads and stores, matrix products and drains, vector, reduction,
normalisation and conversion (R146 to R175, R212 to R215, R244 to R253). -/

namespace Sys2Proof.Machine

/-- A tile in a slot: address, slot size, format, elements, channels, and whether it is 2:4 sparse (R148, log entry 25). -/
structure Tile where
  addr : Nat
  size : Nat
  fmt : Nat
  n : Nat
  ch : Nat
  sparse : Bool
  deriving DecidableEq, Repr

/-- Where a tile's scale and metadata planes start. -/
def Tile.scaleAt (x : Tile) : Nat := x.addr + up64 (planeSize x.fmt (if x.sparse then x.n / 2 else x.n))
def Tile.metaAt (x : Tile) : Nat := x.scaleAt + up64 (scaleSize x.fmt x.n x.ch)

/-- Elements a slot can hold in an unscaled format. -/
def Tile.room (x : Tile) : Nat := if blockScaled x.fmt || x.fmt == 0x0B then x.n else x.size * 8 / elemBits x.fmt

/-- Element i of a tile as bits (R147). -/
def Dev.elem (d : Dev) (x : Tile) (i : Nat) : Nat :=
  let w := elemBits x.fmt
  if w = 4 then bits (d.mem.le (x.addr + i / 2) 1) (4 * (i % 2)) 4
  else if w = 6 then bits (d.mem.le (x.addr + i / 4 * 3) 3) (6 * (i % 4)) 6
  else d.mem.le (x.addr + i * (w / 8)) (w / 8)

/-- Bytes of one scale of a format. -/
def unitBytes (fmt : Nat) : Nat := if hasE8M0 fmt then 1 else if fmt = 0x0C then 2 else if fmt = 0x0B then 4 else 0

/-- The scale that element i takes: its block's or group's, or that of its channel (R145, R146). -/
def unitOf (fmt : Nat) (chan : Nat → Nat) (i : Nat) : Nat := if blockScaled fmt then i / 32 else if fmt = 0x0B then chan i else 0

/-- Scales of a tile. -/
def unitsOf (fmt n ch : Nat) : Nat := if blockScaled fmt then (n + 31) / 32 else if fmt = 0x0B then ch else 0

/-- A scale's bits in a tile, and the value of a scale. -/
def Dev.rawScale (d : Dev) (x : Tile) (u : Nat) : Nat := d.mem.le (x.scaleAt + u * unitBytes x.fmt) (unitBytes x.fmt)
def scaleVal (fmt raw : Nat) : FV :=
  if hasE8M0 fmt then e8m0 raw
  else if fmt = 0x0C then (⟨5, 10, 15, 1⟩ : Layout).decode raw
  else if fmt = 0x0B then dec32 raw else .fin false 1 0

/-- The value of element i of a tile (R145). -/
def Dev.val (d : Dev) (x : Tile) (chan : Nat → Nat) (i : Nat) : FV :=
  (elemVal x.fmt (d.elem x i)).mul (scaleVal x.fmt (d.rawScale x (unitOf x.fmt chan i)))

/-- The values of a dense tile whose channels are runs of a given length. -/
def Dev.vals (d : Dev) (x : Tile) (run : Nat) : List FV := (List.range x.n).map fun i => d.val x (· / max 1 run) i

/-- The scale a conversion chooses for the values of one block, group or channel (R165). -/
def pickScale (fmt : Nat) (sat : Bool) (vs : List FV) : Nat :=
  let a := amax vs
  if hasE8M0 fmt then chooseE8M0 fmt sat vs
  else if fmt = 0x0B then (if a.isZero then 0x3F800000 else enc32 (a.div (.fin false 127 0)))
  else if fmt = 0x0C then (if a.isZero then 0x3C00 else fp16Up (a.div (.fin false 7 0)))
  else 0

/-- A value over its scale. -/
def unscale (fmt raw : Nat) (x : FV) : FV :=
  if hasE8M0 fmt then x.shift (127 - (raw : Int)) else if fmt = 0x0B ∨ fmt = 0x0C then x.div (scaleVal fmt raw) else x

/-- One element against its scale, with 16 random bits under stochastic rounding; under a NaN scale its bits are free, but for the 0x80 of MXINT8,
which no conversion writes (R146). -/
def encodeAt (fmt : Nat) (rnd : Option Nat) (sat : Bool) (raw k : Nat) (x : FV) : Nat :=
  if hasE8M0 fmt ∧ raw = 0xFF then
    (let v := Config.freeNat k % (2 ^ elemBits fmt - b2n (fmt == 0x0A))
     if fmt = 0x0A ∧ 0x80 ≤ v then v + 1 else v)
  else encodeElem fmt rnd sat (unscale fmt raw x)

/-- Scales as bytes of a scale plane. -/
def scaleBytes (fmt : Nat) (ss : List Nat) : List Byte := ss.flatMap (leBytes (unitBytes fmt))

/-- Write elements and scales into a tile. -/
def Dev.putTile (d : Dev) (x : Tile) (es ss : List Nat) : Dev :=
  { d with mem := (d.mem.write x.addr (packPlane x.fmt es)).write x.scaleAt (scaleBytes x.fmt ss) }

/-- Convert values into a tile (R164 to R171): scales first, unless given, then the elements lane by lane; answers the
generators' new states.  DESIGN CHOICE, unsafe (log entry 64): a stage takes the random bits of its whole tile in its one data operation, so the
order of two stages that round in one cycle (R171) is that of their operations. -/
def Dev.putVals (d : Dev) (w : Nat) (x : Tile) (chan : Nat → Nat) (given : Option (List Nat)) (lanes : List Nat) (vs : List FV) : List Nat × Dev :=
  let units := unitsOf x.fmt x.n x.ch
  let ss := given.getD ((List.range units).map fun u =>
    pickScale x.fmt (stSat w) ((List.range vs.length).filterMap fun i => if unitOf x.fmt chan i = u then vs[i]? else none))
  let step (acc : List Nat × List Nat) (i : Nat) : List Nat × List Nat :=
    let p := lfsr16 (acc.2.getD (i % 64) 1)
    let rnd := if stRound w = 1 then some p.1 else none
    (acc.1 ++ [encodeAt x.fmt rnd (stSat w) (ss.getD (unitOf x.fmt chan i) 0) (d.free + i) (vs.getD i .zero)],
      if stRound w = 1 then acc.2.set (i % 64) p.2 else acc.2)
  let r := (List.range vs.length).foldl step ([], lanes)
  (r.2, ({ d with free := d.free + vs.length }).putTile x r.1 ss)

/-- Where an element of a moved tile comes from. -/
inductive Pick where
  | keep | pad | open_ | src (i : Nat)
  deriving DecidableEq, Repr

/-- Move elements with their scales (R148, R244, R247, R248): a scale whose elements come from several different ones is a free
value (log entry 25). -/
def Dev.moveTile (d : Dev) (x out : Tile) (chIn chOut : Nat → Nat) (pick : Nat → Pick) (pad : FV) : Dev :=
  let units := unitsOf out.fmt out.n out.ch
  let all := List.range out.n
  let ss := (List.range units).map fun u =>
    let mine := all.filter fun o => unitOf out.fmt chOut o == u
    let raws := mine.filterMap fun o => match pick o with
      | .src i => some (d.rawScale x (unitOf x.fmt chIn i))
      | .keep => some (d.rawScale out u)
      | _ => none
    match raws with
    | [] => if mine.any fun o => pick o == .pad then pickScale out.fmt true [pad] else Config.freeNat (d.free + u) % 2 ^ (8 * unitBytes out.fmt)
    | r :: rest => if rest.all (· == r) then r else Config.freeNat (d.free + u) % 2 ^ (8 * unitBytes out.fmt)
  let es := all.map fun o => match pick o with
    | .keep => d.elem out o
    | .src i => d.elem x i
    | .open_ => Config.freeNat (d.free + units + o) % 2 ^ elemBits out.fmt
    | .pad => encodeAt out.fmt none true (ss.getD (unitOf out.fmt chOut o) 0) (d.free + units + o) pad
  ({ d with free := d.free + units + out.n }).putTile out es ss

/-- An index brought inside 0 to n − 1 by reflection or replication (R248). -/
def padIndex (mode : Nat) (n : Nat) (i : Int) : Int :=
  if mode = 2 then (if i < 0 then -i else if (n : Int) ≤ i then 2 * n - 2 - i else i)
  else (if i < 0 then 0 else if (n : Int) ≤ i then n - 1 else i)

/-- The input row and column of output element o of a window LOAD, from its position and tap (R244, R245). -/
def WinRec.at_ (r : WinRec) (w : Nat) (m : Dims) (at_ : WinAt) (o : Nat) : Int × Int :=
  let taps := r.taps w
  let tap := taps.getD (o / m.d2 % max 1 taps.length) (0, 0)
  let pos := o / m.d2 / max 1 taps.length
  (r.rowAt w (at_.row + pos / m.d1) tap.1, r.colAt w (at_.col + pos % m.d1) tap.2)

/-- Whether an output element of a window LOAD lies in padding. -/
def WinRec.padded (r : WinRec) (w : Nat) (m : Dims) (at_ : WinAt) (o : Nat) : Bool :=
  let p := r.at_ w m at_ o
  decide (p.1 < 0) || decide ((r.inH : Int) ≤ p.1) || decide (p.2 < 0) || decide ((r.inW : Int) ≤ p.2)

/-- Where an output element of a window LOAD comes from (R244, R248). -/
def WinRec.pick (r : WinRec) (w : Nat) (m : Dims) (at_ : WinAt) (o : Nat) : Pick :=
  if r.padded w m at_ o ∧ r.mode < 2 then .pad
  else
    let p := r.at_ w m at_ o
    let y := padIndex r.mode r.inH p.1 - (r.firstRow w at_.row : Int)
    let x := padIndex r.mode r.inW p.2 - (r.firstCol w at_.col m.d1 : Int)
    let pitch := r.tileCols w at_.col m.d1
    if y < 0 ∨ (r.stripeRows w at_.row m.d0 : Int) ≤ y ∨ x < 0 ∨ (pitch : Int) ≤ x then .open_ else .src ((y.toNat * pitch + x.toNat) * m.d2 + o % m.d2)

/-- The LOAD and STORE operations on slots (R247, R248). -/
def Dev.loadTile (d : Dev) (w : Nat) (m : Dims) (r : Option WinRec) (at_ : WinAt) (a b out : Tile) : Dev :=
  let plain (i : Nat) : Nat := i / (m.d1 * m.d2)
  match stSubop w, r with
  | 1, some r => d.moveTile a out (· / m.d2) (fun o => o / (m.d2 * (r.taps w).length)) (r.pick w m at_) (if r.mode = 1 then dec32 r.pad else .zero)
  | 2, _ => d.moveTile a out plain plain (fun o =>
      let i := d.mem.le (b.addr + 4 * (o / m.d2)) 4 * m.d2 + o % m.d2
      if i < a.room then .src i else .open_) .zero
  | 3, _ => d.moveTile a out plain (fun o => o / (m.d0 * m.d2)) (fun o =>
      .src ((o / m.d2 % m.d0 * m.d1 + o / m.d2 / m.d0) * m.d2 + o % m.d2)) .zero
  | _, _ => d.moveTile a out plain plain .src .zero
def Dev.storeTile (d : Dev) (w : Nat) (m : Dims) (a b out : Tile) : Dev :=
  let plain (i : Nat) : Nat := i / (m.d1 * m.d2)
  if stSubop w = 0 then d.moveTile a out plain plain .src .zero
  else
    let idx := (List.range (m.d0 * m.d1)).map fun r => d.mem.le (b.addr + 4 * r) 4
    let top := min out.room (max out.n ((idx.foldl max 0 + 1) * m.d2))
    d.moveTile a { out with n := if out.room = out.n then out.n else top } plain plain (fun o =>
      match (List.range idx.length).reverse.find? fun r => idx.getD r 0 == o / m.d2 with
      | some r => .src (r * m.d2 + o % m.d2)
      | none => .keep) .zero

/-- The elements of a weight row's block: dense position and index in the element plane (R173, R175). -/
def Dev.blockElems (d : Dev) (b : Tile) (j d2 blk : Nat) : List (Nat × Nat) :=
  if b.sparse then
    let word := d.mem.le (b.metaAt + 4 * (j * ceilDiv d2 32 + blk)) 4
    (List.range 16).filterMap fun t =>
      if 16 * blk + t < d2 / 2 then some (32 * blk + 4 * (t / 2) + bits word (4 * (t / 2) + 2 * (t % 2)) 2, j * (d2 / 2) + 16 * blk + t) else none
  else (List.range 32).filterMap fun t => if 32 * blk + t < d2 then some (32 * blk + t, j * d2 + 32 * blk + t) else none

/-- The product of an activation and an L4 weight (R152). -/
def l4Product (a : FV) (code : Nat) : FV :=
  let m := code % 8
  let r := if m = 0 then FV.zero.mul a else if m % 2 = 1 then a.shift (((m : Int) - 7) / 2)
    else ((a.mul (.fin false sqrt2bits (-100))).roundSig 12).shift (((m : Int) - 8) / 2)
  let r' := if bit code 3 then r.negate else r
  if r'.isZero then .zero else r'

/-- A product of an activation value and a weight element (R152, R154). -/
def product (fmtB : Nat) (a : FV) (eb : Nat) : FV := if fmtB = 0x0D then l4Product a eb else a.mul (elemVal fmtB eb)

/-- Exact sum of a list. -/
def exactSum (l : List FV) : FV := l.foldl FV.add .zero

/-- What one output's accumulator receives from one block (R155 to R157). -/
def Dev.blockTerms (d : Dev) (m : Dims) (a b : Tile) (i j blk k : Nat) : List FV :=
  let ps := (d.blockElems b j m.d2 blk).map fun e => product b.fmt (elemVal a.fmt (d.elem a (i * m.d2 + e.1))) (d.elem b e.2)
  if b.fmt ≤ 2 then ps
  else
    let s := exactSum ps
    let float8 := (decide (3 ≤ a.fmt) && decide (a.fmt ≤ 6)) || (decide (3 ≤ b.fmt) && decide (b.fmt ≤ 6)) || b.fmt == 0x0D
    let s1 := if float8 then s.roundSig (24 + Config.freeNat k) else s
    let row := dec32 (d.rawScale a i)
    let sa := if hasE8M0 a.fmt then e8m0 (d.rawScale a ((i * m.d2 + 32 * blk) / 32)) else .fin false 1 0
    let sb := if blockScaled b.fmt then scaleVal b.fmt (d.rawScale b ((j * m.d2 + 32 * blk) / 32)) else .fin false 1 0
    let mult := if b.fmt = 0x0C then mul32 sb row else if b.fmt = 0x0D ∧ a.fmt = 0x0B then row.mul sb else sa.mul sb
    [s1.mul mult]

/-- Add terms to an FP32 accumulator one by one, in an order nothing fixes (R156, R157); answers the free values drawn. -/
def accAny : Nat → FV → List FV → Nat → FV × Nat
  | 0, acc, _, k => (acc, k)
  | _ + 1, acc, [], k => (acc, k)
  | n + 1, acc, l, k =>
    let i := Config.freeNat k % l.length
    accAny n (add32 acc (l.getD i .zero)) (l.eraseIdx i) (k + 1)

/-- MATRIX accumulate, clear and accumulate (R153 to R158): accumulator i × D1 + j takes the products of row i of A and column j
of B. -/
def Dev.matrixAcc (d : Dev) (l w : Nat) (m : Dims) (a b : Tile) : Dev :=
  match d.basin? l with
  | none => d
  | some x =>
    let ints := a.fmt == 0x0B && b.fmt == 0x0B
    let old (o : Nat) : Nat := if stSubop w = 1 then 0 else x.acc.getD o 0
    let blocks := List.range (ceilDiv m.d2 32)
    let step (acc : List Nat × Nat) (o : Nat) : List Nat × Nat :=
      let i := o / m.d1
      let j := o % m.d1
      if ints then
        let s := exactSum (blocks.flatMap fun blk => (d.blockElems b j m.d2 blk).map fun e => product b.fmt (elemVal a.fmt (d.elem a (i * m.d2 + e.1))) (d.elem b e.2))
        let v : Int := match s with
          | .fin n q e => scaledInt n q e 0
          | _ => 0
        (acc.1 ++ [wrapInt 32 (sext 32 (old o) + v)], acc.2)
      else
        let ts := blocks.flatMap fun blk => d.blockTerms m a b i j blk (acc.2 + blk)
        let r := accAny ts.length (dec32 (old o)) ts (acc.2 + blocks.length)
        (acc.1 ++ [enc32 r.1], r.2)
    let r := (List.range (m.d0 * m.d1)).foldl step ([], d.free)
    ({ d with free := r.2 }).setBasin l { x with
      acc := r.1, accInt := ints
      rowScale := if a.fmt = 0x0B then (List.range m.d0).map (d.rawScale a) else []
      colScale := if b.fmt = 0x0B then (List.range m.d1).map (d.rawScale b) else [] }

/-- A page scale, BF16, as a value (R213, R221). -/
def pageScale (v : Nat) : FV := (⟨8, 7, 127, 1⟩ : Layout).decode v

/-- The K and V scales of the page that holds a key of a sequence's chain, if a page does (R213, R214). -/
def Dev.keyPage (d : Dev) (slot layer group key : Nat) : Option KvPage :=
  (tget d.kv.seqs slot).bind fun s => if key < s.len + s.grow then ((s.list (layer * 64 + group))[key / 16]?).bind d.page? else none

/-- A stage word as an attention pass runs it (R212, R215, R240, log entry 22): pass 1 takes the query and the keys in the formats of R240 and drains to the
sheet's, pass 2 turns the sheet into BF16, pass 3 multiplies BF16 by BF16 and drains to BF16 unless the word names FP32. -/
def Dev.attnWord (d : Dev) (l w : Nat) (op : AttnOp) : Nat :=
  match (d.basin? l).bind fun b => d.attnAt b.ctx l with
  | none => w
  | some a =>
    let sheet := b2n a.bf16
    let fmts (w fa fb : Nat) : Nat := withBits (withBits w 117 5 fa) 112 5 fb
    match op with
    | .none => w
    | .scores slot layer group fk _ _ =>
      let page := (d.keyPage slot layer group fk).elim ((tget d.kv.seqs slot).elim 1 KvSeq.fmt) KvPage.fmt
      if stSubop w = 2 then withBits w 107 5 sheet else fmts w a.qfmt (if widens page a.qfmt false then 1 else page)
    | .probs _ _ _ _ _ => withBits (withBits w 117 5 sheet) 107 5 1
    | .output _ => if stSubop w = 2 then withBits w 107 5 (if stFmtOut w = 0 then 0 else 1) else fmts w 1 1

/-- Whether the attention of a basin is causal (R361). -/
def Dev.causalAt (d : Dev) (l : Nat) : Bool :=
  match d.basin? l with
  | some b => (d.attnOf b.ctx).any fun a => a.lbasin == l && a.causal
  | none => false

/-- A score as pass 1's drain writes it (R213): times the key's K scale and the invocation's scale, −∞ beyond a causal query or
where no page holds the key. -/
def Dev.score (d : Dev) (l slot layer group firstKey firstQuery per scale i j : Nat) (v : FV) : FV :=
  let key := firstKey + j
  match d.keyPage slot layer group key with
  | some p => if d.causalAt l ∧ firstQuery + i / max 1 per < key then .inf true else mul32 (mul32 v (pageScale p.kscale)) (dec32 scale)
  | none => .inf true

/-- The largest of a list by R162. -/
def maxAll (l : List FV) (first : FV) : FV := l.foldl FV.max first

/-- What a MATRIX drain does to its values for attention (R213, R215), with the row statistics after it. -/
def Dev.attnDrain (d : Dev) (l : Nat) (m : Dims) (scale : Nat) (x : Basin) (op : AttnOp) (vs : List FV) : List FV × List (Nat × Nat) :=
  match op with
  | .scores slot layer group fk fq per =>
    let out := (List.range vs.length).map fun o => d.score l slot layer group fk fq per scale (o / m.d1) (o % m.d1) (vs.getD o .zero)
    (out, (List.range m.d0).map fun i =>
      let old := if fk = 0 then (enc32 (.inf true), 0) else x.stats.getD i (enc32 (.inf true), 0)
      (enc32 (maxAll ((out.drop (i * m.d1)).take m.d1) (dec32 old.1)), old.2))
  | .output true => ((List.range vs.length).map fun o =>
      mul32 (vs.getD o .zero) (dec32 (recip32 (x.stats.getD (o / m.d1) (0, 0)).2 (d.free + o))), x.stats)
  | _ => (vs, x.stats)

/-- MATRIX drain (R155, R158): the accumulators, integer ones times row and column scale, into the result slot. -/
def Dev.matrixDrain (d : Dev) (l w : Nat) (m : Dims) (scale : Nat) (op : AttnOp) (out : Tile) : Dev :=
  match d.basin? l with
  | none => d
  | some x =>
    let vs := (List.range (m.d0 * m.d1)).map fun o =>
      let v := x.acc.getD o 0
      if x.accInt = false then dec32 v
      else if stFmtOut w = 0x0E then FV.ofInt (sext 32 v) 0
      else mul32 (mul32 (dec32 (enc32 (FV.ofInt (sext 32 v) 0))) (dec32 (x.rowScale.getD (o / m.d1) 0))) (dec32 (x.colScale.getD (o % m.d1) 0))
    let r := d.attnDrain l m scale x op vs
    let p := ({ d with free := d.free + vs.length }).putVals w out (· / m.d1) none x.lfsr r.1
    p.2.setBasin l { x with lfsr := p.1, stats := r.2 }

/-- Saturating INT32 arithmetic of a vector stage (R160). -/
def int32Vector (sub a b lo hi : Nat) : Int :=
  let x := sext 32 a
  let y := sext 32 b
  match sub with
  | 0 => clampInt (-(2 ^ 31)) (2 ^ 31 - 1) (x + y)
  | 3 => max x y
  | 4 => min x y
  | _ => clampInt (sext 32 lo) (sext 32 hi) x

/-- One lane of an FP32 vector operation (R161, R162); p, q are the parameters or bounds, k a free value's number. -/
def vectorLane (sub : Nat) (x y p q : FV) (k : Nat) : FV :=
  match sub with
  | 0 => add32 x y
  | 1 => mul32 x y
  | 2 => fma32 x y p
  | 3 => x.max y
  | 4 => x.min y
  | 5 => dec32 (exp32 (enc32 x) k)
  | 6 => dec32 (recip32 (enc32 x) k)
  | 7 => dec32 (rsqrt32 (enc32 x) k)
  | 8 => mul32 x y
  | _ => (x.max p).min q

/-- VECTOR (R160 to R162).  p and q: the addend of a fused multiply-add, or the bounds of a clamp without operand B. -/
def Dev.vectorVals (d : Dev) (w : Nat) (m : Dims) (a : Tile) (b : Option Tile) (p q : Nat) : List FV :=
  (List.range a.n).map fun i =>
    let bi := if stSubop w = 8 then i % m.d2 else i
    let lo := match b with
      | some b => d.elem b 0
      | none => p
    let hi := match b with
      | some b => d.elem b 1
      | none => q
    if a.fmt = 0x0E then FV.ofInt (int32Vector (stSubop w) (d.elem a i) (b.elim 0 fun b => d.elem b bi) lo hi) 0
    else
      let run := m.d1 * m.d2
      let y := b.elim FV.zero fun b => d.val b (· / run) bi
      let p' := match b with
        | some b => if stSubop w = 9 then d.val b (fun _ => 0) 0 else dec32 p
        | none => dec32 p
      let q' := match b with
        | some b => d.val b (fun _ => 0) 1
        | none => dec32 q
      vectorLane (stSubop w) (d.val a (· / run) i) y p' q' (d.free + i)

/-- The elements REDUCE joins into result (i, k): those along DIM1 that are not excluded padding (R248). -/
def reduceGroup (m : Dims) (mask : List Nat) (i k : Nat) : List Nat :=
  ((List.range m.d1).map fun j => (i * m.d1 + j) * m.d2 + k).filter fun e => !(mask.contains e)

/-- REDUCE 0 to 3 (R160, R162): answers the values and the free values drawn. -/
def Dev.reduceVals (d : Dev) (w : Nat) (m : Dims) (mask : List Nat) (a : Tile) : List FV × Nat :=
  let run := m.d1 * m.d2
  (List.range (m.d0 * m.d2)).foldl (fun (acc : List FV × Nat) o =>
    let g := reduceGroup m (if stSubop w = 1 ∨ stSubop w = 2 then mask else []) (o / m.d2) (o % m.d2)
    if a.fmt = 0x0E then
      let xs := g.map fun e => sext 32 (d.elem a e)
      let v : Int := match stSubop w, xs with
        | 0, xs => xs.foldl (fun s x => clampInt (-(2 ^ 31)) (2 ^ 31 - 1) (s + x)) 0
        | 1, x :: r => r.foldl max x
        | 1, [] => -(2 ^ 31 - 1)
        | _, x :: r => r.foldl min x
        | _, [] => 2 ^ 31 - 1
      (acc.1 ++ [FV.ofInt v 0], acc.2)
    else
      let xs := g.map fun e => d.val a (· / run) e
      match stSubop w with
      | 1 => (acc.1 ++ [match xs with | [] => .inf true | x :: r => maxAll r x], acc.2)
      | 2 => (acc.1 ++ [match xs with | [] => .inf false | x :: r => r.foldl FV.min x], acc.2)
      | s =>
        let q := sum32 (if s = 3 then xs.map fun x => mul32 x x else xs) acc.2
        (acc.1 ++ [q.1], q.2)) ([], d.free)

/-- REDUCE 4 (R162, R253): one running FP32 sum per channel of DIM2, in each of the 64 lanes, over every tile of the chain. -/
def Dev.runningSums (d : Dev) (m : Dims) (sums : List Nat) (a : Tile) : List Nat × Nat :=
  let run := m.d1 * m.d2
  (List.range (min 64 m.d2)).foldl (fun (acc : List Nat × Nat) c =>
    let xs := (List.range (m.d0 * m.d1)).map fun p => d.val a (· / run) (p * m.d2 + c)
    let r := accAny xs.length (dec32 (sums.getD c 0)) xs acc.2
    (acc.1 ++ [enc32 r.1], r.2)) ([], d.free)

/-- A row softmax (R163): answers the row and the free values drawn. -/
def softmaxRow (xs : List FV) (k : Nat) : List FV × Nat :=
  if xs.any fun x => x == .nan || x == .inf false then (xs.map fun _ => .nan, k)
  else if xs.all fun x => x == .inf true then (xs.map fun _ => .zero, k)
  else
    let m := maxAll xs (.inf true)
    let es := (List.range xs.length).map fun i => dec32 (exp32 (enc32 (add32 (xs.getD i .zero) m.negate)) (k + i))
    let s := sum32 es (k + xs.length)
    let r := dec32 (recip32 (enc32 s.1) s.2)
    (es.map fun e => mul32 e r, s.2 + 1)

/-- Layer and RMS normalisation of a row (KIND 4, log entry 27). -/
def layerRow (sub : Nat) (eps : FV) (xs : List FV) (k : Nat) : List FV × Nat :=
  let n : FV := .fin false xs.length 0
  let s := sum32 xs k
  let mean := dec32 (enc32 (s.1.div n))
  let c := if sub = 1 then xs.map fun x => add32 x mean.negate else xs
  let q := sum32 (c.map fun x => mul32 x x) s.2
  let r := dec32 (rsqrt32 (enc32 (add32 (dec32 (enc32 (q.1.div n))) eps)) q.2)
  (c.map fun x => mul32 x r, q.2 + 1)

/-- A row of pass 2 over a block of several (R214): exponents against the final row maximum; answers the row, the row sum and
the free values drawn. -/
def expRow (mx : FV) (sum : FV) (xs : List FV) (k : Nat) : List FV × FV × Nat :=
  let es := (List.range xs.length).map fun i => dec32 (exp32 (enc32 (add32 (xs.getD i .zero) mx.negate)) (k + i))
  let s := accAny es.length sum es (k + xs.length)
  (es, s.1, s.2)

/-- NORMALISE (R163, R214): answers values, row statistics and free values drawn. -/
def Dev.normVals (d : Dev) (w : Nat) (m : Dims) (eps : Nat) (op : AttnOp) (stats : List (Nat × Nat)) (a : Tile) :
    List FV × List (Nat × Nat) × Nat :=
  let run := m.d1 * m.d2
  let vscale (j : Nat) : FV := match op with
    | .probs slot layer group fk _ => ((d.keyPage slot layer group (fk + j)).map fun p => pageScale p.vscale).getD .zero
    | _ => .fin false 1 0
  (List.range m.d0).foldl (fun (acc : List FV × List (Nat × Nat) × Nat) i =>
    let xs := (List.range run).map fun e => d.val a (· / run) (i * run + e)
    match stSubop w, op with
    | 0, .probs _ _ _ _ true =>
      let st := stats.getD i (0, 0)
      let r := expRow (dec32 st.1) (dec32 st.2) xs acc.2.2
      (acc.1 ++ (List.range run).map (fun j => mul32 (r.1.getD j .zero) (vscale j)), acc.2.1.set i (st.1, enc32 r.2.1), r.2.2)
    | 0, .probs _ _ _ _ false =>
      let r := softmaxRow xs acc.2.2
      (acc.1 ++ (List.range run).map (fun j => mul32 (r.1.getD j .zero) (vscale j)), acc.2.1, r.2)
    | 0, _ => let r := softmaxRow xs acc.2.2; (acc.1 ++ r.1, acc.2.1, r.2)
    | s, _ => let r := layerRow s (dec32 eps) xs acc.2.2; (acc.1 ++ r.1, acc.2.1, r.2)) ([], stats, d.free)

end Sys2Proof.Machine
end

