-- ==== Sys2Proof/Machine/Camera.lean ====
section
/-! DEFINITION. Camera ingest: exposures, frames, lines through the pixel pipeline, packs in T1 and frame records (R254 to R263). -/

namespace Sys2Proof.Machine

/-- A camera port's state beside its registers. -/
def Dev.camPort (d : Dev) (n : Nat) : CamPort := tgetD d.cam n {}

/-- The device with a camera port changed. -/
def Dev.setCam (d : Dev) (n : Nat) (x : CamPort) : Dev := { d with cam := tset d.cam n x }

/-- Rows, columns and channels after regrouping (R247), and tiles of the frame (R255). -/
def CamGeom.h (g : CamGeom) : Nat := g.outH / g.f
def CamGeom.w (g : CamGeom) : Nat := g.outW / g.f
def CamGeom.ch (g : CamGeom) : Nat := g.c * g.f * g.f
def CamGeom.tiles (g : CamGeom) : Nat := ceilDiv g.h g.trows

/-- Elements, rows of operand A and bytes of a tile (R146, R255). -/
def CamGeom.n (g : CamGeom) : Nat := g.trows * g.w * g.ch
def CamGeom.tileSize (g : CamGeom) : Nat := tileBytes g.fmt g.n (g.trows * g.w) false

/-- Bytes of the pack, and of the buffer with its line table (R188, R255). -/
def CamGeom.packSize (g : CamGeom) : Nat := packHead g.tiles + g.tiles * g.tileSize
def CamGeom.bufSize (g : CamGeom) : Nat := g.packSize + 8 * g.inH

/-- The frame pack's header (R188, R255): LAYOUT 2, no object. -/
def CamGeom.header (g : CamGeom) : List Byte :=
  let scale := if g.fmt = 0x0B then up64 (planeSize g.fmt g.n) else 0
  let body := leBytes 4 (g.fmt * 2 ^ 25 + 2 * 2 ^ 20) ++ leBytes 4 0 ++ leBytes 4 g.tiles ++ leBytes 4 g.tileSize ++ leBytes 4 g.h ++
    leBytes 4 g.w ++ leBytes 4 g.ch ++ leBytes 4 1 ++ leBytes 2 g.trows ++ leBytes 2 g.w ++ leBytes 2 g.ch ++ leBytes 2 0 ++
    leBytes 4 0 ++ leBytes 4 scale ++ leBytes 4 0 ++ leBytes 4 0 ++ leBytes 8 (g.tiles * g.tileSize) ++ leBytes 56 0
  body ++ leBytes 4 (crc32c body) ++ leBytes 4 0

/-- The address of a port's buffer (CAM_PORTn_BUFBASE). -/
def Dev.camBuf (d : Dev) (n b : Nat) : Nat :=
  d.f (r1 .camPortBufbase n) F.camPortBufbase.BASE + b * d.f (r1 .camPortBufbase n) F.camPortBufbase.STRIDE * 65536

/-- Whether a port's fields are in range (R254, the register tables). -/
def Dev.camFieldsOk (d : Dev) (n : Nat) : Bool :=
  let g := d.camGeom n
  let c := r1 .camPortCfg n
  let p := d.f (r1 .camPortTiming n) F.camPortTiming.PERIOD_US
  let dt := d.f c F.camPortCfg.DTYPE
  decide (64 ≤ g.inW) && decide (g.inW ≤ 4096) && g.inW % 2 == 0 && decide (2 ≤ g.inH) && decide (g.inH ≤ 3072) && g.inH % 2 == 0 &&
  decide (g.inW ≤ 8 * g.outW) && decide (g.outW ≤ g.inW) && g.outW % g.f == 0 && decide (g.inH ≤ 8 * g.outH) && decide (g.outH ≤ g.inH) &&
  g.outH % g.f == 0 && decide (1000 ≤ p) && decide (p ≤ 1000000) && decide (0x2A ≤ dt) && decide (dt ≤ 0x2E) &&
  decide (d.f c F.camPortCfg.CFA ≤ 4) && decide (d.f c F.camPortCfg.EXP_SRC ≤ 2) && decide (1 ≤ d.f c F.camPortCfg.NBUF) &&
  [1, 2, 3, 0x0B].contains g.fmt && decide (15 ≤ d.f (r1 .camPortRec n) F.camPortRec.SIZE) &&
  d.f (r1 .camPortRec n) F.camPortRec.ADDR % 64 == 0 && d.f (r1 .camPortBufbase n) F.camPortBufbase.BASE % 65536 == 0 &&
  decide (g.tileSize ≤ 1048512)

/-- Whether a range lies in T1 and in a class's regions. -/
def Dev.camRange (d : Dev) (latchClosed : Bool) (cls a n : Nat) : Bool :=
  decide (tierBase 1 ≤ a) && decide (a + n ≤ tierBase 1 + tierSize 1) && d.permits latchClosed cls a n .write

/-- Whether a port's buffers and ring lie where they may (R261). -/
def Dev.camMemOk (d : Dev) (latchClosed : Bool) (cls n : Nat) : Bool :=
  let g := d.camGeom n
  let stride := d.f (r1 .camPortBufbase n) F.camPortBufbase.STRIDE * 65536
  let nbuf := d.f (r1 .camPortCfg n) F.camPortCfg.NBUF + 1
  decide (g.bufSize ≤ stride) && d.camRange latchClosed cls (d.camBuf n 0) (stride * nbuf) &&
    d.camRange latchClosed cls (d.f (r1 .camPortRec n) F.camPortRec.ADDR) (64 * (d.f (r1 .camPortRec n) F.camPortRec.SIZE + 1))

/-- The cause for which an enable is refused (R261); 0: none. -/
def Dev.camRefusal (d : Dev) (latchClosed : Bool) (cls n : Nat) : Nat :=
  let others := (((List.range 8).filter fun m => m != n && d.fb (r1 .camPortCfg m) F.camPortCfg.EN).map d.camLoadOf).sum
  if d.camFieldsOk n = false then 1
  else if d.rn (r0 .camLimit) < others + d.camLoadOf n then 2
  else if d.camMemOk latchClosed cls n = false then 3 else 0

/-- A write of CAM_PORTn_CFG (R261): EN = 1 enables the port, clearing DROPPED, or is refused with ERR. -/
def Dev.camCfgWrite (d : Dev) (latchClosed : Bool) (cls n v : Nat) : Dev :=
  let r := r1 .camPortCfg n
  let d1 := d.wn r (maskedWrite RegName.camPortCfg.info (!latchClosed) (d.rn r) v)
  if d1.fb r F.camPortCfg.EN = false then d1.syncCamLoad
  else
    let e := d1.camRefusal latchClosed cls n
    let d2 := d1.sf (r1 .camPortStat n) F.camPortStat.DROPPED 0
    if e = 0 then d2.syncCamLoad
    else ((d2.sf r F.camPortCfg.EN 0).sf (r1 .camPortStat n) F.camPortStat.ERR e).syncCamLoad

/-- CAMERA_ENABLE (R261): initiator class c writes CAM_PORTn_CFG. -/
def execCameraEnable (t c n v : Nat) (s : State) : Host.Outcome State Fault Refusal :=
  s.regAccess t c (r1 .camPortCfg n) .write fun _ d => if n < 8 then d.camCfgWrite s.latchClosed c n v else { d with bus := .accessFault }

/-- The steward clears EN on the highest-numbered ports until the load fits CAM_LIMIT, each with a notice of KIND 4 to its owner
(R79, R261, R359). -/
def Dev.camFit (d : Dev) (now : Nat) (cause : Key) : Nat → Dev
  | 0 => d
  | k + 1 =>
    if d.rn (r0 .camLimit) < d.rn (r0 .camLoad) then
      match (List.range 8).reverse.find? fun n => d.fb (r1 .camPortCfg n) F.camPortCfg.EN with
      | some n =>
        let d1 := (d.sf (r1 .camPortCfg n) F.camPortCfg.EN 0).syncCamLoad
        let d2 := match tget d1.stew.owners (0x0D * 65536 + n) with
          | some (.ctx c) => match d1.ctx? c with
            | some x => d1.notice now x.mbx 4 n .degraded cause
            | none => d1
          | _ => d1
        d2.camFit now cause k
      | none => d
    else d

/-- The limit of an envelope in pixels/s (R261). -/
def camLimitOf (env : Nat) : Nat := if env = 0 then 995328000 else if env = 1 then 1990656000 else 3981312000

/-- The guard of arrivals over a port's CSI-2 crossing in whole ns (R57, R60): two source periods of 8 bits at the lane rate and two of 1 ns,
5.6 ns at 4.5 Gb/s; the lane rate is the camera's (log entry 29). -/
def csiGuard (n : Nat) : Nat := 2 + 16000000 / max 1 (min 4500000 (Config.laneKbps n))

/-- An exposure of a port (R257, R258): its stamp drives capture source 0x12 + n, and with TIMEOUT_MS opens a wait for the first
line. -/
def Dev.exposure (d : Dev) (now n stamp : Nat) : Dev :=
  let ms := d.f (r1 .camPortTiming n) F.camPortTiming.TIMEOUT_MS
  let d1 := d.captureAll now (0x12 + n) true stamp
  let w : Option Nat × Dev := if ms = 0 then (none, d1) else
    (let q := d1.addWait { owner := .firstLine n, deadline := satAdd dtMax stamp (ms * 1000000), guard := csiGuard n, src := 0x0600 + n }; (some q.1, q.2))
  let p := w.2.camPort n
  w.2.setCam n { p with exps := p.exps ++ [⟨stamp, w.1⟩] }

/-- The camera cue of a port fires at DT f (R257, EXP_SRC 0): CAM_TRIG pulses for 1 µs, and the exposure starts EXP_DELAY later. -/
def Dev.camCue (d : Dev) (now n f : Nat) : Dev :=
  let p := d.camPort n
  let d1 := d.setCam n { p with trigEnd := f + 1000 }
  if d1.fb (r1 .camPortCfg n) F.camPortCfg.EN ∧ d1.f (r1 .camPortCfg n) F.camPortCfg.EXP_SRC = 0 then
    d1.exposure now n (f + d1.f (r1 .camPortTiming n) F.camPortTiming.EXP_DELAY)
  else d1

/-- Write to a port's memory, charged to its class as near-store bytes (R262). -/
def Dev.camWrite (d : Dev) (now n a : Nat) (bs : List Byte) : Dev :=
  ({ d with mem := d.mem.write a bs }).charge now (d.f (r1 .camPortCfg n) F.camPortCfg.CLASS) 4 bs.length

/-- A good line, or the one that replaces it (R260): the nearest good line two, four, … rows above, zeros if there is none. -/
def replacement (rows : List (Bool × List Nat)) (k : Nat) : List Nat :=
  (((List.range (k / 2)).map fun j => k - 2 * (j + 1)).findSome? fun i => match rows[i]? with
    | some (true, px) => some px
    | _ => none).getD []

/-- Black level (R254): the pixel of a site less BLACK, clamped at 0, over 2^bits − 1 − BLACK in FP32. -/
def Dev.camLevel (d : Dev) (n : Nat) (g : CamGeom) (rows : List (Bool × List Nat)) (y x : Nat) : Nat :=
  let site := y % 2 * 2 + x % 2
  let black := bits (d.rn (r1 .camPortBlack n)) (16 * site) 16
  let v := (rows.getD y (false, [])).2.getD x 0
  fdiv (fofInt ((v - black : Nat) : Int)) (fofInt ((2 ^ g.bits - 1 : Nat) - (black : Int)))

/-- The colour of a site: 0 red, 1 green, 2 blue, from the colour filter order (R254: RGGB, GRBG, GBRG, BGGR). -/
def siteColour (cfa py px : Nat) : Nat :=
  let k := match cfa with
    | 0 => py * 2 + px
    | 1 => py * 2 + (1 - px)
    | 2 => (1 - py) * 2 + px
    | _ => (1 - py) * 2 + (1 - px)
  if k = 0 then 0 else if k = 3 then 2 else 1

/-- The mean of the site's neighbours of a colour: of two, their FP32 sum halved; of four, the quarter of a sum whose order R254 leaves
open. -/
def meanOf (xs : List Nat) : Nat :=
  match xs with
  | [a, b] => fmul (fadd a b) 0x3F000000
  | _ => fmul (Config.sumFour xs) 0x3E800000

/-- Bilinear demosaic over 3 × 3 away from the edge (R254): the site's own colour as it is, another the mean of the sites of that colour
among the eight around it, given row by row with the site in the middle. -/
def bilinear (cfa py px : Nat) (around : List Nat) : Nat × Nat × Nat :=
  let own := around.getD 4 0
  let at_ (is : List Nat) : List Nat := is.map fun i => around.getD i 0
  let cross := meanOf (at_ [1, 3, 5, 7])
  let diag := meanOf (at_ [0, 2, 6, 8])
  let rowPair := meanOf (at_ [3, 5])
  let colPair := meanOf (at_ [1, 7])
  match siteColour cfa py px with
  | 0 => (own, cross, diag)
  | 2 => (diag, cross, own)
  | _ => if siteColour cfa py (1 - px) = 0 then (rowPair, own, colPair) else (colPair, own, rowPair)

/-- Demosaic and colour conversion of one source pixel into output channel k (R254). -/
def Dev.camColour (d : Dev) (n : Nat) (g : CamGeom) (rows : List (Bool × List Nat)) (y x k : Nat) : Nat :=
  let cfa := d.f (r1 .camPortCfg n) F.camPortCfg.CFA
  let mode := d.f (r1 .camPortCfg n) F.camPortCfg.DEMOSAIC
  let r := mode + 1
  let around := (List.range ((2 * r + 1) * (2 * r + 1))).map fun i =>
    d.camLevel n g rows (min (g.inH - 1) (y + i / (2 * r + 1) - r)) (min (g.inW - 1) (x + i % (2 * r + 1) - r))
  let inner := 1 ≤ y ∧ y + 1 < g.inH ∧ 1 ≤ x ∧ x + 1 < g.inW
  let rgb := if cfa = 4 then (d.camLevel n g rows y x, 0, 0)
    else if mode = 0 ∧ inner then bilinear cfa (y % 2) (x % 2) around
    else Config.demosaic mode cfa y x g.inH g.inW around
  let m := d.rn (r2 .camPortCcm n k)
  let h (i : Nat) : Nat := enc32 ((⟨5, 10, 15, 1⟩ : Layout).decode (bits m (16 * i) 16))
  fadd (fadd (fadd (fmul (h 0) rgb.1) (fmul (h 1) rgb.2.1)) (fmul (h 2) rgb.2.2)) (h 3)

/-- Source rows, or columns, that a downscaled one covers. -/
def covered (inN outN i : Nat) : List Nat :=
  let lo := i * inN / outN
  (List.range (ceilDiv ((i + 1) * inN) outN - lo)).map (· + lo)

/-- How much of a source row, or column, lies in the box of an output one, in units of 1/OUT of a source row. -/
def overlap (inN outN i k : Nat) : Nat := min ((i + 1) * inN) ((k + 1) * outN) - max (i * inN) (k * outN)

/-- The mean over the box of an output pixel: the weighted values summed exactly, over the area of the box, rounded to FP32. -/
def boxMean (area : Nat) (vs : List (Nat × Nat)) : Nat :=
  enc32 ((vs.foldl (fun (a : FV) v => a.add ((dec32 v.2).mul (.fin false v.1 0))) (.fin false 0 0)).div (.fin false area 0))

/-- One resized pixel's channel (R254): as it is where nothing is scaled, else the mean over the box; the order and the rounding of the
filter's own sums are not stated, so a mean is free by one unit in the last place for each pixel of the box (log entry 29). -/
def Dev.camPixel (d : Dev) (n : Nat) (g : CamGeom) (rows : List (Bool × List Nat)) (y x k : Nat) : Nat :=
  if g.outH = g.inH ∧ g.outW = g.inW then d.camColour n g rows y x k
  else
    let vs := (covered g.inH g.outH y).flatMap fun sy => (covered g.inW g.outW x).map fun sx =>
      (overlap g.inH g.outH y sy * overlap g.inW g.outW x sx, d.camColour n g rows sy sx k)
    let m := boxMean (g.inH * g.inW) vs
    ulpStep m (((Config.boxFilter g.inH g.outH g.inW g.outW y x (vs.map (·.2)) % (2 * vs.length + 1) : Nat) : Int) - (vs.length : Int))

/-- An element of the frame in its output format (R247, R254): INT8 is round(v × 127). -/
def Dev.camElem (d : Dev) (n : Nat) (g : CamGeom) (rows : List (Bool × List Nat)) (y x k : Nat) : Nat :=
  let q := k / g.c
  let v := dec32 (d.camPixel n g rows (y * g.f + q / g.f) (x * g.f + q % g.f) (k % g.c))
  if g.fmt = 0x0B then wrapInt 8 (toIntFmt 127 none (mul32 v (.fin false 127 0))) else encodeElem g.fmt none true v

/-- The last source row a tile depends on (R255). -/
def Dev.camNeeds (d : Dev) (n : Nat) (g : CamGeom) (tile : Nat) : Nat :=
  let last := min g.h ((tile + 1) * g.trows) * g.f
  let margin := if g.c = 1 then 0 else d.f (r1 .camPortCfg n) F.camPortCfg.DEMOSAIC + 1
  min (g.inH - 1) (ceilDiv (last * g.inH) g.outH - 1 + margin)

/-- A tile's bytes; rows past the frame's end are free values (log entry 29). -/
def Dev.camTile (d : Dev) (n : Nat) (g : CamGeom) (rows : List (Bool × List Nat)) (tile : Nat) : List Byte × Nat :=
  let es := (List.range g.n).map fun i =>
    let y := tile * g.trows + i / (g.w * g.ch)
    if y < g.h then d.camElem n g rows y (i / g.ch % g.w) (i % g.ch) else Config.freeNat (d.free + i) % 2 ^ elemBits g.fmt
  let plane := packPlane g.fmt es
  let scales := if g.fmt = 0x0B then (List.range (g.trows * g.w)).flatMap fun _ => leBytes 4 (fdiv 0x3F800000 (fofInt 127)) else []
  (splice (List.replicate g.tileSize 0) 0 (plane ++ (if scales = [] then [] else List.replicate (up64 plane.length - plane.length) 0 ++ scales)), g.n)

/-- A tile lands: its bytes and its ready bit, both charged (R190, R255, R262). -/
def Dev.camLand (d : Dev) (now n : Nat) (fr : CamFrame) (tile : Nat) : Dev :=
  let g := d.camGeom n
  let b := d.camBuf n fr.buf
  let q := d.camTile n g fr.rows tile
  let d1 := ({ d with free := d.free + q.2 }).camWrite now n (b + packHead g.tiles + tile * g.tileSize) q.1
  let a := b + 128 + tile / 8
  d1.camWrite now n a (leBytes 1 (d1.mem.le a 1 ||| 2 ^ (tile % 8)))

/-- Tiles whose source lines have arrived land in order. -/
def Dev.camTiles (d : Dev) (now n : Nat) (fr : CamFrame) : Nat → CamFrame × Dev
  | 0 => (fr, d)
  | k + 1 =>
    let g := d.camGeom n
    if fr.tiles < g.tiles ∧ d.camNeeds n g fr.tiles < fr.rows.length then
      (d.camLand now n fr fr.tiles).camTiles now n { fr with tiles := fr.tiles + 1 } k
    else (fr, d)

/-- A frame is dropped: DROPPED counts it, its lines are discarded (R256, R260). -/
def Dev.camDrop (d : Dev) (n : Nat) (fr : CamFrame) : Dev :=
  let d1 := d.incSat (r1 .camPortStat n) F.camPortStat.DROPPED
  let d2 := if fr.dropped then d1 else d1.clrBit (r1 .camPortBuf n) F.camPortBuf.FILLING fr.buf
  d2.setCam n { d2.camPort n with frame := some { fr with dropped := true } }

/-- A record goes to a port's ring (the frame record, 64 bytes). -/
def Dev.camRecord (d : Dev) (now n stamp st flags buf bad first last pack : Nat) (unc : Bool) : Dev :=
  let k := d.draw (0x0600 + n) stamp
  let d1 := k.2.log ⟨k.1, .camera, unc, [st, flags, buf, bad, first, last, pack]⟩
  let r := r1 .camPortRec n
  let wr := d1.f r F.camPortRec.WR
  let bs := k.1.bytes ++ leBytes 4 (st * 65536 + flags) ++ leBytes 4 (buf * 65536 + bad % 65536) ++ leBytes 8 first ++ leBytes 8 last ++
    leBytes 8 pack ++ leBytes 16 0
  ((d1.camWrite now n (d1.f r F.camPortRec.ADDR + 64 * wr) bs).sf r F.camPortRec.WR ((wr + 1) % (d1.f r F.camPortRec.SIZE + 1))).raise (232 + n)

/-- A first line's wait expires (R258): a record with EXPIRED and no buffer. -/
def Dev.camExpired (d : Dev) (now n id : Nat) : Dev :=
  match (d.camPort n).exps.find? fun e => e.wait == some id with
  | some e => (d.camRecord now n e.stamp Status.expired.code 0 0 0 0 0 0 false).sf (r1 .camPortStat n) F.camPortStat.EXPIRED 1
  | none => d

/-- Exposures that a first line's stamp leaves to choose from: of those with no deadline and not after it, the latest only. -/
def liveExps (stamp : Nat) (es : List CamExp) : List CamExp :=
  let plain := es.filter fun e => e.wait.isNone && decide (e.stamp ≤ stamp)
  es.filter fun e => e.wait.isSome || decide (stamp < e.stamp) || some e == plain.getLast?

/-- The frame takes its exposure at its first line's stamp (R257, R258): the oldest exposure whose deadline the stamp meets; an exposure
whose wait is pending and that the stamp missed stays; with none met the frame is untriggered and estimated. -/
def Dev.camMatch (d : Dev) (now n stamp : Nat) (fr : CamFrame) (kept : List CamExp) : List CamExp → CamFrame × Dev
  | [] =>
    let st := stamp - d.f (r1 .camPortTiming n) F.camPortTiming.EXP_DELAY
    ({ fr with est := true, untrig := true, stamp := some st }, (d.setCam n { d.camPort n with exps := kept }).captureAll now (0x12 + n) true st)
  | e :: rest =>
    let take (late : Bool) (d : Dev) : CamFrame × Dev :=
      ({ fr with stamp := some e.stamp, late := late }, d.setCam n { d.camPort n with exps := kept ++ rest })
    match e.wait with
    | none => if e.stamp ≤ stamp then take false d else d.camMatch now n stamp fr (kept ++ [e]) rest
    | some id =>
      let x := d.expire now id
      let d0 := if x.1 then x.2.camExpired now n id else x.2
      let p := d0.arrive now id ⟨stamp, d0.src (0x0600 + n), d0.cntOf (0x0600 + n)⟩
      let gone : Dev := { p.2 with waits := tdel p.2.waits id }
      match p.1 with
      | .arrived => take false gone
      | .lateAccepted => take true gone
      | .unmatched => if (tget p.2.waits id).elim false fun w => w.outcome.isNone then p.2.camMatch now n stamp fr (kept ++ [e]) rest else gone.camMatch now n stamp fr kept rest

/-- The first line's arrival (R257, R258, R260): the frame's stamp; a frame too soon after the previous accepted one is dropped. -/
def Dev.camFirst (d : Dev) (now n stamp : Nat) (fr : CamFrame) : Dev :=
  let cfg := r1 .camPortCfg n
  let d0 := d.captureAll now (0x1A + n) true stamp
  let q : CamFrame × Dev := if d0.f cfg F.camPortCfg.EXP_SRC = 2 then
      (let s := stamp - d0.f (r1 .camPortTiming n) F.camPortTiming.EXP_DELAY
       ({ fr with est := true, stamp := some s }, d0.captureAll now (0x12 + n) true s))
    else d0.camMatch now n stamp fr [] (liveExps stamp (d0.camPort n).exps)
  let fr1 := { q.1 with first := stamp }
  let s := fr1.stamp.getD stamp
  let tooSoon := match (q.2.camPort n).lastStamp with
    | some p => decide (16 * (s - p) < 15 * 1000 * q.2.f (r1 .camPortTiming n) F.camPortTiming.PERIOD_US)
    | none => false
  if tooSoon then q.2.camDrop n fr1
  else q.2.setCam n { q.2.camPort n with frame := some fr1, lastStamp := some s }

/-- How a line's long packet arrives (R260): good, its CRC failed, its header was uncorrectable, or the crossing discarded it. -/
def lineGood (fault : Nat) : Bool := fault == 0

/-- A line of the frame in progress (R254, R255, R260); fault: 0 good, 1 payload CRC, 2 header uncorrectable, 3 lost to an overrun. -/
def Dev.camLine (d : Dev) (now n stamp fault : Nat) (px : List Nat) : Dev :=
  let d0 := if fault = 3 then d.overrun 1 n else d
  match (d0.camPort n).frame with
  | none => d0
  | some fr0 =>
    if fr0.dropped then d0
    else
      let g := d0.camGeom n
      let late := d0.elastic 1 n
      if g.inH ≤ fr0.rows.length then d0.setCam n { d0.camPort n with frame := some { fr0 with extra := true, unc := fr0.unc || late } }
      else
        let d1 := if fr0.stamp.isNone ∧ fault < 2 then d0.camFirst now n stamp fr0 else d0
        match (d1.camPort n).frame with
        | none => d1
        | some fr =>
          if fr.dropped then d1
          else
            let k := fr.rows.length
            let row := if lineGood fault then (true, px.take g.inW) else (false, replacement fr.rows k)
            let fr1 := { fr with rows := fr.rows ++ [row], bad := fr.bad + (if lineGood fault then 0 else 1), unc := fr.unc || late, last := if fault < 2 then stamp else fr.last }
            let d2 := if lineGood fault then d1 else d1.sf (r1 .camPortStat n) F.camPortStat.BADLINE 1
            let d3 := d2.camWrite now n (d2.camBuf n fr.buf + g.packSize + 8 * k) (leBytes 8 (if fault < 2 then stamp else 0))
            let q := d3.camTiles now n fr1 g.tiles
            q.2.setCam n { q.2.camPort n with frame := some q.1 }

/-- STATUS and FLAGS of a finished frame (R260, the frame record). -/
def CamFrame.status (fr : CamFrame) (short : Bool) : Status :=
  if fr.late then .lateAccepted else if short || decide (0 < fr.bad) then .degraded else .ok
def CamFrame.flags (fr : CamFrame) (short : Bool) : Nat :=
  b2n short + 2 * b2n fr.extra + 4 * b2n (decide (0 < fr.bad)) + 8 * b2n fr.est + 16 * b2n fr.unc + 32 * b2n fr.untrig

/-- A frame ends (R255, R256, R259, R260); where no line's header arrived its first line's stamp is a free value (log entry 29): missing lines are zeros, every tile lands, the record is written, READY is set, and with
CELL_EN the buffer's flag. -/
def Dev.camFinish (d : Dev) (now n : Nat) : Dev :=
  match (d.camPort n).frame with
  | none => d
  | some fr0 =>
    let gone (d : Dev) : Dev := (d.setCam n { d.camPort n with frame := none }).sf (r1 .camPortStat n) F.camPortStat.IN_FRAME 0
    if fr0.dropped then gone d
    else
      let d0 := if fr0.stamp.isNone then { d with free := d.free + 1 }.camFirst now n (Config.freeNat d.free % 2 ^ 64) fr0 else d
      match (d0.camPort n).frame with
      | none => d0
      | some fr =>
        if fr.dropped then gone d0
        else
          let g := d0.camGeom n
          let short := decide (fr.rows.length < g.inH)
          let left := g.inH - fr.rows.length
          let fr1 := { fr with rows := fr.rows ++ List.replicate left (false, []) }
          let q0 := d0.camTiles now n fr1 g.tiles
          let q := if left = 0 then q0 else (q0.1, q0.2.camWrite now n (d0.camBuf n fr.buf + g.packSize + 8 * fr.rows.length) (leBytes (8 * left) 0))
          let d1 := if short then q.2.sf (r1 .camPortStat n) F.camPortStat.SHORT 1 else q.2
          let d2 := d1.camRecord now n (fr1.stamp.getD now) (fr1.status short).code (fr1.flags short) fr1.buf fr1.bad fr1.first fr1.last
            (d1.camBuf n fr1.buf) fr1.unc
          let br := r1 .camPortBuf n
          let d3 := (d2.clrBit br F.camPortBuf.FILLING fr1.buf).setBit br F.camPortBuf.READY fr1.buf
          let d4 := if d3.fb br F.camPortBuf.CELL_EN then d3.flagSet now (d3.f br F.camPortBuf.CELL) (2 ^ fr1.buf) else d3
          gone d4

/-- A frame begins (R255, R256, R260): a frame still in progress ends first; the lowest buffer neither FILLING nor READY takes it, its
header and cleared bitmap are written. -/
def Dev.camStart (d : Dev) (now n : Nat) : Dev :=
  let d0 := d.camFinish now n
  if d0.fb (r1 .camPortCfg n) F.camPortCfg.EN = false then d0
  else
    let br := r1 .camPortBuf n
    let g := d0.camGeom n
    let free (b : Nat) : Bool := !((d0.f br F.camPortBuf.FILLING).testBit b) && !((d0.f br F.camPortBuf.READY).testBit b)
    let d1 := d0.sf (r1 .camPortStat n) F.camPortStat.IN_FRAME 1
    match lowest (d0.f (r1 .camPortCfg n) F.camPortCfg.NBUF + 1) free with
    | none => d1.camDrop n { dropped := true }
    | some b =>
      let d2 := (d1.setBit br F.camPortBuf.FILLING b).setCam n { d1.camPort n with frame := some ({ buf := b } : CamFrame) }
      d2.camWrite now n (d2.camBuf n b) (g.header ++ List.replicate (packHead g.tiles - 128) 0)

/-- A write of CAM_PORTn_BUF (R256): RELEASE bits clear READY bits; CELL_EN and CELL take their values. -/
def Dev.camRelease (d : Dev) (latchClosed : Bool) (n v : Nat) : Dev :=
  let r := r1 .camPortBuf n
  let d1 := d.wn r (maskedWrite RegName.camPortBuf.info (!latchClosed) (d.rn r) v)
  d1.sf r F.camPortBuf.READY (d1.f r F.camPortBuf.READY - (d1.f r F.camPortBuf.READY &&& bits v 32 8))

/-- BUFFER_RELEASE (R256): initiator class c writes CAM_PORTn_BUF. -/
def execBufferRelease (t c n v : Nat) (s : State) : Host.Outcome State Fault Refusal :=
  s.regAccess t c (r1 .camPortBuf n) .write fun _ d => if n < 8 then d.camRelease s.latchClosed n v else { d with bus := .accessFault }

end Sys2Proof.Machine
end

