-- ==== Sys2Proof/Machine/Claims.lean ====
section
/-! DEFINITION. Shared resources: owners, window pages granted with a claim, release to the reset configuration (R263,
R269, R365 to R368, R421). -/

namespace Sys2Proof.Machine

/-- A claimable resource's key in the owner table: TYPE × 65,536 + INDEX (R365). -/
def resKey (type index : Nat) : Nat := type * 65536 + index

/-- The number of instances of a claimable type; 0 for a reserved TYPE (R365, R409). -/
def resCount (type : Nat) : Nat :=
  match type with
  | 0x01 => 16
  | 0x02 => 16
  | 0x03 => 32
  | 0x04 => 4
  | 0x05 => 6
  | 0x06 => 2
  | 0x07 => 4
  | 0x08 => 2
  | 0x09 => 64
  | 0x0A => 32
  | 0x0B => 64
  | 0x0C => 16
  | 0x0D => 8
  | 0x0E => 3
  | 0x0F => 64
  | _ => 0

/-- The window page of a resource that is granted on CLAIM (R110, R263, R269, R421). -/
def resPage (type index : Nat) : Option Nat :=
  if type = 0x0B then some (0x20700 + index)
  else if type = 0x0C then some 0x20A00
  else if type = 0x0D then some (0x20E00 + index)
  else none

/-- The pin-mux group a function uses and whether it is function B (R409). -/
def muxOf (type index : Nat) : Option (Nat × Bool) :=
  if type = 0x04 ∧ (index = 2 ∨ index = 3) then some (0, false)
  else if type = 0x08 ∧ index = 1 then some (1, false)
  else if type = 0x05 ∧ (index = 4 ∨ index = 5) then some (2, false)
  else if type = 0x03 ∧ 28 ≤ index ∧ index < 32 then some (0, true)
  else if type = 0x03 ∧ 24 ≤ index ∧ index < 28 then some (1, true)
  else if type = 0x03 ∧ 20 ≤ index ∧ index < 24 then some (2, true)
  else none

/-- The functions of a pin-mux group as (TYPE, INDEX, function B). -/
def muxUsers (g : Nat) : List (Nat × Nat × Bool) :=
  if g = 0 then [(4, 2, false), (4, 3, false), (3, 28, true), (3, 29, true), (3, 30, true), (3, 31, true)]
  else if g = 1 then [(8, 1, false), (3, 24, true), (3, 25, true), (3, 26, true), (3, 27, true)]
  else [(5, 4, false), (5, 5, false), (3, 20, true), (3, 21, true), (3, 22, true), (3, 23, true)]

/-- A write of PMAP_GRANT by the steward or by software (R421): window, page within it, class, access.  A page outside its
window or a class the window does not name is refused. -/
def Dev.grant (d : Dev) (now w page cls acc : Nat) : Dev :=
  let r := r1 .pmapWin w
  let base := d.f r F.pmapWin.BASE
  if w < 32 ∧ page < d.f r F.pmapWin.PAGES ∧ acc ≠ 3 ∧ (acc = 0 ∨ (d.f r F.pmapWin.CLASSES).testBit cls = true) then
    ({ d with grants := if acc = 0 then tdel d.grants (base + page) else tset d.grants (base + page) (cls, acc) }).sf
      (r0 .pmapGrant) F.pmapGrant.REFUSED 0
  else (d.sf (r0 .pmapGrant) F.pmapGrant.REFUSED 1).almMc 0x012 1 now [w, page, cls, acc]

/-- Grant or revoke the page of a resource in the window that holds it. -/
def Dev.grantPage (d : Dev) (now page cls acc : Nat) : Dev :=
  match d.windowOf (page * 4096) with
  | some w => d.grant now w (page - d.f (r1 .pmapWin w) F.pmapWin.BASE) cls acc
  | none => d

/-- The class of a mailbox's initiators that receives a granted page: the lowest of its INIT mask (log entry 23). -/
def Dev.mbxClass (d : Dev) (m : Nat) : Nat := (lowest 11 fun c => (d.f (r1 .pmapMbx m) F.pmapMbx.INIT).testBit c).getD 0

/-- The owner of a resource. -/
def Dev.owner (d : Dev) (type index : Nat) : Option Owner := tget d.stew.owners (resKey type index)

/-- Write an owner field, with the OWNER and OWNED fields of a cue or capture channel. -/
def Dev.setOwner (d : Dev) (type index : Nat) (o : Option Owner) : Dev :=
  let d1 := { d with stew := { d.stew with owners := match o with
    | some x => tset d.stew.owners (resKey type index) x
    | none => tdel d.stew.owners (resKey type index) } }
  let c := match o with
    | some (.ctx n) => (n, 1)
    | some .device => (0, 1)
    | none => (0, 0)
  if type = 0x09 then (d1.sf (r1 .cueChCfg index) F.cueChCfg.OWNER c.1).sf (r1 .cueChCfg index) F.cueChCfg.OWNED c.2
  else if type = 0x0A then (d1.sf (r1 .capChCfg index) F.capChCfg.OWNER c.1).sf (r1 .capChCfg index) F.capChCfg.OWNED c.2
  else d1

/-- A camera port is released: its registers return to their reset values, and CAM_LOAD follows (R261, R366). -/
def Dev.resetCamera (d : Dev) (n : Nat) : Dev :=
  ([r1 .camPortCfg n, r1 .camPortSize n, r1 .camPortTiming n, r1 .camPortBlack n, r2 .camPortCcm n 0, r2 .camPortCcm n 1,
    r2 .camPortCcm n 2, r1 .camPortBufbase n, r1 .camPortBuf n, r1 .camPortRec n, r1 .camPortStat n].foldl
    (fun d r => d.wr r r.reset) d).syncCamLoad

/-- RELEASE of a resource returns it to its reset configuration (R366). -/
def Dev.resetResource (d : Dev) (now type index : Nat) : Dev :=
  let d1 :=
    if type = 0x01 then d.resetPin index
    else if type = 0x06 then
      (List.range 16).foldl (fun d s => d.wn (r2 .spiSlot index s) 0) (d.wn (r1 .spiCfg index) 0)
    else if type = 0x09 then d.resetCue index
    else if type = 0x0A then d.resetCap index
    else if type = 0x0B then d.releasePort index
    else if type = 0x0C then d.wn (r1 .fusPortRing index) 0
    else if type = 0x0D then d.resetCamera index
    else d
  match resPage type index with
  | some p => d1.grantPage now p 0 0
  | none => d1

/-- The resource has no owner any more; with the last function of a pin-mux group the group goes, and it serves function A
again (R366, R409). -/
def Dev.releaseResource (d : Dev) (now type index : Nat) : Dev :=
  let d1 := (d.resetResource now type index).setOwner type index none
  let free (d : Dev) (g : Nat) : Dev :=
    let d2 := d.setOwner 0x0E g none
    { d2 with stew := { d2.stew with muxB := d2.stew.muxB.filter (· != g) } }
  if type = 0x0E then free d1 index
  else match muxOf type index with
    | some m => if (muxUsers m.1).any fun u => (d1.owner u.1 u.2.1).isSome then d1 else free d1 m.1
    | none => d1

/-- Trigger targets of the channels that R367 fixes. -/
def fixedTrig (t : Nat) : Bool := (1 ≤ t && t ≤ 0x0A) || (0x13 ≤ t && t ≤ 0x16)

/-- Whether a context has a cascade that CASCADE_RUN with ITER 0 armed. -/
def Dev.ctxArmed (d : Dev) (c : Nat) : Bool := d.fab.cascades.any fun e => e.2.ctx == c && e.2.armed

/-- Whether a cue channel is fixed to its class-0 owner (R367). -/
def Dev.fixedChannel (d : Dev) (n : Nat) : Bool :=
  match d.owner 0x09 n with
  | some (.ctx c) => d.ctxClass c == 0 && d.ctxArmed c && fixedTrig (d.f (r1 .cueChCfg n) F.cueChCfg.TRIG)
  | _ => false

/-- Resources a context owns, as (TYPE, INDEX). -/
def Dev.claimsOf (d : Dev) (c : Nat) : List (Nat × Nat) :=
  (d.stew.owners.filter fun e => e.2 == .ctx c).map fun e => (e.1 / 65536, e.1 % 65536)

/-- The claims of a closing or torn-down context are released; the fixed class-0 channels of a torn-down one pass to the
device and keep firing, each with a notice of KIND 3 (R368). -/
def Dev.releaseClaims (d : Dev) (now c : Nat) (fixed : List Nat) (cause : Key) : Dev :=
  (d.claimsOf c).foldl (fun d r =>
    if r.1 = 0x09 ∧ fixed.contains r.2 then
      (match d.ctx? c with
       | some x => ({ d.setOwner 0x09 r.2 (some .device) with stew := { (d.setOwner 0x09 r.2 (some .device)).stew with
           fixedCh := r.2 :: (d.setOwner 0x09 r.2 (some .device)).stew.fixedCh } }).notice now x.mbx 3 r.2 .ok cause
       | none => d.setOwner 0x09 r.2 (some .device))
    else d.releaseResource now r.1 r.2) d

end Sys2Proof.Machine
end

