-- ==== Sys2Proof/Machine/Teardown.lean ====
section
/-! DEFINITION. What a context leaves behind when it closes or is torn down, and the teardown itself (R100, R101, R179,
R185, R206, R235, R354, R368). -/

namespace Sys2Proof.Machine

/-- The faults that tear down a context (R100, R206, R140, R465). -/
inductive CtxFault where
  | uncorrectable | illegalConfig | holdLimit | watchdog | delivery | splitPart | inputLoss
  deriving DecidableEq, Repr

/-- The number by which the almanac names a fault (log entry 24). -/
def CtxFault.code : CtxFault → Nat
  | .uncorrectable => 1
  | .illegalConfig => 2
  | .holdLimit => 3
  | .watchdog => 4
  | .delivery => 5
  | .splitPart => 6
  | .inputLoss => 7

/-- An object goes: moves that make a copy of it are cancelled, its copies are released without write-back (R179). -/
def Dev.removeObj (d : Dev) (now i : Nat) : Dev :=
  let moves := (d.slu.reqs.filter fun e => match e.2.making with
    | some m => m.1 == i
    | none => false).map (·.1)
  let d1 := moves.foldl (fun d r => d.cancelMove now r 0) d
  let d2 : Dev := match tget d1.slu.objs i with
    | some o => o.queue.foldl (fun (d : Dev) (q : LockReq) => d.turnAway now q .superseded 0) d1
    | none => d1
  let isPool : Bool := d2.kv.pool.elim false fun p => idIndex p.t1 == i || idIndex p.t2 == i
  let d3 := if isPool then { d2 with kv := { d2.kv with pool := none } } else d2
  d3.freeObj i

/-- A context's T0 copies go with its basins, and its T0 needs (R185).  DESIGN CHOICE, safe (log entry 25): a teardown, whose basins are scrubbed at
once (R101), writes no dirty T0 copy back. -/
def Dev.dropT0 (d : Dev) (c : Nat) : Dev :=
  d.slu.objs.foldl (fun d e =>
    if (e.2.needs.contains (0, c)) || e.2.pins.contains (0, c) then
      d.modObj e.1 fun o => { o with
        needs := o.needs.filter (· != (0, c)), pins := o.pins.filter (· != (0, c)), copies := tdel o.copies 0 }
    else d) d

/-- Copies above home that nothing needs or pins any more are released, a dirty one after its write-back (R182). -/
def Dev.releaseIdle (d : Dev) (now c i : Nat) (key : Key) : Dev :=
  (List.range 3).foldl (fun d t =>
    match tget d.slu.objs i with
    | some o =>
      if t < o.home ∧ (o.copy t).isSome ∧ o.pinsIn t = [] ∧ o.needsIn t = [] then
        d.requestLock now i ⟨key, 256, 0, c, t, .evict⟩
      else d
    | none => d) d

/-- A release that failed is tried again at the next OBJ_EVICT of its object, whichever tier that names (R182). -/
def Dev.retryStuck (d : Dev) (now i : Nat) (q : LockReq) : Dev :=
  match tget d.slu.objs i with
  | some o =>
    let t := o.highest
    if o.stuck ∧ t ≠ q.tier ∧ t < o.home ∧ o.pinsIn t = [] ∧ o.needsIn t = [] then
      d.requestLock now i { q with mbx := 256, seq := 0, tier := t, kind := .evict }
    else d
  | none => d

/-- Whether an eviction of a tier of an object is moving or queued. -/
def Dev.evicting (d : Dev) (o : Obj) (t : Nat) : Bool :=
  (match o.lock.bind fun r => d.purposeOf r with
   | some (.writeBack _ _ u _) => u == t
   | _ => false) || o.queue.any fun q => q.tier == t && (q.kind == .evict || q.kind == .force)

/-- CASCADE_UNLOAD removes the context's T0 needs: a copy that no pin keeps is released, a dirty one after its write-back (R182, R185). -/
def Dev.dropT0Needs (d : Dev) (now c : Nat) (key : Key) : Dev :=
  d.slu.objs.foldl (fun d e =>
    if e.2.needs.contains (0, c) ∧ (0, c) ∉ e.2.pins then
      (d.modObj e.1 fun o => { o with needs := o.needs.filter (· != (0, c)) }).releaseIdle now c e.1 key
    else d) d

/-- Whether a T0 copy of a context is still being written back (R182, R185). -/
def Dev.t0Leaving (d : Dev) (c : Nat) : Bool := d.slu.objs.any fun e => (e.2.copy 0).elim false (fun l => l.ctx == c) && d.evicting e.2 0

/-- Needs and pins of a closing or torn-down context go; objects it created are freed, or kept for their other pinners
(R179, R185). -/
def Dev.leaveObjects (d : Dev) (now c : Nat) (key : Key) : Dev :=
  d.slu.objs.foldl (fun d e =>
    let d1 := d.modObj e.1 fun o => { o with
      needs := o.needs.filter fun p => p.2 != c, pins := o.pins.filter fun p => p.2 != c, orphan := o.orphan || o.creator == c }
    match tget d1.slu.objs e.1 with
    | none => d1
    | some o =>
      if o.orphan ∧ o.pins = [] then d1.removeObj now e.1
      else d1.releaseIdle now c e.1 key) (d.dropT0 c)

/-- Whether a request goes on when its context ends: a part of a safe store after an input loss (R465). -/
def Dev.outlives (d : Dev) (p : Purpose) : Bool :=
  d.pow.inputLost && (match p with
    | .safe _ _ _ => true
    | _ => false)

/-- The sluice requests of a context complete with a status, their parts ended and staging discarded (R101, R207); its safe stores go with
them. -/
def Dev.endReqs (d : Dev) (now c : Nat) (st : Status) : Dev :=
  let mine := (d.slu.reqs.filter fun e => e.2.ctx == c && !(d.outlives e.2.purpose)).map (·.1)
  let d1 := mine.foldl (fun d r =>
    let p := d.purposeOf r
    let making := (tget d.slu.reqs r).bind SluReq.making
    let d1 := (((d.cutReq r st).modReq r fun x => { x with closed := false }).completeReq now r).unlockOf now r making
    match p with
    | some q => d1.kvRequestDone now r q true
    | none => d1) d
  if d.pow.inputLost then d1 else { d1 with mc := { d1.mc with stores := d1.mc.stores.filter fun x => x.ctx != c } }

/-- Stage waits of a context leave the cells' queues. -/
def Dev.dropStageWaits (d : Dev) (c : Nat) : Dev :=
  d.cells.foldl (fun d e => e.2.waiters.foldl (fun d w =>
    if w.who = .stage c then (d.unqueue e.1 w).dropWaitId w.wait else d) d) d

/-- A context's basins are scrubbed and returned to the weir; its saved copy and its switches go (R101, R131). -/
def Dev.freeBasins (d : Dev) (now c : Nat) : Dev :=
  let mine := (d.fab.basins.filter fun e => e.2.ctx == c).map (·.1)
  let area := match d.ctx? c with
    | some x => x.saveArea
    | none => 0
  let d1 := { d with
    mem := mine.foldl (fun m l => Memory.clear m (d.storeAddr l) 0x100000) d.mem
    fab := { d.fab with
      basins := d.fab.basins.filter fun e => e.2.ctx != c
      saved := tdel d.fab.saved c
      flits := d.fab.flits.filter fun f => !(mine.contains f.dst) && !(mine.contains f.src)
      credits := d.fab.credits.filter fun k => !(mine.contains k.basin)
      switches := (d.fab.switches.filter fun (s : Switch) => s.inn != c).map fun (s : Switch) => if s.out = c then { s with out := s.inn } else s
      ctxs := tmod d.fab.ctxs c fun x => { x with basins := [], saveArea := 0 } } }
  let d2 := if area = 0 then d1 else d1.dropArea 1 area
  mine.foldl (fun d l => d.weirChoose now l) d2.powerIdlePairs.syncWeirs

/-- Every command in flight of a context completes with a status, a run with its counts (R101, R354); keep: a SEQ that
stays. -/
def Dev.endCommands (d : Dev) (now c : Nat) (st : Status) (detail : Nat) (keep : Option Nat) : Dev :=
  let runs := (d.fab.cascades.filter fun e => e.2.ctx == c && e.2.run.isSome).map (·.1)
  let d1 := runs.foldl (fun d h => d.finishRun now h st) d
  let mine := d1.stew.inflight.filter fun r => r.ctx == c && some r.seq != keep && r.code != 0x0001 && r.code != 0x0002 && r.code != 0x0101
  mine.foldl (fun d r => d.finishAt now (r.mbx, r.seq) st detail []) d1

/-- Fault teardown (R101). -/
def Dev.teardown (d : Dev) (now c : Nat) (fault : CtxFault) : Dev :=
  match d.ctx? c with
  | none => d
  | some x =>
    if x.torn then d
    else
      let k := d.draw (0x1000 + c) now
      let fixed := (List.range 64).filter fun n => d.owner 0x09 n == some (.ctx c) && d.fixedChannel n
      let d1 := { k.2 with
        fab := { k.2.fab with
          ctxs := tmod k.2.fab.ctxs c fun x => { x with torn := true, endedAt := now }
          basins := k.2.fab.basins.map fun (e : Nat × Basin) => if e.2.ctx = c then (e.1, ({ e.2 with running := [] } : Basin)) else e }
        slu := { k.2.slu with lists := k.2.slu.lists.filter fun e => match d.cascade? (e.1 / 65536) with
          | some y => y.ctx != c
          | none => true } }
      let d2 := ((d1.tearSteps c).endReqs now c .faultTorndown).dropStageWaits c
      let mine := (d2.cells.filter fun (e : Nat × Cell) => e.2.owner == c || (e.2.type == 0 && (d2.holds c).any fun h => h.1 == e.1)).map (·.1)
      let d3 := (mine.foldl (fun (d : Dev) n => d.breakCell now n) d2).kvTeardown now c
      let d4 := d3.freeBasins now c
      let d5 := d4.endCommands now c .faultTorndown 0 none
      let d6 := (({ d5 with fab := { d5.fab with cascades := d5.fab.cascades.filter fun e => e.2.ctx != c } }).leaveObjects now c k.1).releaseClaims
        now c fixed k.1
      let d7 := d6.sf (r1 .pbuCtxCfg c) F.pbuCtxCfg.STATE 0
      (d7.alm 0x040 2 k.1 now [c, fault.code]).notice now x.mbx 2 c .faultTorndown k.1

/-- The DT at which a carry's hold limit is passed (R114, R115): at once after a ninth step of carry (R113), none while it is gated. -/
def Dev.holdEnd (d : Dev) (x : Carry) : Option Nat :=
  if d.holdLimit x.cell < x.heldNs then some 0 else x.since.map fun a => d.dueAfter a (d.holdLimit x.cell + 1 - x.heldNs)

/-- Waiters of a chain of carry whose deadlines had passed by a DT complete with EXPIRED, and carry ends with them (R115). -/
def Dev.chainExpired (d : Dev) (now at_ : Nat) (x : Carry) : Dev :=
  (d.fab.carries.filter x.sameChain).foldl (fun d y => match tget d.cells y.cell with
    | some c => (c.waiters.filter fun w => w.ctx == y.by_ && d.lapsed at_ w).foldl (fun d w =>
        (d.unqueue y.cell w).waiterDone now w .expired (d.cellCount y.cell)) d
    | none => d) d

/-- HOLD_LIMIT_EXPIRE (R113, R115): the oldest carry whose hold limit passed ends with the cell broken, the waiters' BROKEN and the holder's
teardown, unless its waiter's deadline passed before.  A release in the cycle of the expiry stands, so the expiry acts in a later one
(log entry 40). -/
def Dev.holdExpire (d : Dev) (now : Nat) : Dev :=
  let d0 := d.syncCarries now
  match d0.fab.carries.find? fun x => (d0.holdEnd x).elim false fun e => decide (e < now) with
  | some x =>
    let d1 := d0.chainExpired now ((d0.holdEnd x).getD 0) x
    if d1.fab.carries.contains x then (d1.breakCell now x.cell).teardown now x.holder .holdLimit else d1
  | none => d0

/-- HOLD_LIMIT_EXPIRE (R115). -/
def execHoldLimitExpire (t : Nat) (s : State) : Host.Outcome State Fault Refusal := s.run t fun now d => d.holdExpire now

/-- REQUEST_COMPLETE (R195, R205, R206): the last part of a request has ended, and a move has committed or failed.  A prefetch that the steward or its header
check refuses takes its spillway as one that fails does (DEDUCED, log entry 21). -/
def Dev.requestComplete (d : Dev) (now r : Nat) : Dev :=
  match tget d.slu.reqs r with
  | none => d
  | some x =>
    let waiting := x.status.isNone && x.failMask == 0 && !x.committed && (x.staged || x.kvMoves)
    let safe : Bool := match x.purpose with
      | .safe _ _ _ => true
      | _ => false
    let deciding := d.cnl.coords.any fun y => y.kind == 3 && y.id == x.key
    if x.allEnded = false ∨ waiting ∨ x.closed ∨ safe ∨ deciding then d
    else
      let failed := x.outcome != 0 && x.outcome != Status.expired.code
      let delivers := x.parts.any fun p => p.desc.entryDst
      let refused := x.spill != 0 && !x.expired && (x.status == some Status.busy.code || x.status == some Status.badConfig.code || x.status == some Status.badReserved.code)
      let d := if refused then (d.modReq r fun x => { x with expired := true }).takeSpillway now r else d
      let d0 : Dev := { d with fab := { d.fab with ctxs := tmod d.fab.ctxs x.ctx fun c => { c with lastChange := now } } }
      let d1 := (d0.completeReq now r).kvRequestDone now r x.purpose failed
      if x.failMask ≠ 0 ∧ delivers ∧ x.spill = 0 then d1.teardown now x.ctx .delivery else d1

/-- BASIN_STORE_UNCORRECTABLE (R100): an uncorrectable error in the store of a logical basin; the almanac keeps it for the
MC's count (R136). -/
def Dev.basinUncorrectable (d : Dev) (now l a : Nat) : Dev :=
  let phys := d.physical l
  let d1 := { d with fab := { d.fab with uncorr := (phys, d.opTime now) :: d.fab.uncorr } }
  let d2 := d1.almMc 0x050 2 now [phys, a]
  match d.basin? l with
  | some b => d2.teardown now b.ctx .uncorrectable
  | none => d2

/-- BASIN_STORE_UNCORRECTABLE (R100, R101). -/
def execBasinStoreUncorrectable (t l a : Nat) (s : State) : Host.Outcome State Fault Refusal :=
  s.run t fun now d => if l < 256 ∧ d.on (pairOf (d.physical l)) then d.basinUncorrectable now l a else d

/-- Whether a stage of a context waits on a sluice completion (R100): a part still to end delivers into an entry without a ready slot, or
reads from one, or a layer stalls for its prefetch. -/
def Dev.waitsSluice (d : Dev) (c : Nat) : Bool :=
  let dry (a : Nat) : Bool := (d.basin? (entryOf a).1).elim false fun b => (b.entry (entryOf a).2).readyQ.isEmpty
  let full (a : Nat) : Bool := (d.basin? (entryOf a).1).elim false fun b => (b.entry (entryOf a).2).freeQ.isEmpty
  d.slu.reqs.any fun e => e.2.ctx == c && (e.2.closed || !e.2.allEnded) && (e.2.stall.isSome || e.2.parts.any fun p => p.state != .ended &&
    ((p.desc.entryDst && dry p.desc.dstAddr) || (p.desc.entrySrc && full p.desc.srcAddr)))

/-- Whether the deadlock watchdog counts for a context (R100): running, not gated in any region it uses, no stage waiting
on a cell or on a sluice completion. -/
def Dev.watched (d : Dev) (c : Nat) : Bool :=
  match d.ctx? c with
  | some x =>
    d.ctxState c == 2 && !x.torn && !x.blocked && !(x.basins.any fun l => d.gated (d.payer c) (l / 64)) &&
      !(d.waitsSluice c)
  | none => false

/-- DEADLOCK_WATCHDOG (R100): no scoreboard of a watched context changed state for WDOG_MS. -/
def execDeadlockWatchdog (t c : Nat) (s : State) : Host.Outcome State Fault Refusal :=
  s.run t fun now d =>
    match d.ctx? c with
    | some x =>
      if d.watched c ∧ d.f (r0 .pbuCtrl) F.pbuCtrl.WDOG_MS * 1000000 ≤ d.elapsed x.lastChange now then d.teardown now c .watchdog
      else d
    | none => d

end Sys2Proof.Machine
end

