-- ==== Sys2Proof/Machine/ObjCmd.lean ====
section
/-! DEFINITION. The object, cell and sequence commands (R107, R179 to R187, R221, R223, R234, R351, R360). -/

namespace Sys2Proof.Machine

/-- The checks up to LEN with one more permission check (R352). -/
def Dev.frontWith (d : Dev) (r : Req) (flagMask len : Nat) (rsvd : List (Nat × Nat × Nat)) (perm : Option Fail) : Option Fail :=
  firstFail [d.versionFail r, d.permFail r, perm, r.headerFail flagMask, r.rsvdFail rsvd, need (r.len == len) .badConfig 8]

/-- Objects named in the payload must be pinned in T1 (R360). -/
def Dev.needPinned (d : Dev) (id off : Nat) : Option Fail := needCfg (d.pinned1 id).isSome off

/-- The KIND of an OBJ_CREATE. -/
def Req.kind4 (r : Req) : Nat := r.fld 0 0 4

/-- OBJ_CREATE's copy of INIT into the new object's home, as linear bytes of the shorter size (R360). -/
def Dev.initCopy (d : Dev) (now : Nat) (r : Req) (id init : Nat) : Option Dev :=
  match d.pinned1 init, d.obj? id, d.pickEngine fun _ => true with
  | some (oi, src), some o, some eng =>
    match o.copy o.home with
    | some dst =>
      let x : Desc := { op := 1, srcTier := 1, dstTier := o.home, cls := d.ctxClass r.ctx, ctx := r.ctx, staged := true, entryDst := false, entrySrc := false, srcAddr := src.addr, dstAddr := dst.addr, count := min oi.size o.size / 64, object := init }
      let q := d.addReq { purpose := .initCopy r.mbx r.seq, ctx := r.ctx, cls := x.cls, key := r.key d, making := some (idIndex id, o.home), stage := some (dst, o.size) }
      let d1 := q.2.modObj (idIndex id) fun o => { o with lock := some q.1 }
      some (d1.queuePart now q.1 eng 0 x .queued)
    | none => none
  | _, _, _ => none

/-- The checks of objCreate, in the order of R352. -/
def Dev.objCreateCheck (d : Dev) (r : Req) : Option Fail :=
  firstFail
    [d.front r 1 16 [(0, 6, 26)],
     needCfg (r.fld 0 4 2 != 0) 0,
     if r.w32 4 = 0 then none else d.needPinned (r.w32 4) 4,
     needCfg (r.w64 8 % 64 == 0) 8,
     needCfg (r.w32 4 == 0 || d.ctxClass r.ctx != 0) 4,
     need (d.newObj r.kind4 (r.w64 8) (r.fld 0 4 2) r.ctx false).isSome .busy 0]

/-- OBJ_CREATE of a pack or linear object (R179). -/
def Dev.objCreate (d : Dev) (now m seq : Nat) : Dev :=
  d.command now m seq 0x0301 (fun r => !r.flag 0 && decide (r.kind4 < 2)) d.objCreateCheck
    fun r =>
      match d.newObj r.kind4 (r.w64 8) (r.fld 0 4 2) r.ctx false with
      | none => d
      | some (id, d1) =>
        if r.w32 4 = 0 then d1.finish now r .ok id []
        else match (d1.decide' r).initCopy now r id (r.w32 4) with
          | some d2 => d2
          | none => d.finish now r .busy 0 []

/-- OBJ_CREATE (R179): the request SEQ seq of mailbox m. -/
def execObjCreate (t m seq : Nat) (s : State) : Host.Outcome State Fault Refusal := s.run t fun now d => d.objCreate now m seq

/-- The rules that a cell keeps when it is made, field by field: TYPE, CEILING, COUNT, TARGET, HOLD (R106, R107). -/
def cellFields (type ceiling prio count target hold : Nat) : List Bool :=
  [type != 3, decide (prio ≤ ceiling), !((type == 0 && decide (target < count)) || (type == 1 && decide (target ≤ count))),
   decide (2 ≤ type) || target != 0, type != 0 || hold != 0]

/-- The first field of a new cell that breaks its rules, as a payload offset (R107, R352). -/
def cellRuleFail (type ceiling prio count target hold : Nat) : Option Nat :=
  (((cellFields type ceiling prio count target hold).zip [0, 0, 4, 8, 10]).find? fun e => !e.1).map (·.2)

/-- The checks of objCreateCell, in the order of R352. -/
def Dev.objCreateCellCheck (d : Dev) (r : Req) : Option Fail :=
  let cell (r : Req) : Cell :=
    { type := r.fld 0 4 2, broken := false, owner := r.ctx, ceiling := r.fld 0 6 4, count := r.w32 4, target := r.fld 8 0 16,
      hold := r.fld 8 16 16, phase := false, users := [], session := some r.mbx, waiters := [], creator := r.ctx }
  firstFail
    [d.front r 1 12 ([(0, 10, 22)] ++ (if r.fld 0 4 2 = 2 then [(8, 0, 16), (8, 16, 16)] else if r.fld 0 4 2 = 1 then [(8, 16, 16)] else [])),
     (cellRuleFail (r.fld 0 4 2) (r.fld 0 6 4) (d.classPrio (d.ctxClass r.ctx)) (r.w32 4) (r.fld 8 0 16) (r.fld 8 16 16)).map
       fun o => (.badConfig, 32 + o),
     need (d.newCell (cell r)).isSome .busy 0]

/-- OBJ_CREATE of a rendezvous cell (R107). -/
def Dev.objCreateCell (d : Dev) (now m seq : Nat) : Dev :=
  let cell (r : Req) : Cell :=
    { type := r.fld 0 4 2, broken := false, owner := r.ctx, ceiling := r.fld 0 6 4, count := r.w32 4, target := r.fld 8 0 16,
      hold := r.fld 8 16 16, phase := false, users := [], session := some r.mbx, waiters := [], creator := r.ctx }
  d.command now m seq 0x0301 (fun r => !r.flag 0 && r.kind4 == 2) d.objCreateCellCheck
    fun r => match d.newCell (cell r) with
      | some (n, d1) => d1.finish now r .ok n []
      | none => d

/-- OBJ_CREATE_CELL (R107). -/
def execObjCreateCell (t m seq : Nat) (s : State) : Host.Outcome State Fault Refusal :=
  s.run t fun now d => d.objCreateCell now m seq

/-- The two objects of a KV pool: T1 and T2 (R221). -/
def Dev.newPool (d : Dev) (ctx frame n1 n2 : Nat) : Option (Nat × Nat × Dev) :=
  match d.newObj 1 (frame * n1) 1 ctx true with
  | none => none
  | some (a, d1) =>
    match d1.newObj 1 (frame * n2) 2 ctx true with
    | none => none
    | some (b, d2) =>
      let at_ (id t : Nat) : Nat := ((d2.obj? id).bind fun o => o.copy t).elim 0 Loc.addr
      some (a, b, { d2 with kv := { d2.kv with pool := some ⟨a, b, frame, n1, n2, at_ a 1, at_ b 2⟩ } })

/-- The checks of objCreateKvPool, in the order of R352. -/
def Dev.objCreateKvPoolCheck (d : Dev) (r : Req) : Option Fail :=
  firstFail
    [d.front r 1 16 [(0, 4, 28)], needCfg (r.w32 4 != 0 && r.w32 4 % 64 == 0) 4,
     need (d.kv.pool.isNone && (d.newPool r.ctx (r.w32 4) (r.w32 8) (r.w32 12)).isSome) .busy 0]

/-- OBJ_CREATE of the KV pool (R221, R360). -/
def Dev.objCreateKvPool (d : Dev) (now m seq : Nat) : Dev :=
  d.command now m seq 0x0301 (fun r => !r.flag 0 && r.kind4 == 3) d.objCreateKvPoolCheck
    fun r => match d.newPool r.ctx (r.w32 4) (r.w32 8) (r.w32 12) with
      | some (a, b, d1) => d1.syncKv.finish now r .ok a (leBytes 4 b ++ leBytes 4 0)
      | none => d

/-- OBJ_CREATE_KV_POOL (R221). -/
def execObjCreateKvPool (t m seq : Nat) (s : State) : Host.Outcome State Fault Refusal :=
  s.run t fun now d => d.objCreateKvPool now m seq

/-- The kind code of an object in OBJ_CREATE: 3 for the KV pool. -/
def Obj.kindCode (o : Obj) : Nat := if o.pool then 3 else o.kind

/-- The checks of objDelete, in the order of R352. -/
def Dev.objDeleteCheck (d : Dev) (r : Req) : Option Fail :=
  let isCell (r : Req) : Bool := r.kind4 == 2
  let cell (r : Req) : Option Cell := (tget d.cells (r.w32 4)).bind fun c => if c.session.isSome then some c else none
  firstFail
    [d.frontWith r 1 8 [(0, 4, 28)]
       (if r.len < 8 then none
        else if isCell r then (match cell r with
          | some c => need (c.creator == r.ctx) .denied 0
          | none => none)
        else match d.obj? (r.w32 4) with
          | some o => need (o.creator == r.ctx && !o.orphan) .denied 0
          | none => none),
     if isCell r then needCfg (cell r).isSome 4
     else match d.obj? (r.w32 4) with
       | none => some (.badConfig, 36)
       | some o => firstFail
         [needCfg (o.kindCode == r.kind4) 0, need (o.pins == []) .busy 0, need (!o.pool || d.kv.seqs.isEmpty) .busy 0]]

/-- OBJ_CREATE with DELETE (R107, R179). -/
def Dev.objDelete (d : Dev) (now m seq : Nat) : Dev :=
  let isCell (r : Req) : Bool := r.kind4 == 2
  d.command now m seq 0x0301 (fun r => r.flag 0 && decide (r.kind4 < 4)) d.objDeleteCheck
    fun r =>
      if isCell r then (d.freeCell now (r.w32 4)).finish now r .ok 0 []
      else match d.kv.pool with
        | some p =>
          if (idIndex (r.w32 4) = idIndex p.t1) ∨ (idIndex (r.w32 4) = idIndex p.t2) then
            ((d.removeObj now (idIndex p.t1)).removeObj now (idIndex p.t2)).syncKv.finish now r .ok 0 []
          else (d.removeObj now (idIndex (r.w32 4))).finish now r .ok 0 []
        | none => (d.removeObj now (idIndex (r.w32 4))).finish now r .ok 0 []

/-- OBJ_DELETE (R107, R179). -/
def execObjDelete (t m seq : Nat) (s : State) : Host.Outcome State Fault Refusal := s.run t fun now d => d.objDelete now m seq

/-- The tier an object command names. -/
def Req.tier (r : Req) : Nat := r.fld 4 0 2

/-- The configuration checks of a command that records a need or pin: a live object whose creator is open, a tier at or
above home; for T0, basins of the context and no other context's copy; a copy to make needs a descriptor, which class 0
does not get (R27, R181, R184, R194). -/
def Dev.needFail (d : Dev) (r : Req) : Option Fail :=
  match d.obj? (r.w32 0) with
  | none => some (.badConfig, 32)
  | some o =>
    let mine := d.fab.basins.any fun e => e.2.ctx == r.ctx
    let other := (o.needs ++ o.pins).find? fun p => p.1 == 0 && p.2 != r.ctx
    firstFail
      [needCfg (!o.orphan) 0, needCfg (decide (r.tier ≤ o.home)) 4, needCfg (r.tier != 0 || mine) 4,
       needCfg ((o.copy r.tier).isSome || d.ctxClass r.ctx != 0) 0,
       match other with
       | some p => if r.tier = 0 then some (.conflict, p.2) else none
       | none => none]

/-- A need or pin is recorded at once where the copy stands and no eviction of it is under way, else the request goes to the
object's lock (R181, R184, R187). -/
def Dev.recordNeed (d : Dev) (now : Nat) (r : Req) (pin : Bool) : Dev :=
  let i := idIndex (r.w32 0)
  match tget d.slu.objs i with
  | none => d
  | some o =>
    if (o.copy r.tier).isSome ∧ d.evicting o r.tier = false then
      (d.modObj i fun o => { o with
        needs := addPair o.needs (r.tier, r.ctx), pins := if pin then addPair o.pins (r.tier, r.ctx) else o.pins }).finish now r .ok 0 []
    else (d.decide' r).requestLock now i ⟨r.key d, r.mbx, r.seq, r.ctx, r.tier, if pin then .pin else .place⟩

/-- The checks of objPlace, in the order of R352. -/
def Dev.objPlaceCheck (d : Dev) (r : Req) : Option Fail :=
  firstFail [d.front r 0 8 [(4, 2, 30)], d.needFail r]

/-- OBJ_PLACE (R181, R187). -/
def Dev.objPlace (d : Dev) (now m seq : Nat) : Dev :=
  d.command now m seq 0x0302 (fun _ => true) d.objPlaceCheck
    fun r => d.recordNeed now r false

/-- OBJ_PLACE (R181). -/
def execObjPlace (t m seq : Nat) (s : State) : Host.Outcome State Fault Refusal := s.run t fun now d => d.objPlace now m seq

/-- The checks of objPin, in the order of R352. -/
def Dev.objPinCheck (d : Dev) (r : Req) : Option Fail :=
  firstFail [d.front r 1 8 [(4, 2, 30)], d.needFail r]

/-- OBJ_PIN (R184). -/
def Dev.objPin (d : Dev) (now m seq : Nat) : Dev :=
  d.command now m seq 0x0303 (fun r => !r.flag 0) d.objPinCheck
    fun r => d.recordNeed now r true

/-- OBJ_PIN (R184). -/
def execObjPin (t m seq : Nat) (s : State) : Host.Outcome State Fault Refusal := s.run t fun now d => d.objPin now m seq

/-- The checks of objPinRelease, in the order of R352. -/
def Dev.objPinReleaseCheck (d : Dev) (r : Req) : Option Fail :=
  firstFail [d.front r 1 8 [(4, 2, 30)], needCfg (d.obj? (r.w32 0)).isSome 0, needCfg ((d.obj? (r.w32 0)).elim true fun o => decide (r.tier ≤ o.home)) 4]

/-- OBJ_PIN with RELEASE (R179, R182, R184). -/
def Dev.objPinRelease (d : Dev) (now m seq : Nat) : Dev :=
  d.command now m seq 0x0303 (fun r => r.flag 0) d.objPinReleaseCheck
    fun r =>
      let i := idIndex (r.w32 0)
      let d1 := (d.modObj i fun o => { o with pins := o.pins.filter (· != (r.tier, r.ctx)) }).finish now r .ok 0 []
      match tget d1.slu.objs i with
      | some o => if o.orphan ∧ o.pins = [] then d1.removeObj now i else d1.releaseIdle now r.ctx i (r.key d)
      | none => d1

/-- OBJ_PIN_RELEASE (R184). -/
def execObjPinRelease (t m seq : Nat) (s : State) : Host.Outcome State Fault Refusal :=
  s.run t fun now d => d.objPinRelease now m seq

/-- Whether an OBJ_EVICT releases a dirty copy, so that a descriptor writes it back: class 0 gets none for it (R182, R194). -/
def Dev.writesBack (_d : Dev) (o : Obj) (r : Req) : Bool :=
  o.dirty && r.tier == o.highest && r.tier != o.home && (o.copy r.tier).isSome && o.pinsIn r.tier == [] &&
    !((o.afterEvict r.tier r.ctx (r.flag 0)).any fun p => p.1 == r.tier)

/-- The checks of objEvict, in the order of R352. -/
def Dev.objEvictCheck (d : Dev) (r : Req) : Option Fail :=
  firstFail
    [d.front r 1 8 [(4, 2, 30)], needCfg (d.obj? (r.w32 0)).isSome 0,
     match d.obj? (r.w32 0) with
     | some o => (match r.flag 0, o.pinsIn r.tier with
       | true, c :: _ => some (.conflict, c)
       | _, _ => needCfg (!(d.ctxClass r.ctx == 0 && d.writesBack o r)) 0)
     | none => none]

/-- OBJ_EVICT (R182, R184, R187). -/
def Dev.objEvict (d : Dev) (now m seq : Nat) : Dev :=
  d.command now m seq 0x0304 (fun _ => true) d.objEvictCheck
    fun r =>
      let q : LockReq := ⟨r.key d, r.mbx, r.seq, r.ctx, r.tier, if r.flag 0 then .force else .evict⟩
      ((d.decide' r).requestLock now (idIndex (r.w32 0)) q).retryStuck now (idIndex (r.w32 0)) q

/-- OBJ_EVICT (R182). -/
def execObjEvict (t m seq : Nat) (s : State) : Host.Outcome State Fault Refusal := s.run t fun now d => d.objEvict now m seq

/-- Prompt tokens of a SEQ_JOIN. -/
def Dev.promptOf (d : Dev) (r : Req) : List Nat :=
  match d.pinned1 (r.w32 12) with
  | some (_, l) => (List.range (r.w32 16)).map fun i => leNat (d.locBytes l (4 * i) 4)
  | none => []

/-- A SEQ_JOIN as the sequence it queues. -/
def Dev.joinSeq (d : Dev) (r : Req) : KvSeq :=
  let fork := r.flag 0
  let src := tget d.kv.seqs (r.fld 8 0 12)
  { ctx := r.ctx, mbx := r.mbx, seq := r.seq, key := r.key d, domain := r.fld 0 0 13, layers := r.fld 0 16 16,
    groups := r.fld 4 0 8, fmt := r.fld 4 8 5, headDim := r.fld 4 16 16,
    prompt := if fork then (src.elim [] KvSeq.prompt) else d.promptOf r, fork := if fork then some (r.fld 8 0 12) else none }

/-- Frames a join can ever need against the T1 pool (R234). -/
def KvSeq.joinTotal (s : KvSeq) : Nat := s.layers * s.groups * pagesOf (s.prompt.length + 1)

/-- The checks of seqJoin, in the order of R352. -/
def Dev.seqJoinCheck (d : Dev) (r : Req) : Option Fail :=
  let fmt := r.fld 4 8 5
  let dim := r.fld 4 16 16
  let src := tget d.kv.seqs (r.fld 8 0 12)
  firstFail
    [d.front r 1 32 [(0, 13, 3), (4, 13, 3), (8, 12, 20), (20, 0, 32)],
     needCfg (decide (1 ≤ r.fld 0 16 16) && decide (r.fld 0 16 16 ≤ 256)) 2,
     needCfg (decide (1 ≤ r.fld 4 0 8) && decide (r.fld 4 0 8 ≤ 64)) 4,
     needCfg (kvFormat fmt) 5,
     needCfg (decide (32 ≤ dim) && decide (dim ≤ 256) && dim % 32 == 0) 6,
     needCfg (d.kv.pool.elim false fun p => decide (kvFrame fmt dim ≤ p.frameBytes)) 6,
     if r.flag 0 then firstFail
       [needCfg (src.elim false fun x => x.ctx == r.ctx && x.state != .queued && x.layers == r.fld 0 16 16 && x.groups == r.fld 4 0 8 &&
          x.fmt == fmt && x.headDim == dim && x.domain == r.fld 0 0 13) 8,
        needCfg (r.w32 12 == 0) 12, needCfg (r.w32 16 == 0) 16]
     else firstFail
       [needCfg (r.fld 8 0 12 == 0) 8,
        if r.w32 16 = 0 then needCfg (r.w32 12 == 0) 12 else d.needPinned (r.w32 12) 12,
        needCfg (r.w32 16 == 0 || (d.pinned1 (r.w32 12)).elim false fun x => decide (4 * r.w32 16 ≤ x.1.size)) 16],
     needCfg (decide ((d.joinSeq r).joinTotal ≤ d.poolFrames 1)) 16,
     need (decide (d.kv.seqs.length < 4096)) .busy 0]

/-- SEQ_JOIN (R223, R234, R240). -/
def Dev.seqJoin (d : Dev) (now m seq : Nat) : Dev :=
  d.command now m seq 0x0401 (fun _ => true) d.seqJoinCheck
    fun r =>
      match lowest 4096 fun i => !thas d.kv.seqs i with
      | none => d.finish now r .busy 0 []
      | some slot =>
        let d1 := (({ d with kv := { d.kv with seqs := tset d.kv.seqs slot (d.joinSeq r) } }).decide' r).syncKv
        if r.w64 24 = 0 then d1
        else
          let p := d1.addWait { owner := .command r.mbx r.seq, deadline := r.w64 24, guard := 0, src := 0x2000 + r.mbx }
          p.2.modSeq slot fun s => { s with wait := some p.1 }

/-- SEQ_JOIN (R234). -/
def execSeqJoin (t m seq : Nat) (s : State) : Host.Outcome State Fault Refusal := s.run t fun now d => d.seqJoin now m seq

/-- The checks of seqLeave, in the order of R352. -/
def Dev.seqLeaveCheck (d : Dev) (r : Req) : Option Fail :=
  firstFail
    [d.front r 0 4 [(0, 12, 20)],
     needCfg ((tget d.kv.seqs (r.fld 0 0 12)).elim false fun s => s.ctx == r.ctx && s.leaving.isNone) 0]

/-- SEQ_LEAVE (R234): processed at the next commit; a queued join that leaves is never admitted. -/
def Dev.seqLeave (d : Dev) (now m seq : Nat) : Dev :=
  d.command now m seq 0x0402 (fun _ => true) d.seqLeaveCheck
    fun r => (d.modSeq (r.fld 0 0 12) fun s => { s with leaving := some (r.mbx, r.seq, r.key d) }).decide' r

/-- SEQ_LEAVE (R234). -/
def execSeqLeave (t m seq : Nat) (s : State) : Host.Outcome State Fault Refusal := s.run t fun now d => d.seqLeave now m seq

/-- The entries of a SEQ_STEP: slot and new tokens. -/
def Req.stepEntries (r : Req) : List (Nat × Nat) :=
  (List.range (r.fld 4 0 8)).map fun i => (r.fld (8 + 4 * i) 0 12, r.fld (8 + 4 * i) 16 16)

/-- No two entries name one slot. -/
def distinctSlots : List (Nat × Nat) → Bool
  | [] => true
  | e :: rest => !(rest.any fun x => x.1 == e.1) && distinctSlots rest

/-- The checks of seqStep, in the order of R352. -/
def Dev.seqStepCheck (d : Dev) (r : Req) : Option Fail :=
  let n := r.fld 4 0 8
  let badCount : Option Fail := if r.len < 8 then some (.badConfig, 8) else needCfg (decide (1 ≤ n) && decide (n ≤ 118)) 4
  firstFail
    [d.versionFail r, d.permFail r, r.headerFail 0,
     if badCount.isSome then none else r.rsvdFail ((4, 8, 24) :: (List.range n).map fun i => (8 + 4 * i, 12, 4)),
     badCount, need (r.len == 8 + 4 * n) .badConfig 8, d.needPinned (r.w32 0) 0,
     needCfg ((d.pinned1 (r.w32 0)).elim false fun x => decide (32 * n ≤ x.1.size)) 0,
     ((List.range n).find? fun i => (tget d.kv.seqs (r.fld (8 + 4 * i) 0 12)).elim true fun s => s.ctx != r.ctx || s.state == .queued).map
       fun i => (.badConfig, 40 + 4 * i),
     needCfg (distinctSlots r.stepEntries) 8]

/-- SEQ_STEP (R228, R229, R234): accepted, it waits for its boundary. -/
def Dev.seqStep (d : Dev) (now m seq : Nat) : Dev :=
  d.command now m seq 0x0403 (fun _ => true) d.seqStepCheck
    fun r =>
      let st : KvStep := { ctx := r.ctx, mbx := r.mbx, seq := r.seq, key := r.key d, result := r.w32 0, entries := r.stepEntries }
      ({ d with kv := { d.kv with steps := d.kv.steps ++ [st] } }).decide' r

/-- SEQ_STEP (R234). -/
def execSeqStep (t m seq : Nat) (s : State) : Host.Outcome State Fault Refusal := s.run t fun now d => d.seqStep now m seq

end Sys2Proof.Machine
end

