-- ==== Sys2Proof/Machine/CanalLink.lean ====
section
/-! DEFINITION. The Canal link's ports: routing, sequenced flits, link credits, acknowledgement and replay (R399 to R404). -/

namespace Sys2Proof.Machine

/-- A port beside its registers, and the device with one changed. -/
def Dev.cnlPort (d : Dev) (p : Nat) : CnlPort := tgetD d.cnl.ports p {}
def Dev.modCnl (d : Dev) (p : Nat) (f : CnlPort → CnlPort) : Dev := { d with cnl := { d.cnl with ports := tset d.cnl.ports p (f (d.cnlPort p)) } }

/-- This module's index (R399). -/
def Dev.own (d : Dev) : Nat := d.module % 4

/-- Whether a port is up. -/
def Dev.portUp (d : Dev) (p : Nat) : Bool := decide (p < 2) && d.on 165 && d.fb (r1 .cnlPortStat p) F.cnlPortStat.UP

/-- Modules between this one and another, going out of port 0 or port 1 (R399, R401). -/
def Dev.hopsVia (d : Dev) (p dst : Nat) : Nat :=
  let n := max 1 d.cnl.ring
  if p = 0 then (dst + n - d.own) % n else (d.own + n - dst) % n

/-- The port a flit for a module leaves by: the shorter way, port 0 on a tie, the other way where that port is down (R401, R404). -/
def Dev.cnlRoute (d : Dev) (dst : Nat) : Option Nat :=
  let first := if d.hopsVia 0 dst ≤ d.hopsVia 1 dst then 0 else 1
  if d.cnl.ring ≤ dst ∨ dst = d.own then none
  else if d.portUp first then some first
  else if d.portUp (1 - first) then some (1 - first)
  else none

/-- The guard of an arrival from a module: 200 ns from a neighbour, 280 ns across an intermediate module (R404). -/
def Dev.cnlGuard (d : Dev) (m : Nat) : Nat := if min (d.hopsVia 0 m) (d.hopsVia 1 m) ≤ 1 then 200 else 280

/-- Flit types (R402). -/
def ftData : Nat := 0
def ftCredit : Nat := 1
def ftMemRd : Nat := 2
def ftMemWr : Nat := 3
def ftMemCpl : Nat := 4
def ftPtp : Nat := 7
def ftPrepare : Nat := 8
def ftVote : Nat := 9
def ftDecide : Nat := 10
def ftQuery : Nat := 11
def ftDone : Nat := 12

/-- Whether a flit is a data flit, which takes link credit: one with a payload (R402, R403). -/
def CnlFlit.isData (f : CnlFlit) : Bool := f.type == ftData || f.payload != []

/-- The flit that asks for an open memory request (R402). -/
def CnlReq.flit (q : CnlReq) (own : Nat) : CnlFlit :=
  if q.n = 0 then { type := ftMemWr, dst := q.dst, src := own, vc := 1, body := [q.tag, q.off], payload := q.data }
  else { type := ftMemRd, dst := q.dst, src := own, vc := 1, body := [q.tag, q.off, q.n], payload := [] }

/-- Whether a port may send a flit now (R403): room in the 128-flit replay buffer and, for a data flit, a link credit. -/
def CnlPort.maySend (x : CnlPort) (f : CnlFlit) : Bool :=
  decide (x.replay.length < 128) && (!f.isData || decide (0 < x.credits.getD f.vc 0))

/-- The flit a port sends next: the first of virtual channel 0, else the first of channel 1, that may go (R133, R403). -/
def CnlPort.next (x : CnlPort) : Option CnlFlit :=
  match x.out.find? fun f => f.vc == 0 with
  | some f => if x.maySend f then some f else (x.out.find? fun f => f.vc != 0).bind fun g => if x.maySend g then some g else none
  | none => (x.out.find? fun f => f.vc != 0).bind fun g => if x.maySend g then some g else none

/-- Change a port's credit of a virtual channel. -/
def CnlPort.setCredit (x : CnlPort) (vc n : Nat) : CnlPort := { x with credits := if vc = 0 then [n, x.credits.getD 1 0] else [x.credits.getD 0 0, n] }

/-- One flit leaves: it takes the next sequence and stays in the replay buffer until acknowledged (R403). -/
def CnlPort.sendOne (x : CnlPort) : CnlPort :=
  match x.next with
  | none => x
  | some f =>
    let y : CnlPort := { x with out := x.out.erase f, replay := x.replay ++ [(x.txSeq, f)], txSeq := (x.txSeq + 1) % 65536 }
    if f.isData then y.setCredit f.vc (x.credits.getD f.vc 0 - 1) else y

/-- Flits leave while they may. -/
def CnlPort.sendAll (x : CnlPort) : Nat → CnlPort
  | 0 => x
  | n + 1 => x.sendOne.sendAll n

/-- A port sends what it may; flits that go on waiting for credit count towards the credit timeout (R403). -/
def Dev.cnlPump (d : Dev) (now p : Nat) : Dev :=
  if d.portUp p = false then d
  else d.modCnl p fun x =>
    let y := x.sendAll x.out.length
    { y with stuckAt := if y.out = [] then none else if y.stuckAt.isSome then y.stuckAt else some now }

/-- A flit is given to a port. -/
def Dev.cnlOn (d : Dev) (now p : Nat) (f : CnlFlit) : Dev := (d.modCnl p fun x => { x with out := x.out ++ [f] }).cnlPump now p

/-- A flit for another module is sent; nothing leaves where no way exists. -/
def Dev.cnlSend (d : Dev) (now type dst vc : Nat) (body : List Nat) (payload : List Byte) : Dev :=
  match d.cnlRoute dst with
  | some p => d.cnlOn now p { type := type, dst := dst, src := d.own, vc := vc, body := body, payload := payload }
  | none => d

/-- A received data flit's link credit goes back to the neighbour that sent it (R403). -/
def Dev.cnlReturn (d : Dev) (now p vc : Nat) : Dev :=
  let next := if p = 0 then (d.own + 1) % max 1 d.cnl.ring else (d.own + d.cnl.ring - 1) % max 1 d.cnl.ring
  d.cnlOn now p { type := ftCredit, dst := next, src := d.own, vc := 0, body := [0, 0, 0, 0, b2n (vc == 0), b2n (vc != 0)], payload := [] }

/-- A sequenced flit reaches a port (R401, R403): a bad CRC is answered with NAK, one out of order with NAK of the sequence expected, one
received before with ACK; the next in order is acknowledged and served here, or forwarded out of the other port; where that port is down, what is asked again the
other way round goes back (R404). -/
def Dev.cnlRx (d : Dev) (now p seq : Nat) (bad : Bool) (f : CnlFlit) (serve : Dev → Dev) : Dev :=
  if d.portUp p = false then d
  else
    let x := d.cnlPort p
    if bad then d.modCnl p fun x => { x with answer := some (false, x.rxSeq) }
    else if seq ≠ x.rxSeq then
      d.modCnl p fun x => { x with answer := if (x.rxSeq + 65536 - seq) % 65536 ≤ 128 then some (true, (x.rxSeq + 65535) % 65536) else some (false, x.rxSeq) }
    else
      let d1 := d.modCnl p fun x => { x with rxSeq := (seq + 1) % 65536, answer := some (true, seq) }
      let d2 := if f.isData then d1.cnlReturn now p f.vc else d1
      if f.dst = d2.own then serve d2
      else if f.dst < d2.cnl.ring ∧ d2.portUp (1 - p) then d2.cnlOn now (1 - p) f
      else if f.dst < d2.cnl.ring ∧ f.type ≠ ftData ∧ f.type ≠ ftCredit then d2.cnlOn now p f
      else d2

/-- The basins here whose mesh-inbound entries have the same entry of another module as their peer: those that the copies of a multicast reach
(R134). -/
def Dev.remoteGroup (d : Dev) (k : CreditBack) : List Nat :=
  (d.fab.basins.filter fun b => b.2.entries.any fun e =>
    e.2.kind == 1 && e.2.remote && 256 * (e.2.peerModule + 1) + e.2.peer == k.basin && e.2.peerEntry == k.entry).map (·.1)

/-- The credits for other modules that may go, each once every copy's consumer has freed its slot, and those that wait for others (R134). -/
def Dev.joinCredits (d : Dev) (cs : List CreditBack) : List CreditBack × List CreditBack :=
  cs.foldl (fun (a : List CreditBack × List CreditBack) k =>
    let copies := (d.remoteGroup k).map fun l => { k with count := l }
    if a.2.contains k && copies.all (fun x => a.2.contains x) then (a.1 ++ [k], (copies.foldl (fun (l : List CreditBack) x => l.erase x) (a.2.erase k)))
    else a) ([], cs)

/-- Flits and credits of the fabric that belong to other modules go to the link (R134, R139, R141): flits with their ready token and order key,
credits for one peer entry. -/
def Dev.cnlDrain (d : Dev) (now : Nat) : Dev :=
  let rs := d.fab.remote
  let cs := d.joinCredits (d.fab.credits.filter fun k => decide (256 ≤ k.basin))
  let cls (l : Nat) : Nat := match d.basin? l with
    | some b => if d.ctxClass b.ctx < 2 then 0 else 1
    | none => 1
  let d0 := { d with fab := { d.fab with remote := [], credits := d.fab.credits.filter (fun k => decide (k.basin < 256)) ++ cs.2 } }
  let d1 := rs.foldl (fun (d : Dev) e => d.cnlSend now ftData e.1 (cls e.2.src)
    [e.2.src, e.2.dst, e.2.entry, e.2.srcEntry, e.2.index, b2n e.2.last, e.2.key.dt, e.2.key.src, e.2.key.cnt] e.2.data) d0
  cs.1.foldl (fun (d : Dev) (k : CreditBack) => d.cnlSend now ftCredit (k.basin / 256 - 1) 0 [1, k.basin % 256, k.entry, k.count, 0, 0] []) d1

end Sys2Proof.Machine
end

