-- ==== Sys2Proof/Machine/Time.lean ====
section
/-! DEFINITION. The time unit: time-base cycles, the servo, the first lock and its jump, holdover (R29 to R38). -/

namespace Sys2Proof.Machine

/-- Round a quotient to the nearest whole number, ties to even (R33). -/
def roundEvenDiv (n : Int) (m : Nat) : Int :=
  let q := n / (m : Int)
  let r := n % (m : Int)
  if 2 * r < m then q else if (m : Int) < 2 * r then q + 1 else if q % 2 = 0 then q else q + 1

/-- The slew limit, ±500 ppm in 2^-32 ns per ns (R33). -/
def slewLimit : Int := 2147483

/-- The clamp of the integrator in its 48.16 form (R33). -/
def clampInteg (x : Int) : Int := clampInt (-slewLimit * 65536) (slewLimit * 65536) x

/-- The servo's applied rate (R33). -/
def Dev.rate (d : Dev) : Int := sext 32 (d.rn (r0 .timeServoRate))

/-- One update of integrator and rate with an offset (R33). -/
def Dev.servoStep (d : Dev) (e : Int) : Dev :=
  let integ := clampInteg (sext 64 (d.rn (r0 .timeServoInteg)) + (d.rn (r0 .timeServoKi) : Int) * e)
  let rate := clampInt (-slewLimit) slewLimit
    (roundEvenDiv (-((d.rn (r0 .timeServoKp) : Int) * e + integ)) 65536)
  let d1 := (d.wn (r0 .timeServoInteg) (wrapInt 64 integ)).wn (r0 .timeServoRate) (wrapInt 32 rate)
  d1.sf (r0 .timeStatus) F.timeStatus.RATE_CLAMPED (b2n (rate == slewLimit || rate == -slewLimit))

/-- A stored time moved by the jump; it saturates and all ones stay all ones (R37). -/
def rebase (k x : Nat) : Nat := satAdd dtMax x k

/-- Armed cue times moved by the jump (R37, CUE_CHn_STAT.REBASED). -/
def Dev.rebaseCues (d : Dev) (k : Nat) : Dev :=
  (List.range 64).foldl (fun d n =>
    if d.fb (r1 .cueChCfg n) F.cueChCfg.ARM then
      (d.wn (r1 .cueChTime n) (rebase k (d.rn (r1 .cueChTime n)))).sf (r1 .cueChStat n) F.cueChStat.REBASED 1
    else d) d

/-- Timer compare values moved by the jump (R374). -/
def Dev.rebaseTimers (d : Dev) (k : Nat) : Dev :=
  let d1 := (List.range 34).foldl (fun d n =>
    if n % 2 = 0 ∨ 32 ≤ n then d.wn (r1 .eicTTimecmp n) (rebase k (d.rn (r1 .eicTTimecmp n))) else d) d
  { d1 with eic := { d1.eic with stimecmp := tmap d1.eic.stimecmp fun _ x => rebase k x } }

/-- In the edge of the jump every armed cue time and every pending deadline moves by its size (R37, R374). -/
def Dev.jumpAll (d : Dev) (k : Nat) : Dev := ((d.rebaseCues k).rebaseTimers k).rebaseDeadlines k

/-- An offset write that has effect: the first lock, with or without the jump, or one servo update (R33, R35, R36).
Answers the ticks DT jumps forward.  DESIGN CHOICE, unsafe (log entry 60): a jump past 2^64 − 1, which R36 leaves open, is cut to what is
left of the counter, and TIME_JUMP_SIZE holds the cut size. -/
def Dev.offsetWrite (d : Dev) (now : Nat) (e : Int) : Nat × Dev :=
  let st := r0 .timeStatus
  if d.fb (r0 .timeCtrl) F.timeCtrl.SERVO_EN = false then (0, d)
  else
    let d0 := d.sf st F.timeStatus.HOLDOVER 0
    if d.fb st F.timeStatus.UNSYNCED then
      let d1 := d0.sf st F.timeStatus.UNSYNCED 0
      if d.fb (r0 .timeCtrl) F.timeCtrl.JUMP_ARM ∧ e < 0 then
        let k := min e.natAbs (dtMax - now)
        let d2 := ((d1.wn (r0 .timeJumpAt) (now + k)).wn (r0 .timeJumpSize) k).sf st F.timeStatus.JUMPED 1
        let d3 := (d2.jumpAll k).raise 1
        (k, { d3.emit 0x0001 (now + k) .mcEvent false [now + k, k] with time := { holdBase := some (now + k) } })
      else
        let d2 := if d.fb (r0 .timeCtrl) F.timeCtrl.JUMP_ARM then (d1.sf st F.timeStatus.STEP_REFUSED 1).raise 1 else d1
        (0, { d2.servoStep e with time := { holdBase := some now } })
    else (0, { d0.servoStep e with time := { holdBase := some now } })

/-- SERVO_UPDATE (R32, R33, R35 to R37): initiator class c writes the measured offset, a signed 64-bit value. -/
def execServoUpdate (t c : Nat) (off : Word) (s : State) : Host.Outcome State Fault Refusal :=
  let now := s.now t
  let r := r0 .timeServoOffset
  if s.dev.reaches s.latchClosed now c r.addr r.bytes .write then
    let p := ({ s.dev with bus := .ok }).offsetWrite now (sext 64 off.toNat)
    .next { s with dt := now + p.1, dev := p.2 }
  else .next { s with dt := now, dev := s.dev.faulted s.latchClosed now c r.addr r.bytes .write }

/-- HOLDOVER (R35): the timer runs only while SERVO_EN is 1. -/
def execHoldover (t : Nat) (s : State) : Host.Outcome State Fault Refusal :=
  s.run t fun now d =>
    match d.time.holdBase with
    | some b =>
      if d.earlyOn && d.fb (r0 .timeCtrl) F.timeCtrl.SERVO_EN && !d.fb (r0 .timeStatus) F.timeStatus.HOLDOVER &&
          decide (d.f (r0 .timeCtrl) F.timeCtrl.HOLDOVER_MS * 1000000 ≤ d.elapsed b now) then
        ((d.sf (r0 .timeStatus) F.timeStatus.HOLDOVER 1).raise 1).emit 0x0001 now .mcEvent false [now]
      else d
    | none => d

/-- A write to TIME_CTRL: clearing SERVO_EN clears HOLDOVER, setting it starts the timer (R35). -/
def Dev.writeTimeCtrl (d : Dev) (now : Nat) (v : Nat) : Dev :=
  let was := d.fb (r0 .timeCtrl) F.timeCtrl.SERVO_EN
  let d1 := d.wn (r0 .timeCtrl) (maskedWrite RegName.timeCtrl.info false (d.rn (r0 .timeCtrl)) v)
  match was, d1.fb (r0 .timeCtrl) F.timeCtrl.SERVO_EN with
  | false, true => { d1 with time := { holdBase := some now } }
  | true, true => d1
  | _, false => { d1.sf (r0 .timeStatus) F.timeStatus.HOLDOVER 0 with time := { holdBase := none } }

/-- The ticks and the fraction of one time-base cycle (R29). -/
def cycleAdvance (frac : Nat) (rate : Int) : Nat × Nat :=
  let x := (4294967296 : Int) + frac + rate
  ((x / 4294967296).toNat, (x % 4294967296).toNat)

/-- One time-base cycle: DT advances by one tick and the servo's rate adjustment (R29); it stops where the 64-bit counter
would wrap (R30).  While the early domain is off nothing happens. -/
def timeBaseCycle (s : State) : Host.Outcome State Fault Refusal :=
  if s.dev.earlyOn = false then .next s
  else
    let p := cycleAdvance s.frac s.dev.rate
    if s.dt + p.1 ≤ dtMax then .next { s with dt := s.dt + p.1, frac := p.2 } else .fault .dtExhausted

end Sys2Proof.Machine
end

