-- ==== Sys2Proof/Machine/Settings.lean ====
section
/-! DEFINITION. CONFIG_SET's registers: where each is, its settable fields, and its write at the point its row names (R364). -/

namespace Sys2Proof.Machine

/-- The register of a CONFIG_SET row and index; none for the gPTP priorities (R364). -/
def settingReg (code index : Nat) : Option Reg :=
  match code with
  | 0x0001 => some (r0 .timeCtrl)
  | 0x0002 => some (r0 .timeServoKp)
  | 0x0003 => some (r0 .timeServoKi)
  | 0x0004 => some (r0 .timeServoInteg)
  | 0x0010 => some (r1 .ethPortCfg index)
  | 0x0020 => some (r1 .leEngCfg index)
  | 0x0021 => some (r0 .leVnom)
  | 0x0022 => some (r1 .leJoint index)
  | 0x0030 => some (r0 .ssCfg)
  | 0x0040 => some (r0 .kvCtrl)
  | 0x0050 => some (r0 .planCtrl)
  | 0x0060 => some (r0 .pbuCtrl)
  | _ => none

/-- A value with the masked bits taken from another (R364). -/
def mergeBits (old mask v : Nat) : Nat := (old - (old &&& mask)) ||| (v &&& mask)

/-- A setting takes effect (R364). -/
def Dev.applySetting (d : Dev) (now : Nat) (x : Setting) : Dev :=
  if x.code = 0x0012 then { d with stew := { d.stew with ptpPrio := mergeBits d.stew.ptpPrio x.mask x.value % 65536 } }
  else match settingReg x.code x.index with
    | some r =>
      let v := mergeBits (d.rn r) x.mask x.value
      if x.code = 0x0001 then d.writeTimeCtrl now v
      else if x.code = 0x0060 then (let d' := d.wn r v
        if d'.enforced then d' else d'.ungate now)
      else d.wn r v
    | none => d

/-- The settings of a row and index that wait are written, and their commands complete (R364). -/
def Dev.settle (d : Dev) (now code index : Nat) : Dev :=
  let mine := d.stew.settings.filter fun x => x.code == code && x.index == index
  let d1 := { d with stew := { d.stew with settings := d.stew.settings.filter fun x => !(x.code == code && x.index == index) } }
  mine.foldl (fun (d : Dev) x => (d.applySetting now x).finishAt now (x.mbx, x.seq) .ok 0 []) d1

end Sys2Proof.Machine
end

