-- ==== Sys2Proof/Machine/Stages.lean ====
section
/-! DEFINITION. The stages of a basin: dispatch, the eight kinds at work, tile ends, flits and credits, invocations and the end of a
context switch (R84, R98, R118, R124 to R134, R362). -/

namespace Sys2Proof.Machine

/-- The window record of a stage, from the cascade bound there (R244). -/
def Dev.winOf (d : Dev) (l i : Nat) : Option WinRec :=
  match d.basin? l with
  | some b => d.fab.cascades.findSome? fun e =>
      if e.2.ctx = b.ctx ∧ e.2.bound then (e.2.windows.map WinRec.parse).find? fun r => r.lbasin == l && r.stage == i else none
  | none => none

/-- A slot's address. -/
def Dev.slotAddr (d : Dev) (l : Nat) (e : SbEntry) (slot : Nat) : Nat := d.storeAddr l + e.base + slot * e.size

/-- A tile in a slot of an entry. -/
def Dev.tileAt (d : Dev) (l : Nat) (e : SbEntry) (slot fmt : Nat) (shape : Nat × Nat) (sparse : Bool) : Tile :=
  ⟨d.slotAddr l e slot, e.size, fmt, shape.1, shape.2, sparse⟩

/-- Whether a ready slot with a stamp counts for a dispatch (R126). -/
def Dev.counts (d : Dev) (now : Nat) (b : Basin) (e : SbEntry) (stamp : Nat) : Bool :=
  e.kind != 6 || (decide (stamp ≤ now) &&
    (d.ctxClass b.ctx != 0 || !d.fb (r1 .pbuCtxCfg b.ctx) F.pbuCtxCfg.PINNED || decide (stamp ≤ d.rn (r0 .pbuPeriodAt))))

/-- Ready slots of an entry that count. -/
def Dev.readySlots (d : Dev) (now : Nat) (b : Basin) (e : SbEntry) : List (Nat × Nat) := e.readyQ.filter fun s => d.counts now b e s.2

/-- A consumer takes the oldest ready slot; under LATEST the newest, and the older ones become free (R124, R126). -/
def Dev.takeSlot (d : Dev) (now : Nat) (b : Basin) (e : SbEntry) : Nat × SbEntry :=
  let q := d.readySlots now b e
  if e.kind = 6 ∧ e.latest then
    let slot := (q.getLastD (0, 0)).1
    (slot, { e with readyQ := e.readyQ.filter fun s => !(q.contains s), freeQ := e.freeQ ++ (q.dropLast.map (·.1)) })
  else
    let s := q.headD (0, 0)
    (s.1, { e with readyQ := e.readyQ.erase s })

/-- Whether a cascade with this context is being unloaded, or the context closes, was torn down or is switched (R131). -/
def Dev.halting (d : Dev) (c : Nat) : Bool :=
  d.switching c || (match d.ctx? c with
    | some x => x.torn || x.closing.isSome
    | none => true) || d.fab.cascades.any fun e => e.2.ctx == c && e.2.unloading.isSome

/-- Whether a run of the cascade of a basin is ending early, so that nothing is dispatched there (R200). -/
def Dev.endsAt (d : Dev) (c l : Nat) : Bool := d.fab.cascades.any fun e => e.2.ctx == c && e.2.ending.isSome && e.2.basins.any fun b => b.lbasin == l

/-- Whether stage i of a basin is dispatchable (R67, R128). -/
def Dev.dispatchable (d : Dev) (now l : Nat) (b : Basin) (i : Nat) : Bool :=
  let w := b.stages.getD i 0
  let has (e : Nat) : Bool := !(d.readySlots now b (b.entry e)).isEmpty
  d.ctxState b.ctx == 2 && !d.halting b.ctx && !d.endsAt b.ctx l && decide (tgetD d.pow.pairs (pairOf (d.physical l)) 0 ≤ now) && !d.gated (d.payer b.ctx) (l / 64) &&
  has (stInA w) && (stInB w == 63 || has (stInB w)) && (stParam w == 63 || has (stParam w)) &&
  decide (0 < (b.entry (stOut w)).free) && !b.running.any fun r => engineOf (stKind (b.stages.getD r.1 0)) == engineOf (stKind w)

/-- The stage that is dispatched next in a basin: the lowest (R129). -/
def Dev.nextStage (d : Dev) (now l : Nat) (b : Basin) : Option Nat := lowest (hdrNstage b.header) fun i => d.dispatchable now l b i

/-- The dimensions a stage runs with: those of its word, or of its parameter slot (R122, log entry 25). -/
def Dev.dimsFor (d : Dev) (l w : Nat) (b : Basin) (slot : Option Nat) : Dims :=
  match slot with
  | some s => let a := d.slotAddr l (b.entry (stParam w)) s; ⟨d.mem.le a 4, d.mem.le (a + 4) 4, d.mem.le (a + 8) 4⟩
  | none => stDims w

/-- Whether dimensions from a parameter slot may run (R118, R122, R149, R251). -/
def Dev.dimsFit (_d : Dev) (w : Nat) (b : Basin) (m : Dims) (x : Option WinRec) : Bool :=
  dimsOk w m x && fitsSlots w m x (b.entry (stInA w)).size (b.entry (stInB w)).size (b.entry (stOut w)).size &&
  (match x with
   | some r => !isWindow w || r.padFits w m.d0 m.d1
   | none => true)

/-- A cascade trace record (R460): the dispatch, the counts of IN_A and OUT, its sequence number. -/
def Dev.traceDispatch (d : Dev) (now l i : Nat) (b : Basin) (w : Nat) : Dev :=
  if hdrTrace b.header = false then d
  else
    let a := b.entry (stInA w)
    let o := b.entry (stOut w)
    { d with fab := { d.fab with
        trace := (d.fab.trace ++ [[now, b.ctx, i, l, a.ready, a.free, o.ready, o.free, d.fab.traceSeq]]).drop (d.fab.trace.length + 1 - 4096)
        traceSeq := d.fab.traceSeq + 1 } }

/-- The dispatch of a stage (R122, R124, R128, R129): its input and parameter slots are taken, and the oldest free result slot.  DESIGN CHOICE,
unsafe (log entry 63): operands that name one entry share the one ready slot that is taken of it, and its end hands that slot back once. -/
def Dev.startStage (d : Dev) (now l i : Nat) (b : Basin) : Dev :=
  let w := b.stages.getD i 0
  let a := d.takeSlot now b (b.entry (stInA w))
  let b1 := b.setEntry (stInA w) a.2
  let p2 : Option Nat × Basin := if stInB w = 63 then (none, b1) else if stInB w = stInA w then (some a.1, b1) else
    (let q := d.takeSlot now b1 (b1.entry (stInB w)); (some q.1, b1.setEntry (stInB w) q.2))
  let p3 : Option Nat × Basin := if stParam w = 63 then (none, p2.2) else if stParam w = stInA w then (some a.1, p2.2)
    else if stParam w = stInB w then (p2.1, p2.2) else
    (let q := d.takeSlot now p2.2 (p2.2.entry (stParam w)); (some q.1, p2.2.setEntry (stParam w) q.2))
  let m := d.dimsFor l w b p3.1
  if p3.1.isSome && !(d.dimsFit w b m (d.winOf l i)) then d.teardown now b.ctx .illegalConfig
  else
    let o := p3.2.entry (stOut w)
    let b4 := if o.kind = 2 then p3.2 else p3.2.setEntry (stOut w) { o with freeQ := o.freeQ.drop 1 }
    let r : Running := { slotA := a.1, slotB := p2.1, slotOut := o.freeQ.headD 0, slotParam := p3.1, dim0 := m.d0, dim1 := m.d1, dim2 := m.d2, at_ := now, worked := false, sent := 0 }
    let d1 := (d.traceDispatch now l i b w).setBasin l { b4 with running := tset b4.running i r }
    let d2 := { d1 with fab := { d1.fab with ctxs := tmod d1.fab.ctxs b.ctx fun c => { c with lastChange := now } } }
    (d2.wn (r1 .pbuWeirDispatched (l / 64)) ((d2.rn (r1 .pbuWeirDispatched (l / 64)) + 1) % 2 ^ 64)).syncWeirs

/-- STAGE_DISPATCH (R128, R129). -/
def execStageDispatch (t l : Nat) (s : State) : Host.Outcome State Fault Refusal :=
  s.run t fun now d => match d.basin? l with
    | some b => match d.nextStage now l b with
      | some i => d.startStage now l i b
      | none => d
    | none => d

/-- A running stage of a basin that has its operation still before it, of a given kind. -/
def Dev.atWork (d : Dev) (l i kind : Nat) : Option (Basin × Running × Nat) :=
  match d.basin? l with
  | some b => match tget b.running i with
    | some r => if stKind (b.stages.getD i 0) = kind ∧ r.worked = false then some (b, r, b.stages.getD i 0) else none
    | none => none
  | none => none

/-- Change a running stage. -/
def Dev.modRunning (d : Dev) (l i : Nat) (f : Running → Running) : Dev :=
  match d.basin? l with
  | some b => d.setBasin l { b with running := tmod b.running i f }
  | none => d

/-- The dimensions of a running stage. -/
def Running.dims (r : Running) : Dims := ⟨r.dim0, r.dim1, r.dim2⟩

/-- The tiles of a running stage: operand A, operand B, the result. -/
def Dev.tileA (d : Dev) (l : Nat) (b : Basin) (r : Running) (w : Nat) (x : Option WinRec) (row0 : WinAt) : Tile :=
  d.tileAt l (b.entry (stInA w)) r.slotA (stFmtA w) (shapeA w r.dims x row0) false
def Dev.tileB (d : Dev) (l : Nat) (b : Basin) (r : Running) (w : Nat) : Option Tile :=
  r.slotB.map fun s => d.tileAt l (b.entry (stInB w)) s (stFmtB w) (shapeB w r.dims) (stSparse w)
def Dev.tileOut (d : Dev) (l : Nat) (b : Basin) (r : Running) (w : Nat) (x : Option WinRec) : Tile :=
  d.tileAt l (b.entry (stOut w)) r.slotOut (stFmtOut w) (shapeOut w r.dims x) false

/-- A tile of nothing, for an operand that is not named. -/
def Tile.none : Tile := ⟨0, 0, 0, 0, 0, false⟩

/-- A parameter of a stage (log entry 25): the FP32 word at an offset of its parameter slot, a free value where it names none. -/
def Dev.paramWord (d : Dev) (l : Nat) (b : Basin) (r : Running) (w off : Nat) : Nat :=
  match r.slotParam with
  | some s => d.mem.le (d.slotAddr l (b.entry (stParam w)) s + off) 4
  | none => Config.freeNat (d.free + off) % 2 ^ 32

/-- The same, 0 where the stage names none. -/
def Dev.paramOr0 (d : Dev) (l : Nat) (b : Basin) (r : Running) (w off : Nat) : Nat :=
  if r.slotParam.isSome then d.paramWord l b r w off else 0

/-- Parameters drawn from free values take their numbers. -/
def Dev.passParams (d : Dev) (r : Running) : Dev := if r.slotParam.isSome then d else { d with free := d.free + 64 }

/-- The padded elements known of a slot (R248). -/
def Basin.mask (b : Basin) (e slot : Nat) : List Nat := tgetD b.masks (e * 16 + slot) []

/-- Note the padded elements of a slot. -/
def Dev.setMask (d : Dev) (l e slot : Nat) (mask : List Nat) : Dev :=
  match d.basin? l with
  | some b => d.setBasin l { b with masks := if mask = [] then tdel b.masks (e * 16 + slot) else tset b.masks (e * 16 + slot) mask }
  | none => d

/-- A stage has done its operation. -/
def Dev.worked (d : Dev) (l i : Nat) : Dev := d.modRunning l i fun r => { r with worked := true }

/-- Values go to a stage's result slot, rounded by its word (R164, R170). -/
def Dev.putResult (d : Dev) (l i w : Nat) (out : Tile) (run : Nat) (given : Option (List Nat)) (vs : List FV) : Dev :=
  match d.basin? l with
  | some b =>
    let p := d.putVals w out (· / max 1 run) given b.lfsr vs
    (match p.2.basin? l with
     | some b' => p.2.setBasin l { b' with lfsr := p.1 }
     | none => p.2).worked l i
  | none => d

/-- LOAD (R117, R244, R245, R248): linear, window from the operator's output row and column of row0, gather or transpose. -/
def execLoad (t l st : Nat) (row0 : WinAt) (s : State) : Host.Outcome State Fault Refusal :=
  s.run t fun _ d => match d.atWork l st 0 with
    | some (b, r, w) =>
      let x := d.winOf l st
      let mask := match x with
        | some y => if isWindow w && y.exclude then
            (List.range (shapeOut w r.dims x).1).filter fun o => y.padded w r.dims row0 o
          else []
        | none => []
      ((d.loadTile w r.dims x row0 (d.tileA l b r w x row0) ((d.tileB l b r w).getD Tile.none) (d.tileOut l b r w x)).setMask l
        (stOut w) r.slotOut mask).worked l st
    | none => d

/-- STORE (R117, R247): linear or scatter. -/
def execStore (t l st : Nat) (s : State) : Host.Outcome State Fault Refusal :=
  s.run t fun _ d => match d.atWork l st 6 with
    | some (b, r, w) =>
      (d.storeTile w r.dims (d.tileA l b r w none ⟨0, 0⟩) ((d.tileB l b r w).getD Tile.none) (d.tileOut l b r w none)).worked l st
    | none => d

/-- The score sheet of a block that is not its sequence's last leaves for the spill area as pass 1 finishes it (R217, log entry 22): its bytes are
near-store bytes of the class and one descriptor, and the slot is handed back. -/
def Dev.spillSheet (d : Dev) (now l st : Nat) (op : AttnOp) (w : Nat) (r : Running) : Dev :=
  match op, d.basin? l with
  | .scores slot _ _ fk _ _, some b =>
    (match d.spillAt b.ctx l, tget d.kv.seqs slot with
     | some (a, at_), some s =>
       let len := s.len + s.grow
       let width := max 1 (blockWidth len a.heads a.bf16)
       if (len - 1) / width ≤ fk / width then d
       else
         let n := tileBytes (stFmtOut w) (r.dim0 * r.dim1) r.dim0 false
         let dest := at_ + a.rowBytes fk
         let d1 := { d with mem := d.mem.copy dest n d.mem (d.slotAddr l (b.entry (stOut w)) r.slotOut) }
         let d2 := d1.setBasin l { b with sheets := b.sheets ++ [(stOut w, dest, n)] }
         ((d2.modRunning l st fun r => { r with post := false }).charge now (d.payer b.ctx) 4 n).charge now (d.payer b.ctx) 7 1
     | _, _ => d)
  | _, _ => d

/-- MATRIX (R153 to R158, R213, R215): products into the accumulators, or a drain. -/
def execMatrix (t l st : Nat) (op : AttnOp) (s : State) : Host.Outcome State Fault Refusal :=
  s.run t fun now d => match d.atWork l st 1 with
    | some (b, r, w0) =>
      let w := d.attnWord l w0 op
      if stSubop w = 2 then
        (((d.matrixDrain l w r.dims (d.paramWord l b r w 12) op (d.tileOut l b r w none)).passParams r).spillSheet now l st op w r).worked l st
      else (d.matrixAcc l w r.dims (d.tileA l b r w none ⟨0, 0⟩) ((d.tileB l b r w).getD Tile.none)).worked l st
    | none => d

/-- VECTOR (R160 to R162). -/
def execVector (t l st : Nat) (s : State) : Host.Outcome State Fault Refusal :=
  s.run t fun _ d => match d.atWork l st 2 with
    | some (b, r, w) =>
      let a := d.tileA l b r w none ⟨0, 0⟩
      let p := d.paramWord l b r w 12
      let q := d.paramWord l b r w 16
      let d1 := d.passParams r
      let vs := d1.vectorVals w r.dims a (d.tileB l b r w) p q
      (({ d1 with free := d1.free + a.n }).setMask l (stOut w) r.slotOut (b.mask (stInA w) r.slotA)).putResult l st w
        (d.tileOut l b r w none) (r.dim1 * r.dim2) none vs
    | none => d

/-- REDUCE (R160, R162, R248, R253); last: the tile is its chain's last, at which a running sum is scaled and written.  A chain pools 64 channels; what
further channels of DIM2 get the spec does not say, and free values stand there (DESIGN CHOICE, safe, log entry 25). -/
def execReduce (t l st : Nat) (last : Bool) (s : State) : Host.Outcome State Fault Refusal :=
  s.run t fun _ d => match d.atWork l st 3 with
    | some (b, r, w) =>
      let a := d.tileA l b r w none ⟨0, 0⟩
      let out := d.tileOut l b r w none
      if stSubop w = 4 then
        let q := d.runningSums r.dims b.sums a
        let d1 := ({ d with free := q.2 }).setBasin l { b with sums := if last then [] else q.1 }
        if last then
          let k := dec32 (d1.paramWord l b r w 12)
          let d2 := d1.passParams r
          let more := (List.range (r.dim2 - 64)).map fun i => dec32 (Config.freeNat (d2.free + i) % 2 ^ 32)
          ({ d2 with free := d2.free + more.length }).putResult l st w out r.dim2 none ((q.1.map fun v => mul32 (dec32 v) k) ++ more)
        else (d1.modRunning l st fun r => { r with post := false }).worked l st
      else
        let q := d.reduceVals w r.dims (b.mask (stInA w) r.slotA) a
        ({ d with free := q.2 }).putResult l st w out r.dim2 none q.1
    | none => d

/-- P stands over the sheet that pass 2 has read (R212, R217, log entry 22): the result slot's tile is written there too. -/
def Dev.overSheet (d : Dev) (l : Nat) (op : AttnOp) (a out : Tile) : Dev :=
  match op, (d.basin? l).bind fun b => d.attnAt b.ctx l with
  | .probs _ _ _ _ _, some _ => { d with mem := d.mem.copy a.addr (2 * out.n) d.mem out.addr }
  | _, _ => d

/-- NORMALISE (R163, R214): row softmax, layer or RMS normalisation; op: the attention block it works on. -/
def execNormalise (t l st : Nat) (op : AttnOp) (s : State) : Host.Outcome State Fault Refusal :=
  s.run t fun _ d => match d.atWork l st 4 with
    | some (b, r, w0) =>
      let w := d.attnWord l w0 op
      let a := d.tileA l b r w none ⟨0, 0⟩
      let out := d.tileOut l b r w none
      let q := d.normVals w r.dims (d.paramOr0 l b r w 12) op b.stats a
      ((({ d with free := q.2.2 }).setBasin l { b with stats := q.2.1 }).putResult l st w out (r.dim1 * r.dim2) none q.1).overSheet l op a out
    | none => d

/-- CONVERT (R164 to R171): scales from IN_B where it is named for INT8 or INT4. -/
def execConvert (t l st : Nat) (s : State) : Host.Outcome State Fault Refusal :=
  s.run t fun _ d => match d.atWork l st 5 with
    | some (b, r, w) =>
      let a := d.tileA l b r w none ⟨0, 0⟩
      let out := d.tileOut l b r w none
      let given := match r.slotB with
        | some sb => if stFmtOut w = 0x0B ∨ stFmtOut w = 0x0C then
            some ((List.range (unitsOf out.fmt out.n out.ch)).map fun u => d.mem.le (d.slotAddr l (b.entry (stInB w)) sb + u * unitBytes out.fmt) (unitBytes out.fmt))
          else none
        | none => none
      (d.setMask l (stOut w) r.slotOut (b.mask (stInA w) r.slotA)).putResult l st w out (r.dim1 * r.dim2) given (d.vals a (r.dim1 * r.dim2))
    | none => d

/-- The basins a FORWARD delivers to on this module (R134): its destination, or every basin of the destination's row that is
bound to the same context. -/
def Dev.targets (d : Dev) (ctx w : Nat) : List Nat :=
  if stMcast w then ((List.range 16).map fun c => stRoute w / 16 * 16 + c).filter fun l => match d.basin? l with
    | some b => b.ctx == ctx
    | none => false
  else [stRoute w]

/-- The destination that a FORWARD to another module names: a basin, or with MCAST its row there, as 256 + ROUTE (R134). -/
def remoteDst (w : Nat) : Nat := if stMcast w then 256 + stRoute w else stRoute w

/-- Bytes of the slot a FORWARD sends, and its flits (R132). -/
def Dev.slotBytes (_d : Dev) (w : Nat) (r : Running) : Nat := tileBytes (stFmtA w) (r.dim0 * r.dim1 * r.dim2) r.dim0 false
def Dev.slotFlits (d : Dev) (w : Nat) (r : Running) : Nat := max 1 (ceilDiv (d.slotBytes w r) 256)

/-- One flit of a FORWARD is injected, charged one injection slot (R83, R134); the last one carries the ready token and takes a
credit (R124).  Nothing is injected while the class is gated on mesh slots (R128). -/
def Dev.injectFlit (d : Dev) (now l i : Nat) : Dev :=
  match d.atWork l i 7 with
  | none => d
  | some (b, r, w) =>
    if d.gated (d.payer b.ctx) 6 then d
    else
      let out := b.entry (stOut w)
      let last := decide (r.sent + 1 = d.slotFlits w r)
      let data := d.mem.read (d.slotAddr l (b.entry (stInA w)) r.slotA + 256 * r.sent) (min 256 (d.slotBytes w r - 256 * r.sent))
      let k := d.draw (0x1000 + b.ctx) now
      let mk (dst : Nat) : Flit := ⟨l, dst, out.peerEntry, stOut w, r.sent, data, last, 1, k.1⟩
      let d1 : Dev := if stRemote w then { k.2 with fab := { k.2.fab with remote := k.2.fab.remote ++ [(stModule w, mk (remoteDst w))] } }
        else { k.2 with fab := { k.2.fab with flits := k.2.fab.flits ++ (d.targets b.ctx w).map mk } }
      let d2 := d1.charge now (d1.payer b.ctx) 6 1
      let d3 := d2.modRunning l i fun r => { r with sent := r.sent + 1, worked := last }
      if last then d3.modEntry now l (stOut w) fun e => { e with credits := e.credits - 1 } else d3

/-- Several flits, one after the other. -/
def Dev.injectFlits (d : Dev) (now l i : Nat) : Nat → Dev
  | 0 => d
  | n + 1 => (d.injectFlit now l i).injectFlits now l i n

/-- A flit is written into the slot being filled of its entry; with the last one the slot becomes ready (R124, R132). -/
def Dev.landFlit (d : Dev) (now : Nat) (f : Flit) : Dev :=
  match d.basin? f.dst with
  | none => d
  | some b =>
    let e := b.entry f.entry
    match e.freeQ with
    | [] => d
    | slot :: rest =>
      let d1 := { d with mem := d.mem.write (d.slotAddr f.dst e slot + 256 * f.index) (f.data.take (e.size - 256 * f.index)) }
      if f.last then d1.modEntry now f.dst f.entry fun e => ({ e with freeQ := rest } : SbEntry).post slot now else d1

/-- The consumers whose credits a producer's outbound entry waits for (R134). -/
def Dev.consumers (d : Dev) (l e : Nat) : List Nat :=
  match d.basin? l with
  | some b => match b.stages.find? fun w => stKind w == 7 && stOut w == e && stMcast w && !stRemote w with
    | some w => d.targets b.ctx w
    | none => [(b.entry e).peer]
  | none => []

/-- The credit that a producer's outbound entry waits for from another module, which joins those of a row's copies (R134). -/
def Dev.remoteBack (d : Dev) (l e : Nat) : Option CreditBack :=
  match d.basin? l with
  | some b => if (b.entry e).remote then d.fab.credits.find? fun k => k.basin == l && k.entry == e && k.count / 256 == (b.entry e).peerModule + 1 else none
  | none => none

/-- CREDIT_RETURN (R124, R134): the producer's outbound entry gets a credit once every copy's consumer has freed its slot. -/
def Dev.creditReturn (d : Dev) (now l e : Nat) : Dev :=
  let cs := d.consumers l e
  match d.remoteBack l e with
  | some k => ({ d with fab := { d.fab with credits := d.fab.credits.erase k } }).modEntry now l e fun x => { x with credits := x.credits + 1 }
  | none =>
  if cs ≠ [] ∧ cs.all fun c => d.fab.credits.any fun k => k == ⟨l, e, c⟩ then
    let left := cs.foldl (fun (ks : List CreditBack) c => ks.erase ⟨l, e, c⟩) d.fab.credits
    ({ d with fab := { d.fab with credits := left } }).modEntry now l e fun x => { x with credits := x.credits + 1 }
  else d

/-- The next spilled sheet of an entry comes back for pass 2, where the entry has a free slot (R217): near-store bytes and one descriptor of the
class. -/
def Dev.sheetBack (d : Dev) (now l e : Nat) : Dev :=
  match d.basin? l with
  | none => d
  | some b =>
    match b.sheets.find? fun s => s.1 == e, (b.entry e).freeQ with
    | some s, slot :: rest =>
      let x := b.entry e
      let d1 := { d with mem := d.mem.copy (d.slotAddr l x slot) s.2.2 d.mem s.2.1 }
      let d2 := d1.setBasin l ({ b with sheets := b.sheets.erase s }.setEntry e (({ x with freeQ := rest } : SbEntry).post slot now))
      (d2.charge now (d.payer b.ctx) 4 s.2.2).charge now (d.payer b.ctx) 7 1
    | _, _ => d

/-- A consumer frees a slot (R124): a mesh-inbound one sends a credit to its producer (basin numbers from 256 × (m + 1) stand for
module m), a sluice-inbound one lets its lists go on. -/
def Dev.freeSlot (d : Dev) (now l e : Nat) (slot : Option Nat) : Dev :=
  match slot, d.basin? l with
  | some s, some b =>
    let x := b.entry e
    let d1 := ((d.modEntry now l e fun y => y.giveBack s).setMask l e s []).sheetBack now l e
    if x.kind = 1 then
      (let producer := if x.remote then 256 * (x.peerModule + 1) + x.peer else x.peer
       { d1 with fab := { d1.fab with credits := d1.fab.credits ++ [⟨producer, x.peerEntry, l⟩] } })
    else if x.kind = 3 then d1.listAdvance now l e else d1
  | _, _ => d

/-- A stage's result slot becomes ready (R124), or goes back where the tile wrote none.  DESIGN CHOICE, unsafe (log entry 63): a MATRIX stage that
accumulates writes no slot and hands its OUT slot on as ready, by which the drain may follow it. -/
def Dev.postResult (d : Dev) (now l w : Nat) (r : Running) : Dev :=
  match d.basin? l with
  | none => d
  | some b =>
    let x := b.entry (stOut w)
    if x.kind = 2 then d
    else if r.post = false then d.modEntry now l (stOut w) fun y => y.giveBack r.slotOut
    else
      let d1 := d.modEntry now l (stOut w) fun y => y.post r.slotOut now
      if x.kind = 4 then d1.listAdvance now l (stOut w) else d1

/-- The lists of a cascade that start with an invocation: those no spillway names (R198, R201). -/
def Cascade.openLists (c : Cascade) : List Nat :=
  let named := (c.spills.map SpillDecl.parse).flatMap fun s => [s.mainList, s.altList]
  (List.range c.lists.length).filter fun i => !(named.contains i)

/-- An invocation of a cascade begins: its lists start (R193, log entry 28). -/
def Dev.beginInvocation (d : Dev) (now h : Nat) : Dev :=
  match d.cascade? h with
  | some c => c.openLists.foldl (fun d i => d.listBegin now h i) d
  | none => d

/-- Whether a cascade has come to rest (log entry 28): no stage runs or can run, no flit is on its way, its lists are at their ends and
their requests have ended. -/
def Dev.quiescent (d : Dev) (now h : Nat) (c : Cascade) : Bool :=
  let ls := c.basins.map ImgBasin.lbasin
  (ls.all fun l => match d.basin? l with
    | some b => b.ctx != c.ctx || (b.running.isEmpty && (d.nextStage now l b).isNone)
    | none => true) &&
  d.fab.flits.all (fun f => !(ls.contains f.dst)) &&
  d.slu.lists.all (fun e => e.1 / 65536 != h || match d.listOf h (e.1 % 65536) with
    | some x => decide (x.2.2.length ≤ e.2)
    | none => true) &&
  d.slu.reqs.all fun e => match e.2.purpose with
    | .list h' _ => h' != h || e.2.status.isSome
    | _ => true

/-- The status a run completes with (R202). -/
def CascRun.status (r : CascRun) : Status := if r.spilled = 0 ∧ r.stalled = 0 then .ok else .degraded

/-- An invocation of a run ends (R362): the next one begins, or the run completes, with EXPIRED after its deadline. -/
def Dev.endInvocation (d : Dev) (now h : Nat) : Dev :=
  match (d.cascade? h).bind Cascade.run with
  | none => d
  | some r =>
    let d1 := d.modCascade h fun c => { c with run := some { r with left := r.left - 1, done := r.done + 1 } }
    if 1 < r.left then d1.beginInvocation now h
    else
      let late := match d.waitOf (.command r.mbx r.seq) with
        | some e => decide (e.2.deadline < now)
        | none => false
      if late then (d.endWait (.command r.mbx r.seq) false).endRun now h true
      else (d1.endWait (.command r.mbx r.seq) true).finishRun now h r.status

/-- After a tile of a last stage the invocations that have come to rest end. -/
def Dev.checkRuns (d : Dev) (now ctx : Nat) : Dev :=
  d.fab.cascades.foldl (fun d e =>
    if e.2.ctx = ctx ∧ e.2.run.isSome then (if d.quiescent now e.1 e.2 then d.endInvocation now e.1 else d) else d) d

/-- TILE_END (R83, R118, R124, R130): the tile's cycles are charged but for what an overlapping stage has charged; the stage's slots move
on. -/
def Dev.tileEnd (d : Dev) (now l i cycles stalls : Nat) : Dev :=
  match d.basin? l with
  | none => d
  | some b =>
    match tget b.running i with
    | none => d
    | some r =>
      if r.worked = false then d
      else
        let w := b.stages.getD i 0
        let d1 := d.setBasin l { b with running := tdel b.running i, chargedTo := max b.chargedTo now }
        let d2 := d1.chargeBasin now b.ctx (l / 64) (d.tileCycles now cycles b r)
        let sr := r1 .pbuWeirStalls (l / 64)
        let d3 := d2.wn sr ((d2.rn sr + min (min 2048 cycles) stalls) % 2 ^ 64)
        let d4 := (d3.freeSlot now l (stInA w) (some r.slotA)).freeSlot now l (stInB w) (if stInB w = stInA w then none else r.slotB)
        let own := if stParam w = stInA w ∨ stParam w = stInB w then none else r.slotParam
        let d5 := (d4.freeSlot now l (stParam w) own).postResult now l w r
        let d6 := if stLast w then d5.checkRuns now b.ctx else d5
        let idle := match d6.basin? l with
          | some y => y.running.isEmpty
          | none => true
        if idle then (d6.syncWeirs).weirChoose now l else d6.syncWeirs

/-- Parts still bound for entries of a context's basins go back to their queues while it is out (R131, R192). -/
def Dev.requeueParts (d : Dev) (c : Nat) : Dev :=
  ({ d with slu := { d.slu with reqs := tmap d.slu.reqs fun _ (x : SluReq) =>
      if x.ctx = c then { x with parts := x.parts.map fun (p : Part) =>
        if (p.state == PartState.running || p.state == PartState.parked) && (p.desc.entryDst || p.desc.entrySrc) then { p with state := .queued, prog := 0 } else p } else x } }).syncEngines

/-- CONTEXT_SWITCH_DONE (R97 to R99): the outgoing context's basins have drained and the time of save and restore has passed; the
switch is charged and the incoming context runs. -/
def Dev.switchDone (d : Dev) (now region : Nat) : Dev :=
  match d.fab.switches.find? fun x => x.region == region && decide (x.doneAt ≤ now) && (x.out == x.inn || d.drained x.out) with
  | none => d
  | some x =>
    let d1 := { d with fab := { d.fab with switches := d.fab.switches.erase x } }
    let d2 := d1.chargeSwitch now x
    let d3 := if x.out = x.inn then d2 else (d2.requeueParts x.out).saveCtx now x.out
    ((((d3.restoreCtx now x.inn).syncWeirs).carrySaved now x.out).carryResume now)

/-- CONTEXT_SWITCH_DONE (R98). -/
def execContextSwitchDone (t region : Nat) (s : State) : Host.Outcome State Fault Refusal := s.run t fun now d => d.switchDone now region

end Sys2Proof.Machine
end

