-- ==== Sys2Proof/Machine/Unload.lean ====
section
/-! DEFINITION. What ends when work has drained: the unloading of a cascade, the closing of a context and of a session, commits of several
modules; and the fabric's events after which it may (R107, R131, R185, R354, R358, R368, R405). -/

namespace Sys2Proof.Machine

/-- No mailbox: what the device itself or another module asks for, with no command to complete. -/
def noCmd : Nat × Nat := (256, 0)

/-- The logical basins of a cascade. -/
def Cascade.ls (c : Cascade) : List Nat := c.basins.map ImgBasin.lbasin

/-- T0 copies that are left in some basins of a context when they go to the weir: those that a pin of the context kept, or whose write-back failed;
its pins go with them (R185, log entry 25). -/
def Dev.dropT0In (d : Dev) (c : Nat) (ls : List Nat) : Dev :=
  d.slu.objs.foldl (fun d e => match e.2.copy 0 with
    | some l => if l.ctx = c ∧ ((List.range l.used).any fun i => ls.contains (l.first + i)) then
        d.modObj e.1 fun o => { o with needs := o.needs.filter (· != (0, c)), pins := o.pins.filter (· != (0, c)), copies := tdel o.copies 0 }
      else d
    | none => d) d

/-- The saved copy of a context without some basins: the rest of its save area closes up. -/
def Dev.unsave (d : Dev) (c : Nat) (ls : List Nat) : Dev :=
  match tget d.fab.saved c, d.ctx? c with
  | some all, some x =>
    let keep := (List.range all.length).filter fun i => match all[i]? with
      | some e => !(ls.contains e.1)
      | none => false
    let m := (List.range keep.length).foldl (fun m j =>
      Memory.copy m (x.saveArea + j * 0x101000) 0x101000 m (x.saveArea + keep.getD j 0 * 0x101000)) d.mem
    let left := all.filter fun e => !(ls.contains e.1)
    { d with mem := m, fab := { d.fab with saved := if left = [] then tdel d.fab.saved c else tset d.fab.saved c left } }
  | _, _ => d

/-- Basins leave a context: scrubbed to zero and returned to the weir (R131); with the last of them its save area, PINNED and STATE go. -/
def Dev.returnBasins (d : Dev) (now c : Nat) (ls : List Nat) : Dev :=
  let mine := (d.fab.basins.filter fun e => e.2.ctx == c && ls.contains e.1).map (·.1)
  let d0 := (d.dropT0In c ls).unsave c ls
  let d1 := { d0 with
    mem := mine.foldl (fun m l => Memory.clear m (d0.storeAddr l) 0x100000) d0.mem
    fab := { d0.fab with
      basins := d0.fab.basins.filter fun e => !(e.2.ctx == c && ls.contains e.1)
      flits := d0.fab.flits.filter fun f => !(mine.contains f.dst) && !(mine.contains f.src)
      credits := d0.fab.credits.filter fun k => !(mine.contains k.basin)
      ctxs := tmod d0.fab.ctxs c fun x => { x with basins := x.basins.filter fun l => !(ls.contains l) } } }
  let d2 := match d1.ctx? c with
    | some x =>
      if x.basins = [] then
        (let e := if x.saveArea = 0 then d1 else d1.dropArea 1 x.saveArea
         let e1 := { e with fab := { e.fab with ctxs := tmod e.fab.ctxs c fun x => { x with saveArea := 0, standby := 0 } } }
         (e1.sf (r1 .pbuCtxCfg c) F.pbuCtxCfg.STATE 0).sf (r1 .pbuCtxCfg c) F.pbuCtxCfg.PINNED 0)
      else d1
    | none => d1
  mine.foldl (fun d l => d.weirChoose now l) d2.powerIdlePairs.syncWeirs

/-- A drained cascade goes: basins, lists, cells, areas (R107, R131). -/
def Dev.unloadCascade (d : Dev) (now h : Nat) : Dev :=
  match d.cascade? h with
  | none => d
  | some c =>
    let d1 := if c.bound || c.staged then (d.stopLists h).returnBasins now c.ctx c.ls else d.stopLists h
    let d2 := c.cells.foldl (fun d n => d.freeCell now n) d1
    let d3 := c.taken.foldl (fun d a => d.dropArea a.1 a.2) d2
    { d3 with fab := { d3.fab with cascades := tdel d3.fab.cascades h } }

/-- A commit of several modules ends once every participant, and this module, have applied its outcome (R207, R405): the command, or the request,
completes. -/
def Dev.tpcFinish (d : Dev) (now : Nat) : Dev :=
  match d.cnl.coords.find? fun x => x.outcome.isSome && x.parts.all (fun m => x.done.contains m) && x.done.contains d.own with
  | none => d
  | some x =>
    let d1 := { d with cnl := { d.cnl with coords := d.cnl.coords.erase x } }
    match x.cmd, x.outcome with
    | some ms, some true => d1.finishAt now ms .ok 0 []
    | some ms, _ => d1.finishAt now ms .partialFail x.fails []
    | none, _ => if x.kind = 3 then (d1.slu.reqs.find? fun e => e.2.key == x.id).elim d1 fun e => d1.requestComplete now e.1 else d1

/-- This module has applied the outcome of a commit it coordinates. -/
def Dev.tpcOwnDone (d : Dev) (now : Nat) (k : Key) : Dev :=
  ({ d with cnl := { d.cnl with coords := d.cnl.coords.map fun (x : TpcCoord) =>
      if x.id = k ∧ !(x.done.contains d.own) then { x with done := d.own :: x.done } else x } }).tpcFinish now

/-- The body of a two-phase-commit flit: the transaction id, kind, subject and two arguments. -/
def tpcBody (k : Key) (kind subject a b : Nat) : List Nat := [k.dt, k.src, k.cnt, kind, subject, a, b]

/-- A participant answers DONE and forgets the transaction (R405). -/
def Dev.tpcSendDone (d : Dev) (now : Nat) (k : Key) : Dev :=
  match d.cnl.parts.find? fun p => p.id == k with
  | some p => ({ d with cnl := { d.cnl with parts := d.cnl.parts.erase p } }).cnlSend now ftDone p.coord 0 (tpcBody k p.kind p.subject 0 0) []
  | none => d

/-- The unloading of a drained cascade completes (R131, R405). -/
def Dev.settleUnload (d : Dev) (now h : Nat) (c : Cascade) (ms : Nat × Nat) : Dev :=
  let d1 := d.unloadCascade now h
  match d1.cnl.coords.find? fun x => x.kind == 2 && x.subject == h with
  | some x => d1.tpcOwnDone now x.id
  | none =>
    match d1.cnl.parts.find? fun p => p.kind == 2 && p.decided && p.subject == c.split.id with
    | some p => (d1.tpcSendDone now p.id).finishAt now ms .ok 0 []
    | none => d1.finishAt now ms .ok 0 []

/-- What a closed context leaves goes: cells it created, needs, pins and objects, claims (R107, R179, R185, R368). -/
def Dev.closeCtx (d : Dev) (now c : Nat) (q : Nat) : Dev :=
  match d.ctx? c with
  | none => d
  | some x =>
    let k := d.draw (0x1000 + c) now
    let cells := (k.2.cells.filter fun e => e.2.creator == c && e.2.session.isSome).map (·.1)
    let d1 := cells.foldl (fun d n => d.freeCell now n) (k.2.dropStageWaits c)
    let d2 := (d1.leaveObjects now c k.1).releaseClaims now c [] k.1
    let d3 := { d2 with fab := { d2.fab with ctxs := tdel d2.fab.ctxs c } }
    let d4 := d3.wr (r1 .pbuCtxCfg c) (r1 .pbuCtxCfg c).reset
    ({ d4 with cells := tmap d4.cells fun _ (y : Cell) => { y with users := y.users.filter (· != c) } }).finishAt now (x.mbx, q) .ok 0 []

/-- Contexts of a mailbox's session that are not torn down. -/
def Dev.openCtxs (d : Dev) (m : Nat) : List Nat := (d.fab.ctxs.filter fun e => e.2.mbx == m && !e.2.torn).map (·.1)

/-- A session ends: what its torn-down contexts left BROKEN is freed (R107, R358). -/
def Dev.endSession (d : Dev) (now m : Nat) : Dev :=
  let torn := (d.fab.ctxs.filter fun e => e.2.mbx == m).map (·.1)
  let cells := (d.cells.filter fun e => torn.contains e.2.owner || torn.contains e.2.creator).map (·.1)
  let d1 := cells.foldl (fun d n => d.freeCell now n) d
  let d2 := { d1 with
    fab := { d1.fab with ctxs := d1.fab.ctxs.filter fun e => e.2.mbx != m }
    stew := { d1.stew with sessions := tdel d1.stew.sessions m, notices := tdel d1.stew.notices m, lost := tdel d1.stew.lost m } }
  d2.sf (r1 .mbxStat m) F.mbxStat.SESSION 0

/-- A session opens (R357): the agreed version, the highest, the firmware release, the module index, contexts adopted. -/
def Dev.openSession (d : Dev) (now : Nat) (r : Req) (minor adopted : Nat) : Dev :=
  let d1 := ({ d with stew := { d.stew with sessions := tset d.stew.sessions r.mbx minor } }).sf (r1 .mbxStat r.mbx) F.mbxStat.SESSION 1
  d1.finish now r .ok 0 (leBytes 4 (minor * 2 ^ 20 + 2 ^ 26) ++ leBytes 4 d1.highest ++ leBytes 4 d1.stew.fwVersion ++ leBytes 2 d1.own ++ leBytes 2 adopted)

/-- The minor version a HELLO agrees on: the first offer of generation 0 and major 1, the lower minor (R357). -/
def Dev.agreed (d : Dev) (r : Req) : Option Nat :=
  ((List.range (r.fld 0 0 4)).find? fun i => r.fld (8 + 4 * i) 26 4 == 1 && r.fld (8 + 4 * i) 30 2 == 0).map
    fun i => min (r.fld (8 + 4 * i) 20 6) d.stew.minor

/-- Whether a waiting BYE or HELLO with RESET can end its session: no context is open, no earlier command in flight (R358). -/
def Dev.sessionOver (d : Dev) (r : Req) : Bool :=
  r.decided && (r.code == 0x0001 || r.code == 0x0002) && d.openCtxs r.mbx == [] &&
    d.stew.inflight.all fun x => x.mbx != r.mbx || decide (r.seq ≤ x.seq)

/-- A BYE without CLOSE_ALL whose mailbox has no earlier command in flight while contexts are open ends with BUSY (R358). -/
def Dev.byeBusy (d : Dev) (r : Req) : Bool :=
  r.decided && r.code == 0x0002 && !r.flag 0 && d.openCtxs r.mbx != [] && d.stew.inflight.all fun x => x.mbx != r.mbx || decide (r.seq ≤ x.seq)

/-- Sessions that waited for their contexts end: BYE completes, HELLO with RESET opens the new one (R358). -/
def Dev.settleSessions (d : Dev) (now : Nat) : Nat → Dev
  | 0 => d
  | n + 1 =>
    match d.stew.inflight.find? d.sessionOver with
    | none => match d.stew.inflight.find? d.byeBusy with
      | some r => (d.finish now r .busy 0 []).settleSessions now n
      | none => d
    | some r =>
      let d1 := if r.code = 0x0002 then (d.finish now r .ok 0 []).endSession now r.mbx
        else (d.endSession now r.mbx).openSession now r (((d.endSession now r.mbx).agreed r).getD 0) 0
      d1.settleSessions now n

/-- One cascade, or one context, that waited for its end and can end. -/
def Dev.settleOne (d : Dev) (now : Nat) : Dev :=
  match d.fab.cascades.find? fun e => e.2.unloading.isSome && d.drained e.2.ctx && !(d.t0Leaving e.2.ctx) with
  | some e => d.settleUnload now e.1 e.2 (e.2.unloading.getD noCmd)
  | none =>
    match d.fab.ctxs.find? fun e => e.2.closing.isSome && !e.2.torn && !(d.fab.cascades.any fun c => c.2.ctx == e.1) &&
        !(d.kv.seqs.any fun s => s.2.ctx == e.1) with
    | some e => d.closeCtx now e.1 (e.2.closing.getD 0)
    | none => d

/-- Everything that waited for its end and can end, ends (R131, R354, R358). -/
def Dev.settleEnds (d : Dev) (now : Nat) : Dev :=
  let n := d.fab.cascades.length + d.fab.ctxs.length
  let d := d.settleRuns now
  if d.fab.cascades.any (fun e => e.2.unloading.isSome) || d.fab.ctxs.any (fun e => e.2.closing.isSome) ||
      d.stew.inflight.any (fun r => r.decided && (r.code == 0x0001 || r.code == 0x0002)) then
    ((List.range n).foldl (fun (d : Dev) _ => d.settleOne now) d).settleSessions now (d.stew.inflight.length + 1)
  else d

/-- TILE_END (R83, R118, R124, R130, R234): stage st of logical basin l ends a tile. -/
def execTileEnd (t l st cycles stalls : Nat) (s : State) : Host.Outcome State Fault Refusal :=
  s.run t fun now d => (((d.tileEnd now l st cycles stalls).cnlDrain now).endSteps now).settleEnds now

/-- FORWARD (R124, R132 to R134): up to n flits of the running stage's slot are injected; those for other modules go to the Canal link
(R139). -/
def execForward (t l st n : Nat) (s : State) : Host.Outcome State Fault Refusal :=
  s.run t fun now d => (d.injectFlits now l st (min n 65536)).cnlDrain now

/-- FLIT_DELIVER (R132): the oldest flit on its way from one basin to another is delivered, if it is bound for the entry named. -/
def execFlitDeliver (t src dst entry : Nat) (s : State) : Host.Outcome State Fault Refusal :=
  s.run t fun now d => match d.fab.flits.find? fun f => f.src == src && f.dst == dst with
    | some f => if f.entry = entry then (({ d with fab := { d.fab with flits := d.fab.flits.erase f } }).landFlit now f).settleEnds now else d
    | none => d

/-- CREDIT_RETURN (R124). -/
def execCreditReturn (t l e : Nat) (s : State) : Host.Outcome State Fault Refusal := s.run t fun now d => (d.creditReturn now l e).settleEnds now

/-- STEP_BOUNDARY (R228 to R232, R364): settings of KV_CTRL that wait are written at it. -/
def execStepBoundary (t : Nat) (s : State) : Host.Outcome State Fault Refusal :=
  s.run t fun now d0 =>
    let d := if d0.on 154 then d0.settle now 0x0040 0 else d0
    if d.on 154 ∧ d.fb (r0 .kvCtrl) F.kvCtrl.EN then (d.stepBoundary now).settleEnds now else d

end Sys2Proof.Machine
end

