-- ==== Sys2Proof/Machine/CascLoad.lean ====
section
/-! DEFINITION. CASCADE_LOAD: the checks of a cascade image and its installation (R10, R15, R121, R189, R198, R199, R218, R240, R244 to
R252, R361). -/

namespace Sys2Proof.Machine

/-- Bytes of a record of each section of an image (R361). -/
def secSize (k : Nat) : Nat := [1168, 32, 32, 16, 16, 4, 32, 64].getD k 0

/-- A cascade image: its bytes and its object's size. -/
structure Img where
  bs : List Byte
  deriving DecidableEq, Repr

/-- Fields of the image header (R361). -/
def Img.w0 (x : Img) : Nat := bytesAt x.bs 0 4
def Img.nbasin (x : Img) : Nat := bits x.w0 0 8 + 1
def Img.cls (x : Img) : Nat := bits x.w0 8 4
def Img.off (x : Img) (k : Nat) : Nat := bytesAt x.bs (8 + 8 * k) 4
def Img.cnt (x : Img) (k : Nat) : Nat := bytesAt x.bs (12 + 8 * k) 4

/-- Whether a section lies in the image. -/
def Img.secOk (x : Img) (k : Nat) : Bool := x.cnt k == 0 || (decide (128 ≤ x.off k) && decide (x.off k + x.cnt k * secSize k ≤ x.bs.length))

/-- The records of a section, with their offsets in the object; none where the section does not lie in the image. -/
def Img.recs (x : Img) (k : Nat) : List (Nat × List Byte) :=
  if x.secOk k then (List.range (x.cnt k)).map fun i => (x.off k + i * secSize k, (x.bs.drop (x.off k + i * secSize k)).take (secSize k)) else []

/-- A basin of an image (R361). -/
def ImgBasin.parse (bs : List Byte) : ImgBasin :=
  let h := bytesAt bs 8 8
  { lbasin := bytesAt bs 0 1, header := h, stages := (List.range (hdrNstage h)).map fun i => bytesAt bs (16 + 16 * i) 16,
    entries := (List.range 64).map fun i => bytesAt bs (144 + 16 * i) 16 }

/-- The basins of an image with their offsets. -/
def Img.basins (x : Img) : List (Nat × ImgBasin) := (x.recs 0).map fun e => (e.1, ImgBasin.parse e.2)

/-- Fields of a stage word that must be zero (R121): RSVD, FMT_B where B is unused, ROUTE and the window fields where they do not
apply. -/
def stageZero (o w : Nat) : List (Bool × Nat) :=
  let k := stKind w
  let b := usesB k (stSubop w) || (mayUseB k (stSubop w) (stFmtOut w) && stInB w != 63)
  [(bits w 0 4 == 0, o), (isWindow w || bits w 8 4 == 0, o + 1), (isWindow w || bits w 12 4 == 0, o + 1),
   (isWindow w || stDilation w == 0, o + 2), (isWindow w || stStride w == 0, o + 3), (k == 7 || stRoute w == 0, o + 3),
   (b || stFmtB w == 0, o + 14)]

/-- Reserved fields of one basin's record (R121, R143). -/
def basinZero (o : Nat) (bs : List Byte) : List (Bool × Nat) :=
  let b := ImgBasin.parse bs
  [(bytesAt bs 1 7 == 0, o + 1), (bits b.header 0 43 == 0, o + 8)] ++
  ((List.range b.stages.length).flatMap fun i => stageZero (o + 16 + 16 * i) (b.stages.getD i 0)) ++
  ((List.range 64).flatMap fun i =>
    let e := b.entries.getD i 0
    [(bits e 0 13 == 0, o + 144 + 16 * i), (bits e 32 4 == 0, o + 148 + 16 * i), (bits e 64 15 == 0, o + 152 + 16 * i)])

/-- Reserved fields of the whole image (R106, R121, R198, R218, R244, R361). -/
def Img.zeros (x : Img) : List (Bool × Nat) :=
  [(bits x.w0 12 18 == 0, 1), (bytesAt x.bs 4 4 == 0, 4), (bytesAt x.bs 72 52 == 0, 72)] ++
  ((x.recs 0).flatMap fun e => basinZero e.1 e.2) ++
  ((x.recs 1).flatMap fun e =>
    [(bits (bytesAt e.2 0 4) 11 16 == 0, e.1 + 1), (bits (bytesAt e.2 20 4) 15 1 == 0, e.1 + 21), (bits (bytesAt e.2 20 4) 31 1 == 0, e.1 + 23),
     (bytesAt e.2 24 8 == 0, e.1 + 24)]) ++
  ((x.recs 2).flatMap fun e =>
    [(bits (bytesAt e.2 0 4) 16 11 == 0, e.1 + 2), (bits (bytesAt e.2 8 4) 6 2 == 0, e.1 + 8), (bits (bytesAt e.2 8 4) 16 16 == 0, e.1 + 10),
     (bytesAt e.2 20 12 == 0, e.1 + 20)]) ++
  ((x.recs 3).flatMap fun e => [(bits (bytesAt e.2 0 4) 14 18 == 0, e.1 + 1), (bytesAt e.2 12 4 == 0, e.1 + 12)]) ++
  ((x.recs 4).flatMap fun e =>
    let ty := bits (bytesAt e.2 0 4) 28 2
    [(bits (bytesAt e.2 0 4) 0 12 == 0, e.1), (ty == 0 || bytesAt e.2 8 2 == 0, e.1 + 8), (ty != 2 || bytesAt e.2 10 2 == 0, e.1 + 10),
     (bits (bytesAt e.2 12 4) 1 15 == 0, e.1 + 12)]) ++
  ((x.recs 6).flatMap fun e =>
    [(bits (bytesAt e.2 0 4) 27 5 == 0, e.1 + 3), (bits (bytesAt e.2 8 4) 8 24 == 0, e.1 + 9), (bytesAt e.2 12 20 == 0, e.1 + 12)])

/-- The window record of a stage in an image. -/
def Img.window (x : Img) (l i : Nat) : Option WinRec :=
  ((x.recs 1).map fun e => WinRec.parse e.2).find? fun r => r.lbasin == l && r.stage == i

/-- Checks of a stage word's configuration (R116, R118, R121, R122, R149, R153, R160). -/
def Dev.stageChecks (d : Dev) (x : Img) (ctx o : Nat) (b : ImgBasin) (i : Nat) : List (Bool × Nat) :=
  let w := b.stages.getD i 0
  let win := x.window b.lbasin i
  let size (e : Nat) : Nat := seSize (b.entries.getD e 0) * 64
  let out := b.entries.getD (stOut w) 0
  let other : Bool := stKind w == 7 && !stRemote w && !((x.basins.map fun e => e.2.lbasin).contains (stRoute w)) &&
    d.fab.ctxs.any fun y => y.1 != ctx && y.2.basins.contains (stRoute w)
  [(!isWindow w || (bits w 8 4 != 15 && bits w 12 4 != 15), o + 1), (!isWindow w || stDilation w != 0, o + 2),
   (!isWindow w || (decide (1 ≤ stStride w) && decide (stStride w ≤ 8)), o + 3), (!other, o + 3),
   (dim2Ok w (stDims w), o + 4), (stParam w != 63 || (dimsOk w (stDims w) win && fitsSlots w (stDims w) win (size (stInA w)) (size (stInB w)) (size (stOut w))), o + 7),
   ((seKind out == 2) == (stKind w == 7), o + 9), (decide (stSubop w < 64) && subopOk (stKind w) (stSubop w), o + 12),
   (stLast w == decide (i + 1 = hdrNstage b.header), o + 12), (decide (stRound w ≤ 1), o + 13), (formatsOk w, o + 14),
   (decide (stKind w ≤ 7), o + 15), (stGen w == 0, o + 15)]

/-- Whether the regions of the entries neither overlap nor leave the basin store (R246). -/
def regionsOk : List (Nat × Nat) → Bool
  | [] => true
  | p :: rest => decide (p.1 + p.2 ≤ 0x100000) && rest.all (fun q => decide (p.1 + p.2 ≤ q.1) || decide (q.1 + q.2 ≤ p.1) || q.2 == 0 || p.2 == 0) && regionsOk rest

/-- Checks of one basin's configuration (R121, R143, R246). -/
def Dev.basinChecks (d : Dev) (x : Img) (ctx cls o : Nat) (b : ImgBasin) : List (Bool × Nat) :=
  let used := (List.range 64).filter fun i => seSlots (b.entries.getD i 0) != 0
  [(!hdrPeriod b.header || decide (cls < 2), o + 13), (hdrClass b.header == cls, o + 14), (hdrGen b.header == 0, o + 15)] ++
  ((List.range b.stages.length).flatMap fun i => d.stageChecks x ctx (o + 16 + 16 * i) b i) ++
  ((List.range 64).flatMap fun i =>
    let e := b.entries.getD i 0
    let a := o + 144 + 16 * i
    [(decide (seKind e ≤ 7), a + 3), (seGen e == 0, a + 3)] ++
    (if seSlots e = 0 then [] else [(!seLatest e || seKind e == 6, a + 3), (seSize e != 0, a + 4)])) ++
  [(regionsOk (used.map fun i => (seBase (b.entries.getD i 0) * 64, seSlots (b.entries.getD i 0) * seSize (b.entries.getD i 0) * 64)), o + 148)]

/-- Checks of a window record (R244, R249, R251, R252): it names a window LOAD of the image. -/
def Img.windowChecks (x : Img) (o : Nat) (bs : List Byte) : List (Bool × Nat) :=
  let r := WinRec.parse bs
  let w := ((x.basins.find? fun e => e.2.lbasin == r.lbasin).map fun e => e.2.stages.getD r.stage 0).getD (2 ^ 122)
  let twice := ((x.recs 1).filter fun e => (WinRec.parse e.2).lbasin == r.lbasin && (WinRec.parse e.2).stage == r.stage).length
  [(isWindow w && twice == 1, o), (r.gen == 0, o + 3), (decide (1 ≤ r.inW), o + 4), (decide (1 ≤ r.inH), o + 6), (r.mode == 1 || r.pad == 0, o + 16),
   (stParam w == 63 || (r.skipRows == 0 && r.skipCols == 0), o + 20), (stParam w != 63 || r.padOk w, o + 20)]

/-- Every window LOAD of the image has its record (R244). -/
def Img.windowsAll (x : Img) : List (Bool × Nat) :=
  x.basins.flatMap fun e => (List.range e.2.stages.length).map fun i =>
    (!isWindow (e.2.stages.getD i 0) || (x.window e.2.lbasin i).isSome, e.1 + 16 + 16 * i)

/-- Checks of a spillway declaration (R198, R199). -/
def Img.spillChecks (x : Img) (cls o : Nat) (bs : List Byte) : List (Bool × Nat) :=
  let s := SpillDecl.parse bs
  let w0 := bytesAt bs 0 4
  let gate : Bool := x.basins.any fun e => e.2.lbasin == s.gateBasin && seSlots (e.2.entries.getD s.gateEntry 0) != 0
  [(cls != 0, o), (decide (s.kind ≤ 2), o + 3), (s.kind != 1 || bit w0 27, o + 3), (bits w0 30 2 == 0, o + 3),
   (s.altList == 0xFFFF || decide (s.altList < x.cnt 3), o + 4), (s.kind != 0 || s.altList != 0xFFFF, o + 4), (decide (s.mainList < x.cnt 3), o + 6),
   (gate, o + 8), (s.kind == 2 || s.allowUs == 0, o + 12), ((s.kind == 0) == (s.altObject != 0), o + 16)]

/-- Checks of a descriptor list (R193, R361): bound to a sluice entry of the image, its descriptors within the image. -/
def Img.listChecks (x : Img) (o : Nat) (bs : List Byte) : List (Bool × Nat) :=
  let w := bytesAt bs 0 4
  let k := (x.basins.find? fun e => e.2.lbasin == bits w 0 8).map fun e => e.2.entries.getD (bits w 8 6) 0
  [(k.isSome, o), (k.elim false fun e => seSlots e != 0 && (seKind e == 3 || seKind e == 4), o + 1),
   (decide (bytesAt bs 4 4 + 64 * bytesAt bs 8 4 ≤ x.bs.length), o + 4)]

/-- A cell of an image (R106, R361). -/
def imgCell (ctx : Nat) (bs : List Byte) : Cell :=
  let w := bytesAt bs 0 4
  { type := bits w 28 2, broken := false, owner := ctx, ceiling := bits w 12 4, count := bytesAt bs 4 4, target := bytesAt bs 10 2,
    hold := bytesAt bs 8 2, phase := false, users := [ctx], session := none, waiters := [], creator := ctx }

/-- Checks of a declared cell (R106, R107). -/
def Dev.cellChecks (d : Dev) (ctx o : Nat) (bs : List Byte) : List (Bool × Nat) :=
  let c := imgCell ctx bs
  [(bits (bytesAt bs 0 4) 16 10 == 0, o + 2), (bits (bytesAt bs 0 4) 30 2 == 0, o + 3)] ++
  (cellFields c.type c.ceiling (d.classPrio (d.ctxClass ctx)) c.count c.target c.hold).zip [o + 3, o + 1, o + 4, o + 10, o + 8]

/-- Checks of a pack that the cascade names (R15, R189): a live pack whose header holds. -/
def Dev.packChecks (d : Dev) (o : Nat) (bs : List Byte) : List (Bool × Nat) :=
  [((d.obj? (bytesAt bs 0 4)).elim false fun x => x.kind == 0 && (x.copy x.highest).elim false fun l => packOk (d.locBytes l 0 128), o)]

/-- Checks of an attention record (R218, R221, R240). -/
def Dev.attnChecks (d : Dev) (x : Img) (o : Nat) (bs : List Byte) : List (Bool × Nat) :=
  let a := AttnRec.parse bs
  let frames : Bool := d.kv.pool.elim true fun p => [1, 3, 4, 7, 8, 9].any fun fmt => decide (kvFrame fmt a.dim ≤ p.frameBytes)
  let once := ((x.recs 6).filter fun e => (AttnRec.parse e.2).lbasin == a.lbasin).length
  [(once == 1 && x.basins.any fun e => e.2.lbasin == a.lbasin, o), (decide (1 ≤ a.heads) && decide (a.heads ≤ 4), o + 1),
   (decide (32 ≤ a.dim) && decide (a.dim ≤ 256) && a.dim % 32 == 0 && frames, o + 1), (a.qfmt == 1 || a.qfmt == 3 || a.qfmt == 4, o + 2),
   (decide (a.maxLen ≤ 131072), o + 4), (decide (1 ≤ a.qrows) && decide (a.qrows ≤ 64), o + 8)]

/-- The checks of an image's configuration, the header first (R121, R361). -/
def Dev.imgChecks (d : Dev) (x : Img) (ctx : Nat) : List (Bool × Nat) :=
  let cls := d.ctxClass ctx
  [(x.cls == cls, 1), (bits x.w0 30 2 == 0, 3), (x.cnt 0 == x.nbasin, 12), (x.cnt 7 == 1, 68)] ++
  ((List.range 8).map fun k => (x.secOk k, 8 + 8 * k)) ++
  [(crc32c (splice x.bs 124 (leBytes 4 0)) == bytesAt x.bs 124 4, 124), (allDistinct (x.basins.map fun e => e.2.lbasin), x.off 0)] ++
  (x.basins.flatMap fun e => d.basinChecks x ctx cls e.1 e.2) ++ x.windowsAll ++
  ((x.recs 1).flatMap fun e => x.windowChecks e.1 e.2) ++ ((x.recs 2).flatMap fun e => x.spillChecks cls e.1 e.2) ++
  ((x.recs 3).flatMap fun e => x.listChecks e.1 e.2) ++ ((x.recs 4).flatMap fun e => d.cellChecks ctx e.1 e.2) ++
  ((x.recs 5).flatMap fun e => d.packChecks e.1 e.2) ++ ((x.recs 6).flatMap fun e => d.attnChecks x e.1 e.2)

/-- The image that a CASCADE_LOAD names. -/
def Dev.imgOf (d : Dev) (r : Req) : Option Img := (d.pinned1 (r.w32 0)).map fun x => ⟨d.locBytes x.2 0 x.1.size⟩

/-- The descriptor lists of an image: basin, entry, descriptors. -/
def Img.lists (x : Img) : List (Nat × Nat × List (List Byte)) :=
  (x.recs 3).map fun e => (bits (bytesAt e.2 0 4) 0 8, bits (bytesAt e.2 0 4) 8 6,
    (List.range (bytesAt e.2 8 4)).map fun i => (x.bs.drop (bytesAt e.2 4 4 + 64 * i)).take 64)

/-- The cells of an image are allocated, all or none (R107, R121). -/
def Dev.takeCells (d : Dev) : List Cell → Option (List Nat × Dev)
  | [] => some ([], d)
  | c :: rest => match d.newCell c with
    | none => none
    | some (n, d1) => (d1.takeCells rest).map fun p => (n :: p.1, p.2)

/-- Bytes take an area of T1, if there are any (R121, R193). -/
def Dev.installBytes (d : Dev) (bs : List Byte) : Option (List (Nat × Nat) × Dev) :=
  if bs = [] then some ([], d)
  else (d.takeArea 1 bs.length).map fun p => ([(1, p.1)], { p.2 with mem := p.2.mem.write p.1 bs })

/-- An image is installed (R121, R361): its cells, its descriptor lists and spillway table in T1, its ceiling budgets; answers the
handle, or none where the cell table, T1 or the handles are full. -/
def Dev.install (d : Dev) (r : Req) (x : Img) : Option (Nat × Dev) :=
  match lowest 65535 (fun i => !thas d.fab.cascades (i + 1)), d.takeCells ((x.recs 4).map fun e => imgCell r.ctx e.2) with
  | some i, some (cells, d1) =>
    let ceil := match (x.recs 7).head? with
      | some e => (List.range 8).map fun k => bytesAt e.2 (8 * k) 8
      | none => []
    match d1.installBytes ((x.lists.flatMap fun l => l.2.2).flatten) with
    | none => none
    | some (a, d2) =>
      match d2.installBytes (((x.recs 2).map (·.2)).flatten) with
      | none => none
      | some (b, d3) =>
        let w := r.w32 4
        let c : Cascade :=
          { ctx := r.ctx, basins := x.basins.map (·.2), ceil := ceil, cells := cells, packs := (x.recs 5).map fun e => bytesAt e.2 0 4,
            windows := (x.recs 1).map (·.2), spills := (x.recs 2).map (·.2), lists := x.lists, attn := (x.recs 6).map (·.2), taken := a ++ b,
            split := { id := bits w 0 16, part := bits w 16 2, parts := bits w 18 2 + 1, mods := (List.range 4).map (fun k => bits w (20 + 2 * k) 2), takeoverUs := r.w32 8 } }
        some (i + 1, { d3 with
          fab := { d3.fab with cascades := tset d3.fab.cascades (i + 1) c }
          pbu := { d3.pbu with ceil := tset d3.pbu.ceil (d3.ctxClass r.ctx) ceil } })
  | _, _ => none

/-- The checks of cascadeLoad, in the order of R352. -/
def Dev.cascadeLoadCheck (d : Dev) (r : Req) : Option Fail :=
  let img := d.imgOf r
  let w := r.w32 4
  firstFail
    [d.versionFail r, d.permFail r, r.headerFail 0, r.rsvdFail [(4, 28, 4), (12, 0, 32)],
     (if r.len = 16 then img else none).elim none fun x => firstObj .badReserved x.zeros,
     need (r.len == 16) .badConfig 8, needCfg (img.elim false fun x => decide (128 ≤ x.bs.length)) 0,
     needCfg (decide (bits w 16 2 ≤ bits w 18 2)) 6,
     img.elim none fun x => firstObj .badConfig (d.imgChecks x r.ctx),
     need ((img.bind (d.install r)).isSome) .busy 0]

/-- CASCADE_LOAD (R121, R139, R361). -/
def Dev.cascadeLoad (d : Dev) (now m seq : Nat) : Dev :=
  d.command now m seq 0x0201 (fun _ => true) d.cascadeLoadCheck
    fun r => match (d.imgOf r).bind (d.install r) with
      | some (h, d1) => d1.finish now r .ok h []
      | none => d

/-- CASCADE_LOAD (R121): the request SEQ seq of mailbox m. -/
def execCascadeLoad (t m seq : Nat) (s : State) : Host.Outcome State Fault Refusal := s.run t fun now d => d.cascadeLoad now m seq

end Sys2Proof.Machine
end

