-- ==== Sys2Proof/Machine/CascCmd.lean ====
section
/-! DEFINITION. Binding, running and unloading a cascade, alone or with its parts on other modules (R67, R91, R98, R123, R131, R137, R139,
R140, R142, R199, R217, R355, R362, R368, R405). -/

namespace Sys2Proof.Machine

/-- Whether a logical basin is available (R137). -/
def Dev.available (d : Dev) (l : Nat) : Bool := (d.f (r1 .pbuFabAvail (l / 64)) F.pbuFabAvail.AVAIL).testBit (l % 64)

/-- Whether an object is pinned in T0 or T1 (R199). -/
def Dev.pinnedUp (d : Dev) (id : Nat) : Bool := (d.obj? id).elim false fun o => o.pinsIn 0 != [] || o.pinsIn 1 != []

/-- The cells that a cascade names: those it declares and those its descriptors operate (R106, R193). -/
def Dev.cellsOf (_d : Dev) (c : Cascade) : List Nat :=
  c.cells ++ ((c.lists.flatMap fun l => l.2.2).map Desc.parse).filterMap fun x => if x.cellOp = 0 then none else some x.cell

/-- The configuration checks of a bind (R107, R137, R199); a stage's own waits are met where they are made (log entry 41). -/
def Dev.bindCfg (d : Dev) (c : Cascade) : Option Fail :=
  firstFail [needCfg (c.ls.all d.available) 0,
    needCfg (d.ctxClass c.ctx != 0 || (d.cellsOf c).all fun n => (tget d.cells n).elim true fun x => decide (d.ctxClass x.owner ≤ 1)) 0,
    needCfg ((c.spills.map SpillDecl.parse).all fun s => s.kind != 0 || d.pinnedUp s.altObject) 0]

/-- Whether no context holds a basin, and no switch brings one to it. -/
def Dev.freeBasin (d : Dev) (l : Nat) : Bool :=
  (d.basin? l).isNone && !(d.fab.switches.any fun s => (d.ctx? s.inn).elim false fun x => x.basins.contains l)

/-- Whether a pinned context holds a basin. -/
def Dev.pinnedBasin (d : Dev) (l : Nat) : Bool :=
  d.fab.ctxs.any fun e => e.2.basins.contains l && d.fb (r1 .pbuCtxCfg e.1) F.pbuCtxCfg.PINNED

/-- The spill area is reserved in T1 (R217). -/
def Dev.takeSpill (d : Dev) (h : Nat) (c : Cascade) : Option Dev :=
  if c.spillBytes = 0 then some d
  else (d.takeArea 1 c.spillBytes).map fun p => p.2.modCascade h fun c => { c with taken := (1, p.1) :: c.taken }

/-- A best-effort context's save area is reserved for n more basins (R98); what it holds of a saved context moves along. -/
def Dev.takeSave (d : Dev) (c n : Nat) : Option Dev :=
  match d.ctx? c with
  | none => none
  | some x =>
    let old := x.basins.length * 0x101000
    (d.takeArea 1 (old + n * 0x101000)).map fun p =>
      let d1 := { p.2 with mem := p.2.mem.copy p.1 old p.2.mem x.saveArea }
      let d2 := if x.saveArea = 0 then d1 else d1.dropArea 1 x.saveArea
      { d2 with fab := { d2.fab with ctxs := tmod d2.fab.ctxs c fun x => { x with saveArea := p.1 } } }

/-- Basin pairs of a bind power on; one that was off is usable 20 µs later (R67). -/
def Dev.powerPairs (d : Dev) (now : Nat) (ls : List Nat) : Dev :=
  ls.foldl (fun (d : Dev) l =>
    let pd := pairOf (d.physical l)
    if d.on pd then d else { d with pow := { d.pow with on := pd :: d.pow.on, pairs := tset d.pow.pairs pd (now + 20000) } }) d

/-- Whether every pair of a cascade is usable (R67). -/
def Dev.usable (d : Dev) (now : Nat) (c : Cascade) : Bool :=
  c.ls.all fun l => d.on (pairOf (d.physical l)) && decide (tgetD d.pow.pairs (pairOf (d.physical l)) 0 ≤ now)

/-- A cascade's basins become its context's (R98, R123, R172): in place, or in the saved state where other contexts run there. -/
def Dev.installBasins (d : Dev) (now h : Nat) (c : Cascade) (here : Bool) : Dev :=
  let seed := (d.ctx? c.ctx).elim 0 Ctx.seed
  let bs := c.basins.map fun b => (b.lbasin, d.freshBasin c.ctx c b (lfsrSeeds seed b.lbasin))
  let d1 : Dev :=
    if here then { d with fab := { d.fab with basins := bs.foldl (fun (t : Tbl Basin) e => tset t e.1 e.2) d.fab.basins } }
    else
      (let old := tgetD d.fab.saved c.ctx []
       let area := (d.ctx? c.ctx).elim 0 Ctx.saveArea
       { d with
         mem := d.mem.clear (area + old.length * 0x101000) (bs.length * 0x101000)
         fab := { d.fab with saved := tset d.fab.saved c.ctx (old ++ bs) } })
  let d2 := { d1 with fab := { d1.fab with ctxs := tmod d1.fab.ctxs c.ctx fun x => { x with basins := x.basins ++ c.ls, lastChange := now } } }
  ((d2.modCascade h fun c => { c with staged := true }).powerPairs now c.ls).syncWeirs

/-- A cascade is staged: its areas taken, its basins its context's, its pairs on; none where something it needs is occupied (R98, R217,
R405). -/
def Dev.stageBind (d : Dev) (now h : Nat) (pin : Bool) : Option Dev :=
  match d.cascade? h with
  | none => none
  | some c =>
    let pinned := d.ctxClass c.ctx == 0 || pin
    let free := c.ls.all d.freeBasin
    let st := d.ctxState c.ctx
    let here := pinned || st == 1 || st == 2 || (st == 0 && free)
    if (here && !free) || c.ls.any d.pinnedBasin || d.switching c.ctx || c.ls.any fun l => (d.ctx? c.ctx).elim true fun x => x.basins.contains l then none
    else (d.takeSpill h c).bind fun d1 =>
      (if pinned then some d1 else d1.takeSave c.ctx c.ls.length).map fun d2 =>
        let d3 := (d2.modCascade h fun c => { c with pin := pin }).installBasins now h c here
        if pinned then d3.sf (r1 .pbuCtxCfg c.ctx) F.pbuCtxCfg.PINNED 1 else d3

/-- A staged cascade is given up (R405). -/
def Dev.unstage (d : Dev) (now h : Nat) : Dev :=
  match d.cascade? h with
  | some c =>
    if c.staged = false then d
    else
      let d1 := d.returnBasins now c.ctx c.ls
      let d2 := if c.spillBytes = 0 then d1 else match c.taken with
        | a :: _ => d1.dropArea a.1 a.2
        | [] => d1
      d2.modCascade h fun c => { c with staged := false, pin := false, binding := none, taken := if c.spillBytes = 0 then c.taken else c.taken.drop 1 }
  | none => d

/-- Whether a cascade is a warm standby of a part of another module (R142, DEDUCED). -/
def Dev.isStandby (d : Dev) (c : Cascade) : Bool := decide (1 < c.split.parts) && d.ctxClass c.ctx == 0 && c.split.mods.getD c.split.part 0 != d.own

/-- A bind comes into force (R91, R101, R131, R142, R368): the context is bound or saved, a class-0 one takes over the cue channels that a
torn-down one left and runs its lists; the weirs choose. -/
def Dev.completeBind (d : Dev) (now h : Nat) : Dev :=
  match d.cascade? h with
  | none => d
  | some c =>
    let d1 := d.modCascade h fun c => { c with bound := true, staged := false, binding := none, begun := false }
    let r := r1 .pbuCtxCfg c.ctx
    let resident := d1.fab.basins.any fun e => e.2.ctx == c.ctx
    let d2 := if d1.ctxState c.ctx = 0 then d1.sf r F.pbuCtxCfg.STATE (if resident then 1 else 3) else d1
    let d3 : Dev :=
      if d2.ctxClass c.ctx = 0 then
        (let e := d2.stew.fixedCh.foldl (fun (d : Dev) n => d.setOwner 0x09 n (some (.ctx c.ctx))) d2
         let e1 : Dev := { e with stew := { e.stew with fixedCh := [] }, fab := { e.fab with ctxs := tmod e.fab.ctxs c.ctx fun x => { x with standby := b2n (d.isStandby c) } } }
         e1.beginInvocation now h)
      else d2
    c.ls.foldl (fun (d : Dev) l => d.weirChoose now l) d3

/-- Iterations of a run that the device itself or another module asked for, or a command (R362): ITER 0 arms the cascade. -/
def Dev.startRun (d : Dev) (now h iter : Nat) (ms : Nat × Nat) : Dev :=
  if iter = 0 then d.modCascade h fun c => { c with armed := true, begun := true }
  else (d.modCascade h fun c => { c with begun := true, run := some { mbx := ms.1, seq := ms.2, left := iter, done := 0, spilled := 0, stalled := 0 } }).beginInvocation now h

/-- The unloading of a cascade begins (R131, R185, R354): a run and a bind in progress are overtaken, dispatch stops in the context's basins, its T0
needs go. -/
def Dev.startUnload (d : Dev) (now h : Nat) (ms : Nat × Nat) (by_ : Nat) : Dev :=
  match d.cascade? h with
  | none => d
  | some c =>
    let d1 := match c.run with
      | some r => (d.dropWait (.command r.mbx r.seq)).finishRun now h .superseded
      | none => d
    let d2 := match c.binding with
      | some q => d1.finishAt now q .superseded by_ []
      | none => d1
    let k := d2.draw (0x1000 + c.ctx) now
    (k.2.modCascade h fun c => { c with unloading := some ms, binding := none, armed := false, run := none }).dropT0Needs now c.ctx k.1

/-- The parts of a split cascade on other modules, as modules. -/
def Dev.otherParts (d : Dev) (c : Cascade) : List Nat := ((c.split.mods.take c.split.parts).filter (· != d.own)).eraseDups

/-- Whether this module coordinates a cascade's commits: a split cascade's part 0 that is no standby (R140, R405). -/
def Dev.coordinates (d : Dev) (c : Cascade) : Bool := decide (1 < c.split.parts) && c.split.part == 0 && !d.isStandby c && d.otherParts c != []

/-- The number by which a vote's wait names its transaction. -/
def txOf (k : Key) : Nat := k.src * 2 ^ 32 + k.cnt

/-- A two-phase commit starts (R405): PREPARE to every participant, with a vote deadline of 1 ms. -/
def Dev.tpcStart (d : Dev) (now : Nat) (k : Key) (cmd : Option (Nat × Nat)) (kind h arg : Nat) (c : Cascade) : Dev :=
  let ps := d.otherParts c
  let x : TpcCoord := { id := k, cmd := cmd, kind := kind, subject := h, arg := arg, parts := ps, deadline := now + 1000000 }
  let d1 := { d with cnl := { d.cnl with coords := d.cnl.coords ++ [x] } }
  ps.foldl (fun (d : Dev) m =>
    (d.addWait { owner := .vote (txOf k) m, deadline := now + 1000000, guard := d.cnlGuard m, src := 0x0150 }).2.cnlSend now ftPrepare m 0
      (tpcBody k kind c.split.id arg 0) []) d1

/-- Parts of a cascade on some modules, as a mask by part (R140). -/
def Cascade.partMask (c : Cascade) (ms : List Nat) : Nat :=
  ((List.range c.split.parts).map fun p => if ms.contains (c.split.mods.getD p 0) then 2 ^ p else 0).sum

/-- The outcome of a commit of a request reaches this module's parts of it (R205, R207): they go live, or their staging is discarded and the request
fails; the DT of the decision is the commit DT. -/
def Dev.decideReq (d : Dev) (now r : Nat) (ok : Bool) (fails : Nat) : Dev :=
  let d1 := d.modReq r fun x => { x with nparts := x.parts.length }
  let making := (tget d.slu.reqs r).bind SluReq.making
  if ok then (if (tget d.slu.reqs r).elim false SluReq.staged then d1.commitStaged now r else d1.sluiceArrive now r)
  else ((d1.modReq r fun x => { x.cut .partialFail with status := some (x.status.getD Status.partialFail.code), failMask := x.failMask ||| fails }).syncEngines).unlockOf now r making

/-- This module applies the outcome of a commit that it coordinates (R140, R207, R405). -/
def Dev.tpcApply (d : Dev) (now : Nat) (x : TpcCoord) (ok : Bool) : Dev :=
  match x.kind, ok with
  | 0, true => (d.completeBind now x.subject).tpcOwnDone now x.id
  | 0, false => (d.unstage now x.subject).tpcOwnDone now x.id
  | 1, true =>
    let d1 := d.startRun now x.subject x.arg (x.cmd.getD noCmd)
    let d2 := if x.arg = 0 then d1 else { d1 with cnl := { d1.cnl with coords := d1.cnl.coords.map fun (y : TpcCoord) => if y.id = x.id then { y with cmd := none } else y } }
    d2.tpcOwnDone now x.id
  | 2, true => (d.startUnload now x.subject noCmd 0).settleEnds now
  | 3, ok => ((d.slu.reqs.find? fun e => e.2.key == x.id).elim d fun e => d.decideReq now e.1 ok x.fails).tpcOwnDone now x.id
  | _, _ => d.tpcOwnDone now x.id

/-- Waits of an owner that are over go; one that expired stays for a late arrival (R47). -/
def Dev.dropArrived (d : Dev) (o : WaitOwner) : Dev := { d with waits := d.waits.filter fun e => e.2.owner != o || e.2.outcome == some false }

/-- Once every vote has come or expired, and this module's own part of a bind is usable, the coordinator decides (R405). -/
def Dev.tpcTry (d : Dev) (now : Nat) (k : Key) : Dev :=
  match d.cnl.coords.find? fun x => x.id == k && x.outcome.isNone with
  | none => d
  | some x =>
    if (x.parts.all fun m => thas x.votes m) && ((x.kind != 0 && x.kind != 3) || thas x.votes d.own) then
      let ok := x.votes.all fun v => v.2 == 0
      let bad := (x.votes.filter fun v => v.2 != 0).map (·.1)
      let fails := (d.cascade? x.subject).elim 0 fun c => c.partMask bad
      let y := { x with outcome := some ok, fails := fails }
      let d1 := { d with cnl := { d.cnl with
        coords := d.cnl.coords.map fun (z : TpcCoord) => if z.id = k then y else z
        outcomes := (k, ok, now) :: d.cnl.outcomes.filter fun o => decide (now ≤ o.2.2 + 1000000000) } }
      let d2 := x.parts.foldl (fun (d : Dev) m => (d.dropArrived (.vote (txOf k) m)).cnlSend now ftDecide m 0 (tpcBody k x.kind 0 (b2n ok) 0) []) d1
      d2.tpcApply now y ok
    else d

/-- A vote is recorded: 0 for YES, else the status of a NO or of its expiry. -/
def Dev.tpcVote (d : Dev) (now : Nat) (k : Key) (m st : Nat) : Dev :=
  ({ d with cnl := { d.cnl with coords := d.cnl.coords.map fun (x : TpcCoord) =>
      if x.id = k ∧ x.outcome.isNone ∧ !(thas x.votes m) then { x with votes := tset x.votes m st } else x } }).tpcTry now k

/-- A participant casts its vote (R405): its status and the DT at which it was cast. -/
def Dev.castVote (d : Dev) (now : Nat) (k : Key) (st : Status) : Dev :=
  match d.cnl.parts.find? fun p => p.id == k && p.vote.isNone with
  | none => d
  | some p =>
    let voted (q : TpcPart) : TpcPart := if q.id = k then { q with vote := some (true, now), askedAt := now } else q
    let parts := if st = .ok then d.cnl.parts.map voted else d.cnl.parts.erase p
    let d1 : Dev := { d with cnl := { d.cnl with parts := parts } }
    d1.cnlSend now ftVote p.coord 0 (tpcBody k p.kind p.subject st.code now) []

/-- Binds whose basins have all become usable go on (R67, R405): a command completes, a participant votes YES, the coordinator counts its
own part. -/
def Dev.bindsReady (d : Dev) (now : Nat) : Dev :=
  d.fab.cascades.foldl (fun (d : Dev) e =>
    if e.2.staged && d.usable now e.2 then
      (match e.2.binding with
       | some q => (d.completeBind now e.1).finishAt now q .ok 0 []
       | none =>
         match d.cnl.coords.find? fun x => x.kind == 0 && x.subject == e.1 && x.outcome.isNone with
         | some x => d.tpcVote now x.id d.own 0
         | none => match d.cnl.parts.find? fun p => p.kind == 0 && p.subject == e.2.split.id && p.vote.isNone with
           | some p => d.castVote now p.id .ok
           | none => d)
    else d) d

/-- BASIN_PAIR_READY (R67): 20 µs after its power-on a pair is usable, its stores reading zero. -/
def execBasinPairReady (t pd : Nat) (s : State) : Host.Outcome State Fault Refusal :=
  s.run t fun now d => if pd < 136 ∧ d.on pd ∧ tgetD d.pow.pairs pd 0 ≤ now then d.bindsReady now else d

/-- The cascade a command names by HANDLE: loaded in its context and not being unloaded. -/
def Dev.handleOf (d : Dev) (r : Req) : Option Cascade :=
  (d.cascade? (r.fld 0 0 16)).bind fun c => if c.ctx = r.ctx ∧ c.unloading.isNone then some c else none

/-- Whether a bind needs bit 15 of the group mask (R355). -/
def Dev.needs15 (d : Dev) (r : Req) (cls : Nat) : Option Fail := need (decide (2 ≤ cls) || (d.groups r.mbx).testBit 15) .denied 0

/-- The checks of cascadeBind, in the order of R352. -/
def Dev.cascadeBindCheck (d : Dev) (now : Nat) (r : Req) : Option Fail :=
  let h := r.fld 0 0 16
  let c := d.handleOf r
  let cls := d.ctxClass r.ctx
  let period : Bool := c.elim false fun c => c.basins.any fun b => hdrPeriod b.header
  let bound : Bool := c.elim false Cascade.bound
  firstFail
    [d.versionFail r, d.permFail r, d.needs15 r cls, r.headerFail 1, need (!r.flag 0 || cls == 1) .badReserved 9, r.rsvdFail [(0, 16, 16)],
     need (r.len == 4) .badConfig 8, needCfg c.isSome 0, needCfg (c.elim true fun c => c.split.parts == 1 || c.split.part == 0 || d.isStandby c) 0,
     need (!(cls == 1 && period && !r.flag 0)) .badConfig 9,
     need (!bound || c.elim true (fun c => c.pin == r.flag 0)) .badConfig 9,
     c.elim none fun c => if bound then none else d.bindCfg c,
     need (bound || (!(c.elim false Cascade.staged) && (d.stageBind now h (r.flag 0)).isSome)) .busy 0]

/-- CASCADE_BIND (R67, R91, R121, R137, R140, R199, R217). -/
def Dev.cascadeBind (d : Dev) (now m seq : Nat) : Dev :=
  d.command now m seq 0x0202 (fun _ => true) (d.cascadeBindCheck now)
    fun r =>
      let h := r.fld 0 0 16
      match d.cascade? h, d.stageBind now h (r.flag 0) with
      | some c, some d1 =>
        if c.bound then d.finish now r .ok 0 []
        else if d.coordinates c then ((d1.decide' r).tpcStart now (r.key d) (some (r.mbx, r.seq)) 0 h 0 c).bindsReady now
        else ((d1.decide' r).modCascade h fun c => { c with binding := some (r.mbx, r.seq) }).bindsReady now
      | _, _ => d.finish now r .ok 0 []

/-- CASCADE_BIND (R140): the request SEQ seq of mailbox m. -/
def execCascadeBind (t m seq : Nat) (s : State) : Host.Outcome State Fault Refusal := s.run t fun now d => d.cascadeBind now m seq

/-- The checks of cascadeRun, in the order of R352. -/
def Dev.cascadeRunCheck (d : Dev) (r : Req) : Option Fail :=
  let c := d.handleOf r
  let iter := r.w32 4
  let period : Bool := c.elim false fun c => c.basins.any fun b => hdrPeriod b.header
  let busy : Bool := c.elim false fun c => c.run.isSome || c.ending.isSome || d.cnl.coords.any fun x => x.subject == r.fld 0 0 16 && x.outcome.isNone
  firstFail
    [d.front r 0 16 [(0, 16, 16)], needCfg (c.elim false Cascade.bound) 0,
     needCfg (c.elim true fun c => c.split.parts == 1 || c.split.part == 0 || d.isStandby c) 0, needCfg (iter != 0 || period) 4,
     needCfg (iter != 0 || r.w64 8 == 0) 8, need (!busy) .busy 0]

/-- CASCADE_RUN (R140, R362). -/
def Dev.cascadeRun (d : Dev) (now m seq : Nat) : Dev :=
  d.command now m seq 0x0203 (fun _ => true) d.cascadeRunCheck
    fun r =>
      let h := r.fld 0 0 16
      let iter := r.w32 4
      match d.cascade? h with
      | none => d
      | some c =>
        let d0 := if iter = 0 then d else d.decide' r
        let d1 := if iter = 0 ∨ r.w64 8 = 0 then d0
          else (d0.addWait { owner := .command r.mbx r.seq, deadline := r.w64 8, guard := 0, src := 0x2000 + r.mbx }).2
        if d.coordinates c then (d1.decide' r).tpcStart now (r.key d) (some (r.mbx, r.seq)) 1 h iter c
        else if iter = 0 then (d1.startRun now h 0 noCmd).finish now r .ok 0 []
        else d1.startRun now h iter (r.mbx, r.seq)

/-- CASCADE_RUN (R362): the request SEQ seq of mailbox m. -/
def execCascadeRun (t m seq : Nat) (s : State) : Host.Outcome State Fault Refusal := s.run t fun now d => d.cascadeRun now m seq

/-- Undecided binds and runs of a handle are overtaken by its unloading (R354). -/
def Dev.overtakeHandle (d : Dev) (now h : Nat) (r : Req) : Dev :=
  let mine := d.stew.inflight.filter fun x => x.ctx == r.ctx && !x.decided && (x.code == 0x0202 || x.code == 0x0203) && x.fld 0 0 16 == h
  mine.foldl (fun (d : Dev) x => d.finishAt now (x.mbx, x.seq) .superseded (overtaker r.mbx r.seq) []) d

/-- The checks of cascadeUnload, in the order of R352. -/
def Dev.cascadeUnloadCheck (d : Dev) (r : Req) : Option Fail :=
  firstFail
    [d.front r 0 4 [(0, 16, 16)], needCfg (d.handleOf r).isSome 0,
     needCfg ((d.handleOf r).elim true fun c => c.split.parts == 1 || c.split.part == 0 || d.isStandby c) 0]

/-- CASCADE_UNLOAD (R131, R140, R354). -/
def Dev.cascadeUnload (d : Dev) (now m seq : Nat) : Dev :=
  d.command now m seq 0x0204 (fun _ => true) d.cascadeUnloadCheck
    fun r =>
      let h := r.fld 0 0 16
      match d.cascade? h with
      | none => d
      | some c =>
        let d1 := (d.decide' r).overtakeHandle now h r
        if d.coordinates c then d1.tpcStart now (r.key d) (some (r.mbx, r.seq)) 2 h 0 c
        else (d1.startUnload now h (r.mbx, r.seq) (overtaker r.mbx r.seq)).settleEnds now

/-- CASCADE_UNLOAD (R131): the request SEQ seq of mailbox m. -/
def execCascadeUnload (t m seq : Nat) (s : State) : Host.Outcome State Fault Refusal := s.run t fun now d => d.cascadeUnload now m seq

end Sys2Proof.Machine
end

