-- ==== Sys2Proof/Machine/Stop.lean ====
section
/-! DEFINITION. The safe-stop signals: SAFE_STOP inputs and STOP_REQ (R396 to R398). -/

namespace Sys2Proof.Machine

/-- The level a line of a SAFE_STOP input reads (R396): input k, line 0 for A and 1 for B. -/
def Dev.ssHigh (d : Dev) (k l : Nat) : Bool := d.ss.high.contains (2 * k + l)

/-- Whether the fusion sequencer asserts its stop request (R292). -/
def Dev.fusStop (d : Dev) : Bool := d.fb (r0 .fusStat) F.fusStat.STOP

/-- Whether STOP_REQ must show a request (R398). -/
def Dev.stopWanted (d : Dev) : Bool := d.fusStop || d.mc.causes != [] || !d.earlyOn

/-- STOP_REQ follows its causes; each change is stamped by source 0x24, raises EIC source 876 and goes to the almanac (R398); the
lowest-numbered MC cause is shown (log entry 30). -/
def Dev.syncStop (d : Dev) (now : Nat) : Dev :=
  let r := r0 .ssStat
  let c := (lowest 6 fun i => decide (0 < i) && d.mc.causes.contains i).getD 0
  let d1 := (d.sf r F.ssStat.MC_CAUSE c).sf r F.ssStat.MC_REQ (b2n (d.mc.causes != []))
  let want := d.stopWanted
  if d1.fb r F.ssStat.REQ = want then d1
  else
    let d2 := ((d1.sf r F.ssStat.REQ (b2n want)).captureAll now 0x24 (!want) now).raise 876
    { d2.almMc 0x070 1 now [b2n want, c] with ss := { d2.ss with phase := !want, phaseAt := now } }

/-- The level at STOP_REQ (R398): low for a request, else high, or the square wave. -/
def Dev.stopReqLevel (d : Dev) : Bool :=
  d.earlyOn && !d.fb (r0 .ssStat) F.ssStat.REQ && (!d.fb (r0 .ssCfg) F.ssCfg.DYN || d.ss.phase)

/-- An input's state follows its lines (R396, R397): STOP while a line is low or the input is DISCREPANT; each change is stamped by
capture source 0x22 + k, unless an edge of a line just was, and goes to the almanac (log entry 61). -/
def Dev.ssSync (d : Dev) (now k : Nat) (disc edge : Bool) : Dev :=
  let r := r0 .ssStat
  let stop := disc || !(d.ssHigh k 0 && d.ssHigh k 1)
  let was := ((d.f r F.ssStat.STOP_IN).testBit k, (d.f r F.ssStat.DISC).testBit k)
  if was = (stop, disc) then d
  else
    let d1 := if stop then d.setBit r F.ssStat.STOP_IN k else d.clrBit r F.ssStat.STOP_IN k
    let d2 := if disc then d1.setBit r F.ssStat.DISC k else d1.clrBit r F.ssStat.DISC k
    let d3 := if edge then d2 else d2.captureAll now (0x22 + k) (!stop) now
    let p := d3.draw 0x0160 now
    p.2.alm 0x070 1 p.1 now [k, b2n stop, b2n disc]

/-- Capture source 0x22 + k stamps the edges of either line of input k (R51, the table of capture sources): the new levels against those of
before (log entry 61). -/
def Dev.ssEdges (d : Dev) (now k : Nat) (a b : Bool) : Dev :=
  let d1 := if a != d.ssHigh k 0 then d.captureAll now (0x22 + k) a now else d
  if b != d.ssHigh k 1 then d1.captureAll now (0x22 + k) b now else d1

/-- The lines of an input take new levels (R396): a low shorter than SS_CFG.TP_US is a test pulse. -/
def Dev.ssLines (d : Dev) (now k : Nat) (a b : Bool) (heldUs : Nat) : Dev :=
  let pulse := decide (heldUs < d.f (r0 .ssCfg) F.ssCfg.TP_US)
  let a1 := a || (pulse && d.ssHigh k 0)
  let b1 := b || (pulse && d.ssHigh k 1)
  let rest := d.ss.high.filter fun x => x / 2 != k
  let high := rest ++ (if a1 then [2 * k] else []) ++ (if b1 then [2 * k + 1] else [])
  let differ := if a1 = b1 then tdel d.ss.differ k else if thas d.ss.differ k then d.ss.differ else tset d.ss.differ k now
  let disc := (d.f (r0 .ssStat) F.ssStat.DISC).testBit k
  let low := if !disc then d.ss.bothLow.filter (· != k)
    else if !a1 && !b1 && !d.ss.bothLow.contains k then k :: d.ss.bothLow else d.ss.bothLow
  let leaves := disc && a1 && b1 && low.contains k
  let low1 := if leaves then low.filter (· != k) else low
  let e := d.ssEdges now k a1 b1
  ({ e with ss := { e.ss with high := high, differ := differ, bothLow := low1 } }).ssSync now k (disc && !leaves) (a1 != d.ssHigh k 0 || b1 != d.ssHigh k 1)

/-- DYNAMIC_SIGNAL_EDGE (R398): with DYN = 1 and no request STOP_REQ toggles every 500 µs. -/
def execDynamicSignalEdge (t : Nat) (s : State) : Host.Outcome State Fault Refusal :=
  s.run t fun now d =>
    if d.earlyOn ∧ d.fb (r0 .ssCfg) F.ssCfg.DYN ∧ d.fb (r0 .ssStat) F.ssStat.REQ = false ∧ 500000 ≤ d.elapsed d.ss.phaseAt now then
      { d with ss := { d.ss with phase := !d.ss.phase, phaseAt := now } }
    else d

end Sys2Proof.Machine
end

