-- ==== Sys2Proof/Machine/Fusion.lean ====
section
/-! DEFINITION. The fusion sequencer: streams and samples, cut-offs, contradictions, ego-motion, the ladder, fused records and amendments
(R264 to R293). -/

namespace Sys2Proof.Machine

/-- The device with the sequencer's state changed. -/
def Dev.modFus (d : Dev) (f : FusSt → FusSt) : Dev := { d with fus := f d.fus }

/-- GUARD in ns (R271). -/
def Dev.fusGuard (d : Dev) : Nat := d.f (r0 .fusCtrl) F.fusCtrl.GUARD * 100

/-- Whether cut-offs are processed (FUS_CTRL.EN). -/
def Dev.fusEn (d : Dev) : Bool := d.on 149 && d.fb (r0 .fusCtrl) F.fusCtrl.EN

/-- The streams of the configuration in force. -/
def Dev.streams (d : Dev) : List FusStream := d.fus.conf.elim [] FusConf.streams

/-- A stream's STATE (FUS_STRm_STAT). -/
def Dev.strState (d : Dev) (m : Nat) : Nat := d.f (r1 .fusStrStat m) F.fusStrStat.STATE

/-- A stream changes STATE; each exclusion or outvote counts. -/
def Dev.setStr (d : Dev) (m st : Nat) : Dev :=
  let was := d.strState m
  let d1 := d.sf (r1 .fusStrStat m) F.fusStrStat.STATE st
  if was ≠ st ∧ (st = 3 ∨ st = 4) then d1.incSat (r1 .fusStrStat m) F.fusStrStat.EXCL else d1

/-- A sample's stamp with its error bound (R271). -/
def FusSample.eff (x : FusSample) : Nat := x.stamp + (if x.unc then x.bound else 0)

/-- A sample's age at an instant (R272, R38). -/
def Dev.ageAt (d : Dev) (x : FusSample) (tov : Nat) : Nat := d.elapsed x.stamp tov + (if x.unc then x.bound else 0)

/-- Whether two descriptors name one stream with one source (R267). -/
def FusStream.same (s x : FusStream) : Bool := x.stream == s.stream && x.kind == s.kind && x.source == s.source

/-- Whether a stream was configured before with the same source (R267): it keeps its samples. -/
def Dev.keepsStream (d : Dev) (s : FusStream) : Bool := d.streams.any s.same

/-- The samples of a stream of some configuration, newest first: those of the configuration in force, or those kept of an earlier one (R267). -/
def Dev.samplesOf (d : Dev) (s : FusStream) : List FusSample :=
  if d.keepsStream s then tgetD d.fus.samples s.stream [] else match d.fus.past.find? fun e => s.same e.1 with
    | some e => e.2
    | none => []

/-- The newest sample of a stream that stands at or before an instant and was delivered by another (R271). -/
def Dev.newest (d : Dev) (s : FusStream) (tov by_ : Nat) : Option FusSample :=
  (d.samplesOf s).find? fun x => decide (x.eff ≤ tov) && decide (x.delivered ≤ by_)

/-- What a stream contributes at an instant: excluded where it has no sample or one older than MAX_AGE (R272). -/
def Dev.contr (d : Dev) (s : FusStream) (tov by_ : Nat) (outv cont : Bool) : FusContr :=
  let x := d.newest s tov by_
  let excl := match x with
    | some y => decide (s.maxAge < d.ageAt y tov)
    | none => true
  { sample := x, excl := excl, outv := outv, cont := cont }

/-- The order key of the cue fire that a cut-off came from (R270). -/
def Dev.cueKey (d : Dev) (trig at_ : Nat) : Key :=
  match d.recs.find? fun r => r.kind == .cueFire && r.key.dt == at_ && r.body.getD 1 0 == trig with
  | some r => r.key
  | none => ⟨at_, 0, 0⟩

/-- SPEED of a level (R289). -/
def speedOf (level : Nat) : Nat := if level ≤ 1 then 100 else if level = 2 then 50 else if level = 3 then 25 else 0

/-- The level in force (R289). -/
def Dev.level (d : Dev) : Nat := d.f (r0 .fusStat) F.fusStat.LEVEL

/-- The level and stop request on the dedicated lines (R278). -/
def Dev.fusLine (d : Dev) (now : Nat) : Dev :=
  d.modFus fun f => { f with lines := (now, d.level, speedOf d.level, d.fusStop) :: f.lines.filter fun x => decide (now < x.1 + 10000000) || some x.1 == (f.lines.head?.map (·.1)) }

/-- Subscribers whose context is still open. -/
def Dev.liveSubs (d : Dev) : Tbl FusSub :=
  d.fus.subs.filter fun e => match d.ctx? e.2.ctx with
    | some x => !x.torn
    | none => false

/-- A block outside the fabric gives a slot to a device-inbound entry (R126): a free slot, else the oldest ready one (log entry 31). -/
def Dev.deviceIn (d : Dev) (now l e : Nat) (bs : List Byte) (stamp : Nat) : Dev :=
  match d.basin? l with
  | none => d
  | some b =>
    let x := b.entry e
    let pick : Option (Nat × SbEntry) := match x.freeQ with
      | s :: rest => some (s, { x with freeQ := rest })
      | [] => match x.readyQ with
        | s :: rest => some (s.1, { x with readyQ := rest })
        | [] => none
    match pick with
    | some (s, y) => ({ d with mem := d.mem.write (d.slotAddr l x s) (bs.take x.size) }).modEntry now l e fun _ => y.post s stamp
    | none => d

/-- FLAG_SET of one bit of a cell by a device on a context's behalf, where the context may operate the cell. -/
def Dev.deviceFlag (d : Dev) (now ctx cell b : Nat) : Dev :=
  match d.cellFail ctx 6 cell (2 ^ b) 0 with
  | none => d.flagSet now cell (2 ^ b)
  | some _ => d

/-- One publication or ladder record goes to one subscriber (R278): a slot of its entry, or the next place of its ring. -/
def Dev.toSub (d : Dev) (now k : Nat) (s : FusSub) (bs : List Byte) : Dev :=
  if s.kind = 0 then
    (match d.basin? (s.target % 256) with
     | some b => if b.ctx = s.ctx then d.deviceIn now (s.target % 256) (s.target / 256 % 64) bs now else d
     | none => d)
  else match d.pinned1 s.target with
    | some (o, loc) =>
      let n := max 1 (o.size / 10496)
      let d1 := (d.locPut loc (s.wr % n * 10496) 10496 (Memory.relOf 0 bs)).modFus fun f => { f with subs := tmod f.subs k fun x => { x with wr := (x.wr + 1) % n } }
      d1.deviceFlag now s.ctx s.cell s.flag
    | none => d

/-- The entries that are the class-0 input buffer (R24, R278): device-inbound entries with LATEST of class-0 contexts that no
subscription names. -/
def Dev.class0Inputs (d : Dev) : List (Nat × Nat) :=
  d.fab.basins.flatMap fun b =>
    if d.ctxClass b.2.ctx = 0 then
      (b.2.entries.filter fun e => e.2.kind == 6 && e.2.latest &&
        !(d.liveSubs.any fun s => s.2.kind == 0 && s.2.target % 256 == b.1 && s.2.target / 256 % 64 == e.1)).map fun e => (b.1, e.1)
    else []

/-- A ladder record (R291): to the record log, every subscriber and the almanac; the EIC source of ladder changes (R293). -/
def Dev.ladderRecord (d : Dev) (now old new cause subj : Nat) (key : Key) : Dev :=
  let p := d.draw 0x0201 now
  let body := [old, new, cause, subj, key.dt, key.src, key.cnt]
  let bs := p.1.bytes ++ leBytes 1 old ++ leBytes 1 new ++ leBytes 1 cause ++ leBytes 1 subj ++ leBytes 4 0 ++ key.bytes ++ leBytes 24 0
  let d1 := ((p.2.log ⟨p.1, .ladder, false, body⟩).alm 0x060 1 p.1 now body).raise 200
  d1.liveSubs.foldl (fun (d : Dev) (e : Nat × FusSub) => d.toSub now e.1 e.2 bs) d1

/-- The level in force follows the ladder and FLOOR, and the stop request the level (R289 to R292). -/
def Dev.ladderSync (d : Dev) (now cause subj : Nat) (key : Key) : Dev :=
  let r := r0 .fusStat
  let old := d.level
  let new := max d.fus.ladder (d.f (r0 .fusCtrl) F.fusCtrl.FLOOR)
  let stop := !d.fus.everLeft || new == 4
  let d1 := (d.sf r F.fusStat.LEVEL new).sf r F.fusStat.STOP (b2n stop)
  let d2 := if old = new ∧ d.fusStop = stop then d1 else d1.fusLine now
  let d3 := if old = new then d2 else (d2.wn (r0 .fusLadderAt) now).ladderRecord now old new cause subj key
  d3.syncStop now

/-- The ladder takes a level of its own (R290). -/
def Dev.setLadder (d : Dev) (now lv cause subj : Nat) (key : Key) : Dev :=
  let leaves := d.fus.ladder == 4 && decide (lv < 4)
  (d.modFus fun f => { f with ladder := lv, everLeft := f.everLeft || leaves, whiteLeftAt := if leaves then some now else f.whiteLeftAt }).ladderSync
    now cause subj key

/-- Whether a stream is excluded by age, waiting, or outvoted. -/
def Dev.strBad (d : Dev) (s : FusStream) : Bool := [1, 3, 4].contains (d.strState s.stream)
def Dev.strExcl (d : Dev) (s : FusStream) : Bool := [1, 3].contains (d.strState s.stream)

/-- Whether another member of a stream's group contributes. -/
def Dev.groupHasOther (d : Dev) (s : FusStream) : Bool :=
  d.streams.any fun x => x.group == s.group && x.stream != s.stream && d.strState x.stream == 2

/-- The condition level with its cause and the stream or group concerned (R289, R291). -/
def Dev.condition (d : Dev) : Nat × Nat × Nat :=
  let ss := d.streams
  let ext := ss.filter (·.extero)
  match ss.find? fun s => s.role == 1 && d.strBad s with
  | some s => (4, 1, s.stream)
  | none => match ss.find? fun s => s.role == 2 && d.strBad s && !d.groupHasOther s with
    | some s => (4, 2, s.stream)
    | none =>
      if d.fus.ego = 2 then (4, 6, 0)
      else if 2 ≤ d.fus.missed then (4, 7, 0)
      else if ext ≠ [] ∧ ext.all d.strExcl then (3, 4, (ext.map (·.stream)).headD 0)
      else match d.fus.contested with
        | g :: _ => (2, 3, g)
        | [] => match ss.find? fun s => s.role == 2 && d.strBad s with
          | some s => (1, 2, s.stream)
          | none => if d.fus.ego = 1 then (1, 5, 0) else (0, 0, 0)

/-- The ladder is evaluated (R289, R290): it falls at once; the 500 ms count while the condition is less severe. -/
def Dev.evalLadder (d : Dev) (now : Nat) (key : Key) : Dev :=
  if d.fusEn = false then d
  else
    let c := d.condition
    let d1 := if d.fus.ladder < c.1 then d.setLadder now c.1 c.2.1 c.2.2 key else d
    d1.modFus fun f => { f with below := if c.1 < f.ladder then some (f.below.getD now) else none }

/-- LADDER_RISE (R290): the condition was less severe for 500 ms. -/
def execLadderRise (t : Nat) (s : State) : Host.Outcome State Fault Refusal :=
  s.run t fun now d =>
    match d.fus.below with
    | some b =>
      if d.fusEn ∧ 0 < d.fus.ladder ∧ d.condition.1 < d.fus.ladder ∧ 500000000 ≤ d.elapsed b now then
        (let d1 := d.setLadder now (d.fus.ladder - 1) 9 0 ⟨now, d.src 0x0201, d.cntOf 0x0201⟩
         d1.modFus fun f => { f with below := if d.condition.1 < f.ladder then some now else none })
      else d
    | none => d

/-- An age wait of a stream committed EXPIRED (R272): the stream is excluded by age, which breaks an EGO 1 stream's 500 ms of R279,
and the ladder is evaluated at once. -/
def Dev.streamExpired (d : Dev) (now m : Nat) (k : Key) : Dev :=
  if d.strState m = 2 ∨ d.strState m = 4 then
    (let d1 := if d.streams.any fun s => s.stream == m && s.ego == 1 then d.modFus fun f => { f with egoCleanSince := none } else d
     (d1.setStr m 3).evalLadder now k)
  else d

/-- A raw value in FP32 times SCALE (R265). -/
def FusStream.convert (s : FusStream) (v : Nat) : Nat :=
  let x := if s.srcfmt = 0 then dec32 (v % 2 ^ 32) else if s.srcfmt = 1 then (⟨5, 10, 15, 1⟩ : Layout).decode (v % 2 ^ 16)
    else FV.ofInt (sext 32 v) 0
  enc32 (x.mul (dec32 s.scale))

/-- A sample's place among those of its stream, the newest first. -/
def insertSample (x : FusSample) : List FusSample → List FusSample
  | [] => [x]
  | y :: rest => if y.stamp ≤ x.stamp then x :: y :: rest else y :: insertSample x rest

/-- A record's contribution that a sample supersedes (R281). -/
def FusRecd.affected (r : FusRecd) (s : FusStream) (x : FusSample) : Bool :=
  decide (x.eff ≤ r.tov) && r.conf.streams.any s.same && (match (tget r.contrs s.stream).bind FusContr.sample with
    | some y => decide (y.stamp < x.stamp)
    | none => true)

/-- The replay must go on from the earlier of its position and a record (R281, R283). -/
def Dev.replayFrom (d : Dev) (tov : Nat) : Dev :=
  (d.modFus fun f => { f with replay := some (match f.replay with
    | some p => min p tov
    | none => tov) }).sf (r0 .fusStat) F.fusStat.REPLAY 1

/-- A late sample (R281): dropped where it is older than the history, else the affected records are replayed. -/
def Dev.lateSample (d : Dev) (s : FusStream) (x : FusSample) : Dev :=
  let d1 := d.sf (r1 .fusStrStat s.stream) F.fusStrStat.LATE 1
  match (d1.fus.hist.filter fun r => r.affected s x).head? with
  | some r => d1.replayFrom r.tov
  | none => d1

/-- The age wait of a stream and the sample that arrives for it, in a record of source src (R272, R46 to R48). -/
def Dev.ageWait (d : Dev) (now src : Nat) (s : FusStream) (x : FusSample) : Dev :=
  let k : Key := ⟨x.stamp, src, x.cnt⟩
  let d1 := match d.waitAny (.age s.stream) with
    | some (id, w) =>
      let e := d.expire now id
      let p := (if e.1 then e.2.streamExpired now s.stream (e.2.waitKey id w) else e.2).arrive now id k
      if (tget p.2.waits id).elim false fun w => w.outcome.isNone then p.2 else { p.2 with waits := tdel p.2.waits id }
    | none => d
  (d1.addWait { owner := .age s.stream, deadline := satAdd dtMax x.stamp s.maxAge, guard := d1.fusGuard, src := 0x0202 }).2

/-- A stream takes a sample that a record of source src carries (R271, R272, R281); values that its source does not give are free
values. -/
def Dev.takeSample (d0 : Dev) (now src : Nat) (s : FusStream) (stamp cnt : Nat) (unc : Bool) (bound : Nat) (raw : List Nat) : Dev :=
  let vals := (List.range s.nval).map fun i => match raw[i]? with
    | some v => s.convert v
    | none => Config.freeNat (d0.free + i) % 2 ^ 32
  let d := if raw.length < s.nval then { d0 with free := d0.free + s.nval } else d0
  let stands := stamp + (if unc then bound else 0)
  let lateFor (tv guard : Nat) : Bool := decide (stands ≤ tv) && decide (guard < d.elapsed tv now)
  let late := (d.fus.newestTov.elim false fun tv => lateFor tv d.fus.newestGuard) ||
    (d.fusEn && (tget d.cue.trig 2).elim false fun tv => lateFor tv d.fusGuard)
  let x : FusSample := ⟨stamp, cnt, now, unc, bound, vals, late⟩
  let old := match d.fus.newestTov with
    | some tv => late && decide (64000000 < d.elapsed stamp tv)
    | none => false
  if old then
    ((((d.incSat (r0 .fusLate) F.fusLate.DROPPED).sf (r0 .fusStat) F.fusStat.LATE_DROP 1).sf (r1 .fusStrStat s.stream) F.fusStrStat.LATE 1).raise
      202).almMc 0x060 1 now [s.stream, stamp, now]
  else
    let had := tgetD d.fus.samples s.stream []
    let newer := had.all fun y => decide (y.stamp < stamp)
    let d1 := d.modFus fun f => { f with samples := tset f.samples s.stream (insertSample x had) }
    let d2 := if newer then (d1.wn (r1 .fusStrLast s.stream) stamp).ageWait now src s x else d1
    let d3 := if d2.strState s.stream = 1 then d2.setStr s.stream 2 else d2
    if late then d3.lateSample s x else d3

/-- Every stream of a source takes a sample (R264, R393). -/
def Dev.sampleFor (d : Dev) (now src kind source stamp cnt : Nat) (unc : Bool) (bound : Nat) (raw : List Nat) : Dev :=
  (d.streams.filter fun s => s.kind == kind && s.source == source).foldl (fun d s => d.takeSample now src s stamp cnt unc bound raw) d

/-- The source id of the record in which a sample of a kind and SOURCE arrives (R44, R387). -/
def sampleSrc (kind source : Nat) : Nat :=
  let u := source / 2 ^ 28
  match kind with
  | 0 => 0x0100 + 2 * u
  | 1 => 0x0140 + u
  | 2 => 0x0130 + 2 * u
  | 3 => 0x0010 + source % 32
  | _ => 0x0110 + 2 * u

/-- A whole number in a stream's SRCFMT (R264, KIND 3). -/
def FusStream.ofCount (s : FusStream) (v : Nat) : Nat :=
  if s.srcfmt = 0 then enc32 (.fin false v 0) else if s.srcfmt = 1 then (⟨5, 10, 15, 1⟩ : Layout).encode none false (.fin false v 0) else v % 2 ^ 32

/-- The streams that consume a capture channel take its record (R51, R264): the count of the channel's edges so far and the edge's polarity, 1
for rising (log entry 31). -/
def Dev.feedCapture (d : Dev) (x : CapOut) : Dev :=
  if d.on 149 = false then d
  else (d.streams.filter fun s => s.kind == 3 && s.source == x.chan).foldl (fun (d : Dev) s =>
    d.takeSample x.at_ (d.src (0x0010 + x.chan)) s x.stamp x.cnt x.unc 0 [s.ofCount (x.cnt + 1), s.ofCount (b2n x.rising)]) d

/-- Every capture record goes to the blocks that consume its channel (R51). -/
def Dev.feedCaptures (d : Dev) : Dev :=
  d.cue.out.foldl (fun (d : Dev) x => d.feedCapture x) { d with cue := { d.cue with out := [] } }

/-- Run an effect and deliver the capture records it produced (R51). -/
def State.runFed (s : State) (t : Nat) (f : Nat → Dev → Dev) : Host.Outcome State Fault Refusal := s.run t fun now d => (f now d).feedCaptures

/-- SAMPLE_ARRIVE (R264, R265, R271, R272): a sample of a source with its stamp, its counter, TS_UNCERTAIN with its bound, and its values as
received. -/
def execSampleArrive (t kind source stamp cnt : Nat) (unc : Bool) (bound : Nat) (raw : List Nat) (s : State) : Host.Outcome State Fault Refusal :=
  s.run t fun now d => if d.on 149 ∧ kind ≤ 5 ∧ kind ≠ 4 then d.sampleFor now (d.src (sampleSrc kind source)) kind source stamp cnt unc bound raw else d

/-- A post to a sample port (R269): the record at the index of the port's ring. -/
def Dev.samplePost (d : Dev) (now p idx : Nat) : Dev :=
  let r := r1 .fusPortRing p
  if d.fb r F.fusPortRing.VALID = false ∨ d.f r F.fusPortRing.ENTRIES < idx then d
  else
    let a := d.f r F.fusPortRing.ADDR + 96 * idx
    let k := Key.ofBytes (d.mem.read a 16)
    d.sampleFor now k.src 4 (p * 2 ^ 28) k.dt k.cnt false 0 ((List.range 16).map fun i => d.mem.le (a + 16 + 4 * i) 4)

/-- Whether an initiator class posts for the context that claimed a sample port (R269). -/
def Dev.ownsPort (d : Dev) (c p : Nat) : Bool :=
  match d.owner 0x0C p with
  | some (.ctx n) => match d.ctx? n with
    | some x => (d.f (r1 .pmapMbx x.mbx) F.pmapMbx.INIT).testBit c
    | none => false
  | _ => false

/-- SAMPLE_POST (R269): initiator class c writes an index to FUS_PORTp_POST. -/
def execSamplePost (t c p idx : Nat) (s : State) : Host.Outcome State Fault Refusal :=
  s.regAccess t c (r1 .fusPortPost p) .write fun now d =>
    if p < 16 ∧ d.ownsPort c p then d.samplePost now p (idx % 256) else { d with bus := .accessFault }

/-- Whether two members contradict (R285). -/
def contradict (gate : Nat) (a b : Nat × Nat) : Bool :=
  flt gate (fdiv (fabs (fsub a.1 b.1)) (fsqrt (fadd (fmul a.2 a.2) (fmul b.2 b.2))))

/-- The counts of a group after an evaluation (R287): members as (stream, value, sigma). -/
def FusGroupSt.step (g : FusGroupSt) (gate : Nat) (ms : List (Nat × Nat × Nat)) : FusGroupSt :=
  match ms with
  | [a, b] =>
    let u := contradict gate a.2 b.2
    let zero (t : Tbl Nat) : Tbl Nat := tset (tset t a.1 0) b.1 0
    { g with odd := zero g.odd, agree := zero g.agree, unres := if u then g.unres + 1 else 0, clear := if u then 0 else g.clear + 1 }
  | [a, b, c] =>
    let ab := contradict gate a.2 b.2
    let ac := contradict gate a.2 c.2
    let bc := contradict gate b.2 c.2
    let u := ab && ac && bc
    let one (m : Nat) (x y other : Bool) (g : FusGroupSt) : FusGroupSt :=
      { g with odd := tset g.odd m (if x && y && !other then tgetD g.odd m 0 + 1 else 0), agree := tset g.agree m (if !x && !y then tgetD g.agree m 0 + 1 else 0) }
    let g1 := one c.1 ac bc ab (one b.1 ab bc ac (one a.1 ab ac bc g))
    { g1 with unres := if u then g.unres + 1 else 0, clear := if u then 0 else g.clear + 1 }
  | _ => g

/-- One group at a cut-off (R286, R287). -/
def Dev.evalGroup (d : Dev) (cs : Tbl FusContr) (x : FusGroup) : Dev :=
  let members := d.streams.filter (·.group == x.num)
  let part := members.filterMap fun s => match tget cs s.stream with
    | some c => if c.excl then none else c.sample.map fun y => (s, y)
    | none => none
  let g := tgetD d.fus.groups x.num {}
  let fresh := part.all fun p => match tget g.last p.1.stream with
    | some l => decide (l < p.2.stamp)
    | none => true
  if part.length < 2 ∨ fresh = false then d
  else
    let last := part.foldl (fun (t : Tbl Nat) p => tset t p.1.stream p.2.stamp) g.last
    let tsu := part.any fun p => p.2.unc
    let g1 := if tsu then { g with last := last } else
      { g.step x.gate (part.map fun p => (p.1.stream, p.2.vals.getD p.1.gval 0, p.1.sigma)) with last := last }
    let n := x.ncon
    let three := part.length == 3
    let outs := part.filter fun p => !tsu && three && decide (n ≤ tgetD g1.odd p.1.stream 0)
    let ins := part.filter fun p => !tsu && three && decide (n ≤ tgetD g1.agree p.1.stream 0)
    let outv := (d.fus.outv.filter fun m => !(ins.any (·.1.stream == m))) ++
      ((outs.map (·.1.stream)).filter fun m => !(d.fus.outv.contains m))
    let was := d.fus.contested.contains x.num
    let cont := if tsu then was else if was then decide (g1.clear < n) else decide (n ≤ g1.unres)
    d.modFus fun f => { f with groups := tset f.groups x.num g1, outv := outv, contested := (f.contested.filter (· != x.num)) ++ (if cont then [x.num] else []) }

/-- The ego-motion source at a cut-off (R279): 0 odometry-inertial, 1 visual-inertial, 2 none. -/
def Dev.egoSelect (d : Dev) (tov : Nat) (cs : Tbl FusContr) : Dev :=
  let bad (s : FusStream) : Bool := match tget cs s.stream with
    | some c => c.excl || c.outv
    | none => true
  let cont (s : FusStream) : Bool := (tget cs s.stream).elim false FusContr.cont
  let e1 := d.streams.filter (·.ego == 1)
  let e2 := d.streams.filter (·.ego == 2)
  let odoOk := e1 != [] && !(e1.any bad)
  let visOk := e2 != [] && !(e2.any bad)
  let clean := odoOk && !(e1.any cont)
  let since : Option Nat := if clean then some (d.fus.egoCleanSince.getD tov) else none
  let start := decide (d.elapsed d.fus.enabledAt tov < d.f (r0 .fusCtrl) F.fusCtrl.STARTUP * 10000000)
  let left := match d.fus.whiteLeftAt with
    | some w => decide (d.elapsed w tov < 500000000)
    | none => false
  let long := match since with
    | some c => decide (500000000 ≤ d.elapsed c tov)
    | none => false
  let vis : Nat := if visOk then 1 else 2
  let ego := match d.f (r0 .fusCtrl) F.fusCtrl.EGO_SEL with
    | 1 => vis
    | 2 => if odoOk then 0 else 2
    | _ => if long && !start && !left then 0 else vis
  (d.modFus fun f => { f with ego := ego, egoCleanSince := since }).sf (r0 .fusStat) F.fusStat.EGO ego

/-- A stream that is no longer outvoted contributes again (R267, R290). -/
def Dev.votedIn (d : Dev) (m : Nat) : Dev := if d.strState m = 4 ∧ d.fus.outv.contains m = false then d.setStr m 2 else d

/-- FUS_CTRL takes a value (R290, R291): FLOOR 5 to 7 and EGO_SEL 3 leave their fields; EN from 0 to 1 starts the ladder and what counts
with it afresh; EN from 1 to 0 ends a run and a replay. -/
def Dev.fusCtrlWrite (d : Dev) (now v : Nat) (key : Key) : Dev :=
  let r := r0 .fusCtrl
  let was := d.fb r F.fusCtrl.EN
  let floor := d.f r F.fusCtrl.FLOOR
  let sel := d.f r F.fusCtrl.EGO_SEL
  let d0 := d.wn r (maskedWrite RegName.fusCtrl.info false (d.rn r) v)
  let d1 := if 4 < d0.f r F.fusCtrl.FLOOR then d0.sf r F.fusCtrl.FLOOR floor else d0
  let d2 := if d1.f r F.fusCtrl.EGO_SEL = 3 then d1.sf r F.fusCtrl.EGO_SEL sel else d1
  if !was && d2.fb r F.fusCtrl.EN then
    (let d3 := d2.modFus fun f => { f with groups := [], outv := [], contested := [], enabledAt := now, whiteLeftAt := none, egoCleanSince := none, cut := 0, missed := 0, below := none }
     let d4 := (List.range 128).foldl (fun (d : Dev) m => ((d.sf (r1 .fusStrStat m) F.fusStrStat.EXCL 0).sf (r1 .fusStrStat m) F.fusStrStat.CONTESTED 0).votedIn m) d3
     d4.setLadder now 4 10 0 key)
  else
    let d3 := if was && !(d2.fb r F.fusCtrl.EN) then (d2.modFus fun f => { f with run := none, replay := none }).sf (r0 .fusStat) F.fusStat.REPLAY 0 else d2
    d3.ladderSync now 8 0 key

/-- A stream's age wait runs to the MAX_AGE of the configuration in force (R272). -/
def Dev.ageAgain (d : Dev) (s : FusStream) : Dev :=
  match (tgetD d.fus.samples s.stream []).head?, d.waitAny (.age s.stream) with
  | some x, some (id, _) => ({ d with waits := tdel d.waits id }.addWait { owner := .age s.stream, deadline := satAdd dtMax x.stamp s.maxAge, guard := d.fusGuard, src := 0x0202 }).2
  | _, _ => d

/-- A configuration takes effect (R267, R268): removed streams are unconfigured, new ones wait; changed groups start afresh; the ports'
rings are shown.  The samples of a stream that goes stay for the records held, which keep their configuration. -/
def Dev.fusApply (d : Dev) (conf : FusConf) : Dev :=
  let old := d.streams
  let oldGroups := d.fus.conf.elim [] FusConf.groups
  let keptGroup (g : Nat) : Bool := (conf.groups.filter (·.num == g)) == (oldGroups.filter (·.num == g)) &&
    (conf.streams.filter (·.group == g)) == (old.filter (·.group == g))
  let gone (m : Nat) : Bool := !(conf.streams.any fun s => s.stream == m && d.keepsStream s)
  let d1 := d.modFus fun f => { f with conf := some conf, samples := f.samples.filter fun e => !gone e.1, past := ((old.filter fun s => gone s.stream).map fun s => (s, d.samplesOf s)) ++ f.past.filter fun e => !(old.any fun s => gone s.stream && s.same e.1), outv := f.outv.filter fun m => !gone m && (conf.streams.any fun s => s.stream == m && keptGroup s.group), contested := f.contested.filter keptGroup, groups := f.groups.filter fun e => keptGroup e.1 }
  let d2 := { d1 with waits := d1.waits.filter fun e => match e.2.owner with
    | .age m => !gone m
    | _ => true }
  let d3 := (List.range 128).foldl (fun (d : Dev) m =>
    if gone m then (if conf.streams.any (·.stream == m) then (d.wn (r1 .fusStrStat m) 1).wn (r1 .fusStrLast m) 0 else (d.wn (r1 .fusStrStat m) 0).wn (r1 .fusStrLast m) 0) else d.votedIn m) d2
  let d4 := (conf.streams.filter fun s => old.any fun x => x.stream == s.stream && x.maxAge != s.maxAge).foldl (fun (d : Dev) s => d.ageAgain s) d3
  (List.range 16).foldl (fun (d : Dev) p =>
    let r := r1 .fusPortRing p
    match tget conf.ports p with
    | some (n, a) => ((d.sf r F.fusPortRing.ENTRIES (n - 1)).sf r F.fusPortRing.VALID 1).sf r F.fusPortRing.ADDR a
    | none => d.wn r 0) d4

/-- A cut-off has no record (R273): MISSED, the almanac, the EIC; two in a row are a condition of the ladder. -/
def Dev.fusMissed (d : Dev) (now : Nat) (x : FusRun) : Dev :=
  let d1 := (d.modFus fun f => { f with run := none, missed := f.missed + 1 }).sf (r0 .fusStat) F.fusStat.MISSED 1
  ((d1.raise 201).almMc 0x060 1 now [x.tov, x.cut]).evalLadder now ⟨x.tov, d1.src 0x0200, 0⟩

/-- What waits for the next cut-off (R267): configuration and FUS_CTRL; the commands complete. -/
def Dev.fusPending (d : Dev) (now : Nat) (key : Key) : Dev :=
  match d.fus.pend with
  | none => d
  | some (c, v) =>
    let d1 := match c with
      | some x => d.fusApply x
      | none => d
    let d2 := (d1.modFus fun f => { f with pend := none }).fusCtrlWrite now v key
    (d2.stew.inflight.filter fun r => r.code == 0x0801 && r.decided).foldl (fun (d : Dev) r => d.finish now r .ok 0 []) d2

/-- A cut-off with its ToV (R270 to R272, R279, R286, R289): contributions, groups, outvotes, the ego source, the ladder, and the
estimator's start. -/
def Dev.cutoff (d0 : Dev) (now tov : Nat) : Dev :=
  let key := d0.cueKey 2 tov
  let d1 := ({ d0 with cue := { d0.cue with trig := tdel d0.cue.trig 2 } }).fusPending now key
  if d1.fusEn = false ∨ d1.fus.conf.isNone then d1
  else
    let d2 := match d1.fus.run with
      | some x => d1.fusMissed now x
      | none => d1
    let by_ := tov + d2.fusGuard
    let cs0 := d2.streams.map fun s => (s.stream, d2.contr s tov by_ (d2.fus.outv.contains s.stream) false)
    let d3 := (d2.fus.conf.elim [] FusConf.groups).foldl (fun d g => d.evalGroup cs0 g) d2
    let cs := d3.streams.map fun s => (s.stream, d3.contr s tov by_ (d3.fus.outv.contains s.stream) (d3.fus.contested.contains s.group))
    let d4 := cs.foldl (fun (d : Dev) (c : Nat × FusContr) =>
      let st := if c.2.sample.isNone && d.strState c.1 == 1 then 1 else if c.2.excl then 3 else if c.2.outv then 4 else 2
      let tsu := c.2.sample.elim false FusSample.unc
      (((d.setStr c.1 st).sf (r1 .fusStrStat c.1) F.fusStrStat.CONTESTED (b2n c.2.cont))).sf (r1 .fusStrStat c.1) F.fusStrStat.TSU
        (if c.2.excl then d.f (r1 .fusStrStat c.1) F.fusStrStat.TSU else b2n tsu)) d3
    let d5 := (d4.egoSelect tov cs).evalLadder now key
    d5.modFus fun f => { f with run := some ⟨tov, f.cut, d2.fusGuard, cs, f.ego⟩, cut := (f.cut + 1) % 2 ^ 32, newestTov := some tov, newestGuard := d2.fusGuard, samples := tmap f.samples fun _ l => l.filter fun x => decide (tov ≤ x.stamp + 128000000) || some x == l.head?, past := (f.past.map fun e => (e.1, e.2.filter fun x => decide (tov ≤ x.stamp + 192000000))).filter fun e => !e.2.isEmpty }

/-- CUTOFF (R271): the fire of trigger target 0x02 is the ToV; contributions are those delivered by ToV + GUARD. -/
def execCutoff (t : Nat) (s : State) : Host.Outcome State Fault Refusal :=
  s.run t fun now d =>
    match tget d.cue.trig 2 with
    | some tov => if d.on 149 ∧ d.fusGuard < d.elapsed tov now then d.feedCaptures.cutoff now tov else d
    | none => d

/-- The age code of an age in ns (R276). -/
def ageCode (ns : Nat) : Nat :=
  let us := (ns + 999) / 1000
  (lowest 0xFE fun c => decide (us ≤ (if c < 16 then c else (16 + c % 16) * 2 ^ (c / 16 - 1)))).getD 0xFD

/-- The value that stands for a contested group's members (R288). -/
def conservative (rule : Nat) (vs : List Nat) : Nat :=
  match rule with
  | 0 => vs.foldl (fun a b => if flt b a then b else a) (vs.headD 0)
  | 1 => vs.foldl (fun a b => if flt a b then b else a) (vs.headD 0)
  | 2 => if vs.any fun v => fle 0x3F000000 v then 0x3F800000 else 0
  | _ => vs.foldl (fun a b => if flt (fabs b) (fabs a) then b else a) (vs.headD 0)

/-- What the estimator reads of a stream (R273, R288). -/
def FusConf.inputOf (c : FusConf) (cs : Tbl FusContr) (s : FusStream) : List Nat :=
  match tget cs s.stream with
  | some x =>
    let use := !x.excl && !x.outv
    let vals := x.sample.elim [] FusSample.vals
    let group := c.groups.find? (·.num == s.group)
    let mates := (c.streams.filter (·.group == s.group)).filterMap fun m => match tget cs m.stream with
      | some y => if y.excl || y.outv then none else y.sample.map fun z => z.vals.getD m.gval 0
      | none => none
    let vals1 := match x.cont, group with
      | true, some g => vals.set s.gval (conservative g.conserve mates)
      | _, _ => vals
    [s.stream, b2n use, x.sample.elim 0 FusSample.stamp, b2n (x.sample.elim false FusSample.unc)] ++ (if use then vals1 else [])
  | none => [s.stream, 0, 0, 0]

/-- One estimator run (R273, R280). -/
def FusConf.estimate (c : FusConf) (before : List Nat) (tov ego : Nat) (cs : Tbl FusContr) : List Nat :=
  Config.estimator c.program before ([tov, ego] ++ c.streams.flatMap fun s => c.inputOf cs s)

/-- The value block's entry of a stream (R277). -/
def fusValue (c : Option FusContr) : List Byte :=
  match c with
  | none => leBytes 80 0
  | some x =>
    let use := !x.excl && !x.outv
    let y := if use then x.sample else none
    let flags := b2n use + 2 * b2n x.excl + 4 * b2n (x.outv && !x.excl) + 8 * b2n x.cont + 16 * b2n (y.elim false FusSample.unc) + 32 * b2n (y.elim false FusSample.late)
    leBytes 8 (y.elim 0 FusSample.stamp) ++ leBytes 4 (y.elim 0 FusSample.cnt) ++ leBytes 4 flags ++
      ((List.range 16).flatMap fun i => leBytes 4 ((y.elim [] FusSample.vals).getD i 0))

/-- The fused record and its value block (R275 to R277). -/
def Dev.fusRecord (d : Dev) (key : Key) (r : FusRecd) (amended : Bool) : List Byte :=
  let used := r.contrs.filter fun c => !c.2.excl && !c.2.outv
  let ages := used.filterMap fun c => c.2.sample.map fun x => (c.1, d.ageAt x r.tov)
  let oldest := ages.foldl (fun (m : Nat × Nat) a => if m.2 < a.2 then a else m) (ages.headD (0, 0))
  let unc := used.any fun c => c.2.sample.elim false FusSample.unc
  let w16 := d.level * 2 ^ 27 + r.ego * 2 ^ 25 + b2n amended * 2 ^ 24 + b2n unc * 2 ^ 23 + b2n (r.contrs.any (·.2.cont)) * 2 ^ 22 + b2n d.fusStop * 2 ^ 21 + r.rev % 2 ^ 16
  let w20 := speedOf d.level * 2 ^ 24 + used.length % 256 * 2 ^ 16 + (r.contrs.length - used.length) % 256 * 2 ^ 8
  let code (m : Nat) : Nat := match tget r.contrs m with
    | some c => match c.sample with
      | some x => if c.excl || c.outv then 0xFE else ageCode (d.ageAt x r.tov)
      | none => 0xFF
    | none => 0xFF
  key.bytes ++ leBytes 4 w16 ++ leBytes 4 w20 ++ leBytes 8 r.tov ++ leBytes 4 oldest.2 ++ leBytes 4 (oldest.1 * 2 ^ 25) ++ leBytes 4 r.cut ++ leBytes 4 0 ++
    ((List.range 17).flatMap fun i => leBytes 4 (r.after.getD i 0)) ++ leBytes 12 0 ++ ((List.range 128).map fun m => BitVec.ofNat 8 (code m)) ++
    ((List.range 128).flatMap fun m => fusValue (tget r.contrs m))

/-- A record goes to its consumers (R274, R278, R281, R282): the log, the class-0 input buffer and the subscribers; the history's traffic is
charged to class 1; a record's amendments go to the subscribers that took the record.  newest: the record is the newest published. -/
def Dev.fusPublish (d : Dev) (now : Nat) (r : FusRecd) (newest : Bool) : Dev :=
  let p := d.draw 0x0200 now
  let amended := decide (0 < r.rev)
  let bs := p.2.fusRecord p.1 r amended
  let unc := r.contrs.any fun c => !c.2.excl && !c.2.outv && c.2.sample.elim false FusSample.unc
  let d1 := (p.2.log ⟨p.1, if amended then .amendment else .fused, unc, [r.tov, r.cut, r.rev, d.level, r.ego]⟩).charge now 1 4 10496
  let d2 := if newest then d1.class0Inputs.foldl (fun (d : Dev) (le : Nat × Nat) => d.deviceIn now le.1 le.2 bs now) d1 else d1
  d2.liveSubs.foldl (fun (d : Dev) (e : Nat × FusSub) =>
    if amended then (if !(r.takers.contains e.1) || (!newest && (e.2.kind == 0 || e.2.last)) then d else d.toSub now e.1 e.2 bs)
    else
      let dn := d.modFus fun f => { f with subs := tmod f.subs e.1 fun s => { s with count := s.count + 1 } }
      if r.takers.contains e.1 then dn.toSub now e.1 e.2 bs else dn) d2

/-- Subscribers whose turn the next record is (R278): every Nth record. -/
def Dev.takersNow (d : Dev) : List Nat := (d.liveSubs.filter fun e => e.2.count % max 1 e.2.every == 0).map (·.1)

/-- FUSED_RECORD_PUBLISH (R273): the estimator finishes and the record is published. -/
def Dev.fusFinish (d : Dev) (now : Nat) (x : FusRun) (conf : FusConf) : Dev :=
  let after := conf.estimate d.fus.est x.tov x.ego x.contrs
  let r : FusRecd := { tov := x.tov, cut := x.cut, rev := 0, guard := x.guard, conf := conf, contrs := x.contrs, ego := x.ego, before := d.fus.est, after := after, takers := d.takersNow }
  let d1 := d.modFus fun f => { f with run := none, missed := 0, est := after, hist := (f.hist.filter fun h => decide (d.elapsed h.tov x.tov ≤ 64000000)) ++ [r] }
  let d2 := d1.fusPublish now r true
  if conf.streams.any fun s => (match d2.newest s x.tov now with
      | some y => r.affected s y
      | none => false) then d2.replayFrom x.tov else d2

/-- FUSED_RECORD_PUBLISH (R273). -/
def execFusedRecordPublish (t : Nat) (s : State) : Host.Outcome State Fault Refusal :=
  s.run t fun now d =>
    match d.fus.run, d.fus.conf with
    | some x, some c => if d.fusEn ∧ d.elapsed x.tov now ≤ x.guard + c.estNs + 500 then d.fusFinish now x c else d
    | _, _ => d

/-- ESTIMATOR_TIMEOUT (R273): a run reaches EST_NS. -/
def execEstimatorTimeout (t : Nat) (s : State) : Host.Outcome State Fault Refusal :=
  s.run t fun now d =>
    match d.fus.run, d.fus.conf with
    | some x, some c => if d.fusEn ∧ x.guard + c.estNs ≤ d.elapsed x.tov now then d.fusMissed now x else d
    | _, _ => d

/-- The next record of a replay is computed and published again (R281 to R283). -/
def Dev.amend (d : Dev) (now pos : Nat) : Dev :=
  let stop (d : Dev) : Dev := (d.modFus fun f => { f with replay := none }).sf (r0 .fusStat) F.fusStat.REPLAY 0
  match d.fus.hist.find? fun r => decide (pos ≤ r.tov) with
  | none => stop d
  | some r =>
    let prior := (d.fus.hist.filter fun h => decide (h.tov < r.tov)).getLast?
    let before := prior.elim r.before FusRecd.after
    let cs := r.contrs.map fun c => match r.conf.streams.find? (·.stream == c.1) with
      | some s => (c.1, d.contr s r.tov now c.2.outv c.2.cont)
      | none => c
    let r1 : FusRecd := { r with rev := r.rev + 1, contrs := cs, before := before, after := r.conf.estimate before r.tov r.ego cs }
    let newest := some r.tov == (d.fus.hist.getLast?.map FusRecd.tov)
    let d1 := (d.modFus fun f => { f with est := r1.after, replay := some (r.tov + 1), hist := f.hist.map fun h => if h.tov = r.tov then r1 else h }).incSat (r0 .fusLate) F.fusLate.AMENDS
    let d2 := d1.fusPublish now r1 newest
    if newest then stop d2 else d2

/-- AMENDMENT (R282, R283): a cut-off's run comes first. -/
def execAmendment (t : Nat) (s : State) : Host.Outcome State Fault Refusal :=
  s.run t fun now d =>
    match d.fus.replay with
    | some pos => if d.fusEn ∧ d.fus.run.isNone then d.amend now pos else d
    | none => d

/-- A stream descriptor's fields (R266), a group descriptor's (R285). -/
def FusStream.parse (bs : List Byte) : FusStream :=
  let w := bytesAt bs 0 4
  { gen := bits w 30 2, kind := bits w 26 4, role := bits w 24 2, extero := w.testBit 23, ego := bits w 21 2, nval := bits w 16 5, stream := bits w 8 7,
    srcfmt := bits w 5 3, source := bytesAt bs 4 4, maxAge := bytesAt bs 8 4, group := bytesAt bs 15 1, gval := bits (bytesAt bs 12 4) 20 4,
    sigma := bytesAt bs 16 4, scale := bytesAt bs 20 4 }
def FusGroup.parse (bs : List Byte) : FusGroup :=
  let w := bytesAt bs 0 4
  { gen := bits w 30 2, num := bits w 24 6, conserve := bits w 22 2, ncon := bits w 18 4, gate := bytesAt bs 4 4 }

/-- The fields of SOURCE that a kind leaves reserved (R393), and whether its port or unit and MATCH are in range. -/
def sourceRsvd (kind src : Nat) : Nat :=
  if kind = 0 ∨ kind = 5 then (if bits src 26 2 = 0 then bits src 16 10 else 0)
  else if kind = 1 then bits src 14 14 + bits src 4 4
  else if kind = 2 then bits src 22 6
  else if kind = 3 then bits src 5 23
  else if kind = 4 then bits src 0 28
  else 0
def FusStream.sourceOk (s : FusStream) : Bool :=
  let units := [4, 2, 4, 1, 16, 8].getD s.kind 16
  decide (s.source / 2 ^ 28 < units) && ((s.kind != 0 && s.kind != 5) || decide (bits s.source 26 2 < 2))

/-- The sections of a configuration object (R268): offset, entry size and count of streams, groups, ports and the estimator. -/
def fusSections (h : List Byte) : List (Nat × Nat) :=
  let w := bytesAt h 0 4
  [(bytesAt h 8 4, 32 * bits w 8 8), (bytesAt h 12 4, 8 * bits w 16 8), (bytesAt h 16 4, 16 * bits w 0 5), (bytesAt h 20 4, bytesAt h 24 4)]

/-- A configuration object's parts. -/
def fusParse (h streams groups ports est : List Byte) : FusConf :=
  let w := bytesAt h 0 4
  { streams := (List.range (bits w 8 8)).map fun i => FusStream.parse ((streams.drop (32 * i)).take 32)
    groups := (List.range (bits w 16 8)).map fun i => FusGroup.parse ((groups.drop (8 * i)).take 8)
    ports := (List.range (bits w 0 5)).map fun i => (bits (bytesAt ports (16 * i) 4) 24 4, (bits (bytesAt ports (16 * i) 4) 16 8 + 1, bytesAt ports (16 * i + 8) 6))
    estNs := bytesAt h 4 4, program := est }

/-- The reserved fields of a configuration object, each with its offset (R266, R268, R285). -/
def fusRsvd (h streams groups ports : List Byte) : List (Bool × Nat) :=
  let w := bytesAt h 0 4
  let so := bytesAt h 8 4
  let go := bytesAt h 12 4
  let po := bytesAt h 16 4
  [(bits w 24 6 == 0, 3), (bits w 5 3 == 0, 0), (bytesAt h 28 36 == 0, 28)] ++
  ((List.range (streams.length / 32)).flatMap fun i =>
    let b := (streams.drop (32 * i)).take 32
    let x := FusStream.parse b
    [(bits (bytesAt b 0 4) 15 1 == 0, so + 32 * i + 1), (bits (bytesAt b 0 4) 0 5 == 0, so + 32 * i), (sourceRsvd x.kind x.source == 0, so + 32 * i + 4),
     (bits (bytesAt b 12 4) 0 20 == 0, so + 32 * i + 12), (bytesAt b 24 8 == 0, so + 32 * i + 24)]) ++
  ((List.range (groups.length / 8)).map fun i => (bits (bytesAt groups (8 * i) 4) 0 18 == 0, go + 8 * i)) ++
  ((List.range (ports.length / 16)).flatMap fun i =>
    let e := (ports.drop (16 * i)).take 16
    [(bits (bytesAt e 0 4) 28 2 == 0, po + 16 * i + 3), (bits (bytesAt e 0 4) 0 16 == 0, po + 16 * i), (bytesAt e 4 4 == 0, po + 16 * i + 4),
     (bytesAt e 14 2 == 0, po + 16 * i + 14)])

/-- Whether stretches of an object keep to their places, each with the offset of its field (R268). -/
def sectionsOk (size : Nat) (ss : List (Nat × Nat)) : List (Bool × Nat) :=
  (List.range ss.length).map fun i =>
    let a := ss.getD i (0, 0)
    (a.2 == 0 || (a.1 % 64 == 0 && decide (64 ≤ a.1) && decide (a.1 + a.2 ≤ size) && (List.range i).all fun j =>
      let b := ss.getD j (0, 0)
      b.2 == 0 || decide (a.1 + a.2 ≤ b.1) || decide (b.1 + b.2 ≤ a.1)), 8 + 4 * i)

/-- The header's checks (R268). -/
def fusHead (h : List Byte) (size : Nat) : List (Bool × Nat) :=
  let w := bytesAt h 0 4
  [(bits w 30 2 == 0, 3), (decide (bits w 16 8 ≤ 64), 2), (decide (1 ≤ bits w 8 8) && decide (bits w 8 8 ≤ 128), 1), (decide (bits w 0 5 ≤ 16), 0),
   (decide (64 ≤ bytesAt h 24 4) && decide (bytesAt h 24 4 ≤ 262144), 24)] ++ sectionsOk size (fusSections h)

/-- A stream descriptor's checks (R266, R267, R393), at its offset, with the descriptors before it. -/
def FusStream.checks (s : FusStream) (before : List FusStream) (groups : List FusGroup) (at_ : Nat) : List (Bool × Nat) :=
  [(s.gen == 0 && decide (s.kind ≤ 5) && decide (s.role < 3) && (s.role != 2 || s.group != 0xFF), at_ + 3),
   (decide (s.ego < 3) && decide (1 ≤ s.nval) && decide (s.nval ≤ 16) && ((s.kind != 0 && s.kind != 5) || bits s.source 26 2 != 0 || decide (s.nval ≤ 4)) &&
      (s.ego != 2 || before.all (·.ego != 2)), at_ + 2),
   (before.all (·.stream != s.stream), at_ + 1), (decide (s.srcfmt ≤ 2), at_),
   (s.sourceOk, at_ + 7), (before.all fun x => x.kind != s.kind || x.source != s.source, at_ + 4),
   (decide (1000 ≤ s.maxAge) && decide (s.maxAge ≤ 64000000), at_ + 8),
   (s.group == 0xFF || groups.any (·.num == s.group), at_ + 15), (s.group == 0xFF || decide (s.gval < s.nval), at_ + 14), (flt 0 s.sigma, at_ + 16)]

/-- The checks of the descriptors (R266 to R268, R285). -/
def FusConf.checks (c : FusConf) (h : List Byte) : List (Bool × Nat) :=
  let so := bytesAt h 8 4
  let go := bytesAt h 12 4
  let po := bytesAt h 16 4
  let members (g : Nat) : Nat := (c.streams.filter (·.group == g)).length
  (((List.range c.streams.length).zip c.streams).flatMap fun p => p.2.checks (c.streams.take p.1) c.groups (so + 32 * p.1)) ++
  (((List.range c.groups.length).zip c.groups).flatMap fun p =>
    [(p.2.gen == 0 && (c.groups.take p.1).all (·.num != p.2.num), go + 8 * p.1 + 3), (decide (1 ≤ p.2.ncon), go + 8 * p.1 + 2), (flt 0 p.2.gate, go + 8 * p.1 + 4),
     (decide (2 ≤ members p.2.num) && decide (members p.2.num ≤ 3), go + 8 * p.1)]) ++
  ((List.range c.ports.length).zip c.ports).flatMap fun p =>
    [((c.ports.take p.1).all (·.1 != p.2.1), po + 16 * p.1 + 3),
     (p.2.2.2 % 64 == 0 && decide (tierBase 1 ≤ p.2.2.2) && decide (p.2.2.2 + 96 * p.2.2.1 ≤ tierBase 1 + tierSize 1), po + 16 * p.1 + 8)]

/-- The cut-off period (R273): the PERIOD of the armed channel with trigger target 0x02, else 250,000 ticks. -/
def Dev.cutPeriod (d : Dev) : Nat :=
  match (List.range 64).find? fun n => d.fb (r1 .cueChCfg n) F.cueChCfg.ARM && d.f (r1 .cueChCfg n) F.cueChCfg.TRIG == 2 with
  | some n => d.f (r1 .cueChPeriod n) F.cueChPeriod.PERIOD
  | none => 250000

/-- The estimator's worst case fits a period (R273). -/
def estFits (guard est period : Nat) : Bool := decide (4 * (guard + est + 500) ≤ period)

/-- Whether the configuration in force fits a cut-off period (R273). -/
def Dev.estPeriodOk (d : Dev) (period : Nat) : Bool :=
  match d.fus.conf with
  | some c => estFits d.fusGuard c.estNs period
  | none => true

/-- The pieces of a configuration object in T1: its header, streams, groups, ports and estimator program. -/
def Dev.fusPieces (d : Dev) (l : Loc) : List Byte × List (List Byte) :=
  let h := d.locBytes l 0 64
  (h, (fusSections h).map fun s => d.locBytes l s.1 (min s.2 262144))

/-- The configuration that an object holds, or the first failing check (R266 to R268, R273), with GUARD and the cut-off period. -/
def Dev.fusLoad (d : Dev) (o : Obj) (l : Loc) (guard period : Nat) : Sum Fail FusConf :=
  if o.size < 64 then .inl (.badConfig, 32)
  else
    let p := d.fusPieces l
    let head := fusHead p.1 o.size
    let inside := head.all (·.1)
    let part (i : Nat) : List Byte := if inside then p.2.getD i [] else []
    let ports := part 2
    let conf := fusParse p.1 (part 0) (part 1) ports (part 3)
    let gens := (List.range (ports.length / 16)).map fun i => (bits (bytesAt ports (16 * i) 4) 30 2 == 0, bytesAt p.1 16 4 + 16 * i + 3)
    match firstFail [firstObj .badReserved (fusRsvd p.1 (part 0) (part 1) ports),
        firstObj .badConfig (head ++ [(estFits guard conf.estNs period, 4)] ++ (if inside then gens ++ conf.checks p.1 else []))] with
    | some f => .inl f
    | none => .inr conf

/-- Bytes the history reserves in T1: the records of 64 ms at the shortest cut-off period (R274, log entry 31). -/
def fusArea : Nat := 257 * 10496

/-- The checks of fuseConfig, in the order of R352. -/
def Dev.fuseConfigCheck (d : Dev) (r : Req) : Option Fail :=
  let ctrl := r.w32 4
  let guard := bits ctrl 8 8 * 100
  let named : Option Fail × Option FusConf := if r.w32 0 = 0 then (none, none) else match d.pinned1 (r.w32 0) with
    | none => (some (.badConfig, 32), none)
    | some (o, l) => match d.fusLoad o l guard d.cutPeriod with
      | .inl f => (some f, none)
      | .inr c => (none, some c)
  let est : Option Nat := match named.2 with
    | some c => some c.estNs
    | none => match d.fus.pend with
      | some (some c, _) => some c.estNs
      | _ => d.fus.conf.map FusConf.estNs
  let rsvdFirst (f : Option Fail) (st : Status) : Option Fail := f.bind fun x => if x.1 = st then some x else none
  firstFail [d.front r 0 8 [(4, 19, 1), (4, 3, 5)], rsvdFirst named.1 .badReserved, named.1,
    needCfg (named.2.isSome || est.elim true fun e => estFits guard e d.cutPeriod) 4,
    need (d.fus.area != 0 || r.w32 0 == 0 || (d.takeArea 1 fusArea).isSome) .busy 0]

/-- FUSE_CONFIG (R266 to R268, R273, R274): checked now, in effect at the next cut-off. -/
def Dev.fuseConfig (d : Dev) (now m seq : Nat) : Dev :=
  d.command now m seq 0x0801 (fun _ => true) d.fuseConfigCheck
    (fun r =>
      let conf : Option FusConf := match d.pinned1 (r.w32 0) with
        | some (o, l) => match d.fusLoad o l (bits (r.w32 4) 8 8 * 100) d.cutPeriod with
          | .inr c => some c
          | .inl _ => none
        | none => none
      let d1 := if d.fus.area = 0 ∧ r.w32 0 ≠ 0 then (match d.takeArea 1 fusArea with
        | some (a, d1) => d1.modFus fun f => { f with area := a }
        | none => d) else d
      let keep : Option FusConf := d1.fus.pend.bind (·.1)
      (d1.decide' r).modFus fun f => { f with pend := some (if r.w32 0 = 0 then keep else conf, r.w32 4) })

/-- FUSE_CONFIG (R267). -/
def execFuseConfig (t m seq : Nat) (s : State) : Host.Outcome State Fault Refusal := s.run t fun now d => d.fuseConfig now m seq

/-- The checks of fuseSubscribe, in the order of R352. -/
def Dev.fuseSubscribeCheck (d : Dev) (r : Req) : Option Fail :=
  let live := d.liveSubs
  let free := lowest 32 fun i => !thas live i
  let entryOk (r : Req) : Bool := match d.basin? (r.w32 4 % 256) with
    | some b => b.ctx == r.ctx && (b.entry (r.w32 4 / 256 % 64)).kind == 6
    | none => false
  let kind := r.fld 0 0 2
  firstFail [d.front r 3 12 [(0, 2, 6), (0, 21, 11), (8, 17, 15)],
    if r.flag 0 then none else firstFail [needCfg (decide (kind ≤ 1)) 0, needCfg (r.fld 0 8 8 != 0) 1, if kind = 0 then firstFail [needCfg (r.w32 4 / 2 ^ 14 == 0) 4, needCfg (entryOk r) 4] else
      needCfg (match d.pinned1 (r.w32 4) with
        | some (o, _) => decide (10496 ≤ o.size)
        | none => false) 4],
    if r.flag 0 then needCfg (match tget live (r.w32 4) with
      | some x => x.ctx == r.ctx
      | none => false) 4 else need free.isSome .busy 0]

/-- FUSE_SUBSCRIBE (R278): add a subscriber, or remove one of the context's. -/
def Dev.fuseSubscribe (d : Dev) (now m seq : Nat) : Dev :=
  let live := d.liveSubs
  let free := lowest 32 fun i => !thas live i
  d.command now m seq 0x0802 (fun _ => true) d.fuseSubscribeCheck
    (fun r =>
      if r.flag 0 then (d.modFus fun f => { f with subs := tdel f.subs (r.w32 4) }).finish now r .ok 0 []
      else
        let i := free.getD 0
        let x : FusSub := { ctx := r.ctx, kind := r.fld 0 0 2, target := r.w32 4, every := r.fld 0 8 8, flag := r.fld 0 16 5, cell := r.fld 8 0 17, last := r.flag 1, count := 0, wr := 0 }
        (d.modFus fun f => { f with subs := tset live i x }).finish now r .ok i [])

/-- FUSE_SUBSCRIBE (R278). -/
def execFuseSubscribe (t m seq : Nat) (s : State) : Host.Outcome State Fault Refusal := s.run t fun now d => d.fuseSubscribe now m seq

end Sys2Proof.Machine
end

