-- ==== Sys2Proof/Machine/Law.lean ====
section
/-! DEFINITION. Law descriptors, the checks and conversion LAW_LOAD makes, and the datapath of one law at one tick (R317 to R319, R323 to
R329). -/

namespace Sys2Proof.Machine

/-- The fields of a law descriptor (R318). -/
def lawWord (d : List Byte) : Nat := bytesAt d 0 4
def lawPid (d : List Byte) : Bool := (lawWord d).testBit 29
def lawNx (d : List Byte) : Nat := bits (lawWord d) 24 5
def lawNu (d : List Byte) : Nat := bits (lawWord d) 21 3 + 1
def lawNy (d : List Byte) : Nat := bits (lawWord d) 18 3 + 1
def lawDiv (d : List Byte) : Nat := bits (lawWord d) 14 4 + 1
def lawHoldEn (d : List Byte) : Bool := (lawWord d).testBit 13
def lawHoldSlot (d : List Byte) : Nat := bits (lawWord d) 7 6
def lawPeriod (d : List Byte) : Nat := bytesAt d 4 4
def lawAltEn (d : List Byte) : Bool := (bytesAt d 8 4).testBit 31
def lawAltSlot (d : List Byte) : Nat := bits (bytesAt d 8 4) 25 6
def lawAw (d : List Byte) (j : Nat) : Nat := bytesAt d (16 + j) 1
def lawXfer (d : List Byte) (j : Nat) : Nat := bytesAt d (32 + j) 1
def lawIn (d : List Byte) (i : Nat) : Nat := bytesAt d (48 + 8 * i) 4
def lawInKind (d : List Byte) (i : Nat) : Nat := bits (lawIn d i) 29 3
def lawInCh (d : List Byte) (i : Nat) : Nat := bits (lawIn d i) 23 6
def lawInJ (d : List Byte) (i : Nat) : Nat := bits (lawIn d i) 17 6
def lawInField (d : List Byte) (i : Nat) : Nat := bits (lawIn d i) 15 2
def lawVlim (d : List Byte) (i : Nat) : Nat := bytesAt d (52 + 8 * i) 4
def lawOut (d : List Byte) (o : Nat) : Nat := bytesAt d (112 + 16 * o) 4
def lawOutJ (d : List Byte) (o : Nat) : Nat := bits (lawOut d o) 26 6
def lawOutMode (d : List Byte) (o : Nat) : Nat := bits (lawOut d o) 23 3
def lawVcomp (d : List Byte) (o : Nat) : Bool := (lawOut d o).testBit 22
def lawFfEn (d : List Byte) (o : Nat) : Bool := (lawOut d o).testBit 21
def lawFfCh (d : List Byte) (o : Nat) : Nat := bits (lawOut d o) 15 6
def lawLo (d : List Byte) (o : Nat) : Nat := bytesAt d (116 + 16 * o) 4
def lawHi (d : List Byte) (o : Nat) : Nat := bytesAt d (120 + 16 * o) 4
def lawFallback (d : List Byte) (o : Nat) : Nat := bytesAt d (124 + 16 * o) 4
def lawA (d : List Byte) (j k : Nat) : Nat := bytesAt d (240 + 4 * (16 * j + k)) 4
def lawB (d : List Byte) (j i : Nat) : Nat := bytesAt d (1264 + 4 * (8 * j + i)) 4
def lawC (d : List Byte) (o k : Nat) : Nat := bytesAt d (1776 + 4 * (16 * o + k)) 4
def lawD (d : List Byte) (o i : Nat) : Nat := bytesAt d (2288 + 4 * (8 * o + i)) 4
def lawX0 (d : List Byte) (j : Nat) : Nat := bytesAt d (2544 + 4 * j) 4

/-- The joints a law commands, by index, and whether an input reads a reference or a measurement. -/
def lawJoints (d : List Byte) : List Nat := (List.range (lawNy d)).map (lawOutJ d)
def readsRef (kind : Nat) : Bool := [1, 2, 4, 5, 6].contains kind
def readsMeas (kind : Nat) : Bool := [1, 2, 3].contains kind

/-- The joints a law measures, by index. -/
def lawMeasured (d : List Byte) : List Nat := ((List.range (lawNu d)).filter fun i => readsMeas (lawInKind d i)).map (lawInJ d)

/-- Cycles of a law (R317). -/
def lawCycles (d : List Byte) : Nat := 40 + ((lawNx d + lawNy d) * (lawNx d + lawNu d) + 7) / 8

/-- Ts in FP32 (R319, R329). -/
def lawTs (d : List Byte) : Nat := enc32 (FV.div (FV.ofInt (lawPeriod d) 0) (FV.ofInt 1000000000 0))

/-- A sum of products in FP32, in index order from zero (R324). -/
def dot32 (n : Nat) (a b : Nat → Nat) : Nat := (List.range n).foldl (fun acc i => fadd acc (fmul (a i) (b i))) 0

/-- The first nonzero byte of a stretch, as a failed check at its offset. -/
def zeroFail (d : List Byte) (off n : Nat) : Option Fail :=
  match (List.range n).find? fun i => bytesAt d (off + i) 1 != 0 with
  | some i => some (.badReserved, 2 ^ 31 + off + i)
  | none => none

/-- The reserved fields of a descriptor, and matrix elements outside the declared dimensions (R318, R319). -/
def lawRsvd (d : List Byte) : Option Fail :=
  let nx := lawNx d
  let nu := lawNu d
  let ny := lawNy d
  let zeros (off n : Nat) : List (Bool × Nat) := (List.range n).map fun i => (bytesAt d (off + i) 1 == 0, off + i)
  let outside (base rows cols r c : Nat) : List (Bool × Nat) :=
    (List.range (rows * cols)).map fun k => (decide (k / cols < r ∧ k % cols < c) || bytesAt d (base + 4 * k) 4 == 0, base + 4 * k)
  firstObj .badReserved ([(bits (lawWord d) 0 7 == 0, 0), (bits (bytesAt d 8 4) 0 25 == 0, 8)] ++ zeros 12 4 ++
    ((List.range 16).map fun j => (lawXfer d j / 32 == 0, 32 + j)) ++ ((List.range 8).map fun i => (bits (lawIn d i) 0 15 == 0, 48 + 8 * i)) ++
    ((List.range 8).map fun o => (bits (lawOut d o) 0 15 == 0, 112 + 16 * o)) ++
    (if lawPid d then zeros (240 + 16 * ny) (2304 - 16 * ny) else outside 240 16 16 nx nx ++ outside 1264 16 8 nx nu ++ outside 1776 8 16 ny nx ++ outside 2288 8 8 ny nu) ++
    ((List.range 16).map fun j => (decide (j < nx) || lawX0 d j == 0, 2544 + 4 * j)) ++ zeros 2608 1488)

/-- The configuration checks of a descriptor (R318, R319). -/
def lawBad (d : List Byte) : Option Fail :=
  let outs := (List.range (lawNy d)).flatMap fun o =>
    let lo := lawLo d o
    let hi := lawHi d o
    [([1, 2, 3, 4, 5].contains (lawOutMode d o) && (!lawVcomp d o || lawOutMode d o == 3), 112 + 16 * o + 2), (ffinite lo && ffinite hi && flt lo hi, 116 + 16 * o),
      (fle lo (lawFallback d o) && fle (lawFallback d o) hi, 124 + 16 * o)]
  let ins := (List.range (lawNu d)).flatMap fun i =>
    [(lawInKind d i != 7, 48 + 8 * i + 3), (lawInField d i != 3, 48 + 8 * i + 1), (fle 0 (lawVlim d i), 52 + 8 * i)]
  let sts := (List.range (lawNx d)).map fun j => (decide (lawXfer d j < 16) || lawXfer d j == 0x1F, 32 + j)
  let pid := if lawPid d then [(lawNx d == 2 * lawNy d, 3), (lawNu d == lawNy d, 2)] ++
      (List.range (lawNy d)).map (fun o => (fle 0 (bytesAt d (240 + 16 * o + 12) 4), 240 + 16 * o + 12)) else []
  firstObj .badConfig ([(bits (lawWord d) 30 2 == 0, 3), (decide (lawNx d ≤ 16), 3)] ++ ins ++ outs ++ sts ++ pid)

/-- Write an FP32 value into a descriptor. -/
def putF (d : List Byte) (off v : Nat) : List Byte := splice d off (leBytes 4 v)

/-- A PID descriptor as the matrices the slot holds (R319). -/
def lawConvert (d : List Byte) : List Byte :=
  if lawPid d = false then d
  else
    let ts := lawTs d
    let clear := splice d 240 (leBytes 2304 0)
    (List.range (lawNy d)).foldl (fun (m : List Byte) o =>
      let kp := bytesAt d (240 + 16 * o) 4
      let ki := bytesAt d (244 + 16 * o) 4
      let kd := bytesAt d (248 + 16 * o) 4
      let tf := bytesAt d (252 + 16 * o) 4
      let g := fdiv 0x3F800000 (fadd tf ts)
      let a (j k v : Nat) (m : List Byte) : List Byte := putF m (240 + 4 * (16 * j + k)) v
      let b (j i v : Nat) (m : List Byte) : List Byte := putF m (1264 + 4 * (8 * j + i)) v
      let c (o k v : Nat) (m : List Byte) : List Byte := putF m (1776 + 4 * (16 * o + k)) v
      let dd (o i v : Nat) (m : List Byte) : List Byte := putF m (2288 + 4 * (8 * o + i)) v
      let aw := o * 2 ^ 5 + o * 2 ^ 2 + b2n (decide (2 ^ 31 ≤ ki)) * 2 + 1
      let m1 := a (2 * o + 1) (2 * o + 1) (fmul tf g) (a (2 * o) (2 * o) 0x3F800000 m)
      let m2 := b (2 * o + 1) o (fmul ts g) (b (2 * o) o ts m1)
      let m3 := c o (2 * o + 1) (fneg (fmul kd g)) (c o (2 * o) ki m2)
      splice (dd o o (fadd kp (fmul kd g)) m3) (16 + 2 * o) (leBytes 1 aw)) clear

/-- A reference channel at a tick: R, RD, RDD and J (R320). -/
abbrev RefChan := Nat × Nat × Nat × Nat

/-- What a tick gives its laws: DT, SPEED, latched states, reference channels, V_nom over V_meas by output joint (with whether V_meas was
unusable), and the injection: its slot, whether at an output, index and value. -/
structure TickIn where
  at_ : Nat
  speed : Nat
  age : JointState → Nat
  lat : Nat → Option JointState
  ref : Nat → RefChan
  ratio : Nat → Nat × Bool
  inject : Option (Nat × Bool × Nat × Nat)

/-- What one law did at a tick: its errors, outputs before and after the clamp, states before, shaped references, measurements, sampling
instants, EFLAGS, feed-forward terms, and what it leaves. -/
structure LawRun where
  slot : Nat
  e : List Nat
  y : List Nat
  u : List Nat
  x : List Nat
  reff : List Nat
  m : List Nat
  sdt : List Nat
  eflags : List Nat
  aux : List Nat
  nan : Bool
  vfault : Bool
  stale : Bool
  law : ArmedLaw
  deriving DecidableEq, Repr

/-- The value an input measures (R318); of a joint no state of which was latched, a free value. -/
def measOf (t : TickIn) (desc : List Byte) (i : Nat) : Nat :=
  match t.lat (lawInJ desc i) with
  | some j => if lawInField desc i = 0 then j.pos else if lawInField desc i = 1 then j.vel else j.eff
  | none => Config.unlatched t.at_ (lawInJ desc i) (lawInField desc i)

/-- Whether a law is stale at a tick (R323). -/
def lawStale (t : TickIn) (desc : List Byte) : Bool :=
  (List.range (lawNu desc)).any fun i => readsMeas (lawInKind desc i) && (match t.lat (lawInJ desc i) with
    | some j => decide (4 * lawPeriod desc < t.age j) || decide (2 ≤ j.dstat)
    | none => true)

/-- A law that does not compute writes FALLBACK to every output and keeps its states (R323, R330). -/
def lawFalls (desc : List Byte) (a : ArmedLaw) (t : TickIn) (flags : Nat) (stale : Bool) : LawRun :=
  let ny := List.range (lawNy desc)
  let nu := List.range (lawNu desc)
  { slot := a.slot, e := nu.map fun _ => 0, y := ny.map (lawFallback desc), u := ny.map (lawFallback desc), x := a.x,
    reff := a.reff.map fun r => r.getD 0, m := nu.map (measOf t desc), sdt := nu.map fun i => (t.lat (lawInJ desc i)).elim 0 JointState.sampleDt,
    eflags := ny.map fun _ => flags, aux := ny.map fun _ => 0, nan := false, vfault := false, stale := stale, law := a }

/-- An input's channel with the reference that holding froze (R330). -/
def chanOf (t : TickIn) (desc : List Byte) (a : ArmedLaw) (i : Nat) : RefChan :=
  let c := t.ref (lawInCh desc i)
  match a.frozen.getD i none with
  | some v => (v, 0, 0, c.2.2.2)
  | none => c

/-- A shaped reference (R329): r_eff, rd_eff and rdd_eff. -/
def shapeRef (t : TickIn) (desc : List Byte) (a : ArmedLaw) (i : Nat) : Nat × Nat × Nat :=
  let c := chanOf t desc a i
  let vlim := lawVlim desc i
  if readsRef (lawInKind desc i) && vlim % 2 ^ 31 != 0 then
    (let prev := (a.reff.getD i none).getD (measOf t desc i)
     let ts := lawTs desc
     let lim := fmul (fmul vlim (fdiv (fofInt t.speed) (fofInt 100))) ts
     let diff := fsub c.1 prev
     if flt lim diff then (let n := fadd prev lim; (n, fdiv (fsub n prev) ts, 0))
     else if flt diff (fneg lim) then (let n := fadd prev (fneg lim); (n, fdiv (fsub n prev) ts, 0))
     else (fadd prev diff, c.2.1, c.2.2.1))
  else (c.1, c.2.1, c.2.2.1)

/-- The injected value at a summing point of a law (R324, R337). -/
def injectAt (t : TickIn) (slot : Nat) (output : Bool) (index : Nat) : Option Nat :=
  match t.inject with
  | some (s, o, i, v) => if s = slot ∧ o = output ∧ i = index then some v else none
  | none => none

/-- One law at one of its ticks (R324 to R329).  inertia: the accepted plant model's INERTIA by output. -/
def lawTick (desc : List Byte) (inertia : Nat → Nat) (a : ArmedLaw) (t : TickIn) : LawRun :=
  if lawStale t desc then lawFalls desc a t 6 true
  else
    let nx := lawNx desc
    let nu := lawNu desc
    let ny := lawNy desc
    let shaped := (List.range nu).map (shapeRef t desc a)
    let ms := (List.range nu).map (measOf t desc)
    let e := (List.range nu).map fun i =>
      let s := shaped.getD i (0, 0, 0)
      let m := ms.getD i 0
      let v := match lawInKind desc i with
        | 1 => fsub s.1 m
        | 2 => fsub s.2.1 m
        | 3 => fneg m
        | 4 => s.1
        | 5 => s.2.1
        | 6 => s.2.2
        | _ => 0
      match injectAt t a.slot false i with
      | some w => fadd v w
      | none => v
    let x (k : Nat) : Nat := a.x.getD k 0
    let ev (i : Nat) : Nat := e.getD i 0
    let ff (o : Nat) : Nat :=
      let reader := (List.range nu).find? fun i => readsRef (lawInKind desc i) && lawInCh desc i == lawFfCh desc o
      let c := match reader with
        | some i => chanOf t desc a i
        | none => t.ref (lawFfCh desc o)
      let rdd := match reader with
        | some i => (shaped.getD i (0, 0, 0)).2.2
        | none => c.2.2.1
      fmul rdd (if c.2.2.2 % 2 ^ 31 = 0 then inertia o else c.2.2.2)
    let outs := (List.range ny).map fun o =>
      let y0 := fadd (dot32 nx (lawC desc o) x) (dot32 nu (lawD desc o) ev)
      let y1 := match injectAt t a.slot true o with
        | some w => fadd y0 w
        | none => y0
      let y2 := if lawFfEn desc o then fadd y1 (ff o) else y1
      let r := if lawVcomp desc o then t.ratio (lawOutJ desc o) else (0x3F800000, false)
      let y := if lawVcomp desc o then fmul y2 r.1 else y2
      if ffinite y = false then (y, lawFallback desc o, (0 : Int), true, r.2)
      else if flt (lawHi desc o) y then (y, lawHi desc o, 1, false, r.2)
      else if flt y (lawLo desc o) then (y, lawLo desc o, -1, false, r.2)
      else (y, y, 0, false, r.2)
    let nan := outs.any fun w => w.2.2.2.1
    let frozen (j : Nat) : Bool :=
      let w := lawAw desc j
      let s := (outs.getD (bits w 5 3) (0, 0, 0, false, false)).2.2.1
      let err := ev (bits w 2 3)
      let dirE := if w.testBit 1 then fneg err else err
      w.testBit 0 && ((s == 1 && flt 0 dirE) || (s == -1 && flt dirE 0))
    let xn := (List.range nx).map fun j =>
      if nan || frozen j then x j else fadd (dot32 nx (lawA desc j) x) (dot32 nu (lawB desc j) ev)
    let reff := shaped.map fun s => s.1
    { slot := a.slot, e := e, y := outs.map fun w => w.1, u := outs.map fun w => w.2.1, x := (List.range nx).map x, reff := reff, m := ms,
      sdt := (List.range nu).map fun i => (t.lat (lawInJ desc i)).elim 0 JointState.sampleDt,
      eflags := outs.map fun w => b2n (w.2.2.1 != 0) + 8 * b2n w.2.2.2.1,
      aux := (List.range ny).map fun o => if lawFfEn desc o && !(outs.getD o (0, 0, 0, false, false)).2.2.2.1 then ff o else 0,
      nan := nan, vfault := outs.any fun w => w.2.2.2.2, stale := false, law := { a with x := xn, reff := reff.map some } }

/-- The states an incoming law starts with (R331). -/
def transferred (desc : List Byte) (out : List Nat) : List Nat :=
  (List.range (lawNx desc)).map fun j => if lawXfer desc j = 0x1F then lawX0 desc j else out.getD (lawXfer desc j) 0

/-- The sine in FP32 of a phase of num / den turns (R337): zero and one exactly where they fall, at most one in magnitude else. -/
def sineTurns (num den : Nat) : Nat :=
  let r := num % max 1 den
  let mag := if r = 0 ∨ 2 * r = den then 0 else if 4 * r = den ∨ 4 * r = 3 * den then 0x3F800000 else Config.sine r den % (0x3F800000 + 1)
  if mag ≠ 0 ∧ den < 2 * r then fneg mag else mag

/-- A frequency as a whole number of 2^-149 Hz. -/
def freqUnits (f : Nat) : Nat :=
  match dec32 f with
  | .fin _ m e => m * 2 ^ (e + 149).toNat
  | _ => 0

/-- A signal that is no PRBS (R337): 0 sine, 1 linear chirp, 2 logarithmic chirp, tau ns after T0 with duration len. -/
def signalAt (sig a f0 f1 tau len : Nat) : Nat :=
  let u0 := freqUnits f0
  let u1 := freqUnits f1
  let den := 2 * len * 10 ^ 9 * 2 ^ 149
  fmul a (if sig = 0 then sineTurns (u0 * tau * 2 * len) den
    else if sig = 1 then sineTurns (u0 * tau * 2 * len + u1 * tau ^ 2 - u0 * tau ^ 2) den
    else sineTurns (if tau = 0 then 0 else Config.logTurns f0 f1 tau len) (2 ^ 52))

/-- The PRBS taps (R337): the second tap of a width. -/
def prbsTap (n : Nat) : Option Nat :=
  match n with
  | 7 => some 6
  | 9 => some 5
  | 11 => some 9
  | 15 => some 14
  | 17 => some 14
  | 23 => some 18
  | 31 => some 28
  | _ => none

/-- One step of the PRBS register (R337). -/
def prbsStep (n s : Nat) : Nat :=
  let fb := (b2n (s.testBit (n - 1)) + b2n (s.testBit ((prbsTap n).getD n - 1))) % 2
  (s * 2 + fb) % 2 ^ n

end Sys2Proof.Machine
end

