-- ==== Sys2Proof/Machine/MemBus.lean ====
section
/-! DEFINITION. Memory as an initiator reaches it: boot ROM, early SRAM, basin stores, near and far store (R4, R5, R120, R373, R400). -/

namespace Sys2Proof.Machine

/-- The kind of place an access of n bytes lies wholly in (R4). -/
inductive Place where
  | rom | sram | regs | basin | main | canal (module offset : Nat) | nowhere
  deriving DecidableEq, Repr

/-- Whether n bytes from a lie in a span. -/
def within (a n base size : Nat) : Bool := decide (base ≤ a) && decide (a + n ≤ base + size)

/-- The place of an access (R4, R400); Canal windows as module and offset in that module's own map. -/
def placeOf (a n : Nat) : Place :=
  if within a n 0 0x40000 then .rom
  else if within a n 0x1000000 0x200000 then .sram
  else if within a n 0x20000000 0x1000000 then .regs
  else if within a n 0x400000000 0x11000000 then .basin
  else if within a n 0x800000000 0x600000000 ∨ within a n 0x1000000000 0x1500000000 then .main
  else if within a n 0x4000000000 0x10000000000 ∧ (a - 0x4000000000) / 0x4000000000 = (a + n - 1 - 0x4000000000) / 0x4000000000 then
    .canal ((a - 0x4000000000) / 0x4000000000) ((a - 0x4000000000) % 0x4000000000)
  else .nowhere

/-- The tier of a store whose words carry check bits: 1 the near store, 2 the far store, 0 elsewhere (R208, R210). -/
def storeTier (a : Nat) : Nat :=
  if within a 1 0x800000000 0x600000000 then 1 else if within a 1 0x1000000000 0x1500000000 then 2 else 0

/-- Whether a retraining window holds an access of the far store (R73, R74). -/
def Dev.farHolds (d : Dev) (a n : Nat) : Bool := d.windowOpen && (storeTier a == 2 || storeTier (a + n - 1) == 2)

/-- An access that waits for the window's end: it has no answer yet. -/
def Dev.farHold (d : Dev) (x : FarAccess) : Dev := { d with bus := .idle, pbu := { d.pbu with farHeld := d.pbu.farHeld ++ [x] } }

/-- The debug port answers an executed request; the response is stored for a repetition (R446, R448). -/
def Dev.respond (d : Dev) (st : Status) (payload : List Byte) : Dev :=
  { d with dbg := { d.dbg with stored := (st.code, payload), resp := (st.code, payload), work := none } }

/-- What the port answers to an access of class 8: DENIED where the map refuses it, BAD_CONFIG where it reaches nothing (R454); an access that has
no answer yet keeps the port at work (R446). -/
def Dev.accessAnswer (d : Dev) (now : Nat) (allowed : Bool) (n : Nat) : Dev :=
  match d.bus with
  | .bytes bs => d.respond .ok bs
  | .data v => d.respond .ok (leBytes n v)
  | .ok => d.respond .ok []
  | .idle => { d with dbg := { d.dbg with work := some (27, now) } }
  | .accessFault => d.respond (if allowed then .badConfig else .denied) []

/-- An access that waited has its answer: the debug port's goes to its request, if that still waits (R446, R454). -/
def Dev.answered (d : Dev) (now cls n : Nat) : Dev :=
  if cls = 8 ∧ d.dbg.work.elim false (fun w => w.1 == 27) then d.accessAnswer now true n else d

/-- The logical basin that a physical one holds, if any (R135). -/
def Dev.logicalOf (d : Dev) (phys : Nat) : Option Nat := lowest 256 fun l => d.physical l == phys

/-- Whether a physical basin is bound to a context (R120). -/
def Dev.boundPhys (d : Dev) (phys : Nat) : Bool :=
  match d.logicalOf phys with
  | some l => (d.basin? l).isSome
  | none => false

/-- Whether an access is aligned as its place asks (R373): 1, 2, 4 or 8 aligned bytes of a basin store, ROM or SRAM for a core; main memory
takes any. -/
def alignedFor (c a n : Nat) (p : Place) : Bool :=
  match p with
  | .main => true
  | .nowhere => false
  | .regs => (n == 4 || n == 8) && a % n == 0
  | _ => decide (1 < c) || ([1, 2, 4, 8].contains n && a % n == 0)

/-- Whether an access reaches memory: place, alignment, protection map and power (R5, R67, R120, R373, R419); cores execute from main
memory only, and atomics are its alone. -/
def Dev.memOk (d : Dev) (latch : Bool) (now c a n : Nat) (x : Acc) : Bool :=
  let p := placeOf a n
  decide (0 < n) && alignedFor c a n p && d.permits latch c a n x && d.powered now a && d.powered now (a + n - 1) &&
    (x != .exec || p == .main || decide (1 < c))

/-- The stretches of n bytes from a that lie in one basin store each: address and length (R4). -/
def storePieces (a n : Nat) : List (Nat × Nat) :=
  (List.range (n / 0x100000 + 2)).filterMap fun i =>
    let lo := max a ((a / 0x100000 + i) * 0x100000)
    let hi := min (a + n) ((a / 0x100000 + i + 1) * 0x100000)
    if lo < hi then some (lo, hi - lo) else none

/-- Bytes of memory as a read sees them: a basin that is not bound reads zero (R120). -/
def Dev.memBytes (d : Dev) (a n : Nat) : List Byte :=
  if placeOf a n = .basin then (storePieces a n).flatMap fun p =>
    if d.boundPhys ((p.1 - 0x400000000) / 0x100000) then d.mem.read p.1 p.2 else List.replicate p.2 0
  else d.mem.read a n

/-- Bytes written to memory: the ROM keeps its contents, a basin that is not bound stays zero. -/
def Dev.memWrite (d : Dev) (a : Nat) (bs : List Byte) : Dev :=
  match placeOf a bs.length with
  | .sram | .main => { d with mem := d.mem.write a bs }
  | .basin => (storePieces a bs.length).foldl (fun (d : Dev) p =>
      if d.boundPhys ((p.1 - 0x400000000) / 0x100000) then { d with mem := d.mem.write p.1 ((bs.drop (p.1 - a)).take p.2) } else d) d
  | _ => d

end Sys2Proof.Machine
end

