-- ==== Sys2Proof/Machine/Loop.lean ====
section
/-! DEFINITION. The loop engines: references, joint states, ticks, holding, frames, injection, capture, and the early holding service
(R315 to R343). -/

namespace Sys2Proof.Machine

/-- An engine beside its registers. -/
def Dev.eng (d : Dev) (n : Nat) : Engine := tgetD d.le.eng n {}

/-- The device with an engine, or the whole of the loop engines' state, changed. -/
def Dev.setEng (d : Dev) (n : Nat) (e : Engine) : Dev := { d with le := { d.le with eng := tset d.le.eng n e } }
def Dev.modEng (d : Dev) (n : Nat) (f : Engine → Engine) : Dev := d.setEng n (f (d.eng n))
def Dev.modLe (d : Dev) (f : LoopSt → LoopSt) : Dev := { d with le := f d.le }

/-- The power domain of an engine: 0 in the early domain, the others PD142 to PD148. -/
def Dev.engOn (d : Dev) (n : Nat) : Bool := if n = 0 then d.earlyOn else d.on (141 + n)

/-- A slot's descriptor. -/
def Engine.desc (e : Engine) (slot : Nat) : Option (List Byte) := (tget e.slots slot).map LawSlot.desc

/-- Whether an engine runs the early service's laws. -/
def Dev.isEarly (d : Dev) (n : Nat) : Bool := n == 0 && d.earlyRuns

/-- A bit of LE_ENGn_STAT is set; the EIC source of the engine (LE_ENGn_STAT, R376). -/
def Dev.leFlag (d : Dev) (n : Nat) (x : Fld) (on : Bool) : Dev :=
  if on && !d.fb (r1 .leEngStat n) x then (d.sf (r1 .leEngStat n) x 1).raise (192 + n) else d

/-- LE_ENGn_STAT's MODE, CAPTURE and INJECT follow the engine. -/
def Dev.syncEng (d : Dev) (n : Nat) : Dev :=
  let e := d.eng n
  let r := r1 .leEngStat n
  let mode := if d.fb (r1 .leEngCfg n) F.leEngCfg.EN = false ∨ e.armed = [] then 0 else if d.isEarly n then 1 else if e.holding then 3 else 2
  let capturing := e.capture.elim false fun c => c.first.isSome && d.f (r1 .leEngCap n) F.leEngCap.STATE == 2
  ((d.sf r F.leEngStat.MODE mode).sf r F.leEngStat.INJECT (b2n e.inject.isSome)).sf r F.leEngStat.CAPTURE (b2n capturing)

/-- REFERENCE_FLIP (R25, R320): every engine takes its part of a completed slot of 8,704 B; a part of another generation is refused. -/
def Dev.flip (d : Dev) (now l e : Nat) : Dev :=
  match d.basin? l with
  | none => d
  | some b =>
    let x := b.entry e
    match x.readyQ with
    | [] => d
    | (slot, _) :: rest =>
      let a := d.slotAddr l x slot
      let d1 := ({ d with pbu := { d.pbu with flipDue := false } }).modEntry now l e fun y => ({ y with readyQ := rest } : SbEntry).giveBack slot
      (List.range 8).foldl (fun (d : Dev) n =>
        if d.engOn n = false then d
        else
          let set := d.mem.read (a + 1088 * n) 1088
          if bits (bytesAt set 24 4) 30 2 = 0 then
            (let r := r1 .leEngStat n
             let d2 := (d.wn (r1 .leEngFlipAt n) now).sf r F.leEngStat.BUF (1 - d.f r F.leEngStat.BUF)
             (d2.modEng n fun g => { g with sets := ((now, set) :: g.sets).take 4 }).emit (0x0400 + n) now .flip false [now, bytesAt set 16 8])
          else d.leFlag n F.leEngStat.REF_STALE true) d1

/-- A joint's place among its states, the newest first. -/
def insertJoint (x : JointState) : List JointState → List JointState
  | [] => [x]
  | y :: rest => if y.stamp ≤ x.stamp then x :: y :: rest else y :: insertJoint x rest

/-- A state frame's payload reaches the engines (R322, R334): each entry goes to the joint indices mapped to its port and joint id. -/
def Dev.jointFrame (d : Dev) (now port stamp : Nat) (unc : Bool) (p : List Byte) : Dev :=
  let b0 := bytesAt p 0 1
  if bits b0 6 2 ≠ 0 ∨ bits b0 4 2 ≠ 1 then d
  else
    (List.range (bytesAt p 1 1)).foldl (fun (d : Dev) e =>
      let o := 32 + 16 * e
      if p.length < o + 16 then d else
      let w (k : Nat) : Nat := beNat ((p.drop k).take 4)
      let id := beNat ((p.drop o).take 2)
      let x : JointState := { stamp := stamp, delivered := now, unc := unc, dstat := bytesAt p (o + 2) 1, pos := w (o + 4), vel := w (o + 8), eff := w (o + 12), vbus := w 16, sampleDt := beNat ((p.drop 8).take 8) }
      (List.range 64).foldl (fun (d : Dev) j =>
        let r := r1 .leJoint j
        if d.fb r F.leJoint.EN && d.f r F.leJoint.PORT == port && d.f r F.leJoint.JOINT == id then
          d.modLe fun s => { s with joints := tset s.joints j ((insertJoint x (tgetD s.joints j [])).take 16) }
        else d) d) d

/-- A state's stamp with its crossing's bound, 10.5 ns, and its age at a tick (R322). -/
def JointState.eff' (x : JointState) : Nat := x.stamp + (if x.unc then 11 else 0)
def Dev.jointAge (d : Dev) (f : Nat) (x : JointState) : Nat := d.elapsed x.stamp f + (if x.unc then 11 else 0)

/-- The states a tick latches (R322). -/
def Dev.latch (d : Dev) (f : Nat) (old : Tbl JointState) : Tbl JointState :=
  d.le.joints.foldl (fun (t : Tbl JointState) e =>
    match e.2.find? fun x => decide (x.eff' ≤ f) && decide (x.delivered ≤ f + 200) with
    | some x => tset t e.1 x
    | none => t) old

/-- The set an engine uses at a tick: the newest flipped at or before it; zeros before the first flip (R25). -/
def Engine.setAt (e : Engine) (f : Nat) : List Byte := ((e.sets.find? fun s => decide (s.1 ≤ f)).map (·.2)).getD (List.replicate 1088 0)
def setTov (set : List Byte) : Nat := bytesAt set 16 8

/-- LEVEL, SPEED and STOP on the dedicated lines at a tick (R329). -/
def Dev.lineAt (d : Dev) (f : Nat) : Nat × Nat × Bool :=
  match d.fus.lines.find? fun x => decide (x.1 ≤ f) with
  | some x => (x.2.1, x.2.2.1, x.2.2.2)
  | none => (4, 0, true)

/-- Whether an active set is over age (R321). -/
def Dev.setStale (d : Dev) (n f : Nat) (set : List Byte) : Bool :=
  let m := d.f (r1 .leEngCfg n) F.leEngCfg.REF_MAX_AGE
  m != 0 && decide (m * 1000 < d.elapsed (setTov set) f)

/-- A period-start DT (R81): the next fire of the armed channel with trigger target 0x01, else the last period start. -/
def Dev.periodMark (d : Dev) : Nat :=
  match (List.range 64).find? fun n => d.fb (r1 .cueChCfg n) F.cueChCfg.ARM && d.f (r1 .cueChCfg n) F.cueChCfg.TRIG == 1 with
  | some n => d.rn (r1 .cueChTime n)
  | none => d.rn (r0 .pbuPeriodAt)

/-- The first PBU period start at or after an instant (R316). -/
def Dev.nextPeriod (d : Dev) (a : Nat) : Nat :=
  let len := max 1 (d.f (r0 .pbuPeriod) F.pbuPeriod.LEN)
  a + (((d.periodMark : Int) - (a : Int)) % (len : Int)).toNat

/-- The early service's reference of a joint at a tick (R341): the position at its first latched state, or on the way along the waypoints;
with whether it has reached the last. -/
def Dev.earlyRef (d : Dev) (f j : Nat) : Nat × Nat × Bool :=
  let im := d.le.early.image
  let w0 := bytesAt im 0 4
  let start := tgetD d.le.early.refs j 0
  let since := d.elapsed (tgetD d.le.early.seatFrom j f) f
  if w0.testBit 29 = false then (start, 0, false)
  else
    let way := bits w0 11 5
    let r := (List.range way).foldl (fun (acc : Nat × Nat × Option (Nat × Nat)) w =>
      match acc.2.2 with
      | some _ => acc
      | none =>
        let dur := bytesAt im (320 + 264 * w) 4 * 1000000
        let goal := bytesAt im (324 + 264 * w + 4 * j) 4
        if acc.1 + dur ≤ since then (acc.1 + dur, goal, none)
        else
          let slope := fdiv (fsub goal acc.2.1) (enc32 (FV.div (FV.ofInt dur 0) (FV.ofInt 1000000000 0)))
          let tau := enc32 (FV.div (FV.ofInt (since - acc.1 : Nat) 0) (FV.ofInt 1000000000 0))
          (acc.1, acc.2.1, some (fadd acc.2.1 (fmul slope tau), slope))) (0, start, none)
    match r.2.2 with
    | some (p, v) => (p, v, false)
    | none => (r.2.1, 0, true)

/-- A reference channel of an engine at a tick (R320, R340): R, RD, RDD, J. -/
def Dev.refAt (d : Dev) (n f : Nat) (set : List Byte) (c : Nat) : RefChan :=
  if d.isEarly n then (let r := d.earlyRef f c; (r.1, r.2.1, 0, 0))
  else (bytesAt set (64 + 16 * c) 4, bytesAt set (68 + 16 * c) 4, bytesAt set (72 + 16 * c) 4, bytesAt set (76 + 16 * c) 4)

/-- V_nom / V_meas for an output's joint, clamped, and whether V_meas was unusable (R326). -/
def Dev.vMeas (d : Dev) (n : Nat) (lat : Tbl JointState) (j : Nat) : Nat :=
  if d.f (r1 .leEngCfg n) F.leEngCfg.VSRC = 1 then (tget lat j).elim 0 JointState.vbus else d.mc.vin.toNat
def Dev.vRatio (d : Dev) (n : Nat) (lat : Tbl JointState) (j : Nat) : Nat × Bool :=
  let v := d.vMeas n lat j
  let nom := if d.isEarly n then bytesAt d.le.early.image 4 4 else d.f (r0 .leVnom) F.leVnom.VNOM
  if ffinite v && flt 0 v then
    (let q := fdiv nom v
     (if flt q 0x3F000000 then 0x3F000000 else if flt 0x40000000 q then 0x40000000 else q, false))
  else (0x3F800000, true)

/-- INERTIA of an output's plant model in use (R325, R336). -/
def Engine.inertia (e : Engine) (slot o : Nat) : Nat :=
  match tget e.slots slot with
  | some s => if s.inUse.contains o then (tget s.models o).elim 0 fun r => bytesAt r 28 4 else 0
  | none => 0

/-- A law armed afresh (R316, R324). -/
def Engine.newLaw (e : Engine) (slot anchor tick : Nat) (x : Option (List Nat)) (mbx ctx : Nat) : ArmedLaw :=
  let desc := (e.desc slot).getD []
  { slot := slot, div := if tick = 0 then lawDiv desc else lawPeriod desc / tick, anchor := anchor,
    x := match x with
      | some y => transferred desc y
      | none => (List.range (lawNx desc)).map (lawX0 desc),
    reff := (List.range (lawNu desc)).map fun _ => none, frozen := (List.range (lawNu desc)).map fun _ => none, mbx := mbx, ctx := ctx }

/-- The shaped references of a law that is armed start from the latched measurements (R329). -/
def Engine.armRefs (e : Engine) (a : ArmedLaw) : ArmedLaw :=
  let desc := (e.desc a.slot).getD []
  { a with reff := (List.range (lawNu desc)).map fun i => (tget e.latched (lawInJ desc i)).map fun j =>
      if lawInField desc i = 0 then j.pos else if lawInField desc i = 1 then j.vel else j.eff }

/-- Slots of a 64-bit mask. -/
def slotsOf (mask : Nat) : List Nat := (List.range 64).filter fun s => mask.testBit s

/-- The tick period of an engine: the PERIOD of the armed channel with its trigger target (R315); 0 where none is. -/
def Dev.tickChannel (d : Dev) (n : Nat) : Option Nat :=
  (List.range 64).find? fun c => (c != 0 || !d.isEarly n) && d.fb (r1 .cueChCfg c) F.cueChCfg.ARM && d.f (r1 .cueChCfg c) F.cueChCfg.TRIG == 3 + n
def Dev.tickPeriod (d : Dev) (n : Nat) : Nat := (d.tickChannel n).elim 0 fun c => d.f (r1 .cueChPeriod c) F.cueChPeriod.PERIOD

/-- The values that a law's inputs read of each channel, by channel (R330, R332). -/
def refsByChannel (desc : List Byte) (vals : List (Option Nat)) : Tbl Nat :=
  (List.range (lawNu desc)).foldl (fun (t : Tbl Nat) i =>
    match readsRef (lawInKind desc i), vals.getD i none with
    | true, some v => tset t (lawInCh desc i) v
    | _, _ => t) []
def reffFrom (desc : List Byte) (t : Tbl Nat) : List (Option Nat) :=
  (List.range (lawNu desc)).map fun i => if readsRef (lawInKind desc i) then tget t (lawInCh desc i) else none

/-- An armed law is held (R330, R331): its holding law takes over with frozen references, or it writes FALLBACK. -/
def Engine.holdLaw (e : Engine) (f anchor tick : Nat) (lat : Tbl JointState) (a : ArmedLaw) : ArmedLaw :=
  let desc := (e.desc a.slot).getD []
  if lawHoldEn desc then
    (let h := e.newLaw (lawHoldSlot desc) anchor tick (some a.x) a.mbx a.ctx
     let hd := (e.desc h.slot).getD []
     let t : TickIn := { at_ := f, speed := 0, age := fun _ => 0, lat := tget lat, ref := fun _ => (0, 0, 0, 0), ratio := fun _ => (0, false), inject := none }
     { h with frozen := (List.range (lawNu hd)).map fun i => if readsRef (lawInKind hd i) then some (measOf t hd i) else none })
  else a

/-- Every armed law of a holding engine that is not yet held is (R330). -/
def Engine.holdAll (e : Engine) (f anchor tick : Nat) (lat : Tbl JointState) : Engine × List Nat :=
  e.armed.foldl (fun (acc : Engine × List Nat) a =>
    if acc.1.held.any fun h => h.1 == a.slot then acc
    else
      let b := e.holdLaw f anchor tick lat a
      ({ acc.1 with armed := acc.1.armed.map fun x => if x.slot = a.slot then b else x, held := acc.1.held ++ [(b.slot, a)] }, b.slot :: acc.2)) (e, [])

/-- The laws that held ones stand for come back (R331, R332). -/
def Engine.resumeAll (e : Engine) : Engine × List Nat :=
  let back (a : ArmedLaw) : ArmedLaw := match e.held.find? fun h => h.1 == a.slot with
    | some (s, o) =>
      if s = o.slot then a
      else
        let od := (e.desc o.slot).getD []
        let hd := (e.desc a.slot).getD []
        { o with x := transferred od a.x, reff := reffFrom od (refsByChannel hd a.frozen) }
    | none => a
  ({ e with armed := e.armed.map back, held := [], holding := false, holdCmd := false }, (e.armed.map back).map (·.slot))

/-- An injection ends and its command completes (R337); CALIBRATE writes the fitted record, whose seven fitted values the fit leaves open, with the
mean V_meas of the law's ticks (R335). -/
def Dev.injectEnd (d : Dev) (now n : Nat) : Dev :=
  let e := d.eng n
  match e.inject with
  | none => d
  | some x =>
    let d1 := (d.setEng n { e with inject := none }).syncEng n
    let d2 := if x.calibrate then
        (let d2 := d1.setSquall now x.squall
         match d2.pinned1 x.cal with
         | some (_, l) =>
           let p := d2.draw (0x0400 + n) now
           let free := p.2.free
           let vals := (List.range 7).flatMap fun i => leBytes 4 (Config.freeNat (free + i) % 2 ^ 32)
           let vbus := if x.vcnt = 0 then Config.freeNat (free + 7) % 2 ^ 32 else fdiv x.vsum (fofInt x.vcnt)
           let env := p.2.envelope
           let rec_ := p.1.bytes ++ leBytes 1 (2 * 2 ^ 4 + env * 4 + 2) ++ leBytes 1 (p.2.hotBand * 4) ++ leBytes 2 0 ++ leBytes 4 0 ++ leBytes 4 (n * 2 ^ 29 + x.slot * 2 ^ 23 + x.index * 2 ^ 20) ++
             vals ++ leBytes 4 vbus ++ leBytes 4 x.a ++ leBytes 32 0
           ({ p.2 with free := free + 8 }).locPut l 0 96 (Memory.relOf 0 (rec_.take 96))
         | none => d2)
      else d1
    d2.finishAt now (x.mbx, x.seq) .ok 0 []

/-- The signal of an injection at a tick of its law (R337): its value, with the register after the tick. -/
def Inject.value (x : Inject) (f : Nat) : Nat × Inject :=
  if f < x.t0 ∨ x.t0 + x.len ≤ f then (0, x)
  else if x.sig = 3 then
    (let l := if x.steps ≠ 0 ∧ x.steps % x.m = 0 then prbsStep x.n x.lfsr else x.lfsr
     (if l.testBit (x.n - 1) then x.a else fneg x.a, { x with lfsr := l, steps := x.steps + 1 }))
  else (signalAt x.sig x.a x.f0 x.f1 (f - x.t0) x.len, x)

/-- V_meas at a tick of the law within the signal's span counts to the record's VBUS (R335). -/
def Inject.measured (x : Inject) (v f : Nat) : Inject := if x.t0 ≤ f ∧ f < x.t0 + x.len then { x with vsum := fadd x.vsum v, vcnt := x.vcnt + 1 } else x

/-- One captured sample (R338): slot, kind and index of its code. -/
def captured (runs : List LawRun) (inj : Nat) (free code : Nat) : Nat :=
  match runs.find? fun r => r.slot == bits code 10 6 with
  | some r =>
    let i := bits code 3 4
    match bits code 7 3 with
    | 0 => r.e.getD i 0
    | 1 => r.y.getD i 0
    | 2 => r.u.getD i 0
    | 3 => r.x.getD i 0
    | 4 => inj
    | 5 => r.reff.getD i 0
    | 6 => r.m.getD i 0
    | _ => r.sdt.getD i 0 % 2 ^ 32
  | none => Config.freeNat free % 2 ^ 32

/-- Whether a tick is one of a law's, run or held (R338). -/
def Engine.lawAtTick (e : Engine) (f : Nat) (runs : List LawRun) (slot : Nat) : Bool :=
  (runs.any fun r => r.slot == slot) || (e.held.any fun h => h.2.slot == slot && h.1 != slot &&
    ((f : Int) - (h.2.anchor : Int)) % (max 1 (lawPeriod ((e.desc slot).getD [])) : Nat) == 0)

/-- The capture's part of a tick (R338); what a law gives that does not run is a free value. -/
def Dev.captureTick (d : Dev) (n f : Nat) (runs : List LawRun) (inj : Nat) : Dev :=
  let e := d.eng n
  match e.capture with
  | none => d
  | some c =>
    if f < c.start ∨ d.f (r1 .leEngCap n) F.leEngCap.STATE = 3 ∨ e.lawAtTick f runs (bits (c.codes.headD 0) 10 6) = false then d
    else
      let r := r1 .leEngCap n
      let d1 := if c.first.isNone then (d.wn (r1 .leEngCapStart n) f).sf r F.leEngCap.STATE 2 else d
      let row := c.ticks % c.dec == 0
      let data := if row then c.data ++ (((List.range c.k).zip c.codes).map fun p => captured runs inj (d1.free + p.1) p.2) else c.data
      let rows := c.rows + b2n row
      let c1 : Capture := { c with first := some (c.first.getD f), ticks := c.ticks + 1, rows := rows, data := data, holdAt := if c.holdAt = 0 ∧ e.holding then d1.rn (r1 .leEngHoldAt n) else c.holdAt }
      let d2 := ({ d1 with free := d1.free + (if row then c.k else 0) }).setEng n { e with capture := some c1 }
      let d3 := d2.sf r F.leEngCap.ROWS rows
      (if 65536 < (rows + 1) * c.k then d3.sf r F.leEngCap.STATE 3 else d3).syncEng n

/-- A capture ends (R338): its buffer goes to the object and the command completes with START, rows and the DT holding began. -/
def Dev.captureEnd (d : Dev) (now n : Nat) : Dev :=
  let e := d.eng n
  match e.capture with
  | none => d
  | some c =>
    let d1 := (d.setEng n { e with capture := none }).sf (r1 .leEngCap n) F.leEngCap.STATE 3
    let d2 := match d1.pinned1 c.object with
      | some (_, l) => d1.locPut l 0 (4 * c.data.length) (Memory.relOf 0 (c.data.flatMap (leBytes 4)))
      | none => d1
    (d2.syncEng n).finishAt now (c.mbx, c.seq) .ok 0 (leBytes 8 (c.first.getD 0) ++ leBytes 4 c.rows ++ leBytes 4 0 ++ leBytes 8 c.holdAt)

/-- CAPTURE_END (R338): the buffer is full and is copied out. -/
def execCaptureEnd (t n : Nat) (s : State) : Host.Outcome State Fault Refusal :=
  s.run t fun now d => if n < 8 ∧ d.engOn n ∧ d.f (r1 .leEngCap n) F.leEngCap.STATE = 3 ∧ d.stewardRuns then d.captureEnd now n else d

/-- INJECTION_END (R337): the duration is over. -/
def execInjectionEnd (t n : Nat) (s : State) : Host.Outcome State Fault Refusal :=
  s.run t fun now d =>
    match (d.eng n).inject with
    | some x => if n < 8 ∧ d.engOn n ∧ x.t0 + x.len ≤ now then d.injectEnd now n else d
    | none => d

/-- The command of a change completes once no engine waits to apply it. -/
def Dev.changeDone (d : Dev) (now : Nat) (cmd : Option (Nat × Nat)) : Dev :=
  match cmd with
  | some ms => if (List.range 8).any fun n => (d.eng n).changes.any fun c => c.cmd == cmd then d else d.finishAt now ms .ok 0 []
  | none => d

/-- The armed law that commands one of a slot's joints. -/
def Engine.commanding (e : Engine) (slot : Nat) : Option ArmedLaw :=
  e.armed.find? fun a => (lawJoints ((e.desc a.slot).getD [])).any fun j => (lawJoints ((e.desc slot).getD [])).contains j

/-- A change of armed laws at its tick (R316, R330 to R332, R342): the device and the slots that are new at this tick. -/
def Dev.lawChange (d : Dev) (n f : Nat) (c : LawChange) : Dev × List Nat :=
  let e := d.eng n
  let tick := d.tickPeriod n
  let anchor := d.nextPeriod c.at_
  match c.what with
  | 0 => (d.setEng n { e with armed := e.armed ++ (slotsOf c.slots).map fun s => e.armRefs (e.newLaw s anchor tick none c.mbx c.ctx) }, [])
  | 1 =>
    let gone (a : ArmedLaw) : Bool := c.slots.testBit a.slot || e.held.any fun h => h.1 == a.slot && c.slots.testBit h.2.slot
    let left := e.armed.filter fun a => !gone a
    let d1 := d.setEng n { e with armed := left, held := e.held.filter fun h => left.any fun a => a.slot == h.1, holding := e.holding && left != [] }
    (if left = [] then d1.wn (r1 .leEngHoldAt n) 0 else d1, [])
  | 2 => (d.setEng n { e with holdCmd := true }, [])
  | 3 =>
    let q := e.resumeAll
    ((d.setEng n q.1).wn (r1 .leEngHoldAt n) 0, q.2)
  | 4 =>
    let e1 := (slotsOf c.slots).foldl (fun (e : Engine) s =>
      match e.commanding s with
      | some a => { e with armed := e.armed.map fun x => if x.slot = a.slot then e.newLaw s anchor tick (some a.x) a.mbx a.ctx else x }
      | none => e) e
    (d.setEng n e1, slotsOf c.slots)
  | _ =>
    let early := d.isEarly n
    let laws := (slotsOf c.slots).map fun s =>
      let desc := (e.desc s).getD []
      let from_ : Option (List Nat) := if early then (e.commanding s).map ArmedLaw.x else none
      let law := e.newLaw s c.at_ tick from_ c.mbx c.ctx
      if early then { law with reff := (List.range (lawNu desc)).map fun i => if readsRef (lawInKind desc i) then some (d.earlyRef f (lawInJ desc i)).1 else none } else law
    let d1 := d.setEng n { e with armed := (if early then [] else e.armed) ++ laws }
    if early then
      (let d2 := (d1.sf (r0 .leEarly) F.leEarly.STATE 6).sf (r1 .cueChCfg 0) F.cueChCfg.ARM 0
       (d2.setOwner 0x09 0 none, slotsOf c.slots))
    else (d1, slotsOf c.slots)

/-- The changes due at a tick (R331). -/
def Dev.lawChanges (d : Dev) (now n f : Nat) : Dev × List Nat :=
  let due := (d.eng n).changes.filter fun c => decide (c.at_ ≤ f)
  let d0 := d.modEng n fun e => { e with changes := e.changes.filter fun c => !decide (c.at_ ≤ f) }
  due.foldl (fun (acc : Dev × List Nat) c =>
    let q := acc.1.lawChange n f c
    (q.1.changeDone now c.cmd, acc.2 ++ q.2)) (d0, [])

/-- An engine starts holding (R330): the almanac, HOLD_AT, and the end of an injection. -/
def Dev.holdStart (d : Dev) (now n f : Nat) : Dev :=
  let p := (d.modEng n fun e => { e with holding := true }).draw (0x0420 + n) f
  let d1 := ((p.2.alm 0x070 1 p.1 now [n, f]).wn (r1 .leEngHoldAt n) f).raise (192 + n)
  d1.injectEnd now n

/-- The joint command frame's payload (R333): network byte order; none without entries. -/
def Dev.commandFrame (d : Dev) (n : Nat) (cnt tov flags speed level : Nat) (runs : List LawRun) (lat : Tbl JointState) : List Byte :=
  let entries := runs.flatMap fun r =>
    let desc := ((d.eng n).desc r.slot).getD []
    (List.range (lawNy desc)).flatMap fun o =>
      let j := lawOutJ desc o
      if (tget lat j).isNone then []
      else [beBytes 2 (d.f (r1 .leJoint j) F.leJoint.JOINT) ++ leBytes 1 (lawOutMode desc o) ++ leBytes 1 (r.eflags.getD o 0) ++ beBytes 4 (r.u.getD o 0) ++ beBytes 4 (r.aux.getD o 0) ++ leBytes 4 0]
  if entries = [] then []
  else leBytes 1 0 ++ leBytes 1 (entries.length % 256) ++ beBytes 2 (d.src (0x0400 + n)) ++ beBytes 4 cnt ++ leBytes 8 0 ++ beBytes 8 tov ++ beBytes 2 flags ++ leBytes 1 speed ++
    leBytes 1 level ++ leBytes 4 0 ++ entries.flatten

/-- The laws of a tick run in slot order (R316, R317, R324): those whose sample falls on it, and those new at it. -/
def Dev.runLaws (d : Dev) (n f : Nat) (fresh : List Nat) (t : TickIn) : List LawRun :=
  let e := d.eng n
  let due (a : ArmedLaw) : Bool :=
    let p := lawPeriod ((e.desc a.slot).getD [])
    d.isEarly n || fresh.contains a.slot || ((f : Int) - (a.anchor : Int)) % (max 1 p : Nat) == 0
  (sortBy (fun (a b : ArmedLaw) => decide (a.slot < b.slot)) (e.armed.filter due)).map fun a =>
    let desc := (e.desc a.slot).getD []
    if e.holding && !d.isEarly n && (e.held.any fun h => h.1 == a.slot && h.2.slot == a.slot) then lawFalls desc a t (if lawStale t desc then 6 else 4) (lawStale t desc)
    else lawTick desc (e.inertia a.slot) a t

/-- The early service's references start at a joint's first latched state (R341), and LE_EARLY follows. -/
def Dev.earlyTick (d : Dev) (f : Nat) (lat : Tbl JointState) : Dev :=
  let e := d.eng 0
  let joints := (e.armed.flatMap fun a => lawJoints ((e.desc a.slot).getD [])).dedup
  let d1 := lat.foldl (fun (d : Dev) x =>
    if thas d.le.early.refs x.1 then d
    else d.modLe fun s => { s with early := { s.early with refs := tset s.early.refs x.1 x.2.pos, seatFrom := tset s.early.seatFrom x.1 f } }) d
  let live := joints.filter fun j => thas lat j
  let sit := (bytesAt d1.le.early.image 0 4).testBit 29
  let st := if live = [] then 2 else if !sit then 3 else if live.all fun j => (d1.earlyRef f j).2.2 then 5 else 4
  (d1.sf (r0 .leEarly) F.leEarly.STATE st).sf (r0 .leEarly) F.leEarly.JOINTS live.length

/-- Whether an armed law, or one that a holding law stands for, has no whole DIV at the engine's tick period (R316, R330). -/
def Dev.anyUnfit (d : Dev) (n : Nat) : Bool :=
  let e := d.eng n
  let tick := d.tickPeriod n
  tick != 0 && (e.armed.filter (fun a => !(e.held.any fun h => h.1 == a.slot)) ++ e.held.map (·.2)).any fun a =>
    let p := lawPeriod ((e.desc a.slot).getD [])
    !(p % tick == 0 && decide (1 ≤ p / tick) && decide (p / tick ≤ 16))

/-- One tick of an engine (R315 to R333); an early frame's REF_TOV is a free value, no set being in use. -/
def Dev.loopTick (d0 : Dev) (now n f : Nat) : Dev :=
  let ds := d0.wn (r1 .leEngTickAt n) f
  let lat := ds.latch f (ds.eng n).latched
  let early0 := ds.isEarly n
  let d1 := if early0 then ds.earlyTick f lat else ds
  let q := (d1.modEng n fun e => { e with latched := lat }).lawChanges now n f
  let early := q.1.isEarly n
  let set := (q.1.eng n).setAt f
  let line := q.1.lineAt f
  let stale := !early && q.1.setStale n f set
  let d2 := if early then q.1 else ((q.1.sf (r1 .leEngRefAge n) F.leEngRefAge.AGE (min (2 ^ 32 - 1) (q.1.elapsed (setTov set) f))).leFlag n F.leEngStat.REF_STALE stale)
  let cause := !early && (d2.eng n).armed != [] && (line.2.2 || stale || (d2.eng n).holdCmd || d2.anyUnfit n)
  let d3 := if cause && !(d2.eng n).holding then d2.holdStart now n f else d2
  let h := if (d3.eng n).holding then (d3.eng n).holdAll f (d3.nextPeriod f) (d3.tickPeriod n) lat else (d3.eng n, [])
  let d4 := d3.setEng n h.1
  let e := d4.eng n
  let inj := e.inject.map fun x => x.value f
  let t : TickIn := { at_ := f, speed := line.2.1, age := fun x => d4.jointAge f x, lat := tget lat, ref := d4.refAt n f set, ratio := d4.vRatio n lat,
                      inject := match e.inject, inj with
                        | some x, some v => some (x.slot, x.output, x.index, v.1)
                        | _, _ => none }
  let runs := d4.runLaws n f (q.2 ++ h.2) t
  let ranInj := e.inject.elim false fun x => runs.any fun r => r.slot == x.slot
  let d5 := d4.setEng n { e with armed := e.armed.map fun a => ((runs.find? fun r => r.slot == a.slot).map LawRun.law).getD a, inject := if ranInj then inj.map fun v => v.2.measured (d4.vMeas n lat (lawOutJ ((e.desc v.2.slot).getD []) v.2.index)) f else e.inject }
  let d6 := ((((d5.leFlag n F.leEngStat.NAN (runs.any (·.nan))).leFlag n F.leEngStat.VFAULT (runs.any (·.vfault))).leFlag n F.leEngStat.STATE_STALE (runs.any (·.stale))).leFlag n
    F.leEngStat.SAT (runs.any fun r => r.eflags.any fun x => x.testBit 0)).captureTick n f runs ((inj.map (·.1)).getD 0)
  let k := d6.draw (0x0400 + n) f
  let unc := runs.any fun r => (lawMeasured (((d6.eng n).desc r.slot).getD []) ++ lawJoints (((d6.eng n).desc r.slot).getD [])).any fun j => (tget lat j).elim false JointState.unc
  let flags := b2n (d6.eng n).holding + 2 * b2n (early || line.2.2) + 4 * b2n stale + 8 * b2n unc + 16 * b2n early + 32 * b2n (d6.eng n).inject.isSome
  let tov := if early then Config.freeNat d6.free % 2 ^ 64 else setTov set
  let fr := d6.commandFrame n k.1.cnt tov flags line.2.1 line.1 runs lat
  let d7 := if fr = [] then d6 else ({ k.2 with free := k.2.free + b2n early }).modEng n fun e => { e with frames := e.frames ++ [(f + d6.f (r1 .leEngCfg n) F.leEngCfg.TX_OFF * 100, fr)] }
  d7.syncEng n

/-- Whether the debug port keeps an engine from its tick (R458): halted, and no step pending. -/
def Dev.engHalted (d : Dev) (n : Nat) : Bool := (d.target (18 + n)).halted && !(d.target (18 + n)).stepping

/-- The tick of a stepped engine answers the port's STEP (R446, R458). -/
def Dev.stepDone (d : Dev) (k : Nat) : Dev :=
  match d.dbg.work with
  | some w => if w.1 = k then d.respond .ok [] else d
  | none => d

/-- LOOP_TICK (R315, R324, R364): the engine's cue has fired and the states of the tick are in; settings that waited for it are written. -/
def execLoopTick (t n : Nat) (s : State) : Host.Outcome State Fault Refusal :=
  s.run t fun now d =>
    match tget d.cue.trig (3 + n) with
    | some f =>
      if n < 8 ∧ d.engOn n ∧ 200 < d.elapsed f now then
        (let d1 := (({ d with cue := { d.cue with trig := tdel d.cue.trig (3 + n) } } : Dev).settle now 0x0020 n).settle now 0x0021 0
         let x := d1.target (18 + n)
         if d1.fb (r1 .leEngCfg n) F.leEngCfg.EN = false ∨ d1.engHalted n then d1
         else if x.stepping then ((d1.setTarget (18 + n) { x with stepping := false }).loopTick now n f).stepDone (18 + n) else d1.loopTick now n f)
      else d
    | none => d

/-- A robot-bus port beside its registers. -/
def Dev.port (d : Dev) (p : Nat) : EthPort := tgetD d.io.eth p {}
def Dev.modPort (d : Dev) (p : Nat) (f : EthPort → EthPort) : Dev := { d with io := { d.io with eth := tset d.io.eth p (f (d.port p)) } }

/-- COMMAND_FRAME_QUEUE (R317, R333): at tick + TX_OFF the frame joins its port's express queue 7 with the insert flag; the early
service uses port 0 only (R340). -/
def execCommandFrameQueue (t n : Nat) (s : State) : Host.Outcome State Fault Refusal :=
  s.run t fun now d =>
    match (d.eng n).frames with
    | (at_, fr) :: rest =>
      if n < 8 ∧ d.engOn n ∧ at_ ≤ now then
        (let p := if (bytesAt fr 25 1).testBit 4 then 0 else d.f (r1 .leEngCfg n) F.leEngCfg.PORT
         let x : TxFrame := { queue := 7, insert := true, stamped := true, src := 0x0400 + n, data := Config.frameAddresses p ++ beBytes 2 0x88B5 ++ fr }
         (d.modEng n fun e => { e with frames := rest }).modPort p fun q => { q with txq := q.txq ++ [x] })
      else d
    | [] => d

/-- Plant models in use follow R104's conditions at a period start (R336): the record's envelope, its temperature band, V_meas within ±10 % of
its VBUS. -/
def Dev.modelOk (d : Dev) (n joint : Nat) (rec_ : List Byte) : Bool :=
  let b := bytesAt rec_ 16 1
  let vb := bytesAt rec_ 56 4
  let v := d.vMeas n (d.eng n).latched joint
  bits b 2 2 == d.envelope && decide (d.hotBand ≤ bits (bytesAt rec_ 17 1) 2 2) && fle (fmul 0x3F666666 vb) v && fle v (fmul 0x3F8CCCCD vb)

/-- Each change is written to the almanac (R104, R336). -/
def Dev.syncModels (d : Dev) (now : Nat) : Dev :=
  (List.range 8).foldl (fun (d : Dev) n =>
    (d.eng n).slots.foldl (fun (d : Dev) s =>
      s.2.models.foldl (fun (d : Dev) m =>
        let ok := d.modelOk n (lawOutJ s.2.desc m.1) m.2
        let was := ((tget (d.eng n).slots s.1).map fun x => x.inUse.contains m.1).getD false
        if ok = was then d
        else
          (d.modEng n fun e => { e with slots := tmod e.slots s.1 fun x => { x with inUse := if ok then m.1 :: x.inUse else x.inUse.filter (· != m.1) } }).almMc
            0x041 1 now [n, s.1, m.1, b2n ok]) d) d) d

end Sys2Proof.Machine
end

