-- ==== Sys2Proof/Machine/Planner.lean ====
section
/-! DEFINITION. The planner: grid and epochs, wavefronts, roadmap, edge checkers, replans (R294 to R314, R363). -/

namespace Sys2Proof.Machine

/-- The device with the planner's state changed. -/
def Dev.modPlan (d : Dev) (f : PlanSt → PlanSt) : Dev := { d with plan := f d.plan }

/-- Whether the planner is powered and processes work (PLAN_CTRL.EN). -/
def Dev.planOn (d : Dev) : Bool := d.on 150 && d.on 151
def Dev.planEn (d : Dev) : Bool := d.planOn && d.fb (r0 .planCtrl) F.planCtrl.EN

/-- The active bank, its epoch, and a bank's contents and base time (R298, R299). -/
def Dev.bank (d : Dev) : Nat := d.f (r0 .planEpoch) F.planEpoch.BANK
def Dev.epoch (d : Dev) : Nat := d.f (r0 .planEpoch) F.planEpoch.EPOCH
def Dev.bankMem (d : Dev) (b : Nat) : Memory := if b = 0 then d.plan.bank0 else d.plan.bank1
def Dev.bankT0 (d : Dev) (b : Nat) : Nat := if b = 0 then d.plan.t00 else d.plan.t01

/-- Pins on a bank (R300). -/
def pinFld (b : Nat) : Fld := if b = 0 then F.planEpoch.PINS0 else F.planEpoch.PINS1
def Dev.pins (d : Dev) (b : Nat) : Nat := d.f (r0 .planEpoch) (pinFld b)

/-- PLAN_STAT follows the work in progress; WRITE_HELD is set while the first grid write waits for pins (R300). -/
def Dev.syncPlan (d : Dev) : Dev :=
  let r := r0 .planStat
  let pass : Bool := match d.plan.replan with
    | some x => x.batch && (x.passed.isNone || x.recheck.isSome)
    | none => false
  let held := d.plan.writes != [] && d.pins (1 - d.bank) != 0
  (((d.sf r F.planStat.RUN (b2n d.plan.replan.isSome)).sf r F.planStat.CHECK (b2n (pass || d.plan.sweep.isSome))).sf r F.planStat.WAVE
    (b2n d.plan.wave.isSome)).sf r F.planStat.WRITE_HELD (b2n held)

/-- Take or release a pin on a bank (R300). -/
def Dev.pin (d : Dev) (b : Nat) : Dev := d.sf (r0 .planEpoch) (pinFld b) (min 255 (d.pins b + 1))
def Dev.unpin (d : Dev) (b : Nat) : Dev := d.sf (r0 .planEpoch) (pinFld b) (d.pins b - 1)

/-- Voxels of a geometry and a voxel's place (R295, R296). -/
def Roadmap.voxels (g : Roadmap) : Nat := g.nx * g.ny * g.nz
def Roadmap.at_ (g : Roadmap) (x y z : Nat) : Nat := x + g.nx * (y + g.ny * z)
def Roadmap.inside (g : Roadmap) (x y z : Nat) : Bool := decide (x < g.nx) && decide (y < g.ny) && decide (z < g.nz)

/-- A run of voxels: its place and the length along +x (R298, R304). -/
def runOf (w : Nat) : Nat × Nat × Nat × Nat := (bits w 24 8, bits w 16 8, bits w 10 6, bits w 6 4 + 1)

/-- The bytes a grid write leaves in the inactive bank (R298). -/
def Dev.gridImage (d : Dev) (g : Roadmap) (w : GridWrite) : Memory :=
  match d.pinned1 w.src with
  | none => d.bankMem (1 - d.bank)
  | some (_, l) =>
    if w.delta then
      (List.range w.nruns).foldl (fun (m : Memory) i =>
        let x := bytesAt (d.locBytes l (8 * i) 8) 0 4
        let v := bytesAt (d.locBytes l (8 * i + 4) 4) 0 4
        let r := runOf x
        (List.range r.2.2.2).foldl (fun (m : Memory) j => m.putLe (4 * g.at_ (r.1 + j) r.2.1 r.2.2.1) 4 v) m) (d.bankMem d.bank)
    else d.locSlice l 0 (4 * g.voxels)

/-- The planner engine's near-store traffic of its grid writer (0), wavefront (1), checkers (2) or sweep (3), of n bytes in all (R84, R85): while
class 3 is gated nothing is issued; what may be is issued and charged, and the work in hand ends once all of it has been. -/
def Dev.planIssue (d : Dev) (now e n : Nat) : Bool × Dev :=
  let done := tgetD d.plan.issued e 0
  let m := min (n - done) (d.issuable 3 4)
  if d.gated 3 4 then (false, d)
  else
    let d1 := d.charge now 3 4 m
    let ended := decide (n ≤ done + m)
    (ended, d1.modPlan fun p => { p with issued := if ended then tdel p.issued e else tset p.issued e (done + m) })

/-- A PLAN_GRID finishes writing the inactive bank and publishes where it asked to (R298, R299). -/
def Dev.gridDone (d0 : Dev) (now : Nat) (g : Roadmap) (w : GridWrite) : Dev :=
  let q := d0.planIssue now 0 (if w.delta then 8 * w.nruns else 4 * g.voxels)
  if q.1 = false then q.2 else
  let d := q.2
  let b := 1 - d.bank
  let m := d.gridImage g w
  let d1 := d.modPlan fun p => if b = 0 then { p with bank0 := m } else { p with bank1 := m }
  let d2 := d1.modPlan fun p => { p with writes := p.writes.drop 1 }
  if w.publish then
    (let e := (d2.epoch + 1) % 2 ^ 32
     let r := r0 .planEpoch
     let d3 := ((d2.sf r F.planEpoch.BANK b).sf r F.planEpoch.EPOCH e).wn (r0 .planEpochAt) now
     let d4 := d3.modPlan fun p => if b = 0 then { p with t00 := w.t0 } else { p with t01 := w.t0 }
     ((d4.emit 0x0301 now .plan false [e, b, w.t0]).syncPlan).finishAt now (w.mbx, w.seq) .ok e [])
  else d2.syncPlan.finishAt now (w.mbx, w.seq) .ok 0 []

/-- GRID_WRITE_DONE (R300): the first grid write ends, once the inactive bank holds no pin. -/
def execGridWriteDone (t : Nat) (s : State) : Host.Outcome State Fault Refusal :=
  s.run t fun now d =>
    match d.plan.writes, d.plan.geom with
    | w :: _, some g => if d.planEn ∧ d.pins (1 - d.bank) = 0 then d.gridDone now g w else d.syncPlan
    | _, _ => d

/-- The class of a voxel word in a slice, and whether a class blocks (R296, PLAN_CTRL.BLOCK). -/
def classIn (word s : Nat) : Nat := bits word (2 * s) 2
def Dev.blocks (d : Dev) (c : Nat) : Bool := (d.f (r0 .planCtrl) F.planCtrl.BLOCK).testBit c

/-- Whether a voxel is blocked in any slice of a mask (R301). -/
def Dev.voxelBlocked (d : Dev) (word mask : Nat) : Bool := (List.range 16).any fun s => mask.testBit s && d.blocks (classIn word s)

/-- The 26 neighbours as offsets with the step's cost (R301). -/
def neighbours : List (Int × Int × Int × Nat) :=
  (List.range 27).filterMap fun i =>
    let dx : Int := (i % 3 : Nat) - 1
    let dy : Int := (i / 3 % 3 : Nat) - 1
    let dz : Int := (i / 9 : Nat) - 1
    let n := dx.natAbs + dy.natAbs + dz.natAbs
    if n = 0 then none else some (dx, dy, dz, if n = 1 then 10 else if n = 2 then 14 else 17)

/-- One voxel of a pass (R302): the least of its cost and its visited neighbours' costs plus the step. -/
def relax (g : Roadmap) (forward : Bool) (blocked : Nat → Bool) (f : Array Nat) (a : Nat) : Array Nat :=
  if blocked a then f.setIfInBounds a 0xFFFF
  else
    let x := a % g.nx
    let y := a / g.nx % g.ny
    let z := a / g.nx / g.ny
    let best := neighbours.foldl (fun (m : Nat) n =>
      let i : Int := x + n.1
      let j : Int := y + n.2.1
      let k : Int := z + n.2.2.1
      if 0 ≤ i ∧ i < g.nx ∧ 0 ≤ j ∧ j < g.ny ∧ 0 ≤ k ∧ k < g.nz then
        (let b := g.at_ i.toNat j.toNat k.toNat
         let c := f.getD b 0xFFFF
         if (if forward then decide (b < a) else decide (a < b)) && c != 0xFFFF then min m (min 0xFFFE (c + n.2.2.2)) else m)
      else m) (f.getD a 0xFFFF)
    f.setIfInBounds a best

/-- One sweep: a forward and a backward pass (R302). -/
def sweepOnce (g : Roadmap) (blocked : Nat → Bool) (f : Array Nat) : Array Nat :=
  let up := (List.range g.voxels).foldl (relax g true blocked) f
  (List.range g.voxels).reverse.foldl (relax g false blocked) up

/-- Sweeps until one changes nothing, or the limit is reached (R302): the field and whether it converged. -/
def sweeps (g : Roadmap) (blocked : Nat → Bool) : Nat → Array Nat → Array Nat × Bool
  | 0, f => (f, false)
  | n + 1, f =>
    let f1 := sweepOnce g blocked f
    if f1.toList = f.toList then (f, true) else sweeps g blocked n f1

/-- The field of a run over a bank (R301, R302). -/
def Dev.costField (d : Dev) (g : Roadmap) (w : WaveRun) : Array Nat × Bool :=
  let m := d.bankMem w.bank
  let blocked (a : Nat) : Bool := d.voxelBlocked (m.le (4 * a) 4) w.slices
  let start := w.goals.foldl (fun (f : Array Nat) p => f.setIfInBounds (g.at_ p.1 p.2.1 p.2.2) 0) (Array.replicate g.voxels 0xFFFF)
  sweeps g blocked (d.f (r0 .planCtrl) F.planCtrl.SWEEPS_MAX) start

/-- A load that waited for running work applies (R304). -/
def Dev.loadGeom (d : Dev) (g : Roadmap) : Dev :=
  let r := r0 .planGeom
  ((((((d.modPlan fun p => { p with geom := some g }).sf r F.planGeom.NX (g.nx - 1)).sf r F.planGeom.NY (g.ny - 1)).sf r F.planGeom.NZ (g.nz - 1)).sf r
    F.planGeom.RES_MM g.resMm).sf r F.planGeom.STEP_MS g.stepMs)
def Dev.planBusy (d : Dev) : Bool := d.plan.replan.isSome || d.plan.sweep.isSome || d.plan.wave.isSome
def Dev.applyGeom (d : Dev) (now : Nat) : Dev :=
  match d.plan.geomNext with
  | some (g, m, seq) => if d.planBusy then d else ((d.modPlan fun p => { p with geomNext := none }).loadGeom g).finishAt now (m, seq) .ok 0 []
  | none => d

/-- A wavefront run starts: it pins the active epoch (R300, R301). -/
def Dev.startWave (d : Dev) (cmd : Option (Nat × Nat)) (goals : List (Nat × Nat × Nat)) (slices field cell : Nat) : Dev :=
  ((d.pin d.bank).modPlan fun p => { p with issued := tdel p.issued 1, wave := some ⟨cmd, d.bank, d.epoch, goals, slices, field, cell⟩ }).syncPlan

/-- The context of a request still in flight. -/
def Dev.reqCtx (d : Dev) (ms : Nat × Nat) : Option Nat := (d.req? ms.1 ms.2).map Req.ctx

/-- A wavefront run ends (R302, R303): the field in its object, the cell's bit 1, the completion; a replan's run that waited for the
engine starts. -/
def Dev.waveEnd (d0 : Dev) (now : Nat) (w : WaveRun) (g : Roadmap) : Dev :=
  let q := d0.planIssue now 1 (2 * g.voxels)
  if q.1 = false then q.2 else
  let d := q.2
  let f := d.costField g w
  let d0 := d.modPlan fun p => { p with field := Memory.relOf 0 (f.1.toList.flatMap (leBytes 2)) }
  let d1 := match d0.pinned1 w.field with
    | some (_, l) => d0.locPut l 0 (2 * g.voxels) d0.plan.field
    | none => d0
  let ctx : Option Nat := match w.cmd with
    | some ms => d1.reqCtx ms
    | none => d1.plan.replan.map fun x => x.cfg.ctx
  let d3 := match ctx with
    | some c => d1.deviceFlag now c w.cell 1
    | none => d1
  let d4 := (if f.2 then d3 else (d3.sf (r0 .planStat) F.planStat.NOT_CONV 1).raise 205).raise 204
  let d5 := (d4.emit 0x0302 now .plan false [w.epoch, b2n (!f.2)]).unpin w.bank
  let d6 := (d5.modPlan fun p => { p with wave := none, replan := if w.cmd.isSome then p.replan else p.replan.map fun x => { x with notConv := x.notConv || !f.2 } }).syncPlan
  let d7 := match w.cmd with
    | some ms => d6.finishAt now ms .ok (b2n (!f.2)) []
    | none => d6
  let d8 := match d7.plan.replan with
    | some x => if x.waveDue then (d7.modPlan fun p => { p with replan := some { x with waveDue := false } }).startWave none x.cfg.goals x.cfg.slices x.cfg.field x.cfg.cell else d7
    | none => d7
  d8.applyGeom now

/-- WAVEFRONT_RUN_END (R303). -/
def execWavefrontRunEnd (t : Nat) (s : State) : Host.Outcome State Fault Refusal :=
  s.run t fun now d =>
    match d.plan.wave, d.plan.geom with
    | some w, some g => if d.planOn then d.waveEnd now w g else d
    | _, _ => d

/-- An edge's record in the roadmap object: enabled, entries, from, to, traversal time, list offset (R304). -/
structure Edge where
  gen : Nat
  en : Bool
  rsvd : Nat
  nent : Nat
  from_ : Nat
  to_ : Nat
  dur : Nat
  list : Nat
  deriving DecidableEq, Repr

def Edge.parse (bs : List Byte) : Edge :=
  let w := bytesAt bs 0 4
  { gen := bits w 30 2, en := w.testBit 29, rsvd := bits w 11 18, nent := bits w 0 11 + 1, from_ := bytesAt bs 6 2, to_ := bytesAt bs 4 2,
    dur := bytesAt bs 8 4, list := bytesAt bs 12 4 }

/-- Edge e of the loaded roadmap, and its swept list's words. -/
def Dev.edge (d : Dev) (g : Roadmap) (e : Nat) : Option (Edge × List Nat) :=
  match d.pinned1 g.object with
  | some (_, l) =>
    let x := Edge.parse (d.locBytes l (g.edges + 16 * e) 16)
    some (x, (List.range x.nent).map fun i => bytesAt (d.locBytes l (g.lists + 64 * x.list + 4 * i) 4) 0 4)
  | none => none

/-- The slice that covers a time (R297). -/
def Roadmap.slice (g : Roadmap) (t0 t : Nat) : Nat := if t < t0 then 0 else min 15 ((t - t0) / (g.stepMs * 1000000))

/-- Whether one entry of an edge is free over its time (R307): times in ticks with k = 100 / SPEED. -/
def Dev.entryFree (d : Dev) (g : Roadmap) (b start off dur speed w : Nat) : Bool :=
  let t (eighths : Nat) : Nat := start + 100000 * (8 * off + dur * eighths) / (8 * speed)
  let lo := g.slice (d.bankT0 b) (t (bits w 3 3))
  let hi := g.slice (d.bankT0 b) (t (bits w 0 3 + 1) - 1)
  let r := runOf w
  (List.range r.2.2.2).all fun j =>
    let word := (d.bankMem b).le (4 * g.at_ (r.1 + j) r.2.1 r.2.2.1) 4
    (List.range (hi + 1 - lo)).all fun s => !d.blocks (classIn word (lo + s))

/-- Whether an edge is enabled (R306). -/
def Dev.edgeEnabled (d : Dev) (e : Nat) (x : Edge) : Bool := x.en && !thas d.plan.disabled e

/-- Whether an edge passes on a bank (R307). -/
def Dev.edgePass (d : Dev) (g : Roadmap) (b start off speed e : Nat) : Bool :=
  match d.edge g e with
  | some (x, ws) => d.edgeEnabled e x && ws.all fun w => d.entryFree g b start off x.dur speed w
  | none => false

/-- Bytes the list reader takes for an edge (R308). -/
def Dev.edgeBytes (d : Dev) (g : Roadmap) (e : Nat) : Nat :=
  match d.edge g e with
  | some (x, _) => 16 + 4 * x.nent
  | none => 0

/-- A candidate's edges with their offsets, and HOLD (the candidate set of R311). -/
structure Cand where
  hold : Bool
  edges : List (Nat × Nat)
  deriving DecidableEq, Repr

def candParse (bs : List Byte) (i : Nat) : Cand :=
  let w := bytesAt bs (32 + 528 * i) 4
  { hold := w.testBit 31, edges := (List.range (bits w 25 6 + 1)).map fun j => (bits (bytesAt bs (48 + 528 * i + 8 * j) 4) 0 18, bytesAt bs (52 + 528 * i + 8 * j) 4) }

/-- The candidate set that an object holds: START and the candidates in rank. -/
def Dev.candSet (d : Dev) (id : Nat) : Nat × List Cand :=
  match d.pinned1 id with
  | some (_, l) =>
    let bs := d.locBytes l 0 4256
    let w := bytesAt bs 16 4
    (bytesAt bs 24 8, if bits w 30 2 = 0 then (List.range (bits w 27 3 + 1)).map (candParse bs) else [])
  | none => (0, [])

/-- Whether a candidate is well formed (R311): edges chain, lie in the roadmap, offsets do not decrease. -/
def Dev.candOk (d : Dev) (g : Roadmap) : List (Nat × Nat) → Bool
  | [] => true
  | [x] => decide (x.1 < g.nedges)
  | x :: y :: rest =>
    decide (x.1 < g.nedges) && decide (x.2 ≤ y.2) && (match d.edge g x.1, d.edge g y.1 with
      | some a, some b => a.1.to_ == b.1.from_
      | _, _ => false) && d.candOk g (y :: rest)

/-- Whether a candidate passes on a bank (R307, R311, R312). -/
def Dev.candPass (d : Dev) (g : Roadmap) (b start level speed : Nat) (c : Cand) : Bool :=
  d.candOk g c.edges && (level != 3 || c.hold) && c.edges.all fun e => d.edgePass g b start e.2 speed e.1

/-- The plan record (R314): 64 bytes in the ring, the cell's bit 2, the counts; pins are released and a single replan's command
completes. -/
def Dev.planRecord (d : Dev) (now : Nat) (x : Replan) (st : Status) (cand : Option Nat) : Dev :=
  let p := d.draw 0x0300 now
  let set := d.candSet x.cfg.cands
  let rechecked := match cand, x.recheck with
    | some c, some r => r.1 == c
    | _, _ => false
  let level := if x.batch then x.level else d.level
  let epoch := if x.batch then (match cand, x.recheck with
    | some _, some r => if rechecked then r.2.2 else x.epoch
    | _, _ => (x.recheck.map (·.2.2)).getD x.epoch) else 0
  let start := if cand.isSome then set.1 else d.plan.prevStart
  let newer := x.batch && d.epoch != epoch
  let w16 := st.code * 2 ^ 16 + (x.passed.getD 0) % 256 * 2 ^ 8 + cand.getD 0xF * 2 ^ 4 + level * 2 + b2n (level == 4)
  let w20 := (if x.batch then x.speed else speedOf level) * 2 ^ 24 + b2n rechecked * 2 ^ 23 + b2n newer * 2 ^ 22 + b2n x.notConv * 2 ^ 21
  let bs := p.1.bytes ++ leBytes 4 w16 ++ leBytes 4 w20 ++ leBytes 4 epoch ++ leBytes 4 (if x.batch then x.epoch else 0) ++ leBytes 4 x.cfg.cands ++ leBytes 4 0 ++
    leBytes 8 start ++ leBytes 16 0
  let d1 := p.2.log ⟨p.1, .plan, false, [st.code, cand.getD 0xF, level, epoch, x.epoch, start]⟩
  let d2 := match d1.pinned1 x.cfg.ring with
    | some (o, l) =>
      let n := max 1 (o.size / 64)
      let i := tgetD d1.plan.ring x.cfg.ring 0 % n
      (d1.locPut l (64 * i) 64 (Memory.relOf 0 bs)).modPlan fun q => { q with ring := tset q.ring x.cfg.ring ((i + 1) % n) }
    | none => d1
  let d3 := d2.deviceFlag now x.cfg.ctx x.cfg.cell 2
  let d4 := match x.batch, x.recheck with
    | true, some r => (d3.unpin x.bank).unpin r.2.1
    | true, none => d3.unpin x.bank
    | false, _ => d3
  let cr := r0 .planCount
  let d5 := d4.sf cr F.planCount.REPLANS ((d4.f cr F.planCount.REPLANS + 1) % 2 ^ 32)
  let d6 := if st = .ok then d5 else (d5.sf cr F.planCount.NOCAND ((d5.f cr F.planCount.NOCAND + 1) % 2 ^ 32)).sf (r0 .planStat) F.planStat.NO_CAND 1 |>.raise 205
  let d7 := (((d6.raise 204).dropWait .candidate).dropWait .replan).modPlan fun q => { q with replan := none, prevStart := start, repCount := if x.cfg.repeat_ then q.repCount + 1 else q.repCount }
  let d8 := if x.cfg.repeat_ then d7 else d7.finishAt now (x.cfg.mbx, x.cfg.seq) st 0 []
  d8.syncPlan.applyGeom now

/-- A record would be written now: an OK one only by the deadline and while the level is no worse than at the batch start (R312,
R313). -/
def Dev.planOutput (d : Dev) (now : Nat) (x : Replan) (i : Nat) : Dev :=
  if x.level < d.level then d.planRecord now x .noCandidate none
  else match d.waitOf .replan with
    | some (id, _) =>
      let p := d.arrive now id ⟨now, d.src 0x0300, d.cntOf 0x0300⟩
      if p.1 = Arrival.arrived then p.2.planRecord now x .ok (some i) else p.2.planRecord now x .noCandidate none
    | none => d.planRecord now x .noCandidate none

/-- The first candidate in rank that passed and still stands (R313): it is output, or first rechecked where the epoch has changed. -/
def Dev.planSelect (d : Dev) (now : Nat) (x : Replan) : Dev :=
  let set := d.candSet x.cfg.cands
  let off (i : Nat) : Bool := match set.2[i]? with
    | some c => c.edges.any fun e => thas d.plan.disabled e.1
    | none => true
  match lowest 8 fun i => (x.passed.getD 0).testBit i && !x.ruled.contains i && !off i with
  | none => d.planRecord now x .noCandidate none
  | some i =>
    if d.epoch = x.epoch then d.planOutput now x i
    else
      let d1 := match x.recheck with
        | some r => d.unpin r.2.1
        | none => d
      ((d1.pin d1.bank).modPlan fun p => { p with issued := tdel p.issued 2, replan := some { x with recheck := some (i, d1.bank, d1.epoch), rechecked := true } }).syncPlan

/-- A pass of the checkers ends (R308, R313): the batch's results, or those of a recheck. -/
def Dev.passEnd (d : Dev) (now : Nat) (x : Replan) (g : Roadmap) : Dev :=
  let set := d.candSet x.cfg.cands
  match x.passed, x.recheck with
  | none, _ =>
    let mask := ((List.range set.2.length).map fun i => match set.2[i]? with
      | some c => b2n (d.candPass g x.bank set.1 x.level x.speed c) * 2 ^ i
      | none => 0).sum
    let n := ((set.2.flatMap Cand.edges).map fun e => d.edgeBytes g e.1).sum
    let y := { x with passed := some mask }
    let q := d.planIssue now 2 n
    if q.1 then (q.2.modPlan fun p => { p with replan := some y }).syncPlan.planSelect now y else q.2
  | some _, some r =>
    match set.2[r.1]? with
    | some c =>
      let q := d.planIssue now 2 ((c.edges.map fun e => d.edgeBytes g e.1).sum)
      let d1 := q.2
      let y := { x with ruled := r.1 :: x.ruled }
      if q.1 = false then d1
      else if d1.candPass g r.2.1 set.1 x.level x.speed c then d1.planOutput now x r.1
      else (d1.modPlan fun p => { p with replan := some y }).planSelect now y
    | none => d.planRecord now x .noCandidate none
  | some _, none => d

/-- CHECK_PASS_END (R308). -/
def execCheckPassEnd (t : Nat) (s : State) : Host.Outcome State Fault Refusal :=
  s.run t fun now d =>
    match d.plan.replan, d.plan.geom with
    | some x, some g => if d.planOn ∧ x.batch then d.passEnd now x g else d
    | _, _ => d

/-- A batch starts, or at Whiteout the replan ends (R311, R312). -/
def Dev.batchStart (d : Dev) (now : Nat) (x : Replan) : Dev :=
  if d.level = 4 then d.planRecord now x .noCandidate none
  else
    let y := { x with batch := true, bank := d.bank, epoch := d.epoch, level := d.level, speed := speedOf d.level }
    ((d.pin d.bank).modPlan fun p => { p with issued := tdel p.issued 2, replan := some y }).syncPlan

/-- CHECK_BATCH_START (R311): the candidate flag was set at DT stamp, that of the last FLAG_SET of its cell; the wait decides. -/
def execCheckBatchStart (t stamp : Nat) (s : State) : Host.Outcome State Fault Refusal :=
  s.run t fun now d =>
    match d.plan.replan, d.waitAny .candidate with
    | some x, some (id, _) =>
      let set := (tget d.cells x.cfg.cell).bind Cell.flagKey
      if d.planOn ∧ x.batch = false ∧ x.fire ≤ stamp ∧ stamp ≤ now ∧ (d.cellCount x.cfg.cell).testBit 0 ∧ (set.elim true fun k => k.dt == stamp) then
        (let k : Key × Dev := match set with
           | some k => (k, d)
           | none => d.foreignKey stamp (d.src 0x0700)
         let p := k.2.arrive now id k.1
         if p.1 = Arrival.arrived then p.2.batchStart now x else p.2)
      else d
    | _, _ => d

/-- The replan's deadline passed (R313): the previous plan is kept. -/
def Dev.replanExpired (d : Dev) (now : Nat) : Dev :=
  match d.plan.replan with
  | some x => d.planRecord now x .noCandidate none
  | none => d

/-- A replan starts at DT f (R310, R311). -/
def Dev.startReplan (d : Dev) (f : Nat) (c : PlanCfg) : Dev :=
  let dl := f + 1000 * c.deadlineUs
  let d1 := (d.addWait { owner := .candidate, deadline := dl - 1000 * c.checkUs, guard := 0, src := 0x0304 }).2
  let d2 := (d1.addWait { owner := .replan, deadline := dl, guard := 0, src := 0x0304 }).2
  let asks := c.wave && d2.plan.geom.isSome
  let d3 := (d2.modPlan fun p => { p with replan := some { cfg := c, fire := f, waveDue := asks && p.wave.isSome } }).syncPlan
  if asks && d3.plan.wave.isNone then d3.startWave none c.goals c.slices c.field c.cell else d3

/-- The repeat that is armed: its command is still in flight. -/
def Dev.planRep (d : Dev) : Option PlanCfg := d.plan.rep.filter fun c => (d.req? c.mbx c.seq).isSome

/-- A replan cue fires on a channel (R310). -/
def Dev.replanFire (d : Dev) (f n : Nat) : Dev :=
  match d.planRep with
  | some c => if d.planEn && c.cue == n && d.plan.replan.isNone then d.startReplan f c else d
  | none => d

/-- SWEEP_COMPLETE (R309): the bitmap, and EPOCH_STALE where an epoch was published since the pin. -/
def Dev.sweepDone (d0 : Dev) (now : Nat) (w : SweepRun) (g : Roadmap) : Dev :=
  let q := d0.planIssue now 3 ((List.range g.nedges).map fun e => d0.edgeBytes g e).sum
  if q.1 = false then q.2 else
  let d := q.2
  let ok (e : Nat) : Bool := match d.edge g e with
    | some (x, ws) => x.en && !w.disabled.contains e && ws.all fun v => d.entryFree g w.bank w.start w.off x.dur w.speed v
    | none => false
  let bs : List Byte := (List.range 32768).map fun i =>
    BitVec.ofNat 8 ((List.range 8).map fun j => if 8 * i + j < g.nedges ∧ ok (8 * i + j) = true then 2 ^ j else 0).sum
  let d1 := match d.pinned1 w.field with
    | some (_, l) => d.locPut l 0 32768 (Memory.relOf 0 bs)
    | none => d
  let d2 := (d1.unpin w.bank).emit 0x0303 now .plan false [w.epoch, d.epoch]
  let d3 := ((d2.modPlan fun p => { p with sweep := none }).syncPlan).raise 204
  (d3.finishAt now (w.mbx, w.seq) (if d3.epoch = w.epoch then .ok else .epochStale) 0 (leBytes 4 w.epoch ++ leBytes 4 d3.epoch)).applyGeom now

/-- SWEEP_COMPLETE (R309). -/
def execSweepComplete (t : Nat) (s : State) : Host.Outcome State Fault Refusal :=
  s.run t fun now d =>
    match d.plan.sweep, d.plan.geom with
    | some w, some g => if d.planOn then d.sweepDone now w g else d
    | _, _ => d

/-- The checks of planGrid, in the order of R352. -/
def Dev.planGridCheck (d : Dev) (r : Req) : Option Fail :=
  let runs (r : Req) : List (Nat × Nat) := match d.pinned1 (r.w32 0) with
    | some (o, l) => if 8 * r.w32 4 ≤ o.size then (List.range (r.w32 4)).map fun i => (8 * i, bytesAt (d.locBytes l (8 * i) 4) 0 4) else []
    | none => []
  firstFail [d.front r 3 16 [],
    if r.flag 0 then firstFail ((runs r).map fun x => objFail (bits x.2 0 6 == 0) .badReserved x.1) else none,
    needCfg d.plan.geom.isSome 0, d.needPinned (r.w32 0) 0,
    match d.plan.geom, d.pinned1 (r.w32 0) with
    | some g, some (o, _) =>
      if r.flag 0 then firstFail (needCfg (decide (8 * r.w32 4 ≤ o.size)) 4 ::
        (runs r).map fun x => let q := runOf x.2; objFail (g.inside (q.1 + q.2.2.2 - 1) q.2.1 q.2.2.1) .badConfig x.1)
      else needCfg (o.size == 4 * g.voxels) 0
    | _, _ => none]

/-- PLAN_GRID (R298, R300). -/
def Dev.planGrid (d : Dev) (now m seq : Nat) : Dev :=
  d.command now m seq 0x0901 (fun _ => true) d.planGridCheck
    (fun r => ((d.decide' r).modPlan fun p => { p with writes := p.writes ++ [⟨m, seq, r.flag 0, r.flag 1, r.w32 0, r.w32 4, r.w64 8, false⟩] }).syncPlan)

/-- PLAN_GRID (R298). -/
def execPlanGrid (t m seq : Nat) (s : State) : Host.Outcome State Fault Refusal := s.run t fun now d => d.planGrid now m seq

/-- A roadmap's header (R295, R304; its layout is log entry 32). -/
def Roadmap.parse (id : Nat) (h : List Byte) : Roadmap :=
  { object := id, nx := bytesAt h 4 2, ny := bytesAt h 6 2, nz := bytesAt h 8 2, resMm := bytesAt h 10 2, stepMs := bytesAt h 12 4,
    origin := [bytesAt h 16 4, bytesAt h 20 4, bytesAt h 24 4], nnodes := bytesAt h 28 4, nedges := bytesAt h 32 4, edges := 64, lists := up64 (64 + 16 * bytesAt h 32 4) }

/-- The header's checks (R295, R304). -/
def Roadmap.headChecks (g : Roadmap) (h : List Byte) (size : Nat) : List (Bool × Nat) :=
  let dim (n : Nat) : Bool := decide (16 ≤ n) && decide (n ≤ 256) && n % 16 == 0
  [(bits (bytesAt h 0 4) 30 2 == 0, 3), (dim g.nx, 4), (dim g.ny, 6), (decide (1 ≤ g.nz) && decide (g.nz ≤ 64), 8), (decide (20 ≤ g.resMm) && decide (g.resMm ≤ 200), 10),
   (decide (10 ≤ g.stepMs) && decide (g.stepMs ≤ 1000), 12), (decide (1 ≤ g.nnodes) && decide (g.nnodes ≤ 65536), 28),
   (decide (1 ≤ g.nedges) && decide (g.nedges ≤ 262144) && decide (g.lists ≤ size), 32)]

/-- The edges of a roadmap object, each with its offset. -/
def Dev.roadEdges (d : Dev) (g : Roadmap) (l : Loc) : List (Nat × Edge) :=
  (List.range g.nedges).map fun e => (g.edges + 16 * e, Edge.parse (d.locBytes l (g.edges + 16 * e) 16))

/-- The edges' checks (R304, R305). -/
def Dev.edgeChecks (d : Dev) (g : Roadmap) (l : Loc) (size : Nat) : List (Bool × Nat) :=
  let entries (x : Edge) : List (Nat × Nat) := if g.lists + 64 * x.list + 4 * x.nent ≤ size then
    (List.range x.nent).map fun i => (g.lists + 64 * x.list + 4 * i, bytesAt (d.locBytes l (g.lists + 64 * x.list + 4 * i) 4) 0 4) else []
  (d.roadEdges g l).flatMap fun e => [(e.2.gen == 0, e.1 + 3), (decide (e.2.from_ < g.nnodes), e.1 + 6), (decide (e.2.to_ < g.nnodes), e.1 + 4),
      (decide (1 ≤ e.2.dur) && decide (e.2.dur ≤ 16000000), e.1 + 8), (decide (g.lists + 64 * e.2.list + 4 * e.2.nent ≤ size), e.1 + 12)] ++
      (entries e.2).map fun w => let r := runOf w.2; (g.inside (r.1 + r.2.2.2 - 1) r.2.1 r.2.2.1 && decide (bits w.2 3 3 ≤ bits w.2 0 3), w.1)

/-- A roadmap object's first failing field (R295, R304, R305): reserved fields, then the rest. -/
def Dev.roadmapFail (d : Dev) (g : Roadmap) (h : List Byte) (l : Loc) (size : Nat) : Option Fail :=
  let head := g.headChecks h size
  let ok := head.all (·.1)
  firstFail [firstObj .badReserved ([(bits (bytesAt h 0 4) 0 30 == 0, 0), (bytesAt h 36 28 == 0, 36)] ++
      (if ok then (d.roadEdges g l).map fun e => (e.2.rsvd == 0, e.1 + 1) else [])),
    firstObj .badConfig (head ++ if ok then d.edgeChecks g l size else [])]

/-- The checks of planRoadmap, in the order of R352. -/
def Dev.planRoadmapCheck (d : Dev) (r : Req) : Option Fail :=
  let head (r : Req) (l : Loc) : Roadmap × List Byte := (Roadmap.parse (r.w32 0) (d.locBytes l 0 64), d.locBytes l 0 64)
  firstFail [d.front r 3 8 [(4, 16, 16)], d.needPinned (r.w32 0) 0, needCfg (bits (r.w32 4) 0 16 == 0) 4,
    match d.pinned1 (r.w32 0) with
    | some (o, l) =>
      let h := head r l
      firstFail [needCfg (decide (64 ≤ o.size)) 0, d.roadmapFail h.1 h.2 l o.size]
    | none => none,
    need d.plan.geomNext.isNone .busy 0]

/-- PLAN_ROADMAP (R295, R304, R305): the load applies at once, or when running work ends. -/
def Dev.planRoadmap (d : Dev) (now m seq : Nat) : Dev :=
  let head (r : Req) (l : Loc) : Roadmap × List Byte := (Roadmap.parse (r.w32 0) (d.locBytes l 0 64), d.locBytes l 0 64)
  d.command now m seq 0x0902 (fun r => r.flags &&& 511 == 0) d.planRoadmapCheck
    (fun r => match d.pinned1 (r.w32 0) with
      | some (_, l) => ((d.decide' r).modPlan fun p => { p with geomNext := some ((head r l).1, m, seq) }).applyGeom now
      | none => d)

/-- PLAN_ROADMAP (R304). -/
def execPlanRoadmap (t m seq : Nat) (s : State) : Host.Outcome State Fault Refusal := s.run t fun now d => d.planRoadmap now m seq

/-- The edges a DISABLE or ENABLE names (R306, R360): inline, or in a list object. -/
def Dev.edgeList (d : Dev) (r : Req) : List (Nat × Nat) :=
  let n := bits (r.w32 4) 0 16
  if r.w32 0 = 0 then (List.range n).map fun i => (8 + 4 * i, r.w32 (8 + 4 * i))
  else match d.pinned1 (r.w32 0) with
    | some (_, l) => (List.range n).map fun i => (4 * i, bytesAt (d.locBytes l (4 * i) 4) 0 4)
    | none => []

/-- The checks of DISABLE and ENABLE, in the order of R352. -/
def Dev.edgeCheck (d : Dev) (r : Req) : Option Fail :=
  let n (r : Req) : Nat := bits (r.w32 4) 0 16
  let inline_ (r : Req) : Bool := r.w32 0 == 0
  firstFail [d.versionFail r, d.permFail r, r.headerFail 3, need (decide (8 ≤ r.len)) .badConfig 8, r.rsvdFail [(4, 16, 16)],
      if inline_ r then firstFail [needCfg (decide (1 ≤ n r) && decide (n r ≤ 118)) 4, need (r.len == 8 + 4 * n r) .badConfig 8,
        firstFail ((d.edgeList r).map fun e => need (e.2 / 2 ^ 18 == 0) .badReserved (32 + e.1))]
      else firstFail [needCfg (decide (1 ≤ n r) && decide (n r ≤ 1024)) 4, need (r.len == 8) .badConfig 8, d.needPinned (r.w32 0) 0,
        needCfg (match d.pinned1 (r.w32 0) with
          | some (o, _) => decide (4 * n r ≤ o.size)
          | none => false) 4,
        firstFail ((d.edgeList r).map fun e => objFail (e.2 / 2 ^ 18 == 0) .badReserved e.1)]]

/-- DISABLE (flag 1) or ENABLE (flag 2) (R306): the bitmap changes at the commit DT. -/
def Dev.edgeChange (d : Dev) (now m seq flag : Nat) : Dev :=
  d.command now m seq 0x0902 (fun r => r.flags &&& 511 == flag) d.edgeCheck
    (fun r => (d.modPlan fun p => { p with disabled := (d.edgeList r).foldl (fun (t : Tbl Nat) e =>
        if flag = 1 then (if thas t (e.2 % 2 ^ 18) then t else tset t (e.2 % 2 ^ 18) now) else tdel t (e.2 % 2 ^ 18)) p.disabled }).finish now r .ok 0 [])

/-- EDGE_DISABLE (R306). -/
def execEdgeDisable (t m seq : Nat) (s : State) : Host.Outcome State Fault Refusal := s.run t fun now d => d.edgeChange now m seq 1

/-- EDGE_ENABLE (R306). -/
def execEdgeEnable (t m seq : Nat) (s : State) : Host.Outcome State Fault Refusal := s.run t fun now d => d.edgeChange now m seq 2

/-- Settings of PLAN_CTRL that wait are written as a PLAN_RUN of mailbox m that starts a replan, sweep or run is decided (R364). -/
def Dev.planSettle (d : Dev) (now m seq : Nat) : Dev :=
  if (d.req? m seq).elim false fun r => r.code == 0x0903 && d.stewardRuns && d.mayDecide now r then d.settle now 0x0050 0 else d

/-- Fields of PLAN_RUN (R360). -/
def Req.planCell (r : Req) : Nat := r.fld 16 0 17
def Req.ngoals (r : Req) : Nat := r.fld 16 17 7
def Req.planCue (r : Req) : Nat := r.fld 44 0 6

/-- The goal voxels that GOALS holds (R363). -/
def Dev.goalsOf (d : Dev) (r : Req) : List (Nat × Nat) :=
  match d.pinned1 (r.w32 12) with
  | some (o, l) => if 4 * r.ngoals ≤ o.size then (List.range r.ngoals).map fun i => (4 * i, bytesAt (d.locBytes l (4 * i) 4) 0 4) else []
  | none => []
def goalAt (w : Nat) : Nat × Nat × Nat := (bits w 0 8, bits w 8 8, bits w 16 6)

/-- The checks of a PLAN_RUN that starts wavefront runs (R301, R360, R363). -/
def Dev.waveFail (d : Dev) (r : Req) : Option Fail :=
  firstFail [firstFail ((d.goalsOf r).map fun w => objFail (w.2 / 2 ^ 22 == 0) .badReserved w.1), d.needPinned (r.w32 8) 8, d.needPinned (r.w32 12) 12,
    needCfg (decide (1 ≤ r.ngoals) && decide (r.ngoals ≤ 64)) 16,
    match d.plan.geom, d.pinned1 (r.w32 8), d.pinned1 (r.w32 12) with
    | some g, some f, some gl => firstFail ([needCfg (decide (2 * g.voxels ≤ f.1.size)) 8, needCfg (decide (4 * r.ngoals ≤ gl.1.size)) 12] ++
        (d.goalsOf r).map fun w => let q := goalAt w.2; objFail (g.inside q.1 q.2.1 q.2.2) .badConfig w.1)
    | none, _, _ => some (.badConfig, 40)
    | _, _, _ => none]

/-- The reserved fields of PLAN_RUN. -/
def planRsvd : List (Nat × Nat × Nat) := [(16, 24, 8), (20, 16, 16), (44, 6, 26)]

/-- Whether a replan asks for a wavefront run (R311, log entry 33). -/
def Req.asksWave (r : Req) : Bool := r.flag 2 || r.ngoals != 0

/-- The checks of a PLAN_RUN that replans (R310, R360, R363). -/
def Dev.replanFail (d : Dev) (r : Req) : Option Fail :=
  firstFail [d.needPinned (r.w32 0) 0, d.needPinned (r.w32 4) 4, if r.asksWave then d.waveFail r else none,
    needCfg (match d.pinned1 (r.w32 0) with
      | some (o, _) => decide (4256 ≤ o.size)
      | none => false) 0,
    needCfg (match d.pinned1 (r.w32 4) with
      | some (o, _) => decide (64 ≤ o.size)
      | none => false) 4,
    needCfg (d.cellFail r.ctx 6 r.planCell 1 0).isNone 16]

/-- What a PLAN_RUN fixes (R310). -/
def Dev.planCfg (d : Dev) (r : Req) (rep : Bool) : PlanCfg :=
  { mbx := r.mbx, seq := r.seq, ctx := r.ctx, cands := r.w32 0, ring := r.w32 4, field := r.w32 8, goals := (d.goalsOf r).map fun w => goalAt w.2, wave := r.asksWave,
    slices := r.fld 20 0 16, cell := r.planCell, deadlineUs := r.w32 24, checkUs := r.w32 28, repeat_ := rep, cue := r.planCue }

/-- The checks of planRun, in the order of R352. -/
def Dev.planRunCheck (d : Dev) (r : Req) : Option Fail :=
  firstFail [d.front r 15 48 planRsvd, d.replanFail r, need (d.planEn && d.plan.replan.isNone) .busy 0]

/-- PLAN_RUN without flags: one replan from the DT of its acceptance (R310). -/
def Dev.planRun (d : Dev) (now m seq : Nat) : Dev :=
  d.command now m seq 0x0903 (fun r => r.flags &&& 511 == 0) d.planRunCheck
    (fun r => (d.decide' r).startReplan now (d.planCfg r false))

/-- PLAN_RUN (R310, R363). -/
def execPlanRun (t m seq : Nat) (s : State) : Host.Outcome State Fault Refusal := s.run t fun now d => (d.planSettle now m seq).planRun now m seq

/-- A resource that a configuring command names must be the context's own (R365). -/
def Dev.ownFail (d : Dev) (ctx type index : Nat) : Option Fail :=
  match d.owner type index with
  | some (.ctx c) => if c = ctx then none else some (.conflict, c * 2 ^ 16 + ((d.ctx? c).elim 0 Ctx.mbx) * 2 ^ 8)
  | some .device => some (.conflict, 0xFFFFFF00)
  | none => some (.denied, 0)

/-- The checks of planRepeat, in the order of R352. -/
def Dev.planRepeatCheck (d : Dev) (r : Req) : Option Fail :=
  let own := d.ownFail r.ctx 0x09 r.planCue
  firstFail [d.front r 15 48 planRsvd |>.filter (fun f => f.1 == .badVersion || f.1 == .denied),
    own.filter fun f => f.1 == .denied, d.front r 15 48 planRsvd, d.replanFail r,
    needCfg (d.f (r1 .cueChCfg r.planCue) F.cueChCfg.TRIG == 0x17) 44,
    needCfg (decide (1000 * r.w32 24 ≤ d.f (r1 .cueChPeriod r.planCue) F.cueChPeriod.PERIOD)) 24, own, need d.planRep.isNone .busy 0]

/-- PLAN_RUN with REPEAT (R310, R363): replans at each fire of the channel. -/
def Dev.planRepeat (d : Dev) (now m seq : Nat) : Dev :=
  d.command now m seq 0x0903 (fun r => r.flags &&& 511 == 1 || r.flags &&& 511 == 5) d.planRepeatCheck
    (fun r => (d.decide' r).modPlan fun p => { p with rep := some (d.planCfg r true), repCount := 0 })

/-- PLAN_RUN_REPEAT (R310). -/
def execPlanRunRepeat (t m seq : Nat) (s : State) : Host.Outcome State Fault Refusal := s.run t fun now d => d.planRepeat now m seq

/-- The checks of planSweep, in the order of R352. -/
def Dev.planSweepCheck (d : Dev) (r : Req) : Option Fail :=
  firstFail [d.front r 15 48 planRsvd, d.needPinned (r.w32 4) 4,
    needCfg (match d.pinned1 (r.w32 4) with
      | some (o, _) => decide (32768 ≤ o.size)
      | none => false) 4,
    needCfg d.plan.geom.isSome 4, need (d.planEn && d.plan.sweep.isNone) .busy 0]

/-- PLAN_RUN with SWEEP (R309). -/
def Dev.planSweep (d : Dev) (now m seq : Nat) : Dev :=
  d.command now m seq 0x0903 (fun r => r.flags &&& 511 == 2) d.planSweepCheck
    (fun r =>
      let q : Nat × Dev := if d.level = 4 then (let p := d.fresh; (p.1 % 100 + 1, p.2)) else (speedOf d.level, d)
      (((q.2.decide' r).pin d.bank).modPlan fun p => { p with issued := tdel p.issued 3, sweep := some ⟨m, seq, d.bank, d.epoch, r.w64 32, r.w32 40, r.w32 4, q.1, tkeys p.disabled⟩ }).syncPlan)

/-- PLAN_SWEEP (R309). -/
def execPlanSweep (t m seq : Nat) (s : State) : Host.Outcome State Fault Refusal := s.run t fun now d => (d.planSettle now m seq).planSweep now m seq

/-- The checks of planWave, in the order of R352. -/
def Dev.planWaveCheck (d : Dev) (r : Req) : Option Fail :=
  firstFail [d.front r 15 48 planRsvd, d.waveFail r, needCfg (d.cellFail r.ctx 6 r.planCell 1 0).isNone 16, need (d.planEn && d.plan.wave.isNone) .busy 0]

/-- PLAN_RUN with WAVE (R301, R363). -/
def Dev.planWave (d : Dev) (now m seq : Nat) : Dev :=
  d.command now m seq 0x0903 (fun r => r.flags &&& 511 == 4) d.planWaveCheck
    (fun r => (d.decide' r).startWave (some (m, seq)) ((d.goalsOf r).map fun w => goalAt w.2) (r.fld 20 0 16) (r.w32 8) r.planCell)

/-- PLAN_WAVE (R301). -/
def execPlanWave (t m seq : Nat) (s : State) : Host.Outcome State Fault Refusal := s.run t fun now d => (d.planSettle now m seq).planWave now m seq

/-- The checks of planStop, in the order of R352. -/
def Dev.planStopCheck (d : Dev) (r : Req) : Option Fail :=
  firstFail [d.front r 15 48 planRsvd |>.filter (fun f => f.1 == .badVersion || f.1 == .denied),
    match d.planRep with
    | some c => need (c.ctx == r.ctx) .denied 0
    | none => none, d.front r 15 48 planRsvd]

/-- PLAN_RUN with STOP (R363): the repeat is disarmed and its command completes with the number of replans. -/
def Dev.planStop (d : Dev) (now m seq : Nat) : Dev :=
  d.command now m seq 0x0903 (fun r => r.flags &&& 511 == 8) d.planStopCheck
    (fun r => match d.planRep with
      | some c => ((d.modPlan fun p => { p with rep := none }).finishAt now (c.mbx, c.seq) .ok d.plan.repCount []).finish now r .ok 0 []
      | none => d.finish now r .ok 0 [])

/-- PLAN_RUN_STOP (R363). -/
def execPlanRunStop (t m seq : Nat) (s : State) : Host.Outcome State Fault Refusal := s.run t fun now d => d.planStop now m seq

end Sys2Proof.Machine
end

