-- ==== Sys2Proof/Machine/Mode.lean ====
section
/-! DEFINITION. Operating modes: ceilings, the change at its boundary with its cue channels and laws, forced steps, the retraining window,
the floors' source, the power scale (R68 to R80, R88, R104, R316). -/

namespace Sys2Proof.Machine

/-- The least budget period, loop tick and replan period of an envelope in ticks (R68, R310, R315). -/
def bodyMin (env : Nat) : Nat := if env = 0 then 1000000 else if env = 1 then 500000 else 250000
def loopMin (env : Nat) : Nat := if env = 0 then 250000 else if env = 1 then 125000 else 62500
def replanMin (env : Nat) : Nat := if env = 0 then 100000000 else if env = 1 then 40000000 else 20000000

/-- Whether a cascade of class 0 is armed, which makes the budget period the class-0 rate (R77, R362). -/
def Dev.bodyArmed (d : Dev) : Bool := d.fab.cascades.any fun e => e.2.armed && d.ctxClass e.2.ctx == 0

/-- The armed, periodic channel of a trigger target. -/
def Dev.chanFor (d : Dev) (trig : Nat) : Option Nat :=
  (List.range 64).find? fun n => d.fb (r1 .cueChCfg n) F.cueChCfg.ARM && d.fb (r1 .cueChCfg n) F.cueChCfg.PERIODIC && d.f (r1 .cueChCfg n) F.cueChCfg.TRIG == trig

/-- The PERIOD of a channel. -/
def Dev.chanPeriod (d : Dev) (n : Nat) : Nat := d.f (r1 .cueChPeriod n) F.cueChPeriod.PERIOD

/-- The budget period that a change leaves (R72, R79): the command's, or the one in force, lengthened by a forced step to an armed class-0
rate's ceiling. -/
def Dev.newLen (d : Dev) (p : PendMode) : Nat :=
  if p.forced && d.bodyArmed then max d.periodLen (bodyMin p.envelope) else if p.rpl && p.isMode then p.pbuLen else d.periodLen

/-- The new PERIOD of a channel at a change; none where the change leaves it (R72, R79). -/
def Dev.newPeriod (d : Dev) (p : PendMode) (n : Nat) : Option Nat :=
  let trig := d.f (r1 .cueChCfg n) F.cueChCfg.TRIG
  let old := d.chanPeriod n
  let len := d.newLen p
  if p.isMode = false ∨ d.fb (r1 .cueChCfg n) F.cueChCfg.ARM = false ∨ d.fb (r1 .cueChCfg n) F.cueChCfg.PERIODIC = false ∨ old = 0 then none
  else if trig = 1 ∨ trig = 2 then some len
  else if 3 ≤ trig ∧ trig ≤ 10 then (if n = 0 ∧ d.earlyRuns then none else some (if p.forced then max old (loopMin p.envelope) else if p.rpl then p.loops.getD (trig - 3) 0 else old))
  else if 0x13 ≤ trig ∧ trig ≤ 0x16 then some (max 1 (old * len / max 1 d.periodLen))
  else if trig = 0x17 then (if p.forced then some (max old (replanMin p.envelope)) else if p.rpl then some p.replan else none)
  else none

/-- Whether a channel fired at an instant. -/
def Dev.firedAt (d : Dev) (n b : Nat) : Bool := d.recs.any fun r => r.kind == .cueFire && r.body == [n, d.f (r1 .cueChCfg n) F.cueChCfg.TRIG, b]

/-- A channel takes its new PERIOD at boundary b and keeps its phase (R72). -/
def Dev.retime (d : Dev) (b n period : Nat) : Dev :=
  let old := d.chanPeriod n
  let raw := ((d.rn (r1 .cueChTime n) : Int) - (b : Int)) % (old : Int)
  let phase := if (old : Int) < 2 * raw then raw - old else raw
  let first := ((b : Int) + phase % (period : Int)).toNat
  let time := if first = b ∧ d.firedAt n b then b + period else first
  (d.sf (r1 .cueChPeriod n) F.cueChPeriod.PERIOD period).wn (r1 .cueChTime n) time

/-- CUE_RETIME (R72): every channel that the change retimes. -/
def Dev.retimeAll (d : Dev) (b : Nat) (p : PendMode) : Dev :=
  let all := (List.range 64).filterMap fun n => (d.newPeriod p n).map fun x => (n, x)
  all.foldl (fun (d : Dev) e => d.retime b e.1 e.2) d

/-- What an armed law becomes under a new tick period (R316): its DIV, its alternate, or nothing that fits. -/
def Engine.lawAt (e : Engine) (tick : Nat) (a : ArmedLaw) : Option (Nat ⊕ Nat) :=
  let fits (desc : List Byte) : Bool := tick != 0 && lawPeriod desc % tick == 0 && decide (1 ≤ lawPeriod desc / tick) && decide (lawPeriod desc / tick ≤ 16)
  match e.desc a.slot with
  | none => none
  | some ds =>
    if fits ds then some (.inl (lawPeriod ds / tick))
    else if lawAltEn ds then
      (match e.desc (lawAltSlot ds) with
       | some alt =>
         if fits alt && !(e.armed.any fun x => x.slot == lawAltSlot ds) && (lawJoints alt).all (fun j => (lawJoints ds).contains j) then some (.inr (lawAltSlot ds)) else none
       | none => none)
    else none

/-- The laws of an engine at a change (R79, R316, R331): each takes its new DIV or its alternate, and where one no longer fits the engine holds;
answers the contexts whose laws changed. -/
def Dev.lawsAt (d : Dev) (b n : Nat) : Dev × List Nat :=
  let e := d.eng n
  let tick := d.tickPeriod n
  if e.armed = [] ∨ tick = 0 ∨ d.isEarly n then (d, [])
  else
    let next (a : ArmedLaw) : ArmedLaw := match e.lawAt tick a with
      | some (.inl div) => { a with div := div }
      | some (.inr s) => e.newLaw s b tick (some a.x) a.mbx a.ctx
      | none => a
    let lost := e.armed.any fun a => (e.lawAt tick a).isNone
    let changed := e.armed.filter fun a => match e.lawAt tick a with
      | some (.inl div) => div != a.div
      | _ => true
    (d.setEng n { e with armed := e.armed.map next, holdCmd := e.holdCmd || lost }, changed.map ArmedLaw.ctx)

/-- CPC_MODE.STATE: 2 while a window is open, else 3 or 1 with a change pending (CPC_MODE). -/
def Dev.syncCpc (d : Dev) : Dev :=
  d.sf (r0 .cpcMode) F.cpcMode.STATE (if d.windowOpen then 2 else match d.pbu.pend with
    | some p => if p.forced then 3 else 1
    | none => 0)

/-- A notice of KIND 1 to every context of a list (R79, R359). -/
def Dev.noticeCtxs (d : Dev) (now : Nat) (cs : List Nat) (cause : Key) : Dev :=
  cs.eraseDups.foldl (fun (d : Dev) c => match d.ctx? c with
    | some x => d.notice now x.mbx 1 c .degraded cause
    | none => d) d

/-- Owners of configurations that a forced step changes at its boundary (R79, R88): of retimed channels and of fixed budgets that shrink. -/
def Dev.forcedOwners (d : Dev) (p : PendMode) : List Nat :=
  let chans := (List.range 64).filter fun n => (d.newPeriod p n).elim false fun x => x != d.chanPeriod n
  let owners := chans.filterMap fun n => match d.owner 0x09 n with
    | some (.ctx c) => some c
    | _ => none
  let shrunk := (d.classesOf 2).filter fun c => (List.range 4).any fun r =>
    decide (capacity p.envelope (d.newLen p) r < ((d.classesOf 2).map fun x => d.fixedBudget x r).sum) && d.fixedBudget c r != 0
  owners ++ (d.fab.ctxs.filter fun e => shrunk.contains e.2.cls).map (·.1)

/-- The critical classes whose floor is the ceiling budget (R104). -/
def Dev.defaulted (d : Dev) : List Nat := (List.range 16).filter fun c => d.crit c && d.wantsDefault d.envelope c

/-- CAL_DEFAULT of one class changes; the change goes to the almanac with its recalibration request (R104). -/
def Dev.setDefault (d : Dev) (now c : Nat) (b : Bool) : Dev :=
  let r := r1 .pbuClassCfg c
  if d.fb r F.pbuClassCfg.CAL_DEFAULT = b then d else (d.sf r F.pbuClassCfg.CAL_DEFAULT (b2n b)).almMc 0x048 1 now [c, d.envelope, b2n b]

/-- CAL_DEFAULT of every class follows the floors of a mode change (R104). -/
def Dev.applyFloors (d : Dev) (now : Nat) : Dev :=
  let want := d.defaulted
  let d1 := (List.range 16).foldl (fun (d : Dev) c => d.setDefault now c (want.contains c)) d
  { d1 with pbu := { d1.pbu with floorDue := [] } }

/-- The shadow bank takes the floors that wait, to be swapped in with them; while a change is pending its bank takes them (R104).  DESIGN
CHOICE, unsafe (log entry 12): floors that do not fit their group leave that group's shadow budgets as they are. -/
def Dev.shadowFloors (d : Dev) : Dev :=
  match d.pbu.pend with
  | some p => if d.pbu.swapSet then d else d.reshadow .asNow p.forced p.envelope p.profile (d.newLen p)
  | none => (d.reshadow (.inForce true) true d.envelope d.profile d.periodLen).sf (r0 .pbuCtrl) F.pbuCtrl.SWAP (b2n (d.pbu.swapSet || d.pbu.floorDue != []))

/-- The steward follows the conditions of R104: the source of a class's floor that is to change waits for a period start at least 50 µs after
the change arose, and no longer waits once its condition is gone; budgets and SWAP follow. -/
def Dev.watchFloors (d : Dev) (now : Nat) : Dev :=
  if d.stewardRuns = false then d
  else
    let want := d.defaulted
    let due := (List.range 16).filterMap fun c =>
      if d.fb (r1 .pbuClassCfg c) F.pbuClassCfg.CAL_DEFAULT = want.contains c then none else some (c, tgetD d.pbu.floorDue c (now + 50000))
    let d1 := { d with pbu := { d.pbu with floorDue := due } }
    if tkeys due = tkeys d.pbu.floorDue then d1 else d1.shadowFloors

/-- At a period start at b the changes of floor source that have waited 50 µs take effect with their budgets, in one step; the others go on
waiting (R90, R104).  A swap that a BUDGET_SET asked for is made with the sources in force. -/
def Dev.floorSwap (d : Dev) (now b : Nat) : Dev :=
  let due := d.pbu.floorDue.filter fun e => decide (e.2 ≤ b)
  if due = [] then
    (if d.fb (r0 .pbuCtrl) F.pbuCtrl.SWAP = false then d
     else if d.pbu.floorDue = [] then d.swapBank
     else if d.pbu.swapSet then ((d.reshadow (.inForce false) true d.envelope d.profile d.periodLen).swapBank).shadowFloors
     else d)
  else
    let d1 := due.foldl (fun (d : Dev) e => d.setDefault now e.1 !(d.fb (r1 .pbuClassCfg e.1) F.pbuClassCfg.CAL_DEFAULT)) d
    let d2 : Dev := { d1 with pbu := { d1.pbu with floorDue := d1.pbu.floorDue.filter fun e => !decide (e.2 ≤ b) } }
    let d3 := (d2.reshadow (.inForce false) true d2.envelope d2.profile d2.periodLen).swapBank
    if d3.pbu.floorDue = [] then d3 else d3.shadowFloors

/-- Whether the far store's conservative default is to be in force (R105): no accepted record for the envelope, or a hotter sensor than its
band. -/
def Dev.farWants (d : Dev) : Bool :=
  match tget d.pbu.trained d.envelope with
  | some rec_ => decide (bits (bytesAt rec_ 17 1) 2 2 < d.hotBand)
  | none => true

/-- The far store's training values fall back to the conservative default, or return to the record, as the conditions stand; a change goes to
the almanac with its recalibration request (R104, R105). -/
def Dev.watchFar (d : Dev) (now : Nat) : Dev :=
  if d.farWants = d.pbu.farDefault then d
  else ({ d with pbu := { d.pbu with farDefault := d.farWants, recal := d.farWants } }).almMc 0x048 1 now [16, d.envelope, b2n d.farWants]

/-- MODE_CHANGE at boundary b (R71 to R73, R77, R79, R88, R90, R316): envelope, profile, channels, period, shadow bank, cameras, laws; the
window of a mode change opens, a profile change completes. -/
def Dev.modeChange (d : Dev) (now b : Nat) (p : PendMode) : Dev :=
  let len := d.newLen p
  let owners := if p.forced then d.forcedOwners p else []
  let d1 := d.retimeAll b p
  let r := r0 .cpcMode
  let d2 := (((d1.sf r F.cpcMode.ENVELOPE p.envelope).sf r F.cpcMode.PROFILE p.profile).wn (r0 .cpcModeAt) b).wn (r0 .pbuPeriod) len
  let d3 := ({ d2 with pbu := { d2.pbu with pend := none } }).reshadow .asNow p.forced p.envelope p.profile len
  let k := d3.draw 0x3000 b
  let stopped := (List.range 8).foldl (fun (d : Dev) n => if p.camStop.testBit n then d.sf (r1 .camPortCfg n) F.camPortCfg.EN 0 else d) (k.2.wn (r0 .camLimit) (camLimitOf p.envelope))
  let d4 := stopped.syncCamLoad.camFit now k.1 8
  let q := (List.range 8).foldl (fun (acc : Dev × List Nat) n => let x := acc.1.lawsAt b n; (x.1, acc.2 ++ x.2)) (d4, [])
  let d5 := ((if p.forced then q.1.noticeCtxs now (owners ++ q.2) k.1 else q.1).applyFloors now).watchFar now
  let d6 := (d5.alm 0x030 0 k.1 now [p.envelope, p.profile, b2n p.forced]).raise 2
  if p.isMode then ({ d6 with pbu := { d6.pbu with windowFrom := some b, windowReq := p.req } }).syncCpc
  else match p.req with
    | some ms => d6.syncCpc.finishAt now ms .ok 0 []
    | none => d6.syncCpc

/-- Whether a pending change applies at a period-start cue at b (R71, R78). -/
def Dev.boundaryAt (d : Dev) (b : Nat) (p : PendMode) : Bool :=
  !d.windowOpen && decide (50000 ≤ d.elapsed p.writtenAt b) && (d.rn (r0 .cpcWindowEnd) == 0 || decide (50000 ≤ d.elapsed (d.rn (r0 .cpcWindowEnd)) b))

/-- A change becomes the pending one; an earlier one is replaced and its request completes with SUPERSEDED (R78, R79). -/
def Dev.setPend (d : Dev) (now : Nat) (p : PendMode) (by_ : Nat) : Dev :=
  let d1 := match d.pbu.pend.bind PendMode.req with
    | some ms => d.finishAt now ms .superseded by_ []
    | none => d
  let r := r0 .cpcMode
  let d2 := ({ d1 with pbu := { d1.pbu with pend := some p } }).sf r F.cpcMode.PEND_ENVELOPE p.envelope
  let d3 := (d2.sf r F.cpcMode.PEND_PROFILE p.profile).syncCpc
  if d3.pbu.swapSet then d3 else (d3.sf (r0 .pbuCtrl) F.pbuCtrl.SWAP 0).shadowFloors

/-- The MC forces a step down by one envelope (R79); none below Endurance.  DESIGN CHOICE, safe (log entry 35): a forced step that arises while
another one is pending is no further step. -/
def Dev.forceStep (d : Dev) (now : Nat) : Dev :=
  let env := d.envelope
  let same := d.pbu.pend.elim false fun p => p.forced
  if env = 0 ∨ d.on 156 = false ∨ same then d
  else
    let p : PendMode := { writtenAt := now, envelope := env - 1, profile := d.profile, forced := true, isMode := true, req := none, rpl := false, pbuLen := 0, loops := [], replan := 0, camStop := 0 }
    (d.setPend now p (2 ^ 23 + 1)).almMc 0x030 1 now [env, env - 1]

/-- FORCED_STEP (R79). -/
def execForcedStep (t : Nat) (s : State) : Host.Outcome State Fault Refusal :=
  s.run t fun now d => if d.mc.running then d.forceStep now else d

/-- The retraining window closes at end_ (R73 to R75): the far store at its new rate, or at 4,800 MT/s with FAR_LOW; the MODE_SET completes,
parked descriptors may resume. -/
def Dev.closeWindow (d : Dev) (now end_ : Nat) (low : Bool) : Dev :=
  let d1 := (d.sf (r0 .cpcMode) F.cpcMode.FAR_LOW (b2n low)).wn (r0 .cpcWindowEnd) end_
  let req := d1.pbu.windowReq
  let d2 := ({ d1 with pbu := { d1.pbu with windowFrom := none, windowReq := none } }).syncCpc
  let d3 := if low then (d2.almMc 0x030 2 now [d2.envelope, 4800]).raise 2 else d2
  let d4 := match req with
    | some ms => d3.finishAt now ms (if low then .degraded else .ok) (d3.rn (r0 .cpcMode)) []
    | none => d3
  (List.range 12).foldl (fun (d : Dev) e => d.resumeParked now e) d4

/-- A calibration record's first 24 bytes (R102). -/
def calHead (k : Key) (kind mode load cls tband margin periods : Nat) : List Byte :=
  k.bytes ++ leBytes 1 (kind * 16 + mode * 4 + load) ++ leBytes 1 (cls * 16 + tband * 4) ++ leBytes 2 margin ++ leBytes 4 periods

/-- The data rate of the far store in MT/s of an envelope (R68). -/
def farRate (env : Nat) : Nat := if env = 0 then 4800 else if env = 1 then 6400 else 8000

/-- A window that is open at its end of 2 ms closes there without a training (R75). -/
def Dev.windowTimeout (d : Dev) (now : Nat) : Dev :=
  match d.pbu.windowFrom with
  | some b => if d.dueAfter b 2000000 ≤ now then d.closeWindow now (d.dueAfter b 2000000) true else d
  | none => d

/-- Far-store training for an envelope that began at an instant completes with its values (R73, R76): the KIND 1 record is written, and kept for
its envelope where the conditions of R103 accept it; a record refused leaves the conservative default, with the almanac's CAL_ENVELOPE and a
recalibration request (R104, R105).  squall: the steward ran the squall generator at 100 % for the 10 ms before. -/
def Dev.farTrained (d : Dev) (now env began : Nat) (squall : Bool) (vals : List Nat) : Dev :=
  let load := if squall then 2 else d.trainLoad began
  let k := d.draw 0x3000 now
  let body := (List.range 60).map fun i => BitVec.ofNat 8 (vals.getD i 0)
  let rec_ := calHead k.1 1 env load 0 k.2.hotBand 0 0 ++ body ++ leBytes 2 (farRate env) ++ leBytes 10 0
  let d1 := if load = 2 then { k.2 with pbu := { k.2.pbu with trained := tset k.2.pbu.trained env rec_, recal := false } }
    else ({ k.2 with pbu := { k.2.pbu with recal := true } }).alm 0x048 1 k.1 now [16, env, Status.calEnvelope.code]
  (d1.almPost ⟨k.1, 0x030, 0, k.1.src, now, rec_⟩).watchFar now

/-- The power cap of an envelope in W as FP32 (R68): 45, 95, 180; the limit that must never be exceeded (R80): 45, 95, 210. -/
def powerCap (env : Nat) : F32 := if env = 0 then 0x42340000 else if env = 1 then 0x42BE0000 else 0x43340000
def powerLimit (env : Nat) : F32 := if env = 2 then 0x43520000 else powerCap env

/-- POWER_LIMIT_BROKEN (R80): avg: the 10 ms average of the module input power in W; overMs: for how much of the last 20 s it exceeded
180 W. -/
def execPowerLimitBroken (t : Nat) (avg : F32) (overMs : Nat) (s : State) : Host.Outcome State Fault Refusal :=
  s.run t fun now d =>
    let broken := f32Lt (powerLimit d.envelope) avg || (d.envelope == 2 && f32Lt (powerCap 2) avg && decide (2000 < overMs))
    if d.on 156 && broken && !d.fb (r0 .pbuStat) F.pbuStat.POWER_SCALED then ((d.sf (r0 .pbuStat) F.pbuStat.POWER_SCALED 1).almMc 0x030 2 now [avg.toNat]).raise 3 else d

end Sys2Proof.Machine
end

