-- ==== Sys2Proof/Machine/Almanac.lean ====
section
/-! DEFINITION. The almanac's ring and checkpoints, signed objects, and what the management controller answers (R422 to R437). -/

namespace Sys2Proof.Machine

/-- A 48-byte digest, the bytes of an info string. -/
def sha (bs : List Byte) : List Byte := fixed 48 (Config.sha384 bs)
def asciiBytes (s : String) : List Byte := s.toList.map fun c => BitVec.ofNat 8 c.toNat

/-- The 32-byte seed of a secret for an info string (R424). -/
def seedOf (secret : List Byte) (info : String) : List Byte := fixed 32 (Config.hkdf384 secret (asciiBytes info))

/-- The DeviceID and alias seeds of their secrets, Ed25519 then ML-DSA-65 (R424). -/
def deviceSeeds (uds : List Byte) : List Byte := seedOf uds "OL DevID Ed25519" ++ seedOf uds "OL DevID MLDSA65"
def aliasSeeds (cdi : List Byte) : List Byte := seedOf cdi "OL Alias Ed25519" ++ seedOf cdi "OL Alias MLDSA65"

/-- The MC's seeds, from a secret of its own and M_MC (R424). -/
def Dev.mcSeeds (d : Dev) : List Byte := seedOf (Config.mcSecret ++ d.mc.mMC) "Ed25519" ++ seedOf (Config.mcSecret ++ d.mc.mMC) "MLDSA65"

/-- The two public keys of two seeds (R424). -/
def edKey (seeds : List Byte) : List Byte := fixed 32 (Config.edPublic (seeds.take 32))
def mlKey (seeds : List Byte) : List Byte := fixed 1952 (Config.mlPublic (seeds.drop 32))

/-- A signed object (R425): both signatures over the header and payload. -/
def signed (kind : Nat) (k : Key) (seeds payload : List Byte) : List Byte :=
  let body := leBytes 4 (kind % 64 * 2 ^ 24 + payload.length % 2 ^ 16) ++ List.replicate 12 0 ++ k.bytes ++ sha (edKey seeds ++ mlKey seeds) ++ List.replicate 48 0 ++ payload
  body ++ fixed 64 (Config.edSign (seeds.take 32) body) ++ fixed 3309 (Config.mlSign (seeds.drop 32) body)

/-- The ring's place in the system area and its size (R432, the system area's table). -/
def ringBase : Nat := 0x19000000
def ringSize : Nat := 0x10000000

/-- Bytes 0 to 47 of a record (R432). -/
def AlmRec.head (r : AlmRec) (aseq boot : Nat) : List Byte :=
  r.key.bytes ++ leBytes 4 (r.kind % 2 ^ 10 * 2 ^ 20 + r.sev % 4 * 2 ^ 18) ++ leBytes 4 r.payload.length ++ leBytes 8 aseq ++ leBytes 4 boot ++ leBytes 4 (r.writer % 2 ^ 16) ++
    leBytes 8 r.at_

/-- The MC writes a record at the write point (R432 to R434): chained to the one before; the ring is erased 1 MiB ahead, the oldest first. -/
def Dev.almStore (d : Dev) (r : AlmRec) : Dev :=
  let n := r.size
  let off := if ringSize < d.mc.wrPos + n then 0 else d.mc.wrPos
  let hd := r.head d.mc.aseq d.mc.boot
  let chain := sha (d.mc.chain ++ hd ++ r.payload)
  let ahead := n + 2 ^ 20
  let hit (x : AlmStored) : Bool := decide (x.offset < off + ahead) && decide (off < x.offset + x.entry.size) || decide (x.offset + ringSize < off + ahead)
  let area := (Memory.clear d.sysArea (ringBase + off) (min ahead (ringSize - off))).clear ringBase (off + ahead - ringSize)
  { d with
    sysArea := area.write (ringBase + off) (hd ++ chain ++ r.payload)
    mc := { d.mc with ring := (d.mc.ring.filter fun x => !hit x) ++ [⟨r, d.mc.aseq, d.mc.boot, chain, off⟩], wrPos := (off + n) % ringSize, aseq := d.mc.aseq + 1, chain := chain, sinceCkpt := d.mc.sinceCkpt + 1 } }

/-- Whether the MC can write the ring: it runs its firmware and the flash is on (R413, R434). -/
def Dev.ringUp (d : Dev) : Bool := d.mc.running && !d.mcHalted && d.on 168

/-- The MC writes what it holds, then one lost record for those it could not keep (R434); MC_LOG commands complete. -/
def Dev.almFlush (d : Dev) (now : Nat) : Dev :=
  if d.ringUp = false then d
  else
    let d1 := d.mc.buf.foldl (fun (d : Dev) r => d.almStore r) { d with mc := { d.mc with buf := [] } }
    let d2 := match d1.mc.bufLost with
      | some x =>
        let k := d1.draw 0x3000 now
        ({ k.2 with mc := { k.2.mc with bufLost := none } }).almStore ⟨k.1, 0x0FF, 1, k.1.src, now, leBytes 8 x.number ++ leBytes 8 x.first ++ leBytes 8 x.last⟩
      | none => d1
    let logs := d2.stew.inflight.filter fun r => r.code == 0x0C02 && r.decided && !r.flag 0
    if d.mc.buf = [] ∧ d.mc.bufLost = none then d2 else (logs.foldl (fun (d : Dev) r => d.finish now r .ok 0 []) d2).raise 875

/-- The MC writes a checkpoint (R425, R433). -/
def Dev.almCkpt (d : Dev) (now : Nat) : Dev :=
  if d.ringUp = false then d
  else
    let k := d.draw 0x3000 now
    let d1 := k.2.almStore ⟨k.1, 0x0F0, 0, k.1.src, now, signed 5 k.1 k.2.mcSeeds (leBytes 8 (k.2.mc.aseq - 1) ++ fixed 48 k.2.mc.chain)⟩
    { d1 with mc := { d1.mc with sinceCkpt := 0, ckptAt := now } }

/-- ALMANAC_WRITE (R434). -/
def execAlmanacWrite (t : Nat) (s : State) : Host.Outcome State Fault Refusal := s.run t fun now d => d.almFlush now

/-- CHECKPOINT (R433): after 1,024 records, or 10 s while records arrive. -/
def execCheckpoint (t : Nat) (s : State) : Host.Outcome State Fault Refusal :=
  s.run t fun now d => if 1024 ≤ d.mc.sinceCkpt ∨ (d.mc.sinceCkpt ≠ 0 ∧ 10000000000 ≤ d.elapsed d.mc.ckptAt now) then d.almCkpt now else d

/-- The request that a command row would carry out now: in flight, of the code and form, decidable, every check passed (R352, R353). -/
def Dev.passing (d : Dev) (now m seq code : Nat) (form : Req → Bool) (check : Req → Option Fail) : Option Req :=
  match d.req? m seq with
  | none => none
  | some r => if d.stewardRuns && r.code == code && form r && d.mayDecide now r && (check r).isNone then some r else none

/-- Fields of MC_QUERY (R360). -/
def Req.mcItem (r : Req) : Nat := r.fld 0 0 16
def Req.mcIndex (r : Req) : Nat := r.fld 0 16 16

/-- Whether a request is an update item, and the image KIND it is about (R431, R435). -/
def Req.isUpdate (r : Req) : Bool := r.code == 0x0C01 && decide (0x0030 ≤ r.mcItem) && decide (r.mcItem ≤ 0x0033)
def Dev.updateKind (d : Dev) (r : Req) : Nat :=
  if r.mcItem = 0x0030 then ((tget d.slu.objs r.mcIndex).bind (Obj.copy · 1)).elim 16 fun l => bits (bytesAt (d.locBytes l 0 4) 0 4) 26 4 else r.mcIndex

/-- The MC serves the update items of one KIND in order-key order (R436). -/
def Dev.updateTurn (d : Dev) (r : Req) : Bool :=
  !r.isUpdate || d.stew.inflight.all fun x => x.decided || !x.isUpdate || d.updateKind x != d.updateKind r || !(x.orderKey d).lt (r.orderKey d)

/-- Whether the MC answers a query: it is not halted, and its ROM service answers update items only (R413, R456). -/
def Dev.mcAnswers (d : Dev) (item : Nat) : Bool := !d.mcHalted && (!d.mc.romOnly || (decide (0x0030 ≤ item) && decide (item ≤ 0x0033)))

/-- The checks of MC_QUERY (R431): admin items, LEN, the range of INDEX, BUSY while the MC restarts (R417). -/
def Dev.mcFail (d : Dev) (r : Req) (admin : Bool) (indexOk : Bool) (more : Option Fail) : Option Fail :=
  firstFail [d.versionFail r, d.permFail r, need (!admin || d.fb (r1 .pmapMbx r.mbx) F.pmapMbx.MC_ADMIN) .denied 0, d.front r 0 4 [], needCfg indexOk 2, need d.mc.running .busy 0, more]

/-- An MC_QUERY of an item. -/
def Dev.mcQuery (d : Dev) (now m seq item : Nat) (admin : Bool) (index : Nat → Bool) (more : Req → Option Fail) (effect : Req → Dev) : Dev :=
  d.command now m seq 0x0C01 (fun r => r.mcItem == item && d.mcAnswers item && d.updateTurn r) (fun r => d.mcFail r admin (index r.mcIndex) (more r)) fun r => (effect r).raise 875

/-- The smaller and the larger of two readings. -/
def f32Min (a b : F32) : F32 := if f32Lt b a then b else a
def f32Max (a b : F32) : F32 := if f32Lt a b then b else a

/-- A sensor takes a reading with the extremes sampled since the last one (R428, R431). -/
def Sensor.take (x : Option Sensor) (v lo hi : F32) (now : Nat) : Sensor :=
  match x with
  | some y => { value := v, min := f32Min y.min (f32Min lo v), max := f32Max y.max (f32Max hi v), at_ := now }
  | none => { value := v, min := f32Min lo v, max := f32Max hi v, at_ := now }

/-- A reading's four bytes. -/
def f32Bytes (v : F32) : List Byte := leBytes 4 v.toNat

/-- A temperature reading: a calibration run keeps the hottest band (R102), and a change of band may change the floors' source and the far
store's (R104, R105). -/
def Dev.tempRead (d : Dev) (now i : Nat) (v lo hi : F32) : Dev :=
  let d1 := { d with mc := { d.mc with temps := tset d.mc.temps i (Sensor.take (tget d.mc.temps i) v lo hi now) } }
  ((({ d1 with pbu := { d1.pbu with calRun := d1.pbu.calRun.map fun (r : CalRun) => if r.begun then { r with band := max r.band d1.hotBand } else r } }).watchFloors now).watchFar now)

/-- A rail's readings; rail 0 is the input (R428, R462). -/
def Dev.railRead (d : Dev) (now i : Nat) (v a : F32) : Dev :=
  let d1 := { d with mc := { d.mc with volts := tset d.mc.volts i (Sensor.take (tget d.mc.volts i) v v v now), amps := tset d.mc.amps i (Sensor.take (tget d.mc.amps i) a a a now) } }
  if i = 0 then { d1 with mc := { d1.mc with vin := v, vinLow := d1.mc.vinLow && f32Lt v 0x41C00000, iin := a, inputAt := now } } else d1

/-- A humidity reading; condensation is flagged at a margin below 2 K (R428). -/
def Dev.humidityRead (d : Dev) (now : Nat) (rh margin : F32) : Dev :=
  { d with mc := { d.mc with rh := Sensor.take (some d.mc.rh) rh rh rh now, margin := Sensor.take (some d.mc.margin) margin margin margin now, condense := f32Lt margin 0x40000000 } }

/-- TEMP (R431): the MC's newest reading of the sensor and the extremes since the last one. -/
def execTemp (t m seq : Nat) (v lo hi : F32) (s : State) : Host.Outcome State Fault Refusal :=
  s.run t fun now d => d.mcQuery now m seq 0x0001 false (fun i => decide (i < 32)) (fun _ => none) fun r =>
    let d1 := d.tempRead now r.mcIndex v lo hi
    let x := (tget d1.mc.temps r.mcIndex).getD {}
    d1.finish now r .ok 0 (f32Bytes x.value ++ f32Bytes x.min ++ f32Bytes x.max ++ leBytes 4 0 ++ leBytes 8 now)

/-- RAIL (R431). -/
def execRail (t m seq : Nat) (v a : F32) (s : State) : Host.Outcome State Fault Refusal :=
  s.run t fun now d => d.mcQuery now m seq 0x0002 false (fun i => decide (i < 40)) (fun _ => none) fun r =>
    (d.railRead now r.mcIndex v a).finish now r .ok 0 (f32Bytes v ++ f32Bytes a ++ leBytes 8 now)

/-- HUMIDITY (R431). -/
def execHumidity (t m seq : Nat) (rh margin : F32) (s : State) : Host.Outcome State Fault Refusal :=
  s.run t fun now d => d.mcQuery now m seq 0x0003 false (· == 0) (fun _ => none) fun r =>
    let d1 := d.humidityRead now rh margin
    d1.finish now r .ok 0 (f32Bytes rh ++ f32Bytes margin ++ leBytes 4 (b2n d1.mc.condense) ++ leBytes 4 0 ++ leBytes 8 now)

/-- SHOCK (R431). -/
def execShock (t m seq : Nat) (s : State) : Host.Outcome State Fault Refusal :=
  s.run t fun now d => d.mcQuery now m seq 0x0004 false (· == 0) (fun _ => none) fun r =>
    d.finish now r .ok 0 (f32Bytes d.mc.peak ++ leBytes 4 d.mc.falls ++ leBytes 4 d.mc.impacts ++ leBytes 4 0 ++ leBytes 8 d.mc.shockLast)

/-- Hold-up energies in units of 1/600 fJ: above 28 V of a capacitance in nF and a voltage in mV, and what a part of some bytes needs, 14 W at
2.4 GB/s and 0.2 J (R439). -/
def energyAvail (nF mV : Nat) : Nat := 270 * nF * (mV ^ 2 - 28000 ^ 2)
def energyNeed (bytes : Nat) : Nat := 3500000000 * bytes + 120000000000000000

/-- The energy that running parts of safe stores reserve, times 1.5 (R439): in halves of the unit. -/
def Dev.energyReserved (d : Dev) (mbx seq : Nat) : Nat :=
  (d.mc.stores.map fun x => if x.mbx = mbx ∧ x.seq = seq then 0 else (x.running.map fun p => 3 * energyNeed (min x.part (x.size - p * x.part))).sum).sum

/-- An energy in halves of the unit, in joules as FP32 (R431). -/
def joules (halves : Int) : List Byte := leBytes 4 (enc32 ((FV.ofInt halves 0).div (FV.ofInt (1200 * 10 ^ 15 : Nat) 0)))

/-- HOLDUP (R431): the bank's voltage in mV. -/
def execHoldup (t m seq vNow : Nat) (s : State) : Host.Outcome State Fault Refusal :=
  s.run t fun now d => d.mcQuery now m seq 0x0005 false (· == 0) (fun _ => none) fun r =>
    let d1 := { d with mc := { d.mc with bankMv := vNow } }
    d1.finish now r .ok 0 (leBytes 4 (enc32 ((FV.ofInt d.mc.cMeas 0).div (FV.ofInt (10 ^ 9 : Nat) 0))) ++ leBytes 4 (enc32 ((FV.ofInt vNow 0).div (FV.ofInt 1000 0))) ++
      joules (540 * (d.mc.cMeas : Int) * ((vNow : Int) ^ 2 - 28000 ^ 2)) ++ joules (d.energyReserved 256 0) ++ leBytes 8 d.mc.cAt)

/-- INPUT (R431): voltage, current and the 10 ms average of the power. -/
def execInput (t m seq : Nat) (vin iin pAvg : F32) (s : State) : Host.Outcome State Fault Refusal :=
  s.run t fun now d => d.mcQuery now m seq 0x0006 false (· == 0) (fun _ => none) fun r =>
    let d1 := d.railRead now 0 vin iin
    ({ d1 with mc := { d1.mc with pAvg := pAvg } }).finish now r .ok 0 (f32Bytes vin ++ f32Bytes iin ++ f32Bytes pAvg ++ leBytes 4 0 ++ leBytes 8 now)

/-- The measurements of this boot (R411, R431). -/
def Dev.measures (d : Dev) : List Byte := [d.mc.mE, d.mc.mB, d.mc.mS, d.mc.mL, d.mc.mP, d.mc.mMC].flatMap (fixed 48)

/-- MEASURE (R431). -/
def execMeasure (t m seq : Nat) (s : State) : Host.Outcome State Fault Refusal :=
  s.run t fun now d => d.mcQuery now m seq 0x0010 false (· == 0) (fun _ => none) fun r => d.finish now r .ok 0 d.measures

/-- ATTEST (R425, R426): the evidence binds the mailbox's newest MC_LOG record; INDEX 1 writes the three certificates first. -/
def Dev.attest (d : Dev) (otp : Otp) (now : Nat) (r : Req) : Dev :=
  let certs : List (Nat × List Byte) := if r.mcIndex = 1 then (List.range d.mc.certs.length).zip d.mc.certs else []
  let post (d : Dev) (kind : Nat) (k : Key) (bs : List Byte) : Dev := d.almPost ⟨k, kind, 0, k.src, now, bs⟩
  let d1 := certs.foldl (fun (d : Dev) c => let k := d.draw 0x3000 now; post k.2 (0x0A1 + c.1) k.1 c.2) d
  let k := d1.draw (0x2000 + r.mbx) now
  let n := tgetD d.mc.nonces r.mbx ({}, [])
  let payload := n.1.bytes ++ sha n.2 ++ d.measures ++ (List.range 5).map (fun i => BitVec.ofNat 8 (tgetD otp.counters i 0)) ++ List.replicate 3 0 ++ leBytes 4 (d.rn (r0 .cpcMode)) ++ leBytes 4 d.mc.boot
  let aseq := k.2.mc.aseq + k.2.mc.buf.length
  (post k.2 0x0A4 k.1 (signed 4 k.1 d.idn.alias_ payload)).finish now r .ok 0 (leBytes 8 aseq ++ k.1.bytes)

/-- ATTEST (R426). -/
def execAttest (t m seq : Nat) (s : State) : Host.Outcome State Fault Refusal :=
  s.run t fun now d => d.mcQuery now m seq 0x0011 false (fun i => decide (i < 2)) (fun r => needCfg (thas d.mc.nonces r.mbx) 0) fun r => d.attest s.otp now r

/-- COUNTER (R431). -/
def execCounter (t m seq : Nat) (s : State) : Host.Outcome State Fault Refusal :=
  s.run t fun now d => d.mcQuery now m seq 0x0020 false (fun i => decide (i < 64)) (fun _ => none) fun r => d.finish now r .ok 0 (leBytes 4 (tgetD s.otp.counters r.mcIndex 0))

/-- A rollback counter rises to a value and never falls (R427, R435). -/
def Otp.raiseTo (o : Otp) (i v : Nat) : Otp := { o with counters := tset o.counters i (max (tgetD o.counters i 0) (min 255 v)) }

/-- The checks of COUNTER_ADVANCE (R427, R431). -/
def Dev.advanceFail (d : Dev) (o : Otp) (r : Req) : Option Fail :=
  d.mcFail r true (decide (16 ≤ r.mcIndex) && decide (r.mcIndex < 64)) (needCfg (tgetD o.counters r.mcIndex 0 != 255) 2)

/-- COUNTER_ADVANCE (R427). -/
def execCounterAdvance (t m seq : Nat) (s : State) : Host.Outcome State Fault Refusal :=
  let now := s.now t
  let form (r : Req) : Bool := r.mcItem == 0x0021 && s.dev.mcAnswers 0x0021
  let otp := match s.dev.passing now m seq 0x0C01 form (s.dev.advanceFail s.otp) with
    | some r => s.otp.raiseTo r.mcIndex (tgetD s.otp.counters r.mcIndex 0 + 1)
    | none => s.otp
  .next { s with dt := now, otp := otp, dev := s.dev.command now m seq 0x0C01 form (s.dev.advanceFail s.otp) fun r =>
      (s.dev.almMc 0x090 0 now [r.mcIndex, tgetD otp.counters r.mcIndex 0]).finish now r .ok 0 (leBytes 4 (tgetD otp.counters r.mcIndex 0)) |>.raise 875 }

/-- ALMANAC (R431): the next and oldest sequence, records lost, bytes held. -/
def execAlmanac (t m seq : Nat) (s : State) : Host.Outcome State Fault Refusal :=
  s.run t fun now d => d.mcQuery now m seq 0x0040 false (· == 0) (fun _ => none) fun r =>
    d.finish now r .ok 0 (leBytes 8 d.mc.aseq ++ leBytes 8 ((d.mc.ring.head?.map AlmStored.aseq).getD d.mc.aseq) ++ leBytes 4 d.mc.lostTotal ++ leBytes 4 d.mc.buffered)

/-- RESET (R417, R431): the reset follows 10 ms after the completion. -/
def execReset (t m seq : Nat) (s : State) : Host.Outcome State Fault Refusal :=
  s.run t fun now d => d.mcQuery now m seq 0x0050 true (fun i => decide (i < 2)) (fun _ => none) fun r =>
    (({ d with mc := { d.mc with resetAt := some (now + 10000000, r.mcIndex == 1) } }).almMc 0x004 1 now [r.mcIndex]).finish now r .ok 0 []

/-- MC_QUERY_TIMEOUT (R360): the MC has not answered within 10 ms. -/
def execMcQueryTimeout (t m seq : Nat) (s : State) : Host.Outcome State Fault Refusal :=
  s.run t fun now d => match d.req? m seq with
    | some r => if d.stewardRuns ∧ r.code = 0x0C01 ∧ r.decided = false ∧ 10000000 ≤ d.elapsed r.order now then d.finish now r .busy 0 [] else d
    | none => d

/-- Fields of MC_LOG (R360). -/
def Req.logBytes (r : Req) : Nat := r.fld 0 0 16

/-- The checks of mcLog, in the order of R352. -/
def Dev.mcLogCheck (d : Dev) (r : Req) : Option Fail :=
  let inline (r : Req) : Bool := r.w32 4 == 0
  firstFail
    [d.versionFail r, d.permFail r, r.headerFail 1, r.rsvdFail [(0, 16, 16)], need (decide (8 ≤ r.len)) .badConfig 8, needCfg (decide (r.logBytes ≤ (if inline r then 472 else 16384))) 0,
     need (r.len == 8 + (if inline r then r.logBytes else 0)) .badConfig 8,
     if inline r then none else firstFail [d.needPinned (r.w32 4) 4, needCfg (match d.pinned1 (r.w32 4) with
       | some (o, _) => decide (r.logBytes ≤ o.size)
       | none => false) 4],
     need (d.mc.running && decide (d.mc.buffered + (96 + r.logBytes + 31) / 32 * 32 ≤ 2 ^ 20)) .busy 0]

/-- MC_LOG (R360, R426, R432): a record of KIND 0x0B0 from the payload or from an object; it completes when the MC has written it. -/
def Dev.mcLog (d : Dev) (now m seq : Nat) : Dev :=
  let inline (r : Req) : Bool := r.w32 4 == 0
  let data (r : Req) : List Byte := if inline r then (r.payload.drop 8).take r.logBytes else match d.pinned1 (r.w32 4) with
    | some (_, l) => d.locBytes l 0 r.logBytes
    | none => []
  d.command now m seq 0x0C02 (fun r => !r.flag 0 && !d.mcHalted && !d.mc.romOnly) d.mcLogCheck
    fun r =>
      let bs := data r
      let x : AlmRec := ⟨r.key d, 0x0B0, 0, d.src (0x2000 + m), now, bs⟩
      let d1 := (d.decide' r).almPost x
      { d1 with mc := { d1.mc with nonces := tset d1.mc.nonces m (r.key d, bs) } }

/-- MC_LOG (R360). -/
def execMcLog (t m seq : Nat) (s : State) : Host.Outcome State Fault Refusal := s.run t fun now d => d.mcLog now m seq

/-- The bytes of a stored record (R432). -/
def AlmStored.bytes (x : AlmStored) : List Byte :=
  fixed x.entry.size (x.entry.head x.aseq x.boot ++ fixed 48 x.chain ++ x.entry.payload)

/-- Records from a DT on of this boot, in ASEQ order, up to a count (R434). -/
def Dev.almFrom (d : Dev) (from_ count : Nat) : List AlmStored :=
  (d.mc.ring.filter fun x => x.boot == d.mc.boot && decide (from_ ≤ x.entry.at_)).take count

/-- The checks of MC_LOG with READ (R360, R434). -/
def Dev.mcLogReadCheck (d : Dev) (r : Req) : Option Fail := firstFail [d.front r 1 24 [(0, 16, 16), (20, 0, 32)], d.needPinned (r.w32 4) 4, need d.ringUp .busy 0]

/-- MC_LOG with READ (R434): the records are copied to the object as they lie in the ring, as far as they fit. -/
def Dev.mcLogRead (d0 : Dev) (now m seq : Nat) : Dev :=
  let d := if (d0.req? m seq).elim false fun r => r.code == 0x0C02 && r.flag 0 then d0.almFlush now else d0
  d.command now m seq 0x0C02 (fun r => r.flag 0 && !d.mcHalted && !d.mc.romOnly) d.mcLogReadCheck
    fun r => match d.pinned1 (r.w32 4) with
      | some (o, l) =>
        let recs := (d.almFrom (r.w64 8) (r.w32 16)).foldl (fun (bs : List Byte) x => if bs.length + x.entry.size ≤ o.size then bs ++ x.bytes else bs) []
        (d.locPut l 0 recs.length (Memory.relOf 0 recs)).finish now r .ok 0 []
      | none => d

/-- MC_LOG_READ (R434). -/
def execMcLogRead (t m seq : Nat) (s : State) : Host.Outcome State Fault Refusal := s.run t fun now d => d.mcLogRead now m seq

end Sys2Proof.Machine
end

