-- ==== Sys2Proof/Machine/Boot.lean ====
section
/-! DEFINITION. Firmware images and their slots, the boot of the early and main domains, and the boot latch (R410 to R416, R420 to R424, R339, R340). -/

namespace Sys2Proof.Machine

/-- Fields of the first word of an image's header (R410). -/
def imgGen (w : Nat) : Nat := bits w 30 2
def imgKind (w : Nat) : Nat := bits w 26 4
def imgKeySlot (w : Nat) : Nat := bits w 24 2
def imgCtr (w : Nat) : Nat := bits w 18 6
def imgSvn (w : Nat) : Nat := bits w 0 8

/-- Where an image's body begins, its SIZE, its LOAD and ENTRY addresses, its measurement (R410, R411). -/
def imgBody : Nat := 5632
def imgSize (m : Memory) (b : Nat) : Nat := m.le (b + 8) 8
def imgLoad (m : Memory) (b : Nat) : Nat := m.le (b + 16) 8
def imgEntry (m : Memory) (b : Nat) : Nat := m.le (b + 24) 8
def imgMeasure (m : Memory) (b : Nat) : List Byte := sha (m.read b 256)

/-- Where slot A (0) or B (1) of a kind begins in its store and how large it is: the system area's table; the NOR's layout is the model's. -/
def slotBase (kind slot : Nat) : Nat :=
  match kind with
  | 0 => 0x400000 * slot
  | 1 => 0x1000000 + 0x4000000 * slot
  | 2 => 0x9000000 + 0x4000000 * slot
  | 3 => 0x800000 + 0x400000 * slot
  | _ => 0x11000000 + 0x4000000 * slot
def slotSize (kind : Nat) : Nat := if kind = 0 ∨ kind = 3 then 0x400000 else 0x4000000

/-- Whether a stretch holds zeros only. -/
def Memory.zeroAt (m : Memory) (a n : Nat) : Bool := m.all fun c => decide (c.1 < a) || decide (a + n ≤ c.1)

/-- The verifier (R411, R412). -/
def imageOk (o : Otp) (m : Memory) (b kind : Nat) : Bool :=
  let w := m.le b 4
  let hdr := m.read b 256
  let ed := m.read (b + 256) 32
  let ml := m.read (b + 352) 1952
  let ks := imgKeySlot w
  imgGen w == 0 && imgKind w == kind && bits w 8 10 == 0 && m.zeroAt (b + 80) 176 && m.zeroAt (b + 5613) 19 && imgCtr w == kind &&
    (if kind = 4 then decide (2 ≤ ks) else decide (ks < 2)) && decide (imgSize m b + imgBody ≤ slotSize kind) &&
    tget o.edHash ks == some (sha ed) && tget o.mlHash ks == some (sha ml) && !o.revoked.contains ks &&
    Config.edVerify ed (m.read (b + 288) 64) hdr && Config.mlVerify ml (m.read (b + 2304) 3309) hdr &&
    m.read (b + 32) 48 == sha (m.read (b + imgBody) (imgSize m b)) && decide (tgetD o.counters (imgCtr w) 0 ≤ imgSvn w)

/-- The store that holds a kind's slots (R412). -/
def Dev.imgStore (d : Dev) (kind : Nat) : Memory := if kind = 0 ∨ kind = 3 then d.nor else d.sysArea

/-- The update state of a kind. -/
def Dev.upd (d : Dev) (kind : Nat) : Update := tgetD d.mc.updates kind {}
def Dev.setUpd (d : Dev) (kind : Nat) (u : Update) : Dev := { d with mc := { d.mc with updates := tset d.mc.updates kind u } }

/-- Whether a kind's slot passes the verifier. -/
def Dev.slotOk (d : Dev) (o : Otp) (kind slot : Nat) : Bool := imageOk o (d.imgStore kind) (slotBase kind slot) kind

/-- A trial slot that booted three times without confirmation is reverted (R436). -/
def Dev.revertTrial (d : Dev) (now kind : Nat) : Dev :=
  (d.setUpd kind { d.upd kind with state := 0, boots := 0 }).almMc 0x090 1 now [kind, 1 - (d.upd kind).active]

/-- Choose and verify a kind's slot at boot (R413, R436): the slot on trial or the active one, then the other; a refusal goes to the
almanac, a refused trial slot is reverted. -/
def Dev.bootSlot (d0 : Dev) (o : Otp) (now kind : Nat) : Option Nat × Dev :=
  let d := if (d0.upd kind).state = 4 ∧ 3 ≤ (d0.upd kind).boots then d0.revertTrial now kind else d0
  let u := d.upd kind
  let trial := u.state == 4
  let first := if trial then 1 - u.active else u.active
  if d.slotOk o kind first then (some first, d.setUpd kind { u with running := first, boots := if trial then u.boots + 1 else u.boots })
  else
    let d1 := d.almMc 0x003 2 now [kind, first]
    let d2 := if trial then d1.revertTrial now kind else d1
    if d2.slotOk o kind (1 - first) then (some (1 - first), d2.setUpd kind { d2.upd kind with running := 1 - first })
    else (none, d2.almMc 0x003 3 now [kind, 1 - first])

/-- The measurement of a kind's chosen slot; none where both were refused. -/
def Dev.measured (d : Dev) (kind : Nat) (slot : Option Nat) : List Byte :=
  match slot with
  | some s => imgMeasure (d.imgStore kind) (slotBase kind s)
  | none => []

/-- Advances of the image counters that a power loss interrupted are completed (R437). -/
def Dev.completeAdvances (d : Dev) (o : Otp) : Otp :=
  (List.range 5).foldl (fun (o : Otp) k =>
    let b := slotBase k (d.upd k).active
    if d.slotOk o k (d.upd k).active then o.raiseTo k (imgSvn ((d.imgStore k).le b 4)) else o) o

/-- 10^12 times the natural logarithm of V1 / (V1 − 4 V), V1 in mV (R414). -/
def lnRatio (v1 : Nat) : Nat := ([1, 3, 5, 7, 9].map fun k => 2 * 10 ^ 12 * 2000 ^ k / (k * (v1 - 2000) ^ k)).sum

/-- The bank's measured capacitance in nF: the test load of 100 Ω discharges it from V1 to V1 − 4.0 V in a time (R414). -/
def measuredNf (ns v1 : Nat) : Nat := ns * 10 ^ 12 / (100 * lnRatio v1)

/-- A cause of the MC's stop request (R398, R430). -/
def Dev.addCause (d : Dev) (now c : Nat) : Dev :=
  ({ d with mc := { d.mc with causes := if d.mc.causes.contains c then d.mc.causes else c :: d.mc.causes } }).syncStop now
def Dev.dropCause (d : Dev) (now c : Nat) : Dev := ({ d with mc := { d.mc with causes := d.mc.causes.filter (· != c) } }).syncStop now

/-- MC_ALERT# (R430): low while a stop cause or the condensation flag stands. -/
def Dev.mcAlertLow (d : Dev) : Bool := d.mc.causes != [] || d.mc.condense

/-- The MC measures the bank (R414, R464): below 4.0 mF is a hold-up fault. -/
def Dev.measureBank (d : Dev) (now ns v1 : Nat) : Dev :=
  let c := measuredNf ns v1
  let d1 := { d with mc := { d.mc with started := true, cMeas := c, cAt := now } }
  if c < 4000000 then d1.addCause now 3 else d1.dropCause now 3

/-- The MC's firmware is verified and starts (R413, R414, R437). -/
def Dev.mcBoot (d : Dev) (o : Otp) (now : Nat) : Dev :=
  let q := ({ d with mc := { d.mc with running := true }, pow := { d.pow with on := if d.on 171 then d.pow.on else 171 :: d.pow.on } }).bootSlot o now 3
  ({ q.2 with mc := { q.2.mc with romOnly := q.1.isNone, mMC := q.2.measured 3 q.1 } }).almMc 0x001 0 now [3]

/-- MC_START (R414): the time in which the bank's voltage falls by 4.0 V, and the voltage V1 in mV.  After a restart of the MC alone the
processor runs on and nothing is measured, after a cold reset the MC has run on and only measures (R417). -/
def execMcStart (t ns v1 : Nat) (s : State) : Host.Outcome State Fault Refusal :=
  let now := s.now t
  let d := s.dev
  if d.earlyOn then
    .next (if d.mc.running then { s with dt := now } else { s with dt := now, otp := d.completeAdvances s.otp, dev := d.mcBoot s.otp now })
  else if d.mc.started = false ∧ 4000 < v1 ∧ 0 < ns then
    .next (if d.mc.running then { s with dt := now, dev := d.measureBank now ns v1 }
      else { s with dt := now, otp := d.completeAdvances s.otp, dev := (d.mcBoot s.otp now).measureBank now ns v1 })
  else .next { s with dt := now }

/-- The holding image in an early bundle's body (R339, R412). -/
def imgHolding (m : Memory) (b : Nat) : List Byte :=
  let nlaw := bits (m.le (b + imgBody) 4) 23 6 + 1
  m.read (b + imgBody) (min (imgSize m b) (8768 + 4096 * nlaw))

/-- Fields of a holding image (R339). -/
def holdNlaw (im : List Byte) : Nat := bits (bytesAt im 0 4) 23 6 + 1
def holdNjoint (im : List Byte) : Nat := bits (bytesAt im 0 4) 16 7
def holdLaw (im : List Byte) (s : Nat) : List Byte := (im.drop (8768 + 4096 * s)).take 4096

/-- Whether a holding image can be loaded (R339, R340). -/
def holdOk (im : List Byte) : Bool :=
  let w := bytesAt im 0 4
  let n := holdNjoint im
  decide (8768 + 4096 * holdNlaw im ≤ im.length) && bits w 30 2 == 0 && bits w 0 11 == 0 && decide (1 ≤ n) && decide (n ≤ 64) &&
    ((im.drop 8).take 56).all (· == 0) && ((List.range n).all fun j => bits (bytesAt im (64 + 4 * j) 4) 22 10 == 0) &&
    (List.range (holdNlaw im)).all fun s =>
      let l := holdLaw im s
      (lawBad l).isNone && (lawRsvd l).isNone && lawPeriod l == 2000000 && lawDiv l == 1

/-- Engine 0 takes the image's laws with their X0, its joints on port 0, and channel 0 ticks at 500 Hz (R339 to R341, R343). -/
def Dev.holdStartAt (d : Dev) (now : Nat) (im : List Byte) : Dev :=
  let laws := (List.range (holdNlaw im)).map fun s => (s, ({ desc := lawConvert (holdLaw im s) } : LawSlot))
  let e : Engine := { slots := laws, latched := (d.eng 0).latched }
  let armed := (List.range (holdNlaw im)).map fun s => e.newLaw s now 2000000 none 256 0
  let d1 := (d.setEng 0 { e with armed := armed }).modLe fun l => { l with early := { image := im } }
  let d2 := (List.range (holdNjoint im)).foldl (fun (d : Dev) j =>
    let w := bytesAt im (64 + 4 * j) 4
    let r := r1 .leJoint (bits w 16 6)
    ((d.sf r F.leJoint.EN 1).sf r F.leJoint.PORT 0).sf r F.leJoint.JOINT (bits w 0 16)) d1
  let c := r1 .cueChCfg 0
  let d3 := (((d2.sf (r1 .leEngCfg 0) F.leEngCfg.EN 1).sf (r0 .leEarly) F.leEarly.STATE 2).sf (r0 .leEarly) F.leEarly.JOINTS 0).setOwner 0x09 0 (some .device)
  let d4 := ((d3.sf c F.cueChCfg.TRIG 3).sf c F.cueChCfg.PERIODIC 1).sf (r1 .cueChPeriod 0) F.cueChPeriod.PERIOD 2000000
  (((d4.wn (r1 .cueChTime 0) (now + 2000000)).sf c F.cueChCfg.ARM 1).syncEng 0)

/-- The image is absent or refused (R340). -/
def Dev.holdRefused (d : Dev) (now : Nat) : Dev := (d.sf (r0 .leEarly) F.leEarly.STATE 7).almMc 0x070 3 now [7]

/-- Everything but the always-on domain and what flash, NOR and OTP hold loses its state, and every source's counter starts at 0 (R43, R417,
R466, R468). -/
def Dev.cold (d : Dev) (now : Nat) : Dev :=
  { nor := d.nor, sysArea := d.sysArea, free := d.free, module := d.module, bus := d.bus,
    slu := { flash := d.slu.flash }, fab := { uncorr := d.fab.uncorr }, pbu := { trained := d.pbu.trained },
    pow := { on := d.pow.on.filter (· == 171), inputLost := d.pow.inputLost, off := d.pow.off }, dbg := { vref := d.dbg.vref },
    mc := { d.mc with opNs := d.opTime now, started := false, temps := tmap d.mc.temps fun _ x => { x with min := x.value, max := x.value }, heartbeatAt := 0, stewardStopped := false, shockLast := 0, hotAt := 0, ckptAt := 0, violSec := [], stores := [], resetAt := none,
                      updates := tmap d.mc.updates fun _ u => if u.state = 1 then { u with state := 0 } else u,
                      nonces := [], certs := [], mE := [], mB := [], mS := [], mL := [], mP := [] } }

/-- The boot ROM verifies the early bundle and loads the holding image (R412 to R415, R339, R340). -/
def Dev.earlyBoot (d : Dev) (o : Otp) (now : Nat) : Dev :=
  let q := d.bootSlot o now 0
  match q.1 with
  | some s =>
    let im := imgHolding q.2.nor (slotBase 0 s)
    let d1 := { q.2 with mc := { q.2.mc with mE := q.2.measured 0 (some s) } }
    if holdOk im then (d1.holdStartAt now im).almMc 0x001 0 now [0, s] else d1.holdRefused now
  | none => q.2.holdRefused now

/-- EARLY_DOMAIN_RELEASE (R21, R30, R66, R414): the input voltage, the bank's in mV, the module index of the straps (R399).  DT starts from 0. -/
def execEarlyDomainRelease (t : Nat) (vin : F32) (bank module : Nat) (s : State) : Host.Outcome State Fault Refusal :=
  let d := s.dev
  let inRange := f32Le 0x41C00000 vin && f32Le vin 0x42700000
  if d.mc.running ∧ d.mc.started ∧ d.earlyOn = false ∧ d.pow.off = false ∧ d.pow.inputLost = false ∧ inRange ∧ 50000 ≤ bank then
    let d1 := d.cold (s.now t)
    let d2 := { d1 with pow := { d1.pow with on := [169, 170, 171] }, module := module % 4,
                        mc := { d1.mc with started := true, vin := vin, bankMv := bank, boot := d1.mc.boot + 1 } }
    .next { s with dt := 0, frac := 0, dev := (d2.earlyBoot s.otp 0).syncStop 0 }
  else .next { s with dt := s.now t }

/-- PLL_LOCK (R53). -/
def execPllLock (t : Nat) (s : State) : Host.Outcome State Fault Refusal :=
  s.run t fun _ d => if d.earlyOn then { d with pow := { d.pow with pllLocked := true } } else d

/-- UDS_READ (R423, R424): only the early core reads the UDS, once after each cold reset; the boot ROM derives CDI_E and places the DeviceID
seeds in the key vault. -/
def execUdsRead (t c : Nat) (s : State) : Host.Outcome State Fault Refusal :=
  s.run t fun _ d =>
    if c ≠ 10 ∨ d.earlyOn = false then { d with bus := .accessFault }
    else if d.idn.udsRead then { d with bus := .bytes (List.replicate 48 0) }
    else
      let u := fixed 48 Config.uds
      let cdi := if d.mc.mE = [] then [] else fixed 48 (Config.hmac384 u d.mc.mE)
      { d with bus := .bytes u, idn := { d.idn with udsRead := true, cdiE := cdi, vault := deviceSeeds u } }

/-- What the key vault reads: the DeviceID seeds while the latch is open, zeros after the close (R420, R424). -/
def State.vaultBytes (s : State) : List Byte := if s.latchClosed then List.replicate 256 0 else fixed 256 s.dev.idn.vault

/-- The domains that the clock and power controller powers at main power-good, and those boot code switches on (R66, R415). -/
def mainDomains : List Nat := [140, 141, 156, 157, 158, 159, 168]
def bootDomains : List Nat := [142, 143, 144, 145, 146, 147, 148, 149, 150, 151, 152, 153, 154, 155, 160, 161, 162, 163, 164, 165, 166, 167]

/-- MAIN_POWER_GOOD (R413, R415, R423): main power comes up, the early firmware verifies boot code, derives CDI_B and starts it. -/
def Dev.mainUp (d : Dev) (o : Otp) (now : Nat) : Dev :=
  let d1 := ({ d with pow := { d.pow with on := d.pow.on ++ mainDomains.filter fun p => !d.on p, mainGood := true } }).almFlush now
  let q := d1.bootSlot o now 1
  match q.1 with
  | some s =>
    let m := q.2.measured 1 (some s)
    let cdi := if q.2.idn.cdiE = [] then fixed 48 (Config.cdiResumed m) else fixed 48 (Config.hmac384 q.2.idn.cdiE m)
    ({ q.2 with pow := { q.2.pow with on := q.2.pow.on ++ bootDomains.filter fun p => !q.2.on p }, mc := { q.2.mc with mB := m },
                idn := { q.2.idn with cdiE := [], cdiB := cdi } }).almMc 0x001 0 now [1, s]
  | none => q.2

/-- MAIN_POWER_GOOD (R415). -/
def execMainPowerGood (t : Nat) (s : State) : Host.Outcome State Fault Refusal :=
  s.run t fun now d => if d.earlyOn ∧ d.pow.pllLocked ∧ d.mainOn = false ∧ d.mc.mE ≠ [] ∧ d.idn.udsRead ∧ d.pow.inputLost = false then (d.mainUp s.otp now).syncStop now else d

/-- Whether boot code runs: accepted, main power good, the latch open (R415, R420). -/
def State.bootCode (s : State) : Bool := !s.latchClosed && s.dev.mainOn && s.dev.mc.mB != []

/-- A physical basin fails where its column has no repair entry left (R137): the logical basin it holds becomes unavailable. -/
def Dev.loseBasin (d : Dev) (now phys : Nat) : Dev :=
  match d.logicalOf phys with
  | some l =>
    if (d.repairByte (phys % 16)).testBit 7 ∧ (d.f (r1 .pbuFabAvail (l / 64)) F.pbuFabAvail.AVAIL).testBit (l % 64) then
      let w := r1 .pbuWeirStat (l / 64)
      ((d.clrBit (r1 .pbuFabAvail (l / 64)) F.pbuFabAvail.AVAIL (l % 64)).sf w F.pbuWeirStat.AVAIL (d.f w F.pbuWeirStat.AVAIL - 1)).almMc 0x005 2 now [phys, l]
    else d
  | none => d

/-- The repair entry of a column, written by the MC's retirement of a row, with USED and BY_MC (R135, R136). -/
def Dev.retireRow (d : Dev) (now col row : Nat) : Dev :=
  let r := if col < 8 then r0 .pbuFabRepairLo else r0 .pbuFabRepairHi
  let f : Fld := ⟨8 * (col % 8), 8⟩
  (d.sf r f (128 + 64 + row)).almMc 0x005 1 now [16 * row + col]

/-- Whether three uncorrectable errors of a basin lie within the last 1,000 operating hours (R136). -/
def Dev.worn (d : Dev) (now phys : Nat) : Bool :=
  decide (3 ≤ (d.fab.uncorr.filter fun e => e.1 == phys && decide (d.opTime now ≤ e.2 + 3600000000000000)).length)

/-- Basin self-test (R66, R136, R137): boot code switches every basin pair on; one failing basin, or one that is worn, is retired in each
column whose entry is unused. -/
def Dev.selfTest (d0 : Dev) (now : Nat) (fails : List Nat) : Dev :=
  let retired := (List.range 16).foldl (fun (d : Dev) col =>
    if (d.repairByte col).testBit 7 then d
    else
      let fit (row : Nat) : Bool := fails.contains (16 * row + col)
      match lowest 16 fit, lowest 16 fun row => d.worn now (16 * row + col) with
      | some row, _ => d.retireRow now col row
      | none, some row => d.retireRow now col row
      | none, none => d) { d0 with pow := { d0.pow with on := (List.range 136).filter (fun p => !d0.on p) ++ d0.pow.on } }
  fails.foldl (fun (d : Dev) p => d.loseBasin now p) retired

/-- BASIN_SELF_TEST (R136): the physical basins whose built-in self-test fails. -/
def execBasinSelfTest (t : Nat) (fails : List Nat) (s : State) : Host.Outcome State Fault Refusal :=
  s.run t fun now d => if s.bootCode then d.selfTest now fails else d

/-- BASIN_FAIL (R137). -/
def execBasinFail (t phys : Nat) (s : State) : Host.Outcome State Fault Refusal :=
  s.run t fun now d => if phys < 272 ∧ d.on 155 then d.loseBasin now phys else d

/-- With both stores trained boot code enters Balanced with the Even profile (R70). -/
def Dev.enterBalanced (d : Dev) (now : Nat) : Dev :=
  if d.pow.near && d.pow.far then
    let r := r0 .cpcMode
    (((((d.sf r F.cpcMode.ENVELOPE 1).sf r F.cpcMode.PROFILE 1).sf r F.cpcMode.PEND_ENVELOPE 1).sf r F.cpcMode.PEND_PROFILE 1).wn (r0 .cpcModeAt) now).wn (r0 .camLimit) (camLimitOf 1)
  else d

/-- NEAR_STORE_TRAINING (R70). -/
def execNearStoreTraining (t : Nat) (s : State) : Host.Outcome State Fault Refusal :=
  s.run t fun now d => if s.bootCode ∧ d.on 157 then ({ d with pow := { d.pow with near := true } }).enterBalanced now else d

/-- The protection map's RW-L registers in ascending offset order (R422). -/
def mapRegs : List Reg :=
  r0 .pmapDebug :: ((List.range 11).map fun c => r1 .pmapPerm c) ++ ((List.range 256).map fun m => r1 .pmapMbx m) ++ ((List.range 32).map fun w => r1 .pmapWin w) ++
    (List.range 11).flatMap fun c => (List.range 64).flatMap fun r => [r2 .pmapFwB c r, r2 .pmapFwL c r]

/-- M_P (R422). -/
def Dev.measureMap (d : Dev) : List Byte := sha (mapRegs.flatMap fun r => leBytes r.bytes (d.rn r))

/-- The security versions of KINDs 0, 1, 2 and 4 in the alias certificate (R425). -/
def Dev.runningSvn (d : Dev) (kind : Nat) : Nat := imgSvn ((d.imgStore kind).le (slotBase kind (d.upd kind).running) 4)

/-- Boot code's certificates (R425, R426): the DeviceID certificate of the certificate store, the alias and the MC certificate. -/
def Dev.issueCerts (d : Dev) (now : Nat) : Dev :=
  let keys (seeds : List Byte) : List Byte := edKey seeds ++ mlKey seeds
  let ms := [d.mc.mE, d.mc.mB, d.mc.mS, d.mc.mL, d.mc.mP].flatMap (fixed 48)
  let svn := [0, 1, 2, 4].map fun k => BitVec.ofNat 8 (d.runningSvn k)
  let one (d : Dev) (kind : Nat) (f : Key → List Byte) : Dev :=
    let k := d.draw 0x3000 now
    let c := f k.1
    ({ k.2 with mc := { k.2.mc with certs := k.2.mc.certs ++ [c] } }).almPost ⟨k.1, kind, 0, k.1.src, now, c⟩
  let d1 := one { d with mc := { d.mc with certs := [] } } 0x0A1 fun _ => d.sysArea.read 0x800000 5485
  let d2 := one d1 0x0A2 fun k => signed 2 k d.idn.vault (keys d.idn.alias_ ++ ms ++ svn)
  one d2 0x0A3 fun k => signed 3 k d.idn.vault (keys d.mcSeeds ++ fixed 48 d.mc.mMC)

/-- Boot code's last acts before it closes the latch (R413, R415, R422 to R426); basin pairs that it had switched on for the self-test and that no
context holds go off (R67, log entry 36). -/
def Dev.bootEnd (d : Dev) (o : Otp) (now : Nat) : Dev :=
  let q2 := d.bootSlot o now 2
  let q4 := q2.2.bootSlot o now 4
  let d1 := { q4.2 with mc := { q4.2.mc with mS := q4.2.measured 2 q2.1, mL := q4.2.measured 4 q4.1, mP := q4.2.measureMap } }
  if q2.1.isNone || q4.1.isNone then d1
  else
    let cdi := fixed 48 (Config.hmac384 d1.idn.cdiB (d1.mc.mS ++ d1.mc.mL ++ d1.mc.mP))
    (({ d1 with idn := { d1.idn with cdiB := [], alias_ := aliasSeeds cdi } }).issueCerts now).powerIdlePairs

/-- BOOT_LATCH_CLOSE (R420): initiator class c writes v to BOOT_LATCH. -/
def execBootLatchClose (t c v : Nat) (s : State) : Host.Outcome State Fault Refusal :=
  let now := s.now t
  let r := r0 .bootLatch
  let d := s.dev
  if d.reaches s.latchClosed now c r.addr r.bytes .write then
    let d1 := { d with bus := .ok }
    if v % 2 = 1 ∧ s.latchClosed = false then
      .next { s with dt := now, latchClosed := true, ignored := 0, closedAt := some now, dev := if s.bootCode && c == 2 then d1.bootEnd s.otp now else d1 }
    else .next { s with dt := now, dev := d1 }
  else .next { s with dt := now, dev := d.faulted s.latchClosed now c r.addr r.bytes .write }

/-- The boot summary (R416, R432): boot count, the running slots, the bank. -/
def Dev.bootSummary (d : Dev) : List Byte :=
  leBytes 4 d.mc.boot ++ (List.range 5).map (fun k => BitVec.ofNat 8 (d.upd k).running) ++ leBytes 3 0 ++ leBytes 8 d.mc.cMeas

/-- The application cores and the steward start (R415, R416): the maker loader stands at its LOAD address, a0 holds mhartid, a1 the address of the
boot summary's copy; the steward reports the release of the image that runs (R356, R410). -/
def Dev.releaseCores (d : Dev) (now : Nat) : Dev :=
  let b := slotBase 4 (d.upd 4).running
  let size := imgSize d.sysArea b
  let load := imgLoad d.sysArea b
  let k := d.draw 0x3000 now
  let x : AlmRec := ⟨k.1, 0x002, 0, k.1.src, now, d.bootSummary⟩
  let at_ := 0x800000000 + Config.summaryAt % (24 * 2 ^ 30 / 4096) * 4096
  let d1 := k.2.almPost x
  let m1 := if within load size 0x800000000 0x600000000 then d1.mem.copy load size d1.sysArea (b + imgBody) else d1.mem
  let m2 := m1.write at_ (fixed x.size (x.head (d1.mc.aseq + d1.mc.buf.length - 1) d1.mc.boot ++ List.replicate 48 0 ++ x.payload))
  let start (c : Nat) : DbgTarget := { regs := [(0x1040, imgEntry d.sysArea b), (0x100A, c), (0x100B, at_)] }
  { d1 with mem := m2, pow := { d1.pow with on := d1.pow.on ++ [136, 137, 138, 139].filter fun p => !d1.on p },
            stew := { d1.stew with fwVersion := d.sysArea.le (slotBase 2 (d.upd 2).running + 4) 4 },
            cores := { d1.cores with released := true, steward := true, targets := (List.range 16).foldl (fun t c => tset t c (start c)) d1.cores.targets },
            mc := { d1.mc with heartbeatAt := now } }

/-- CORE_RELEASE (R415, R416). -/
def execCoreRelease (t : Nat) (s : State) : Host.Outcome State Fault Refusal :=
  s.run t fun now d => if s.latchClosed ∧ d.mainOn ∧ d.mc.mS ≠ [] ∧ d.mc.mL ≠ [] ∧ d.pow.near ∧ d.pow.far ∧ d.cores.released = false ∧ d.cores.steward = false then d.releaseCores now else d

/-- PMAP_GRANT (R421): initiator class c writes v. -/
def execPmapGrant (t c : Nat) (v : Word) (s : State) : Host.Outcome State Fault Refusal :=
  s.regAccess t c (r0 .pmapGrant) .write fun now d =>
    d.grant now (fget v F.pmapGrant.WIN) (fget v F.pmapGrant.PAGE) (fget v F.pmapGrant.CLASS) (fget v F.pmapGrant.ACCESS)

/-- PMAP_VIOL_READ (R419): the read returns the register and clears COUNT. -/
def execPmapViolRead (t c : Nat) (s : State) : Host.Outcome State Fault Refusal :=
  s.regAccess t c (r0 .pmapViol) .read fun _ d => ({ d with bus := .data (d.rn (r0 .pmapViol)) }).sf (r0 .pmapViol) F.pmapViol.COUNT 0

end Sys2Proof.Machine
end

