-- ==== Sys2Proof/Machine/Period.lean ====
section
/-! DEFINITION. The budget period: its start by a trigger or by the PBU itself, what starts with it, calibration runs (R81, R82, R95, R102,
R127, R142, R192). -/

namespace Sys2Proof.Machine

/-- Entry 0 of a chain with PERIOD_START receives a ready token; a slot that is not free drops it, with the class's overrun event (R127). -/
def Dev.periodToken (d : Dev) (now b l : Nat) (x : Basin) : Dev :=
  match (x.entry 0).readyQ, (x.entry 0).freeQ with
  | [], slot :: rest => d.modEntry now l 0 fun e => ({ e with freeQ := rest } : SbEntry).post slot b
  | _, _ => d.overrunClass (d.payer x.ctx)

/-- Whether a cascade runs for a calibration of its class (R102). -/
def Dev.calibrates (d : Dev) (c : Cascade) : Bool := d.pbu.calRun.elim false fun r => r.periodsLeft != 0 && r.cls == d.ctxClass c.ctx

/-- Cascades whose chains take part in a period start: armed ones, those that a CASCADE_RUN runs, and those of a class under calibration (R102,
R127, R362). -/
def Dev.periodCascades (d : Dev) : List (Nat × Cascade) :=
  d.fab.cascades.filter fun e => e.2.bound && (e.2.armed || e.2.run.isSome || d.calibrates e.2)

/-- PERIOD_TOKEN (R127): every chain with PERIOD_START of such a cascade; a cascade under calibration without one begins an invocation. -/
def Dev.periodTokens (d : Dev) (now b : Nat) : Dev :=
  d.periodCascades.foldl (fun (d : Dev) e =>
    let starts := e.2.basins.filter fun x => hdrPeriod x.header
    if starts = [] then (if d.calibrates e.2 then d.beginInvocation now e.1 else d)
    else starts.foldl (fun (d : Dev) x => match d.basin? x.lbasin with
      | some y => if y.ctx = e.2.ctx then d.periodToken now b x.lbasin y else d
      | none => d) d) d

/-- Whether a class-0 cascade that hands references to the loop engines runs in every period, as no standby (R25, R26, R142). -/
def Dev.owesFlip (d : Dev) : Bool :=
  d.fab.cascades.any fun e => e.2.bound && e.2.armed && d.ctxClass e.2.ctx == 0 && (d.ctx? e.2.ctx).elim false (fun x => x.standby != 1) &&
    e.2.basins.any fun b => b.entries.any fun y => seSlots y != 0 && seKind y == 7

/-- A period that ended without a flip counts one overrun of class 0 (R26).  DESIGN CHOICE, unsafe (log entry 28): one, also where its gate, or
the token dropped at its end, has counted it. -/
def Dev.flipCheck (d : Dev) : Dev :=
  let d1 := if d.pbu.flipDue then d.overrunClass 0 else d
  { d1 with pbu := { d1.pbu with flipDue := d1.owesFlip && d1.f (r1 .pbuClassStat 0) F.pbuClassStat.GATED == 0 } }

/-- Each standby waits for the active part's reference flip (R142). -/
def Dev.standbyWaits (d : Dev) (b : Nat) : Dev :=
  (d.fab.ctxs.filter fun e => e.2.standby == 1).foldl (fun (d : Dev) e =>
    match d.fab.cascades.find? fun x => x.2.ctx == e.1 && x.2.armed with
    | some x =>
      let d1 := { d with waits := d.waits.filter fun w => !(w.2.owner == WaitOwner.standby e.1 && w.2.outcome.isSome) }
      (d1.addWait { owner := .standby e.1, deadline := satAdd dtMax b (x.2.split.takeoverUs * 1000), guard := d1.cnlGuard (x.2.split.mods.getD x.2.split.part 0), src := 0x1000 + e.1 }).2
    | none => d) d

/-- CONSUMED_REBASE (R95): one value over every bound context, subtracted with each one's share. -/
def Dev.consumedRebase (d : Dev) : Dev :=
  if d.pbu.rebase then
    (let bound := (d.fab.ctxs.filter fun e => d.ctxState e.1 != 0).map (·.1)
     let m := (d.leastRatio bound).getD 0
     let d1 := bound.foldl (fun (d : Dev) c => d.wn (r1 .pbuCtxConsumed c) (d.consumed c - d.share c * m)) d
     { d1 with pbu := { d1.pbu with rebase := false } })
  else d

/-- CTX_SHARES takes effect (R94). -/
def Dev.applyShares (d : Dev) : Dev :=
  let d1 := d.pbu.shares.foldl (fun (d : Dev) e => if (d.ctx? e.1).isSome then d.sf (r1 .pbuCtxCfg e.1) F.pbuCtxCfg.SHARE e.2 else d) d
  { d1 with pbu := { d1.pbu with shares := [] } }

/-- POWER_SCALE (R80): the factor compounds, or returns to 1 where the average is within the cap. -/
def Dev.powerScale (d : Dev) (avg : F32) : Dev :=
  if d.fb (r0 .pbuStat) F.pbuStat.POWER_SCALED = false then d
  else if f32Le avg (powerCap d.envelope) then { d.sf (r0 .pbuStat) F.pbuStat.POWER_SCALED 0 with pbu := { d.pbu with scale := 0 } }
  else { d with pbu := { d.pbu with scale := d.pbu.scale + 1 } }

/-- A calibration run begins at the first period start after its command, and counts each period that ends: the largest USED of its class,
the hottest band (R102). -/
def Dev.calPeriod (d : Dev) : Dev :=
  match d.pbu.calRun with
  | some r =>
    let worst := (List.range 8).map fun k => max (r.worst.getD k 0) (d.used r.cls k)
    if r.periodsLeft = 0 then d
    else if r.begun = false then { d with pbu := { d.pbu with calRun := some { r with begun := true } } }
    else { d with pbu := { d.pbu with calRun := some { r with worst := worst, periodsLeft := r.periodsLeft - 1, band := max r.band d.hotBand } } }
  | none => d

/-- The banks at a period start at b (R71, R81, R90, R104): a pending change at its boundary, else the swap that was asked for; without one
pending the changes of floor source that have waited 50 µs. -/
def Dev.periodBanks (d : Dev) (now b : Nat) (cue : Bool) : Dev :=
  match d.pbu.pend with
  | some p =>
    if cue && d.boundaryAt b p then (d.modeChange now b p).swapBank
    else if d.pbu.swapSet then (let e := d.swapBank; e.reshadow .asNow p.forced p.envelope p.profile (e.newLen p))
    else d
  | none => d.floorSwap now b

/-- The renewal of the budgets at b (R81): settings that waited, banks, power scale, PBU_PERIOD_AT, debts carried, gates lifted; then the charges
made since b (R82).  No debt is carried where budgets were or are not enforced (R85). -/
def Dev.periodRenew (d0 : Dev) (now b : Nat) (avg : F32) (cue : Bool) : Dev :=
  let e := d0.closePeriod now b
  let d := ({ e with pbu := { e.pbu with late := [], draws := [] } }).calPeriod.settle now 0x0060 0
  let debts := (List.range 128).map fun i => if d.enforced then e.debt (i / 8) (i % 8) else 0
  let d1 := { d with pbu := { d.pbu with triggered := true } }
  let d2 := (((((d1.periodBanks now b cue).powerScale avg).showBank).wn (r0 .pbuPeriodAt) b).renew now debts)
  let d3 := d0.pbu.late.foldl (fun (d : Dev) x => d.chargeNow now x.1 x.2.1 x.2.2) d2
  { d3 with pbu := { d3.pbu with flipDue := e.pbu.flipDue } }

/-- What begins with a period at b: shares, tokens, standby waits, parked descriptors, the weirs' choice, a change of floor source.  While VIN is low and no window is
open the forced step repeats (R462). -/
def Dev.periodBegins (d : Dev) (now b : Nat) : Dev :=
  let d3 := (((d.applyShares.consumedRebase).periodTokens now b).flipCheck).standbyWaits b
  let d4 := (List.range 12).foldl (fun (d : Dev) e => d.resumeParked now e) d3
  let d5 := (List.range 256).foldl (fun (d : Dev) l => if d.fab.ctxs.isEmpty then d else d.weirChoose now l) d4
  let d6 := ((d5.carryResume now).watchFloors now).watchFar now
  if d6.mc.running && d6.mc.vinLow && !d6.windowOpen then d6.forceStep now else d6

/-- A budget period starts at b (R81): by a cue's trigger, or by the PBU itself (R82).  avg: the 10 ms average of the input power. -/
def Dev.periodStart (d : Dev) (now b : Nat) (avg : F32) (cue : Bool) : Dev := (d.periodRenew now b avg cue).periodBegins now b

/-- PERIOD_START (R81): the trigger of the period-start cue; avg: the 10 ms average of the module input power in W. -/
def execPeriodStart (t : Nat) (avg : F32) (s : State) : Host.Outcome State Fault Refusal :=
  s.run t fun now d =>
    match tget d.cue.trig 1 with
    | some b =>
      if d.on 155 then (({ d with cue := { d.cue with trig := tdel d.cue.trig 1 }, pbu := { d.pbu with selfAt := 0 } }).periodStart now b avg true).settleEnds now else d
    | none => d

/-- PBU_MISSED_PERIOD (R82): no trigger within two periods, or within one after a period the PBU started itself. -/
def execPbuMissedPeriod (t : Nat) (avg : F32) (s : State) : Host.Outcome State Fault Refusal :=
  s.run t fun now d =>
    let len := d.periodLen
    let b := d.dueAfter (d.rn (r0 .pbuPeriodAt)) (if d.pbu.selfAt = 0 then 2 * len else len)
    if d.on 155 ∧ d.pbu.triggered ∧ (tget d.cue.trig 1).isNone ∧ b ≤ now then
      ((((({ d with pbu := { d.pbu with selfAt := b } }).sf (r0 .pbuStat) F.pbuStat.MISSED 1).raise 4).almMc 0x030 1 now [b]).periodStart now b avg false).settleEnds now
    else d

/-- CALIBRATION_RUN_DONE (R102): the record of the largest USED values is written and BUDGET_SET completes. -/
def execCalibrationRunDone (t : Nat) (s : State) : Host.Outcome State Fault Refusal :=
  s.run t fun now d => match d.pbu.calRun with
    | some r =>
      if r.periodsLeft = 0 ∧ d.stewardRuns then
        let k := d.draw (0x2000 + r.mbx) now
        let rec_ := calHead k.1 0 d.envelope 2 r.cls r.band 0 r.periods ++ (List.range 8).flatMap (fun i => leBytes 8 (r.worst.getD i 0)) ++ leBytes 8 0
        let d1 := match k.2.pinned1 r.object with
          | some (_, l) => k.2.locPut l 0 96 (Memory.relOf 0 rec_)
          | none => k.2
        (({ d1 with pbu := { d1.pbu with calRun := none } }).setSquall now r.squall).finishAt now (r.mbx, r.seq) .ok 0 []
      else d
    | none => d

end Sys2Proof.Machine
end

