-- ==== Sys2Proof/Machine/Ether.lean ====
section
/-! DEFINITION. The network ports (R39 to R42, R386 to R393): 0 to 3 the robot bus, 4 to 11 the multidrop ports, 12 and 13 10GBASE-KR; and
the crossings' own events (R58 to R65). -/

namespace Sys2Proof.Machine

/-- The power domains a port needs (R66). -/
def Dev.ethOn (d : Dev) (p : Nat) : Bool := decide (p < 14) && if p = 0 then d.on 169 && d.earlyOn else d.on 162

/-- Whether a port is enabled: robot-bus ports by EN, the others while powered. -/
def Dev.ethEn (d : Dev) (p : Nat) : Bool := d.ethOn p && (decide (4 ≤ p) || d.fb (r1 .ethPortCfg p) F.ethPortCfg.EN)

/-- The source id of a port's received frames (R387); the next one is its transmit id. -/
def ethSrc (p : Nat) : Nat := if p < 4 then 0x0100 + 2 * p else if p < 12 then 0x0110 + 2 * (p - 4) else 0x0120 + 2 * (p - 12)

/-- The dual-clock queue of a port's receive side (R65); the multidrop ports have none. -/
def ethQueue (p : Nat) : Option Nat := if p < 4 then some p else if p < 12 then none else some (p - 8)

/-- Ns that a number of bytes takes on a port's line, rounded up. -/
def lineNs (p n : Nat) : Nat := ((if p < 4 then 80 else if p < 12 then 8000 else 8) * n + 9) / 10

/-- Where a frame's EtherType lies: after one tag, 4 bytes further. -/
def tagLen (fr : List Byte) : Nat := if beNat ((fr.drop 12).take 2) = 0x8100 then 4 else 0
def etherType (fr : List Byte) : Nat := beNat ((fr.drop (12 + tagLen fr)).take 2)

/-- Whether a frame uses a part that its port does not support (R386): two tags, more than 9,216 bytes with its check sequence, gPTP on
a multidrop port. -/
def unsupported (p : Nat) (fr : List Byte) : Bool :=
  let e := etherType fr
  (tagLen fr == 4 && e == 0x8100) || e == 0x88A8 || decide (9212 < fr.length) || (decide (4 ≤ p) && decide (p < 12) && e == 0x88F7)

/-- Network-order words of a frame's payload from an offset, if it holds them all. -/
def wordsAt (pay : List Byte) (off n : Nat) : Option (List Nat) :=
  if off + 4 * n ≤ pay.length then some ((List.range n).map fun i => beNat ((pay.drop (off + 4 * i)).take 4)) else none

/-- Fusion streams that a frame feeds (R393): MATCH 0 by the joint entries of a state frame, MATCH 1 by EtherType and payload
offset. -/
def Dev.frameSamples (d : Dev) (now p stamp cnt : Nat) (unc : Bool) (fr : List Byte) : Dev :=
  if d.on 149 = false ∨ 12 ≤ p then d
  else
    let pay := fr.drop (14 + tagLen fr)
    let kind := if p < 4 then 0 else 5
    let port := if p < 4 then p else p - 4
    let ofPort := d.streams.filter fun s => s.kind == kind && s.source / 2 ^ 28 == port
    let take (d : Dev) (s : FusStream) (raw : Option (List Nat)) : Dev := match raw with
      | some vs => d.takeSample now (d.src (ethSrc p)) s stamp cnt unc 11 vs
      | none => d
    let joints := etherType fr == 0x88B5 && bytesAt pay 0 1 / 16 == 1
    ofPort.foldl (fun (d : Dev) s =>
      if bits s.source 26 2 = 0 then
        (if joints then (match (List.range (bytesAt pay 1 1)).find? fun e => beNat ((pay.drop (32 + 16 * e)).take 2) == s.source % 65536 with
          | some e => take d s ((wordsAt pay (32 + 16 * e + 4) 3).bind fun a => (wordsAt pay 16 1).map fun b => a ++ b)
          | none => d) else d)
      else if bits s.source 26 2 = 1 ∧ s.source % 65536 = etherType fr then take d s (wordsAt pay (bits s.source 16 10) s.nval)
      else d) d

/-- Whether a consumer inside the device takes a frame: a joint frame on the robot bus, or a frame that a stream selects (R388, R393). -/
def Dev.consumed? (d : Dev) (p : Nat) (fr : List Byte) : Bool :=
  (etherType fr == 0x88B5 && decide (p < 4)) ||
    (decide (p < 12) && d.streams.any fun s => s.kind == (if p < 4 then 0 else 5) && s.source / 2 ^ 28 == (if p < 4 then p else p - 4) &&
      (if bits s.source 26 2 = 0 then etherType fr == 0x88B5 else bits s.source 26 2 == 1 && s.source % 65536 == etherType fr))

/-- A port receives a frame stamped at its MDI instant (R39, R64, R386, R388).  fault: 0 good, 1 bad check sequence or an unsupported
part, 2 lost to a full crossing. -/
def Dev.frameReceive (d : Dev) (now p stamp fault : Nat) (fr : List Byte) : Dev :=
  if d.ethEn p = false then d
  else if fault = 1 ∨ unsupported p fr then (if p < 4 then d.incSat (r1 .ethPortStat p) F.ethPortStat.RXERR else d)
  else match fault, ethQueue p with
    | 2, some q => ((d.draw (ethSrc p) stamp).2).overrun 0 q
    | _, q =>
      let unc := q.elim false (d.elastic 0)
      let k := d.draw (ethSrc p) stamp
      let d1 := k.2.log ⟨k.1, .frame, unc, [p, fr.length]⟩
      let d2 := if etherType fr = 0x88B5 ∧ p < 4 then d1.jointFrame now p stamp unc (fr.drop (14 + tagLen fr)) else d1
      let d3 := d2.frameSamples now p stamp k.1.cnt unc fr
      if d1.consumed? p fr then d3 else (d3.modPort p fun x => { x with rx := x.rx ++ [⟨k.1, unc, fr⟩] }).raise (768 + p)

/-- FRAME_RECEIVE (R39). -/
def execFrameReceive (t p stamp fault : Nat) (data : List Nat) (s : State) : Host.Outcome State Fault Refusal :=
  s.run t fun now d => d.frameReceive now p stamp fault (data.map (BitVec.ofNat 8))

/-- The armed cue channel of a trigger target. -/
def Dev.cueFor (d : Dev) (trig : Nat) : Option Nat :=
  lowest 64 fun c => d.f (r1 .cueChCfg c) F.cueChCfg.TRIG == trig && d.fb (r1 .cueChCfg c) F.cueChCfg.ARM

/-- From an entry of a bank that starts at an instant, the first instant before a limit at which a queue's gate is closed. -/
def Dev.gateWalk (d : Dev) (p bank n q : Nat) (limit : Option Nat) : Nat → Nat → Nat → Option Nat
  | 0, _, _ => none
  | fuel + 1, e, at_ =>
    let w := d.rn (r2 .ethPortGcl p (256 * bank + e))
    if limit.elim false (fun l => decide (l ≤ at_)) then none
    else if w.testBit (24 + q) = false then some at_
    else if e + 1 < n then d.gateWalk p bank n q limit fuel (e + 1) (at_ + w % 2 ^ 24)
    else none

/-- When a queue's gate next closes, the present included; none where it stays open (R390, R391). -/
def Dev.gateCloses (d : Dev) (p q : Nat) : Option Nat :=
  let c := r1 .ethPortCfg p
  if 4 ≤ p ∨ d.fb c F.ethPortCfg.GCL_EN = false then none
  else
    let x := d.port p
    let bank := d.f c F.ethPortCfg.BANK
    let next := (d.cueFor (0x13 + p)).map fun n => d.rn (r1 .cueChTime n)
    let period := (d.cueFor (0x13 + p)).elim 0 fun n => d.f (r1 .cueChPeriod n) F.cueChPeriod.PERIOD
    match (if x.started then d.gateWalk p bank x.nent q next 256 x.entry x.entryAt else none), next with
    | some t, _ => some t
    | none, none => none
    | none, some s =>
      let swap := d.fb c F.ethPortCfg.SWAP
      d.gateWalk p (if swap then 1 - bank else bank) (if swap then d.f c F.ethPortCfg.NENT + 1 else x.nent) q (if period = 0 then none else some (s + period)) 256 0 s

/-- A cycle start of a port's gate control list (R390 to R392): a bank change, entry 0, and GATE_OVR where an express frame is still being
sent. -/
def Dev.gclStart (d0 : Dev) (now p fire : Nat) : Dev :=
  let c := r1 .ethPortCfg p
  let d := d0.settle now 0x0010 p
  let en := d.fb c F.ethPortCfg.GCL_EN
  let swap := d.fb c F.ethPortCfg.SWAP
  let d1 := if swap then ((d.sf c F.ethPortCfg.BANK (1 - d.f c F.ethPortCfg.BANK)).sf c F.ethPortCfg.SWAP 0).modPort p fun x => { x with nent := d.f c F.ethPortCfg.NENT + 1 } else d
  let d2 := if en && decide (fire < (d1.port p).expressTo) then d1.sf (r1 .ethPortStat p) F.ethPortStat.GATE_OVR 1 else d1
  d2.modPort p fun x => { x with started := en, entry := 0, entryAt := fire }

/-- GATE_ENTRY_END (R390): the running entry's interval has passed and the next one's gate states take effect; the last one's hold. -/
def execGateEntryEnd (t p : Nat) (s : State) : Host.Outcome State Fault Refusal :=
  s.run t fun now d =>
    let x := d.port p
    let c := r1 .ethPortCfg p
    let w := d.rn (r2 .ethPortGcl p (256 * d.f c F.ethPortCfg.BANK + x.entry))
    let done := x.entryAt + w % 2 ^ 24
    if p < 4 ∧ d.ethEn p ∧ d.fb c F.ethPortCfg.GCL_EN ∧ x.started ∧ x.entry + 1 < x.nent ∧ done ≤ now then d.modPort p fun x => { x with entry := x.entry + 1, entryAt := done }
    else d

/-- Whether preemption is active on a port (R392). -/
def Dev.preempts (d : Dev) (p : Nat) : Bool := decide (p < 4) && d.fb (r1 .ethPortCfg p) F.ethPortCfg.PREEMPT_EN && d.fb (r1 .ethPortStat p) F.ethPortStat.VERIFIED

/-- Whether a frame is sent as an express frame (R41, R392). -/
def Dev.express (d : Dev) (p : Nat) (x : TxFrame) : Bool := x.insert || !(d.preempts p) || (d.f (r1 .ethPortCfg p) F.ethPortCfg.EXPRESS).testBit x.queue

/-- One-step insertion (R40): the frame with the departure time of a stamp point in ns and 2^-16 ns, or none where its check fails. -/
def oneStep (depart frac : Nat) (fr : List Byte) : Option (List Byte) :=
  let o := tagLen fr
  if etherType fr = 0x88F7 ∧ bytesAt fr (14 + o) 1 % 16 = 0 then
    (let flags := bytesAt fr (20 + o) 1
     let corr := beNat ((fr.drop (22 + o)).take 8)
     let a := splice fr (20 + o) (leBytes 1 (flags - (flags &&& 2)))
     let b := splice a (22 + o) (beBytes 8 ((corr + frac) % 2 ^ 64))
     some (splice b (48 + o) (beBytes 6 (depart / 1000000000) ++ beBytes 4 (depart % 1000000000))))
  else if etherType fr = 0x88B5 then some (splice fr (22 + o) (beBytes 8 depart))
  else none

/-- A frame leaves (R40 to R42, R391, R392): the completion with the departure DT, its record with the check sequence computed over the frame as
it leaves, and the line's occupation; a completion that carries the stamp a descriptor asked for raises no interrupt. -/
def Dev.frameLeaves (d : Dev) (now p : Nat) (x : TxFrame) : Dev :=
  let at_ := now * 65536 + Config.egressLatency p
  let depart := at_ / 65536
  let out := if x.insert then oneStep depart (at_ % 65536) x.data else some x.data
  let sent := withFcs (out.getD x.data)
  let st := if out.isSome then Status.ok else .badConfig
  let k := d.draw (ethSrc p + 1) depart
  let d1 := k.2.log ⟨k.1, .frame, false, [p, x.queue, x.src, sent.length] ++ sent.map BitVec.toNat⟩
  let express := d.express p x
  let line := lineNs p (x.data.length + 24)
  (if x.stamped && !x.insert then d1 else d1.raise (768 + p)).modPort p fun y =>
    let cut := decide (now < y.busyTo)
    { y with
      done := y.done ++ [⟨x.src, if x.insert || x.stamped then depart else 0, st.code⟩]
      expressTo := if express then now + lineNs p (x.data.length + 12) else y.expressTo
      fragAt := if cut || express then now + line else now
      busyTo := if cut then y.busyTo + line + lineNs p 24 else now + line }

/-- Whether a port may start a frame now (R391, R392): the line free, or a preemptable frame that may be cut; and the last bit leaves before
the gate closes, the check bytes and the gap of the cut fragment (16 bytes) included. -/
def Dev.mayStart (d : Dev) (now p : Nat) (x : TxFrame) : Bool :=
  let y := d.port p
  let least := 64 * (1 + d.f (r1 .ethPortCfg p) F.ethPortCfg.ADDFRAG) - 4
  let free := decide (y.busyTo ≤ now)
  let cut := d.preempts p && d.express p x && decide (max y.expressTo y.fragAt + lineNs p (8 + least) ≤ now) && decide (now + lineNs p (least + 16) ≤ y.busyTo)
  (free || cut) && (match d.gateCloses p x.queue with
    | some c => decide (now + lineNs p (x.data.length + (if free then 12 else 28)) ≤ c)
    | none => true)

/-- FRAME_TRANSMIT (R391): port p starts the first waiting frame of queue q, or a frame that software has placed in its transmit ring
(data). -/
def execFrameTransmit (t p q : Nat) (insert stamped : Bool) (data : List Nat) (s : State) : Host.Outcome State Fault Refusal :=
  s.run t fun now d =>
    if d.ethEn p = false ∨ (d.port p).link = false ∨ 8 ≤ q then d
    else if data ≠ [] then
      (let x : TxFrame := { queue := q, insert := insert, stamped := stamped, src := ethSrc p + 1, data := data.map (BitVec.ofNat 8) }
       if d.mayStart now p x then d.frameLeaves now p x else d)
    else match (d.port p).txq.find? fun x => x.queue == q with
      | some x => if d.mayStart now p x then (d.frameLeaves now p x).modPort p fun y => { y with txq := y.txq.erase x } else d
      | none => d

/-- PREEMPTION_VERIFY (R392). -/
def execPreemptionVerify (t p : Nat) (s : State) : Host.Outcome State Fault Refusal :=
  s.run t fun _ d =>
    if p < 4 ∧ d.ethEn p ∧ (d.port p).link ∧ d.fb (r1 .ethPortCfg p) F.ethPortCfg.PREEMPT_EN then d.sf (r1 .ethPortStat p) F.ethPortStat.VERIFIED 1 else d

/-- LINK_CHANGE (R62, R65): a port's link state is accepted. -/
def execLinkChange (t p : Nat) (up : Bool) (s : State) : Host.Outcome State Fault Refusal :=
  s.run t fun _ d =>
    if d.ethOn p then
      (let d1 := d.modPort p fun x => { x with link := up }
       let r := r1 .ethPortStat p
       if 4 ≤ p then d1
       else if up then d1.sf r F.ethPortStat.LINK 1
       else ((d1.sf r F.ethPortStat.LINK 0).sf r F.ethPortStat.VERIFIED 0).sf r F.ethPortStat.AS_CAPABLE 0)
    else d

/-- SYNC_INTERVAL (R389): the protocol engine's message of type msg (0 Sync, 2 Pdelay_Req, 11 Announce) leaves on gPTP port p (0 to 3, 12 and
13; 14 and 15 the Canal ports) in queue q; delay is the port's measured neighbour delay in ns.  Sync goes by one-step insertion, an
Announce carries the priorities set by then. -/
def Dev.syncInterval (d0 : Dev) (now p msg q delay : Nat) (bs : List Byte) : Dev :=
  let canal := p == 14 || p == 15
  if !canal && !(d0.ethEn p && (decide (p < 4) || decide (12 ≤ p)) && (d0.port p).link) || canal && !(d0.on 165 && d0.fb (r1 .cnlPortStat (p - 14)) F.cnlPortStat.UP) then d0
  else
    let d := if msg = 11 then d0.settle now 0x0012 0 else d0
    let d1 := if p < 4 then d.sf (r1 .ethPortStat p) F.ethPortStat.AS_CAPABLE (b2n (decide (delay ≤ 800))) else d
    let d2 := d1.emit (if canal then 0x0151 + 2 * (p - 14) else ethSrc p + 1) now .sync false ([p, msg, delay] ++ (if msg = 11 then [d1.stew.ptpPrio / 256, d1.stew.ptpPrio % 256] else []))
    if 800 < delay ∧ msg ≠ 2 then d1
    else if canal then { d2 with cnl := { d2.cnl with ptp := d2.cnl.ptp ++ [bs] } }
    else
      let x : TxFrame := { queue := q % 8, insert := msg == 0, stamped := msg != 11, src := ethSrc p + 1, data := bs }
      d2.modPort p fun y => { y with txq := y.txq ++ [x] }

/-- SYNC_INTERVAL (R389). -/
def execSyncInterval (t p msg q delay : Nat) (data : List Nat) (s : State) : Host.Outcome State Fault Refusal :=
  s.run t fun now d => d.syncInterval now p msg q delay (data.map (BitVec.ofNat 8))

/-- PTM_REQUEST (R389): the endpoint receives DT at the root port's stamp point. -/
def execPtmRequest (t : Nat) (s : State) : Host.Outcome State Fault Refusal :=
  s.run t fun now d => if d.on 163 then { d with bus := .data now } else d

/-- The queues and double-sample crossings of a block (R65): 0 robot bus Ethernet, 1 camera ingest, 2 clock and power controller, 3 low-speed
I/O. -/
def cdcQueues (block : Nat) : Nat := match block with
  | 0 => 6
  | 1 => 8
  | 2 => 8
  | 3 => 1
  | _ => 0
def cdcSamples (block : Nat) : Nat := match block with
  | 0 => 5
  | 1 => 8
  | 2 => 2
  | _ => 0

/-- QUEUE_ENTER_ELASTIC (R58). -/
def execQueueEnterElastic (t block q : Nat) (s : State) : Host.Outcome State Fault Refusal :=
  s.run t fun _ d =>
    if q < cdcQueues block then (d.setBit (r1 .cdcStatus block) F.cdcStatus.ELASTIC q).setBit (r1 .cdcStatus block) F.cdcStatus.WAS_ELASTIC q else d

/-- QUEUE_RETURN_FIXED (R59). -/
def execQueueReturnFixed (t block q : Nat) (s : State) : Host.Outcome State Fault Refusal :=
  s.run t fun _ d => if q < cdcQueues block then d.clrBit (r1 .cdcStatus block) F.cdcStatus.ELASTIC q else d

/-- CROSSING_STALE (R63). -/
def execCrossingStale (t block n : Nat) (s : State) : Host.Outcome State Fault Refusal :=
  s.run t fun _ d => if n < cdcSamples block then d.setBit (r1 .cdcStatus block) F.cdcStatus.STALE n else d

end Sys2Proof.Machine
end

