-- ==== Sys2Proof/Machine/CueCmd.lean ====
section
/-! DEFINITION. Firing a cue channel with what its internal trigger starts, arming, and the capture pins (R49 to R52). -/

namespace Sys2Proof.Machine

/-- A channel fires and its trigger reaches its target (R49, the table of trigger targets): a camera's exposure, a port's gate control
list and a replan start with it; the period start, the cut-off and the ticks of the loop engines are commands of their own.  f: the fire DT. -/
def Dev.cueFired (d : Dev) (now f n : Nat) : Dev :=
  let trig := d.f (r1 .cueChCfg n) F.cueChCfg.TRIG
  let d1 := d.fireCue f n
  let spent (d : Dev) : Dev := { d with cue := { d.cue with trig := tdel d.cue.trig trig } }
  if 0x0B ≤ trig ∧ trig ≤ 0x12 then (spent d1).camCue now (trig - 0x0B) f
  else if 0x13 ≤ trig ∧ trig ≤ 0x16 then (spent d1).gclStart now (trig - 0x13) f
  else if trig = 0x17 then ((spent d1).settle now 0x0050 0).replanFire f n
  else d1

/-- A channel's fires that its TIME has reached happen, each at its own DT (R49, R52). -/
def Dev.fireDue (d : Dev) (now n : Nat) : Dev :=
  let period := d.f (r1 .cueChPeriod n) F.cueChPeriod.PERIOD
  let fires := if d.cueDue now n = false then 0
    else if d.fb (r1 .cueChCfg n) F.cueChCfg.PERIODIC ∧ 64 ≤ period then (now - d.rn (r1 .cueChTime n)) / period + 1 else 1
  (List.range fires).foldl (fun (d : Dev) _ => if d.cueDue now n then d.cueFired now (d.fireDt now n) n else d) d

/-- CUE_FIRE (R49): channel n fires at the first DT at or above its TIME. -/
def execCueFire (t n : Nat) (s : State) : Host.Outcome State Fault Refusal :=
  s.runFed t fun now d => if d.cueDue now n then d.cueFired now (d.fireDt now n) n else d

/-- CUE_ARM (R49, R52): initiator class c writes CUE_CHn_CFG with ARM 1; a one-shot channel whose TIME is past fires at once. -/
def execCueArm (t c n v : Nat) (s : State) : Host.Outcome State Fault Refusal :=
  s.regAccess t c (r1 .cueChCfg n) .write fun now d =>
    if 64 ≤ n then { d with bus := .accessFault }
    else
      let r := r1 .cueChCfg n
      let d1 := d.wn r (maskedWrite RegName.cueChCfg.info (!s.latchClosed) (d.rn r) v)
      if d1.fb r F.cueChCfg.ARM then
        let d2 := d1.armCue now n
        if d2.firesAtOnce now n then (d2.cueFired now now n).feedCaptures else d2
      else d1

/-- CUE_TIME_WRITE (R52): initiator class c writes CUE_CHn_TIME; an old TIME of an armed channel at or below the write's DT has fired. -/
def execCueTimeWrite (t c n : Nat) (v : Word) (s : State) : Host.Outcome State Fault Refusal :=
  s.regAccess t c (r1 .cueChTime n) .write fun now d =>
    if 64 ≤ n then { d with bus := .accessFault }
    else (((d.fireDue now n).wr (r1 .cueChTime n) v).timeSince now n).feedCaptures

/-- CAPTURE_EDGE (R51): an edge at pin CAP_IN src, its stamp, and for how many ns the level before was stable. -/
def execCaptureEdge (t src : Nat) (rising : Bool) (stamp stable : Nat) (s : State) : Host.Outcome State Fault Refusal :=
  s.runFed t fun now d =>
    if src < 16 then
      (List.range 32).foldl (fun (d : Dev) n => if d.captures n src rising stable then d.capture now n (min stamp now) rising false else d) d
    else d

end Sys2Proof.Machine
end

