-- ==== Sys2Proof/Machine/LawCmd.lean ====
section
/-! DEFINITION. The commands of the loop engines: LAW_LOAD, LAW_ARM and its forms, LAW_INJECT, LAW_CAPTURE (R315 to R319, R330 to R332, R336
to R338, R342, R360). -/

namespace Sys2Proof.Machine

/-- Whether a slot of an engine is armed, itself or as the law that a holding one stands for. -/
def Engine.slotArmed (e : Engine) (s : Nat) : Bool := (e.armed.any fun a => a.slot == s) || e.held.any fun h => h.2.slot == s

/-- A KIND 2 record belongs to the slot and is well formed (R335, R336). -/
def modelFits (rec_ : List Byte) (n slot : Nat) : Bool :=
  let b := bytesAt rec_ 16 1
  let w := bytesAt rec_ 24 4
  bits b 6 2 == 0 && bits b 4 2 == 2 && decide (bits b 2 2 < 3) && bits w 29 3 == n && bits w 23 6 == slot

/-- The reserved fields of a KIND 2 record (R102, R335). -/
def modelRsvd (rec_ : List Byte) : Option Fail :=
  firstFail [objFail (bits (bytesAt rec_ 17 1) 0 2 == 0) .badReserved 17, objFail (bits (bytesAt rec_ 24 4) 0 20 == 0) .badReserved 24, zeroFail rec_ 64 24, zeroFail rec_ 88 8]

/-- Whether the envelope rule accepts a record now (R103, R105, R336): its temperature where its envelope is active, and V_meas. -/
def Dev.modelAccepted (d : Dev) (n joint : Nat) (rec_ : List Byte) : Bool :=
  let b := bytesAt rec_ 16 1
  let vb := bytesAt rec_ 56 4
  let v := d.vMeas n (d.eng n).latched joint
  bits b 0 2 == 2 && (bits b 2 2 != d.envelope || decide (d.hotBand ≤ bits (bytesAt rec_ 17 1) 2 2)) && fle (fmul 0x3F666666 vb) v && fle v (fmul 0x3F8CCCCD vb)

/-- The checks of lawLoad, in the order of R352. -/
def Dev.lawLoadCheck (d : Dev) (r : Req) : Option Fail :=
  let eng (r : Req) : Nat := r.fld 0 0 3
  let slot (r : Req) : Nat := r.fld 0 3 6
  let desc (r : Req) : List Byte := match d.pinned1 (r.w32 4) with
    | some (_, l) => d.locBytes l (r.w32 8) 4096
    | none => []
  let shift (r : Req) (f : Option Fail) : Option Fail := f.map fun x => (x.1, x.2 + r.w32 8)
  let cal (r : Req) : List Byte := match d.pinned1 (r.w32 12) with
    | some (_, l) => d.locBytes l 0 96
    | none => []
  firstFail [d.front r 0 16 [(0, 9, 23)], if (d.pinned1 (r.w32 4)).isSome then shift r (lawRsvd (desc r)) else none,
    if r.w32 12 ≠ 0 ∧ (d.pinned1 (r.w32 12)).isSome then modelRsvd (cal r) else none,
    d.needPinned (r.w32 4) 4, needCfg (match d.pinned1 (r.w32 4) with
      | some (o, _) => decide (r.w32 8 + 4096 ≤ o.size)
      | none => false) 8,
    if r.w32 12 = 0 then none else firstFail [d.needPinned (r.w32 12) 12, needCfg (modelFits (cal r) (eng r) (slot r)) 12],
    shift r (lawBad (desc r)), need (!(d.eng (eng r)).slotArmed (slot r)) .busy 0]

/-- LAW_LOAD (R318, R319, R336). -/
def Dev.lawLoad (d : Dev) (now m seq : Nat) : Dev :=
  let eng (r : Req) : Nat := r.fld 0 0 3
  let slot (r : Req) : Nat := r.fld 0 3 6
  let desc (r : Req) : List Byte := match d.pinned1 (r.w32 4) with
    | some (_, l) => d.locBytes l (r.w32 8) 4096
    | none => []
  let cal (r : Req) : List Byte := match d.pinned1 (r.w32 12) with
    | some (_, l) => d.locBytes l 0 96
    | none => []
  d.command now m seq 0x0A01 (fun _ => true) d.lawLoadCheck
    (fun r =>
      let out := bits (bytesAt (cal r) 24 4) 20 3
      let has := r.w32 12 != 0
      let ok := has && d.modelAccepted (eng r) (lawOutJ (desc r) out) (cal r)
      let s : LawSlot := { desc := lawConvert (desc r), models := if ok then [(out, cal r)] else [], inUse := if ok && d.modelOk (eng r) (lawOutJ (desc r) out) (cal r) then [out] else [] }
      (d.modEng (eng r) fun e => { e with slots := tset e.slots (slot r) s }).finish now r (if has && !ok then .calEnvelope else .ok) 0 [])

/-- LAW_LOAD (R318). -/
def execLawLoad (t m seq : Nat) (s : State) : Host.Outcome State Fault Refusal := s.run t fun now d => d.lawLoad now m seq

/-- Fields of LAW_ARM (R360): the engine mask, H, the slots of an engine. -/
def Req.engines (r : Req) : List Nat := (List.range 8).filter fun n => (r.fld 0 0 8).testBit n
def Req.lawH (r : Req) : Nat := r.w64 8
def Req.slots (r : Req) (n : Nat) : Nat := r.w64 (16 + 8 * n)

/-- The front checks of LAW_ARM. -/
def Dev.armFront (d : Dev) (r : Req) : Option Fail := d.front r 63 80 [(0, 8, 24), (4, 0, 32)]

/-- Whether the tick channel of an engine suits full-service laws (R315): PERIOD divides PBU_PERIOD.LEN and it fires at every period
start. -/
def Dev.tickSuits (d : Dev) (n : Nat) : Bool :=
  match d.tickChannel n with
  | some c =>
    let p := d.f (r1 .cueChPeriod c) F.cueChPeriod.PERIOD
    let len := d.f (r0 .pbuPeriod) F.pbuPeriod.LEN
    d.fb (r1 .cueChCfg c) F.cueChCfg.PERIODIC && p != 0 && len % p == 0 && ((d.rn (r1 .cueChTime c) : Int) - (d.periodMark : Int)) % (p : Int) == 0
  | none => false

/-- The cycles of a tick with index i, for laws as (first tick, DIV, cycles). -/
def tickCycles (ls : List (Nat × Nat × Nat)) (i : Nat) : Nat :=
  ((ls.filter fun l => (i + l.1) % max 1 l.2.1 == 0).map fun l => l.2.2).sum

/-- Whether every tick's commands are ready by TX_OFF (R317). -/
def readyBy (txOff : Nat) (ls : List (Nat × Nat × Nat)) : Bool :=
  let span := ls.foldl (fun n l => Nat.lcm n (max 1 l.2.1)) 1
  (List.range span).all fun i => decide (500 * 600 + 1000 * tickCycles ls i ≤ txOff * 100 * 600)

/-- The laws of an engine after a change, for the ready time: phase in ticks against the reference anchor, DIV and cycles. -/
def Dev.lawLoads (d : Dev) (n anchor : Nat) (armed : List ArmedLaw) (slots : List Nat) : List (Nat × Nat × Nat) :=
  let e := d.eng n
  let tick := max 1 (d.tickPeriod n)
  let phase (a div : Nat) : Nat := (((anchor : Int) - (a : Int)) / (tick : Int) % (max 1 div : Int)).toNat
  (armed.map fun a => let ds := (e.desc a.slot).getD []; (phase a.anchor (lawPeriod ds / tick), lawPeriod ds / tick, lawCycles ds)) ++
    slots.map fun s => let ds := (e.desc s).getD []; (0, lawPeriod ds / tick, lawCycles ds)

/-- A law's holding law suits it (R331): loaded, its joints among the law's, its period a whole multiple of 250,000 ns. -/
def Engine.holdOk (e : Engine) (desc : List Byte) : Bool :=
  !lawHoldEn desc || (match e.desc (lawHoldSlot desc) with
    | some h => (lawJoints h).all (fun j => (lawJoints desc).contains j) && lawPeriod h % 250000 == 0 && lawPeriod h != 0
    | none => false)

/-- The configuration of the slots a request arms on an engine (R315 to R317, R331); gone: armed laws that leave with the change. -/
def Dev.armBad (d : Dev) (r : Req) (n : Nat) (anchor : Nat) (gone : ArmedLaw → Bool) : Option Fail :=
  let e := d.eng n
  let tick := d.tickPeriod n
  let left := e.armed.filter fun a => !gone a
  firstFail ([needCfg (d.engOn n) 0, needCfg (d.tickSuits n) 0] ++ (slotsOf (r.slots n)).map (fun s => match e.desc s with
      | some ds => needCfg (lawPeriod ds == lawDiv ds * tick && e.holdOk ds && ds != []) (16 + 8 * n)
      | none => some (.badConfig, 48 + 8 * n)) ++
    [needCfg (readyBy (d.f (r1 .leEngCfg n) F.leEngCfg.TX_OFF) (d.lawLoads n anchor left (slotsOf (r.slots n)))) (16 + 8 * n)])

/-- A law may not command a joint that an armed law commands (R331): the armed engine and slot. -/
def Dev.jointTaken (d : Dev) (r : Req) (gone : Nat → ArmedLaw → Bool) : Option Fail :=
  let new := r.engines.flatMap fun n => (slotsOf (r.slots n)).map fun s => (n, s, lawJoints (((d.eng n).desc s).getD []))
  let armed := (List.range 8).flatMap fun n => ((d.eng n).armed.filter fun a => !gone n a).map fun a => (n, a.slot, lawJoints (((d.eng n).desc a.slot).getD []))
  let clash (x y : Nat × Nat × List Nat) : Bool := x.2.2.any fun j => y.2.2.contains j
  match new.findSome? fun x => (armed ++ new.filter fun y => !(y.1 == x.1 && y.2.1 == x.2.1)).find? (clash x) with
  | some y => some (.conflict, y.1 * 64 + y.2.1)
  | none => none

/-- Queue a change on every engine a request names. -/
def Dev.queueChange (d : Dev) (r : Req) (what at_ : Nat) : Dev :=
  r.engines.foldl (fun (d : Dev) n => d.modEng n fun e => { e with changes := e.changes ++ [⟨what, some (r.mbx, r.seq), r.slots n, at_, r.mbx, r.ctx⟩] }) (d.decide' r)

/-- Engine 0 is the early firmware's while the early service runs (R19): no form but HANDOVER names it. -/
def Dev.earlyBusy (d : Dev) (r : Req) : Option Fail := need (!(d.earlyRuns && r.engines.contains 0)) .busy 0

/-- The checks of lawArm, in the order of R352. -/
def Dev.lawArmCheck (d : Dev) (now : Nat) (r : Req) : Option Fail :=
  firstFail ([d.armFront r, needCfg (r.engines != []) 0] ++ r.engines.map (fun n => d.armBad r n (d.nextPeriod now) fun _ => false) ++
    [d.jointTaken r fun _ _ => false, d.earlyBusy r,
     firstFail (r.engines.map fun n => need (!(slotsOf (r.slots n)).any (d.eng n).slotArmed) .busy 0)])

/-- LAW_ARM with ARM (R315 to R317, R331). -/
def Dev.lawArm (d : Dev) (now m seq : Nat) : Dev :=
  d.command now m seq 0x0A02 (fun r => r.flags &&& 511 == 1) (d.lawArmCheck now)
    (fun r => d.queueChange r 0 now)

/-- LAW_ARM (R316). -/
def execLawArm (t m seq : Nat) (s : State) : Host.Outcome State Fault Refusal := s.run t fun now d => d.lawArm now m seq

/-- The checks of lawDisarm, in the order of R352. -/
def Dev.lawDisarmCheck (d : Dev) (r : Req) : Option Fail :=
  firstFail ([d.armFront r, needCfg (r.engines != []) 0] ++ (r.engines.map fun n => needCfg ((slotsOf (r.slots n)).all (d.eng n).slotArmed) (16 + 8 * n)) ++ [d.earlyBusy r])

/-- LAW_ARM with DISARM. -/
def Dev.lawDisarm (d : Dev) (now m seq : Nat) : Dev :=
  d.command now m seq 0x0A02 (fun r => r.flags &&& 511 == 2) d.lawDisarmCheck
    (fun r => d.queueChange r 1 now)

/-- LAW_DISARM (R360). -/
def execLawDisarm (t m seq : Nat) (s : State) : Host.Outcome State Fault Refusal := s.run t fun now d => d.lawDisarm now m seq

/-- The checks of lawHold, in the order of R352. -/
def Dev.lawHoldCheck (d : Dev) (r : Req) : Option Fail :=
  firstFail [d.armFront r, needCfg (r.engines != []) 0, d.earlyBusy r]

/-- LAW_ARM with HOLD (R330). -/
def Dev.lawHold (d : Dev) (now m seq : Nat) : Dev :=
  d.command now m seq 0x0A02 (fun r => r.flags &&& 511 == 4) d.lawHoldCheck (fun r => d.queueChange r 2 now)

/-- LAW_HOLD (R330). -/
def execLawHold (t m seq : Nat) (s : State) : Host.Outcome State Fault Refusal := s.run t fun now d => d.lawHold now m seq

/-- Whether the debug port halts a loop engine (R458). -/
def Dev.anyEngHalted (d : Dev) : Bool := (List.range 8).any fun n => (d.target (18 + n)).halted

/-- The checks of lawResume, in the order of R352. -/
def Dev.lawResumeCheck (d : Dev) (now : Nat) (r : Req) : Option Fail :=
  firstFail [d.armFront r, needCfg (r.engines != []) 0, d.earlyBusy r,
    need (!d.fusStop && !d.anyEngHalted && !(r.engines.any fun n => d.setStale n now ((d.eng n).setAt now))) .busy 0]

/-- LAW_ARM with RESUME (R332, R458). -/
def Dev.lawResume (d : Dev) (now m seq : Nat) : Dev :=
  d.command now m seq 0x0A02 (fun r => r.flags &&& 511 == 8) (d.lawResumeCheck now)
    (fun r => d.queueChange r 3 now)

/-- LAW_RESUME (R332). -/
def execLawResume (t m seq : Nat) (s : State) : Host.Outcome State Fault Refusal := s.run t fun now d => d.lawResume now m seq

/-- The checks of lawSwap, in the order of R352. -/
def Dev.lawSwapCheck (d : Dev) (now : Nat) (r : Req) : Option Fail :=
  let outgoing (n s : Nat) : Option ArmedLaw := (d.eng n).commanding s
  let covers (n s : Nat) : Bool := match outgoing n s with
    | some a => (lawJoints (((d.eng n).desc s).getD [])).all fun j => (lawJoints (((d.eng n).desc a.slot).getD [])).contains j
    | none => false
  let gone (r : Req) (n : Nat) (a : ArmedLaw) : Bool := (slotsOf (r.slots n)).any fun s => (outgoing n s).elim false fun b => b.slot == a.slot
  firstFail ([d.armFront r, needCfg (r.engines != []) 0] ++ r.engines.map (fun n => firstFail [d.armBad r n (d.nextPeriod now) (gone r n),
      needCfg ((slotsOf (r.slots n)).all (covers n)) (16 + 8 * n)]) ++
    [d.jointTaken r (gone r), d.earlyBusy r, firstFail (r.engines.map fun n => need (!(slotsOf (r.slots n)).any (d.eng n).slotArmed) .busy 0)])

/-- LAW_ARM with SWAP (R331): each law replaces the one armed law whose joints hold all of its own (log entry 34). -/
def Dev.lawSwap (d : Dev) (now m seq : Nat) : Dev :=
  d.command now m seq 0x0A02 (fun r => r.flags &&& 511 == 16) (d.lawSwapCheck now)
    (fun r => d.queueChange r 4 now)

/-- LAW_SWAP (R331). -/
def execLawSwap (t m seq : Nat) (s : State) : Host.Outcome State Fault Refusal := s.run t fun now d => d.lawSwap now m seq

/-- Whether a channel that is armed fires at an instant. -/
def Dev.firesAt (d : Dev) (c h : Nat) : Bool :=
  let p := d.f (r1 .cueChPeriod c) F.cueChPeriod.PERIOD
  let t := d.rn (r1 .cueChTime c)
  d.fb (r1 .cueChCfg c) F.cueChCfg.ARM && decide (t ≤ h) && (t == h || (d.fb (r1 .cueChCfg c) F.cueChCfg.PERIODIC && p != 0 && (h - t) % p == 0))

/-- The checks of lawHandover, in the order of R352. -/
def Dev.lawHandoverCheck (d : Dev) (now : Nat) (r : Req) : Option Fail :=
  let early (n : Nat) (_ : ArmedLaw) : Bool := n == 0 && d.earlyRuns
  let periodStart (h : Nat) : Bool := d.nextPeriod h == h
  let held : List Nat := ((d.eng 0).armed.flatMap fun a => lawJoints (((d.eng 0).desc a.slot).getD [])).filter fun j => d.fb (r1 .leJoint j) F.leJoint.EN
  let h := r.lawH
  let zero := (slotsOf (r.slots 0)).flatMap fun s => lawJoints (((d.eng 0).desc s).getD [])
  firstFail ([d.armFront r, needCfg (d.earlyRuns && (r.fld 0 0 8).testBit 0) 0,
    needCfg (d.firesAt 0 h && (match d.tickChannel 0 with
      | some c => d.firesAt c h
      | none => false) && periodStart h) 8] ++ r.engines.map (fun n => d.armBad r n h (early n)) ++
    [needCfg (held.all fun j => zero.contains j) 16, d.jointTaken r early,
     need (!d.fusStop && !d.anyEngHalted && ((d.eng 0).sets != []) && decide (now + 2000000 ≤ h)) .busy 0,
     firstFail (r.engines.map fun n => need (!(slotsOf (r.slots n)).any fun s => (d.eng n).slotArmed s) .busy 0)])

/-- LAW_ARM with HANDOVER (R342). -/
def Dev.lawHandover (d : Dev) (now m seq : Nat) : Dev :=
  d.command now m seq 0x0A02 (fun r => r.flags &&& 511 == 32) (d.lawHandoverCheck now)
    (fun r => d.queueChange r 5 r.lawH)

/-- LAW_HANDOVER (R342). -/
def execLawHandover (t m seq : Nat) (s : State) : Host.Outcome State Fault Refusal := s.run t fun now d => d.lawHandover now m seq

/-- Fields of LAW_INJECT (R360). -/
def Req.injSig (r : Req) : Nat := r.fld 0 13 2
def Req.injN (r : Req) : Nat := r.fld 0 15 5
def Req.injM (r : Req) : Nat := r.fld 0 20 8

/-- The checks of LAW_INJECT's signal (R337, R360). -/
def Req.injectBad (r : Req) : Option Fail :=
  let sig := r.injSig
  let a := r.w32 4
  let f0 := r.w32 8
  let f1 := r.w32 12
  let pos (v : Nat) : Bool := ffinite v && flt 0 v
  firstFail [needCfg (if sig = 3 then (prbsTap r.injN).isSome else r.injN == 0) 0, needCfg (if sig = 3 then r.injM != 0 else r.injM == 0) 0, needCfg (ffinite a) 4,
    needCfg (if sig = 3 then f0 == 0 else pos f0) 8, needCfg (if sig = 1 then pos f1 else if sig = 2 then pos f1 && f1 != f0 else f1 == 0) 12, needCfg (r.w64 24 != 0) 24]

/-- The checks of lawInject, in the order of R352. -/
def Dev.lawInjectCheck (d : Dev) (r : Req) : Option Fail :=
  let eng (r : Req) : Nat := r.fld 0 0 3
  let slot (r : Req) : Nat := r.fld 0 3 6
  let index (r : Req) : Nat := r.fld 0 10 3
  let e (r : Req) : Engine := d.eng (eng r)
  let armed (r : Req) : Bool := (e r).armed.any fun a => a.slot == slot r
  let inDim (r : Req) : Bool := let ds := ((e r).desc (slot r)).getD []; if (r.fld 0 9 1) = 1 then decide (index r < lawNy ds) else decide (index r < lawNu ds)
  firstFail [d.front r 3 40 [(0, 28, 4), (36, 0, 32)],
    if r.flag 1 then none else firstFail [needCfg (armed r) 0, needCfg (inDim r) 1, r.injectBad,
      if r.flag 0 then firstFail [d.needPinned (r.w32 32) 32, needCfg (match d.pinned1 (r.w32 32) with
        | some (o, _) => decide (96 ≤ o.size)
        | none => false) 32] else none,
      need (!(e r).holding && (e r).inject.isNone) .busy 0]]

/-- LAW_INJECT (R337): a test signal at a summing point of an armed law, or its end with STOP. -/
def Dev.lawInject (d : Dev) (now m seq : Nat) : Dev :=
  let eng (r : Req) : Nat := r.fld 0 0 3
  let slot (r : Req) : Nat := r.fld 0 3 6
  let index (r : Req) : Nat := r.fld 0 10 3
  d.command now m seq 0x0A03 (fun _ => true) d.lawInjectCheck
    (fun r =>
      if r.flag 1 then ((d.injectEnd now (eng r))).finish now r .ok 0 []
      else
        let x : Inject := { mbx := m, seq := seq, slot := slot r, output := r.fld 0 9 1 == 1, index := index r, sig := r.injSig, n := r.injN, m := r.injM, a := r.w32 4, f0 := r.w32 8, f1 := r.w32 12, t0 := r.w64 16, len := r.w64 24, cal := r.w32 32, calibrate := r.flag 0, lfsr := 2 ^ r.injN - 1, steps := 0, squall := d.rn (r0 .pbuSquallCfg) }
        let full := 2 ^ 31 + 100 * 2 ^ 24 + 100 * 2 ^ 16 + 100 * 2 ^ 8
        let d1 := if r.flag 0 then d.setSquall now full else d
        ((d1.decide' r).modEng (eng r) fun g => { g with inject := some x }).syncEng (eng r))

/-- LAW_INJECT (R337). -/
def execLawInject (t m seq : Nat) (s : State) : Host.Outcome State Fault Refusal := s.run t fun now d => d.lawInject now m seq

/-- A capture code's checks (R338): the slot loaded, the index within the law, the reserved bits. -/
def Engine.codeOk (e : Engine) (code : Nat) : Bool :=
  match e.desc (bits code 10 6) with
  | some ds =>
    let i := bits code 3 4
    let k := bits code 7 3
    if k = 1 ∨ k = 2 then decide (i < lawNy ds) else if k = 3 then decide (i < lawNx ds) else if k = 4 then true else decide (i < lawNu ds)
  | none => false

/-- The checks of lawCapture, in the order of R352. -/
def Dev.lawCaptureCheck (d : Dev) (r : Req) : Option Fail :=
  let eng (r : Req) : Nat := r.fld 0 0 3
  let k (r : Req) : Nat := r.fld 0 3 3 + 1
  let codes (r : Req) : List Nat := (List.range (k r)).map fun i => r.fld (16 + 4 * (i / 2)) (16 * (i % 2)) 16
  firstFail [d.front r 1 32 [(0, 11, 21)],
    if r.flag 0 then none else firstFail (((List.range (k r)).zip (codes r)).map (fun c => need (c.2 % 8 == 0) .badReserved (48 + 2 * c.1)) ++
      [d.needPinned (r.w32 4) 4, needCfg (match d.pinned1 (r.w32 4) with
        | some (o, _) => decide (4 * (65536 / k r * k r) ≤ o.size)
        | none => false) 4, firstFail (((List.range (k r)).zip (codes r)).map fun c => needCfg ((d.eng (eng r)).codeOk c.2) (16 + 2 * c.1)), need (d.eng (eng r)).capture.isNone .busy 0])]

/-- LAW_CAPTURE (R338): start a capture, or end the running one with STOP. -/
def Dev.lawCapture (d : Dev) (now m seq : Nat) : Dev :=
  let eng (r : Req) : Nat := r.fld 0 0 3
  let k (r : Req) : Nat := r.fld 0 3 3 + 1
  let codes (r : Req) : List Nat := (List.range (k r)).map fun i => r.fld (16 + 4 * (i / 2)) (16 * (i % 2)) 16
  d.command now m seq 0x0A04 (fun _ => true) d.lawCaptureCheck
    (fun r =>
      if r.flag 0 then (d.captureEnd now (eng r)).finish now r .ok 0 []
      else
        let c : Capture := { mbx := m, seq := seq, k := k r, dec := r.fld 0 6 5 + 1, object := r.w32 4, start := r.w64 8, codes := codes r, first := none, ticks := 0, rows := 0, data := [], holdAt := 0 }
        let g := r1 .leEngCap (eng r)
        ((((((d.decide' r).modEng (eng r) fun e => { e with capture := some c }).sf g F.leEngCap.STATE 1).sf g F.leEngCap.K (c.k - 1)).sf g F.leEngCap.DEC (c.dec - 1)).sf g
          F.leEngCap.ROWS 0).syncEng (eng r))

/-- LAW_CAPTURE (R338). -/
def execLawCapture (t m seq : Nat) (s : State) : Host.Outcome State Fault Refusal := s.run t fun now d => d.lawCapture now m seq

end Sys2Proof.Machine
end

