-- ==== Sys2Proof/Machine/ResCmd.lean ====
section
/-! DEFINITION. CLAIM, RELEASE, CUE_SET, CAPTURE_SET and CONFIG_SET (R49, R52, R81, R273, R310, R315, R364 to R368, R409). -/

namespace Sys2Proof.Machine

/-- DETAIL of CONFLICT for a holder (R366). -/
def Dev.holderDetail (d : Dev) (o : Owner) : Nat :=
  match o with
  | .ctx c => c * 2 ^ 16 + (d.ctx? c).elim 0 Ctx.mbx * 2 ^ 8
  | .device => 0xFFFFFF00

/-- The fields of CLAIM and RELEASE (R360). -/
def Req.resType (r : Req) : Nat := r.fld 0 0 8
def Req.resIndex (r : Req) : Nat := r.fld 0 16 16

/-- Whether a resource is in the table (R365). -/
def Req.resValid (r : Req) : Bool := decide (r.resIndex < resCount r.resType)

/-- Resources the device owns, or fixes to a class-0 context (R367). -/
def Dev.fixedRes (d : Dev) (type index : Nat) : Bool := d.owner type index == some .device || (type == 9 && d.fixedChannel index)

/-- A resource held by another context conflicts (R366). -/
def Dev.heldFail (d : Dev) (ctx type index : Nat) : Option Fail :=
  match d.owner type index with
  | some o => if o = .ctx ctx then none else some (.conflict, d.holderDetail o)
  | none => none

/-- The checks of a CLAIM on its pin-mux group (R365, R409): free or held by the claiming context, and not serving the other function. -/
def Dev.muxFail (d : Dev) (ctx type index : Nat) : Option Fail :=
  match muxOf type index with
  | none => none
  | some m =>
    firstFail [d.heldFail ctx 0x0E m.1,
      match (muxUsers m.1).find? fun u => u.2.2 != m.2 && (d.owner u.1 u.2.1).isSome with
      | some u => some (.conflict, (d.owner u.1 u.2.1).elim 0 d.holderDetail)
      | none => none]

/-- The checks on a resource's TYPE and INDEX (R365). -/
def Req.resFail (r : Req) : Option Fail := firstFail [needCfg (resCount r.resType != 0) 0, needCfg r.resValid 2]

/-- A claim takes a resource with its pin-mux group and its window page (R365, R421). -/
def Dev.claimRes (d : Dev) (now : Nat) (r : Req) : Dev :=
  let d1 := d.setOwner r.resType r.resIndex (some (.ctx r.ctx))
  let d2 := match muxOf r.resType r.resIndex with
    | some m =>
      let e := d1.setOwner 0x0E m.1 (some (.ctx r.ctx))
      if m.2 ∧ !(e.stew.muxB.contains m.1) then { e with stew := { e.stew with muxB := m.1 :: e.stew.muxB } } else e
    | none => d1
  match resPage r.resType r.resIndex with
  | some p => d2.grantPage now p (d2.mbxClass r.mbx) 2
  | none => d2

/-- The checks of claimCmd, in the order of R352. -/
def Dev.claimCmdCheck (d : Dev) (r : Req) : Option Fail :=
  firstFail [d.front r 0 4 [(0, 8, 8)], r.resFail, need (!d.fixedRes r.resType r.resIndex) .conflict 0xFFFFFF00, d.heldFail r.ctx r.resType r.resIndex,
    d.muxFail r.ctx r.resType r.resIndex]

/-- CLAIM (R365 to R367). -/
def Dev.claimCmd (d : Dev) (now m seq : Nat) : Dev :=
  d.command now m seq 0x0601 (fun _ => true) d.claimCmdCheck
    fun r => (if d.owner r.resType r.resIndex = some (.ctx r.ctx) then d else d.claimRes now r).finish now r .ok 0 []

/-- CLAIM (R366): the request SEQ seq of mailbox m. -/
def execClaim (t m seq : Nat) (s : State) : Host.Outcome State Fault Refusal := s.run t fun now d => d.claimCmd now m seq

/-- The checks of release, in the order of R352. -/
def Dev.releaseCheck (d : Dev) (r : Req) : Option Fail :=
  firstFail [d.versionFail r, d.permFail r,
    need (!r.resValid || d.fixedRes r.resType r.resIndex || d.owner r.resType r.resIndex == some (.ctx r.ctx)) .denied 0,
    d.front r 0 4 [(0, 8, 8)], r.resFail, need (!d.fixedRes r.resType r.resIndex) .conflict 0xFFFFFF00]

/-- RELEASE (R366, R367). -/
def Dev.release (d : Dev) (now m seq : Nat) : Dev :=
  d.command now m seq 0x0602 (fun _ => true) d.releaseCheck
    fun r => (d.releaseResource now r.resType r.resIndex).finish now r .ok 0 []

/-- RELEASE (R366). -/
def execRelease (t m seq : Nat) (s : State) : Host.Outcome State Fault Refusal := s.run t fun now d => d.release now m seq

/-- A configuring command names resources that its context must own (R365): DENIED for one without an owner. -/
def Dev.ownedFail (d : Dev) (type index : Nat) : Option Fail := need (d.owner type index).isSome .denied 0

/-- Whether a periodic channel's PERIOD suits its trigger target (R49, R81, R270, R273, R310, R315). -/
def Dev.periodSuits (d : Dev) (trig period : Nat) : Bool :=
  if trig = 1 then decide (50000 ≤ period) && period == d.periodLen
  else if trig = 2 then decide (250000 ≤ period) && d.estPeriodOk period
  else if 3 ≤ trig ∧ trig ≤ 10 then decide (loopMin d.envelope ≤ period)
  else if trig = 0x17 then decide (replanMin d.envelope ≤ period)
  else decide (64 ≤ period)

/-- Fields of CUE_SET's CFG. -/
def Req.cueCfg (r : Req) (x : Fld) : Nat := bits (r.w32 4) x.lo x.w

/-- Whether a CUE_SET changes only PIN_EN, PIN, PIN_ACT and PULSE_W (R367). -/
def Dev.pinOnly (d : Dev) (r : Req) (n : Nat) : Bool :=
  [F.cueChCfg.ARM, F.cueChCfg.PERIODIC, F.cueChCfg.TRIG].all (fun x => r.cueCfg x == d.f (r1 .cueChCfg n) x) && r.w64 8 == d.rn (r1 .cueChTime n) &&
    r.fld 16 0 40 == d.chanPeriod n

/-- The pin a CUE_SET's fires drive. -/
def Req.cuePin (r : Req) : Option Nat := if r.cueCfg F.cueChCfg.PIN_EN = 1 then some (r.cueCfg F.cueChCfg.PIN) else none

/-- A channel is set, and armed where CFG says so (R49, R52); an old fire that was due stands. -/
def Dev.setChannel (d0 : Dev) (now n : Nat) (r : Req) : Dev :=
  let d := d0.fireDue now n
  let g := r1 .cueChCfg n
  let old := d.rn g
  let cfg := (old - old % 2 ^ 21) + r.w32 4 % 2 ^ 21
  if d.fixedChannel n then d.wn g cfg
  else
    let d1 := ((d.wn g cfg).wn (r1 .cueChTime n) (r.w64 8)).sf (r1 .cueChPeriod n) F.cueChPeriod.PERIOD (r.fld 16 0 40)
    if r.cueCfg F.cueChCfg.ARM = 1 then
      (let d2 := d1.armCue now n
       if d2.firesAtOnce now n then d2.cueFired now now n else d2)
    else d1

/-- The checks of cueSet, in the order of R352. -/
def Dev.cueSetCheck (d : Dev) (r : Req) : Option Fail :=
  let n (r : Req) : Nat := r.fld 0 0 6
  firstFail [d.versionFail r, d.permFail r, d.ownedFail 9 (n r), r.cuePin.bind (d.ownedFail 1 ·),
    d.front r 0 24 [(0, 6, 26), (4, 21, 11), (16, 40, 24)],
    needCfg (d.fixedChannel (n r) || r.cueCfg F.cueChCfg.PERIODIC == 0 || d.periodSuits (r.cueCfg F.cueChCfg.TRIG) (r.fld 16 0 40)) 16,
    needCfg (!d.fixedChannel (n r) || d.owner 9 (n r) != some (.ctx r.ctx) || d.pinOnly r (n r)) 4,
    d.heldFail r.ctx 9 (n r), r.cuePin.bind (d.heldFail r.ctx 1 ·)]

/-- CUE_SET (R49, R365, R367). -/
def Dev.cueSet (d : Dev) (now m seq : Nat) : Dev :=
  let n (r : Req) : Nat := r.fld 0 0 6
  d.command now m seq 0x0701 (fun _ => true) d.cueSetCheck
    fun r => ((d.setChannel now (n r) r).feedCaptures).finish now r .ok 0 []

/-- CUE_SET (R49). -/
def execCueSet (t m seq : Nat) (s : State) : Host.Outcome State Fault Refusal := s.run t fun now d => d.cueSet now m seq

/-- The CAP_IN pin that a CAPTURE_SET selects. -/
def Req.capPin (r : Req) : Option Nat :=
  let src := bits (r.w32 4) F.capChCfg.SRC.lo F.capChCfg.SRC.w
  if (r.w32 4).testBit 0 ∧ src < 16 then some src else none

/-- The checks of captureSet, in the order of R352. -/
def Dev.captureSetCheck (d : Dev) (r : Req) : Option Fail :=
  let n (r : Req) : Nat := r.fld 0 0 5
  firstFail [d.versionFail r, d.permFail r, d.ownedFail 10 (n r), r.capPin.bind (d.ownedFail 2 ·),
    d.front r 0 8 [(0, 5, 27), (4, 1, 4), (4, 21, 11)], d.heldFail r.ctx 10 (n r), r.capPin.bind (d.heldFail r.ctx 2 ·)]

/-- CAPTURE_SET (R51, R365). -/
def Dev.captureSet (d : Dev) (now m seq : Nat) : Dev :=
  let n (r : Req) : Nat := r.fld 0 0 5
  d.command now m seq 0x0702 (fun _ => true) d.captureSetCheck
    fun r =>
      let old := d.rn (r1 .capChCfg (n r))
      (d.wn (r1 .capChCfg (n r)) ((old - old % 2 ^ 21) + r.w32 4 % 2 ^ 21)).finish now r .ok 0 []

/-- CAPTURE_SET (R51). -/
def execCaptureSet (t m seq : Nat) (s : State) : Host.Outcome State Fault Refusal := s.run t fun now d => d.captureSet now m seq

/-- The mask of a field, and of some fields. -/
def fldMask (x : Fld) : Nat := (2 ^ x.w - 1) * 2 ^ x.lo
def fldMasks (xs : List Fld) : Nat := (xs.map fldMask).sum

/-- A row of the settable registers (R364): indices, settable bits, the group-mask bit it needs, whether it is written at once. -/
structure SetRow where
  count : Nat
  mask : Nat
  bit : Nat
  atOnce : Bool

/-- The settable registers (R364). -/
def setRow (code : Nat) : Option SetRow :=
  match code with
  | 0x0001 => some ⟨1, fldMasks [F.timeCtrl.HOLDOVER_MS, F.timeCtrl.JUMP_ARM, F.timeCtrl.SERVO_EN], 15, true⟩
  | 0x0002 => some ⟨1, 2 ^ 32 - 1, 15, true⟩
  | 0x0003 => some ⟨1, 2 ^ 32 - 1, 15, true⟩
  | 0x0004 => some ⟨1, 2 ^ 64 - 1, 15, true⟩
  | 0x0010 => some ⟨4, fldMasks [F.ethPortCfg.EXPRESS, F.ethPortCfg.ROLE, F.ethPortCfg.ADDFRAG, F.ethPortCfg.PREEMPT_EN, F.ethPortCfg.GCL_EN, F.ethPortCfg.SWAP, F.ethPortCfg.NENT, F.ethPortCfg.EN], 15, false⟩
  | 0x0011 => some ⟨1024, 2 ^ 32 - 1, 15, true⟩
  | 0x0012 => some ⟨1, 2 ^ 16 - 1, 15, false⟩
  | 0x0020 => some ⟨8, fldMasks [F.leEngCfg.EN, F.leEngCfg.PORT, F.leEngCfg.VSRC, F.leEngCfg.TX_OFF, F.leEngCfg.REF_MAX_AGE], 15, false⟩
  | 0x0021 => some ⟨1, 2 ^ 32 - 1, 15, false⟩
  | 0x0022 => some ⟨64, fldMasks [F.leJoint.EN, F.leJoint.PORT, F.leJoint.JOINT], 15, true⟩
  | 0x0030 => some ⟨1, fldMasks [F.ssCfg.DYN, F.ssCfg.DISC_MS, F.ssCfg.TP_US], 15, true⟩
  | 0x0040 => some ⟨1, fldMasks [F.kvCtrl.WMARK, F.kvCtrl.EN], 4, false⟩
  | 0x0050 => some ⟨1, fldMasks [F.planCtrl.SWEEPS_MAX, F.planCtrl.BLOCK, F.planCtrl.EN], 9, false⟩
  | 0x0060 => some ⟨1, fldMasks [F.pbuCtrl.WDOG_MS, F.pbuCtrl.SLICE, F.pbuCtrl.EN], 15, false⟩
  | _ => none

/-- The register that a row and index name; an entry of the inactive bank for row 0x0011 (R391). -/
def Dev.setReg (d : Dev) (code index : Nat) : Option Reg :=
  if code = 0x0011 then some (r2 .ethPortGcl (index / 256) (256 * (1 - d.f (r1 .ethPortCfg (index / 256)) F.ethPortCfg.BANK) + index % 256)) else settingReg code index

/-- The value of a row's register before the command. -/
def Dev.setOld (d : Dev) (code index : Nat) : Nat := if code = 0x0012 then d.stew.ptpPrio else (d.setReg code index).elim 0 d.rn

/-- The value that a CONFIG_SET forms (R364); INTEG is clamped as R33 says. -/
def Dev.setNew (d : Dev) (code index mask v : Nat) : Nat :=
  let x := mergeBits (d.setOld code index) mask v
  if code = 0x0004 then wrapInt 64 (clampInteg (sext 64 x)) else x

/-- A field of a value. -/
def fieldOf (v : Nat) (x : Fld) : Nat := bits v x.lo x.w

/-- Whether every new field value is in its range (R364). -/
def setRange (code v : Nat) : Bool :=
  match code with
  | 0x0001 => fieldOf v F.timeCtrl.HOLDOVER_MS != 0
  | 0x0020 => decide (fieldOf v F.leEngCfg.VSRC < 2)
  | 0x0021 => ffinite v && flt 0 v
  | 0x0030 => fieldOf v F.ssCfg.DISC_MS != 0
  | 0x0040 => decide (fieldOf v F.kvCtrl.WMARK ≤ 1000)
  | 0x0050 => fieldOf v F.planCtrl.SWEEPS_MAX != 0
  | 0x0060 => fieldOf v F.pbuCtrl.WDOG_MS != 0
  | _ => true

/-- Whether an armed law sends on a port (R364). -/
def Dev.lawsSendOn (d : Dev) (p : Nat) : Bool := (List.range 8).any fun n => (d.eng n).armed != [] && d.f (r1 .leEngCfg n) F.leEngCfg.PORT == p

/-- Whether an armed law reads or commands a joint (R364). -/
def Dev.lawsUse (d : Dev) (j : Nat) : Bool :=
  (List.range 8).any fun n => (d.eng n).armed.any fun a =>
    let ds := ((d.eng n).desc a.slot).getD []
    (lawJoints ds).contains j || (List.range (lawNu ds)).any fun i => readsMeas (lawInKind ds i) && lawInJ ds i == j

/-- Whether a row's condition allows the change from old to new (R364). -/
def Dev.setAllowed (d : Dev) (now code i old new : Nat) : Bool :=
  let same (x : Fld) : Bool := fieldOf old x == fieldOf new x
  match code with
  | 0x0001 => same F.timeCtrl.JUMP_ARM || d.fb (r0 .timeStatus) F.timeStatus.UNSYNCED
  | 0x0004 => !d.fb (r0 .timeCtrl) F.timeCtrl.SERVO_EN
  | 0x0010 => !(i == 0 && d.earlyRuns) && (!d.lawsSendOn i || (same F.ethPortCfg.EN && same F.ethPortCfg.ROLE && same F.ethPortCfg.GCL_EN && same F.ethPortCfg.EXPRESS))
  | 0x0020 => (d.eng i).armed == [] || (same F.leEngCfg.EN && same F.leEngCfg.PORT && same F.leEngCfg.VSRC &&
      readyBy (fieldOf new F.leEngCfg.TX_OFF) (d.lawLoads i (d.nextPeriod now) (d.eng i).armed []))
  | 0x0022 => !d.lawsUse i
  | 0x0040 => fieldOf new F.kvCtrl.EN == 1 || d.kv.seqs == []
  | 0x0050 => fieldOf new F.planCtrl.EN == 1 || d.planRep.isNone
  | 0x0060 => fieldOf new F.pbuCtrl.EN == 1 || !(d.fab.ctxs.any fun e => decide (e.2.cls < 2) && d.ctxState e.1 != 0)
  | _ => true

/-- The bits of a setting that are written at once: EN and ROLE of a port, all of a row written at once (R364). -/
def nowMask (code mask : Nat) (w : SetRow) : Nat := if w.atOnce then mask else if code = 0x0010 then mask &&& fldMasks [F.ethPortCfg.EN, F.ethPortCfg.ROLE] else 0

/-- The checks of configSet, in the order of R352. -/
def Dev.configSetCheck (d : Dev) (now m : Nat) (r : Req) : Option Fail :=
  let code (r : Req) : Nat := r.fld 0 0 16
  let index (r : Req) : Nat := r.fld 4 0 16
  let row (r : Req) : Option SetRow := setRow (code r)
  let new (r : Req) : Nat := d.setNew (code r) (index r) (r.w64 8) (r.w64 16)
  let old (r : Req) : Nat := d.setOld (code r) (index r)
  firstFail [d.versionFail r, d.permFail r, need ((row r).elim true fun w => (d.groups m).testBit w.bit) .denied 0,
    d.front r 0 24 [(0, 16, 16), (4, 16, 16)], needCfg (row r).isSome 0, needCfg ((row r).elim false fun w => decide (index r < w.count)) 4,
    needCfg ((row r).elim false fun w => r.w64 8 &&& w.mask == r.w64 8) 8,
    if new r = old r then none else firstFail [needCfg (setRange (code r) (new r)) 16, needCfg (d.setAllowed now (code r) (index r) (old r) (new r)) 16]]

/-- CONFIG_SET (R364). -/
def Dev.configSet (d : Dev) (now m seq : Nat) : Dev :=
  let code (r : Req) : Nat := r.fld 0 0 16
  let index (r : Req) : Nat := r.fld 4 0 16
  let row (r : Req) : Option SetRow := setRow (code r)
  let new (r : Req) : Nat := d.setNew (code r) (index r) (r.w64 8) (r.w64 16)
  let old (r : Req) : Nat := d.setOld (code r) (index r)
  d.command now m seq 0x0603 (fun _ => true) (d.configSetCheck now m)
    fun r =>
      match row r with
      | none => d
      | some w =>
        if new r = old r then d.finish now r .ok 0 []
        else
          let at_ := nowMask (code r) (r.w64 8) w
          let v := if w.atOnce then new r else mergeBits (old r) at_ (new r)
          let d1 := if at_ = 0 ∧ w.atOnce = false then d else match d.setReg (code r) (index r) with
            | some g => if code r = 0x0001 then d.writeTimeCtrl now v else d.wn g v
            | none => d
          let rest := r.w64 8 - (r.w64 8 &&& at_)
          if rest = 0 then d1.finish now r .ok 0 []
          else { d1.decide' r with stew := { (d1.decide' r).stew with settings := (d1.decide' r).stew.settings ++ [⟨code r, index r, rest, r.w64 16, m, seq⟩] } }

/-- CONFIG_SET (R364). -/
def execConfigSet (t m seq : Nat) (s : State) : Host.Outcome State Fault Refusal := s.run t fun now d => d.configSet now m seq

end Sys2Proof.Machine
end

