-- ==== Sys2Proof/Machine/BudgetCmd.lean ====
section
/-! DEFINITION. BUDGET_SET, MODE_SET and PROFILE_SET (R71, R77, R78, R81, R86, R88 to R90, R102 to R104, R273, R360). -/

namespace Sys2Proof.Machine

/-- Fields of BUDGET_SET (R360). -/
def Req.bsClass (r : Req) : Nat := r.fld 0 0 4
def Req.bsGroup (r : Req) : Nat := r.fld 0 4 2
def Req.bsCrit (r : Req) : Bool := r.fld 0 6 1 == 1
def Req.bsDonorEn (r : Req) : Bool := r.fld 0 7 1 == 1
def Req.bsDonor (r : Req) : Nat := r.fld 0 8 4
def Req.bsBudget (r : Req) (k : Nat) : Nat := r.w64 (8 + 8 * k)
def Req.bsCal (r : Req) : Nat := r.w32 72
def Req.bsPeriods (r : Req) : Nat := r.w32 76

/-- Whether the envelope rule accepts a KIND 0 record for a class now (R103). -/
def Dev.budgetAccepted (d : Dev) (c : Nat) (crit : Bool) (rec_ : List Byte) : Bool :=
  let b := bytesAt rec_ 16 1
  let x := bytesAt rec_ 17 1
  bits b 6 2 == 0 && bits b 4 2 == 0 && bits b 0 2 == 2 && decide (bits b 2 2 < 3) && bits x 4 4 == c && crit &&
    (bits b 2 2 != d.envelope || decide (d.hotBand ≤ bits x 2 2))

/-- The record as the steward keeps it (R103). -/
def calRecOf (rec_ : List Byte) : CalRec :=
  { tband := bits (bytesAt rec_ 17 1) 2 2, margin := bytesAt rec_ 18 2, worst := (List.range 8).map fun i => bytesAt rec_ (24 + 8 * i) 8 }

/-- The reserved fields of a KIND 0 record (R102). -/
def calRsvd (rec_ : List Byte) : Option Fail :=
  firstFail [objFail (bits (bytesAt rec_ 17 1) 0 2 == 0) .badReserved 17, objFail (bytesAt rec_ 88 8 == 0) .badReserved 88]

/-- The class settings of a BUDGET_SET, its fixed budgets and absolute budgets in the shadow bank (R88 to R90). -/
def Dev.setBudget (d : Dev) (r : Req) : Dev :=
  let c := r.bsClass
  let g := r1 .pbuClassCfg c
  let d1 := (((d.sf g F.pbuClassCfg.PRIO (r.fld 0 12 4)).sf g F.pbuClassCfg.DONOR r.bsDonor).sf g F.pbuClassCfg.DONOR_EN (b2n r.bsDonorEn)).sf g F.pbuClassCfg.CRIT (b2n r.bsCrit)
  let d2 := (d1.sf g F.pbuClassCfg.GROUP r.bsGroup).sf g F.pbuClassCfg.WEIGHT (r.fld 0 16 16)
  let fixed := (List.range 4).foldl (fun (t : Tbl Nat) k => if r.bsGroup = 2 then tset t (c * 8 + k) (r.bsBudget k) else tdel t (c * 8 + k)) d2.pbu.fixed
  (List.range 4).foldl (fun (d : Dev) k => d.wn (r2 .pbuClassShadow c (4 + k)) (r.bsBudget (4 + k))) { d2 with pbu := { d2.pbu with fixed := fixed } }

/-- An absolute budget that counts for the limit of R89: the reset value, all ones, is no budget that a BUDGET_SET gave (log entry 12). -/
def Dev.givenBudget (d : Dev) (shadow : Bool) (c k : Nat) : Nat :=
  let v := if shadow then d.rn (r2 .pbuClassShadow c k) else d.budget c k
  if v = dtMax then 0 else v

/-- Whether a class is armed: a cascade of it runs at every period start (R102, R362). -/
def Dev.classArmed (d : Dev) (c : Nat) : Bool := d.fab.cascades.any fun e => e.2.armed && d.ctxClass e.2.ctx == c

/-- Whether the budgets of all regions fit under the mode and length in force (R77, R88), and with the class's ceiling budget as its floor
(R104). -/
def Dev.budgetsFit (d : Dev) (c : Nat) : Bool :=
  let ceil : Dev := { d with pbu := { d.pbu with cal := tdel d.pbu.cal (c * 4 + d.envelope) } }
  (d.allBudgets (.inForce false) false d.envelope d.profile d.periodLen).isSome && (ceil.allBudgets .asNow false d.envelope d.profile d.periodLen).isSome

/-- The calibration record that CAL names. -/
def Dev.calBytes (d : Dev) (r : Req) : List Byte :=
  match d.pinned1 r.bsCal with
  | some (_, l) => d.locBytes l 0 96
  | none => []

/-- The checks of BUDGET_SET (R86, R88 to R90, R102, R104). -/
def Dev.budgetFail (d : Dev) (r : Req) : Option Fail :=
  let c := r.bsClass
  let uses := r.flag 0 || r.flag 1
  let e := d.setBudget r
  firstFail
    [d.front r 3 80 [(4, 0, 32)], if r.flag 1 ∧ (d.pinned1 r.bsCal).isSome then calRsvd (d.calBytes r) else none,
     need (!(r.flag 0 && r.flag 1)) .badConfig 9, needCfg (r.bsGroup != 3) 0,
     needCfg (!r.bsDonorEn || (if r.bsDonor = c then !r.bsCrit else !d.crit r.bsDonor)) 1,
     needCfg (!r.bsCrit || (List.range 16).all fun x => x == c || !d.fb (r1 .pbuClassCfg x) F.pbuClassCfg.DONOR_EN || d.donor x != c) 0,
     firstFail ((List.range 4).map fun k => needCfg (r.bsGroup == 2 || r.bsBudget k == 0) (8 + 8 * k)),
     if uses then firstFail [d.needPinned r.bsCal 72, needCfg (match d.pinned1 r.bsCal with
       | some (o, _) => decide (96 ≤ o.size)
       | none => false) 72] else none,
     needCfg (!r.flag 0 || (decide (1 ≤ r.bsPeriods) && decide (r.bsPeriods ≤ 65535))) 76,
     needCfg (e.budgetsFit c) 8, needCfg (halfLimit (fun c' k => if c' = c then r.bsBudget k else d.givenBudget true c' k) d.periodLen) 40,
     need (d.pbu.pend.isNone && (!r.flag 0 || (d.pbu.calRun.isNone && !d.classArmed c))) .busy 0]

/-- BUDGET_SET (R88 to R90, R102 to R104): a refused record leaves the conservative default in force. -/
def Dev.budgetSet (d : Dev) (now m seq : Nat) : Dev :=
  d.command now m seq 0x0501 (fun _ => true) d.budgetFail
    fun r =>
      let c := r.bsClass
      let rec_ := d.calBytes r
      let ok := d.budgetAccepted c r.bsCrit rec_
      let d1 := d.setBudget r
      let cal := if r.flag 1 then (if ok then tset d1.pbu.cal (c * 4 + bits (bytesAt rec_ 16 1) 2 2) (calRecOf rec_) else tdel d1.pbu.cal (c * 4 + d.envelope)) else d1.pbu.cal
      let d2 : Dev := { d1 with pbu := { d1.pbu with cal := cal } }
      let d2' := (d2.reshadow (.inForce false) false d.envelope d.profile d.periodLen).sf (r0 .pbuCtrl) F.pbuCtrl.SWAP 1
      let d3 := ({ d2' with pbu := { d2'.pbu with swapSet := true } }).watchFloors now
      if r.flag 0 then
        (let x : CalRun := { mbx := m, seq := seq, cls := c, object := r.bsCal, periodsLeft := r.bsPeriods, periods := r.bsPeriods, worst := [], squall := d.rn (r0 .pbuSquallCfg) }
         ({ d3.decide' r with pbu := { (d3.decide' r).pbu with calRun := some x } }).setSquall now (2 ^ 31 + 100 * 2 ^ 24 + 100 * 2 ^ 16 + 100 * 2 ^ 8))
      else d3.finish now r (if r.flag 1 && !ok then .calEnvelope else .ok) 0 []

/-- BUDGET_SET (R88): the request SEQ seq of mailbox m. -/
def execBudgetSet (t m seq : Nat) (s : State) : Host.Outcome State Fault Refusal := s.run t fun now d => d.budgetSet now m seq

/-- The change that a MODE_SET asks for (R71, R360). -/
def Req.modePend (r : Req) (now : Nat) : PendMode :=
  { writtenAt := now, envelope := r.fld 0 0 2, profile := r.fld 0 2 2, forced := false, isMode := true, req := some (r.mbx, r.seq), rpl := r.fld 0 4 1 == 1,
    pbuLen := r.w32 4, loops := (List.range 8).map fun n => r.w32 (8 + 4 * n), replan := r.w32 40, camStop := r.fld 44 0 8 }

/-- The load of the cameras that a MODE_SET leaves running (R77, R261). -/
def Dev.camLoadAfter (d : Dev) (stop : Nat) : Nat :=
  let e := (List.range 8).foldl (fun (d : Dev) n => if stop.testBit n then d.sf (r1 .camPortCfg n) F.camPortCfg.EN 0 else d) d
  e.syncCamLoad.rn (r0 .camLoad)

/-- Whether the armed laws of an engine can run at a tick period (R77, R316). -/
def Dev.lawsFit (d : Dev) (n tick : Nat) : Bool := d.isEarly n || (d.eng n).armed.all fun a => ((d.eng n).lawAt tick a).isSome

/-- The rates that a MODE_SET leaves against the new envelope's ceilings and the minimums of their targets (R49, R77, R81, R270, R273,
R310, R315). -/
def Dev.modeRates (d : Dev) (p : PendMode) : Option Fail :=
  let len := d.newLen p
  let loop (n : Nat) : Option Nat := (d.tickChannel n).bind fun c => d.newPeriod p c
  firstFail ([needCfg (!p.rpl || (decide (50000 ≤ p.pbuLen) && decide (p.pbuLen ≤ 10000000))) 4,
      needCfg (!d.bodyArmed || decide (bodyMin p.envelope ≤ len)) 4,
      needCfg (match d.chanFor 2 with
        | some _ => decide (250000 ≤ len) && d.estPeriodOk len
        | none => true) 4,
      needCfg (halfLimit (d.givenBudget false) len) 4] ++
    (List.range 8).map (fun n => match loop n with
      | some x => needCfg (decide (loopMin p.envelope ≤ x) && d.lawsFit n x && (d.isEarly n || (d.eng n).armed == [] || len % x == 0)) (8 + 4 * n)
      | none => none) ++
    [needCfg (match d.chanFor 0x17 with
      | some c => decide (replanMin p.envelope ≤ (d.newPeriod p c).getD (d.chanPeriod c))
      | none => true) 40,
     needCfg ((List.range 4).all fun q => match d.chanFor (0x13 + q) with
      | some c => decide (64 ≤ (d.newPeriod p c).getD 64)
      | none => true) 4,
     needCfg (decide (d.camLoadAfter p.camStop ≤ camLimitOf p.envelope)) 44,
     needCfg (d.allBudgets .asNow false p.envelope p.profile len).isSome 0])

/-- The checks of modeSet, in the order of R352. -/
def Dev.modeSetCheck (d : Dev) (now : Nat) (r : Req) : Option Fail :=
  let p := r.modePend now
  firstFail ([d.front r 0 48 [(0, 5, 27), (44, 8, 24)], needCfg (p.envelope != 3 && p.profile != 3) 0] ++
    (List.range 10).map (fun i => needCfg (p.rpl || r.w32 (4 + 4 * i) == 0) (4 + 4 * i)) ++ [d.modeRates p])

/-- MODE_SET (R71, R77, R78, R90). -/
def Dev.modeSet (d : Dev) (now m seq : Nat) : Dev :=
  d.command now m seq 0x0502 (fun _ => true) (d.modeSetCheck now)
    fun r => (d.decide' r).setPend now (r.modePend now) (overtaker m seq)

/-- MODE_SET (R71). -/
def execModeSet (t m seq : Nat) (s : State) : Host.Outcome State Fault Refusal := s.run t fun now d => d.modeSet now m seq

/-- The change that a PROFILE_SET asks for (R69, R71). -/
def Dev.profilePend (d : Dev) (r : Req) (now : Nat) : PendMode :=
  { writtenAt := now, envelope := d.envelope, profile := r.fld 0 0 2, forced := false, isMode := false, req := some (r.mbx, r.seq), rpl := false, pbuLen := 0, loops := [],
    replan := 0, camStop := 0 }

/-- The checks of profileSet, in the order of R352. -/
def Dev.profileSetCheck (d : Dev) (r : Req) : Option Fail :=
  firstFail [d.front r 0 4 [(0, 2, 30)], needCfg (r.fld 0 0 2 != 3) 0, needCfg (d.allBudgets .asNow false d.envelope (r.fld 0 0 2) d.periodLen).isSome 0]

/-- PROFILE_SET (R69, R71, R77, R88). -/
def Dev.profileSet (d : Dev) (now m seq : Nat) : Dev :=
  d.command now m seq 0x0503 (fun _ => true) d.profileSetCheck
    fun r => (d.decide' r).setPend now (d.profilePend r now) (overtaker m seq)

/-- PROFILE_SET (R69). -/
def execProfileSet (t m seq : Nat) (s : State) : Host.Outcome State Fault Refusal := s.run t fun now d => d.profileSet now m seq

end Sys2Proof.Machine
end

