-- ==== Sys2Proof/Machine/CamCmd.lean ====
section
/-! DEFINITION. The events of camera ingest as commands (R254 to R260). -/

namespace Sys2Proof.Machine

/-- CAM_STROBE_EDGE (R257, EXP_SRC 1): a rising edge of CAM_STROBE with its stamp. -/
def execCamStrobeEdge (t n stamp : Nat) (s : State) : Host.Outcome State Fault Refusal :=
  s.runFed t fun now d =>
    if n < 8 ∧ d.on (160 + n / 4) ∧ d.fb (r1 .camPortCfg n) F.camPortCfg.EN ∧ d.f (r1 .camPortCfg n) F.camPortCfg.EXP_SRC = 1 then d.exposure now n stamp else d

/-- LINE_RECEIVE (R254): a long packet of port n with its data type, virtual channel, header stamp, fault and pixels. -/
def execLineReceive (t n dtype vc stamp fault : Nat) (px : List Nat) (s : State) : Host.Outcome State Fault Refusal :=
  s.runFed t fun now d =>
    let c := r1 .camPortCfg n
    if n < 8 ∧ d.on (160 + n / 4) ∧ dtype = d.f c F.camPortCfg.DTYPE ∧ vc = d.f c F.camPortCfg.VC then d.camLine now n stamp fault px else d

/-- FRAME_END (R256). -/
def execFrameEnd (t n : Nat) (s : State) : Host.Outcome State Fault Refusal :=
  s.runFed t fun now d => if n < 8 ∧ d.on (160 + n / 4) then d.camFinish now n else d

/-- FRAME_START (R256). -/
def execFrameStart (t n : Nat) (s : State) : Host.Outcome State Fault Refusal :=
  s.runFed t fun now d => if n < 8 ∧ d.on (160 + n / 4) then d.camStart now n else d

end Sys2Proof.Machine
end

