-- ==== Sys2Proof/Machine/Canal.lean ====
section
/-! DEFINITION. The Canal link's flits and events, and the two-phase commit between modules (R139 to R141, R206, R207, R399 to R406). -/

namespace Sys2Proof.Machine

/-- A received flit's type and body. -/
def flitOf (f : FlitIn) (type : Nat) (body : List Nat) (payload : List Byte) : CnlFlit :=
  { type := type, dst := f.dst, src := f.src, vc := f.vc, body := body, payload := payload }

/-- An order key that a command carries. -/
def keyOf (k : KeyIn) : Key := ⟨k.dt, k.src, k.cnt⟩

/-- A sequenced flit is received, and served where it is for this module; what it makes due goes out or ends. -/
def Dev.cnlServe (d : Dev) (now : Nat) (f : FlitIn) (type : Nat) (body : List Nat) (payload : List Byte) (serve : Dev → Dev) : Dev :=
  (((d.cnlRx now f.port f.seq f.bad (flitOf f type body payload) serve).cnlDrain now).bindsReady now).settleEnds now

/-- The basins that a flit of another module reaches (R134): the one it names, or of the row that 256 + ROUTE names those whose entry has its
producer as peer. -/
def Dev.rowTargets (d : Dev) (src srcBasin srcEntry basin entry : Nat) : List Nat :=
  if basin < 256 then [basin]
  else ((List.range 16).map fun c => basin % 256 / 16 * 16 + c).filter fun l => (d.basin? l).elim false fun b =>
    let e := b.entry entry
    e.kind == 1 && e.remote && e.peerModule == src && e.peer == srcBasin && e.peerEntry == srcEntry

/-- DATA (R134, R139, R141, R404): a mesh flit of a remote FORWARD, from a basin of module f.src to an entry of a basin here or of a row, with the
key of the flit that produced it. -/
def execData (t : Nat) (f : FlitIn) (srcBasin basin entry srcEntry index : Nat) (last : Bool) (key : KeyIn) (data : List Byte) (s : State) :
    Host.Outcome State Fault Refusal :=
  s.run t fun now d => d.cnlServe now f ftData [srcBasin, basin, entry, srcEntry, index, b2n last, key.dt, key.src, key.cnt] (data.take 256) fun d =>
    (d.rowTargets f.src srcBasin srcEntry basin entry).foldl (fun (d : Dev) l => d.landFlit now
      { src := 256 * (f.src + 1) + srcBasin, dst := l, entry := entry, srcEntry := srcEntry, index := index, data := data.take 256, last := last, copies := 1, key := (keyOf key) }) d

/-- Credits of one peer entry that consumers on another module freed (R124, R141). -/
def Dev.remoteCredit (d : Dev) (src basin entry consumer count : Nat) : Dev :=
  { d with fab := { d.fab with credits := d.fab.credits ++ List.replicate (min count 16) ⟨basin, entry, 256 * (src + 1) + consumer⟩ } }

/-- CREDIT (R124, R403): credits of one peer entry for this module, or link credits of the neighbour's receiver by virtual channel. -/
def execCredit (t : Nat) (f : FlitIn) (basin entry consumer count v0 v1 : Nat) (s : State) : Host.Outcome State Fault Refusal :=
  s.run t fun now d => d.cnlServe now f ftCredit [count, basin, entry, consumer, v0, v1] [] fun d =>
    let d1 := d.modCnl f.port fun x =>
      { (x.setCredit 0 (min 64 (x.credits.getD 0 0 + v0))).setCredit 1 (min 64 (x.credits.getD 1 0 + v1)) with stuckAt := if v0 + v1 = 0 then x.stuckAt else none }
    (if count = 0 then d1 else d1.remoteCredit f.src basin entry consumer count).cnlPump now f.port

/-- Whether an access over the Canal link reaches memory here: from offset 0x4_0000_0000 upward, as class 7 (R400, R418). -/
def Dev.canalOk (d : Dev) (latch : Bool) (now a n : Nat) (x : Acc) : Bool := decide (0x400000000 ≤ a) && d.memOk latch now 7 a n x

/-- The answer to a memory request: status 0 or 1 for an access fault, the bytes read. -/
def Dev.memAnswer (d : Dev) (now src tag : Nat) (ok : Bool) (bs : List Byte) : Dev := d.cnlSend now ftMemCpl src 1 [tag, b2n (!ok)] bs

/-- MEM_RD (R400 to R402): 64 B to 4 KiB of this module's memory for another module. -/
def execMemRd (t : Nat) (f : FlitIn) (tag addr len : Nat) (s : State) : Host.Outcome State Fault Refusal :=
  s.run t fun now d => d.cnlServe now f ftMemRd [tag, addr, len] [] fun d =>
    if d.canalOk s.latchClosed now addr len .read then
      (if d.farHolds addr len then { d.farHold ⟨7, 0, addr, len, [], 0, some (f.src, tag)⟩ with bus := d.bus }
       else d.memAnswer now f.src tag true (d.memBytes addr len))
    else { (d.faulted s.latchClosed now 7 addr len .read).memAnswer now f.src tag false [] with bus := d.bus }

/-- MEM_WR (R400 to R402): bytes another module writes to this module's memory. -/
def execMemWr (t : Nat) (f : FlitIn) (tag addr : Nat) (data : List Byte) (s : State) : Host.Outcome State Fault Refusal :=
  s.run t fun now d => d.cnlServe now f ftMemWr [tag, addr] data fun d =>
    if d.canalOk s.latchClosed now addr data.length .write then
      (if d.farHolds addr data.length then { d.farHold ⟨7, 1, addr, data.length, data, 0, some (f.src, tag)⟩ with bus := d.bus }
       else (d.memWrite addr data).memAnswer now f.src tag true [])
    else { (d.faulted s.latchClosed now 7 addr data.length .write).memAnswer now f.src tag false [] with bus := d.bus }

/-- MEM_CPL (R402): the answer to an open memory request of this module. -/
def execMemCpl (t : Nat) (f : FlitIn) (tag status : Nat) (data : List Byte) (s : State) : Host.Outcome State Fault Refusal :=
  s.run t fun now d => d.cnlServe now f ftMemCpl [tag, status] data fun d =>
    match d.cnl.reads.find? fun x => x.tag == tag && x.dst == f.src with
    | some x =>
      ({ d with cnl := { d.cnl with reads := d.cnl.reads.erase x },
                bus := if status ≠ 0 then .accessFault else if x.n = 0 then .ok else .bytes data }).answered now x.cls x.n
    | none => d

/-- Flits of a replay buffer after an acknowledgement of a sequence. -/
def CnlPort.acked (x : CnlPort) (seq : Nat) : List (Nat × CnlFlit) :=
  if x.replay.any fun e => e.1 == seq then (x.replay.dropWhile fun e => e.1 != seq).drop 1 else x.replay

/-- ACK (R403): everything up to a sequence has been received in order. -/
def execAck (t port seq : Nat) (s : State) : Host.Outcome State Fault Refusal :=
  s.run t fun now d => if d.portUp port then
      (d.modCnl port fun x => { x with replay := x.acked seq, failures := if (x.acked seq).length < x.replay.length then 0 else x.failures, replaying := x.replaying && (x.acked seq).length == x.replay.length }).cnlPump now port
    else d

/-- NAK (R403): the port sends the flits from a sequence on again; one that answers a replay says that the replay failed. -/
def execNak (t port seq : Nat) (s : State) : Host.Outcome State Fault Refusal :=
  s.run t fun now d => if d.portUp port ∧ ((d.cnlPort port).replay.any fun e => e.1 == seq) then
      ((d.modCnl port fun x => { x with replay := x.replay.dropWhile fun e => e.1 != seq, failures := x.failures + b2n x.replaying, replaying := true }).incSat
        (r1 .cnlPortStat port) F.cnlPortStat.REPLAYS).cnlPump now port
    else d

/-- PTP (R40, R402): a gPTP message over the link, stamped on the fly. -/
def execPtp (t : Nat) (f : FlitIn) (data : List Byte) (s : State) : Host.Outcome State Fault Refusal :=
  s.run t fun now d => d.cnlServe now f ftPtp [] data fun d =>
    { d.emit (0x0151 + 2 * f.port) now .sync (d.elastic 2 (6 + f.port)) [now] with cnl := { d.cnl with ptp := d.cnl.ptp ++ [data] } }

/-- This module's part of a split cascade (R139, R405). -/
def Dev.partOf (d : Dev) (id : Nat) : Option (Nat × Cascade) :=
  d.fab.cascades.find? fun e => e.2.split.id == id && decide (1 < e.2.split.parts) && e.2.split.mods.getD e.2.split.part 0 == d.own && e.2.unloading.isNone

/-- The request of a split cascade by its REQ (R207). -/
def Dev.splitReq (d : Dev) (id req : Nat) : Option (Nat × SluReq) :=
  d.slu.reqs.find? fun e => (match e.2.purpose with
    | .list h _ => (d.cascade? h).elim false fun c => c.split.id == id && decide (1 < c.split.parts)
    | _ => false) && e.2.reqId == req && !e.2.committed && !e.2.closed

/-- This module's vote on a request in a commit (R207, R405): its parts have landed, failed, or are under way or not yet queued. -/
def Dev.reqVote (d : Dev) (id req : Nat) : Option Status :=
  (d.splitReq id req).bind fun e => if e.2.hereEnded then some (if e.2.failMask = 0 ∧ e.2.status.isNone then .ok else .partialFail) else none

/-- A participant's vote on a request; with NO its own parts are discarded at once (R205, R405). -/
def Dev.voteReq (d : Dev) (now : Nat) (k : Key) (id req : Nat) : Dev :=
  match d.reqVote id req, d.splitReq id req with
  | some st, some e => if st = .ok then d.castVote now k st else (d.castVote now k st).decideReq now e.1 false 0
  | _, _ => d

/-- A participant prepares its part and votes (R140, R405): a bind is staged, and votes YES once usable; a run needs a bound cascade; a
request votes once its parts have ended. -/
def Dev.prepare (d : Dev) (now : Nat) (p : TpcPart) : Dev :=
  let d1 := { d with cnl := { d.cnl with parts := d.cnl.parts ++ [p] } }
  if p.kind = 3 then d1.voteReq now p.id p.subject p.arg
  else match d1.partOf p.subject with
  | none => d1.castVote now p.id .badConfig
  | some (h, c) =>
    if p.kind = 0 then
      (match d1.bindCfg c with
       | some f => d1.castVote now p.id f.1
       | none =>
         if c.bound then d1.castVote now p.id .ok
         else match d1.stageBind now h c.pin with
           | some d2 => d2.bindsReady now
           | none => d1.castVote now p.id .busy)
    else if p.kind = 1 then d1.castVote now p.id (if c.bound then (if c.run.isSome then .busy else .ok) else .badConfig)
    else d1.castVote now p.id .ok

/-- PREPARE (R405): kind 0 bind, 1 run, 2 unload, 3 request; subject is the split id, arg a run's iterations. -/
def execPrepare (t : Nat) (f : FlitIn) (key : KeyIn) (kind subject arg : Nat) (s : State) : Host.Outcome State Fault Refusal :=
  s.run t fun now d => d.cnlServe now f ftPrepare (tpcBody (keyOf key) kind subject arg 0) [] fun d =>
    if d.cnl.parts.any fun p => p.id == (keyOf key) then d
    else d.prepare now { id := (keyOf key), coord := f.src, kind := kind, subject := subject, arg := arg }

/-- A vote's wait expired (R405): the part counts as a NO. -/
def Dev.voteExpired (d : Dev) (now tx m : Nat) : Dev :=
  match d.cnl.coords.find? fun x => txOf x.id == tx && x.outcome.isNone with
  | some x => d.tpcVote now x.id m Status.expired.code
  | none => d

/-- VOTE (R405): a participant's vote with the DT at which it was cast, decided against the vote deadline under R46 to R48; an on-time one that
comes after the wait expired is LATE_ACCEPTED (R404). -/
def execVote (t : Nat) (f : FlitIn) (key : KeyIn) (status castAt : Nat) (s : State) : Host.Outcome State Fault Refusal :=
  s.run t fun now d => d.cnlServe now f ftVote (tpcBody (keyOf key) 0 0 status castAt) [] fun d =>
    match d.waitAny (.vote (txOf (keyOf key)) f.src) with
    | some w =>
      let k := d.foreignKey castAt (f.src * 0x4000 + 0x0150)
      let e := k.2.expire now w.1
      let p := e.2.arrive now w.1 k.1
      if e.1 then p.2.voteExpired now (txOf (keyOf key)) f.src
      else if p.1 = .arrived then p.2.tpcVote now (keyOf key) f.src status
      else if w.2.outcome = some false then p.2.dropWait (.vote (txOf (keyOf key)) f.src)
      else p.2
    | none => d

/-- A participant applies an outcome (R207, R405): a bind comes into force or is given up, a run starts, an unloading begins, a request's staging goes
live or is discarded; then DONE. -/
def Dev.applyPart (d : Dev) (now : Nat) (p : TpcPart) (ok : Bool) : Dev :=
  if p.kind = 3 then ((d.splitReq p.subject p.arg).elim d fun e => d.decideReq now e.1 ok 0).tpcSendDone now p.id
  else match d.partOf p.subject with
  | none => d.tpcSendDone now p.id
  | some (h, _) =>
    match p.kind, ok with
    | 0, true => (d.completeBind now h).tpcSendDone now p.id
    | 0, false => (d.unstage now h).tpcSendDone now p.id
    | 1, true => (d.startRun now h p.arg noCmd).tpcSendDone now p.id
    | 2, true =>
      ({ d with cnl := { d.cnl with parts := d.cnl.parts.map fun (q : TpcPart) => if q.id = p.id then { q with decided := true } else q } }).startUnload now h noCmd 0
    | _, _ => d.tpcSendDone now p.id

/-- DECIDE (R405, R406): the outcome of a commit reaches a participant. -/
def execDecide (t : Nat) (f : FlitIn) (key : KeyIn) (commit : Bool) (s : State) : Host.Outcome State Fault Refusal :=
  s.run t fun now d => d.cnlServe now f ftDecide (tpcBody (keyOf key) 0 0 (b2n commit) 0) [] fun d =>
    match d.cnl.parts.find? fun p => p.id == (keyOf key) && !p.decided with
    | some p => ({ d with cnl := { d.cnl with outcomes := (p.id, commit, now) :: d.cnl.outcomes } }).applyPart now p commit
    | none => d

/-- QUERY (R406): a module that knows the outcome, kept for 1 s, answers with DECIDE. -/
def execQuery (t : Nat) (f : FlitIn) (key : KeyIn) (s : State) : Host.Outcome State Fault Refusal :=
  s.run t fun now d => d.cnlServe now f ftQuery (tpcBody (keyOf key) 0 0 0 0) [] fun d =>
    match d.cnl.outcomes.find? fun o => o.1 == (keyOf key) && decide (now ≤ o.2.2 + 1000000000) with
    | some o => d.cnlSend now ftDecide f.src 0 (tpcBody (keyOf key) 0 0 (b2n o.2.1) 0) []
    | none => d

/-- DONE (R405): a participant has applied the outcome; the command completes with the last one. -/
def execDone (t : Nat) (f : FlitIn) (key : KeyIn) (s : State) : Host.Outcome State Fault Refusal :=
  s.run t fun now d => d.cnlServe now f ftDone (tpcBody (keyOf key) 0 0 0 0) [] fun d =>
    ({ d with cnl := { d.cnl with coords := d.cnl.coords.map fun (x : TpcCoord) =>
        if x.id = (keyOf key) ∧ x.outcome.isSome ∧ !(x.done.contains f.src) then { x with done := f.src :: x.done } else x } }).tpcFinish now

/-- A participant that voted YES and has had no DECIDE asks the coordinator and every other module; after three rounds 10 ms apart it aborts
its part (R406). -/
def Dev.decideTimeout (d : Dev) (now : Nat) (k : Key) : Dev :=
  match d.cnl.parts.find? fun p => p.id == k && p.vote.isSome && !p.decided with
  | none => d
  | some p =>
    if d.elapsed p.askedAt now < 10000000 then d
    else if p.rounds < 3 then
      (let d1 := { d with cnl := { d.cnl with parts := d.cnl.parts.map fun (q : TpcPart) => if q.id = k then { q with rounds := q.rounds + 1, askedAt := now } else q } }
       ((List.range d1.cnl.ring).filter (· != d1.own)).foldl (fun (d : Dev) m => d.cnlSend now ftQuery m 0 (tpcBody k p.kind p.subject 0 0) []) d1)
    else
      let d1 := if p.kind = 0 then (d.partOf p.subject).elim d fun e => d.unstage now e.1
        else if p.kind = 3 then (d.splitReq p.subject p.arg).elim d fun e => d.decideReq now e.1 false 0 else d
      { d1 with cnl := { d1.cnl with parts := d1.cnl.parts.filter fun q => q.id != k } }

/-- DECIDE_TIMEOUT (R406): 10 ms since the vote, or since the last query. -/
def execDecideTimeout (t : Nat) (key : KeyIn) (s : State) : Host.Outcome State Fault Refusal :=
  s.run t fun now d => (d.decideTimeout now (keyOf key)).settleEnds now

/-- The split cascade of a request of which other modules hold parts (R207). -/
def Dev.splitOf (d : Dev) (x : SluReq) : Option Cascade :=
  match x.purpose with
  | .list h _ => (d.cascade? h).bind fun c => if 1 < c.split.parts ∧ x.parts.length < x.nparts ∧ x.committed = false then some c else none
  | _ => none

/-- What a request whose parts lie on several modules does once its parts here have ended (R207, R405): a participant votes; the module that
holds part 0 of the request coordinates, and counts its own parts with its vote (DEDUCED, log entry 42). -/
def Dev.splitStep (d : Dev) (now r : Nat) : Dev :=
  match tget d.slu.reqs r with
  | none => d
  | some x => match d.splitOf x with
    | none => d
    | some c =>
      if x.hereEnded = false then d
      else match d.cnl.parts.find? fun p => p.kind == 3 && p.subject == c.split.id && p.arg == x.reqId && p.vote.isNone with
      | some p => d.voteReq now p.id c.split.id x.reqId
      | none =>
        if (x.parts.any fun p => p.index == 0) && !(d.cnl.coords.any fun y => y.id == x.key) then
          (match x.purpose with
           | .list h _ => (d.tpcStart now x.key none 3 h x.reqId c).tpcVote now x.key d.own (if x.failMask = 0 ∧ x.status.isNone then 0 else Status.partialFail.code)
           | _ => d)
        else d

/-- MOVE_COMMIT (R203, R207, R232): every part of a staged request has succeeded, or those here of one split over modules. -/
def execMoveCommit (t r : Nat) (s : State) : Host.Outcome State Fault Refusal :=
  s.run t fun now d => (d.splitStep now r).moveCommit now r

/-- REQUEST_COMPLETE (R195, R207): request r's last part has ended; a commit that waits for it gets its vote. -/
def execRequestComplete (t r : Nat) (s : State) : Host.Outcome State Fault Refusal :=
  s.run t fun now d => ((d.splitStep now r).requestComplete now r).settleEnds now

/-- Modules whose boundary a cascade has: those its remote entries name (R139). -/
def Cascade.boundary (c : Cascade) : List Nat :=
  (c.basins.flatMap fun b => (b.entries.filter fun e => seSlots e != 0 && seRemote e).map sePeerModule).eraseDups

/-- Split cascades with a boundary on the link of a port are torn down (R140, R404). -/
def Dev.tearBoundary (d : Dev) (now p : Nat) : Dev :=
  d.fab.cascades.foldl (fun (d : Dev) e =>
    let on : Bool := (e.2.bound || e.2.staged) && e.2.boundary.any fun m => m != d.own && (if d.hopsVia 0 m ≤ d.hopsVia 1 m then p == 0 else p == 1)
    if on then d.teardown now e.2.ctx .splitPart else d) d

/-- A port goes down (R403, R404): the cascades with a boundary on its link are torn down and their flits lost; open memory requests that went
that way are asked again the other way where the ring has one, and fail for good otherwise; other flits take the other way too. -/
def Dev.portDown (d : Dev) (now p : Nat) : Dev :=
  let x := d.cnlPort p
  let r := r1 .cnlPortStat p
  let d1 := ((d.sf r F.cnlPortStat.UP 0).sf r F.cnlPortStat.LANES 0).modCnl p fun _ => {}
  let d2 := d1.tearBoundary now p
  let asks := d.cnl.reads.filter fun q => d.cnlRoute q.dst == some p
  let fs := (x.replay.map (·.2) ++ x.out).filter fun f => f.type != ftCredit && f.type != ftData && !(f.src == d.own && (f.type == ftMemRd || f.type == ftMemWr))
  if d2.portUp (1 - p) then (fs ++ asks.map fun q => q.flit d.own).foldl (fun (d : Dev) f => d.cnlOn now (1 - p) f) d2
  else
    let lost := d2.cnl.reads
    if lost = [] then d2
    else lost.foldl (fun (d : Dev) q => d.answered now q.cls q.n) { d2 with cnl := { d2.cnl with reads := [] }, bus := .accessFault }

/-- CANAL_RETRAIN (R403): after four failed replays in a row, or a credit timeout, a port retrains; lanes is how many train, at most 8.  It
runs on 8 or on 4, with fewer it is down. -/
def execCanalRetrain (t port lanes : Nat) (s : State) : Host.Outcome State Fault Refusal :=
  s.run t fun now d =>
    if d.portUp port ∧ 4 ≤ (d.cnlPort port).failures then
      let r := r1 .cnlPortStat port
      let d1 := ((d.sf r F.cnlPortStat.RETRAINED 1).modCnl port fun x => { x with failures := 0, replaying := false, stuckAt := none }).raise (872 + port)
      if lanes < 4 then d1.portDown now port
      else (d1.sf r F.cnlPortStat.LANES (if lanes < 8 then 4 else 8)).cnlPump now port
    else d

/-- CREDIT_TIMEOUT (R403): no credit for 10 µs while flits wait; the port must retrain. -/
def execCreditTimeout (t port : Nat) (s : State) : Host.Outcome State Fault Refusal :=
  s.run t fun now d =>
    match (d.cnlPort port).stuckAt with
    | some a =>
      if d.portUp port ∧ 10000 ≤ d.elapsed a now then
        ((d.sf (r1 .cnlPortStat port) F.cnlPortStat.CREDIT_TO 1).modCnl port fun x => { x with failures := max 4 x.failures, stuckAt := none }).raise (872 + port)
      else d
    | none => d

/-- Whether a peer's index obeys the ring rule on a port: port 0 of module i joins port 1 of module i + 1 (R399). -/
def Dev.peerOk (d : Dev) (p peer ring : Nat) : Bool :=
  decide (2 ≤ ring) && decide (ring ≤ 4) && decide (d.own < ring) && peer != d.own &&
    (if p = 0 then peer == (d.own + 1) % ring else d.own == (peer + 1) % ring && decide (peer < ring))

/-- CANAL_PORT_TRAINING (R399): a port trains with its peer on some lanes in a ring of some modules; it comes up, or stays down where the
peer's index breaks the rule, which goes to the almanac. -/
def execCanalPortTraining (t port lanes peer ring : Nat) (s : State) : Host.Outcome State Fault Refusal :=
  s.run t fun now d =>
    if 2 ≤ port ∨ d.on 165 = false ∨ d.portUp port then d
    else
      let r := r1 .cnlPortStat port
      let d1 := (d.sf r F.cnlPortStat.PEER (peer % 4)).sf r F.cnlPortStat.MODULE d.own
      if d.peerOk port peer ring = false then ((d1.sf r F.cnlPortStat.INDEX_ERR 1).almMc 0x051 2 now [port, peer, ring]).raise (872 + port)
      else if lanes < 4 then d1.sf r F.cnlPortStat.INDEX_ERR 0
      else
        let d2 := ((d1.sf r F.cnlPortStat.INDEX_ERR 0).sf r F.cnlPortStat.UP 1).sf r F.cnlPortStat.LANES (if lanes < 8 then 4 else 8)
        ({ (d2.modCnl port fun _ => {}) with cnl := { (d2.modCnl port fun _ => {}).cnl with ring := ring } }).raise (872 + port)

end Sys2Proof.Machine
end

