-- ==== Sys2Proof/Machine/Eic.lean ====
section
/-! DEFINITION. The event interrupt controller: claim, complete, external lines, timers, sleep and wake (R374 to R385). -/

namespace Sys2Proof.Machine

/-- Whether a source is enabled for a target; doorbell sources only for the steward's targets (R377). -/
def Dev.enabled (d : Dev) (x tgt : Nat) : Bool :=
  x != 0 && (d.rn (r2 .eicTEnable tgt (x / 32))).testBit (x % 32) && (decide (32 ≤ tgt) || !(decide (512 ≤ x) && decide (x ≤ 767)))

/-- A source's priority. -/
def Dev.prio (d : Dev) (x : Nat) : Nat := d.f (r1 .eicSrcCfg x) F.eicSrcCfg.PRIO

/-- Whether a source is active for some target (R379). -/
def Dev.isActive (d : Dev) (x : Nat) : Bool := d.eic.active.any fun e => e.1 == x

/-- Whether a source is eligible for a target (R378). -/
def Dev.eligible (d : Dev) (tgt x : Nat) : Bool :=
  d.eic.pend.contains x && !d.isActive x && d.enabled x tgt && decide (d.f (r1 .eicTThresh tgt) F.eicTThresh.THRESH < d.prio x)

/-- Of two sources, the one with the higher priority, the lower number among equals (R378). -/
def Dev.better (d : Dev) (a b : Nat) : Nat :=
  if a = 0 then b else if d.prio a < d.prio b ∨ (d.prio a = d.prio b ∧ b < a) then b else a

/-- The source a claim of a target returns; 0 where none is eligible (R378). -/
def Dev.claimSource (d : Dev) (tgt : Nat) : Nat :=
  (d.eic.pend.filter (d.eligible tgt)).foldl d.better 0

/-- A priority, threshold or enable register is written in a cycle: what it held before the cycle is noted (R381). -/
def Dev.eicNote (d : Dev) (now : Nat) (r : Reg) : Dev :=
  let olds := if d.eic.since = now then d.eic.olds else []
  { d with eic := { d.eic with since := now, olds := if olds.any (·.1 == r) then olds else olds ++ [(r, d.rd r)] } }

/-- The controller as a claim of a cycle sees it: priorities, thresholds and enables as they were before the cycle (R381). -/
def Dev.eicBefore (d : Dev) (now : Nat) : Dev :=
  if d.eic.since = now then d.eic.olds.foldl (fun e x => e.wr x.1 x.2) d else d

/-- A target's line is asserted while any source is eligible for it (R378). -/
def Dev.lineOf (d : Dev) (tgt : Nat) : Bool := d.eic.pend.any (d.eligible tgt)

/-- A claim read served in a cycle: the source becomes active for the target and its pending bit clears (R378, R379, R381). -/
def Dev.claim (d : Dev) (now tgt : Nat) : Dev :=
  let x := (d.eicBefore now).claimSource tgt
  if x = 0 then { d with bus := .data 0 }
  else { d with bus := .data x, eic := { d.eic with pend := d.eic.pend.filter (· != x), active := (x, tgt) :: d.eic.active } }

/-- Whether a source senses a level (R377, EIC_SRC_CFG.TRIG). -/
def Dev.isLevel (d : Dev) (x : Nat) : Bool :=
  decide (832 ≤ x) && decide (x ≤ 863) && d.fb (r1 .eicSrcCfg x) F.eicSrcCfg.TRIG

/-- Whether an external line is at its active level (R382). -/
def Dev.asserted (d : Dev) (x : Nat) : Bool :=
  (tgetD d.eic.lines (x - 832) ⟨false⟩).level != d.fb (r1 .eicSrcCfg x) F.eicSrcCfg.POL

/-- A complete write served (R380). -/
def Dev.complete (d : Dev) (tgt x : Nat) : Dev :=
  if d.eic.active.contains (x, tgt) then
    let d1 := { d with eic := { d.eic with active := d.eic.active.filter (· != (x, tgt)) } }
    if d1.isLevel x && d1.asserted x then d1.raise x else d1
  else (d.sf (r0 .eicStat) F.eicStat.BAD_COMPLETE 1).sf (r0 .eicStat) F.eicStat.LAST_BAD x

/-- EIC_CLAIM (R378, R379): initiator class c reads EIC_Tt_CLAIM of a target. -/
def execEicClaim (t c tgt : Nat) (s : State) : Host.Outcome State Fault Refusal :=
  s.regAccess t c (r1 .eicTClaim tgt) .read fun now d => if tgt < 34 then d.claim now tgt else { d with bus := .accessFault }

/-- EIC_COMPLETE (R380): initiator class c writes a source number to EIC_Tt_COMPLETE. -/
def execEicComplete (t c tgt src : Nat) (s : State) : Host.Outcome State Fault Refusal :=
  s.regAccess t c (r1 .eicTComplete tgt) .write fun _ d =>
    if tgt < 34 then d.complete tgt (src % 1024) else { d with bus := .accessFault }

/-- The samples a change must hold: FILTER, 0 acting as 1 (R382). -/
def Dev.filterOf (d : Dev) (x : Nat) : Nat := max 1 (d.f (r1 .eicSrcCfg x) F.eicSrcCfg.FILTER)

/-- A sensed change of an external line: an active edge pends an edge source, an asserted level pends a level source
that is not active (R377, R380, R382). -/
def Dev.lineChange (d : Dev) (line : Nat) (level : Bool) : Dev :=
  let x := 832 + line
  let d1 := { d with eic := { d.eic with lines := tset d.eic.lines line ⟨level⟩ } }
  if d1.asserted x && (!d1.isLevel x || !d1.isActive x) then d1.raise x else d1

/-- GPIO_EDGE (R382): a line shows a new level for a number of consecutive samples. -/
def execGpioEdge (t line : Nat) (level : Bool) (samples : Nat) (s : State) : Host.Outcome State Fault Refusal :=
  s.run t fun _ d =>
    if line < 32 ∧ d.on 156 ∧ d.filterOf (832 + line) ≤ samples ∧ (tgetD d.eic.lines line ⟨false⟩).level ≠ level then
      d.lineChange line level
    else d

/-- GPIO_GLITCH (R382): a pulse covered at least one sample but was not sensed. -/
def execGpioGlitch (t line samples : Nat) (s : State) : Host.Outcome State Fault Refusal :=
  s.run t fun _ d =>
    if line < 32 ∧ d.on 156 ∧ 1 ≤ samples ∧ samples < d.filterOf (832 + line) then d.sf (r0 .eicStat) F.eicStat.GLITCH 1
    else d

/-- The compare value of a target's timer: EIC_Tt_TIMECMP of an M or steward target, stimecmp of an S target (R374). -/
def Dev.timerCmp (d : Dev) (tgt : Nat) : Nat :=
  if tgt % 2 = 0 ∨ 32 ≤ tgt then d.rn (r1 .eicTTimecmp tgt) else tgetD d.eic.stimecmp (tgt / 2) dtMax

/-- TIMER_INTERRUPT (R374): DT reaches a compare value; all ones never pends. -/
def execTimerInterrupt (t tgt : Nat) (s : State) : Host.Outcome State Fault Refusal :=
  s.run t fun now d =>
    if tgt < 34 ∧ d.on 156 ∧ d.timerCmp tgt ≤ now ∧ d.timerCmp tgt ≠ dtMax ∧ ¬ d.eic.timer.contains tgt then
      { d with eic := { d.eic with timer := tgt :: d.eic.timer } }
    else d

/-- Whether something wakes a core (R383): a pending source enabled for either of its targets with PRIO 1 or more, a
timer, or a software interrupt.  Neither threshold nor mask counts. -/
def Dev.wakes (d : Dev) (core : Nat) : Bool :=
  (d.eic.pend.any fun x => (d.enabled x (2 * core) || d.enabled x (2 * core + 1)) && decide (1 ≤ d.prio x)) ||
  d.eic.timer.contains (2 * core) || d.eic.timer.contains (2 * core + 1) ||
  d.fb (r1 .eicTSoft (2 * core)) F.eicTSoft.PEND || d.fb (r1 .eicTSoft (2 * core + 1)) F.eicTSoft.PEND

/-- WFI (R383): a running application core stops its clock. -/
def execWfi (t core : Nat) (s : State) : Host.Outcome State Fault Refusal :=
  s.run t fun _ d =>
    if core < 16 ∧ d.coreRuns core ∧ ¬ d.eic.asleep.contains core then
      { d with eic := { d.eic with asleep := core :: d.eic.asleep } }
    else d

/-- CORE_WAKE (R383): a sleeping core resumes once something wakes it. -/
def execCoreWake (t core : Nat) (s : State) : Host.Outcome State Fault Refusal :=
  s.run t fun _ d =>
    if d.eic.asleep.contains core ∧ d.wakes core then
      { d with eic := { d.eic with asleep := d.eic.asleep.filter (· != core) } }
    else d

end Sys2Proof.Machine
end

