-- ==== Sys2Proof/Machine/LowSpeed.lean ====
section
/-! DEFINITION. CAN, SPI transaction slots and TDM (R386 to R388, R393 to R395). -/

namespace Sys2Proof.Machine

/-- CAN_FRAME_RECEIVE (R388, R393): controller n receives a good frame, CAN XL (format 0) or Classical or FD (1), with its priority or base
identifier; one that uses an unsupported part (bad) is discarded (R386).  A stream that selects it takes NVAL words; any other frame goes to the
ring. -/
def Dev.canReceive (d : Dev) (now n fmt id stamp : Nat) (bs : List Byte) : Dev :=
  let k := d.draw (0x0130 + 2 * n) stamp
  let d1 := k.2.log ⟨k.1, .can, false, [n, fmt, id, bs.length]⟩
  let mine := d.streams.filter fun s => s.kind == 2 && s.source / 2 ^ 28 == n && (s.source.testBit 11 == (fmt == 1)) && s.source % 2 ^ 11 == id
  let d2 := if d.on 149 then mine.foldl (fun (d : Dev) s =>
      let off := bits s.source 12 10
      if off + 4 * s.nval ≤ bs.length then d.takeSample now k.1.src s stamp k.1.cnt false 0 ((List.range s.nval).map fun i => beNat ((bs.drop (off + 4 * i)).take 4)) else d) d1
    else d1
  if d.on 149 && !mine.isEmpty then d2
  else ({ d2 with io := { d2.io with can := tset d2.io.can n (tgetD d2.io.can n [] ++ [({ key := k.1, unc := false, data := bs } : RxFrame)]) } }).raise (812 + n)

/-- CAN_FRAME_RECEIVE (R388). -/
def execCanFrameReceive (t n fmt id stamp : Nat) (bad : Bool) (data : List Nat) (s : State) : Host.Outcome State Fault Refusal :=
  s.run t fun now d => if d.on 166 ∧ n < 4 ∧ bad = false then d.canReceive now n fmt id stamp (data.map (BitVec.ofNat 8)) else d

/-- An SPI controller beside its registers. -/
def Dev.spi (d : Dev) (n : Nat) : SpiSt := tgetD d.io.spi n {}
def Dev.setSpi (d : Dev) (n : Nat) (x : SpiSt) : Dev := { d with io := { d.io with spi := tset d.io.spi n x } }
def Dev.spiEn (d : Dev) (n : Nat) : Bool := decide (n < 2) && d.on 166 && d.fb (r1 .spiCfg n) F.spiCfg.EN
def Dev.spiTrig (d : Dev) (n s : Nat) : Bool := d.fb (r2 .spiSlot n s) F.spiSlot.TRIG

/-- The slots whose TRIG bit is set, in slot order. -/
def Dev.trigSlots (d : Dev) (n : Nat) : List Nat := (List.range 16).filter (d.spiTrig n)

/-- A data-ready edge starts the run of the TRIG slots, or waits (R394). -/
def Dev.dataReady (d : Dev) (n stamp : Nat) : Dev :=
  let x := d.spi n
  match x.run with
  | some _ => if d.trigSlots n = [] then d else d.setSpi n { x with waiting := x.waiting ++ [stamp] }
  | none => if d.trigSlots n = [] then d else d.setSpi n { x with run := some (stamp, d.trigSlots n) }

/-- SPI_DATA_READY (R51, R394): an edge of the data-ready input of controller n; capture channels stamp it, and the edge that DRDY_POL selects
runs the slots. -/
def execSpiDataReady (t n : Nat) (rising : Bool) (stamp : Nat) (s : State) : Host.Outcome State Fault Refusal :=
  s.runFed t fun now d =>
    if n < 2 then
      (let d1 := d.captureAll now (0x10 + n) rising stamp
       if d1.spiEn n ∧ rising = !(d1.fb (r1 .spiCfg n) F.spiCfg.DRDY_POL) then d1.dataReady n stamp else d1)
    else d

/-- A slot without TRIG runs once for a write of 1 to GO (R394). -/
def Dev.spiGo (d : Dev) (now n slot : Nat) : Dev :=
  let x := d.spi n
  if d.spiEn n = false ∨ d.spiTrig n slot then d
  else match x.run with
    | some _ => d.setSpi n { x with goes := x.goes ++ [slot] }
    | none => d.setSpi n { x with run := some (now, [slot]) }

/-- SPI_GO (R394): initiator class c writes v, with GO set, to SPI_n_SLOTs. -/
def execSpiGo (t c n slot v : Nat) (s : State) : Host.Outcome State Fault Refusal :=
  s.regAccess t c (r2 .spiSlot n slot) .write fun now d =>
    if n < 2 ∧ slot < 16 then
      (let keep := bits v 10 20 * 2 ^ 10 + bits v 31 33 * 2 ^ 31
       let d1 := d.wn (r2 .spiSlot n slot) keep
       if v.testBit 30 then d1.spiGo now n slot else d1)
    else { d with bus := .accessFault }

/-- The runs of an edge or of a GO complete (R393, R394): each slot's read data is one part of the sample stamped with the edge; of the waiting
edges the newest is served and the others counted. -/
def Dev.spiEnd (d : Dev) (now n : Nat) (rd : List (List Nat)) : Dev :=
  let x := d.spi n
  match x.run with
  | none => d
  | some (stamp, slots) =>
    let got (i s : Nat) : List Byte := ((rd.getD i []).map (BitVec.ofNat 8)).take (d.f (r2 .spiSlot n s) F.spiSlot.RDLEN + 1)
    let parts := slots.zipIdx.map fun e => (e.1, got e.2 e.1)
    let k := d.draw (0x0140 + n) stamp
    let d1 := (k.2.log ⟨k.1, .spi, false, [n] ++ parts.flatMap fun e => e.1 :: e.2.map BitVec.toNat⟩).raise (810 + n)
    let feed (d : Dev) (s : FusStream) : Dev :=
      match parts.find? fun e => e.1 == s.source % 16 with
      | some e =>
        let off := bits s.source 8 6
        if off + 4 * s.nval ≤ e.2.length then d.takeSample now k.1.src s stamp k.1.cnt false 0 ((List.range s.nval).map fun i => bytesAt e.2 (off + 4 * i) 4) else d
      | none => d
    let d2 := if d.on 149 then (d.streams.filter fun s => s.kind == 1 && s.source / 2 ^ 28 == n).foldl feed d1 else d1
    let y : SpiSt := { x with run := none, data := parts.foldl (fun (t : Tbl (List Byte)) e => tset t e.1 e.2) x.data }
    match (if d.trigSlots n = [] then none else y.waiting.getLast?) with
    | some edge => ((d2.setSpi n { y with waiting := [] }).addSat (r1 .spiCfg n) F.spiCfg.SKIPPED (y.waiting.length - 1)).dataReady n edge
    | none => match y.goes with
      | g :: rest => d2.setSpi n { y with waiting := [], goes := rest, run := some (now, [g]) }
      | [] => d2.setSpi n { y with waiting := [] }

/-- SPI_TRANSACTION_END (R394): rd holds the bytes read by each slot of the run, in slot order. -/
def execSpiTransactionEnd (t n : Nat) (rd : List (List Nat)) (s : State) : Host.Outcome State Fault Refusal :=
  s.run t fun now d => if n < 2 ∧ d.on 166 then d.spiEnd now n rd else d

/-- TDM_BLOCK (R395): port n completes a block of 32 frames, stamped at its first frame-sync edge, and sends the next block of its transmit
ring. -/
def execTdmBlock (t n stamp : Nat) (data : List Nat) (s : State) : Host.Outcome State Fault Refusal :=
  s.run t fun _ d =>
    if n < 2 ∧ d.on 166 then
      (let k := d.draw (0x0148 + n) stamp
       let x := tgetD d.io.tdm n {}
       let d1 := (k.2.log ⟨k.1, .tdm, false, [n, data.length] ++ (x.tx.headD []).map BitVec.toNat⟩).raise (816 + n)
       { d1 with io := { d1.io with tdm := tset d1.io.tdm n { x with rx := x.rx ++ [(k.1, data.map (BitVec.ofNat 8))], tx := x.tx.tail } } })
    else d

end Sys2Proof.Machine
end

