-- ==== Sys2Proof/Machine/Power.lean ====
section
/-! DEFINITION. Resets, sensor events, input loss and thermal stops (R417, R428 to R430, R461 to R468). -/

namespace Sys2Proof.Machine

/-- Registers whose power domains are all in a list. -/
def Regs.keep (rs : Regs) (on : List Nat) : Regs :=
  rs.filter fun e => match domainOf e.1.addr with
    | some pds => pds.all fun p => on.contains p
    | none => false

/-- Cue and capture registers of channels 4 on, which run with the main domains (R52). -/
def Reg.lateChannel (r : Reg) : Bool :=
  decide (4 ≤ r.i) && [RegName.cueChCfg, .cueChTime, .cueChPeriod, .cueChStat, .capChCfg, .capChData, .capChCnt, .capChStat].contains r.name

/-- Engine 0 returns to the early holding service (R343): the image laws with their X0, channel 0 within 2 ms, the references start afresh. -/
def Dev.earlyReturn (d : Dev) (now : Nat) : Dev :=
  let others := (List.range 64).foldl (fun (d : Dev) n => if d.f (r1 .cueChCfg n) F.cueChCfg.TRIG = 3 then d.sf (r1 .cueChCfg n) F.cueChCfg.ARM 0 else d) d
  (others.holdStartAt now d.le.early.image).almMc 0x070 2 now [2]

/-- The main domains lose their state; the early domain, DT, the servo and the early holding service stay (R343, R417). -/
def Dev.mainReset (d : Dev) (now : Nat) : Dev :=
  let early := [169, 170, 171]
  let e0 : Engine := d.eng 0
  let back := d.earlyState = 6
  let d1 : Dev :=
    { regs := (d.regs.keep early).filter fun e => !e.1.lateChannel
      cnt := d.cnt, free := d.free, bus := d.bus, module := d.module, nor := d.nor, sysArea := d.sysArea
      mem := d.mem.filter fun c => decide (c.1 < 0x20000000)
      time := d.time
      cue := { base := d.cue.base, pulses := d.cue.pulses.filter fun e => decide (e.1 < 4), trig := d.cue.trig.filter fun e => e.1 == 3, held := d.cue.held.filter fun e => decide (e.1 < 4) }
      pow := { on := early, pllLocked := d.pow.pllLocked }
      stew := { owners := d.stew.owners.filter fun e => e.2 == .device && decide (e.1 / 65536 = 0x09) && decide (e.1 % 65536 < 4) }
      slu := { flash := d.slu.flash }, fab := { uncorr := d.fab.uncorr }, pbu := { trained := d.pbu.trained }
      le := { eng := [(0, e0)], joints := d.le.joints, early := d.le.early }
      ss := d.ss, io := { eth := d.io.eth.filter fun e => e.1 == 0 }
      dbg := { vref := d.dbg.vref, refused := d.dbg.refused }
      idn := { d.idn with cdiB := [], alias_ := [] }
      mc := { d.mc with stores := [], resetAt := none, nonces := [], certs := [], mB := [], mS := [], mL := [], mP := [] } }
  ((((if back then d1.earlyReturn now else d1).almMc 0x004 1 now [0]).ssSync now 0 false false).ssSync now 1 false false).syncStop now

/-- RESET_IN (R417): a low level on RESET_IN# of so many µs ends. -/
def execResetIn (t heldUs : Nat) (s : State) : Host.Outcome State Fault Refusal :=
  s.run t fun now d =>
    if d.mc.running = false ∨ heldUs < 100 then d
    else if heldUs < 10000 then d.almMc 0x004 1 now [heldUs]
    else { d with mc := { d.mc with resetAt := some (now, decide (2000000 ≤ heldUs)) } }

/-- Whether a reset of a kind is due (R417, R431). -/
def Dev.resetDue (d : Dev) (now : Nat) (cold : Bool) : Bool := d.mc.resetAt.elim false fun x => decide (x.1 ≤ now) && x.2 == cold

/-- The processor loses its power or is reset cold: DT and every state outside the always-on domain are gone (R417). -/
def State.offline (s : State) (latch : Bool) (d : Dev) : State := { s with dt := 0, frac := 0, latchClosed := latch, ignored := if latch then s.ignored else 0, closedAt := none, dev := d }

/-- A cold or main-domain reset ends a debug session, which goes to the almanac (R450). -/
def Dev.noteDebugEnd (d : Dev) (now : Nat) (open_ : Bool) : Dev := if open_ then d.almMc 0x013 0 now [0] else d

/-- COLD_RESET (R417, R420). -/
def execColdReset (t : Nat) (s : State) : Host.Outcome State Fault Refusal :=
  let now := s.now t
  if s.dev.resetDue now true then
    (let d := s.dev.cold now
     .next (s.offline false ((({ d with pow := { d.pow with off := false } }).almMc 0x004 1 0 [1]).noteDebugEnd 0 s.dev.dbg.session)))
  else .next { s with dt := now }

/-- Whether every running part of every safe store has ended (R466). -/
def Dev.partsEnded (d : Dev) : Bool := d.mc.stores.all fun x => x.running == []

/-- MAIN_DOMAIN_RESET (R417, R420, R466). -/
def execMainDomainReset (t : Nat) (s : State) : Host.Outcome State Fault Refusal :=
  let now := s.now t
  if s.dev.resetDue now false ∧ s.dev.earlyOn ∧ (s.dev.pow.inputLost = false ∨ s.dev.partsEnded) then
    .next { s with dt := now, latchClosed := false, ignored := 0, closedAt := none, dev := (s.dev.mainReset now).noteDebugEnd now s.dev.dbg.session }
  else .next { s with dt := now }

/-- MC_RESTART (R417): by an activation that is due, or by the watchdog; only the MC stops. -/
def execMcRestart (t : Nat) (watchdog : Bool) (s : State) : Host.Outcome State Fault Refusal :=
  s.run t fun now d =>
    if d.mc.running ∧ (watchdog ∨ (d.mc.restartAt.elim false fun x => decide (x ≤ now))) then
      { (d.almMc 0x004 0 now [2]) with mc := { (d.almMc 0x004 0 now [2]).mc with running := false, romOnly := false, restartAt := none } }
    else d

/-- HEARTBEAT (R429). -/
def execHeartbeat (t : Nat) (s : State) : Host.Outcome State Fault Refusal :=
  s.run t fun now d =>
    if d.stewardRuns ∧ d.mc.running then
      (let d1 := { d with mc := { d.mc with heartbeatAt := now, stewardStopped := false } }
       if d.mc.causes.contains 5 then (d1.almMc 0x080 0 now [5, 0]).dropCause now 5 else d1)
    else d

/-- STEWARD_STOPPED (R429). -/
def execStewardStopped (t : Nat) (s : State) : Host.Outcome State Fault Refusal :=
  s.run t fun now d =>
    if d.mc.running ∧ d.cores.steward ∧ d.mc.stewardStopped = false ∧ 100000000 ≤ d.elapsed d.mc.heartbeatAt now then
      (({ d with mc := { d.mc with stewardStopped := true } }).almMc 0x080 2 now [5, 1]).addCause now 5
    else d

/-- MC_THRESHOLD_CROSSING (R104, R428, R468): kind 0 a temperature, 1 a rail's voltage, 2 its current, 3 the dew-point margin; the sensor's
index and the reading. -/
def execMcThresholdCrossing (t kind idx : Nat) (v : F32) (s : State) : Host.Outcome State Fault Refusal :=
  s.run t fun now d =>
    if d.mc.running = false then d
    else
      let d1 := d.almMc 0x080 1 now [kind, idx, v.toNat]
      match kind with
      | 0 => if idx < 32 then d1.tempRead now idx v v v else d
      | 1 => if idx < 40 then d1.railRead now idx v ((tget d.mc.amps idx).elim 0 Sensor.value) else d
      | 2 => if idx < 40 then d1.railRead now idx ((tget d.mc.volts idx).elim 0 Sensor.value) v else d
      | 3 => if idx = 0 then d1.humidityRead now d.mc.rh.value v else d
      | _ => d

/-- A fall or an impact requests a stop (R430). -/
def Dev.shock (d : Dev) (now falls impacts : Nat) (peak : F32) (body : List Nat) : Dev :=
  (({ d with mc := { d.mc with falls := d.mc.falls + falls, impacts := d.mc.impacts + impacts, peak := f32Max d.mc.peak peak, shockLast := now } }).almMc 0x080 2 now body).addCause now 4

/-- SHOCK_IMPACT (R430): the magnitude in g. -/
def execShockImpact (t : Nat) (g : F32) (s : State) : Host.Outcome State Fault Refusal :=
  s.run t fun now d => if d.mc.running ∧ f32Le 0x42480000 g then d.shock now 0 1 g [4, 1, g.toNat] else d

/-- FALL_DETECT (R430): the magnitude in g and for how many ms it was below 0.3 g. -/
def execFallDetect (t : Nat) (g : F32) (ms : Nat) (s : State) : Host.Outcome State Fault Refusal :=
  s.run t fun now d => if d.mc.running ∧ f32Lt g 0x3E99999A ∧ 100 ≤ ms then d.shock now 1 0 g [4, 0, ms] else d

/-- SHOCK_STOP_END (R430). -/
def execShockStopEnd (t : Nat) (s : State) : Host.Outcome State Fault Refusal :=
  s.run t fun now d => if d.mc.running ∧ d.mc.causes.contains 4 ∧ 1000000000 ≤ d.elapsed d.mc.shockLast now then d.dropCause now 4 else d

/-- HOLDUP_FAULT (R430): the bank's voltage in mV and for how many ms it was below 28 V. -/
def execHoldupFault (t mv ms : Nat) (s : State) : Host.Outcome State Fault Refusal :=
  s.run t fun now d =>
    if d.mc.running ∧ mv < 28000 ∧ 1000 < ms ∧ d.pow.inputLost = false then (({ d with mc := { d.mc with bankMv := mv } }).almMc 0x080 2 now [3, mv]).addCause now 3 else d

/-- VIN_LOW_STEP (R462): VIN in V and for how many ms it was below 24.0 V.  The condition stands until VIN is seen at 24.0 V or more. -/
def execVinLowStep (t : Nat) (vin : F32) (ms : Nat) (s : State) : Host.Outcome State Fault Refusal :=
  s.run t fun now d =>
    if d.mc.running ∧ f32Lt vin 0x41C00000 ∧ 10 ≤ ms ∧ d.mc.vinLow = false then
      (({ d with mc := { d.mc with vin := vin, vinLow := true } }).almMc 0x080 1 now [2, 0, vin.toNat]).forceStep now
    else d

/-- VIN_BELOW_RANGE (R462): VIN in V and for how many µs it was below 22.0 V. -/
def execVinBelowRange (t : Nat) (vin : F32) (us : Nat) (s : State) : Host.Outcome State Fault Refusal :=
  s.run t fun now d =>
    if d.mc.running ∧ f32Lt vin 0x41B00000 ∧ 1000 ≤ us then (({ d with mc := { d.mc with vin := vin } }).almMc 0x080 2 now [2, 1, vin.toNat]).addCause now 2 else d

/-- VIN_RECOVER (R462): VIN in V and for how many ms it was 24.0 V or more. -/
def execVinRecover (t : Nat) (vin : F32) (ms : Nat) (s : State) : Host.Outcome State Fault Refusal :=
  s.run t fun now d =>
    if d.mc.running ∧ f32Le 0x41C00000 vin ∧ 100 ≤ ms ∧ d.pow.inputLost = false then
      (({ d with mc := { d.mc with vin := vin, vinLow := false } }).almMc 0x080 0 now [2, 2, vin.toNat]).dropCause now 2
    else d

/-- The hold-up set (R465). -/
def holdUpSet : List Nat := [140, 141, 152, 153, 154, 156, 157, 168, 170, 171]

/-- A pending change is not applied and its request completes with SUPERSEDED (R465, R466). -/
def Dev.dropPend (d : Dev) (now : Nat) : Dev :=
  match d.pbu.pend with
  | some p =>
    let d1 := { d with pbu := { d.pbu with pend := none } }
    match p.req with
    | some ms => d1.finishAt now ms .superseded (2 ^ 23 + 2) []
    | none => d1
  | none => d

/-- A safe store without running parts completes after an input loss (R442): OK when every part has committed, else PARTIAL_FAIL whose FAILMASK
names the others. -/
def Dev.endStore (d : Dev) (now : Nat) (x : SafeStore) : Dev :=
  let mask := ((List.range x.nparts).map fun p => if x.committed.contains p then 0 else 2 ^ p).sum
  let d1 := { d with mc := { d.mc with stores := d.mc.stores.filter fun y => !(y.mbx == x.mbx && y.seq == x.seq) } }
  if mask = 0 then d1.finishAt now (x.mbx, x.seq) .ok x.nparts [] else d1.finishAt now (x.mbx, x.seq) .partialFail mask []

/-- Every store that has no running part ends. -/
def Dev.endStores (d : Dev) (now : Nat) : Dev := (d.mc.stores.filter fun x => x.running == []).foldl (fun (d : Dev) x => d.endStore now x) d

/-- Domains outside the hold-up set lose power with their state (R465). -/
def Dev.shed (d : Dev) : Dev :=
  { d with
    regs := d.regs.keep holdUpSet, pow := { d.pow with on := d.pow.on.filter fun p => holdUpSet.contains p, pairs := [], far := false }
    mem := d.mem.filter fun c => decide (c.1 < 0x20000000) || within c.1 1 0x800000000 0x600000000
    fab := { ctxs := d.fab.ctxs, cascades := d.fab.cascades, saved := d.fab.saved, uncorr := d.fab.uncorr }
    pbu := { trained := d.pbu.trained, cal := d.pbu.cal }
    cam := [], fus := {}, plan := {}, cnl := {}
    le := { d.le with eng := d.le.eng.filter fun e => e.1 == 0 }
    io := { eth := d.io.eth.filter fun e => e.1 == 0 }
    dbg := { vref := d.dbg.vref, refused := d.dbg.refused }
    cores := { d.cores with released := false, targets := d.cores.targets.filter fun e => decide (16 ≤ e.1) && decide (e.1 ≤ 18 ∨ e.1 = 26) } }

/-- Input loss (R465): stop cause 2, flush and checkpoint, the domains outside the hold-up set off, contexts with bound basins torn down, stores
without running parts end. -/
def Dev.inputLoss (d0 : Dev) (now : Nat) (vin : F32) : Dev :=
  let d1 := (({ d0 with pow := { d0.pow with inputLost := true }, mc := { d0.mc with vin := vin } }).almMc 0x080 3 now [2, 3, vin.toNat]).addCause now 2
  let d2 := (d1.almFlush now).almCkpt now
  let d3 := (if d2.windowOpen then d2.closeWindow now now true else d2).dropPend now
  let bound := (d3.fab.ctxs.filter fun e => e.2.basins != []).map (·.1)
  let d4 := bound.foldl (fun (d : Dev) c => d.teardown now c .inputLoss) d3
  (d4.endStores now).shed.syncStop now

/-- INPUT_LOSS (R462, R465): VIN in V and for how many µs it was below 20.0 V or above 62.0 V. -/
def execInputLoss (t : Nat) (vin : F32) (us : Nat) (s : State) : Host.Outcome State Fault Refusal :=
  s.run t fun now d =>
    if d.mc.running = false ∨ d.pow.inputLost ∨ us < 50 ∨ (f32Lt vin 0x41A00000 = false ∧ f32Lt 0x42780000 vin = false) then d
    else if d.earlyOn then d.inputLoss now vin
    else { d with pow := { d.pow with inputLost := true } }

/-- PROCESSOR_OFF (R417, R466): the running parts and the flush have ended; the input has not returned. -/
def execProcessorOff (t : Nat) (s : State) : Host.Outcome State Fault Refusal :=
  let now := s.now t
  if s.dev.pow.inputLost ∧ s.dev.earlyOn ∧ s.dev.partsEnded ∧ s.dev.mc.resetAt = none then .next (s.offline false (s.dev.cold now))
  else .next { s with dt := now }

/-- INPUT_RETURN (R466): VIN in V and for how many ms it was 24.0 V or more; before the processor is switched off a main-domain reset follows,
after it the start-up of R414. -/
def execInputReturn (t : Nat) (vin : F32) (ms : Nat) (s : State) : Host.Outcome State Fault Refusal :=
  s.run t fun now d =>
    if d.pow.inputLost = false ∨ f32Lt vin 0x41C00000 ∨ ms < 10 then d
    else if d.earlyOn then
      ({ d with mc := { d.mc with vin := vin, vinLow := false, resetAt := some (now, false) } }).almMc 0x080 0 now [2, 4, vin.toNat]
    else { d with pow := { d.pow with inputLost := false }, mc := { d.mc with vin := vin, vinLow := false, started := false } }

/-- MC_OFF (R466): the bank's voltage in mV.  The always-on domain loses its state; flash, NOR and OTP keep theirs. -/
def execMcOff (t mv : Nat) (s : State) : Host.Outcome State Fault Refusal :=
  s.run t fun _ d =>
    if d.pow.inputLost ∧ d.earlyOn = false ∧ mv ≤ 28000 then
      { d with pow := { d.pow with on := [] }, cnt := [],
               mc := { ring := d.mc.ring, wrPos := d.mc.wrPos, aseq := d.mc.aseq, boot := d.mc.boot, chain := d.mc.chain, sinceCkpt := d.mc.sinceCkpt, opNs := d.mc.opNs, updates := d.mc.updates } }
    else d

/-- OVERTEMP_STEP (R468): the hottest of temperature sensors 0 to 23 in °C and for how many ms it was 95 °C or more; a first step after 100 ms,
a further one for each further 1 s. -/
def execOvertempStep (t : Nat) (v : F32) (ms : Nat) (s : State) : Host.Outcome State Fault Refusal :=
  s.run t fun now d =>
    let steps := if ms * 1000000 < d.elapsed d.mc.hotAt now then 0 else d.mc.hotSteps
    if d.mc.running ∧ f32Le 0x42BE0000 v ∧ 100 + 1000 * steps ≤ ms then
      (({ d with mc := { d.mc with hotSteps := steps + 1, hotAt := now } }).almMc 0x080 1 now [1, steps, v.toNat]).forceStep now
    else d

/-- OVERTEMP_STOP (R468). -/
def execOvertempStop (t : Nat) (v : F32) (s : State) : Host.Outcome State Fault Refusal :=
  s.run t fun now d => if d.mc.running ∧ f32Le 0x42D20000 v then (d.almMc 0x080 2 now [1, v.toNat]).addCause now 1 else d

/-- OVERTEMP_CLEAR (R468): the hottest reading and for how many ms it was below 100 °C. -/
def execOvertempClear (t : Nat) (v : F32) (ms : Nat) (s : State) : Host.Outcome State Fault Refusal :=
  s.run t fun now d => if d.mc.running ∧ f32Lt v 0x42C80000 ∧ 1000 ≤ ms then (d.almMc 0x080 0 now [1, v.toNat]).dropCause now 1 else d

/-- OVERTEMP_SHUTDOWN (R468): every domain but the always-on one is off at once, until a cold reset. -/
def execOvertempShutdown (t : Nat) (v : F32) (s : State) : Host.Outcome State Fault Refusal :=
  let now := s.now t
  if s.dev.mc.running ∧ f32Le 0x42DC0000 v then
    (let d := (s.dev.almMc 0x080 3 now [1, 2, v.toNat]).cold now
     .next (s.offline s.latchClosed { d with pow := { d.pow with off := true } }))
  else .next { s with dt := now }

end Sys2Proof.Machine
end

