-- ==== Sys2Proof/Machine/RegAccess.lean ====
section
/-! DEFINITION. Accesses to registers and to memory by an initiator: what a read returns, what a write does beside storing its bits (R4 to R8,
R19, R373, R400, R418 to R421). -/

namespace Sys2Proof.Machine

/-- One bit each for the members of a list among 32 numbers. -/
def maskOf (l : List Nat) (base : Nat) : Nat := ((List.range 32).map fun i => if l.contains (base + i) then 2 ^ i else 0).sum

/-- What a register without a read effect returns: write-only bits read zero; a Canal port's MODULE is the straps' (R399). -/
def State.regValue (s : State) (now : Nat) (d : Dev) (r : Reg) : Nat :=
  match r.name with
  | .timeDtNow => now
  | .bootLatch => 2 * b2n s.latchClosed + 65536 * min 65535 s.ignored
  | .cnlPortStat => (d.sf r F.cnlPortStat.MODULE d.own).rn r
  | .eicPend => maskOf d.eic.pend (32 * r.i)
  | .eicActive => maskOf (d.eic.active.map (·.1)) (32 * r.i)
  | n => d.rn r - (d.rn r &&& n.info.wo)

/-- A register read that reached its register. -/
def State.regRead (s : State) (now : Nat) (d : Dev) (r : Reg) : Dev :=
  match r.name with
  | .capChData => d.capRead r.i
  | .rdvPortRes => d.readPortRes r.i
  | .eicTClaim => d.claim now r.i
  | .pmapViol => ({ d with bus := .data (d.rn r) }).sf r F.pmapViol.COUNT 0
  | _ => { d with bus := .data (s.regValue now d r) }

/-- A software write stores the bits that software may write (R7). -/
def Dev.plainWrite (d : Dev) (latchOpen : Bool) (r : Reg) (v : Nat) : Dev := d.wn r (maskedWrite r.name.info latchOpen (d.rn r) (v % 2 ^ r.name.info.width))

/-- A write of CPC_MODE asks for a change of mode or profile (R71, R78). -/
def Dev.cpcWrite (d : Dev) (now v : Nat) : Dev :=
  let env := bits v 8 2
  let prof := bits v 10 2
  if env = 3 ∨ prof = 3 then d
  else d.setPend now { writtenAt := now, envelope := env, profile := prof, forced := false, isMode := env != d.envelope, req := none, rpl := false, pbuLen := 0, loops := [], replan := 0, camStop := 0 } (2 ^ 23 + 3)

/-- A field that a reserved value leaves unchanged. -/
def Dev.keepField (d : Dev) (was : Nat) (r : Reg) (x : Fld) (bad : Nat → Bool) : Dev := if bad (d.f r x) then d.sf r x was else d

/-- The bits of EIC_SRCs_CFG that a write changes: none of a reserved source, PRIO alone of a source that is no external line (R376, R384). -/
def eicCfgMask (x : Nat) : Nat := if eicListed x then (if 832 ≤ x ∧ x ≤ 863 then 0xFF6F else 0xF) else 0

/-- The bits of EIC_Tt_ENABLEk that a write changes: those of the sources listed, and doorbells for the steward's targets only (R376, R377). -/
def eicEnableMask (tgt k : Nat) : Nat :=
  ((List.range 32).map fun i => if eicListed (32 * k + i) && (decide (32 ≤ tgt) || decide (k < 16) || decide (24 ≤ k)) then 2 ^ i else 0).sum

/-- A write to a register with no row of its own, and what it does beside (R7, R35, R64, R211, R267, R292, R347, R374, R377, R392, R406). -/
def Dev.regWrite (d : Dev) (latchOpen : Bool) (now : Nat) (r : Reg) (v : Nat) : Dev :=
  let p := d.plainWrite latchOpen r v
  match r.name with
  | .timeCtrl => d.writeTimeCtrl now v
  | .timeServoInteg => d.wn r (wrapInt 64 (clampInteg (sext 64 v)))
  | .capChStat => if v.testBit 0 then p.sf r F.capChStat.LOST 0 else p
  | .camPortSize => p.syncCamLoad
  | .camPortTiming => p.syncCamLoad
  | .cdcStatus => if p.f r F.cdcStatus.OVR = 0 then p.wn (r1 .cdcLost r.i) 0 else p
  | .cpcMode => d.cpcWrite now v
  | .kvHashKey0 => d.wn r v
  | .kvHashKey1 => d.wn r v
  | .pbuCtrl =>
    let q := { p with pbu := { p.pbu with swapSet := p.fb r F.pbuCtrl.SWAP } }
    if q.enforced then (if d.enforced then q else q.enforce now) else q.ungate now
  | .pbuSquallCfg => d.setSquall now (p.rn r)
  | .sluFarEcc => if v.testBit 0 then (p.sf r F.sluFarEcc.CE 0).sf r F.sluFarEcc.UE 0 else p
  | .sluNearEcc => if v.testBit 0 then (p.sf r F.sluNearEcc.CRC_RETRY 0).sf r F.sluNearEcc.CE 0 else p
  | .fusCtrl => d.fusCtrlWrite now v ⟨now, d.src 0x0200, d.cntOf 0x0200⟩
  | .fusStat => if v.testBit 9 then p.wn (r0 .fusLate) 0 else p
  | .planCtrl => p.keepField (d.f r F.planCtrl.SWEEPS_MAX) r F.planCtrl.SWEEPS_MAX (· == 0)
  | .leEngCfg => p.keepField (d.f r F.leEngCfg.VSRC) r F.leEngCfg.VSRC fun x => decide (2 ≤ x)
  | .mbxCpl => p.flushNotices now r.i 64
  | .eicSrcCfg =>
    let q := (d.eicNote now r).plainWrite latchOpen r (v &&& eicCfgMask r.i)
    if q.isLevel r.i && q.asserted r.i && !q.isActive r.i then q.raise r.i else q
  | .eicTThresh => (d.eicNote now r).plainWrite latchOpen r v
  | .eicTEnable => (d.eicNote now r).plainWrite latchOpen r (v &&& eicEnableMask r.i r.j)
  | .eicTTimecmp => if r.i < 32 ∧ r.i % 2 = 1 then d else { p with eic := { p.eic with timer := p.eic.timer.filter (· != r.i) } }
  | .ethPortCfg => if p.fb r F.ethPortCfg.GCL_EN then p else p.modPort r.i fun x => { x with started := false }
  | .ethPortGcl => if r.j / 256 = d.f (r1 .ethPortCfg r.i) F.ethPortCfg.BANK then d else p
  | .cnlPortStat => if v.testBit 2 then p.sf r F.cnlPortStat.REPLAYS 0 else p
  | _ => p

/-- Registers that ignore writes once the boot latch is closed (R227, R420). -/
def Reg.locks (r : Reg) : Bool := r.name.info.rwl != 0 || r.name == .kvHashKey0 || r.name == .kvHashKey1

/-- Whether a write to a register of the protection map reaches it in the cycle the boot latch closes: it is applied before the close (R420). -/
def State.beforeClose (s : State) (now : Nat) (r : Reg) : Bool :=
  s.latchClosed && s.closedAt == some now && r.locks && r.name.info.base == RegName.pmapDebug.info.base

/-- A write of an initiator class to a register with the boot latch as it is: one whose write is a row of its own does what that row does (R5, R420). -/
def State.latchedWrite (s : State) (t c : Nat) (r : Reg) (v : Word) : Host.Outcome State Fault Refusal :=
  let now := s.now t
  let n := v.toNat
  if r.locks && s.latchClosed then
    (if s.dev.reaches s.latchClosed now c r.addr r.bytes Acc.write then
      .next { s with dt := now, ignored := min 65535 (s.ignored + 1), dev := ({ s.dev with bus := .ok }).almMc 0x010 1 now [r.addr, c] }
    else .next { s with dt := now, dev := s.dev.faulted s.latchClosed now c r.addr r.bytes .write })
  else match r.name with
    | .timeServoOffset => execServoUpdate t c v s
    | .cueChCfg => execCueArm t c r.i n s
    | .cueChTime => execCueTimeWrite t c r.i v s
    | .camPortCfg => execCameraEnable t c r.i n s
    | .camPortBuf => execBufferRelease t c r.i n s
    | .fusPortPost => execSamplePost t c r.i n s
    | .mbxReq => execDoorbell t c r.i n s
    | .eicTComplete => execEicComplete t c r.i n s
    | .spiSlot => execSpiGo t c r.i r.j n s
    | .bootLatch => execBootLatchClose t c n s
    | .pmapGrant => execPmapGrant t c v s
    | .rdvPortOp => s.regAccess t c r .write fun now d => d.portWrite now r.i n
    | _ => s.regAccess t c r .write fun now d => d.regWrite (!s.latchClosed) now r n

/-- A write of an initiator class to a register: a map write in the cycle of the close finds the latch open (R420). -/
def State.writeReg (s : State) (t c : Nat) (r : Reg) (v : Word) : Host.Outcome State Fault Refusal :=
  if s.beforeClose (s.now t) r then
    (match ({ s with latchClosed := false } : State).latchedWrite t c r v with
     | .next s' => .next { s' with latchClosed := true }
     | o => o)
  else s.latchedWrite t c r v

/-- A read of an initiator class from a register. -/
def State.readReg (s : State) (t c : Nat) (r : Reg) : Host.Outcome State Fault Refusal := s.regAccess t c r .read fun now d => s.regRead now d r

/-- An access that the protection map permits but that reaches nothing, or that it refuses (R5, R419). -/
def State.noAccess (s : State) (t c a n : Nat) (x : Acc) : Host.Outcome State Fault Refusal := s.run t fun now d => d.faulted s.latchClosed now c a n x

/-- Whether an address lies in the window on the KV page records (R243). -/
def inPageWindow (a : Nat) : Bool := decide (0x20980000 ≤ a) && decide (a < 0x209C0000)

/-- An access to the window on the KV page records (R243): record 8,192 × SEL + i at 32 × i, each field at its offset in its width, read-only:
a write has no effect (R7). -/
def State.pageAccess (s : State) (t c a n : Nat) (x : Acc) : Host.Outcome State Fault Refusal :=
  s.run t fun now d =>
    let off := a - 0x20980000
    let width := if off % 32 < 16 then 4 else 8
    if n = width ∧ a % n = 0 ∧ x ≠ .exec ∧ d.reaches s.latchClosed now c a n x then
      (match x with
       | .read => { d with bus := .data (bytesAt (d.pageRecord (8192 * d.f (r0 .kvWindow) F.kvWindow.SEL + off / 32)) (off % 32) n) }
       | _ => { d with bus := .ok })
    else d.faulted s.latchClosed now c a n x

/-- An access to a register block: exactly a register's width, aligned (R5, R6). -/
def State.blockAccess (s : State) (t c a n : Nat) (x : Acc) (v : Word) : Host.Outcome State Fault Refusal :=
  match regAt a with
  | some r =>
    if n = r.bytes ∧ a % n = 0 ∧ s.dev.permits (s.latchClosed && !(x == .write && s.beforeClose (s.now t) r)) c a n x then
      match x with
      | .read => s.readReg t c r
      | .write => s.writeReg t c r v
      | .exec => s.noAccess t c a n x
    else s.noAccess t c a n x
  | none => if inPageWindow a then s.pageAccess t c a n x else s.noAccess t c a n x

/-- REGISTER_WRITE (R5 to R7, R420): initiator class c writes n bytes at address a. -/
def execRegisterWrite (t c a n : Nat) (v : Word) (s : State) : Host.Outcome State Fault Refusal := s.blockAccess t c a n .write v

/-- An access to a Canal window (R400, R418): the class may reach Canal windows, the module is another one of the ring, the offset at or above
the basin stores; the answer comes with MEM_CPL. -/
def Dev.canalAccess (d : Dev) (latch : Bool) (now c a n m off : Nat) (x : Acc) (bs : List Byte) : Dev :=
  let ok := d.permits latch c a n x && d.fb (r1 .pmapPerm c) F.pmapPerm.CANAL && d.powered now a && alignedFor c a n (.canal m off) && x != .exec && decide (n ≤ 4096) &&
    m != d.own && decide (m < d.cnl.ring) && decide (0x400000000 ≤ off) && (d.cnlRoute m).isSome
  if ok then
    let tag := (lowest 65536 fun k => d.cnl.reads.all fun y => y.tag != k).getD 0
    let q : CnlReq := { tag := tag, dst := m, n := if x = Acc.write then 0 else n, off := off, data := if x = Acc.write then bs else [], cls := c }
    let d1 := { d with bus := .idle, cnl := { d.cnl with reads := d.cnl.reads ++ [q] } }
    d1.cnlSend now (q.flit d.own).type m 1 (q.flit d.own).body q.data
  else d.faulted latch now c a n x

/-- What a load finds in a store (R208, R210): a corrected line or word is delivered and counted, an uncorrectable one returns an access fault and
is recorded. -/
def Dev.eccLoad (d : Dev) (now a ecc : Nat) : Dev :=
  if ecc = 0 ∨ storeTier a = 0 then d
  else match d.bus with
    | .bytes _ =>
      if ecc = 1 then (if storeTier a = 2 then d.incSat (r0 .sluFarEcc) F.sluFarEcc.CE else d.incSat (r0 .sluNearEcc) F.sluNearEcc.CE)
      else { (d.eccUncorrectable now (storeTier a) (a / 64 * 64)) with bus := .accessFault }
    | _ => d

/-- An access that reaches memory (R4, R5, R373, R419): its effect, and what a load finds there. -/
def Dev.memEffect (d : Dev) (latch : Bool) (now c a n : Nat) (x : Acc) (bs : List Byte) (ecc : Nat) : Dev :=
  if d.memOk latch now c a n x && !(placeOf a n == Place.rom && x == Acc.write) then
    (match x with
     | .write => { d.memWrite a bs with bus := .ok }
     | _ => { d with bus := .bytes (d.memBytes a n) }).eccLoad now a ecc
  else d.faulted latch now c a n x

/-- An access of any initiator to any address (R4, R5, R373, R419); the far store answers none while its retraining window is open, and the
access waits (R73, R74).  ecc: what a read of a store finds there. -/
def State.access (s : State) (t c a n : Nat) (x : Acc) (bs : List Byte) (ecc : Nat := 0) : Host.Outcome State Fault Refusal :=
  match placeOf a n with
  | .regs => s.blockAccess t c a n x (BitVec.ofNat 64 (leNat bs))
  | .canal m off => s.run t fun now d => d.canalAccess s.latchClosed now c a n m off x bs
  | _ => s.run t fun now d =>
      if d.farHolds a n && d.memOk s.latchClosed now c a n x then d.farHold ⟨c, x.code, a, n, bs, ecc, none⟩
      else d.memEffect s.latchClosed now c a n x bs ecc

/-- The type of access a number names: 0 read, 1 write, else execute (PMAP_VIOL.TYPE). -/
def accOf (k : Nat) : Acc := if k = 0 then .read else if k = 1 then .write else .exec

/-- MEMORY_ACCESS (R208, R210, R419): initiator class c reads or executes n bytes at address a, or writes the given bytes there; ecc is what a read
of a store finds there. -/
def execMemoryAccess (t c kind a n : Nat) (data : List (BitVec 8)) (ecc : Nat) (s : State) : Host.Outcome State Fault Refusal :=
  s.access t c a (if kind = 1 then data.length else n) (accOf kind) data ecc

end Sys2Proof.Machine
end

