-- ==== Sys2Proof/Machine/SafeStore.lean ====
section
/-! DEFINITION. Safe stores under the hold-up check, and firmware updates (R431, R435 to R442, R464). -/

namespace Sys2Proof.Machine

/-- Fields of STORE_SAFE (R360). -/
def Req.ssKind (r : Req) : Nat := r.fld 0 0 3
def Req.ssSrc (r : Req) : Nat := r.w32 4
def Req.ssSize (r : Req) : Nat := r.w64 8
def Req.ssDest (r : Req) : Nat := r.w64 16

/-- Round up to 4 KiB. -/
def ceil4K (n : Nat) : Nat := (n + 4095) / 4096 * 4096

/-- Whether a part of some bytes passes the check at a bank voltage in mV (R439): E_av − E_res ≥ 1.5 × E_need. -/
def Dev.partPasses (d : Dev) (mbx seq mv bytes : Nat) : Bool := decide (d.energyReserved mbx seq + 3 * energyNeed bytes ≤ 2 * energyAvail d.mc.cMeas mv)

/-- The size of all parts but the last when a store is split into n (R440). -/
def storePart (size n : Nat) : Nat := ceil4K ((size + n - 1) / n)

/-- The fewest parts that a store can be split into (R440); none where no split fits or a part of 1 MiB would not pass. -/
def Dev.splitStore (d : Dev) (mbx seq mv size : Nat) : Option Nat :=
  if d.partPasses mbx seq mv 0x100000 = false then none
  else lowestFrom 16 1 fun n => decide (storePart size n ≤ 0x20000000) && d.partPasses mbx seq mv (min size (storePart size n))

/-- The length of a store's area: two header copies and the parts (R441). -/
def storeArea (size n : Nat) : Nat := 0x2000 + n * storePart size n

/-- The largest area the payload's place allows (R178, R434, R438). -/
def storeRoom (kind : Nat) : Nat := if kind = 0 then 7536 * 2 ^ 20 else 1016 * 2 ^ 30

/-- The checks of STORE_SAFE (R193, R194, R438, R440): a class-0 context gets no descriptors for it, and its first part needs room on an engine. -/
def Dev.storeFail (d : Dev) (mv : Nat) (r : Req) : Option Fail :=
  let flush := r.ssKind == 1
  let size := if flush then d.mc.buffered else r.ssSize
  let src := (d.obj? r.ssSrc).bind fun o => (o.copy 1).map fun l => (o, l)
  firstFail
    [d.front r 0 24 [(0, 3, 29)], needCfg (decide (r.ssKind < 4)) 0,
     if flush then firstFail [needCfg (r.ssSrc == 0) 4, needCfg (r.ssSize == 0) 8, needCfg (r.ssDest == 0) 16]
     else firstFail [needCfg src.isSome 4, needCfg (r.ssSize % 4096 == 0 && decide (r.ssSize ≤ 2 ^ 33) && src.elim false fun x => decide (r.ssSize ≤ x.1.size)) 8,
       needCfg (r.ssDest % 4096 == 0 && decide (r.ssDest + storeArea r.ssSize 1 ≤ storeRoom r.ssKind)) 16],
     needCfg (flush || d.ctxClass r.ctx != 0) 0,
     need (d.splitStore r.mbx r.seq mv size).isSome .holdupShort 0,
     need (r.ssKind < 2 || (d.pickEngine fun _ => true).isSome) .busy 0,
     if flush then none else needCfg (decide (r.ssDest + storeArea size ((d.splitStore r.mbx r.seq mv size).getD 1) ≤ storeRoom r.ssKind)) 16]

/-- A store in progress. -/
def Dev.store? (d : Dev) (m seq : Nat) : Option SafeStore := d.mc.stores.find? fun x => x.mbx == m && x.seq == seq
def Dev.modStore (d : Dev) (m seq : Nat) (f : SafeStore → SafeStore) : Dev :=
  { d with mc := { d.mc with stores := d.mc.stores.map fun x => if x.mbx = m ∧ x.seq = seq then f x else x } }

/-- The bytes of part p of a store (R440). -/
def SafeStore.bytes (x : SafeStore) (p : Nat) : Nat := min x.part (x.size - p * x.part)

/-- Whether a store's parts go through the sluice engines: those into namespace 1, which engines reach, of any bytes at all (R178, R193). -/
def SafeStore.sluiced (x : SafeStore) (p : Nat) : Bool := decide (2 ≤ x.kind) && decide (0 < x.bytes p)

/-- The descriptor of a part of a safe store (R193, R441): linear bytes from T1 to its place in flash, not staged. -/
def SafeStore.desc (x : SafeStore) (cls p : Nat) : Desc :=
  { op := 1, srcTier := 1, dstTier := 3, cls := cls, ctx := x.ctx, staged := false, entryDst := false, entrySrc := false,
    srcAddr := x.src + p * x.part, dstAddr := x.dest + 0x2000 + p * x.part, count := (x.bytes p + 63) / 64 }

/-- A part starts (R83, R193, R439): its descriptor is queued, where an engine has room; a part that no engine can move, into the system area of
the flash, is charged to the command's class as one descriptor and its bytes (log entry 48). -/
def Dev.startStorePart (d : Dev) (now : Nat) (x : SafeStore) (p : Nat) : Dev :=
  let d1 := d.modStore x.mbx x.seq fun y => { y with running := y.running ++ [p], waitFrom := none }
  let c := d.ctxClass x.ctx
  if x.kind = 1 then d1
  else if x.sluiced p then
    (match d1.pickEngine fun _ => true with
     | some eng =>
       let k := d1.draw 0x0510 now
       let q := k.2.addReq { purpose := .safe x.mbx x.seq p, ctx := x.ctx, cls := c, key := k.1 }
       q.2.queuePart now q.1 eng 0 (x.desc c p) .queued
     | none => d)
  else (d1.charge now c 7 1).charge now c 4 (x.bytes p)

/-- The request of a part of a safe store. -/
def Dev.storeReq (d : Dev) (x : SafeStore) (p : Nat) : Option (Nat × SluReq) := d.slu.reqs.find? fun e => e.2.purpose == .safe x.mbx x.seq p

/-- The flash that holds a store's area, and where the area begins. -/
def Dev.storeFlash (d : Dev) (x : SafeStore) : Memory := if x.kind = 0 then d.sysArea else d.slu.flash
def SafeStore.base (x : SafeStore) : Nat := if x.kind = 0 then 0x29000000 + x.dest else x.dest
def Dev.putStoreFlash (d : Dev) (x : SafeStore) (m : Memory) : Dev := if x.kind = 0 then { d with sysArea := m } else { d with slu := { d.slu with flash := m } }

/-- A header copy's counter; 0 where its CRC does not hold (R441). -/
def headerCounter (m : Memory) (a : Nat) : Nat := if crc32c (m.read a 4092) = m.le (a + 4092) 4 then m.le (a + 40) 4 else 0

/-- STORE_SAFE starts (R438, R440): the split, and part 0 at once; after an input loss no part starts. -/
def Dev.storeStart (d : Dev) (now mv : Nat) (r : Req) : Dev :=
  let size := if r.ssKind = 1 then d.mc.buffered else r.ssSize
  let n := (d.splitStore r.mbx r.seq mv size).getD 1
  let part := storePart size n
  let x : SafeStore := { mbx := r.mbx, seq := r.seq, ctx := r.ctx, key := r.key d, kind := r.ssKind, src := ((d.obj? r.ssSrc).bind (Obj.copy · 1)).elim 0 Loc.addr, size := size, dest := r.ssDest,
                         part := part, nparts := if part = 0 then 1 else max 1 ((size + part - 1) / part), committed := [], running := [], copies := [], waitFrom := none }
  let b := x.base
  let y := { x with copies := [headerCounter (d.storeFlash x) b, headerCounter (d.storeFlash x) (b + 4096)] }
  let d1 := d.decide' r
  let d2 := { d1 with mc := { d1.mc with bankMv := mv, stores := d1.mc.stores ++ [y] } }
  if d2.pow.inputLost then d2.endStore now y else d2.startStorePart now y 0

/-- STORE_SAFE (R438 to R440): the bank's voltage in mV at the check. -/
def execStoreSafe (t m seq mv : Nat) (s : State) : Host.Outcome State Fault Refusal :=
  s.run t fun now d => d.command now m seq 0x0B01 (fun _ => d.mc.running && !d.mcHalted && d.on 168) (d.storeFail mv) fun r => d.storeStart now mv r

/-- SAFE_STORE_PART_START (R442): the bank's voltage in mV at the check; a part that does not pass waits for the bank. -/
def execSafeStorePartStart (t m seq mv : Nat) (s : State) : Host.Outcome State Fault Refusal :=
  s.run t fun now d => match d.store? m seq with
    | some x =>
      let p := x.committed.length
      if d.mc.running = false ∨ x.running ≠ [] ∨ x.nparts ≤ p ∨ d.pow.inputLost then d
      else
        let d1 := { d with mc := { d.mc with bankMv := mv } }
        if d1.partPasses m seq mv (x.bytes p) then d1.startStorePart now x p
        else d1.modStore m seq fun y => { y with waitFrom := some (y.waitFrom.getD now) }
    | none => d

/-- RECHARGE_WAIT_TIMEOUT (R442): the wait for the bank has lasted 100 ms. -/
def execRechargeWaitTimeout (t m seq : Nat) (s : State) : Host.Outcome State Fault Refusal :=
  s.run t fun now d => match d.store? m seq with
    | some x => match x.waitFrom with
      | some a => if 100000000 ≤ d.elapsed a now then d.endStore now x else d
      | none => d
    | none => d

/-- A store header's 4 KiB (R441): order key, KIND, NPARTS, SIZE, part size, copy counter, COMMITTED, SHA-384 of the committed parts, CRC-32C. -/
def storeHeader (x : SafeStore) (counter : Nat) (committed : List Nat) (digests : Nat → List Byte) : List Byte :=
  let mask := (committed.map fun p => 2 ^ p).sum
  let body := fixed 4092 (x.key.bytes ++ leBytes 4 x.kind ++ leBytes 4 x.nparts ++ leBytes 8 x.size ++ leBytes 8 x.part ++ leBytes 4 counter ++ leBytes 4 0 ++ leBytes 2 mask ++ leBytes 14 0 ++
    (List.range 16).flatMap fun p => if committed.contains p then fixed 48 (digests p) else List.replicate 48 0)
  body ++ leBytes 4 (crc32c body)

/-- A part lands and commits (R441): its data, then the header copy with the lower counter, raised. -/
def Dev.commitStorePart (d : Dev) (now : Nat) (x : SafeStore) (p : Nat) : Dev :=
  let done := x.committed ++ [p]
  let a := x.base
  let data := a + 0x2000 + p * x.part
  let m := (d.storeFlash x).copy data (x.bytes p) d.mem (x.src + p * x.part)
  let c := x.copies.getD 0 0
  let c2 := x.copies.getD 1 0
  let counter := max c c2 + 1
  let second := decide (c2 < c)
  let m1 := m.write (if second then a + 4096 else a) (storeHeader x counter done fun q => sha (m.read (a + 0x2000 + q * x.part) (x.bytes q)))
  let d1 := if x.kind = 1 then (d.almFlush now).almCkpt now else d.putStoreFlash x m1
  let y : SafeStore := { x with committed := done, running := x.running.filter (· != p), copies := if second then [c, counter] else [counter, c2] }
  let d2 := d1.modStore x.mbx x.seq fun _ => y
  if done.length = y.nparts ∨ d2.pow.inputLost then d2.endStore now y else d2

/-- The store's running part has ended (R442): its request goes, and the part commits, or the store ends where it failed. -/
def Dev.endStorePart (d : Dev) (now : Nat) (x : SafeStore) (p : Nat) : Dev :=
  match d.storeReq x p with
  | none => if x.sluiced p then d else d.commitStorePart now x p
  | some e =>
    if e.2.allEnded = false then d
    else
      let d1 := d.completeReq now e.1
      if e.2.outcome = 0 then d1.commitStorePart now x p else d1.endStore now x

/-- SAFE_STORE_PART_COMMIT (R441, R442): the store's running part has landed. -/
def execSafeStorePartCommit (t m seq : Nat) (s : State) : Host.Outcome State Fault Refusal :=
  s.run t fun now d => match d.store? m seq with
    | some x => match x.running with
      | p :: _ => if d.on 168 then d.endStorePart now x p else d
      | [] => d
    | none => d

/-- The object of an UPDATE_STAGE by its index: pinned in T1 and created by the command's context (R435). -/
def Dev.stageObj (d : Dev) (r : Req) : Option (Obj × Loc) :=
  match tget d.slu.objs r.mcIndex with
  | some o => match o.copy 1 with
    | some l => if o.pinsIn 1 ≠ [] ∧ o.creator = r.ctx ∧ imgBody ≤ o.size then some (o, l) else none
    | none => none
  | none => none

/-- The KIND an UPDATE_STAGE's image names. -/
def Dev.stageKind (d : Dev) (r : Req) : Nat := (d.stageObj r).elim 15 fun x => imgKind (bytesAt (d.locBytes x.2 0 4) 0 4)

/-- The further checks of UPDATE_STAGE (R435): its object, the image's KIND, no staging or trial of that KIND. -/
def Dev.stageMore (d : Dev) (r : Req) : Option Fail :=
  firstFail [needCfg (d.stageObj r).isSome 2, needCfg (decide (d.stageKind r < 5)) 2, need ((d.upd (d.stageKind r)).state != 1 && (d.upd (d.stageKind r)).state != 4) .busy 0]

/-- UPDATE_STAGE (R435, R436): completes at once with the image's KIND; the inactive slot is invalid from now on. -/
def execUpdateStage (t m seq : Nat) (s : State) : Host.Outcome State Fault Refusal :=
  s.run t fun now d => d.mcQuery now m seq 0x0030 true (fun i => decide (i < 65536))
    d.stageMore fun r =>
      let k := d.stageKind r
      let u := d.upd k
      let b := slotBase k (1 - u.active)
      let wipe (m : Memory) : Memory := m.clear b 256
      let d1 := if k = 0 ∨ k = 3 then { d with nor := wipe d.nor } else { d with sysArea := wipe d.sysArea }
      (d1.setUpd k { u with state := 1, boots := 0, object := r.mcIndex, req := r.key d }).finish now r .ok 0 (leBytes 4 k)

/-- Staging ends (R435): the image lies in the inactive slot and is STAGED or REFUSED. -/
def Dev.stagingDone (d : Dev) (o : Otp) (now kind : Nat) : Dev :=
  let u := d.upd kind
  let slot := 1 - u.active
  let b := slotBase kind slot
  match (tget d.slu.objs u.object).bind fun x => (x.copy 1).map fun l => (x, l) with
  | some x =>
    let n := min x.1.size (slotSize kind)
    let img := d.locSlice x.2 0 n
    let d1 := if kind = 0 ∨ kind = 3 then { d with nor := d.nor.put b (slotSize kind) img } else { d with sysArea := d.sysArea.put b (slotSize kind) img }
    let st := if decide (x.1.size ≤ slotSize kind) && d1.slotOk o kind slot then 2 else 3
    ((d1.setUpd kind { u with state := st }).almMc 0x090 (if st = 2 then 0 else 1) now [kind, slot, st]).raise 875
  | none => ((d.setUpd kind { u with state := 3 }).almMc 0x090 1 now [kind, slot, 3]).raise 875

/-- STAGING_DONE (R435). -/
def execStagingDone (t kind : Nat) (s : State) : Host.Outcome State Fault Refusal :=
  s.run t fun now d => if d.mc.running ∧ kind < 5 ∧ (d.upd kind).state = 1 ∧ (kind = 0 ∨ kind = 3 ∨ d.on 168) then d.stagingDone s.otp now kind else d

/-- UPDATE_ACTIVATE (R435, R436): the MC's own firmware starts its trial 1 s later. -/
def execUpdateActivate (t m seq : Nat) (s : State) : Host.Outcome State Fault Refusal :=
  s.run t fun now d => d.mcQuery now m seq 0x0031 true (fun i => decide (i < 5)) (fun r => needCfg ((d.upd r.mcIndex).state == 2) 2) fun r =>
    let k := r.mcIndex
    let d1 := (d.setUpd k { d.upd k with state := 4, boots := 0 }).almMc 0x090 0 now [k, 1 - (d.upd k).active, 4]
    (if k = 3 then { d1 with mc := { d1.mc with restartAt := some (now + 1000000000) } } else d1).finish now r .ok 0 []

/-- The checks of UPDATE_CONFIRM (R436). -/
def Dev.confirmFail (d : Dev) (r : Req) : Option Fail :=
  let u := d.upd r.mcIndex
  d.mcFail r true (decide (r.mcIndex < 5)) (needCfg (u.state == 4 && u.running == 1 - u.active) 2)

/-- UPDATE_CONFIRM (R435, R437): the trial slot becomes active and counter CTR rises to the image's SVN. -/
def execUpdateConfirm (t m seq : Nat) (s : State) : Host.Outcome State Fault Refusal :=
  let now := s.now t
  let form (r : Req) : Bool := r.mcItem == 0x0032 && s.dev.mcAnswers 0x0032 && s.dev.updateTurn r
  let head (r : Req) : Nat := (s.dev.imgStore r.mcIndex).le (slotBase r.mcIndex (s.dev.upd r.mcIndex).running) 4
  let otp := match s.dev.passing now m seq 0x0C01 form s.dev.confirmFail with
    | some r => s.otp.raiseTo (imgCtr (head r)) (imgSvn (head r))
    | none => s.otp
  .next { s with dt := now, otp := otp, dev := s.dev.command now m seq 0x0C01 form s.dev.confirmFail fun r =>
      let k := r.mcIndex
      let u := s.dev.upd k
      ((s.dev.setUpd k { u with state := 5, active := u.running, boots := 0 }).almMc 0x090 0 now [k, u.running, 5]).finish now r .ok 0 (leBytes 4 (imgSvn (head r))) |>.raise 875 }

/-- UPDATE_STATUS (R431): state, active slot, boots on trial, versions of both slots. -/
def execUpdateStatus (t m seq : Nat) (s : State) : Host.Outcome State Fault Refusal :=
  s.run t fun now d => d.mcQuery now m seq 0x0033 false (fun i => decide (i < 5)) (fun _ => none) fun r =>
    let k := r.mcIndex
    let u := d.upd k
    let a := slotBase k 0
    let b := slotBase k 1
    let st := d.imgStore k
    d.finish now r .ok 0 (leBytes 4 (u.state + u.active * 2 ^ 4 + min 7 u.boots * 2 ^ 5 + imgSvn (st.le a 4) * 2 ^ 8 + imgSvn (st.le b 4) * 2 ^ 16) ++ leBytes 4 (st.le (a + 4) 4) ++ leBytes 4 (st.le (b + 4) 4))

end Sys2Proof.Machine
end

