-- ==== Sys2Proof/Machine/Session.lean ====
section
/-! DEFINITION. Sessions and contexts: HELLO, BYE, CTX_OPEN, CTX_CLOSE, CTX_SHARES (R91, R94, R354 to R358, R360). -/

namespace Sys2Proof.Machine

/-- Whether a mailbox carries a session (R356). -/
def Dev.hasSession (d : Dev) (m : Nat) : Bool := (tget d.stew.sessions m).isSome

/-- Commands of a context that have not started complete with SUPERSEDED (R354). -/
def Dev.supersedeCtx (d : Dev) (now c by_ : Nat) : Dev :=
  let mine := d.stew.inflight.filter fun r => r.ctx == c && !r.decided && r.code != 0x0001 && r.code != 0x0002 && r.code != 0x0101
  mine.foldl (fun (d : Dev) r => d.finish now r .superseded by_ []) d

/-- The sequences of a closing context leave at a commit; joins that wait are superseded (R234, R354, R360). -/
def Dev.leaveSeqs (d : Dev) (now c by_ : Nat) (key : Key) : Dev :=
  let queued := d.kv.seqs.filter fun e => e.2.ctx == c && e.2.state == .queued
  let d1 := queued.foldl (fun (d : Dev) e =>
    let d1 := ({ d with kv := { d.kv with seqs := tdel d.kv.seqs e.1 } }).dropWait (.command e.2.mbx e.2.seq)
    let d2 := d1.finishAt now (e.2.mbx, e.2.seq) .superseded by_ []
    match e.2.leaving with
    | some l => d2.finishAt now (l.1, l.2.1) .ok 0 []
    | none => d2) d
  { d1 with kv := { d1.kv with seqs := tmap d1.kv.seqs fun _ (x : KvSeq) => if x.ctx = c ∧ x.leaving.isNone then { x with leaving := some (noCmd.1, noCmd.2, key) } else x } }

/-- A context starts to close (R354, R360): q: the SEQ that closes it; by_: what overtakes its commands. -/
def Dev.startClose (d : Dev) (now c q by_ : Nat) (key : Key) : Dev :=
  let d1 := { d with fab := { d.fab with ctxs := tmod d.fab.ctxs c fun x => { x with closing := some q, endedAt := now } } }
  let d2 := (d1.supersedeCtx now c by_).leaveSeqs now c by_ key
  let mine := (d2.fab.cascades.filter fun e => e.2.ctx == c && e.2.unloading.isNone).map (·.1)
  mine.foldl (fun (d : Dev) h => d.startUnload now h noCmd by_) d2

/-- Every open context of a session closes as CTX_CLOSE would (R358). -/
def Dev.closeAll (d : Dev) (now : Nat) (r : Req) : Dev :=
  (d.openCtxs r.mbx).foldl (fun (d : Dev) c => if (d.ctx? c).elim true fun x => x.closing.isSome then d else d.startClose now c (2 ^ 32 + r.seq) (overtaker r.mbx r.seq) (r.key d)) d

/-- The reserved bits of HELLO's payload (R356). -/
def Req.helloRsvd (r : Req) : List (Nat × Nat × Nat) := [(0, 4, 28), (4, 0, 32)] ++ (List.range (r.fld 0 0 4)).map fun i => (8 + 4 * i, 0, 20)

/-- The checks of hello, in the order of R352. -/
def Dev.helloCheck (d : Dev) (m : Nat) (r : Req) : Option Fail :=
  let n (r : Req) : Nat := r.fld 0 0 4
  let laid (r : Req) : Bool := decide (1 ≤ n r) && decide (n r ≤ 8) && r.len == 8 + 4 * n r
  firstFail
    [need (!laid r || (d.agreed r).isSome) .badVersion d.highest, r.headerFail 3, if r.len < 1 then some (.badConfig, 8) else r.rsvdFail r.helloRsvd,
     needCfg (decide (1 ≤ n r) && decide (n r ≤ 8)) 0, need (r.len == 8 + 4 * n r) .badConfig 8, need (!(r.flag 0 && r.flag 1)) .badConfig 9,
     need (!d.hasSession m || r.flag 0 || r.flag 1) .busy 0]

/-- HELLO (R356 to R358). -/
def Dev.hello (d : Dev) (now m seq : Nat) : Dev :=
  d.command now m seq 0x0001 (fun _ => true) (d.helloCheck m)
    fun r =>
      let minor := (d.agreed r).getD 0
      if d.hasSession m ∧ r.flag 1 then (((d.decide' r).closeAll now r).settleEnds now)
      else d.openSession now r minor (if r.flag 0 then (d.openCtxs m).length else 0)

/-- HELLO (R356): the request SEQ seq of mailbox m. -/
def execHello (t m seq : Nat) (s : State) : Host.Outcome State Fault Refusal := s.run t fun now d => d.hello now m seq

/-- The checks of bye, in the order of R352. -/
def Dev.byeCheck (d : Dev) (r : Req) : Option Fail :=
  d.front r 1 0 []

/-- BYE (R358): it waits for every earlier command of its mailbox, with CLOSE_ALL after closing the contexts. -/
def Dev.bye (d : Dev) (now m seq : Nat) : Dev :=
  d.command now m seq 0x0002 (fun _ => true) d.byeCheck
    fun r =>
      let d1 := d.decide' r
      (if r.flag 0 then d1.closeAll now r else d1).settleEnds now

/-- BYE (R358). -/
def execBye (t m seq : Nat) (s : State) : Host.Outcome State Fault Refusal := s.run t fun now d => d.bye now m seq

/-- The lowest context id that is not in use (R91). -/
def Dev.freeCtx (d : Dev) : Option Nat := lowest 1024 fun c => (d.ctx? c).isNone

/-- The checks of ctxOpen, in the order of R352. -/
def Dev.ctxOpenCheck (d : Dev) (m : Nat) (r : Req) : Option Fail :=
  firstFail
    [d.versionFail r, d.permFail r, need (decide (2 ≤ r.fld 0 0 4) || decide (r.len < 1) || (d.groups m).testBit 15) .denied 0, r.headerFail 0, r.rsvdFail [(0, 4, 12)],
     need (r.len == 8) .badConfig 8, needCfg (r.fld 0 16 16 != 0) 2, need d.freeCtx.isSome .busy 0]

/-- CTX_OPEN (R91, R172, R202, R355, R360): a SEED of 0 stands for the low 32 bits of the completion's DT. -/
def Dev.ctxOpen (d : Dev) (now m seq : Nat) : Dev :=
  d.command now m seq 0x0101 (fun _ => true) (d.ctxOpenCheck m)
    fun r => match d.freeCtx with
      | none => d
      | some c =>
        let g := r1 .pbuCtxCfg c
        let x : Ctx := { mbx := m, cls := r.fld 0 0 4, seed := if r.w32 4 = 0 then now % 2 ^ 32 else r.w32 4 }
        let d1 := ((d.wr g g.reset).sf g F.pbuCtxCfg.CLASS (r.fld 0 0 4)).sf g F.pbuCtxCfg.SHARE (r.fld 0 16 16)
        (({ d1 with fab := { d1.fab with ctxs := tset d1.fab.ctxs c x } }.wn (r1 .pbuCtxConsumed c) 0).wn (r1 .sluCtxSpill c) 0).finish now r .ok c []

/-- CTX_OPEN (R91). -/
def execCtxOpen (t m seq : Nat) (s : State) : Host.Outcome State Fault Refusal := s.run t fun now d => d.ctxOpen now m seq

/-- The checks of ctxClose, in the order of R352. -/
def Dev.ctxCloseCheck (d : Dev) (r : Req) : Option Fail :=
  d.front r 0 0 []

/-- CTX_CLOSE (R131, R179, R185, R354, R360). -/
def Dev.ctxClose (d : Dev) (now m seq : Nat) : Dev :=
  d.command now m seq 0x0102 (fun _ => true) d.ctxCloseCheck
    fun r => (((d.decide' r).startClose now r.ctx r.seq (overtaker m seq) (r.key d)).settleEnds now)

/-- CTX_CLOSE (R354). -/
def execCtxClose (t m seq : Nat) (s : State) : Host.Outcome State Fault Refusal := s.run t fun now d => d.ctxClose now m seq

/-- The checks of ctxShares, in the order of R352. -/
def Dev.ctxSharesCheck (d : Dev) (m : Nat) (r : Req) : Option Fail :=
  let n (r : Req) : Nat := r.fld 0 0 8
  let at_ (r : Req) (i : Nat) : Nat × Nat := (r.fld (4 + 4 * i) 0 10, r.fld (4 + 4 * i) 16 16)
  firstFail
    ([d.versionFail r, d.permFail r, need ((List.range (n r)).all fun i => decide (r.len < 8 + 4 * i) || (d.openCtxs m).contains (at_ r i).1) .denied 0,
      r.headerFail 0, r.rsvdFail ([(0, 8, 24)] ++ (List.range (n r)).map fun i => (4 + 4 * i, 10, 6)), if r.len < 1 then some (.badConfig, 8) else none,
      needCfg (decide (1 ≤ n r) && decide (n r ≤ 119)) 0, need (r.len == 4 + 4 * n r) .badConfig 8] ++
     (List.range (n r)).map fun i => needCfg ((at_ r i).2 != 0) (6 + 4 * i))

/-- CTX_SHARES (R94, R360): the shares wait for the next period start. -/
def Dev.ctxShares (d : Dev) (now m seq : Nat) : Dev :=
  let n (r : Req) : Nat := r.fld 0 0 8
  let at_ (r : Req) (i : Nat) : Nat × Nat := (r.fld (4 + 4 * i) 0 10, r.fld (4 + 4 * i) 16 16)
  d.command now m seq 0x0103 (fun _ => true) (d.ctxSharesCheck m)
    fun r => ({ d with pbu := { d.pbu with shares := (List.range (n r)).foldl (fun (s : Tbl Nat) i => tset s (at_ r i).1 (at_ r i).2) d.pbu.shares } }).finish now r .ok 0 []

/-- CTX_SHARES (R94). -/
def execCtxShares (t m seq : Nat) (s : State) : Host.Outcome State Fault Refusal := s.run t fun now d => d.ctxShares now m seq

end Sys2Proof.Machine
end

