-- ==== Sys2Proof/Machine/StopCmd.lean ====
section
/-! DEFINITION. The safe-stop inputs as commands (R396, R397). -/

namespace Sys2Proof.Machine

/-- SAFE_STOP_CHANGE (R396, R397): the lines of input k read a and b, the newest low having lasted heldUs µs. -/
def execSafeStopChange (t k : Nat) (a b : Bool) (heldUs : Nat) (s : State) : Host.Outcome State Fault Refusal :=
  s.runFed t fun now d => if k < 2 ∧ d.earlyOn then d.ssLines now k a b heldUs else d

/-- SAFE_STOP_DISCREPANCY (R396): the lines of an input differ for longer than SS_CFG.DISC_MS. -/
def execSafeStopDiscrepancy (t k : Nat) (s : State) : Host.Outcome State Fault Refusal :=
  s.runFed t fun now d =>
    match tget d.ss.differ k with
    | some since =>
      if k < 2 ∧ d.earlyOn ∧ d.f (r0 .ssCfg) F.ssCfg.DISC_MS * 1000000 < d.elapsed since now then d.ssSync now k true false else d
    | none => d

end Sys2Proof.Machine
end

