-- ==== Sys2Proof/Machine/Ulzil.lean ====
section
/-! DEFINITION. The Ulzil debug port: packets, sessions, authorization, halting, stepping, breakpoints, memory and registers (R443 to R460). -/

namespace Sys2Proof.Machine

/-- A request's bytes before its CRC (R445), multi-byte fields big-endian (R444). -/
def ulzilBytes (p : UlzilPacket) (cmd : Nat) : List Byte :=
  beBytes 2 (p.gen % 4 * 2 ^ 14 + cmd % 64 * 2 ^ 8 + p.flags % 16 * 2 ^ 4 + p.seq % 16) ++ beBytes 2 (p.type % 16 * 2 ^ 12 + p.index % 4096) ++ beBytes 8 p.addr ++
    beBytes 2 p.payload.length ++ p.payload

/-- Whether a request's CRC holds (R447). -/
def ulzilGood (p : UlzilPacket) (cmd : Nat) : Bool := crc16 (ulzilBytes p cmd) == p.crc

/-- The debug target of a TYPE and INDEX (the targets table); none for an INDEX out of range. -/
def dbgTarget (type index : Nat) : Option Nat :=
  match type with
  | 0 => if index < 16 then some index else none
  | 1 => if index < 2 then some (16 + index) else none
  | 2 => if index < 8 then some (18 + index) else none
  | 3 => if index = 0 then some 26 else none
  | _ => none

/-- The highest level PMAP_DEBUG allows a TYPE; code 3 counts as locked (R449). -/
def Dev.debugCap (d : Dev) (type : Nat) : Nat :=
  let r := d.rn (r0 .pmapDebug)
  let x := match type with
    | 0 => bits r 2 2
    | 1 => bits r 4 2
    | 2 => bits r 6 2
    | 3 => bits r 8 2
    | 4 => bits r 10 2
    | _ => 0
  if x = 3 then 0 else x

/-- The level in force for a TYPE (R420, R449). -/
def Dev.levelOf (d : Dev) (latchClosed : Bool) (type : Nat) : Nat :=
  if latchClosed = false ∨ d.dbg.session = false then 0 else min d.dbg.level (d.debugCap type)

/-- The port answers a request that it did not execute: what it has stored stays (R448). -/
def Dev.turnDown (d : Dev) (st : Status) : Dev := { d with dbg := { d.dbg with resp := (st.code, []) } }

/-- A session ends (R450): targets the port halted resume, break- and watchpoints and the level go. -/
def Dev.endDebug (d : Dev) (now : Nat) : Dev :=
  if d.dbg.session = false then d
  else
    let d1 := { d with
      cores := { d.cores with targets := tmap d.cores.targets fun _ (x : DbgTarget) => { x with halted := false, stepping := false, hitBp := false, haltAt := none, regs := if x.halted then [] else x.regs, bps := [] } }
      dbg := { d.dbg with session := false, level := 0, challenge := none, work := none } }
    (d1.almMc 0x013 0 now [0]).raise 874

/-- A request of a command whose response nothing else waits for (R443, R446, R448): a failing CRC or generation has no effect, the repetition of
the last executed request returns the stored response, reserved FLAGS and payload bits are refused, then a TYPE or INDEX the command does not take,
a payload of another length, a level too low. -/
def Dev.ulzil (d : Dev) (latchClosed : Bool) (now cmd level : Nat) (p : UlzilPacket) (types : List Nat) (flagMask : Nat) (len : Nat → Bool) (rsvd : Bool) (effect : Dev → Dev) : Dev :=
  if d.dbg.vref = false ∨ d.on 167 = false ∨ d.dbg.work.isSome then d
  else if ulzilGood p cmd = false then d.turnDown .badConfig
  else if p.gen ≠ 0 then d.turnDown .badVersion
  else if d.dbg.last = some (p.seq, cmd, p.crc) then { d with dbg := { d.dbg with lastAt := now, resp := d.dbg.stored } }
  else
    let d1 := { d with dbg := { d.dbg with lastAt := now, last := some (p.seq, cmd, p.crc) } }
    if p.flags - (p.flags &&& flagMask) ≠ 0 then d1.respond .badReserved []
    else if types.contains p.type = false ∨ (p.type < 4 ∧ (dbgTarget p.type p.index).isNone) ∨ (4 ≤ p.type ∧ p.index ≠ 0) ∨ len p.payload.length = false then d1.respond .badConfig []
    else if rsvd = false then d1.respond .badReserved []
    else if d1.levelOf latchClosed p.type < level then d1.respond .denied []
    else effect d1

/-- The digest of the DeviceID keys (R450, R451). -/
def Dev.deviceDigest (d : Dev) : List Byte := sha (edKey d.idn.vault ++ mlKey d.idn.vault)

/-- ATTACH (R450): a session at level locked; trace sequence numbers start from 0 (R460). -/
def execAttach (t : Nat) (p : UlzilPacket) (s : State) : Host.Outcome State Fault Refusal :=
  s.run t fun now d => if p.flags.testBit 0 then d else d.ulzil s.latchClosed now 0x01 0 p [5] 1 (· == 0) true fun d =>
    if d.dbg.session then d.respond .busy []
    else
      let d1 := { d with dbg := { d.dbg with session := true, level := 0, challenge := none }, fab := { d.fab with trace := [], traceSeq := 0 } }
      ((d1.respond .ok (d1.deviceDigest ++ beBytes 4 d1.mc.boot)).almMc 0x013 0 now [1]).raise 874

/-- ATTACH_RELEASE (R450): ATTACH with RELEASE. -/
def execAttachRelease (t : Nat) (p : UlzilPacket) (s : State) : Host.Outcome State Fault Refusal :=
  s.run t fun now d => if p.flags.testBit 0 then d.ulzil s.latchClosed now 0x01 0 p [5] 1 (· == 0) true (fun d => (d.endDebug now).respond .ok []) else d

/-- The challenge block (R451). -/
def Dev.challengeBlock (d : Dev) (level expiry : Nat) (nonce : List Byte) : List Byte :=
  asciiBytes "OL Ulzil" ++ fixed 32 nonce ++ d.deviceDigest ++ beBytes 4 d.mc.boot ++ beBytes 1 level ++ leBytes 3 0 ++ beBytes 8 expiry ++ leBytes 24 0

/-- AUTH_CHALLENGE (R451, R453): refused without a session, and after 8 refused responses. -/
def execAuthChallenge (t : Nat) (p : UlzilPacket) (s : State) : Host.Outcome State Fault Refusal :=
  s.run t fun now d => d.ulzil s.latchClosed now 0x02 0 p [5] 0 (· == 4) (bytesAt p.payload 1 3 == 0) fun d =>
    let level := bytesAt p.payload 0 1
    if level ≠ 1 ∧ level ≠ 2 then d.respond .badConfig []
    else if d.dbg.session = false ∨ 8 ≤ d.dbg.refused then d.respond .denied []
    else
      let expiry := now + 10000000000
      let c := d.challengeBlock level expiry (Config.nonce d.free)
      ({ d with free := d.free + 1, dbg := { d.dbg with challenge := some (c, level, expiry) } }).respond .ok c

/-- Whether a response authorizes a challenge (R452): both keys are those of the slot, its fuse is intact, both signatures verify. -/
def authorizes (o : Otp) (challenge payload : List Byte) : Bool :=
  let ks := bytesAt payload 0 1
  let ed := (payload.drop 4).take 32
  let ml := (payload.drop 36).take 1952
  tget o.edHash ks == some (sha ed) && tget o.mlHash ks == some (sha ml) && !o.revoked.contains ks &&
    Config.edVerify ed ((payload.drop 1988).take 64) challenge && Config.mlVerify ml ((payload.drop 2052).take 3309) challenge

/-- AUTH_RESPONSE (R452, R453). -/
def execAuthResponse (t : Nat) (p : UlzilPacket) (s : State) : Host.Outcome State Fault Refusal :=
  s.run t fun now d => d.ulzil s.latchClosed now 0x03 0 p [5] 0 (· == 5364) (bytesAt p.payload 1 3 == 0 && bytesAt p.payload 5361 3 == 0) fun d =>
    let ok := d.dbg.session && (match d.dbg.challenge with
      | some c => decide (now ≤ c.2.2) && authorizes s.otp c.1 p.payload
      | none => false)
    let d1 := { d with dbg := { d.dbg with challenge := none, level := if ok then (d.dbg.challenge.elim 0 fun c => c.2.1) else d.dbg.level,
                                           refused := if ok then d.dbg.refused else d.dbg.refused + 1 } }
    (d1.almMc 0x013 (if ok then 0 else 1) now [2, b2n ok]).respond (if ok then .ok else .denied) []

/-- A loop engine's MODE. -/
def Dev.engMode (d : Dev) (n : Nat) : Nat := d.f (r1 .leEngStat n) F.leEngStat.MODE

/-- The status of a HALT that a target's rules refuse; none where it halts (R458, R459). -/
def Dev.haltRefusal (d : Dev) (k : Nat) : Option Status :=
  if 18 ≤ k ∧ k < 26 then
    (let n := k - 18
     if d.engMode n = 0 then none
     else if n = 0 then some .denied
     else if d.mc.running && !d.mcHalted && (d.engMode 0 == 1 || d.engMode 0 == 3) then none else some .busy)
  else if k = 26 then (if (List.range 8).any (fun n => d.engMode n != 0) || d.mc.stores != [] then some .denied else none)
  else none

/-- HALT (R456, R458, R459). -/
def execHalt (t : Nat) (p : UlzilPacket) (s : State) : Host.Outcome State Fault Refusal :=
  s.run t fun now d => d.ulzil s.latchClosed now 0x04 2 p [0, 1, 2, 3] 0 (· == 0) true fun d =>
    let k := (dbgTarget p.type p.index).getD 0
    match d.haltRefusal k with
    | some st => d.respond st []
    | none => (d.setTarget k { d.target k with halted := true, stepping := false, haltAt := some now }).respond .ok []

/-- A target runs on: what its registers hold from now on is its program's (R456). -/
def DbgTarget.resumed (x : DbgTarget) : DbgTarget := { x with halted := false, stepping := false, hitBp := false, haltAt := none, regs := [] }

/-- RESUME (R456, R458, R459). -/
def execResume (t : Nat) (p : UlzilPacket) (s : State) : Host.Outcome State Fault Refusal :=
  s.run t fun now d => d.ulzil s.latchClosed now 0x05 2 p [0, 1, 2, 3] 0 (· == 0) true fun d =>
    let k := (dbgTarget p.type p.index).getD 0
    ((if (d.target k).halted then d.setTarget k (d.target k).resumed else d).almFlush now).respond .ok []

/-- STEP (R456, R458): a halted core executes one instruction; a halted engine runs one tick at its next tick cue, and the response waits for
it. -/
def execStep (t : Nat) (p : UlzilPacket) (s : State) : Host.Outcome State Fault Refusal :=
  s.run t fun now d => d.ulzil s.latchClosed now 0x06 2 p [0, 1, 2] 0 (· == 0) true fun d =>
    let k := (dbgTarget p.type p.index).getD 0
    let x := d.target k
    if x.halted = false then d.respond .busy []
    else if k < 18 then (d.setTarget k { x with hitBp := false, regs := [] }).respond .ok []
    else { (d.setTarget k { x with stepping := true }) with dbg := { d.dbg with work := some (k, now) } }

/-- Whether a break- or watchpoint may be set (R457). -/
def bpOk (slot kind size addr : Nat) : Bool :=
  if slot < 8 then kind == 0
  else decide (slot < 12) && decide (1 ≤ kind) && decide (kind ≤ 3) && [1, 2, 4, 8, 16, 32, 64, 128, 256, 512, 1024, 2048, 4096].contains size && addr % size == 0

/-- BP_SET (R457). -/
def execBpSet (t : Nat) (p : UlzilPacket) (s : State) : Host.Outcome State Fault Refusal :=
  s.run t fun now d => d.ulzil s.latchClosed now 0x07 2 p [0, 1, 3] 0 (· == 8) (bytesAt p.payload 2 2 == 0) fun d =>
    let k := (dbgTarget p.type p.index).getD 0
    let slot := bytesAt p.payload 0 1
    let kind := bytesAt p.payload 1 1
    let size := beNat ((p.payload.drop 4).take 4)
    if bpOk slot kind size p.addr then
      (d.setTarget k { d.target k with bps := tset (d.target k).bps slot { kind := kind, addr := p.addr, size := size } }).respond .ok []
    else d.respond .badConfig []

/-- BP_CLEAR (R457). -/
def execBpClear (t : Nat) (p : UlzilPacket) (s : State) : Host.Outcome State Fault Refusal :=
  s.run t fun now d => d.ulzil s.latchClosed now 0x08 2 p [0, 1, 3] 0 (· == 4) (bytesAt p.payload 1 3 == 0) fun d =>
    let k := (dbgTarget p.type p.index).getD 0
    let slot := bytesAt p.payload 0 1
    if slot < 12 then (d.setTarget k { d.target k with bps := tdel (d.target k).bps slot }).respond .ok [] else d.respond .badConfig []

/-- The state after an access of class 8 (R454). -/
def State.debugAccess (s : State) (t a n : Nat) (x : Acc) (bs : List Byte) : State :=
  match s.access t 8 a n x bs with
  | .next s' => s'
  | _ => s

/-- A trace record's 32 bytes (R460). -/
def traceBytes (x : List Nat) : List Byte :=
  let g (i : Nat) : Nat := x.getD i 0
  leBytes 8 (g 0) ++ leBytes 4 (g 1 % 2 ^ 10 * 2 ^ 22 + g 2 % 8 * 2 ^ 19 + g 3 % 256 * 2 ^ 11) ++
    leBytes 4 (min 15 (g 4) * 2 ^ 28 + min 15 (g 5) * 2 ^ 24 + min 15 (g 6) * 2 ^ 20 + min 15 (g 7) * 2 ^ 16) ++ leBytes 8 (g 8) ++ leBytes 8 0

/-- MEM_READ of the cascade trace (R460): records no longer held read as zeros, with DEGRADED. -/
def Dev.traceRead (d : Dev) (seq count : Nat) : Dev :=
  let recs := (List.range (count / 32)).map fun i => d.fab.trace.find? fun x => x.getD 8 0 == seq + i
  d.respond (if recs.all Option.isSome then .ok else .degraded) (recs.flatMap fun r => r.elim (List.replicate 32 0) traceBytes)

/-- MEM_READ (R419, R454, R460): COUNT bytes as class 8, or trace records. -/
def execMemRead (t : Nat) (p : UlzilPacket) (s : State) : Host.Outcome State Fault Refusal :=
  let n := beNat (p.payload.take 4)
  let s1 := s.debugAccess t p.addr n .read []
  s.run t fun now d => d.ulzil s.latchClosed now 0x09 1 p [0, 1, 2, 3, 4] 0 (· == 4) true fun d =>
    if n = 0 ∨ 4096 < n then d.respond .badConfig []
    else if p.type = 4 then (if n % 32 = 0 then d.traceRead p.addr n else d.respond .badConfig [])
    else ({ s1.dev with dbg := d.dbg }).accessAnswer now (s.dev.permits s.latchClosed 8 p.addr n .read) n

/-- MEM_WRITE (R419, R454): 1 to 4,096 bytes as class 8. -/
def execMemWrite (t : Nat) (p : UlzilPacket) (s : State) : Host.Outcome State Fault Refusal :=
  let n := p.payload.length
  let s1 := s.debugAccess t p.addr n .write p.payload
  let d2 := s.dev.ulzil s.latchClosed (s.now t) 0x0A 2 p [0, 1, 2, 3] 0 (fun n => decide (1 ≤ n) && decide (n ≤ 4096)) true fun d =>
    ({ s1.dev with dbg := d.dbg }).accessAnswer (s.now t) (s.dev.permits s.latchClosed 8 p.addr n .write) n
  let ran := s.dev.dbg.vref && s.dev.on 167 && s.dev.dbg.work.isNone && ulzilGood p 0x0A && p.gen == 0 && s.dev.dbg.last != some (p.seq, 0x0A, p.crc) && p.flags == 0 &&
    decide (p.type < 4) && (dbgTarget p.type p.index).isSome && decide (1 ≤ n) && decide (n ≤ 4096) && decide (2 ≤ s.dev.levelOf s.latchClosed p.type)
  .next (if ran then { s1 with dt := max s1.dt (s.now t), dev := d2 } else { s with dt := s.now t, dev := d2 })

/-- The width in bytes of a register of a target; none for a number that names none (R455). -/
def dbgWidth (k r : Nat) : Option Nat :=
  if 18 ≤ k ∧ k < 26 then (if 0x2000 ≤ r ∧ r < 0x2040 then some 64 else none)
  else if k = 26 then (if (0x1000 ≤ r ∧ r < 0x1020) ∨ r = 0x1040 then some 4 else none)
  else if r < 0x1000 ∨ (0x1000 ≤ r ∧ r < 0x1040) ∨ r = 0x1040 then some 8
  else if 0x1100 ≤ r ∧ r < 0x1120 then some 32 else none

/-- A core's or the MC's register as the port reads it (R374, R455): x0 is zero, time reads DT, stimecmp is the timer's; one the port has not
seen since the halt holds what the program left there, a free value. -/
def Dev.dbgReg (d : Dev) (now k r w : Nat) : Nat × Dev :=
  if r = 0x1000 then (0, d)
  else if r = 0xC01 ∧ k < 18 then (now, d)
  else if r = 0x14D ∧ k < 16 then (tgetD d.eic.stimecmp k dtMax, d)
  else match tget (d.target k).regs r with
    | some v => (v, d)
    | none =>
      let f := d.fresh
      let v := f.1 % 2 ^ (8 * w)
      (v, f.2.setTarget k { f.2.target k with regs := tset (f.2.target k).regs r v })

/-- The state vector of an engine's slot: its armed law's states (R455). -/
def Dev.lawStates (d : Dev) (n slot : Nat) : Option (List Nat) := ((d.eng n).armed.find? fun a => a.slot == slot).map ArmedLaw.x

/-- REG_READ (R455). -/
def execRegRead (t : Nat) (p : UlzilPacket) (s : State) : Host.Outcome State Fault Refusal :=
  s.run t fun now d => d.ulzil s.latchClosed now 0x0B 1 p [0, 1, 2, 3] 0 (· == 0) true fun d =>
    let k := (dbgTarget p.type p.index).getD 0
    match dbgWidth k p.addr with
    | none => d.respond .badConfig []
    | some w =>
      if (d.target k).halted = false then d.respond .busy []
      else if 18 ≤ k ∧ k < 26 then
        (match d.lawStates (k - 18) (p.addr - 0x2000) with
         | some xs => d.respond .ok ((List.range 16).flatMap fun i => beBytes 4 (xs.getD i 0))
         | none => d.respond .badConfig [])
      else
        let v := d.dbgReg now k p.addr w
        v.2.respond .ok (beBytes w v.1)

/-- REG_WRITE (R455): writes to x0 are discarded; an engine's states take effect at its next tick. -/
def execRegWrite (t : Nat) (p : UlzilPacket) (s : State) : Host.Outcome State Fault Refusal :=
  s.run t fun now d => d.ulzil s.latchClosed now 0x0C 2 p [0, 1, 2, 3] 0 (fun _ => true) true fun d =>
    let k := (dbgTarget p.type p.index).getD 0
    match dbgWidth k p.addr with
    | none => d.respond .badConfig []
    | some w =>
      if p.payload.length ≠ w then d.respond .badConfig []
      else if (d.target k).halted = false then d.respond .busy []
      else if 18 ≤ k ∧ k < 26 then
        (let n := k - 18
         let slot := p.addr - 0x2000
         match d.lawStates n slot with
         | some xs =>
           let ys := (List.range xs.length).map fun i => beNat ((p.payload.drop (4 * i)).take 4)
           (d.modEng n fun e => { e with armed := e.armed.map fun a => if a.slot = slot then { a with x := ys } else a }).respond .ok []
         | none => d.respond .badConfig [])
      else
        let v := beNat p.payload
        let x := d.target k
        if p.addr = 0x1000 ∨ (p.addr = 0xC01 ∧ k < 18) then d.respond .ok []
        else if p.addr = 0x14D ∧ k < 16 then
          ({ d with eic := { d.eic with stimecmp := tset d.eic.stimecmp k v, timer := d.eic.timer.filter (· != 2 * k + 1) } }).respond .ok []
        else (d.setTarget k { x with regs := tset x.regs p.addr v }).respond .ok []

/-- STATUS (R449, R453, the command table): levels in force, the latch, halted targets. -/
def execStatus (t : Nat) (p : UlzilPacket) (s : State) : Host.Outcome State Fault Refusal :=
  s.run t fun now d => d.ulzil s.latchClosed now 0x0D 0 p [5] 0 (· == 0) true fun d =>
    let halted := ((List.range 27).map fun k => if (d.target k).halted then 2 ^ k else 0).sum
    d.respond .ok ((List.range 5).map (fun k => BitVec.ofNat 8 (d.levelOf s.latchClosed k)) ++ beBytes 1 (b2n s.latchClosed) ++ leBytes 2 0 ++ beBytes 4 halted ++ leBytes 4 0)

/-- A target halts at a break- or watchpoint (R457). -/
def Dev.hitPoint (d : Dev) (k : Nat) (pc : Option Nat) : Dev :=
  d.setTarget k { d.target k with halted := true, stepping := false, hitBp := true, regs := match pc with
    | some a => [(0x1040, a)]
    | none => [] }

/-- BREAKPOINT_HIT (R457): target k (0 to 17 cores, 26 the MC) reaches the address of its breakpoint slot; in the cycle of a HALT the target
halts once, at the breakpoint. -/
def execBreakpointHit (t k slot : Nat) (s : State) : Host.Outcome State Fault Refusal :=
  s.run t fun now d => match tget (d.target k).bps slot with
    | some b => if (k < 18 ∨ k = 26) ∧ slot < 8 ∧ ((d.target k).halted = false ∨ (d.target k).haltAt = some now) then d.hitPoint k (some b.addr) else d
    | none => d

/-- WATCHPOINT_HIT (R457): target k loads (kind 1) or stores (kind 2) n bytes at a, which its watchpoint slot covers; it halts after the access. -/
def execWatchpointHit (t k slot kind a n : Nat) (s : State) : Host.Outcome State Fault Refusal :=
  s.run t fun _ d => match tget (d.target k).bps slot with
    | some b =>
      if (k < 18 ∨ k = 26) ∧ 8 ≤ slot ∧ (d.target k).halted = false ∧ (b.kind = kind ∨ (b.kind = 3 ∧ (kind = 1 ∨ kind = 2))) ∧ a < b.addr + b.size ∧ b.addr < a + n then d.hitPoint k none
      else d
    | none => d

/-- ULZIL_BUSY_TIMEOUT (R446): the work of a request has taken so many UDCK cycles. -/
def execUlzilBusyTimeout (t cycles : Nat) (s : State) : Host.Outcome State Fault Refusal :=
  s.run t fun _ d => match d.dbg.work with
    | some w => if 65536 ≤ cycles then (d.setTarget w.1 { d.target w.1 with stepping := false }).respond .busy [] else d
    | none => d

/-- SESSION_TIMEOUT (R450). -/
def execSessionTimeout (t : Nat) (s : State) : Host.Outcome State Fault Refusal :=
  s.run t fun now d => if d.dbg.session ∧ 10000000000 ≤ d.elapsed d.dbg.lastAt now then d.endDebug now else d

/-- UDRST (R443, R450): held low for so many ns; refused responses count since the last cold reset. -/
def execUdrst (t ns : Nat) (s : State) : Host.Outcome State Fault Refusal :=
  s.run t fun now d => if d.on 167 ∧ 1000 ≤ ns then { (d.endDebug now) with dbg := { vref := d.dbg.vref, refused := d.dbg.refused } } else d

/-- PROBE_VREF_CHANGE (R443). -/
def execProbeVrefChange (t : Nat) (present : Bool) (s : State) : Host.Outcome State Fault Refusal :=
  s.run t fun _ d => { d with dbg := { d.dbg with vref := present } }

end Sys2Proof.Machine
end

