-- ==== Sys2Proof/Machine/WaitExpire.lean ====
section
/-! DEFINITION. Waits that expire, by who waits, and the warm standby's takeover of the reference flip (R25, R47, R142). -/

namespace Sys2Proof.Machine

/-- The completed slots of a context's entries to the loop engines, which a standby holds (R142). -/
def Dev.heldFlips (d : Dev) (c : Nat) : List (Nat × Nat) :=
  (d.fab.basins.filter fun b => b.2.ctx == c).flatMap fun b => (b.2.entries.filter fun e => e.2.kind == 7 && e.2.readyQ != []).map fun e => (b.1, e.1)

/-- A held slot is not used: it is free again. -/
def Dev.dropFlip (d : Dev) (now l e : Nat) : Dev :=
  d.modEntry now l e fun y => match y.readyQ with
    | [] => y
    | (slot, _) :: rest => ({ y with readyQ := rest } : SbEntry).giveBack slot

/-- The outcome of a standby's wait for this period: none while it is pending (R142). -/
def Dev.standbyOutcome (d : Dev) (c : Nat) : Option Bool := (d.waitAny (.standby c)).bind fun w => w.2.outcome

/-- A stage of a class-0 context has completed a reference slot (R25, R142): an active part flips it; a standby holds it while its wait is
pending and drops it where the active part delivered. -/
def Dev.ownFlip (d : Dev) (now l e c : Nat) : Dev :=
  if (d.ctx? c).elim true fun x => x.standby != 1 then d.flip now l e
  else if (d.waitOf (.standby c)).isSome then d
  else d.dropFlip now l e

/-- STANDBY_TAKEOVER (R142): the loop engines take the standby's set, and it is active from the next period. -/
def Dev.takeOver (d : Dev) (now c : Nat) : Dev :=
  let d1 := { d with fab := { d.fab with ctxs := tmod d.fab.ctxs c fun x => { x with standby := 2 } } }
  ((d1.heldFlips c).foldl (fun (d : Dev) q => d.flip now q.1 q.2) d1).almMc 0x040 1 now [c]

/-- The reference flip of part p on module m arrives (R142): it decides the wait of the standby for that part. -/
def Dev.remoteFlip (d : Dev) (now m p : Nat) : Dev :=
  let mine := d.fab.cascades.filter fun x => x.2.split.part == p && x.2.split.mods.getD p 4 == m && (d.ctx? x.2.ctx).elim false fun y => y.standby != 0
  mine.foldl (fun (d : Dev) x => match d.waitAny (.standby x.2.ctx) with
    | some w =>
      let k := d.foreignKey now (m * 0x4000 + 0x0400)
      let e := k.2.expire now w.1
      let a := (if e.1 then e.2.takeOver now x.2.ctx else e.2).arrive now w.1 k.1
      if a.1 = Arrival.arrived then (a.2.heldFlips x.2.ctx).foldl (fun (d : Dev) q => d.dropFlip now q.1 q.2) a.2 else a.2
    | none => d) d

/-- REFERENCE_FLIP (R25, R142): l, e: the device-outbound entry whose slot the finished stage completed; with l = 256 × (module + 1) the flip
of part e on that module. -/
def execReferenceFlip (t l e : Nat) (s : State) : Host.Outcome State Fault Refusal :=
  s.run t fun now d =>
    if 256 ≤ l then d.remoteFlip now (l / 256 - 1) e
    else match d.basin? l with
      | some b => if (b.entry e).kind = 7 ∧ d.ctxClass b.ctx = 0 then d.ownFlip now l e b.ctx else d
      | none => d

/-- A command's deadline passed (R234, R362): a queued join ends, a run ends early. -/
def Dev.commandExpired (d : Dev) (now m q : Nat) : Dev :=
  match d.fab.cascades.find? fun e => e.2.run.elim false fun r => r.mbx == m && r.seq == q with
  | some e => (d.dropWait (.command m q)).endRun now e.1 true
  | none => d.joinExpired now m q

/-- What the waiting unit does at EXPIRED. -/
def Dev.waitExpired (d : Dev) (now id : Nat) (w : Wait) : Dev :=
  match w.owner with
  | .rdv cell => d.expireCellWait now cell id
  | .command m q => d.commandExpired now m q
  | .needBy r => d.sluiceExpired now r
  | .stall r => d.stallExpired now r
  | .age m => d.streamExpired now m (d.waitKey id w)
  | .firstLine p => d.camExpired now p id
  | .candidate => d
  | .replan => d.replanExpired now
  | .standby c => d.takeOver now c
  | .vote tx m => d.voteExpired now tx m

/-- WAIT_EXPIRE (R47): wait id commits EXPIRED at the first DT after D + G. -/
def execWaitExpire (t id : Nat) (s : State) : Host.Outcome State Fault Refusal :=
  s.run t fun now d =>
    match tget d.waits id with
    | some w =>
      let e := d.expire now id
      if e.1 then (e.2.waitExpired now id w).settleEnds now else d
    | none => d

end Sys2Proof.Machine
end

