-- ==== Sys2Proof/Machine/Window.lean ====
section
/-! DEFINITION. The end of the far store's retraining window, by a training or by its time limit, and the accesses it held (R70, R73 to R76,
R105). -/

namespace Sys2Proof.Machine

/-- An access that the window held is served (R73, R74). -/
def Dev.farServe (d : Dev) (latch : Bool) (now : Nat) (x : FarAccess) : Dev :=
  match x.link with
  | none => (d.memEffect latch now x.cls x.addr x.len (accOf x.kind) x.data x.ecc).answered now x.cls x.len
  | some (m, tag) =>
    if d.canalOk latch now x.addr x.len (accOf x.kind) then
      (if x.kind = 1 then (d.memWrite x.addr x.data).memAnswer now m tag true [] else d.memAnswer now m tag true (d.memBytes x.addr x.len))
    else { (d.faulted latch now 7 x.addr x.len (accOf x.kind)).memAnswer now m tag false [] with bus := d.bus }

/-- Once the window is closed the accesses it held are served in the order they came. -/
def Dev.farServeAll (d : Dev) (latch : Bool) (now : Nat) : Dev :=
  if d.windowOpen then d
  else d.pbu.farHeld.foldl (fun (d : Dev) x => d.farServe latch now x) { d with pbu := { d.pbu with farHeld := [] } }

/-- RETRAIN_WINDOW_TIMEOUT (R75): training has not completed 2 ms after the boundary. -/
def execRetrainWindowTimeout (t : Nat) (s : State) : Host.Outcome State Fault Refusal :=
  s.run t fun now d => (d.windowTimeout now).farServeAll s.latchClosed now

/-- A training completes in a window that began at b (R73, R75): in its 2 ms it closes the window; later it is none, the window having closed. -/
def Dev.windowTrained (d : Dev) (now b : Nat) (vals : List Nat) : Dev :=
  if now ≤ d.dueAfter b 2000000 then (d.farTrained now d.envelope b false vals).closeWindow now now false else d.windowTimeout now

/-- FAR_STORE_TRAINING (R70, R73, R76): the trained values, one byte each in the order of the KIND 1 payload; for the envelope whose window is
open, at boot for Balanced, else one that answers a recalibration request (log entry 36). -/
def execFarStoreTraining (t : Nat) (vals : List Nat) (s : State) : Host.Outcome State Fault Refusal :=
  s.run t fun now d =>
    match d.pbu.windowFrom with
    | some b => (d.windowTrained now b vals).farServeAll s.latchClosed now
    | none =>
      if s.bootCode ∧ d.on 158 then (let d1 := d.farTrained now 1 now false vals; ({ d1 with pow := { d1.pow with far := true } }).enterBalanced now)
      else if d.pbu.recal ∧ d.stewardRuns ∧ d.on 158 ∧ d.on 159 then d.farTrained now d.envelope now true vals
      else d

end Sys2Proof.Machine
end

