-- ==== Sys2Proof/Machine/Dispatch.lean ====
section
/-! DEFINITION. One arm per command: its meaning on everything but the queue. -/

namespace Sys2Proof.Machine

def exec (i : Instr) (s : State) : Host.Outcome State Fault Refusal :=
  match i with
  | .servoUpdate t c off => Sys2Proof.Machine.execServoUpdate t c off s
  | .holdover t => Sys2Proof.Machine.execHoldover t s
  | .pllLock t => Sys2Proof.Machine.execPllLock t s
  | .frameReceive t p stamp fault data => Sys2Proof.Machine.execFrameReceive t p stamp fault data s
  | .frameTransmit t p q insert stamped data => Sys2Proof.Machine.execFrameTransmit t p q insert stamped data s
  | .gateEntryEnd t p => Sys2Proof.Machine.execGateEntryEnd t p s
  | .preemptionVerify t p => Sys2Proof.Machine.execPreemptionVerify t p s
  | .waitExpire t id => Sys2Proof.Machine.execWaitExpire t id s
  | .cueFire t n => Sys2Proof.Machine.execCueFire t n s
  | .cuePulseEnd t n => Sys2Proof.Machine.execCuePulseEnd t n s
  | .cueArm t c n v => Sys2Proof.Machine.execCueArm t c n v s
  | .cueTimeWrite t c n v => Sys2Proof.Machine.execCueTimeWrite t c n v s
  | .captureEdge t src rising stamp stable => Sys2Proof.Machine.execCaptureEdge t src rising stamp stable s
  | .captureDataRead t c n => Sys2Proof.Machine.execCaptureDataRead t c n s
  | .queueEnterElastic t block q => Sys2Proof.Machine.execQueueEnterElastic t block q s
  | .queueReturnFixed t block q => Sys2Proof.Machine.execQueueReturnFixed t block q s
  | .crossingStale t block n => Sys2Proof.Machine.execCrossingStale t block n s
  | .basinPairReady t pd => Sys2Proof.Machine.execBasinPairReady t pd s
  | .periodStart t avg => Sys2Proof.Machine.execPeriodStart t avg s
  | .pbuMissedPeriod t avg => Sys2Proof.Machine.execPbuMissedPeriod t avg s
  | .farStoreTraining t vals => Sys2Proof.Machine.execFarStoreTraining t vals s
  | .retrainWindowTimeout t => Sys2Proof.Machine.execRetrainWindowTimeout t s
  | .forcedStep t => Sys2Proof.Machine.execForcedStep t s
  | .powerLimitBroken t avg overMs => Sys2Proof.Machine.execPowerLimitBroken t avg overMs s
  | .stageDispatch t l => Sys2Proof.Machine.execStageDispatch t l s
  | .load t l st row0 => Sys2Proof.Machine.execLoad t l st row0 s
  | .matrix t l st op => Sys2Proof.Machine.execMatrix t l st op s
  | .vector t l st => Sys2Proof.Machine.execVector t l st s
  | .reduce t l st last => Sys2Proof.Machine.execReduce t l st last s
  | .normalise t l st op => Sys2Proof.Machine.execNormalise t l st op s
  | .convert t l st => Sys2Proof.Machine.execConvert t l st s
  | .store t l st => Sys2Proof.Machine.execStore t l st s
  | .forward t l st n => Sys2Proof.Machine.execForward t l st n s
  | .tileEnd t l st cycles stalls => Sys2Proof.Machine.execTileEnd t l st cycles stalls s
  | .contextSwitchDone t region => Sys2Proof.Machine.execContextSwitchDone t region s
  | .flitDeliver t src dst entry => Sys2Proof.Machine.execFlitDeliver t src dst entry s
  | .creditReturn t l e => Sys2Proof.Machine.execCreditReturn t l e s
  | .basinStoreUncorrectable t l a => Sys2Proof.Machine.execBasinStoreUncorrectable t l a s
  | .deadlockWatchdog t c => Sys2Proof.Machine.execDeadlockWatchdog t c s
  | .holdLimitExpire t => Sys2Proof.Machine.execHoldLimitExpire t s
  | .calibrationRunDone t => Sys2Proof.Machine.execCalibrationRunDone t s
  | .acquire t via cell arg rsvd => Sys2Proof.Machine.execAcquire t via cell arg rsvd s
  | .tryAcquire t via cell arg rsvd => Sys2Proof.Machine.execTryAcquire t via cell arg rsvd s
  | .cellRelease t via cell arg rsvd => Sys2Proof.Machine.execCellRelease t via cell arg rsvd s
  | .arrive t via cell arg rsvd => Sys2Proof.Machine.execArrive t via cell arg rsvd s
  | .arriveWait t via cell arg rsvd => Sys2Proof.Machine.execArriveWait t via cell arg rsvd s
  | .flagSet t via cell arg rsvd => Sys2Proof.Machine.execFlagSet t via cell arg rsvd s
  | .flagClear t via cell arg rsvd => Sys2Proof.Machine.execFlagClear t via cell arg rsvd s
  | .waitAny t via cell arg rsvd => Sys2Proof.Machine.execWaitAny t via cell arg rsvd s
  | .waitAll t via cell arg rsvd => Sys2Proof.Machine.execWaitAll t via cell arg rsvd s
  | .read t via cell arg rsvd => Sys2Proof.Machine.execRead t via cell arg rsvd s
  | .rdvResultRead t c n => Sys2Proof.Machine.execRdvResultRead t c n s
  | .moveCommit t r => Sys2Proof.Machine.execMoveCommit t r s
  | .descriptorStart t eng => Sys2Proof.Machine.execDescriptorStart t eng s
  | .tileLand t eng n => Sys2Proof.Machine.execTileLand t eng n s
  | .requestComplete t r => Sys2Proof.Machine.execRequestComplete t r s
  | .partFail t eng why => Sys2Proof.Machine.execPartFail t eng why s
  | .partTimeout t eng lastByte => Sys2Proof.Machine.execPartTimeout t eng lastByte s
  | .patrolScrub t n ce ue => Sys2Proof.Machine.execPatrolScrub t n ce ue s
  | .stepBoundary t => Sys2Proof.Machine.execStepBoundary t s
  | .lineReceive t n dtype vc stamp fault px => Sys2Proof.Machine.execLineReceive t n dtype vc stamp fault px s
  | .frameStart t n => Sys2Proof.Machine.execFrameStart t n s
  | .frameEnd t n => Sys2Proof.Machine.execFrameEnd t n s
  | .camStrobeEdge t n stamp => Sys2Proof.Machine.execCamStrobeEdge t n stamp s
  | .bufferRelease t c n v => Sys2Proof.Machine.execBufferRelease t c n v s
  | .cameraEnable t c n v => Sys2Proof.Machine.execCameraEnable t c n v s
  | .sampleArrive t kind source stamp cnt unc bound raw => Sys2Proof.Machine.execSampleArrive t kind source stamp cnt unc bound raw s
  | .samplePost t c p idx => Sys2Proof.Machine.execSamplePost t c p idx s
  | .cutoff t => Sys2Proof.Machine.execCutoff t s
  | .fusedRecordPublish t => Sys2Proof.Machine.execFusedRecordPublish t s
  | .estimatorTimeout t => Sys2Proof.Machine.execEstimatorTimeout t s
  | .amendment t => Sys2Proof.Machine.execAmendment t s
  | .ladderRise t => Sys2Proof.Machine.execLadderRise t s
  | .gridWriteDone t => Sys2Proof.Machine.execGridWriteDone t s
  | .wavefrontRunEnd t => Sys2Proof.Machine.execWavefrontRunEnd t s
  | .checkBatchStart t stamp => Sys2Proof.Machine.execCheckBatchStart t stamp s
  | .checkPassEnd t => Sys2Proof.Machine.execCheckPassEnd t s
  | .sweepComplete t => Sys2Proof.Machine.execSweepComplete t s
  | .loopTick t n => Sys2Proof.Machine.execLoopTick t n s
  | .commandFrameQueue t n => Sys2Proof.Machine.execCommandFrameQueue t n s
  | .referenceFlip t l e => Sys2Proof.Machine.execReferenceFlip t l e s
  | .injectionEnd t n => Sys2Proof.Machine.execInjectionEnd t n s
  | .captureEnd t n => Sys2Proof.Machine.execCaptureEnd t n s
  | .doorbell t c m v => Sys2Proof.Machine.execDoorbell t c m v s
  | .requestTake t m => Sys2Proof.Machine.execRequestTake t m s
  | .hello t m seq => Sys2Proof.Machine.execHello t m seq s
  | .bye t m seq => Sys2Proof.Machine.execBye t m seq s
  | .ctxOpen t m seq => Sys2Proof.Machine.execCtxOpen t m seq s
  | .ctxClose t m seq => Sys2Proof.Machine.execCtxClose t m seq s
  | .ctxShares t m seq => Sys2Proof.Machine.execCtxShares t m seq s
  | .cascadeLoad t m seq => Sys2Proof.Machine.execCascadeLoad t m seq s
  | .cascadeBind t m seq => Sys2Proof.Machine.execCascadeBind t m seq s
  | .cascadeRun t m seq => Sys2Proof.Machine.execCascadeRun t m seq s
  | .cascadeUnload t m seq => Sys2Proof.Machine.execCascadeUnload t m seq s
  | .objCreate t m seq => Sys2Proof.Machine.execObjCreate t m seq s
  | .objCreateCell t m seq => Sys2Proof.Machine.execObjCreateCell t m seq s
  | .objCreateKvPool t m seq => Sys2Proof.Machine.execObjCreateKvPool t m seq s
  | .objDelete t m seq => Sys2Proof.Machine.execObjDelete t m seq s
  | .objPlace t m seq => Sys2Proof.Machine.execObjPlace t m seq s
  | .objPin t m seq => Sys2Proof.Machine.execObjPin t m seq s
  | .objPinRelease t m seq => Sys2Proof.Machine.execObjPinRelease t m seq s
  | .objEvict t m seq => Sys2Proof.Machine.execObjEvict t m seq s
  | .seqJoin t m seq => Sys2Proof.Machine.execSeqJoin t m seq s
  | .seqLeave t m seq => Sys2Proof.Machine.execSeqLeave t m seq s
  | .seqStep t m seq => Sys2Proof.Machine.execSeqStep t m seq s
  | .budgetSet t m seq => Sys2Proof.Machine.execBudgetSet t m seq s
  | .modeSet t m seq => Sys2Proof.Machine.execModeSet t m seq s
  | .profileSet t m seq => Sys2Proof.Machine.execProfileSet t m seq s
  | .claim t m seq => Sys2Proof.Machine.execClaim t m seq s
  | .release t m seq => Sys2Proof.Machine.execRelease t m seq s
  | .configSet t m seq => Sys2Proof.Machine.execConfigSet t m seq s
  | .cueSet t m seq => Sys2Proof.Machine.execCueSet t m seq s
  | .captureSet t m seq => Sys2Proof.Machine.execCaptureSet t m seq s
  | .fuseConfig t m seq => Sys2Proof.Machine.execFuseConfig t m seq s
  | .fuseSubscribe t m seq => Sys2Proof.Machine.execFuseSubscribe t m seq s
  | .planGrid t m seq => Sys2Proof.Machine.execPlanGrid t m seq s
  | .planRoadmap t m seq => Sys2Proof.Machine.execPlanRoadmap t m seq s
  | .edgeDisable t m seq => Sys2Proof.Machine.execEdgeDisable t m seq s
  | .edgeEnable t m seq => Sys2Proof.Machine.execEdgeEnable t m seq s
  | .planRun t m seq => Sys2Proof.Machine.execPlanRun t m seq s
  | .planRunRepeat t m seq => Sys2Proof.Machine.execPlanRunRepeat t m seq s
  | .planSweep t m seq => Sys2Proof.Machine.execPlanSweep t m seq s
  | .planWave t m seq => Sys2Proof.Machine.execPlanWave t m seq s
  | .planRunStop t m seq => Sys2Proof.Machine.execPlanRunStop t m seq s
  | .lawLoad t m seq => Sys2Proof.Machine.execLawLoad t m seq s
  | .lawArm t m seq => Sys2Proof.Machine.execLawArm t m seq s
  | .lawDisarm t m seq => Sys2Proof.Machine.execLawDisarm t m seq s
  | .lawHold t m seq => Sys2Proof.Machine.execLawHold t m seq s
  | .lawResume t m seq => Sys2Proof.Machine.execLawResume t m seq s
  | .lawSwap t m seq => Sys2Proof.Machine.execLawSwap t m seq s
  | .lawHandover t m seq => Sys2Proof.Machine.execLawHandover t m seq s
  | .lawInject t m seq => Sys2Proof.Machine.execLawInject t m seq s
  | .lawCapture t m seq => Sys2Proof.Machine.execLawCapture t m seq s
  | .storeSafe t m seq mv => Sys2Proof.Machine.execStoreSafe t m seq mv s
  | .safeStorePartStart t m seq mv => Sys2Proof.Machine.execSafeStorePartStart t m seq mv s
  | .safeStorePartCommit t m seq => Sys2Proof.Machine.execSafeStorePartCommit t m seq s
  | .temp t m seq v lo hi => Sys2Proof.Machine.execTemp t m seq v lo hi s
  | .rail t m seq v a => Sys2Proof.Machine.execRail t m seq v a s
  | .humidity t m seq rh margin => Sys2Proof.Machine.execHumidity t m seq rh margin s
  | .shock t m seq => Sys2Proof.Machine.execShock t m seq s
  | .holdup t m seq mv => Sys2Proof.Machine.execHoldup t m seq mv s
  | .input t m seq vin iin avg => Sys2Proof.Machine.execInput t m seq vin iin avg s
  | .measure t m seq => Sys2Proof.Machine.execMeasure t m seq s
  | .attest t m seq => Sys2Proof.Machine.execAttest t m seq s
  | .counter t m seq => Sys2Proof.Machine.execCounter t m seq s
  | .counterAdvance t m seq => Sys2Proof.Machine.execCounterAdvance t m seq s
  | .updateStage t m seq => Sys2Proof.Machine.execUpdateStage t m seq s
  | .stagingDone t kind => Sys2Proof.Machine.execStagingDone t kind s
  | .updateActivate t m seq => Sys2Proof.Machine.execUpdateActivate t m seq s
  | .updateConfirm t m seq => Sys2Proof.Machine.execUpdateConfirm t m seq s
  | .updateStatus t m seq => Sys2Proof.Machine.execUpdateStatus t m seq s
  | .almanac t m seq => Sys2Proof.Machine.execAlmanac t m seq s
  | .reset t m seq => Sys2Proof.Machine.execReset t m seq s
  | .mcLog t m seq => Sys2Proof.Machine.execMcLog t m seq s
  | .mcLogRead t m seq => Sys2Proof.Machine.execMcLogRead t m seq s
  | .eicClaim t c tgt => Sys2Proof.Machine.execEicClaim t c tgt s
  | .eicComplete t c tgt src => Sys2Proof.Machine.execEicComplete t c tgt src s
  | .gpioEdge t line level samples => Sys2Proof.Machine.execGpioEdge t line level samples s
  | .timerInterrupt t tgt => Sys2Proof.Machine.execTimerInterrupt t tgt s
  | .wfi t core => Sys2Proof.Machine.execWfi t core s
  | .coreWake t core => Sys2Proof.Machine.execCoreWake t core s
  | .canFrameReceive t n fmt id stamp bad data => Sys2Proof.Machine.execCanFrameReceive t n fmt id stamp bad data s
  | .spiDataReady t n rising stamp => Sys2Proof.Machine.execSpiDataReady t n rising stamp s
  | .spiGo t c n slot v => Sys2Proof.Machine.execSpiGo t c n slot v s
  | .spiTransactionEnd t n rd => Sys2Proof.Machine.execSpiTransactionEnd t n rd s
  | .tdmBlock t n stamp data => Sys2Proof.Machine.execTdmBlock t n stamp data s
  | .safeStopChange t k a b heldUs => Sys2Proof.Machine.execSafeStopChange t k a b heldUs s
  | .safeStopDiscrepancy t k => Sys2Proof.Machine.execSafeStopDiscrepancy t k s
  | .data t f srcBasin basin entry srcEntry index last key data => Sys2Proof.Machine.execData t f srcBasin basin entry srcEntry index last key data s
  | .credit t f basin entry consumer count v0 v1 => Sys2Proof.Machine.execCredit t f basin entry consumer count v0 v1 s
  | .memRd t f tag addr len => Sys2Proof.Machine.execMemRd t f tag addr len s
  | .memWr t f tag addr data => Sys2Proof.Machine.execMemWr t f tag addr data s
  | .memCpl t f tag status data => Sys2Proof.Machine.execMemCpl t f tag status data s
  | .ack t port seq => Sys2Proof.Machine.execAck t port seq s
  | .nak t port seq => Sys2Proof.Machine.execNak t port seq s
  | .ptp t f data => Sys2Proof.Machine.execPtp t f data s
  | .prepare t f key kind subject arg => Sys2Proof.Machine.execPrepare t f key kind subject arg s
  | .vote t f key status castAt => Sys2Proof.Machine.execVote t f key status castAt s
  | .decide t f key commit => Sys2Proof.Machine.execDecide t f key commit s
  | .query t f key => Sys2Proof.Machine.execQuery t f key s
  | .done t f key => Sys2Proof.Machine.execDone t f key s
  | .decideTimeout t key => Sys2Proof.Machine.execDecideTimeout t key s
  | .canalRetrain t port lanes => Sys2Proof.Machine.execCanalRetrain t port lanes s
  | .creditTimeout t port => Sys2Proof.Machine.execCreditTimeout t port s
  | .mcStart t ns mv => Sys2Proof.Machine.execMcStart t ns mv s
  | .earlyDomainRelease t vin mv module => Sys2Proof.Machine.execEarlyDomainRelease t vin mv module s
  | .mainPowerGood t => Sys2Proof.Machine.execMainPowerGood t s
  | .basinSelfTest t fails => Sys2Proof.Machine.execBasinSelfTest t fails s
  | .basinFail t phys => Sys2Proof.Machine.execBasinFail t phys s
  | .nearStoreTraining t => Sys2Proof.Machine.execNearStoreTraining t s
  | .bootLatchClose t c v => Sys2Proof.Machine.execBootLatchClose t c v s
  | .coreRelease t => Sys2Proof.Machine.execCoreRelease t s
  | .pmapGrant t c v => Sys2Proof.Machine.execPmapGrant t c v s
  | .pmapViolRead t c => Sys2Proof.Machine.execPmapViolRead t c s
  | .udsRead t c => Sys2Proof.Machine.execUdsRead t c s
  | .memoryAccess t c kind a n data ecc => Sys2Proof.Machine.execMemoryAccess t c kind a n data ecc s
  | .registerWrite t c a n v => Sys2Proof.Machine.execRegisterWrite t c a n v s
  | .resetIn t us => Sys2Proof.Machine.execResetIn t us s
  | .coldReset t => Sys2Proof.Machine.execColdReset t s
  | .mainDomainReset t => Sys2Proof.Machine.execMainDomainReset t s
  | .mcRestart t watchdog => Sys2Proof.Machine.execMcRestart t watchdog s
  | .heartbeat t => Sys2Proof.Machine.execHeartbeat t s
  | .stewardStopped t => Sys2Proof.Machine.execStewardStopped t s
  | .mcThresholdCrossing t kind idx v => Sys2Proof.Machine.execMcThresholdCrossing t kind idx v s
  | .shockImpact t g => Sys2Proof.Machine.execShockImpact t g s
  | .fallDetect t g ms => Sys2Proof.Machine.execFallDetect t g ms s
  | .shockStopEnd t => Sys2Proof.Machine.execShockStopEnd t s
  | .holdupFault t mv ms => Sys2Proof.Machine.execHoldupFault t mv ms s
  | .almanacWrite t => Sys2Proof.Machine.execAlmanacWrite t s
  | .checkpoint t => Sys2Proof.Machine.execCheckpoint t s
  | .vinLowStep t vin ms => Sys2Proof.Machine.execVinLowStep t vin ms s
  | .vinBelowRange t vin us => Sys2Proof.Machine.execVinBelowRange t vin us s
  | .vinRecover t vin ms => Sys2Proof.Machine.execVinRecover t vin ms s
  | .inputLoss t vin us => Sys2Proof.Machine.execInputLoss t vin us s
  | .processorOff t => Sys2Proof.Machine.execProcessorOff t s
  | .inputReturn t vin ms => Sys2Proof.Machine.execInputReturn t vin ms s
  | .mcOff t mv => Sys2Proof.Machine.execMcOff t mv s
  | .overtempStep t v ms => Sys2Proof.Machine.execOvertempStep t v ms s
  | .overtempStop t v => Sys2Proof.Machine.execOvertempStop t v s
  | .overtempClear t v ms => Sys2Proof.Machine.execOvertempClear t v ms s
  | .overtempShutdown t v => Sys2Proof.Machine.execOvertempShutdown t v s
  | .attach t p => Sys2Proof.Machine.execAttach t p s
  | .attachRelease t p => Sys2Proof.Machine.execAttachRelease t p s
  | .authChallenge t p => Sys2Proof.Machine.execAuthChallenge t p s
  | .authResponse t p => Sys2Proof.Machine.execAuthResponse t p s
  | .halt t p => Sys2Proof.Machine.execHalt t p s
  | .resume t p => Sys2Proof.Machine.execResume t p s
  | .step t p => Sys2Proof.Machine.execStep t p s
  | .bpSet t p => Sys2Proof.Machine.execBpSet t p s
  | .bpClear t p => Sys2Proof.Machine.execBpClear t p s
  | .memRead t p => Sys2Proof.Machine.execMemRead t p s
  | .memWrite t p => Sys2Proof.Machine.execMemWrite t p s
  | .regRead t p => Sys2Proof.Machine.execRegRead t p s
  | .regWrite t p => Sys2Proof.Machine.execRegWrite t p s
  | .status t p => Sys2Proof.Machine.execStatus t p s
  | .breakpointHit t k slot => Sys2Proof.Machine.execBreakpointHit t k slot s
  | .watchpointHit t k slot kind a n => Sys2Proof.Machine.execWatchpointHit t k slot kind a n s
  | .ulzilBusyTimeout t cycles => Sys2Proof.Machine.execUlzilBusyTimeout t cycles s
  | .sessionTimeout t => Sys2Proof.Machine.execSessionTimeout t s
  | .udrst t ns => Sys2Proof.Machine.execUdrst t ns s
  | .linkChange t p up => Sys2Proof.Machine.execLinkChange t p up s
  | .canalPortTraining t port lanes peer ring => Sys2Proof.Machine.execCanalPortTraining t port lanes peer ring s
  | .dynamicSignalEdge t => Sys2Proof.Machine.execDynamicSignalEdge t s
  | .gpioGlitch t line samples => Sys2Proof.Machine.execGpioGlitch t line samples s
  | .ptmRequest t => Sys2Proof.Machine.execPtmRequest t s
  | .syncInterval t p msg q delay data => Sys2Proof.Machine.execSyncInterval t p msg q delay data s
  | .probeVrefChange t present => Sys2Proof.Machine.execProbeVrefChange t present s
  | .rechargeWaitTimeout t m seq => Sys2Proof.Machine.execRechargeWaitTimeout t m seq s
  | .mcQueryTimeout t m seq => Sys2Proof.Machine.execMcQueryTimeout t m seq s

end Sys2Proof.Machine
end

