-- ==== Sys2Proof/Safety.lean ====
section
/-! DEFINITION. The terms of the statements: what a step answers, when a request or a register access is served, what a completion is. -/

namespace Sys2Proof.Machine

/-- A step that stops neither with a fault nor with a refusal. -/
def Runs (s : State) : Prop := ∃ s', step s = .next s'

/-- A command answers a next state of which P holds. -/
def Answers (i : Instr) (s : State) (P : State → Prop) : Prop := ∃ s', exec i s = .next s' ∧ P s'

/-- Device time and its fraction fit their counters (R11, R29), the count of ignored writes fits its field and is 0 while the latch is open (R420). -/
def State.inRange (s : State) : Prop :=
  s.dt ≤ dtMax ∧ s.frac < 2 ^ 32 ∧ s.ignored ≤ 65535 ∧ (s.latchClosed = false → s.ignored = 0)

/-- The steward may decide request SEQ seq of mailbox m now, and it is r, of a code (R349, R353). -/
def ready (s : State) (t m seq code : Nat) (r : Req) : Bool :=
  s.dev.req? m seq == some r && r.mbx == m && r.seq == seq && r.code == code && s.dev.stewardRuns && s.dev.mayDecide (s.now t) r

/-- An access of an initiator class to a register reaches it: the protection map permits it and its power domains are on (R5, R67, R419). -/
def hits (s : State) (t c : Nat) (r : Reg) (x : Acc) : Bool := s.dev.reaches s.latchClosed (s.now t) c r.addr r.bytes x

/-- Among the completions written from one device to the next is that of a request: its mailbox, code, TAG and context, a status, a DETAIL and result bytes (R347, R349). -/
def wrote (old new : Dev) (r : Req) (status detail : Nat) (result : List Byte) : Prop :=
  ∃ later earlier c, new.stew.cpls = later ++ c :: earlier ++ old.stew.cpls ∧ c.mbx = r.mbx ∧ c.code = r.code ∧ c.tag = r.tag ∧ c.ctx = r.ctx ∧ c.status = status ∧ c.detail = detail ∧ c.result = result

/-- A request is no longer in flight. -/
def gone (d : Dev) (r : Req) : Prop := d.req? r.mbx r.seq = none

/-- Memory outside the completion ring of a mailbox is as before (R344). -/
def ringKept (old new : Dev) (m : Nat) : Prop := ∀ a, (a < old.ring m + 0x4000 ∨ old.ring m + 0x8000 ≤ a) → new.mem.get a = old.mem.get a

/-- A request is served: it leaves the commands in flight and its completion is written with a status, which carries DEGRADED in place of OK inside a retraining window (R74,
R347). -/
def served (old new : Dev) (r : Req) (st : Status) (detail : Nat) (result : List Byte) : Prop :=
  gone new r ∧ wrote old new r (new.windowStatus r.ctx st).code detail result

/-- A request waits, decided, for the event that completes it. -/
def awaits (d : Dev) (m seq : Nat) : Prop := ∃ x, d.req? m seq = some x ∧ x.decided = true

/-- A row of the command set: the command that carries it out, its code, the form of request it is for and its checks (R352, R360). -/
structure Row where
  instr : Instr
  code : Nat
  form : Req → Bool
  check : Req → Option Fail

/-- The rows whose checks a state decides as they stand.  mv: a bank voltage; v, lo, hi: readings. -/
def stewardRows (s : State) (t m seq mv : Nat) (v lo hi : F32) : List Row :=
  let d := s.dev
  let now := s.now t
  let any : Req → Bool := fun _ => true
  let mc (i : Instr) (item : Nat) (admin : Bool) (ok : Nat → Bool) : Row := ⟨i, 0x0C01, fun r => r.mcItem == item && d.mcAnswers item && d.updateTurn r, fun r => d.mcFail r admin (ok r.mcIndex) none⟩
  [⟨.hello t m seq, 0x0001, any, d.helloCheck m⟩, ⟨.bye t m seq, 0x0002, any, d.byeCheck⟩, ⟨.ctxOpen t m seq, 0x0101, any, d.ctxOpenCheck m⟩,
   ⟨.ctxClose t m seq, 0x0102, any, d.ctxCloseCheck⟩, ⟨.ctxShares t m seq, 0x0103, any, d.ctxSharesCheck m⟩, ⟨.cascadeLoad t m seq, 0x0201, any, d.cascadeLoadCheck⟩,
   ⟨.cascadeBind t m seq, 0x0202, any, d.cascadeBindCheck now⟩, ⟨.cascadeRun t m seq, 0x0203, any, d.cascadeRunCheck⟩, ⟨.cascadeUnload t m seq, 0x0204, any, d.cascadeUnloadCheck⟩,
   ⟨.objCreate t m seq, 0x0301, fun r => !r.flag 0 && decide (r.kind4 < 2), d.objCreateCheck⟩, ⟨.objCreateCell t m seq, 0x0301, fun r => !r.flag 0 && r.kind4 == 2, d.objCreateCellCheck⟩,
   ⟨.objCreateKvPool t m seq, 0x0301, fun r => !r.flag 0 && r.kind4 == 3, d.objCreateKvPoolCheck⟩, ⟨.objDelete t m seq, 0x0301, fun r => r.flag 0 && decide (r.kind4 < 4), d.objDeleteCheck⟩,
   ⟨.objPlace t m seq, 0x0302, any, d.objPlaceCheck⟩, ⟨.objPin t m seq, 0x0303, fun r => !r.flag 0, d.objPinCheck⟩, ⟨.objPinRelease t m seq, 0x0303, fun r => r.flag 0, d.objPinReleaseCheck⟩,
   ⟨.objEvict t m seq, 0x0304, any, d.objEvictCheck⟩, ⟨.seqJoin t m seq, 0x0401, any, d.seqJoinCheck⟩, ⟨.seqLeave t m seq, 0x0402, any, d.seqLeaveCheck⟩,
   ⟨.seqStep t m seq, 0x0403, any, d.seqStepCheck⟩, ⟨.budgetSet t m seq, 0x0501, any, d.budgetFail⟩, ⟨.modeSet t m seq, 0x0502, any, d.modeSetCheck now⟩,
   ⟨.profileSet t m seq, 0x0503, any, d.profileSetCheck⟩, ⟨.claim t m seq, 0x0601, any, d.claimCmdCheck⟩, ⟨.release t m seq, 0x0602, any, d.releaseCheck⟩,
   ⟨.configSet t m seq, 0x0603, any, d.configSetCheck now m⟩, ⟨.cueSet t m seq, 0x0701, any, d.cueSetCheck⟩, ⟨.captureSet t m seq, 0x0702, any, d.captureSetCheck⟩,
   ⟨.fuseConfig t m seq, 0x0801, any, d.fuseConfigCheck⟩, ⟨.fuseSubscribe t m seq, 0x0802, any, d.fuseSubscribeCheck⟩, ⟨.planGrid t m seq, 0x0901, any, d.planGridCheck⟩,
   ⟨.planRoadmap t m seq, 0x0902, fun r => r.flags &&& 511 == 0, d.planRoadmapCheck⟩,
   ⟨.edgeDisable t m seq, 0x0902, fun r => r.flags &&& 511 == 1, d.edgeCheck⟩, ⟨.edgeEnable t m seq, 0x0902, fun r => r.flags &&& 511 == 2, d.edgeCheck⟩, ⟨.planRun t m seq, 0x0903, fun r => r.flags &&& 511 == 0, d.planRunCheck⟩,
   ⟨.planRunRepeat t m seq, 0x0903, fun r => r.flags &&& 511 == 1 || r.flags &&& 511 == 5, d.planRepeatCheck⟩, ⟨.planSweep t m seq, 0x0903, fun r => r.flags &&& 511 == 2, d.planSweepCheck⟩,
   ⟨.planWave t m seq, 0x0903, fun r => r.flags &&& 511 == 4, d.planWaveCheck⟩, ⟨.planRunStop t m seq, 0x0903, fun r => r.flags &&& 511 == 8, d.planStopCheck⟩,
   ⟨.lawLoad t m seq, 0x0A01, any, d.lawLoadCheck⟩, ⟨.lawArm t m seq, 0x0A02, fun r => r.flags &&& 511 == 1, d.lawArmCheck now⟩,
   ⟨.lawDisarm t m seq, 0x0A02, fun r => r.flags &&& 511 == 2, d.lawDisarmCheck⟩, ⟨.lawHold t m seq, 0x0A02, fun r => r.flags &&& 511 == 4, d.lawHoldCheck⟩,
   ⟨.lawResume t m seq, 0x0A02, fun r => r.flags &&& 511 == 8, d.lawResumeCheck now⟩, ⟨.lawSwap t m seq, 0x0A02, fun r => r.flags &&& 511 == 16, d.lawSwapCheck now⟩,
   ⟨.lawHandover t m seq, 0x0A02, fun r => r.flags &&& 511 == 32, d.lawHandoverCheck now⟩, ⟨.lawInject t m seq, 0x0A03, any, d.lawInjectCheck⟩,
   ⟨.lawCapture t m seq, 0x0A04, any, d.lawCaptureCheck⟩, ⟨.storeSafe t m seq mv, 0x0B01, fun _ => d.mc.running && !d.mcHalted && d.on 168, d.storeFail mv⟩,
   mc (.temp t m seq v lo hi) 0x0001 false (fun i => decide (i < 32)), mc (.rail t m seq v lo) 0x0002 false (fun i => decide (i < 40)), mc (.humidity t m seq v lo) 0x0003 false (· == 0),
   mc (.shock t m seq) 0x0004 false (· == 0), mc (.holdup t m seq mv) 0x0005 false (· == 0), mc (.input t m seq v lo hi) 0x0006 false (· == 0), mc (.measure t m seq) 0x0010 false (· == 0),
   mc (.counter t m seq) 0x0020 false (fun i => decide (i < 64)), mc (.updateStatus t m seq) 0x0033 false (fun i => decide (i < 5)), mc (.almanac t m seq) 0x0040 false (· == 0),
   mc (.reset t m seq) 0x0050 true (fun i => decide (i < 2)), ⟨.mcLog t m seq, 0x0C02, fun r => !r.flag 0 && !d.mcHalted && !d.mc.romOnly, d.mcLogCheck⟩]

/-- The ten operations on a cell by the number of their OP code (R108). -/
def cellInstr (op t : Nat) (via : CellVia) (cell arg rsvd : Nat) : Instr :=
  match op with
  | 1 => .acquire t via cell arg rsvd
  | 2 => .tryAcquire t via cell arg rsvd
  | 3 => .cellRelease t via cell arg rsvd
  | 4 => .arrive t via cell arg rsvd
  | 5 => .arriveWait t via cell arg rsvd
  | 6 => .flagSet t via cell arg rsvd
  | 7 => .flagClear t via cell arg rsvd
  | 8 => .waitAny t via cell arg rsvd
  | 9 => .waitAll t via cell arg rsvd
  | _ => .read t via cell arg rsvd

/-- The context that operates a cell: of a claimed port that reaches its register and has no operation pending, or of a running stage (R108, R110). -/
def viaCtx (s : State) (t : Nat) : CellVia → Option Nat
  | .port c n => if n < 64 ∧ hits s t c (r1 .rdvPortOp n) .write = true ∧ s.dev.f (r1 .rdvPortRes n) F.rdvPortRes.STATE ≠ 1 then s.dev.portCtx n else none
  | .stage c _ => if s.dev.ctxState c = 2 ∧ s.dev.on 154 = true then some c else none

/-- Context ctx operates the usable cell x (R107): it may, and the cell is not BROKEN. -/
def uses (s : State) (t : Nat) (via : CellVia) (ctx cell : Nat) (x : Cell) : Prop :=
  viaCtx s t via = some ctx ∧ cell < 2 ^ 17 ∧ tget s.dev.cells cell = some x ∧ s.dev.mayOperate x ctx = true ∧ x.broken = false

/-- A context may wait on a cell: one of class 0 only where the cell's owner is of class 0 or 1 (R107). -/
def waitsOk (s : State) (ctx : Nat) (x : Cell) : Prop := s.dev.ctxClass ctx ≠ 0 ∨ s.dev.ctxClass x.owner < 2

/-- An operation has completed with a status and a value: in the port's result register, or for the stage (R108, R110); inside a retraining window
with DEGRADED in place of OK for a context of class 2 to 15 (R74). -/
def cellAnswer (d : Dev) (via : CellVia) (st : Status) (value : Nat) : Prop :=
  match via with
  | .port _ n => d.f (r1 .rdvPortRes n) F.rdvPortRes.STATUS = ((d.portCtx n).elim st fun c => d.windowStatus c st).code ∧ d.f (r1 .rdvPortRes n) F.rdvPortRes.VALUE = value ∧ d.f (r1 .rdvPortRes n) F.rdvPortRes.STATE = 2
  | .stage c _ => tget d.cellRes c = some ((d.windowStatus c st).code, value)

/-- An operation waits in a cell's queue (R109). -/
def waitsIn (d : Dev) (cell ctx op : Nat) : Prop := ∃ x w, tget d.cells cell = some x ∧ w ∈ x.waiters ∧ w.ctx = ctx ∧ w.op = op

/-- The other cells and all of memory are as before. -/
def otherCellsKept (old new : Dev) (cell : Nat) : Prop := (∀ k, k ≠ cell → tget new.cells k = tget old.cells k) ∧ ∀ a, new.mem.get a = old.mem.get a

/-- Stage st of basin l has done its operation: it stays running, now worked, in a basin of the same context and entries (R128). -/
def stageWorked (new : Dev) (l st : Nat) (b : Basin) (r : Running) (post : Bool) : Prop :=
  ∃ b', new.basin? l = some b' ∧ tget b'.running st = some { r with worked := true, post := post } ∧ b'.entries = b.entries ∧ b'.ctx = b.ctx ∧ b'.stages = b.stages

/-- No move of the page table waits for a place in an engine's queue (R191, R233). -/
def noneWaits (d : Dev) (eng : Nat) : Prop := ∀ e ∈ d.partsOn eng .held, ∀ slot m items, d.purposeOf e.1 ≠ some (.kv slot m items)

/-- The tile or units that a landing moves on an engine's running part (R186, R190). -/
def landUnits (d : Dev) (r : Nat) (p : Part) (n : Nat) : Nat :=
  if p.desc.op = 0 ∨ (d.kvItem r p).isSome then 1 else min (max 1 n) (p.desc.count - p.pos)

/-- All of a planner engine's near-store traffic, of n bytes in all, can be issued: class 3 is not gated and has as much left (R84, R85). -/
def issuesAll (d : Dev) (e n : Nat) : Prop := d.gated 3 4 = false ∧ n ≤ tgetD d.plan.issued e 0 + d.issuable 3 4

/-- Some engine of the sluice has room for a part (R191). -/
def engineRoom (d : Dev) : Prop := ∃ n, n < 12 ∧ (d.partsOn n .queued).length < 64

/-- An address outside the planes that n elements of a tile and its scales take. -/
def outsideTile (x : Tile) (n a : Nat) : Prop :=
  (a < x.addr ∨ x.addr + planeSize x.fmt n ≤ a) ∧ (a < x.scaleAt ∨ x.scaleAt + unitsOf x.fmt x.n x.ch * unitBytes x.fmt ≤ a)

/-- A command changes only the fabric, memory and the count of free values; memory only at addresses the predicate does not name. -/
def fabricOnly (s s' : State) (t : Nat) (kept : Nat → Prop) : Prop :=
  s' = { s with dt := s.now t, dev := { s.dev with fab := s'.dev.fab, mem := s'.dev.mem, free := s'.dev.free } } ∧ ∀ a, kept a → s'.dev.mem.get a = s.dev.mem.get a

/-- An MC_QUERY of an item is in its turn and passes its checks (R431, R436). -/
def asks (s : State) (t m seq : Nat) (r : Req) (item : Nat) (admin indexOk : Bool) (more : Option Fail) : Prop :=
  ready s t m seq 0x0C01 r = true ∧ r.mcItem = item ∧ s.dev.mcAnswers item = true ∧ s.dev.updateTurn r = true ∧ s.dev.mcFail r admin indexOk more = none

/-- The MC answers a query: the request completes with OK, nothing is written outside its mailbox's ring, and the MC's source pends (R360, R376). -/
def answered (old new : Dev) (r : Req) (result : List Byte) : Prop :=
  served old new r .ok 0 result ∧ ringKept old new r.mbx ∧ (old.on 156 = true → new.eic.pend.contains 875 = true)

/-- The next sequenced flit of an up port, with a good CRC and for this module, is acknowledged and served: what it does leads from one device to the
next, and what it makes due goes out or ends (R401, R403). -/
def received (s s' : State) (t : Nat) (f : FlitIn) (effect : Dev → Dev → Prop) : Prop :=
  ∃ d0 d1 : Dev, d0 = { s.dev with cnl := { s.dev.cnl with ports := d0.cnl.ports } } ∧ (d0.cnlPort f.port).rxSeq = (f.seq + 1) % 65536 ∧ (d0.cnlPort f.port).answer = some (true, f.seq) ∧
    effect d0 d1 ∧ s'.dev = ((d1.cnlDrain (s.now t)).bindsReady (s.now t)).settleEnds (s.now t)

/-- A flit is the next one of an up port, its CRC is good and it is for this module. -/
def inOrder (s : State) (f : FlitIn) : Prop := s.dev.portUp f.port = true ∧ f.bad = false ∧ f.seq = (s.dev.cnlPort f.port).rxSeq ∧ f.dst = s.dev.own

/-- The debug port executes a request of a command: the probe's reference is present, no work is under way, the CRC and generation hold, it does not repeat the last one, its
FLAGS, TYPE and INDEX are among those the command takes, and the level suffices (R443 to R449). -/
def executes (s : State) (cmd level : Nat) (p : UlzilPacket) (types : List Nat) (flagMask : Nat) : Prop :=
  s.dev.dbg.vref = true ∧ s.dev.on 167 = true ∧ s.dev.dbg.work = none ∧ ulzilGood p cmd = true ∧ p.gen = 0 ∧ s.dev.dbg.last ≠ some (p.seq, cmd, p.crc) ∧ p.flags &&& flagMask = p.flags ∧
    types.contains p.type = true ∧ (p.type < 4 → (dbgTarget p.type p.index).isSome = true) ∧ (4 ≤ p.type → p.index = 0) ∧ level ≤ s.dev.levelOf s.latchClosed p.type

/-- The port's stored response (R446). -/
def answers (d : Dev) (st : Status) (payload : List Byte) : Prop := d.dbg.resp = (st.code, payload)

/-- The target of a packet. -/
def targetOf (p : UlzilPacket) : Nat := (dbgTarget p.type p.index).getD 0

/-- A stop request of the MC stands for a cause (R398, R430). -/
def stopsFor (d : Dev) (cause : Nat) : Prop := d.mc.causes.contains cause = true ∧ d.fb (r0 .ssStat) F.ssStat.MC_REQ = true

/-- Registers whose write has a row or an effect of its own, beside the plain storing of its bits. -/
def effectRegs : List RegName :=
  [.timeServoOffset, .capChStat, .camPortSize, .camPortTiming, .pbuSquallCfg, .cueChCfg, .cueChTime, .camPortCfg, .camPortBuf, .fusPortPost, .mbxReq, .eicTComplete, .spiSlot, .bootLatch, .pmapGrant, .rdvPortOp, .timeCtrl, .timeServoInteg, .cdcStatus,
   .cpcMode, .kvHashKey0, .kvHashKey1, .pbuCtrl, .eicSrcCfg, .sluFarEcc, .sluNearEcc, .fusCtrl, .fusStat, .planCtrl, .leEngCfg, .mbxCpl, .eicTEnable, .eicTTimecmp, .ethPortCfg, .ethPortGcl, .cnlPortStat]

/-- The commands after which every byte of memory is as before. -/
def keepsMemory (i : Instr) : Bool :=
  match i with
  | .servoUpdate .. | .holdover .. | .pllLock .. | .frameTransmit .. | .gateEntryEnd .. | .preemptionVerify .. | .cuePulseEnd ..
  | .captureDataRead .. | .queueEnterElastic .. | .queueReturnFixed .. | .crossingStale .. | .powerLimitBroken .. | .forward .. | .acquire ..
  | .tryAcquire .. | .cellRelease .. | .arrive .. | .arriveWait .. | .flagSet .. | .flagClear .. | .waitAny .. | .waitAll .. | .read .. | .rdvResultRead ..
  | .patrolScrub .. | .bufferRelease .. | .cameraEnable .. | .commandFrameQueue .. | .referenceFlip ..
  | .safeStorePartStart .. | .stagingDone .. | .eicClaim .. | .eicComplete .. | .gpioEdge .. | .timerInterrupt .. | .wfi .. | .coreWake ..
  | .spiGo .. | .tdmBlock .. | .ack .. | .nak .. | .creditTimeout ..
  | .mcStart .. | .basinSelfTest .. | .basinFail .. | .nearStoreTraining .. | .bootLatchClose .. | .pmapGrant .. | .pmapViolRead .. | .udsRead .. | .resetIn ..
  | .mcRestart .. | .heartbeat .. | .stewardStopped .. | .mcThresholdCrossing .. | .shockImpact .. | .fallDetect .. | .shockStopEnd .. | .holdupFault .. | .checkpoint ..
  | .vinBelowRange .. | .vinRecover .. | .inputReturn .. | .mcOff .. | .overtempStop .. | .overtempClear .. | .attach .. | .attachRelease .. | .authChallenge ..
  | .authResponse .. | .halt .. | .step .. | .bpSet .. | .bpClear .. | .regRead .. | .regWrite .. | .status .. | .breakpointHit .. | .watchpointHit ..
  | .ulzilBusyTimeout .. | .sessionTimeout .. | .udrst .. | .linkChange .. | .canalPortTraining .. | .dynamicSignalEdge .. | .gpioGlitch .. | .ptmRequest ..
  | .probeVrefChange .. => true
  | _ => false

/-- The commands that may hand a sample to a stream of the fusion sequencer: they write memory only where a subscription takes what the ladder records (R264, R278, R291). -/
def handsSamples (i : Instr) : Bool :=
  match i with
  | .frameReceive .. | .captureEdge .. | .camStrobeEdge .. | .sampleArrive .. | .samplePost .. | .canFrameReceive .. | .spiDataReady .. | .spiTransactionEnd .. | .safeStopChange ..
  | .safeStopDiscrepancy .. => true
  | _ => false

/-- The commands after which every register is as before. -/
def keepsRegisters (i : Instr) : Bool :=
  match i with
  | .pllLock .. | .frameTransmit .. | .gateEntryEnd .. | .cuePulseEnd .. | .load .. | .matrix .. | .vector .. | .reduce .. | .normalise .. | .convert .. | .store ..
  | .commandFrameQueue .. | .stagingDone .. | .gpioEdge .. | .timerInterrupt .. | .wfi .. | .coreWake .. | .tdmBlock .. | .ack .. | .coreRelease ..
  | .udsRead .. | .resetIn .. | .mcRestart .. | .checkpoint .. | .inputReturn .. | .mcOff .. | .attach .. | .attachRelease ..
  | .authChallenge .. | .authResponse .. | .halt .. | .step .. | .bpSet .. | .bpClear .. | .regRead .. | .regWrite .. | .status .. | .breakpointHit ..
  | .watchpointHit .. | .ulzilBusyTimeout .. | .sessionTimeout .. | .udrst .. | .dynamicSignalEdge .. | .ptmRequest .. | .probeVrefChange .. => true
  | _ => false

end Sys2Proof.Machine
end

