-- ==== Sys2Proof/WellFormed.lean ====
section
/-! DEFINITION. Which commands are well formed: their instant fits the counter and their operands lie in the ranges the spec gives. -/

namespace Sys2Proof

/-- Bytes as numbers. -/
def octets (l : List Nat) : Bool := l.all fun b => decide (b < 256)

/-- The issuer of a rendezvous operation (R108, R418): one of 11 initiator classes at one of 64 ports, or a context. -/
def viaOk : CellVia → Bool
  | .port c n => decide (c < 11) && decide (n < 64)
  | .stage ctx deadline => decide (ctx < 1024) && decide (deadline ≤ dtMax)

/-- A mailbox and the SEQ of a request (R344, R346). -/
def mbxOk (m seq : Nat) : Bool := decide (m < 256) && decide (seq < 2 ^ 32)

/-- A flit's header: one of two ports, 16 bits of sequence, one of 8 modules, one of two virtual channels (R401 to R403). -/
def FlitIn.ok (f : FlitIn) : Bool := decide (f.port < 2) && decide (f.seq < 2 ^ 16) && decide (f.src < 8) && decide (f.dst < 8) && decide (f.vc < 2)

/-- A debug request's fields have the widths of the packet (R445). -/
def UlzilPacket.ok (p : UlzilPacket) : Bool :=
  decide (p.gen < 4) && decide (p.flags < 16) && decide (p.seq < 16) && decide (p.type < 16) && decide (p.index < 4096) && decide (p.addr < 2 ^ 64) &&
    decide (p.payload.length ≤ 6144) && decide (p.crc < 2 ^ 16)

/-- The instant of a command. -/
def commandTime (i : Instr) : DT :=
  match i with
  | .servoUpdate t _ _ | .holdover t | .pllLock t | .frameReceive t _ _ _ _ | .frameTransmit t _ _ _ _ _ | .gateEntryEnd t _
  | .preemptionVerify t _ | .waitExpire t _ | .cueFire t _ | .cuePulseEnd t _ | .cueArm t _ _ _ | .cueTimeWrite t _ _ _
  | .captureEdge t _ _ _ _ | .captureDataRead t _ _ | .queueEnterElastic t _ _ | .queueReturnFixed t _ _ | .crossingStale t _ _
  | .basinPairReady t _ | .periodStart t _ | .pbuMissedPeriod t _ | .farStoreTraining t _ | .retrainWindowTimeout t | .forcedStep t
  | .powerLimitBroken t _ _ | .stageDispatch t _ | .load t _ _ _ | .matrix t _ _ _ | .vector t _ _ | .reduce t _ _ _ | .normalise t _ _ _
  | .convert t _ _ | .store t _ _ | .forward t _ _ _ | .tileEnd t _ _ _ _ | .contextSwitchDone t _ | .flitDeliver t _ _ _
  | .creditReturn t _ _ | .basinStoreUncorrectable t _ _ | .deadlockWatchdog t _ | .holdLimitExpire t | .calibrationRunDone t
  | .acquire t _ _ _ _ | .tryAcquire t _ _ _ _ | .cellRelease t _ _ _ _ | .arrive t _ _ _ _ | .arriveWait t _ _ _ _ | .flagSet t _ _ _ _
  | .flagClear t _ _ _ _ | .waitAny t _ _ _ _ | .waitAll t _ _ _ _ | .read t _ _ _ _ | .rdvResultRead t _ _ | .moveCommit t _
  | .descriptorStart t _ | .tileLand t _ _ | .requestComplete t _ | .partFail t _ _ | .partTimeout t _ _ | .patrolScrub t _ _ _
  | .stepBoundary t | .lineReceive t _ _ _ _ _ _ | .frameStart t _ | .frameEnd t _ | .camStrobeEdge t _ _ | .bufferRelease t _ _ _
  | .cameraEnable t _ _ _ | .sampleArrive t _ _ _ _ _ _ _ | .samplePost t _ _ _ | .cutoff t | .fusedRecordPublish t | .estimatorTimeout t
  | .amendment t | .ladderRise t | .gridWriteDone t | .wavefrontRunEnd t | .checkBatchStart t _ | .checkPassEnd t | .sweepComplete t
  | .loopTick t _ | .commandFrameQueue t _ | .referenceFlip t _ _ | .injectionEnd t _ | .captureEnd t _ | .doorbell t _ _ _
  | .requestTake t _ | .hello t _ _ | .bye t _ _ | .ctxOpen t _ _ | .ctxClose t _ _ | .ctxShares t _ _ | .cascadeLoad t _ _
  | .cascadeBind t _ _ | .cascadeRun t _ _ | .cascadeUnload t _ _ | .objCreate t _ _ | .objCreateCell t _ _ | .objCreateKvPool t _ _
  | .objDelete t _ _ | .objPlace t _ _ | .objPin t _ _ | .objPinRelease t _ _ | .objEvict t _ _ | .seqJoin t _ _ | .seqLeave t _ _
  | .seqStep t _ _ | .budgetSet t _ _ | .modeSet t _ _ | .profileSet t _ _ | .claim t _ _ | .release t _ _ | .configSet t _ _
  | .cueSet t _ _ | .captureSet t _ _ | .fuseConfig t _ _ | .fuseSubscribe t _ _ | .planGrid t _ _ | .planRoadmap t _ _
  | .edgeDisable t _ _ | .edgeEnable t _ _ | .planRun t _ _ | .planRunRepeat t _ _ | .planSweep t _ _ | .planWave t _ _
  | .planRunStop t _ _ | .lawLoad t _ _ | .lawArm t _ _ | .lawDisarm t _ _ | .lawHold t _ _ | .lawResume t _ _ | .lawSwap t _ _
  | .lawHandover t _ _ | .lawInject t _ _ | .lawCapture t _ _ | .storeSafe t _ _ _ | .safeStorePartStart t _ _ _
  | .safeStorePartCommit t _ _ | .temp t _ _ _ _ _ | .rail t _ _ _ _ | .humidity t _ _ _ _ | .shock t _ _ | .holdup t _ _ _
  | .input t _ _ _ _ _ | .measure t _ _ | .attest t _ _ | .counter t _ _ | .counterAdvance t _ _ | .updateStage t _ _ | .stagingDone t _
  | .updateActivate t _ _ | .updateConfirm t _ _ | .updateStatus t _ _ | .almanac t _ _ | .reset t _ _ | .mcLog t _ _ | .mcLogRead t _ _
  | .eicClaim t _ _ | .eicComplete t _ _ _ | .gpioEdge t _ _ _ | .timerInterrupt t _ | .wfi t _ | .coreWake t _
  | .canFrameReceive t _ _ _ _ _ _ | .spiDataReady t _ _ _ | .spiGo t _ _ _ _ | .spiTransactionEnd t _ _ | .tdmBlock t _ _ _
  | .safeStopChange t _ _ _ _ | .safeStopDiscrepancy t _ | .data t _ _ _ _ _ _ _ _ _ | .credit t _ _ _ _ _ _ _ | .memRd t _ _ _ _
  | .memWr t _ _ _ _ | .memCpl t _ _ _ _ | .ack t _ _ | .nak t _ _ | .ptp t _ _ | .prepare t _ _ _ _ _ | .vote t _ _ _ _ | .decide t _ _ _
  | .query t _ _ | .done t _ _ | .decideTimeout t _ | .canalRetrain t _ _ | .creditTimeout t _ | .mcStart t _ _
  | .earlyDomainRelease t _ _ _ | .mainPowerGood t | .basinSelfTest t _ | .basinFail t _ | .nearStoreTraining t | .bootLatchClose t _ _
  | .coreRelease t | .pmapGrant t _ _ | .pmapViolRead t _ | .udsRead t _ | .memoryAccess t _ _ _ _ _ _ | .registerWrite t _ _ _ _
  | .resetIn t _ | .coldReset t | .mainDomainReset t | .mcRestart t _ | .heartbeat t | .stewardStopped t | .mcThresholdCrossing t _ _ _
  | .shockImpact t _ | .fallDetect t _ _ | .shockStopEnd t | .holdupFault t _ _ | .almanacWrite t | .checkpoint t | .vinLowStep t _ _
  | .vinBelowRange t _ _ | .vinRecover t _ _ | .inputLoss t _ _ | .processorOff t | .inputReturn t _ _ | .mcOff t _ | .overtempStep t _ _
  | .overtempStop t _ | .overtempClear t _ _ | .overtempShutdown t _ | .attach t _ | .attachRelease t _ | .authChallenge t _
  | .authResponse t _ | .halt t _ | .resume t _ | .step t _ | .bpSet t _ | .bpClear t _ | .memRead t _ | .memWrite t _ | .regRead t _
  | .regWrite t _ | .status t _ | .breakpointHit t _ _ | .watchpointHit t _ _ _ _ _ | .ulzilBusyTimeout t _ | .sessionTimeout t
  | .udrst t _ | .linkChange t _ _ | .canalPortTraining t _ _ _ _ | .dynamicSignalEdge t | .gpioGlitch t _ _ | .ptmRequest t
  | .syncInterval t _ _ _ _ _ | .probeVrefChange t _ | .rechargeWaitTimeout t _ _ | .mcQueryTimeout t _ _ => t

/-- Whether a command's operands other than its instant lie in their ranges. -/
def operandsOk (i : Instr) : Bool :=
  match i with
  | .servoUpdate _ c _ | .pmapGrant _ c _ | .pmapViolRead _ c | .udsRead _ c => decide (c < 11)
  | .holdover _ | .pllLock _ | .waitExpire _ _ | .periodStart _ _ | .pbuMissedPeriod _ _ | .retrainWindowTimeout _ | .forcedStep _ 
  | .powerLimitBroken _ _ _ | .holdLimitExpire _ | .calibrationRunDone _ | .moveCommit _ _ | .requestComplete _ _ | .stepBoundary _ 
  | .cutoff _ | .fusedRecordPublish _ | .estimatorTimeout _ | .amendment _ | .ladderRise _ | .gridWriteDone _ | .wavefrontRunEnd _ 
  | .checkPassEnd _ | .sweepComplete _ | .decideTimeout _ _ | .mcStart _ _ _ | .mainPowerGood _ | .nearStoreTraining _ | .coreRelease _ 
  | .resetIn _ _ | .coldReset _ | .mainDomainReset _ | .mcRestart _ _ | .heartbeat _ | .stewardStopped _ | .shockImpact _ _ 
  | .fallDetect _ _ _ | .shockStopEnd _ | .holdupFault _ _ _ | .almanacWrite _ | .checkpoint _ | .vinLowStep _ _ _ | .vinBelowRange _ _ _ 
  | .vinRecover _ _ _ | .inputLoss _ _ _ | .processorOff _ | .inputReturn _ _ _ | .mcOff _ _ | .overtempStep _ _ _ | .overtempStop _ _ 
  | .overtempClear _ _ _ | .overtempShutdown _ _ | .ulzilBusyTimeout _ _ | .sessionTimeout _ | .udrst _ _ | .dynamicSignalEdge _ 
  | .ptmRequest _ | .probeVrefChange _ _ => true
  | .frameReceive _ p stamp fault data => decide (p < 14) && decide (stamp ≤ dtMax) && decide (fault < 3) && octets data
  | .frameTransmit _ p q _ _ data => decide (p < 14) && decide (q < 8) && octets data
  | .gateEntryEnd _ p | .preemptionVerify _ p => decide (p < 4)
  | .cueFire _ n | .cuePulseEnd _ n => decide (n < 64)
  | .cueArm _ c n v => decide (c < 11) && decide (n < 64) && decide (v < 2 ^ 32)
  | .cueTimeWrite _ c n _ | .rdvResultRead _ c n => decide (c < 11) && decide (n < 64)
  | .captureEdge _ src _ stamp _ => decide (src < 37) && decide (stamp ≤ dtMax)
  | .captureDataRead _ c n => decide (c < 11) && decide (n < 32)
  | .queueEnterElastic _ block q | .queueReturnFixed _ block q => decide (block < 4) && decide (q < 16)
  | .crossingStale _ block n => decide (block < 4) && decide (n < 8)
  | .basinPairReady _ pd => decide (pd < 136)
  | .farStoreTraining _ vals => vals.all fun v => decide (v < 2 ^ 32)
  | .stageDispatch _ l | .basinStoreUncorrectable _ l _ => decide (l < 256)
  | .load _ l st _ | .matrix _ l st _ | .vector _ l st | .reduce _ l st _ | .normalise _ l st _ | .convert _ l st | .store _ l st 
  | .forward _ l st _ | .tileEnd _ l st _ _ => decide (l < 256) && decide (st < 8)
  | .contextSwitchDone _ region => decide (region < 4)
  | .flitDeliver _ src dst entry => decide (src < 256) && decide (dst < 256) && decide (entry < 16)
  | .creditReturn _ l e | .referenceFlip _ l e => decide (l < 512) && decide (e < 16)
  | .deadlockWatchdog _ c => decide (c < 1024)
  | .acquire _ via cell arg rsvd | .tryAcquire _ via cell arg rsvd | .cellRelease _ via cell arg rsvd | .arrive _ via cell arg rsvd 
  | .arriveWait _ via cell arg rsvd | .flagSet _ via cell arg rsvd | .flagClear _ via cell arg rsvd | .waitAny _ via cell arg rsvd 
  | .waitAll _ via cell arg rsvd | .read _ via cell arg rsvd => viaOk via && decide (cell < 2 ^ 17) && decide (arg < 2 ^ 32) && decide (rsvd < 2 ^ 11)
  | .descriptorStart _ eng | .tileLand _ eng _ | .partFail _ eng _ | .partTimeout _ eng _ => decide (eng < 12)
  | .patrolScrub _ n _ _ => decide (n < 24)
  | .lineReceive _ n dtype vc stamp fault _ => decide (n < 8) && decide (dtype < 64) && decide (vc < 16) && decide (stamp ≤ dtMax) && decide (fault < 4)
  | .frameStart _ n | .frameEnd _ n | .loopTick _ n | .commandFrameQueue _ n | .injectionEnd _ n | .captureEnd _ n => decide (n < 8)
  | .camStrobeEdge _ n stamp => decide (n < 8) && decide (stamp ≤ dtMax)
  | .bufferRelease _ c n v | .cameraEnable _ c n v => decide (c < 11) && decide (n < 8) && decide (v < 2 ^ 32)
  | .sampleArrive _ _ _ stamp _ _ _ _ | .checkBatchStart _ stamp => decide (stamp ≤ dtMax)
  | .samplePost _ c p idx => decide (c < 11) && decide (p < 16) && decide (idx < 2 ^ 8)
  | .doorbell _ c m v => decide (c < 11) && decide (m < 256) && decide (v < 2 ^ 32)
  | .requestTake _ m => decide (m < 256)
  | .hello _ m seq | .bye _ m seq | .ctxOpen _ m seq | .ctxClose _ m seq | .ctxShares _ m seq | .cascadeLoad _ m seq | .cascadeBind _ m seq 
  | .cascadeRun _ m seq | .cascadeUnload _ m seq | .objCreate _ m seq | .objCreateCell _ m seq | .objCreateKvPool _ m seq 
  | .objDelete _ m seq | .objPlace _ m seq | .objPin _ m seq | .objPinRelease _ m seq | .objEvict _ m seq | .seqJoin _ m seq 
  | .seqLeave _ m seq | .seqStep _ m seq | .budgetSet _ m seq | .modeSet _ m seq | .profileSet _ m seq | .claim _ m seq | .release _ m seq 
  | .configSet _ m seq | .cueSet _ m seq | .captureSet _ m seq | .fuseConfig _ m seq | .fuseSubscribe _ m seq | .planGrid _ m seq 
  | .planRoadmap _ m seq | .edgeDisable _ m seq | .edgeEnable _ m seq | .planRun _ m seq | .planRunRepeat _ m seq | .planSweep _ m seq 
  | .planWave _ m seq | .planRunStop _ m seq | .lawLoad _ m seq | .lawArm _ m seq | .lawDisarm _ m seq | .lawHold _ m seq 
  | .lawResume _ m seq | .lawSwap _ m seq | .lawHandover _ m seq | .lawInject _ m seq | .lawCapture _ m seq | .storeSafe _ m seq _ 
  | .safeStorePartStart _ m seq _ | .safeStorePartCommit _ m seq | .temp _ m seq _ _ _ | .rail _ m seq _ _ | .humidity _ m seq _ _ 
  | .shock _ m seq | .holdup _ m seq _ | .input _ m seq _ _ _ | .measure _ m seq | .attest _ m seq | .counter _ m seq 
  | .counterAdvance _ m seq | .updateStage _ m seq | .updateActivate _ m seq | .updateConfirm _ m seq | .updateStatus _ m seq 
  | .almanac _ m seq | .reset _ m seq | .mcLog _ m seq | .mcLogRead _ m seq | .rechargeWaitTimeout _ m seq | .mcQueryTimeout _ m seq => mbxOk m seq
  | .stagingDone _ kind => decide (kind < 8)
  | .eicClaim _ c tgt => decide (c < 11) && decide (tgt < 34)
  | .eicComplete _ c tgt src => decide (c < 11) && decide (tgt < 34) && decide (src < 1024)
  | .gpioEdge _ line _ _ | .gpioGlitch _ line _ => decide (line < 32)
  | .timerInterrupt _ tgt => decide (tgt < 34)
  | .wfi _ core | .coreWake _ core => decide (core < 18)
  | .canFrameReceive _ n _ id stamp _ data => decide (n < 4) && decide (id < 2 ^ 29) && decide (stamp ≤ dtMax) && octets data
  | .spiDataReady _ n _ stamp => decide (n < 2) && decide (stamp ≤ dtMax)
  | .spiGo _ c n slot _ => decide (c < 11) && decide (n < 2) && decide (slot < 16)
  | .spiTransactionEnd _ n rd => decide (n < 2) && rd.all octets
  | .tdmBlock _ n stamp data => decide (n < 2) && decide (stamp ≤ dtMax) && octets data
  | .safeStopChange _ k _ _ _ | .safeStopDiscrepancy _ k => decide (k < 2)
  | .data _ f _ basin entry _ _ _ _ _ | .credit _ f basin entry _ _ _ _ => f.ok && decide (basin < 256) && decide (entry < 16)
  | .memRd _ f tag _ _ | .memWr _ f tag _ _ | .memCpl _ f tag _ _ => f.ok && decide (tag < 2 ^ 16)
  | .ack _ port seq | .nak _ port seq => decide (port < 2) && decide (seq < 2 ^ 16)
  | .ptp _ f _ | .prepare _ f _ _ _ _ | .vote _ f _ _ _ | .decide _ f _ _ | .query _ f _ | .done _ f _ => f.ok
  | .canalRetrain _ port _ | .creditTimeout _ port | .canalPortTraining _ port _ _ _ => decide (port < 2)
  | .earlyDomainRelease _ _ _ module => decide (module < 8)
  | .basinSelfTest _ fails => fails.all fun p => decide (p < 272)
  | .basinFail _ phys => decide (phys < 272)
  | .bootLatchClose _ c v => decide (c < 11) && decide (v < 2 ^ 32)
  | .memoryAccess _ c kind a _ _ ecc => decide (c < 11) && decide (kind < 3) && decide (ecc < 3) && decide (a < 2 ^ 48)
  | .registerWrite _ c a n _ => decide (c < 11) && decide (a < 2 ^ 48) && (n == 4 || n == 8)
  | .mcThresholdCrossing _ kind _ _ => decide (kind < 4)
  | .attach _ p | .attachRelease _ p | .authChallenge _ p | .authResponse _ p | .halt _ p | .resume _ p | .step _ p | .bpSet _ p 
  | .bpClear _ p | .memRead _ p | .memWrite _ p | .regRead _ p | .regWrite _ p | .status _ p => p.ok
  | .breakpointHit _ k slot => decide (k < 27) && decide (slot < 8)
  | .watchpointHit _ k slot kind _ _ => decide (k < 27) && decide (8 ≤ slot) && decide (slot < 12) && (kind == 1 || kind == 2)
  | .linkChange _ p _ => decide (p < 14)
  | .syncInterval _ p msg q _ data => decide (p < 16) && decide (msg < 16) && decide (q < 8) && octets data

/-- A well-formed command (log entry 1). -/
def wellFormed (i : Instr) : Bool := decide (commandTime i ≤ dtMax) && operandsOk i

end Sys2Proof
end

