-- ==== Sys2Proof/Certificates/Slice0/Obligations.lean ====
section
/-! DEFINITION. The statements about the block, each citing the rules it formalises or the sections it derives from. -/

open Sys2Proof Sys2Proof.Machine

/-! ## Steps, device time, the queue -/

/-- O1. A step with a command at the front of the queue runs that command on the queue's rest. -/
def Obligations.StepRunsFront : Prop :=
  ∀ (s : State) (c : Instr) (rest : List Instr), step { s with pending := c :: rest } = exec c { s with pending := rest }

/-- O2. On an empty queue a step is one time-base cycle (the model's choice, log entry 2): with the early domain on DT and its fraction take
2^32 + SERVO_RATE in units of 2^-32 ns (R29); with it off nothing changes. -/
def Obligations.IdleStepIsTimeBaseCycle : Prop :=
  ∀ s : State, s.pending = [] →
    (s.dev.earlyOn = false → step s = .next s) ∧
    (s.dev.earlyOn = true → ∀ dt' frac' : Nat, frac' < 2 ^ 32 → dt' ≤ dtMax →
      ((dt' : Int) * 2 ^ 32 + frac' = (s.dt : Int) * 2 ^ 32 + s.frac + 2 ^ 32 + s.dev.rate) → (0 : Int) ≤ 2 ^ 32 + s.frac + s.dev.rate →
      step s = .next { s with dt := dt', frac := frac' })

/-- O3. Every command answers a next state: no command stops the block. -/
def Obligations.NoCommandStops : Prop := ∀ (i : Instr) (s : State), ∃ s', exec i s = .next s'

/-- O4. Every step from a state in range ends in a state in range: device time and its fraction fit their counters, IGNORED fits its field and is 0
while the boot latch is open. -/
def Obligations.StepKeepsRange : Prop := ∀ s s' : State, s.inRange → step s = .next s' → s'.inRange

/-- O5. The state after reset is in range. -/
def Obligations.ResetInRange : Prop := State.reset.inRange

/-- O6. R30: a cold reset sets DT to 0, clears the servo state and sets UNSYNCED; a reset of the main domains leaves DT, the servo state and the flags as they are; and no command lets DT run
backwards, but for the three that take the early domain's power or reset the processor cold and the release of the early domain, after which it counts from 0. -/
def Obligations.TimeNeverRunsBack : Prop :=
  (∀ (s : State) (t : Nat), s.dev.resetDue (s.now t) true = true →
    Answers (.coldReset t) s fun s' => s'.dt = 0 ∧ s'.frac = 0 ∧ s'.dev.rn (r0 .timeServoInteg) = 0 ∧ s'.dev.rn (r0 .timeServoRate) = 0 ∧ s'.dev.fb (r0 .timeStatus) F.timeStatus.UNSYNCED = true) ∧
  (∀ (s : State) (t : Nat), s.dev.resetDue (s.now t) false = true → s.dev.earlyOn = true → s.dev.pow.inputLost = false →
    Answers (.mainDomainReset t) s fun s' => s'.dt = s.now t ∧ s'.frac = s.frac ∧
      ∀ g ∈ [r0 .timeCtrl, r0 .timeStatus, r0 .timeServoKp, r0 .timeServoKi, r0 .timeServoInteg, r0 .timeServoRate, r0 .timeJumpAt, r0 .timeJumpSize], s'.dev.rd g = s.dev.rd g) ∧
  (∀ (i : Instr) (s s' : State), exec i s = .next s' →
    (∀ t, i ≠ .coldReset t ∧ i ≠ .processorOff t ∧ (∀ v, i ≠ .overtempShutdown t v) ∧ (∀ v mv m, i ≠ .earlyDomainRelease t v mv m)) →
    s.dt ≤ dtMax → s.dt ≤ s'.dt ∧ s'.dt ≤ dtMax)

/-- O7. A closed boot latch opens again only at a cold or main-domain reset or with the loss of the processor's power (R420). -/
def Obligations.LatchOpensOnlyAtReset : Prop :=
  ∀ (i : Instr) (s s' : State), exec i s = .next s' → s.latchClosed = true → s'.latchClosed = false →
    ∃ t, i = .coldReset t ∨ i = .mainDomainReset t ∨ i = .processorOff t

/-- O8. R427: a monotonic counter holds at most 255 and never decreases; COUNTER_ADVANCE raises one of the counters 16 to 63 by 1, and completes with BAD_CONFIG for the others and for a counter
at 255; no step blows or mends a revoke fuse or changes a key hash. -/
def Obligations.CountersNeverFall : Prop :=
  (∀ s s' : State, step s = .next s' →
    (∀ k, tgetD s.otp.counters k 0 ≤ tgetD s'.otp.counters k 0 ∧ (tgetD s.otp.counters k 0 ≤ 255 → tgetD s'.otp.counters k 0 ≤ 255)) ∧
    s'.otp.revoked = s.otp.revoked ∧ s'.otp.edHash = s.otp.edHash ∧ s'.otp.mlHash = s.otp.mlHash) ∧
  (∀ (s : State) (t m seq : Nat) (r : Req), asks s t m seq r 0x0021 true true none →
    (16 ≤ r.mcIndex → r.mcIndex < 64 → tgetD s.otp.counters r.mcIndex 0 < 255 →
      Answers (.counterAdvance t m seq) s fun s' => tget s'.otp.counters r.mcIndex = some (tgetD s.otp.counters r.mcIndex 0 + 1) ∧
        (∀ k, k ≠ r.mcIndex → tget s'.otp.counters k = tget s.otp.counters k) ∧ answered s.dev s'.dev r (leBytes 4 (tgetD s.otp.counters r.mcIndex 0 + 1))) ∧
    ((r.mcIndex < 16 ∨ 64 ≤ r.mcIndex ∨ tgetD s.otp.counters r.mcIndex 0 = 255) →
      Answers (.counterAdvance t m seq) s fun s' => s'.otp = s.otp ∧ served s.dev s'.dev r .badConfig 34 []))

/-- O9. What no command but the named ones can change: the fraction of a tick, the latch and the instant of its close, IGNORED, one-time-programmable memory and the rest of
the queue. -/
def Obligations.OutsideTheDevice : Prop :=
  ∀ (i : Instr) (s s' : State), exec i s = .next s' →
    s'.pending = s.pending ∧
    ((∀ t, (∀ ns v, i ≠ .mcStart t ns v) ∧ (∀ m q, i ≠ .updateConfirm t m q) ∧ (∀ m q, i ≠ .counterAdvance t m q)) → s'.otp = s.otp) ∧
    ((∀ t, i ≠ .coldReset t ∧ i ≠ .processorOff t ∧ i ≠ .mainDomainReset t ∧ (∀ v, i ≠ .overtempShutdown t v) ∧ (∀ v mv m, i ≠ .earlyDomainRelease t v mv m) ∧
        (∀ c v, i ≠ .bootLatchClose t c v) ∧ (∀ c a n v, i ≠ .registerWrite t c a n v) ∧ (∀ c k a n b e, i ≠ .memoryAccess t c k a n b e) ∧
        (∀ p, i ≠ .memWrite t p)) →
      s'.frac = s.frac ∧ s'.latchClosed = s.latchClosed ∧ s'.ignored = s.ignored ∧ s'.closedAt = s.closedAt)

/-- O10. What no command but the named ones can change: memory and the registers (a frame of every other command); a command that hands a sample on may
change the ladder and changes memory only where a subscription takes the ladder's records (R278, R291). -/
def Obligations.MemoryAndRegisterFrames : Prop :=
  ∀ (i : Instr) (s s' : State), exec i s = .next s' →
    (keepsMemory i = true → s'.dev.mem = s.dev.mem) ∧ (handsSamples i = true → s.dev.fus.subs = [] → s'.dev.mem = s.dev.mem) ∧
    (keepsRegisters i = true → s'.dev.regs = s.dev.regs)

/-- O11. R33: an offset write in steady state updates integrator and rate. -/
def Obligations.ServoUpdateLaw : Prop :=
  ∀ (s : State) (t c : Nat) (off : Word), hits s t c (r0 .timeServoOffset) .write = true →
    s.dev.fb (r0 .timeCtrl) F.timeCtrl.SERVO_EN = true → s.dev.fb (r0 .timeStatus) F.timeStatus.UNSYNCED = false →
    let e := sext 64 off.toNat
    let integ := clampInt (-2147483 * 65536) (2147483 * 65536) (sext 64 (s.dev.rn (r0 .timeServoInteg)) + (s.dev.rn (r0 .timeServoKi) : Int) * e)
    let rate := clampInt (-2147483) 2147483 (roundEvenDiv (-((s.dev.rn (r0 .timeServoKp) : Int) * e + integ)) 65536)
    Answers (.servoUpdate t c off) s fun s' =>
      s'.dt = s.now t ∧ s'.dev.rn (r0 .timeServoInteg) = wrapInt 64 integ ∧ s'.dev.rn (r0 .timeServoRate) = wrapInt 32 rate ∧
      s'.dev.fb (r0 .timeStatus) F.timeStatus.HOLDOVER = false ∧
      s'.dev.fb (r0 .timeStatus) F.timeStatus.RATE_CLAMPED = (rate == 2147483 || rate == -2147483) ∧
      (∀ r, r ≠ r0 .timeServoInteg → r ≠ r0 .timeServoRate → r ≠ r0 .timeStatus → s'.dev.rd r = s.dev.rd r) ∧ s'.dev.mem = s.dev.mem

/-- O12. R36: the first lock clears UNSYNCED; with JUMP_ARM and a negative offset DT jumps forward, and every armed cue time with it, the integrator and the rate as they were; else it is the servo's
first update, and sets STEP_REFUSED where JUMP_ARM was 1; offset writes while SERVO_EN is 0 have no effect. -/
def Obligations.FirstLockJumps : Prop :=
  (∀ (s : State) (t c : Nat) (off : Word), hits s t c (r0 .timeServoOffset) .write = true → s.dev.fb (r0 .timeCtrl) F.timeCtrl.SERVO_EN = true → s.dev.fb (r0 .timeStatus) F.timeStatus.UNSYNCED = true →
    let e := sext 64 off.toNat
    let k := e.natAbs
    let integ := clampInt (-2147483 * 65536) (2147483 * 65536) (sext 64 (s.dev.rn (r0 .timeServoInteg)) + (s.dev.rn (r0 .timeServoKi) : Int) * e)
    let rate := clampInt (-2147483) 2147483 (roundEvenDiv (-((s.dev.rn (r0 .timeServoKp) : Int) * e + integ)) 65536)
    Answers (.servoUpdate t c off) s fun s' => s'.dev.fb (r0 .timeStatus) F.timeStatus.UNSYNCED = false ∧
      (s.dev.fb (r0 .timeCtrl) F.timeCtrl.JUMP_ARM = true → e < 0 → s.now t + k ≤ dtMax →
        s'.dt = s.now t + k ∧ s'.dev.rn (r0 .timeJumpAt) = s.now t + k ∧ s'.dev.rn (r0 .timeJumpSize) = k ∧ s'.dev.fb (r0 .timeStatus) F.timeStatus.JUMPED = true ∧
        s'.dev.rd (r0 .timeServoInteg) = s.dev.rd (r0 .timeServoInteg) ∧ s'.dev.rd (r0 .timeServoRate) = s.dev.rd (r0 .timeServoRate) ∧
        (∀ n, n < 64 → s.dev.fb (r1 .cueChCfg n) F.cueChCfg.ARM = true → s'.dev.rn (r1 .cueChTime n) = satAdd dtMax (s.dev.rn (r1 .cueChTime n)) k) ∧
        (∀ n, n < 64 → s.dev.fb (r1 .cueChCfg n) F.cueChCfg.ARM = false → s'.dev.rd (r1 .cueChTime n) = s.dev.rd (r1 .cueChTime n))) ∧
      ((s.dev.fb (r0 .timeCtrl) F.timeCtrl.JUMP_ARM = false ∨ 0 ≤ e) →
        s'.dt = s.now t ∧ (s.dev.fb (r0 .timeCtrl) F.timeCtrl.JUMP_ARM = true → s'.dev.fb (r0 .timeStatus) F.timeStatus.STEP_REFUSED = true) ∧
        s'.dev.rn (r0 .timeServoInteg) = wrapInt 64 integ ∧ s'.dev.rn (r0 .timeServoRate) = wrapInt 32 rate)) ∧
  (∀ (s : State) (t c : Nat) (off : Word), hits s t c (r0 .timeServoOffset) .write = true → s.dev.fb (r0 .timeCtrl) F.timeCtrl.SERVO_EN = false →
    Answers (.servoUpdate t c off) s fun s' => s' = { s with dt := s.now t, dev := { s.dev with bus := .ok } })

/-- O13. R35: once no offset has been written for HOLDOVER_MS, HOLDOVER is set and source 1 of the EIC raised; the root PLL's lock is kept. -/
def Obligations.HoldoverAndLock : Prop :=
  (∀ (s : State) (t b : Nat), s.dev.time.holdBase = some b → s.dev.earlyOn = true → s.dev.fb (r0 .timeCtrl) F.timeCtrl.SERVO_EN = true →
    s.dev.fb (r0 .timeStatus) F.timeStatus.HOLDOVER = false → s.dev.f (r0 .timeCtrl) F.timeCtrl.HOLDOVER_MS * 1000000 ≤ s.dev.elapsed b (s.now t) →
    Answers (.holdover t) s fun s' => s'.dev.fb (r0 .timeStatus) F.timeStatus.HOLDOVER = true ∧ (s.dev.on 156 = true → s'.dev.eic.pend.contains 1 = true) ∧
      (∀ r, r ≠ r0 .timeStatus → s'.dev.rd r = s.dev.rd r) ∧ s'.dev.mem = s.dev.mem) ∧
  (∀ (s : State) (t : Nat), s.dev.earlyOn = true →
    Answers (.pllLock t) s fun s' => s'.dev.pow.pllLocked = true ∧ s' = { s with dt := s.now t, dev := { s.dev with pow := s'.dev.pow } })

/-! ## The cue and capture unit -/

/-- O14. R49 and R50: a due channel fires at the first DT at or above its TIME since TIME stands: FIRED, a record of its source at that DT, its trigger, and its next TIME or its
disarming. -/
def Obligations.CueFires : Prop :=
  ∀ (s : State) (t n : Nat), s.dev.cueDue (s.now t) n = true → s.dev.f (r1 .cueChCfg n) F.cueChCfg.TRIG < 0x0B → s.dev.cue.out = [] →
    let fired := min (s.now t) (max (s.dev.rn (r1 .cueChTime n)) (tgetD s.dev.cue.since n 0))
    let trig := s.dev.f (r1 .cueChCfg n) F.cueChCfg.TRIG
    let period := s.dev.f (r1 .cueChPeriod n) F.cueChPeriod.PERIOD
    Answers (.cueFire t n) s fun s' =>
      s'.dev.fb (r1 .cueChStat n) F.cueChStat.FIRED = true ∧
      s'.dev.recs = ⟨⟨fired, s.dev.src (0x0030 + n), s.dev.cntOf (0x0030 + n)⟩, .cueFire, false, [n, trig, fired]⟩ :: s.dev.recs ∧
      (trig ≠ 0 → (trig ≠ 3 ∨ n = 0 ∨ s.dev.earlyRuns = false) → tget s'.dev.cue.trig trig = some fired) ∧
      (s.dev.fb (r1 .cueChCfg n) F.cueChCfg.PERIODIC = true → 64 ≤ period →
        s'.dev.rn (r1 .cueChTime n) = (s.dev.rn (r1 .cueChTime n) + period) % 2 ^ 64 ∧ s'.dev.fb (r1 .cueChCfg n) F.cueChCfg.ARM = true) ∧
      (s.dev.fb (r1 .cueChCfg n) F.cueChCfg.PERIODIC = false → s'.dev.fb (r1 .cueChCfg n) F.cueChCfg.ARM = false) ∧
      (∀ r, r ≠ r1 .cueChStat n → r ≠ r1 .cueChCfg n → r ≠ r1 .cueChTime n → s'.dev.rd r = s.dev.rd r) ∧ s'.dev.mem = s.dev.mem

/-- O15. Pulses, arming, a write of TIME, capture (R50 to R52). -/
def Obligations.CueCommandsComplete : Prop :=
  (∀ (s : State) (t n : Nat) (p : Pulse), tget s.dev.cue.pulses n = some p → p.endAt ≤ s.now t →
    Answers (.cuePulseEnd t n) s fun s' => tget s'.dev.cue.pulses n = none ∧ s' = { s with dt := s.now t, dev := { s.dev with cue := s'.dev.cue } }) ∧
  (∀ (s : State) (t c n v : Nat), n < 64 → hits s t c (r1 .cueChCfg n) .write = true → v.testBit 0 = true → s.now t + 16 ≤ s.dev.rn (r1 .cueChTime n) →
    Answers (.cueArm t c n v) s fun s' => s'.dev.fb (r1 .cueChCfg n) F.cueChCfg.ARM = true ∧ s'.dev.fb (r1 .cueChStat n) F.cueChStat.REBASED = false ∧
      s'.dev.bus = .ok ∧ (∀ r, r ≠ r1 .cueChCfg n → r ≠ r1 .cueChStat n → s'.dev.rd r = s.dev.rd r) ∧ s'.dev.mem = s.dev.mem) ∧
  (∀ (s : State) (t c n : Nat) (v : Word), n < 64 → hits s t c (r1 .cueChTime n) .write = true → s.dev.cueDue (s.now t) n = false → s.dev.cue.out = [] →
    Answers (.cueTimeWrite t c n v) s fun s' => s'.dev.rd (r1 .cueChTime n) = v ∧ s'.dev.bus = .ok ∧
      (∀ r, r ≠ r1 .cueChTime n → s'.dev.rd r = s.dev.rd r) ∧ s'.dev.mem = s.dev.mem) ∧
  (∀ (s : State) (t src : Nat) (rising : Bool) (stamp stable n : Nat), src < 16 → stamp ≤ s.now t → (∀ k, s.dev.captures k src rising stable = true ↔ k = n) →
    (s.dev.heldOf n).length < 16 → s.dev.cue.out = [] → (∀ x ∈ s.dev.streams, x.kind = 3 → x.source ≠ n) →
    Answers (.captureEdge t src rising stamp stable) s fun s' =>
      s'.dev.heldOf n = s.dev.heldOf n ++ [(stamp, s.dev.cntOf (0x0010 + n))] ∧
      s'.dev.recs = ⟨⟨stamp, s.dev.src (0x0010 + n), s.dev.cntOf (0x0010 + n)⟩, .capture, false, [n, stamp, b2n rising]⟩ :: s.dev.recs ∧ s'.dev.mem = s.dev.mem) ∧
  (∀ (s : State) (t c n : Nat) (x : Nat × Nat) (rest : List (Nat × Nat)), n < 32 → hits s t c (r1 .capChData n) .read = true → s.dev.heldOf n = x :: rest →
    Answers (.captureDataRead t c n) s fun s' => s'.dev.bus = .data x.1 ∧ s'.dev.heldOf n = rest ∧ s'.dev.mem = s.dev.mem)

/-! ## Interrupts -/

/-- O16. R378, R381: a claim serves the eligible source of highest priority, the lowest number among equals: it becomes active for the target and its pending bit clears; with none eligible it reads 0
and changes nothing.  A source is eligible that is pending, active for no target, enabled for this one and above its threshold; the target's line is asserted while one is.
Priorities, thresholds and enables are as they were before the cycle. -/
def Obligations.ClaimServesTheBest : Prop :=
  ∀ (s : State) (t c tgt : Nat), tgt < 34 →
    (∀ x, s.dev.eligible tgt x = true ↔ x ∈ s.dev.eic.pend ∧ (∀ y, (x, y) ∉ s.dev.eic.active) ∧ s.dev.enabled x tgt = true ∧ s.dev.f (r1 .eicTThresh tgt) F.eicTThresh.THRESH < s.dev.prio x) ∧
    (s.dev.lineOf tgt = true ↔ ∃ x ∈ s.dev.eic.pend, s.dev.eligible tgt x = true) ∧
    (s.dev.eic.since ≠ s.now t → s.dev.eicBefore (s.now t) = s.dev ∧
      ∀ (open_ : Bool) (v : Nat), ((s.dev.regWrite open_ (s.now t) (r1 .eicTThresh tgt) v).eicBefore (s.now t)).rd (r1 .eicTThresh tgt) = s.dev.rd (r1 .eicTThresh tgt)) ∧
    let b := s.dev.eicBefore (s.now t)
    (hits s t c (r1 .eicTClaim tgt) .read = true →
      Answers (.eicClaim t c tgt) s fun s' =>
        ((∀ x ∈ s.dev.eic.pend, b.eligible tgt x = false) → s' = { s with dt := s.now t, dev := { s.dev with bus := .data 0 } }) ∧
        (∀ x ∈ s.dev.eic.pend, b.eligible tgt x = true →
          (∀ y ∈ s.dev.eic.pend, b.eligible tgt y = true → b.prio y < b.prio x ∨ (b.prio y = b.prio x ∧ x ≤ y)) →
          s'.dev.bus = .data x ∧ s'.dev.eic.pend.contains x = false ∧ s'.dev.eic.active = (x, tgt) :: s.dev.eic.active) ∧
        s'.dev.regs = s.dev.regs ∧ s'.dev.mem = s.dev.mem)

/-- O17. The other commands of the interrupt controller (R374, R380, R382, R383). -/
def Obligations.InterruptCommandsComplete : Prop :=
  (∀ (s : State) (t c tgt src : Nat), tgt < 34 → src < 1024 → hits s t c (r1 .eicTComplete tgt) .write = true →
    Answers (.eicComplete t c tgt src) s fun s' =>
      (s.dev.eic.active.contains (src, tgt) = true → s'.dev.eic.active.contains (src, tgt) = false ∧ s'.dev.regs = s.dev.regs) ∧
      (s.dev.eic.active.contains (src, tgt) = false → s'.dev.eic = s.dev.eic ∧ s'.dev.fb (r0 .eicStat) F.eicStat.BAD_COMPLETE = true ∧
        s'.dev.f (r0 .eicStat) F.eicStat.LAST_BAD = src ∧ ∀ r, r ≠ r0 .eicStat → s'.dev.rd r = s.dev.rd r) ∧ s'.dev.mem = s.dev.mem) ∧
  (∀ (s : State) (t line : Nat) (level : Bool) (samples : Nat), line < 32 → s.dev.on 156 = true → s.dev.filterOf (832 + line) ≤ samples →
    (tgetD s.dev.eic.lines line ⟨false⟩).level ≠ level →
    Answers (.gpioEdge t line level samples) s fun s' => tget s'.dev.eic.lines line = some ⟨level⟩ ∧
      (level ≠ s.dev.fb (r1 .eicSrcCfg (832 + line)) F.eicSrcCfg.POL → s.dev.isActive (832 + line) = false → s'.dev.eic.pend.contains (832 + line) = true) ∧
      s' = { s with dt := s.now t, dev := { s.dev with eic := s'.dev.eic } }) ∧
  (∀ (s : State) (t line samples : Nat), line < 32 → s.dev.on 156 = true → 1 ≤ samples → samples < s.dev.filterOf (832 + line) →
    Answers (.gpioGlitch t line samples) s fun s' => s'.dev.fb (r0 .eicStat) F.eicStat.GLITCH = true ∧ (∀ r, r ≠ r0 .eicStat → s'.dev.rd r = s.dev.rd r) ∧
      s' = { s with dt := s.now t, dev := { s.dev with regs := s'.dev.regs } }) ∧
  (∀ (s : State) (t tgt : Nat), tgt < 34 → s.dev.on 156 = true → s.dev.timerCmp tgt ≤ s.now t → s.dev.timerCmp tgt ≠ dtMax → s.dev.eic.timer.contains tgt = false →
    Answers (.timerInterrupt t tgt) s fun s' => s'.dev.eic.timer = tgt :: s.dev.eic.timer ∧ s' = { s with dt := s.now t, dev := { s.dev with eic := s'.dev.eic } }) ∧
  (∀ (s : State) (t core : Nat), core < 16 → s.dev.coreRuns core = true → s.dev.eic.asleep.contains core = false →
    Answers (.wfi t core) s fun s' => s'.dev.eic.asleep = core :: s.dev.eic.asleep ∧ s' = { s with dt := s.now t, dev := { s.dev with eic := s'.dev.eic } }) ∧
  (∀ (s : State) (t core : Nat), s.dev.eic.asleep.contains core = true → s.dev.wakes core = true →
    Answers (.coreWake t core) s fun s' => s'.dev.eic.asleep.contains core = false ∧ s' = { s with dt := s.now t, dev := { s.dev with eic := s'.dev.eic } })

/-! ## Network and low-speed interfaces, crossings -/

/-- O18. R39, R40 and R390 to R392: receiving, sending and gate control on the network ports. -/
def Obligations.NetworkCommandsComplete : Prop :=
  (∀ (s : State) (t p stamp : Nat) (data : List Nat), p < 14 → s.dev.ethEn p = true →
    unsupported p (data.map (BitVec.ofNat 8)) = false → s.dev.consumed? p (data.map (BitVec.ofNat 8)) = false →
    Answers (.frameReceive t p stamp 0 data) s fun s' =>
      (s'.dev.port p).rx = (s.dev.port p).rx ++ [⟨⟨stamp, s.dev.src (ethSrc p), s.dev.cntOf (ethSrc p)⟩, (ethQueue p).elim false (s.dev.elastic 0), data.map (BitVec.ofNat 8)⟩] ∧
      (s.dev.on 156 = true → s'.dev.eic.pend.contains (768 + p) = true) ∧ s'.dev.regs = s.dev.regs ∧ s'.dev.mem = s.dev.mem) ∧
  (∀ (s : State) (t p stamp : Nat) (data : List Nat), p < 4 → s.dev.ethEn p = true →
    exec (.frameReceive t p stamp 1 data) s = .next { s with dt := s.now t, dev := s.dev.incSat (r1 .ethPortStat p) F.ethPortStat.RXERR }) ∧
  (∀ (s : State) (t p q : Nat) (insert stamped : Bool) (b : Nat) (data : List Nat), q < 8 → s.dev.ethEn p = true → (s.dev.port p).link = true →
    s.dev.mayStart (s.now t) p { queue := q, insert := insert, stamped := stamped, src := ethSrc p + 1, data := (b :: data).map (BitVec.ofNat 8) } = true →
    Answers (.frameTransmit t p q insert stamped (b :: data)) s fun s' =>
      (∃ st, (s'.dev.port p).done = (s.dev.port p).done ++
        [⟨ethSrc p + 1, if insert || stamped then (s.now t * 65536 + Config.egressLatency p) / 65536 else 0, st⟩] ∧ (insert = false → st = Status.ok.code)) ∧
      s.now t < (s'.dev.port p).busyTo ∧ s'.dev.regs = s.dev.regs ∧ s'.dev.mem = s.dev.mem) ∧
  (∀ (s : State) (t p : Nat), p < 4 → s.dev.ethEn p = true → s.dev.fb (r1 .ethPortCfg p) F.ethPortCfg.GCL_EN = true → (s.dev.port p).started = true →
    (s.dev.port p).entry + 1 < (s.dev.port p).nent →
    let done := (s.dev.port p).entryAt + s.dev.rn (r2 .ethPortGcl p (256 * s.dev.f (r1 .ethPortCfg p) F.ethPortCfg.BANK + (s.dev.port p).entry)) % 2 ^ 24
    done ≤ s.now t →
    Answers (.gateEntryEnd t p) s fun s' => (s'.dev.port p).entry = (s.dev.port p).entry + 1 ∧ (s'.dev.port p).entryAt = done ∧
      s' = { s with dt := s.now t, dev := { s.dev with io := s'.dev.io } }) ∧
  (∀ (s : State) (t p : Nat), p < 4 → s.dev.ethEn p = true → (s.dev.port p).link = true → s.dev.fb (r1 .ethPortCfg p) F.ethPortCfg.PREEMPT_EN = true →
    Answers (.preemptionVerify t p) s fun s' => s'.dev.fb (r1 .ethPortStat p) F.ethPortStat.VERIFIED = true ∧
      (∀ r, r ≠ r1 .ethPortStat p → s'.dev.rd r = s.dev.rd r) ∧ s' = { s with dt := s.now t, dev := { s.dev with regs := s'.dev.regs } }) ∧
  (∀ (s : State) (t p : Nat) (up : Bool), p < 14 → s.dev.ethOn p = true →
    Answers (.linkChange t p up) s fun s' => (s'.dev.port p).link = up ∧ (p < 4 → s'.dev.fb (r1 .ethPortStat p) F.ethPortStat.LINK = up) ∧
      (p < 4 → up = false → s'.dev.fb (r1 .ethPortStat p) F.ethPortStat.VERIFIED = false) ∧
      (∀ r, r ≠ r1 .ethPortStat p → s'.dev.rd r = s.dev.rd r) ∧ s' = { s with dt := s.now t, dev := { s.dev with regs := s'.dev.regs, io := s'.dev.io } }) ∧
  (∀ (s : State) (t p q delay : Nat) (data : List Nat), p < 4 → s.dev.ethEn p = true → (s.dev.port p).link = true → delay ≤ 800 →
    Answers (.syncInterval t p 0 q delay data) s fun s' =>
      (s'.dev.port p).txq = (s.dev.port p).txq ++ [{ queue := q % 8, insert := true, stamped := true, src := ethSrc p + 1, data := data.map (BitVec.ofNat 8) }] ∧
      s'.dev.fb (r1 .ethPortStat p) F.ethPortStat.AS_CAPABLE = true ∧ s'.dev.mem = s.dev.mem) ∧
  (∀ (s : State) (t : Nat), s.dev.on 163 = true →
    Answers (.ptmRequest t) s fun s' => s'.dev.bus = .data (s.now t) ∧ s' = { s with dt := s.now t, dev := { s.dev with bus := s'.dev.bus } })

/-- O19. R58, R59 and R63: a dual-clock queue that becomes elastic sets ELASTIC and WAS_ELASTIC, its return clears ELASTIC alone, and a stale double sample is flagged; nothing
but the block's CDC_STATUS changes. -/
def Obligations.CrossingFlags : Prop :=
  (∀ (s : State) (t block q : Nat), q < cdcQueues block →
    Answers (.queueEnterElastic t block q) s fun s' => s'.dev.elastic block q = true ∧
      (s'.dev.f (r1 .cdcStatus block) F.cdcStatus.WAS_ELASTIC).testBit q = true ∧ (∀ r, r ≠ r1 .cdcStatus block → s'.dev.rd r = s.dev.rd r) ∧
      s' = { s with dt := s.now t, dev := { s.dev with regs := s'.dev.regs } }) ∧
  (∀ (s : State) (t block q : Nat), q < cdcQueues block →
    Answers (.queueReturnFixed t block q) s fun s' => s'.dev.elastic block q = false ∧
      s'.dev.f (r1 .cdcStatus block) F.cdcStatus.WAS_ELASTIC = s.dev.f (r1 .cdcStatus block) F.cdcStatus.WAS_ELASTIC ∧ (∀ r, r ≠ r1 .cdcStatus block → s'.dev.rd r = s.dev.rd r) ∧
      s' = { s with dt := s.now t, dev := { s.dev with regs := s'.dev.regs } }) ∧
  (∀ (s : State) (t block n : Nat), n < cdcSamples block →
    Answers (.crossingStale t block n) s fun s' => (s'.dev.f (r1 .cdcStatus block) F.cdcStatus.STALE).testBit n = true ∧ (∀ r, r ≠ r1 .cdcStatus block → s'.dev.rd r = s.dev.rd r) ∧
      s' = { s with dt := s.now t, dev := { s.dev with regs := s'.dev.regs } })

/-- O20. CAN, SPI and TDM (R388, R394, R395). -/
def Obligations.LowSpeedCommandsComplete : Prop :=
  (∀ (s : State) (t n fmt id stamp : Nat) (data : List Nat), n < 4 → s.dev.on 166 = true → s.dev.on 149 = false →
    Answers (.canFrameReceive t n fmt id stamp false data) s fun s' =>
      tgetD s'.dev.io.can n [] = tgetD s.dev.io.can n [] ++ [⟨⟨stamp, s.dev.src (0x0130 + 2 * n), s.dev.cntOf (0x0130 + 2 * n)⟩, false, data.map (BitVec.ofNat 8)⟩] ∧
      (s.dev.on 156 = true → s'.dev.eic.pend.contains (812 + n) = true) ∧ s'.dev.regs = s.dev.regs ∧ s'.dev.mem = s.dev.mem) ∧
  (∀ (s : State) (t n : Nat) (rising : Bool) (stamp : Nat), n < 2 → s.dev.spiEn n = true → rising = !(s.dev.fb (r1 .spiCfg n) F.spiCfg.DRDY_POL) →
    s.dev.trigSlots n ≠ [] → (s.dev.spi n).run = none →
    Answers (.spiDataReady t n rising stamp) s fun s' => (s'.dev.spi n).run = some (stamp, s.dev.trigSlots n) ∧ (s.dev.fus.subs = [] → s'.dev.mem = s.dev.mem)) ∧
  (∀ (s : State) (t c n slot v : Nat), n < 2 → slot < 16 → hits s t c (r2 .spiSlot n slot) .write = true → s.dev.spiEn n = true → v.testBit 30 = true → v.testBit 31 = false →
    (s.dev.spi n).run = none →
    Answers (.spiGo t c n slot v) s fun s' => (s'.dev.spi n).run = some (s.now t, [slot]) ∧ s'.dev.bus = .ok ∧
      (∀ r, r ≠ r2 .spiSlot n slot → s'.dev.rd r = s.dev.rd r) ∧ s'.dev.mem = s.dev.mem) ∧
  (∀ (s : State) (t n stamp : Nat) (slots : List Nat) (rd : List (List Nat)), n < 2 → s.dev.on 166 = true → s.dev.on 149 = false → (s.dev.spi n).run = some (stamp, slots) →
    (s.dev.spi n).waiting = [] → (s.dev.spi n).goes = [] →
    Answers (.spiTransactionEnd t n rd) s fun s' => (s'.dev.spi n).run = none ∧ (s.dev.on 156 = true → s'.dev.eic.pend.contains (810 + n) = true) ∧
      (∃ x, s'.dev.recs = x :: s.dev.recs ∧ x.kind = .spi ∧ x.key = ⟨stamp, s.dev.src (0x0140 + n), s.dev.cntOf (0x0140 + n)⟩) ∧ s'.dev.regs = s.dev.regs ∧ s'.dev.mem = s.dev.mem) ∧
  (∀ (s : State) (t n stamp : Nat) (data : List Nat), n < 2 → s.dev.on 166 = true →
    Answers (.tdmBlock t n stamp data) s fun s' =>
      (tgetD s'.dev.io.tdm n {}).rx = (tgetD s.dev.io.tdm n {}).rx ++ [(⟨stamp, s.dev.src (0x0148 + n), s.dev.cntOf (0x0148 + n)⟩, data.map (BitVec.ofNat 8))] ∧
      (tgetD s'.dev.io.tdm n {}).tx = (tgetD s.dev.io.tdm n {}).tx.tail ∧ s'.dev.regs = s.dev.regs ∧ s'.dev.mem = s.dev.mem)

/-! ## Safe stop -/

/-- O21. R396 and R398: a low line sets STOP_IN of its input, lines that differ for longer than DISC_MS make it DISCREPANT, and with DYN STOP_REQ toggles
every 500 µs while no request shows. -/
def Obligations.SafeStopCommandsComplete : Prop :=
  (∀ (s : State) (t k heldUs : Nat) (a b : Bool), k < 2 → s.dev.earlyOn = true → s.dev.f (r0 .ssCfg) F.ssCfg.TP_US ≤ heldUs →
    (s.dev.f (r0 .ssStat) F.ssStat.DISC).testBit k = false →
    Answers (.safeStopChange t k a b heldUs) s fun s' =>
      s'.dev.ssHigh k 0 = a ∧ s'.dev.ssHigh k 1 = b ∧ (s'.dev.f (r0 .ssStat) F.ssStat.STOP_IN).testBit k = !(a && b) ∧ (s.dev.fus.subs = [] → s'.dev.mem = s.dev.mem)) ∧
  (∀ (s : State) (t k since : Nat), k < 2 → s.dev.earlyOn = true → tget s.dev.ss.differ k = some since →
    s.dev.f (r0 .ssCfg) F.ssCfg.DISC_MS * 1000000 < s.dev.elapsed since (s.now t) →
    Answers (.safeStopDiscrepancy t k) s fun s' => (s'.dev.f (r0 .ssStat) F.ssStat.DISC).testBit k = true ∧
      (s'.dev.f (r0 .ssStat) F.ssStat.STOP_IN).testBit k = true ∧ (s.dev.fus.subs = [] → s'.dev.mem = s.dev.mem)) ∧
  (∀ (s : State) (t : Nat), s.dev.earlyOn = true → s.dev.fb (r0 .ssCfg) F.ssCfg.DYN = true → s.dev.fb (r0 .ssStat) F.ssStat.REQ = false →
    500000 ≤ s.dev.elapsed s.dev.ss.phaseAt (s.now t) →
    Answers (.dynamicSignalEdge t) s fun s' => s'.dev.stopReqLevel = !s.dev.stopReqLevel ∧ s' = { s with dt := s.now t, dev := { s.dev with ss := s'.dev.ss } })

/-! ## Rendezvous cells -/

/-- O22. R107, R108, R110: an operation whose check fails completes with the status of the failing check and the cell's COUNT; no cell changes. -/
def Obligations.RefusedCellOperations : Prop :=
  ∀ (s : State) (t op ctx cell arg rsvd : Nat) (via : CellVia) (st : Status), 1 ≤ op → op ≤ 10 → viaCtx s t via = some ctx → cell < 2 ^ 17 → arg < 2 ^ 32 →
    s.dev.cellCount cell < 2 ^ 32 → s.dev.cellFail ctx op cell arg (match via with | .port _ _ => rsvd | .stage _ _ => 0) = some st →
    Answers (cellInstr op t via cell arg rsvd) s fun s' => cellAnswer s'.dev via st (s.dev.cellCount cell) ∧ s'.dev.cells = s.dev.cells ∧ s'.dev.fab = s.dev.fab ∧ s'.dev.mem = s.dev.mem

/-- O23. ACQUIRE, TRY_ACQUIRE, CELL_RELEASE (R108, R109, R111): a unit is taken into the hold table, returned from it, or passed to the next waiter; ACQUIRE of none waits,
TRY_ACQUIRE of none is BUSY, RELEASE by no holder DENIED. -/
def Obligations.SemaphoreOperations : Prop :=
  (∀ (s : State) (t ctx cell : Nat) (via : CellVia) (x : Cell), uses s t via ctx cell x → waitsOk s ctx x → x.type = 0 → x.count < 2 ^ 32 → (s.dev.ctx? ctx).isSome = true →
    (s.dev.holds ctx).length < 16 → 0 < x.count →
    Answers (.acquire t via cell 0 0) s fun s' => cellAnswer s'.dev via .ok (x.count - 1) ∧ tget s'.dev.cells cell = some { x with count := x.count - 1 } ∧
      (∃ k : Key, k.dt = s.now t ∧ s'.dev.holds ctx = s.dev.holds ctx ++ [(cell, k)]) ∧ otherCellsKept s.dev s'.dev cell) ∧
  (∀ (s : State) (t ctx cell : Nat) (via : CellVia) (x : Cell), uses s t via ctx cell x → waitsOk s ctx x → x.type = 0 → (s.dev.holds ctx).length < 16 → x.count = 0 →
    Answers (.acquire t via cell 0 0) s fun s' => waitsIn s'.dev cell ctx 1 ∧ s'.dev.cellCount cell = 0 ∧ otherCellsKept s.dev s'.dev cell) ∧
  (∀ (s : State) (t ctx cell : Nat) (via : CellVia) (x : Cell), uses s t via ctx cell x → x.type = 0 → x.count < 2 ^ 32 → (s.dev.ctx? ctx).isSome = true →
    (s.dev.holds ctx).length < 16 → 0 < x.count →
    Answers (.tryAcquire t via cell 0 0) s fun s' => cellAnswer s'.dev via .ok (x.count - 1) ∧ tget s'.dev.cells cell = some { x with count := x.count - 1 } ∧
      (∃ k : Key, k.dt = s.now t ∧ s'.dev.holds ctx = s.dev.holds ctx ++ [(cell, k)]) ∧ otherCellsKept s.dev s'.dev cell) ∧
  (∀ (s : State) (t ctx cell : Nat) (via : CellVia) (x : Cell), uses s t via ctx cell x → x.type = 0 → (s.dev.holds ctx).length < 16 → x.count = 0 →
    Answers (.tryAcquire t via cell 0 0) s fun s' => cellAnswer s'.dev via .busy 0 ∧ s'.dev.cells = s.dev.cells ∧ s'.dev.fab = s.dev.fab ∧ s'.dev.mem = s.dev.mem) ∧
  (∀ (s : State) (t ctx cell : Nat) (via : CellVia) (x : Cell), uses s t via ctx cell x → x.type = 0 → x.count < x.target → x.target < 2 ^ 32 → x.waiters = [] →
    (∃ k, (cell, k) ∈ s.dev.holds ctx) →
    Answers (.cellRelease t via cell 0 0) s fun s' => cellAnswer s'.dev via .ok (x.count + 1) ∧ tget s'.dev.cells cell = some { x with count := x.count + 1 } ∧
      (s'.dev.holds ctx).length + 1 = (s.dev.holds ctx).length ∧ otherCellsKept s.dev s'.dev cell) ∧
  (∀ (s : State) (t ctx cell : Nat) (via : CellVia) (x : Cell) (w : Waiter), uses s t via ctx cell x → x.type = 0 → x.count = 0 → 0 < x.target → x.waiters = [w] →
    (∃ k, (cell, k) ∈ s.dev.holds ctx) → w.ctx ≠ ctx → (s.dev.ctx? w.ctx).isSome = true → (s.dev.holds w.ctx).length < 16 → s.dev.lapsed (s.now t) w = false →
    Answers (.cellRelease t via cell 0 0) s fun s' => cellAnswer s'.dev via .ok 0 ∧ tget s'.dev.cells cell = some { x with waiters := [] } ∧
      s'.dev.holds w.ctx = s.dev.holds w.ctx ++ [(cell, w.key)] ∧ otherCellsKept s.dev s'.dev cell) ∧
  (∀ (s : State) (t ctx cell : Nat) (via : CellVia) (x : Cell), uses s t via ctx cell x → x.type = 0 → x.count < 2 ^ 32 → (∀ k, (cell, k) ∉ s.dev.holds ctx) →
    Answers (.cellRelease t via cell 0 0) s fun s' => cellAnswer s'.dev via .denied x.count ∧ s'.dev.cells = s.dev.cells ∧ s'.dev.fab = s.dev.fab ∧ s'.dev.mem = s.dev.mem)

/-- O24. ARRIVE and ARRIVE_WAIT (R108): an arrival counts; at TARGET every waiter is released, COUNT returns to 0 and PHASE toggles; before it ARRIVE_WAIT waits. -/
def Obligations.BarrierOperations : Prop :=
  (∀ (s : State) (t ctx cell : Nat) (via : CellVia) (x : Cell), uses s t via ctx cell x → x.type = 1 → x.count + 1 < x.target → x.target < 2 ^ 32 →
    Answers (.arrive t via cell 0 0) s fun s' => cellAnswer s'.dev via .ok (x.count + 1) ∧ tget s'.dev.cells cell = some { x with count := x.count + 1 } ∧ otherCellsKept s.dev s'.dev cell) ∧
  (∀ (s : State) (t ctx cell : Nat) (via : CellVia) (x : Cell), uses s t via ctx cell x → x.type = 1 → x.target ≤ x.count + 1 →
    Answers (.arrive t via cell 0 0) s fun s' => cellAnswer s'.dev via .ok 0 ∧ tget s'.dev.cells cell = some { x with count := 0, phase := !x.phase, waiters := [] } ∧ otherCellsKept s.dev s'.dev cell) ∧
  (∀ (s : State) (t ctx cell : Nat) (via : CellVia) (x : Cell), uses s t via ctx cell x → waitsOk s ctx x → x.type = 1 → x.count + 1 < x.target →
    Answers (.arriveWait t via cell 0 0) s fun s' => waitsIn s'.dev cell ctx 5 ∧ s'.dev.cellCount cell = x.count + 1 ∧ otherCellsKept s.dev s'.dev cell) ∧
  (∀ (s : State) (t ctx cell : Nat) (via : CellVia) (x : Cell), uses s t via ctx cell x → waitsOk s ctx x → x.type = 1 → x.target ≤ x.count + 1 →
    Answers (.arriveWait t via cell 0 0) s fun s' => cellAnswer s'.dev via .ok 0 ∧ tget s'.dev.cells cell = some { x with count := 0, phase := !x.phase, waiters := [] } ∧ otherCellsKept s.dev s'.dev cell)

/-- O25. FLAG_SET, FLAG_CLEAR, WAIT_ANY, WAIT_ALL, READ (R108): flags are set and cleared by ARG; a waiter the flags satisfy does not wait on. -/
def Obligations.FlagOperations : Prop :=
  (∀ (s : State) (t ctx cell arg : Nat) (via : CellVia) (x : Cell), uses s t via ctx cell x → x.type = 2 → x.count < 2 ^ 32 → arg < 2 ^ 32 →
    Answers (.flagSet t via cell arg 0) s fun s' => cellAnswer s'.dev via .ok (x.count ||| arg) ∧
      (∃ k : Key, k.dt = s.now t ∧
        tget s'.dev.cells cell = some { x with count := x.count ||| arg, waiters := x.waiters.filter fun w => !flagMet w.op (x.count ||| arg) w.arg, flagKey := some k }) ∧
      otherCellsKept s.dev s'.dev cell) ∧
  (∀ (s : State) (t ctx cell arg : Nat) (via : CellVia) (x : Cell), uses s t via ctx cell x → x.type = 2 → x.count < 2 ^ 32 → arg < 2 ^ 32 →
    Answers (.flagClear t via cell arg 0) s fun s' => cellAnswer s'.dev via .ok (x.count - (x.count &&& arg)) ∧
      tget s'.dev.cells cell = some { x with count := x.count - (x.count &&& arg) } ∧ otherCellsKept s.dev s'.dev cell ∧ s'.dev.fab = s.dev.fab) ∧
  (∀ (s : State) (t ctx cell arg : Nat) (via : CellVia) (x : Cell), uses s t via ctx cell x → waitsOk s ctx x → x.type = 2 → x.count < 2 ^ 32 → arg < 2 ^ 32 →
    Answers (.waitAny t via cell arg 0) s fun s' => otherCellsKept s.dev s'.dev cell ∧
      (x.count &&& arg ≠ 0 → cellAnswer s'.dev via .ok x.count ∧ s'.dev.cells = s.dev.cells) ∧ (x.count &&& arg = 0 → waitsIn s'.dev cell ctx 8)) ∧
  (∀ (s : State) (t ctx cell arg : Nat) (via : CellVia) (x : Cell), uses s t via ctx cell x → waitsOk s ctx x → x.type = 2 → x.count < 2 ^ 32 → arg < 2 ^ 32 →
    Answers (.waitAll t via cell arg 0) s fun s' => otherCellsKept s.dev s'.dev cell ∧
      (x.count &&& arg = arg → cellAnswer s'.dev via .ok x.count ∧ s'.dev.cells = s.dev.cells) ∧ (x.count &&& arg ≠ arg → waitsIn s'.dev cell ctx 9)) ∧
  (∀ (s : State) (t ctx cell : Nat) (via : CellVia) (x : Cell), uses s t via ctx cell x → x.count < 2 ^ 32 →
    Answers (.read t via cell 0 0) s fun s' => cellAnswer s'.dev via .ok x.count ∧ s'.dev.cells = s.dev.cells ∧ s'.dev.fab = s.dev.fab ∧ s'.dev.mem = s.dev.mem)

/-- O26. R110: a read of RDV_PORTn_RES returns the result, moves STATE from done to idle and clears REFUSED. -/
def Obligations.PortResultRead : Prop :=
  ∀ (s : State) (t c n : Nat), n < 64 → hits s t c (r1 .rdvPortRes n) .read = true → (s.dev.portCtx n).isSome = true →
    Answers (.rdvResultRead t c n) s fun s' =>
      s'.dev.bus = .data (s.dev.rn (r1 .rdvPortRes n)) ∧ s'.dev.fb (r1 .rdvPortRes n) F.rdvPortRes.REFUSED = false ∧
      (s.dev.f (r1 .rdvPortRes n) F.rdvPortRes.STATE = 2 → s'.dev.f (r1 .rdvPortRes n) F.rdvPortRes.STATE = 0) ∧
      (s.dev.f (r1 .rdvPortRes n) F.rdvPortRes.STATE ≠ 2 → s'.dev.f (r1 .rdvPortRes n) F.rdvPortRes.STATE = s.dev.f (r1 .rdvPortRes n) F.rdvPortRes.STATE) ∧
      (∀ r, r ≠ r1 .rdvPortRes n → s'.dev.rd r = s.dev.rd r) ∧ s' = { s with dt := s.now t, dev := { s.dev with bus := s'.dev.bus, regs := s'.dev.regs } }

/-! ## The fabric -/

/-- O27. R128, R129: the weir dispatches the lowest dispatchable stage of a basin; it takes its slots and runs, and the region's count of dispatches advances.  Dimensions of a
parameter slot that do not fit tear the context down (R122). -/
def Obligations.LowestStageIsDispatched : Prop :=
  (∀ (s : State) (t l i : Nat) (b : Basin), s.dev.basin? l = some b → i < hdrNstage b.header → s.dev.dispatchable (s.now t) l b i = true →
    (∀ j, j < i → s.dev.dispatchable (s.now t) l b j = false) →
    (stParam (b.stages.getD i 0) ≠ 63 → ∀ slot, s.dev.dimsFit (b.stages.getD i 0) b (s.dev.dimsFor l (b.stages.getD i 0) b (some slot)) (s.dev.winOf l i) = true) →
    Answers (.stageDispatch t l) s fun s' =>
      (∃ b' r, s'.dev.basin? l = some b' ∧ tget b'.running i = some r ∧ r.worked = false ∧ r.sent = 0 ∧ r.at_ = s.now t ∧ b'.ctx = b.ctx ∧ b'.stages = b.stages) ∧
      s'.dev.rn (r1 .pbuWeirDispatched (l / 64)) = (s.dev.rn (r1 .pbuWeirDispatched (l / 64)) + 1) % 2 ^ 64 ∧
      s' = { s with dt := s.now t, dev := { s.dev with fab := s'.dev.fab, regs := s'.dev.regs } }) ∧
  (∀ (s : State) (t l i : Nat) (b : Basin), s.dev.basin? l = some b → i < hdrNstage b.header → s.dev.dispatchable (s.now t) l b i = true →
    (∀ j, j < i → s.dev.dispatchable (s.now t) l b j = false) → stParam (b.stages.getD i 0) ≠ 63 →
    (∀ slot, s.dev.dimsFit (b.stages.getD i 0) b (s.dev.dimsFor l (b.stages.getD i 0) b (some slot)) (s.dev.winOf l i) = false) →
    Answers (.stageDispatch t l) s fun s' => s'.dev = s.dev.teardown (s.now t) b.ctx .illegalConfig) ∧
  (∀ (s : State) (t l : Nat) (b : Basin), s.dev.basin? l = some b → (∀ j, s.dev.dispatchable (s.now t) l b j = false) →
    exec (.stageDispatch t l) s = .next { s with dt := s.now t })

/-- O28. LOAD, VECTOR, REDUCE, NORMALISE, CONVERT, STORE and the two forms of MATRIX: a running stage does its operation once; only its result slot's planes change in memory, and
accumulation changes none. -/
def Obligations.StagesDoTheirOperation : Prop :=
  (∀ (s : State) (t l st : Nat) (row0 : WinAt) (b : Basin) (r : Running) (w : Nat), s.dev.atWork l st 0 = some (b, r, w) →
    Answers (.load t l st row0) s fun s' => stageWorked s'.dev l st b r r.post ∧
      fabricOnly s s' t (outsideTile (s.dev.tileOut l b r w (s.dev.winOf l st)) (s.dev.tileOut l b r w (s.dev.winOf l st)).n)) ∧
  (∀ (s : State) (t l st : Nat) (op : AttnOp) (b : Basin) (r : Running) (w : Nat), s.dev.atWork l st 1 = some (b, r, w) → (s.dev.spillAt b.ctx l = none ∨ stSubop w ≠ 2) →
    Answers (.matrix t l st op) s fun s' => stageWorked s'.dev l st b r r.post ∧
      (stSubop w ≠ 2 → s'.dev.mem = s.dev.mem ∧ ∃ b', s'.dev.basin? l = some b' ∧ b'.acc.length = r.dim0 * r.dim1) ∧
      fabricOnly s s' t (outsideTile (s.dev.tileOut l b r (s.dev.attnWord l w op) none) (r.dim0 * r.dim1))) ∧
  (∀ (s : State) (t l st slot layer group fk fq per at_ : Nat) (b : Basin) (r : Running) (w : Nat) (a : AttnRec) (q : KvSeq), s.dev.atWork l st 1 = some (b, r, w) → stSubop w = 2 →
    s.dev.spillAt b.ctx l = some (a, at_) → tget s.dev.kv.seqs slot = some q →
    let op := AttnOp.scores slot layer group fk fq per
    let w' := s.dev.attnWord l w op
    let width := max 1 (blockWidth (q.len + q.grow) a.heads a.bf16)
    let n := tileBytes (stFmtOut w') (r.dim0 * r.dim1) r.dim0 false
    let dest := at_ + a.rowBytes fk
    let here := s.dev.slotAddr l (b.entry (stOut w')) r.slotOut
    fk / width < (q.len + q.grow - 1) / width → (dest + n ≤ here ∨ here + n ≤ dest) →
    Answers (.matrix t l st op) s fun s' => stageWorked s'.dev l st b r false ∧ s'.dev.mem.read dest n = s'.dev.mem.read here n ∧
      ∃ b', s'.dev.basin? l = some b' ∧ b'.sheets = b.sheets ++ [(stOut w', dest, n)]) ∧
  (∀ (s : State) (t l st : Nat) (b : Basin) (r : Running) (w : Nat), s.dev.atWork l st 2 = some (b, r, w) →
    Answers (.vector t l st) s fun s' => stageWorked s'.dev l st b r r.post ∧ fabricOnly s s' t (outsideTile (s.dev.tileOut l b r w none) (s.dev.tileA l b r w none ⟨0, 0⟩).n)) ∧
  (∀ (s : State) (t l st : Nat) (last : Bool) (b : Basin) (r : Running) (w : Nat), s.dev.atWork l st 3 = some (b, r, w) →
    Answers (.reduce t l st last) s fun s' => stageWorked s'.dev l st b r (if stSubop w = 4 ∧ last = false then false else r.post) ∧
      fabricOnly s s' t (outsideTile (s.dev.tileOut l b r w none) (if stSubop w = 4 then r.dim2 else r.dim0 * r.dim2))) ∧
  (∀ (s : State) (t l st : Nat) (op : AttnOp) (b : Basin) (r : Running) (w : Nat), s.dev.atWork l st 4 = some (b, r, w) →
    let w' := s.dev.attnWord l w op
    let a := s.dev.tileA l b r w' none ⟨0, 0⟩
    let out := s.dev.tileOut l b r w' none
    Answers (.normalise t l st op) s fun s' => stageWorked s'.dev l st b r r.post ∧
      fabricOnly s s' t (fun x => outsideTile out (r.dim0 * (r.dim1 * r.dim2)) x ∧ (x < a.addr ∨ a.addr + 2 * out.n ≤ x)) ∧
      (s.dev.attnAt b.ctx l = none → ∀ x, outsideTile out (r.dim0 * (r.dim1 * r.dim2)) x → s'.dev.mem.get x = s.dev.mem.get x)) ∧
  (∀ (s : State) (t l st : Nat) (b : Basin) (r : Running) (w : Nat), s.dev.atWork l st 5 = some (b, r, w) →
    Answers (.convert t l st) s fun s' => stageWorked s'.dev l st b r r.post ∧ fabricOnly s s' t (outsideTile (s.dev.tileOut l b r w none) (s.dev.tileA l b r w none ⟨0, 0⟩).n)) ∧
  (∀ (s : State) (t l st : Nat) (b : Basin) (r : Running) (w : Nat), s.dev.atWork l st 6 = some (b, r, w) →
    Answers (.store t l st) s fun s' => stageWorked s'.dev l st b r r.post ∧
      fabricOnly s s' t fun a => outsideTile (s.dev.tileOut l b r w none) (s.dev.tileOut l b r w none).n a ∧
        (a < (s.dev.tileOut l b r w none).addr ∨ (s.dev.tileOut l b r w none).addr + (s.dev.tileOut l b r w none).size ≤ a))

/-- O29. R146 and R160: INT32 addition saturates, maximum and minimum are exact, and a result written to INT32 stays in the symmetric range. -/
def Obligations.IntegerVectorArithmetic : Prop :=
  ∀ a b lo hi : Nat,
    int32Vector 0 a b lo hi = max (-(2 ^ 31)) (min (2 ^ 31 - 1) (sext 32 a + sext 32 b)) ∧
    int32Vector 3 a b lo hi = max (sext 32 a) (sext 32 b) ∧ int32Vector 4 a b lo hi = min (sext 32 a) (sext 32 b) ∧
    toIntFmt (2 ^ 31 - 1) none (FV.ofInt (int32Vector 3 a b lo hi) 0) = max (-(2 ^ 31 - 1)) (max (sext 32 a) (sext 32 b))

/-- O30. R144 and R161: a binary32 pattern that is no NaN is decoded and encoded back unchanged. -/
def Obligations.Binary32RoundTrip : Prop := ∀ v : Nat, v < 2 ^ 32 → dec32 v ≠ .nan → enc32 (dec32 v) = v

/-- O31. R124, R132, R134: FORWARD injects a flit of its slot for its destination, the last one takes a credit; a delivered flit is written into the slot being filled and with the
last one the slot becomes ready; a credit returns once every consumer has freed its slot. -/
def Obligations.FlitsAndCredits : Prop :=
  (∀ (s : State) (t l st : Nat) (b : Basin) (r : Running) (w : Nat), s.dev.atWork l st 7 = some (b, r, w) → s.dev.gated (s.dev.payer b.ctx) 6 = false →
    let data := s.dev.mem.read (s.dev.slotAddr l (b.entry (stInA w)) r.slotA + 256 * r.sent) (min 256 (s.dev.slotBytes w r - 256 * r.sent))
    let last := decide (r.sent + 1 = s.dev.slotFlits w r)
    Answers (.forward t l st 1) s fun s' => ∃ (d1 : Dev) (k : Key), s'.dev = d1.cnlDrain (s.now t) ∧ k.dt = s.now t ∧
      (stRemote w = false → d1.fab.flits = s.dev.fab.flits ++ (s.dev.targets b.ctx w).map fun dst => ⟨l, dst, (b.entry (stOut w)).peerEntry, stOut w, r.sent, data, last, 1, k⟩) ∧
      (stRemote w = true → d1.fab.flits = s.dev.fab.flits ∧
        d1.fab.remote = s.dev.fab.remote ++ [(stModule w, ⟨l, remoteDst w, (b.entry (stOut w)).peerEntry, stOut w, r.sent, data, last, 1, k⟩)]) ∧
      (∃ b', d1.basin? l = some b' ∧ tget b'.running st = some { r with sent := r.sent + 1, worked := last } ∧
        (last = true → (b'.entry (stOut w)).credits = (b.entry (stOut w)).credits - 1)) ∧ s'.dev.mem = s.dev.mem) ∧
  (∀ (s : State) (t src dst entry : Nat) (f : Flit) (b : Basin) (slot : Nat) (rest : List Nat),
    s.dev.fab.flits.find? (fun f => f.src == src && f.dst == dst) = some f → f.entry = entry → s.dev.basin? dst = some b → (b.entry entry).freeQ = slot :: rest →
    Answers (.flitDeliver t src dst entry) s fun s' => ∃ d1 : Dev, s'.dev = d1.settleEnds (s.now t) ∧ d1.fab.flits = s.dev.fab.flits.erase f ∧
      (f.last = true → ∃ b', d1.basin? dst = some b' ∧ (b'.entry entry).readyQ = (b.entry entry).readyQ ++ [(slot, s.now t)] ∧ (b'.entry entry).freeQ = rest) ∧
      (let at_ := s.dev.slotAddr dst (b.entry entry) slot + 256 * f.index
       let bytes := f.data.take ((b.entry entry).size - 256 * f.index)
       d1.mem.read at_ bytes.length = bytes ∧ ∀ a, (a < at_ ∨ at_ + bytes.length ≤ a) → d1.mem.get a = s.dev.mem.get a)) ∧
  (∀ (s : State) (t src dst entry : Nat) (f : Flit), s.dev.fab.flits.find? (fun f => f.src == src && f.dst == dst) = some f → f.entry ≠ entry →
    exec (.flitDeliver t src dst entry) s = .next { s with dt := s.now t }) ∧
  (∀ (s : State) (t l e : Nat) (b : Basin), s.dev.basin? l = some b → s.dev.remoteBack l e = none → s.dev.consumers l e ≠ [] → (∀ c ∈ s.dev.consumers l e, (⟨l, e, c⟩ : CreditBack) ∈ s.dev.fab.credits) →
    Answers (.creditReturn t l e) s fun s' => ∃ d1 : Dev, s'.dev = d1.settleEnds (s.now t) ∧ d1 = { s.dev with fab := d1.fab } ∧
      ∃ b', d1.basin? l = some b' ∧ (b'.entry e).credits = (b.entry e).credits + 1) ∧
  (∀ (s : State) (t l e : Nat) (b : Basin) (k : CreditBack), s.dev.basin? l = some b → s.dev.remoteBack l e = some k →
    Answers (.creditReturn t l e) s fun s' => ∃ d1 : Dev, s'.dev = d1.settleEnds (s.now t) ∧ d1 = { s.dev with fab := d1.fab } ∧ d1.fab.credits = s.dev.fab.credits.erase k ∧
      ∃ b', d1.basin? l = some b' ∧ (b'.entry e).credits = (b.entry e).credits + 1)

/-- O32. R97, R98, R124, R130: the end of a tile whose stage has done its operation completes: the stage no longer runs, the weir's STALLS counter takes its cycles, and for local
entries the operand slot is free and the result slot ready; a stage that has not, or no stage, is left alone.  The end of a switch that is due, its basins drained, completes: the outgoing
context is saved and holds no basin, the incoming one runs and its basins are back as they were saved. -/
def Obligations.TilesAndSwitchesEnd : Prop :=
  (∀ (s : State) (t l st cycles stalls : Nat) (b : Basin) (r : Running), s.dev.basin? l = some b → tget b.running st = some r → r.worked = true →
    Answers (.tileEnd t l st cycles stalls) s fun s' => ∃ d1 : Dev, s' = { s with dt := s.now t, dev := s'.dev } ∧
      s'.dev = ((d1.cnlDrain (s.now t)).endSteps (s.now t)).settleEnds (s.now t) ∧ (∀ b', d1.basin? l = some b' → tget b'.running st = none)) ∧
  (∀ (s : State) (t l st cycles stalls : Nat) (b : Basin) (r : Running), s.dev.basin? l = some b → tget b.running st = some r → r.worked = true → r.post = true →
    let w := b.stages.getD st 0
    (b.entry (stInA w)).kind = 0 → stInB w = 63 → r.slotB = none → stParam w = 63 → r.slotParam = none → (b.entry (stOut w)).kind = 0 → stOut w ≠ stInA w → stLast w = false → b.sheets = [] →
    Answers (.tileEnd t l st cycles stalls) s fun s' => ∃ (d1 : Dev) (b' : Basin), s'.dev = ((d1.cnlDrain (s.now t)).endSteps (s.now t)).settleEnds (s.now t) ∧
      d1.basin? l = some b' ∧ tget b'.running st = none ∧ b'.entry (stInA w) = (b.entry (stInA w)).giveBack r.slotA ∧ b'.entry (stOut w) = (b.entry (stOut w)).post r.slotOut (s.now t) ∧
      d1.rn (r1 .pbuWeirStalls (l / 64)) = (s.dev.rn (r1 .pbuWeirStalls (l / 64)) + min (min 2048 cycles) stalls) % 2 ^ 64 ∧ d1.mem = s.dev.mem) ∧
  (∀ (s : State) (t region : Nat) (x : Switch), s.dev.fab.switches.find? (fun x => x.region == region && decide (x.doneAt ≤ s.now t) && (x.out == x.inn || s.dev.drained x.out)) = some x →
    (s.dev.ctx? x.out).isSome = true → (s.dev.ctx? x.inn).isSome = true →
    Answers (.contextSwitchDone t region) s fun s' => s' = { s with dt := s.now t, dev := s'.dev } ∧ s'.dev.ctxState x.inn = 2 ∧
      (x.out ≠ x.inn → s'.dev.ctxState x.out = 3 ∧ ((∀ e ∈ tgetD s.dev.fab.saved x.inn [], e.2.ctx = x.inn) → ∀ e ∈ s'.dev.fab.basins, e.2.ctx ≠ x.out)) ∧
      (∀ e ∈ tgetD s.dev.fab.saved x.inn [], ((tgetD s.dev.fab.saved x.inn []).map Prod.fst).Nodup → s'.dev.basin? e.1 = some e.2) ∧
      (∀ y ∈ s.dev.fab.switches.erase x, y ∈ s'.dev.fab.switches))

/-- O33. R100, R101, R115: an uncorrectable store error, the deadlock watchdog and an expired hold limit tear their context down: it is no longer bound; a torn-down context holds no
basin. -/
def Obligations.FaultsTearDown : Prop :=
  (∀ (s : State) (t l a : Nat) (b : Basin) (x : Ctx), l < 256 → s.dev.on (pairOf (s.dev.physical l)) = true → s.dev.basin? l = some b → s.dev.ctx? b.ctx = some x → x.torn = false →
    Answers (.basinStoreUncorrectable t l a) s fun s' => s'.dev.ctxState b.ctx = 0) ∧
  (∀ (s : State) (t l a : Nat), l < 256 → s.dev.on (pairOf (s.dev.physical l)) = true → s.dev.basin? l = none →
    Answers (.basinStoreUncorrectable t l a) s fun s' => s'.dev.fab.uncorr = (s.dev.physical l, s.dev.opTime (s.now t)) :: s.dev.fab.uncorr ∧
      s'.dev.regs = s.dev.regs ∧ s'.dev.mem = s.dev.mem) ∧
  (∀ (s : State) (t c : Nat) (x : Ctx), s.dev.ctx? c = some x → s.dev.watched c = true →
    s.dev.f (r0 .pbuCtrl) F.pbuCtrl.WDOG_MS * 1000000 ≤ s.dev.elapsed x.lastChange (s.now t) →
    Answers (.deadlockWatchdog t c) s fun s' => s'.dev.ctxState c = 0) ∧
  (∀ (s : State) (t e : Nat) (y : Carry) (x : Ctx), (s.dev.syncCarries (s.now t)).fab.carries = [y] → (s.dev.syncCarries (s.now t)).holdEnd y = some e → e < s.now t →
    (∀ c w, tget s.dev.cells y.cell = some c → w ∈ c.waiters → w.ctx = y.by_ → s.dev.lapsed e w = false) → s.dev.ctx? y.holder = some x → x.torn = false →
    Answers (.holdLimitExpire t) s fun s' => s'.dev.ctxState y.holder = 0)

/-- O34. R101: a torn-down context is unbound and marked, and none of the fabric's basins is its any more. -/
def Obligations.TornContextHoldsNothing : Prop :=
  ∀ (d : Dev) (now c : Nat) (fault : CtxFault) (x : Ctx), d.ctx? c = some x → x.torn = false →
    (d.teardown now c fault).ctxState c = 0 ∧ (∀ e ∈ (d.teardown now c fault).fab.basins, e.2.ctx ≠ c) ∧ ∀ y, (d.teardown now c fault).ctx? c = some y → y.torn = true

/-- O35. R67: a pair that is ready lets the bind of a staged cascade complete; with no cascade staged nothing happens. -/
def Obligations.PairReadyBinds : Prop :=
  (∀ (s : State) (t pd h : Nat) (c : Cascade) (q : Nat × Nat), pd < 136 → s.dev.on pd = true → tgetD s.dev.pow.pairs pd 0 ≤ s.now t → s.dev.fab.cascades = [(h, c)] → c.staged = true →
    s.dev.usable (s.now t) c = true → c.binding = some q →
    Answers (.basinPairReady t pd) s fun s' => ∃ d1 : Dev, s'.dev = d1.finishAt (s.now t) q .ok 0 [] ∧ ∃ c', d1.cascade? h = some c' ∧ c'.bound = true ∧ c'.staged = false) ∧
  (∀ (s : State) (t pd : Nat), (∀ e ∈ s.dev.fab.cascades, e.2.staged = false) → exec (.basinPairReady t pd) s = .next { s with dt := s.now t })

/-! ## Commands of the mailboxes -/

/-- O36. R352: a command whose check fails completes with the status and DETAIL of the first failing check and has no other effect; one that is not in flight has none at all.  (A PLAN_RUN first settles waiting settings
of PLAN_CTRL, R364; here none waits.) -/
def Obligations.FailedCheckCompletes : Prop :=
  ∀ (s : State) (t m seq mv : Nat) (v lo hi : F32) (row : Row), row ∈ stewardRows s t m seq mv v lo hi → (∀ x ∈ s.dev.stew.settings, x.code ≠ 0x0050) →
    (∀ (r : Req) (f : Fail), ready s t m seq row.code r = true → row.form r = true → row.check r = some f →
      exec row.instr s = .next { s with dt := s.now t, dev := s.dev.finish (s.now t) r f.1 f.2 [] }) ∧
    (s.dev.req? m seq = none → exec row.instr s = .next { s with dt := s.now t })

/-- O37. R347, R349: completing a request takes it out of the commands in flight, writes its entry with status, DETAIL and result, advances TAIL, raises the mailbox's EIC source; memory
changes in the completion ring alone, and no register but the mailbox's CPL and STAT. -/
def Obligations.CompletionIsWritten : Prop :=
  ∀ (d : Dev) (now : Nat) (r : Req) (st : Status) (detail : Nat) (result : List Byte), result.length ≤ 480 →
    let d' := d.finish now r st detail result
    served d d' r st detail result ∧ ringKept d d' r.mbx ∧ (d.on 156 = true → r.mbx < 256 → d'.eic.pend.contains (256 + r.mbx) = true) ∧
    (∀ g, g ≠ r1 .mbxCpl r.mbx → g ≠ r1 .mbxStat r.mbx → d'.rd g = d.rd g) ∧
    d' = { d with mem := d'.mem, stew := d'.stew, regs := d'.regs, eic := d'.eic, cnt := d'.cnt } ∧ d'.stew.owners = d.stew.owners ∧ d'.stew.sessions = d.stew.sessions

/-- O38. R345, R346: a doorbell takes a TAIL within 32 of HEAD and raises the steward's source, any other sets IDX_ERR; the steward takes the request at HEAD while completions have room, and
else holds it; a query the MC has not answered in 10 ms completes with BUSY. -/
def Obligations.RequestsAreTaken : Prop :=
  (∀ (s : State) (t c m v : Nat), m < 256 → s.dt ≤ dtMax → hits s t c (r1 .mbxReq m) .write = true → s.dev.fb (r1 .mbxBase m) F.mbxBase.EN = true →
    (v % 64 + 64 - s.dev.f (r1 .mbxReq m) F.mbxReq.HEAD) % 64 ≤ 32 →
    Answers (.doorbell t c m v) s fun s' => s'.dev.f (r1 .mbxReq m) F.mbxReq.TAIL = v % 64 ∧ s'.dev.rn (r1 .mbxLastDb m) = s.now t ∧ s'.dev.stew.rung.contains m = true ∧
      (s.dev.on 156 = true → s'.dev.eic.pend.contains (512 + m) = true) ∧ s'.dev.bus = .ok ∧
      (∀ g, g ≠ r1 .mbxReq m → g ≠ r1 .mbxLastDb m → s'.dev.rd g = s.dev.rd g) ∧
      ∀ a, (a < s.dev.ring m ∨ s.dev.ring m + 0x4000 ≤ a) → s'.dev.mem.get a = s.dev.mem.get a) ∧
  (∀ (s : State) (t c m v : Nat), m < 256 → hits s t c (r1 .mbxReq m) .write = true → s.dev.fb (r1 .mbxBase m) F.mbxBase.EN = true →
    32 < (v % 64 + 64 - s.dev.f (r1 .mbxReq m) F.mbxReq.HEAD) % 64 →
    Answers (.doorbell t c m v) s fun s' => s'.dev.fb (r1 .mbxStat m) F.mbxStat.IDX_ERR = true ∧ (∀ g, g ≠ r1 .mbxStat m → s'.dev.rd g = s.dev.rd g) ∧ s'.dev.mem = s.dev.mem) ∧
  (∀ (s : State) (t m : Nat), m < 256 → s.dev.stewardRuns = true → 0 < s.dev.requests m → s.dev.inflightOf m + s.dev.unconsumed m + (s.dev.noticesOf m).length < 32 →
    let r := s.dev.readReq (s.now t) m
    (s.dev.formFail r = none →
      Answers (.requestTake t m) s fun s' => s'.dev.stew.inflight = s.dev.stew.inflight ++ [r] ∧
        s'.dev.f (r1 .mbxReq m) F.mbxReq.HEAD = (s.dev.f (r1 .mbxReq m) F.mbxReq.HEAD + 1) % 64 ∧ s'.dev.fb (r1 .mbxStat m) F.mbxStat.HELD = false ∧
        (∀ g, g ≠ r1 .mbxReq m → g ≠ r1 .mbxStat m → s'.dev.rd g = s.dev.rd g) ∧ s'.dev.mem = s.dev.mem) ∧
    (∀ f, s.dev.formFail r = some f →
      Answers (.requestTake t m) s fun s' => served s.dev s'.dev r f.1 f.2 [])) ∧
  (∀ (s : State) (t m : Nat), m < 256 → s.dev.stewardRuns = true → 0 < s.dev.requests m → 32 ≤ s.dev.inflightOf m + s.dev.unconsumed m + (s.dev.noticesOf m).length →
    Answers (.requestTake t m) s fun s' => s'.dev.fb (r1 .mbxStat m) F.mbxStat.HELD = true ∧ (∀ g, g ≠ r1 .mbxStat m → s'.dev.rd g = s.dev.rd g) ∧ s'.dev.mem = s.dev.mem) ∧
  (∀ (s : State) (t m seq : Nat) (r : Req), s.dev.req? m seq = some r → s.dev.stewardRuns = true → r.code = 0x0C01 → r.decided = false → 10000000 ≤ s.dev.elapsed r.order (s.now t) →
    Answers (.mcQueryTimeout t m seq) s fun s' => served s.dev s'.dev r .busy 0 [] ∧ ringKept s.dev s'.dev m)

/-- O39. HELLO, BYE, CTX_OPEN, CTX_CLOSE, CTX_SHARES (R91, R94, R354 to R358): a session with the agreed version, a context at the lowest free id; a context closes, a session ends. -/
def Obligations.SessionCommands : Prop :=
  (∀ (s : State) (t m seq : Nat) (r : Req), ready s t m seq 0x0001 r = true → s.dev.helloCheck m r = none → (s.dev.hasSession m = false ∨ r.flag 1 = false) →
    Answers (.hello t m seq) s fun s' => tget s'.dev.stew.sessions m = some ((s.dev.agreed r).getD 0) ∧ s'.dev.fb (r1 .mbxStat m) F.mbxStat.SESSION = true ∧
      served s.dev s'.dev r .ok 0 (leBytes 4 ((s.dev.agreed r).getD 0 * 2 ^ 20 + 2 ^ 26) ++ leBytes 4 s.dev.highest ++ leBytes 4 s.dev.stew.fwVersion ++ leBytes 2 s.dev.own ++
        leBytes 2 (if r.flag 0 then (s.dev.openCtxs m).length else 0)) ∧ ringKept s.dev s'.dev m) ∧
  (∀ (s : State) (t m seq : Nat) (r : Req), ready s t m seq 0x0001 r = true → s.dev.helloCheck m r = none → s.dev.hasSession m = true → r.flag 1 = true →
    Answers (.hello t m seq) s fun s' => s'.dev = ((s.dev.decide' r).closeAll (s.now t) r).settleEnds (s.now t)) ∧
  (∀ (s : State) (t m seq : Nat) (r : Req), ready s t m seq 0x0002 r = true → s.dev.byeCheck r = none → s.dev.stew.inflight = [r] → s.dev.fab.ctxs = [] → s.dev.fab.cascades = [] →
    Answers (.bye t m seq) s fun s' => tget s'.dev.stew.sessions m = none ∧ s'.dev.fb (r1 .mbxStat m) F.mbxStat.SESSION = false ∧ gone s'.dev r ∧
      (∃ c ∈ s'.dev.stew.cpls, c.mbx = m ∧ c.tag = r.tag ∧ c.status = Status.ok.code ∧ c.dt = s.now t)) ∧
  (∀ (s : State) (t m seq c : Nat) (r : Req), ready s t m seq 0x0101 r = true → s.dev.ctxOpenCheck m r = none → s.dev.freeCtx = some c →
    Answers (.ctxOpen t m seq) s fun s' => s'.dev.ctx? c = some { mbx := m, cls := r.fld 0 0 4, seed := if r.w32 4 = 0 then s.now t % 2 ^ 32 else r.w32 4 } ∧ s'.dev.ctxClass c = r.fld 0 0 4 ∧
      s'.dev.f (r1 .pbuCtxCfg c) F.pbuCtxCfg.SHARE = r.fld 0 16 16 ∧ s'.dev.ctxState c = 0 ∧ (∀ k, k ≠ c → s'.dev.ctx? k = s.dev.ctx? k) ∧ served s.dev s'.dev r .ok c [] ∧
      ringKept s.dev s'.dev m) ∧
  (∀ (s : State) (t m seq : Nat) (r : Req), ready s t m seq 0x0102 r = true → s.dev.ctxCloseCheck r = none →
    Answers (.ctxClose t m seq) s fun s' => ∃ d1 : Dev, s'.dev = d1.settleEnds (s.now t) ∧ (d1.ctx? r.ctx).elim false (fun x => x.closing == some r.seq) = true) ∧
  (∀ (s : State) (t m seq i : Nat) (r : Req), ready s t m seq 0x0103 r = true → s.dev.ctxSharesCheck m r = none → i < r.fld 0 0 8 →
    (∀ j, i < j → j < r.fld 0 0 8 → r.fld (4 + 4 * j) 0 10 ≠ r.fld (4 + 4 * i) 0 10) →
    Answers (.ctxShares t m seq) s fun s' => tget s'.dev.pbu.shares (r.fld (4 + 4 * i) 0 10) = some (r.fld (4 + 4 * i) 16 16) ∧ served s.dev s'.dev r .ok 0 [] ∧ ringKept s.dev s'.dev m)

/-- O40. CLAIM, RELEASE, CUE_SET, CAPTURE_SET and CONFIG_SET (R49, R51, R364 to R366): a resource is owned by the claiming context, or by none; the fields given stand in the registers; a CONFIG_SET that changes nothing completes, one for later waits. -/
def Obligations.ConfiguringCommands : Prop :=
  (∀ (s : State) (t m seq : Nat) (r : Req), ready s t m seq 0x0601 r = true → s.dev.claimCmdCheck r = none →
    Answers (.claim t m seq) s fun s' => s'.dev.owner r.resType r.resIndex = some (.ctx r.ctx) ∧ served s.dev s'.dev r .ok 0 [] ∧ ringKept s.dev s'.dev m) ∧
  (∀ (s : State) (t m seq : Nat) (r : Req), ready s t m seq 0x0602 r = true → s.dev.releaseCheck r = none →
    Answers (.release t m seq) s fun s' => s'.dev.owner r.resType r.resIndex = none ∧ served s.dev s'.dev r .ok 0 [] ∧ ringKept s.dev s'.dev m) ∧
  (∀ (s : State) (t m seq : Nat) (r : Req), ready s t m seq 0x0701 r = true → s.dev.cueSetCheck r = none → s.dev.cue.out = [] → s.dev.cueDue (s.now t) (r.fld 0 0 6) = false →
    s.dev.fixedChannel (r.fld 0 0 6) = false → (r.cueCfg F.cueChCfg.ARM = 1 → s.now t + 16 ≤ r.w64 8) →
    Answers (.cueSet t m seq) s fun s' => s'.dev.rn (r1 .cueChTime (r.fld 0 0 6)) = r.w64 8 ∧ s'.dev.chanPeriod (r.fld 0 0 6) = r.fld 16 0 40 ∧
      s'.dev.rn (r1 .cueChCfg (r.fld 0 0 6)) % 2 ^ 21 = r.w32 4 % 2 ^ 21 ∧ served s.dev s'.dev r .ok 0 [] ∧ ringKept s.dev s'.dev m) ∧
  (∀ (s : State) (t m seq : Nat) (r : Req), ready s t m seq 0x0702 r = true → s.dev.captureSetCheck r = none →
    Answers (.captureSet t m seq) s fun s' => s'.dev.rn (r1 .capChCfg (r.fld 0 0 5)) % 2 ^ 21 = r.w32 4 % 2 ^ 21 ∧
      s'.dev.rn (r1 .capChCfg (r.fld 0 0 5)) / 2 ^ 21 = s.dev.rn (r1 .capChCfg (r.fld 0 0 5)) / 2 ^ 21 ∧ served s.dev s'.dev r .ok 0 [] ∧ ringKept s.dev s'.dev m) ∧
  (∀ (s : State) (t m seq : Nat) (r : Req) (w : SetRow), ready s t m seq 0x0603 r = true → s.dev.configSetCheck (s.now t) m r = none → setRow (r.fld 0 0 16) = some w →
    let code := r.fld 0 0 16
    let index := r.fld 4 0 16
    let old := s.dev.setOld code index
    let new := s.dev.setNew code index (r.w64 8) (r.w64 16)
    Answers (.configSet t m seq) s fun s' =>
      (new = old → served s.dev s'.dev r .ok 0 [] ∧ s'.dev.stew.settings = s.dev.stew.settings) ∧
      (new ≠ old → w.atOnce = true → code ≠ 0x0001 → ∀ g, s.dev.setReg code index = some g →
        s'.dev.rd g = BitVec.ofNat 64 new ∧ served s.dev s'.dev r .ok 0 []) ∧
      (new ≠ old → w.atOnce = false → code ≠ 0x0010 →
        s'.dev.stew.settings = s.dev.stew.settings ++ [⟨code, index, r.w64 8, r.w64 16, m, seq⟩] ∧ s'.dev.regs = s.dev.regs ∧ s'.dev.mem = s.dev.mem ∧ awaits s'.dev m seq))

/-! ## Modes, periods, budgets -/

/-- O41. BUDGET_SET, MODE_SET, PROFILE_SET (R69, R71, R78, R90, R102): class settings and the swap flag are written, or a calibration run begins; a mode or profile change is the pending one and the
command waits for it; a calibration run that has counted its periods ends, and BUDGET_SET completes. -/
def Obligations.BudgetAndModeCommands : Prop :=
  (∀ (s : State) (t m seq : Nat) (r : Req), ready s t m seq 0x0501 r = true → s.dev.budgetFail r = none →
    Answers (.budgetSet t m seq) s fun s' =>
      let g := r1 .pbuClassCfg r.bsClass
      s'.dev.f g F.pbuClassCfg.PRIO = r.fld 0 12 4 ∧ s'.dev.group r.bsClass = r.bsGroup ∧ s'.dev.f g F.pbuClassCfg.WEIGHT = r.fld 0 16 16 ∧ s'.dev.crit r.bsClass = r.bsCrit ∧
      s'.dev.fb (r0 .pbuCtrl) F.pbuCtrl.SWAP = true ∧
      (r.flag 0 = false → gone s'.dev r ∧ ringKept s.dev s'.dev m) ∧
      (r.flag 0 = true → awaits s'.dev m seq ∧ ∃ x, s'.dev.pbu.calRun = some x ∧ x.cls = r.bsClass ∧ x.periodsLeft = r.bsPeriods ∧ x.mbx = m ∧ x.seq = seq)) ∧
  (∀ (s : State) (t m seq : Nat) (r : Req), ready s t m seq 0x0502 r = true → s.dev.modeSetCheck (s.now t) r = none → s.dev.pbu.pend.bind PendMode.req ≠ some (m, seq) →
    Answers (.modeSet t m seq) s fun s' => s'.dev.pbu.pend = some (r.modePend (s.now t)) ∧ awaits s'.dev m seq ∧ s'.dev.f (r0 .cpcMode) F.cpcMode.PEND_ENVELOPE = r.fld 0 0 2 ∧
      s'.dev.envelope = s.dev.envelope ∧ s'.dev.profile = s.dev.profile) ∧
  (∀ (s : State) (t m seq : Nat) (r : Req), ready s t m seq 0x0503 r = true → s.dev.profileSetCheck r = none → s.dev.pbu.pend.bind PendMode.req ≠ some (m, seq) →
    Answers (.profileSet t m seq) s fun s' => s'.dev.pbu.pend = some (s.dev.profilePend r (s.now t)) ∧ awaits s'.dev m seq ∧
      s'.dev.f (r0 .cpcMode) F.cpcMode.PEND_PROFILE = r.fld 0 0 2 ∧ s'.dev.envelope = s.dev.envelope ∧ s'.dev.profile = s.dev.profile) ∧
  (∀ (s : State) (t : Nat), s.dev.mc.running = true → s.dev.envelope ≠ 0 → s.dev.on 156 = true → (∀ p, s.dev.pbu.pend = some p → p.forced = false) →
    Answers (.forcedStep t) s fun s' => (∃ p, s'.dev.pbu.pend = some p ∧ p.forced = true ∧ p.envelope + 1 = s.dev.envelope ∧ p.profile = s.dev.profile ∧ p.req = none ∧ p.writtenAt = s.now t) ∧
      s'.dev.envelope = s.dev.envelope) ∧
  (∀ (s : State) (t : Nat) (avg : F32) (overMs : Nat), s.dev.on 156 = true → s.dev.fb (r0 .pbuStat) F.pbuStat.POWER_SCALED = false →
    (f32Lt (powerLimit s.dev.envelope) avg = true ∨ (s.dev.envelope = 2 ∧ f32Lt (powerCap 2) avg = true ∧ 2000 < overMs)) →
    Answers (.powerLimitBroken t avg overMs) s fun s' => s'.dev.fb (r0 .pbuStat) F.pbuStat.POWER_SCALED = true ∧ s'.dev.eic.pend.contains 3 = true ∧
      (∀ g, g ≠ r0 .pbuStat → s'.dev.rd g = s.dev.rd g) ∧ s'.dev.mem = s.dev.mem) ∧
  (∀ (s : State) (t : Nat) (x : CalRun) (r : Req), s.dev.pbu.calRun = some x → x.periodsLeft = 0 → s.dev.stewardRuns = true → s.dev.req? x.mbx x.seq = some r →
    Answers (.calibrationRunDone t) s fun s' => s'.dev.pbu.calRun = none ∧ s'.dev.rn (r0 .pbuSquallCfg) = x.squall % 2 ^ 64 ∧ served s.dev s'.dev r .ok 0 [])

/-- O42. R73, R75: the retraining window closes with its training, or 2 ms after the boundary with FAR_LOW set; a training that completes later closes it as the time limit does. -/
def Obligations.RetrainingWindowCloses : Prop :=
  (∀ (s : State) (t b : Nat), s.dt ≤ dtMax → s.dev.pbu.windowFrom = some b → s.dev.dueAfter b 2000000 ≤ s.now t →
    Answers (.retrainWindowTimeout t) s fun s' => s'.dev.pbu.windowFrom = none ∧ s'.dev.fb (r0 .cpcMode) F.cpcMode.FAR_LOW = true ∧ s'.dev.rn (r0 .cpcWindowEnd) = s.dev.dueAfter b 2000000) ∧
  (∀ (s : State) (t b : Nat) (vals : List Nat), s.dt ≤ dtMax → s.dev.pbu.windowFrom = some b →
    Answers (.farStoreTraining t vals) s fun s' => s'.dev.pbu.windowFrom = none ∧
      (s.now t ≤ s.dev.dueAfter b 2000000 → s'.dev.fb (r0 .cpcMode) F.cpcMode.FAR_LOW = false ∧ s'.dev.rn (r0 .cpcWindowEnd) = s.now t) ∧
      (s.dev.dueAfter b 2000000 < s.now t → s'.dev.fb (r0 .cpcMode) F.cpcMode.FAR_LOW = true ∧ s'.dev.rn (r0 .cpcWindowEnd) = s.dev.dueAfter b 2000000))

/-- O43. R81, R82, R85: the trigger of the period-start cue starts a period at its instant; without one in time the PBU starts it itself and sets MISSED; a renewal writes PBU_PERIOD_AT, and every
class starts with what it used, running tiles included, beyond its old budget. -/
def Obligations.PeriodsStart : Prop :=
  (∀ (s : State) (t b : Nat) (avg : F32), tget s.dev.cue.trig 1 = some b → s.dev.on 155 = true →
    Answers (.periodStart t avg) s fun s' => ∃ d0 : Dev, s'.dev = ((d0.periodRenew (s.now t) b avg true).periodBegins (s.now t) b).settleEnds (s.now t) ∧ tget d0.cue.trig 1 = none ∧
      d0.regs = s.dev.regs ∧ d0.mem = s.dev.mem) ∧
  (∀ (s : State) (t : Nat) (avg : F32), s.dev.on 155 = true → s.dev.on 156 = true → s.dev.pbu.triggered = true → tget s.dev.cue.trig 1 = none →
    let b := s.dev.dueAfter (s.dev.rn (r0 .pbuPeriodAt)) (if s.dev.pbu.selfAt = 0 then 2 * s.dev.periodLen else s.dev.periodLen)
    b ≤ s.now t →
    Answers (.pbuMissedPeriod t avg) s fun s' => ∃ d0 : Dev, s'.dev = ((d0.periodRenew (s.now t) b avg false).periodBegins (s.now t) b).settleEnds (s.now t) ∧
      d0.fb (r0 .pbuStat) F.pbuStat.MISSED = true ∧ d0.eic.pend.contains 4 = true ∧ d0.pbu.selfAt = b) ∧
  (∀ (d : Dev) (now b : Nat) (avg : F32) (cue : Bool) (c k : Nat), c < 16 → k < 8 → d.pbu.calRun = none → d.pbu.late = [] → d.stew.settings = [] → b < 2 ^ 64 →
    (d.periodRenew now b avg cue).rn (r0 .pbuPeriodAt) = b ∧
    (d.periodRenew now b avg cue).used c k = (if d.enforced then (d.closePeriod now b).used c k - d.budget c k else 0) ∧
    ((∀ e ∈ d.fab.basins, e.2.running = []) → d.closePeriod now b = d))

/-! ## Sluice, objects, sequences, cascades -/

/-- O44. R190, R191, R192: an idle engine starts its first-ranked part, at most one in 64 ns; a landing moves a tile or 64-byte units, counts them, and ends the part with its last. -/
def Obligations.PartsStartAndLand : Prop :=
  (∀ (s : State) (t eng r : Nat) (x : SluReq) (p : Part), s.dev.sluiceOn eng = true → s.dev.runningPart eng = none → tget s.dev.slu.reqs r = some x → p ∈ x.parts → p.engine = eng →
    p.state = .queued → (thas s.dev.slu.lastStart eng = false ∨ 64 ≤ s.dev.elapsed (tgetD s.dev.slu.lastStart eng 0) (s.now t)) → s.dev.gated (s.dev.partPayer p) 7 = false →
    noneWaits s.dev eng → (∀ e ∈ s.dev.partsOn eng .parked, s.dev.partGated e.2 = true) →
    (∀ e ∈ s.dev.partsOn eng .queued, s.dev.gated (s.dev.partPayer e.2) 7 = false → e = (r, p) ∨ (s.dev.rankFirst (r, p) e = true ∧ s.dev.rankFirst e (r, p) = false)) →
    (p.desc.op = 0 → p.desc.entrySrc = false → (x.parts.all fun q => q.startAt == 0) = true → packOk (s.dev.packOf p.desc) = true) →
    Answers (.descriptorStart t eng) s fun s' => tget s'.dev.slu.lastStart eng = some (s.now t) ∧
      ∃ x', tget s'.dev.slu.reqs r = some x' ∧ (∀ q ∈ x'.parts, q.index = p.index → q.state = .running ∧ q.startAt = max 1 (s.now t)) ∧ ∃ q ∈ x'.parts, q.index = p.index) ∧
  (∀ (s : State) (t eng r : Nat) (x : SluReq) (p : Part), s.dev.sluiceOn eng = true → s.dev.runningPart eng = none → tget s.dev.slu.reqs r = some x → p ∈ x.parts → p.engine = eng →
    p.state = .queued → thas s.dev.slu.lastStart eng = false → s.dev.partsOn eng .queued = [(r, p)] → s.dev.gated (s.dev.partPayer p) 7 = false → p.desc.op = 0 → p.desc.entrySrc = false →
    noneWaits s.dev eng → (∀ e ∈ s.dev.partsOn eng .parked, s.dev.partGated e.2 = true) →
    (∀ i tier o, x.making = some (i, tier) → tget s.dev.slu.objs i = some o → o.lock = some r → o.queue = []) →
    (x.parts.all fun q => q.startAt == 0) = true → packOk (s.dev.packOf p.desc) = false →
    Answers (.descriptorStart t eng) s fun s' => ∃ x', tget s'.dev.slu.reqs r = some x' ∧ x'.status = some Status.badConfig.code ∧ (∀ q ∈ x'.parts, q.state = .ended)) ∧
  (∀ (s : State) (t eng r : Nat) (n : Landing) (x : SluReq) (p : Part), s.dev.sluiceOn eng = true → s.dev.runningPart eng = some (r, p) → tget s.dev.slu.reqs r = some x →
    s.dev.canLand r p = true →
    let d0 := s.dev.landNotes n
    let units := landUnits d0 r p n.units
    let len := d0.landBytes r p units
    (d0.issueBytes (s.now t) (d0.partPayer p) (d0.resources p) (len / 65536 + 2) (len - p.prog)).1 = 0 →
    (p.pos + units < p.desc.count ∨ (x.wait = none ∧ x.stall = none ∧ x.spill = 0 ∧ s.dev.partsOn eng .parked = [])) →
    Answers (.tileLand t eng n) s fun s' =>
      tget s'.dev.slu.reqs r = some { x with bytes := x.bytes + len, lastEngine := if p.pos + units < p.desc.count then x.lastEngine else eng, parts := x.parts.map fun q =>
        if q.index = p.index then { q with pos := q.pos + units, prog := 0, state := if q.desc.count ≤ q.pos + units then .ended else q.state } else q } ∧
      s'.dev.rn (r1 .sluEngBytes eng) = (s.dev.rn (r1 .sluEngBytes eng) + len) % 2 ^ 64 ∧
      s'.dev.f (r0 .sluFarEcc) F.sluFarEcc.CE = min (2 ^ F.sluFarEcc.CE.w - 1) (s.dev.f (r0 .sluFarEcc) F.sluFarEcc.CE + n.farFixed)) ∧
  (∀ (s : State) (t eng r : Nat) (n : Landing) (x : SluReq) (p : Part) (h li : Nat), s.dev.sluiceOn eng = true → s.dev.runningPart eng = some (r, p) → tget s.dev.slu.reqs r = some x →
    x.purpose = .list h li → x.stage = none → p.area = none → x.wait = none → x.stall = none → x.spill = 0 → p.desc.op = 1 → p.desc.entrySrc = false → p.desc.entryDst = false → p.desc.object = 0 →
    p.desc.srcTier ≠ 3 → p.desc.dstTier ≠ 3 → s.dev.canLand r p = true →
    let units := min (max 1 n.units) (p.desc.count - p.pos)
    let off := 64 * (p.desc.first + p.pos)
    let d0 := s.dev.landNotes n
    (d0.issueBytes (s.now t) (d0.partPayer p) (d0.resources p) (64 * units / 65536 + 2) (64 * units - p.prog)).1 = 0 →
    s.dev.touched p.desc.dstTier (p.desc.dstAddr + off) (64 * units) = [] →
    Answers (.tileLand t eng n) s fun s' =>
      (∀ i, i < 64 * units → s'.dev.mem.get (p.desc.dstAddr + off + i) = s.dev.mem.get (p.desc.srcAddr + off + i)) ∧
      ∀ a, (a < p.desc.dstAddr + off ∨ p.desc.dstAddr + off + 64 * units ≤ a) → s'.dev.mem.get a = s.dev.mem.get a)

/-- O45. R195, R203 to R206, R208, R232: a move's copy changes in one step when every part has succeeded; a request completes with its record; a failed part is final, a transient failure
queues it once on another engine. -/
def Obligations.RequestsCommitAndFail : Prop :=
  (∀ (s : State) (t r m q ctx i tier n : Nat) (pin : Bool) (x : SluReq) (o : Obj) (l : Loc) (rq : Req), tget s.dev.slu.reqs r = some x → x.purpose = .place m q ctx pin → x.stage = some (l, n) →
    l.tier ≠ 0 → x.making = some (i, tier) → x.allEnded = true → x.failMask = 0 → x.status = none → x.committed = false → x.wait = none → x.stall = none → x.spill = 0 →
    (∀ p ∈ x.parts, p.area = none) → tget s.dev.slu.objs i = some o → o.queue = [] → s.dev.req? m q = some rq →
    Answers (.moveCommit t r) s fun s' => (∃ o', tget s'.dev.slu.objs i = some o' ∧ o'.copy tier = some l ∧ (∀ k, k ≠ tier → o'.copy k = o.copy k) ∧ o'.needs = addPair o.needs (tier, ctx) ∧
      o'.pins = (if pin then addPair o.pins (tier, ctx) else o.pins) ∧ o'.lock = none) ∧ served s.dev s'.dev rq .ok 0 [] ∧
      (∀ y, tget s'.dev.slu.reqs r = some y → y.committed = true)) ∧
  (∀ (s : State) (t r slot pg fr : Nat) (x : SluReq) (items : List (Nat × Nat)) (g : KvPage), tget s.dev.slu.reqs r = some x → x.purpose = .kv slot .swapOut items → x.stage = none →
    x.allEnded = true → x.failMask = 0 → x.status = none → x.committed = false → (pg, fr) ∈ items → (∀ f, (pg, f) ∈ items → f = fr) → tget s.dev.kv.pages pg = some g →
    Answers (.moveCommit t r) s fun s' => (∃ g', tget s'.dev.kv.pages pg = some g' ∧ g'.tier = 2 ∧ g'.frame = fr ∧ g'.fill = g.fill ∧ g'.refs = g.refs) ∧ s'.dev.mem = s.dev.mem) ∧
  (∀ (s : State) (t r h li tier l n : Nat) (x : SluReq) (p : Part), tget s.dev.slu.reqs r = some x → x.purpose = .list h li → x.stage = none → x.making = none → x.parts = [p] →
    p.state = .ended → p.area = some (flat tier l, n) → tier = 1 ∨ tier = 2 → p.desc.staged = true → p.desc.entryDst = false → p.desc.dstTier ≠ 3 → x.nparts = 1 → x.failMask = 0 →
    x.status = none → x.committed = false → x.wait = none → x.stall = none → x.spill = 0 →
    let to_ := p.desc.dstAddr + (p.desc.span (Pack.parse (s.dev.packOf p.desc))).1
    s.dev.touched p.desc.dstTier to_ n = [] →
    Answers (.moveCommit t r) s fun s' => (∃ y, tget s'.dev.slu.reqs r = some y ∧ y.committed = true ∧ ∀ q ∈ y.parts, q.area = none) ∧
      (∀ i, i < n → s'.dev.mem.get (to_ + i) = s.dev.mem.get (l + i)) ∧ ∀ a, (a < to_ ∨ to_ + n ≤ a) → s'.dev.mem.get a = s.dev.mem.get a) ∧
  (∀ (s : State) (t r h li : Nat) (x : SluReq), s.dt ≤ dtMax → tget s.dev.slu.reqs r = some x → x.purpose = .list h li → x.allEnded = true → x.failMask = 0 → x.status = none → x.making = none →
    x.closed = false → (x.staged = true → x.committed = true) → (s.dev.cnl.coords.any fun y => y.kind == 3 && y.id == x.key) = false → x.cellOp = 0 → x.crec ≠ 0 →
    Answers (.requestComplete t r) s fun s' => ∃ d1 : Dev, s'.dev = d1.settleEnds (s.now t) ∧ tget d1.slu.reqs r = none ∧ d1.mem.le x.crec 8 = s.now t ∧
      d1.mem.le (x.crec + 16) 4 = (s.dev.windowStatus x.ctx (if x.expired then .expired else .ok)).code * 2 ^ 16 ∧ d1.mem.le (x.crec + 20) 4 = x.reqId * 2 ^ 16 % 2 ^ 32 ∧ d1.mem.le (x.crec + 24) 8 = x.bytes % 2 ^ 64 ∧
      ∀ a, (a < x.crec ∨ x.crec + 32 ≤ a) → d1.mem.get a = s.dev.mem.get a) ∧
  (∀ (s : State) (t r m q ctx : Nat) (pin : Bool) (x : SluReq) (rq : Req), tget s.dev.slu.reqs r = some x → x.purpose = .place m q ctx pin → x.allEnded = true → x.failMask ≠ 0 →
    x.status = none → x.closed = false → (s.dev.cnl.coords.any fun y => y.kind == 3 && y.id == x.key) = false → x.cellOp = 0 → s.dev.req? m q = some rq →
    (x.parts.all fun p => !p.desc.entryDst) = true →
    Answers (.requestComplete t r) s fun s' => ∃ d1 : Dev, s'.dev = d1.settleEnds (s.now t) ∧ gone d1 rq ∧ wrote s.dev d1 rq Status.partialFail.code x.failMask []) ∧
  (∀ (s : State) (t eng r : Nat) (why : PartFailure) (x : SluReq) (p : Part), (why = .flash ∨ why = .access) → s.dev.sluiceOn eng = true → s.dev.runningPart eng = some (r, p) →
    tget s.dev.slu.reqs r = some x → x.spill = 0 →
    Answers (.partFail t eng why) s fun s' => (∃ x', tget s'.dev.slu.reqs r = some x' ∧ x'.failMask = x.failMask ||| 2 ^ p.index) ∧
      s'.dev.fb (r1 .sluEngStat eng) F.sluEngStat.FAILED = true ∧ (s.dev.on 156 = true → s'.dev.eic.pend.contains (212 + eng) = true)) ∧
  (∀ (s : State) (t eng a : Nat), s.dev.sluiceOn eng = true → (s.dev.runningPart eng).isSome = true →
    Answers (.partFail t eng (.uncorrectable 2 a)) s fun s' => s'.dev.fb (r0 .sluFarEcc) F.sluFarEcc.UE_FLAG = true ∧ s'.dev.f (r0 .sluFarEccAddr) F.sluFarEccAddr.ADDR = a % 2 ^ 48) ∧
  (∀ (s : State) (t eng r n lastByte : Nat) (x : SluReq) (p : Part) (i : Instr), s.dev.sluiceOn eng = true → s.dev.runningPart eng = some (r, p) → tget s.dev.slu.reqs r = some x → p.retried = false →
    lowest 12 (fun k => k != p.engine && decide ((s.dev.partsOn k .queued).length < 64)) = some n →
    (i = .partFail t eng .nearLink ∨ i = .partFail t eng .canalLink ∨
      (i = .partTimeout t eng lastByte ∧ p.startAt ≤ lastByte ∧ lastByte ≤ s.now t ∧ 100000 ≤ s.dev.activeSince p lastByte (s.now t))) →
    Answers i s fun s' => (∃ x', tget s'.dev.slu.reqs r = some x' ∧ x'.failMask = x.failMask ∧ (∀ q ∈ x'.parts, q.index = p.index → q.engine = n ∧ q.state = .queued ∧ q.retried = true)) ∧
      s'.dev.fb (r1 .sluEngStat n) F.sluEngStat.RETRIED = true ∧ (x.stage = none → p.area = none → s'.dev.mem = s.dev.mem)) ∧
  (∀ (s : State) (t n ce : Nat) (ue : Option Nat), s.dev.on 158 = true → s.dev.on 159 = true → s.dev.windowOpen = false →
    Answers (.patrolScrub t n ce ue) s fun s' => s'.dev.f (r0 .sluFarEcc) F.sluFarEcc.CE = min (2 ^ F.sluFarEcc.CE.w - 1) (s.dev.f (r0 .sluFarEcc) F.sluFarEcc.CE + ce) ∧
      (∀ a, ue = some a → s'.dev.fb (r0 .sluFarEcc) F.sluFarEcc.UE_FLAG = true ∧ s'.dev.f (r0 .sluFarEccAddr) F.sluFarEccAddr.ADDR = a % 2 ^ 48) ∧ s'.dev.mem = s.dev.mem)

/-- O46. R107, R179, R181, R182, R184, R221, R360: objects, cells and the KV pool are made and deleted; needs and pins are recorded where the copy stands, else a move makes it; an
eviction releases a clean copy and writes a dirty highest one back. -/
def Obligations.ObjectCommands : Prop :=
  (∀ (s : State) (t m seq : Nat) (r : Req), ready s t m seq 0x0301 r = true → r.flag 0 = false → r.kind4 < 2 → s.dev.objCreateCheck r = none →
    (r.w32 4 = 0 ∨ engineRoom s.dev) →
    Answers (.objCreate t m seq) s fun s' => ∃ id o, s.dev.obj? id = none ∧ s'.dev.obj? id = some o ∧ o.kind = r.kind4 ∧ o.size = r.w64 8 ∧ o.home = r.fld 0 4 2 ∧ o.creator = r.ctx ∧
      (o.copy o.home).isSome = true ∧ o.pins = [] ∧ (r.w32 4 = 0 → served s.dev s'.dev r .ok id []) ∧ (r.w32 4 ≠ 0 → awaits s'.dev m seq ∧ o.lock.isSome = true)) ∧
  (∀ (s : State) (t m seq : Nat) (r : Req), ready s t m seq 0x0301 r = true → r.flag 0 = false → r.kind4 = 2 → s.dev.objCreateCellCheck r = none →
    Answers (.objCreateCell t m seq) s fun s' => ∃ n x, tget s.dev.cells n = none ∧ tget s'.dev.cells n = some x ∧ x.type = r.fld 0 4 2 ∧ x.owner = r.ctx ∧ x.ceiling = r.fld 0 6 4 ∧
      x.count = r.w32 4 ∧ x.target = r.fld 8 0 16 ∧ x.hold = r.fld 8 16 16 ∧ x.broken = false ∧ x.waiters = [] ∧ served s.dev s'.dev r .ok n [] ∧ ringKept s.dev s'.dev m) ∧
  (∀ (s : State) (t m seq : Nat) (r : Req), ready s t m seq 0x0301 r = true → r.flag 0 = false → r.kind4 = 3 → s.dev.objCreateKvPoolCheck r = none →
    Answers (.objCreateKvPool t m seq) s fun s' => ∃ p, s'.dev.kv.pool = some p ∧ p.frameBytes = r.w32 4 ∧ p.t1Frames = r.w32 8 ∧ p.t2Frames = r.w32 12 ∧
      (s'.dev.obj? p.t1).isSome = true ∧ (s'.dev.obj? p.t2).isSome = true ∧ served s.dev s'.dev r .ok p.t1 (leBytes 4 p.t2 ++ leBytes 4 0)) ∧
  (∀ (s : State) (t m seq : Nat) (r : Req), ready s t m seq 0x0301 r = true → r.flag 0 = true → r.kind4 < 4 → s.dev.objDeleteCheck r = none →
    Answers (.objDelete t m seq) s fun s' => (r.kind4 = 2 → tget s'.dev.cells (r.w32 4) = none) ∧ (r.kind4 ≠ 2 → s'.dev.obj? (r.w32 4) = none) ∧ (r.kind4 ≠ 2 → ∀ p, s.dev.kv.pool = some p → (idIndex (r.w32 4) = idIndex p.t1 ∨ idIndex (r.w32 4) = idIndex p.t2) → s'.dev.kv.pool = none) ∧ gone s'.dev r) ∧
  (∀ (s : State) (t m seq : Nat) (r : Req) (o : Obj) (pin : Bool), ready s t m seq (if pin then 0x0303 else 0x0302) r = true → (pin = true → r.flag 0 = false) →
    (if pin then s.dev.objPinCheck r else s.dev.objPlaceCheck r) = none → s.dev.obj? (r.w32 0) = some o →
    Answers (if pin then .objPin t m seq else .objPlace t m seq) s fun s' =>
      ((o.copy r.tier).isSome = true → s.dev.evicting o r.tier = false → served s.dev s'.dev r .ok 0 [] ∧
        ∃ o', s'.dev.obj? (r.w32 0) = some o' ∧ o'.needs = addPair o.needs (r.tier, r.ctx) ∧ o'.pins = (if pin then addPair o.pins (r.tier, r.ctx) else o.pins) ∧ o'.copies = o.copies) ∧
      (∀ src dst, o.copy r.tier = none → o.lock = none → o.queue = [] → engineRoom s.dev → o.below r.tier = some src → s.dev.copyPlace r.ctx r.tier o.size = some dst → awaits s'.dev m seq ∧
        ∃ x, tget s'.dev.slu.reqs s.dev.slu.nextReq = some x ∧ x.making = some (idIndex (r.w32 0), r.tier) ∧ x.stage = some (dst, o.size) ∧ x.parts.length = 1)) ∧
  (∀ (s : State) (t m seq : Nat) (r : Req), ready s t m seq 0x0303 r = true → r.flag 0 = true → s.dev.objPinReleaseCheck r = none →
    Answers (.objPinRelease t m seq) s fun s' => gone s'.dev r ∧ ∀ o, s'.dev.obj? (r.w32 0) = some o → (r.tier, r.ctx) ∉ o.pins) ∧
  (∀ (s : State) (t m seq : Nat) (r : Req) (o : Obj), ready s t m seq 0x0304 r = true → s.dev.objEvictCheck r = none → s.dev.obj? (r.w32 0) = some o → o.lock = none → o.queue = [] →
    Answers (.objEvict t m seq) s fun s' =>
      ((r.tier = o.home ∨ (o.pinsIn r.tier).isEmpty = false) → served s.dev s'.dev r .ok 0 [] ∧
        ∃ o', s'.dev.obj? (r.w32 0) = some o' ∧ (o.stuck = false → o'.copies = o.copies) ∧ o'.needs = o.afterEvict r.tier r.ctx (r.flag 0)) ∧
      (∀ lower dst, o.stuck = true → r.tier = o.home → o.highest < o.home → o.pinsIn o.highest = [] → o.needsIn o.highest = [] → o.dirty = true → engineRoom s.dev →
        o.below o.highest = some lower → s.dev.copyPlace r.ctx lower.tier o.size = some dst →
        ∃ x, tget s'.dev.slu.reqs s.dev.slu.nextReq = some x ∧ x.making = some (idIndex (r.w32 0), lower.tier) ∧ x.stage = some (dst, o.size)) ∧
      (r.tier ≠ o.home → o.pinsIn r.tier = [] → (o.copy r.tier).isSome = true → (∀ p ∈ o.afterEvict r.tier r.ctx (r.flag 0), p.1 ≠ r.tier) →
        ((o.dirty = false ∨ r.tier ≠ o.highest) → served s.dev s'.dev r .ok 0 [] ∧ ∃ o', s'.dev.obj? (r.w32 0) = some o' ∧ o'.copy r.tier = none ∧ o'.needs = o.afterEvict r.tier r.ctx (r.flag 0)) ∧
        (∀ lower dst, o.dirty = true → r.tier = o.highest → engineRoom s.dev → o.below r.tier = some lower → s.dev.copyPlace r.ctx lower.tier o.size = some dst →
          awaits s'.dev m seq ∧ ∃ x, tget s'.dev.slu.reqs s.dev.slu.nextReq = some x ∧ x.making = some (idIndex (r.w32 0), lower.tier) ∧ x.stage = some (dst, o.size))))

/-- O47. R222, R223, R228 to R230, R234: a join, a leave and a step wait for their boundary; the boundary of a step without attention lengthens its sequence, draws the commit's record and
completes the step. -/
def Obligations.SequenceCommands : Prop :=
  (∀ (s : State) (t m seq slot : Nat) (r : Req), ready s t m seq 0x0401 r = true → s.dev.seqJoinCheck r = none → lowest 4096 (fun i => !thas s.dev.kv.seqs i) = some slot →
    Answers (.seqJoin t m seq) s fun s' => awaits s'.dev m seq ∧ (∀ k, k ≠ slot → tget s'.dev.kv.seqs k = tget s.dev.kv.seqs k) ∧ s'.dev.kv.pages = s.dev.kv.pages ∧
      ∃ q, tget s'.dev.kv.seqs slot = some q ∧ { q with wait := none } = s.dev.joinSeq r ∧ (q.wait.isSome = true ↔ r.w64 24 ≠ 0)) ∧
  (∀ (s : State) (t m seq : Nat) (r : Req), ready s t m seq 0x0402 r = true → s.dev.seqLeaveCheck r = none →
    Answers (.seqLeave t m seq) s fun s' => awaits s'.dev m seq ∧ s'.dev.kv.pages = s.dev.kv.pages ∧
      ∃ q, tget s'.dev.kv.seqs (r.fld 0 0 12) = some q ∧ q.leaving = some (m, seq, r.key s.dev)) ∧
  (∀ (s : State) (t m seq : Nat) (r : Req), ready s t m seq 0x0403 r = true → s.dev.seqStepCheck r = none →
    Answers (.seqStep t m seq) s fun s' => awaits s'.dev m seq ∧ s'.dev.kv.pages = s.dev.kv.pages ∧ s'.dev.kv.seqs = s.dev.kv.seqs ∧
      ∃ st, s'.dev.kv.steps = s.dev.kv.steps ++ [st] ∧ st.mbx = m ∧ st.seq = seq ∧ st.ctx = r.ctx ∧ st.result = r.w32 0 ∧ st.entries = r.stepEntries ∧ st.commit = none) ∧
  (∀ (s : State) (t slot n : Nat) (st : KvStep) (q : KvSeq) (r : Req), s.dev.on 154 = true → s.dev.stew.settings = [] → s.dev.fb (r0 .kvCtrl) F.kvCtrl.EN = true → s.dev.kv.steps = [st] →
    st.commit = none → st.entries = [(slot, n)] → st.torn = [] → s.dev.kv.seqs = [(slot, q)] → q.ctx = st.ctx → q.state = .atRest → q.moving = false → q.leaving = none → q.faulted = false →
    s.dev.attnOf st.ctx = [] → (s.dev.commitStep (s.now t) st.ctx).growthAll st.entries ≤ (s.dev.commitStep (s.now t) st.ctx).freeFrames 1 → s.dev.req? st.mbx st.seq = some r →
    Answers (.stepBoundary t) s fun s' => ∃ d1 : Dev, s'.dev = d1.settleEnds (s.now t) ∧ d1.kv.steps = [] ∧ served s.dev d1 r .ok 0 [] ∧
      (∃ q', tget d1.kv.seqs slot = some q' ∧ q'.len = q.len + n ∧ q'.state = .atRest) ∧ (∃ k : Key, k.dt = s.now t ∧ (⟨k, .kv, false, [st.ctx]⟩ : Rec) ∈ d1.recs) ∧
      (s.dev.on 156 = true → d1.eic.pend.contains 208 = true))

/-- O48. R67, R121, R131, R199, R354, R362: a cascade is loaded under a free handle; a bind waits until its basin pairs are usable and comes into force then; ITER 0 arms a cascade, any other
starts a run; an unload stops it. -/
def Obligations.CascadeCommands : Prop :=
  (∀ (s : State) (t m seq : Nat) (r : Req), ready s t m seq 0x0201 r = true → s.dev.cascadeLoadCheck r = none →
    Answers (.cascadeLoad t m seq) s fun s' => ∃ h c, s.dev.cascade? h = none ∧ s'.dev.cascade? h = some c ∧ c.ctx = r.ctx ∧ c.bound = false ∧ c.armed = false ∧ c.run = none ∧
      served s.dev s'.dev r .ok h []) ∧
  (∀ (s : State) (t m seq : Nat) (r : Req) (c : Cascade), ready s t m seq 0x0202 r = true → s.dev.cascadeBindCheck (s.now t) r = none → s.dev.cascade? (r.fld 0 0 16) = some c →
    let h := r.fld 0 0 16
    (c.bound = true → Answers (.cascadeBind t m seq) s fun s' => served s.dev s'.dev r .ok 0 [] ∧ s'.dev.fab = s.dev.fab) ∧
    (c.bound = false → s.dev.coordinates c = false → (∀ e ∈ s.dev.fab.cascades, e.2.staged = false ∧ (e.1 = h → e.2 = c)) → (∃ l ∈ c.ls, s.dev.on (pairOf (s.dev.physical l)) = false) →
      Answers (.cascadeBind t m seq) s fun s' => awaits s'.dev m seq ∧ (∀ l ∈ c.ls, s'.dev.on (pairOf (s.dev.physical l)) = true) ∧
        ∃ c', s'.dev.cascade? h = some c' ∧ c'.staged = true ∧ c'.bound = false ∧ c'.binding = some (m, seq)) ∧
    (c.bound = false → s.dev.coordinates c = false → s.dev.ctxClass c.ctx ≠ 0 → (∀ e ∈ s.dev.fab.cascades, e.2.staged = false) → s.dev.usable (s.now t) c = true →
      Answers (.cascadeBind t m seq) s fun s' => gone s'.dev r ∧ ∃ c', s'.dev.cascade? h = some c' ∧ c'.bound = true ∧ c'.staged = false ∧ c'.binding = none)) ∧
  (∀ (s : State) (t m seq : Nat) (r : Req) (c : Cascade), ready s t m seq 0x0203 r = true → s.dev.cascadeRunCheck r = none → s.dev.cascade? (r.fld 0 0 16) = some c →
    s.dev.coordinates c = false →
    Answers (.cascadeRun t m seq) s fun s' =>
      (r.w32 4 = 0 → served s.dev s'.dev r .ok 0 [] ∧ ∃ c', s'.dev.cascade? (r.fld 0 0 16) = some c' ∧ c' = { c with armed := true, begun := true }) ∧
      (r.w32 4 ≠ 0 → c.openLists = [] → awaits s'.dev m seq ∧ ∃ c' x, s'.dev.cascade? (r.fld 0 0 16) = some c' ∧ c'.run = some x ∧ x.mbx = m ∧ x.seq = seq ∧ x.left = r.w32 4 ∧ x.done = 0)) ∧
  (∀ (s : State) (t m seq : Nat) (r : Req) (c : Cascade), ready s t m seq 0x0204 r = true → s.dev.cascadeUnloadCheck r = none → s.dev.cascade? (r.fld 0 0 16) = some c →
    s.dev.coordinates c = false →
    Answers (.cascadeUnload t m seq) s fun s' => ∃ d1 : Dev, s'.dev = d1.settleEnds (s.now t) ∧
      ∃ c', d1.cascade? (r.fld 0 0 16) = some c' ∧ c'.unloading = some (m, seq) ∧ c'.armed = false ∧ c'.run = none ∧ c'.binding = none)
/-! ## Cameras, fusion -/

/-- O49. R254 to R261: a write of CAM_PORTn_CFG enables the port or is refused with ERR; a strobe opens an exposure; a frame takes the lowest free buffer or is dropped; lines join the frame; its
end makes the buffer ready with a record; RELEASE frees buffers. -/
def Obligations.CameraCommands : Prop :=
  (∀ (s : State) (t c n v : Nat), n < 8 → hits s t c (r1 .camPortCfg n) .write = true →
    let cfg := r1 .camPortCfg n
    let w := s.dev.wn cfg (maskedWrite RegName.camPortCfg.info (!s.latchClosed) (s.dev.rn cfg) v)
    Answers (.cameraEnable t c n v) s fun s' =>
      (w.fb cfg F.camPortCfg.EN = false → s'.dev.rd cfg = w.rd cfg) ∧
      (w.fb cfg F.camPortCfg.EN = true → w.camRefusal s.latchClosed c n = 0 → s'.dev.rd cfg = w.rd cfg ∧ s'.dev.f (r1 .camPortStat n) F.camPortStat.DROPPED = 0) ∧
      (w.fb cfg F.camPortCfg.EN = true → w.camRefusal s.latchClosed c n ≠ 0 →
        s'.dev.fb cfg F.camPortCfg.EN = false ∧ s'.dev.f (r1 .camPortStat n) F.camPortStat.ERR = w.camRefusal s.latchClosed c n) ∧
      (s'.dev.rn (r0 .camLoad) = (((List.range 8).filter fun k => s'.dev.fb (r1 .camPortCfg k) F.camPortCfg.EN).map s'.dev.camLoadOf).sum % 2 ^ 64) ∧
      (∀ g, g ≠ cfg → g ≠ r1 .camPortStat n → g ≠ r0 .camLoad → s'.dev.rd g = s.dev.rd g) ∧ s'.dev.mem = s.dev.mem ∧ s'.dev.cam = s.dev.cam) ∧
  (∀ (s : State) (t n stamp : Nat), n < 8 → s.dev.on (160 + n / 4) = true → s.dev.fb (r1 .camPortCfg n) F.camPortCfg.EN = true → s.dev.f (r1 .camPortCfg n) F.camPortCfg.EXP_SRC = 1 →
    Answers (.camStrobeEdge t n stamp) s fun s' => (s.dev.fus.subs = [] → s'.dev.mem = s.dev.mem) ∧
      ∃ w, (s'.dev.camPort n).exps = (s.dev.camPort n).exps ++ [⟨stamp, w⟩] ∧ (w.isSome = true ↔ s.dev.f (r1 .camPortTiming n) F.camPortTiming.TIMEOUT_MS ≠ 0)) ∧
  (∀ (s : State) (t n : Nat), n < 8 → s.dev.on (160 + n / 4) = true → s.dev.fb (r1 .camPortCfg n) F.camPortCfg.EN = true → (s.dev.camPort n).frame = none → s.dev.cue.out = [] →
    let br := r1 .camPortBuf n
    let free := fun b => !((s.dev.f br F.camPortBuf.FILLING).testBit b) && !((s.dev.f br F.camPortBuf.READY).testBit b)
    Answers (.frameStart t n) s fun s' =>
      (∀ b, lowest (s.dev.f (r1 .camPortCfg n) F.camPortCfg.NBUF + 1) free = some b → (s'.dev.camPort n).frame = some { buf := b } ∧
        (s'.dev.f br F.camPortBuf.FILLING).testBit b = true ∧ s'.dev.fb (r1 .camPortStat n) F.camPortStat.IN_FRAME = true ∧
        s'.dev.mem.read (s.dev.camBuf n b) 128 = (s.dev.camGeom n).header) ∧
      (lowest (s.dev.f (r1 .camPortCfg n) F.camPortCfg.NBUF + 1) free = none → (∃ fr, (s'.dev.camPort n).frame = some fr ∧ fr.dropped = true) ∧ s'.dev.mem = s.dev.mem ∧
        s'.dev.f (r1 .camPortStat n) F.camPortStat.DROPPED = min 65535 (s.dev.f (r1 .camPortStat n) F.camPortStat.DROPPED + 1))) ∧
  (∀ (s : State) (t n stamp fault : Nat) (px : List Nat) (fr : CamFrame), n < 8 → s.dev.on (160 + n / 4) = true → (s.dev.camPort n).frame = some fr → fr.dropped = false → fr.stamp.isSome = true →
    Answers (.lineReceive t n (s.dev.f (r1 .camPortCfg n) F.camPortCfg.DTYPE) (s.dev.f (r1 .camPortCfg n) F.camPortCfg.VC) stamp fault px) s fun s' =>
      (fr.rows.length < (s.dev.camGeom n).inH → ∃ fr', (s'.dev.camPort n).frame = some fr' ∧ fr'.stamp = fr.stamp ∧ fr'.buf = fr.buf ∧ fr'.unc = (fr.unc || s.dev.elastic 1 n) ∧ fr'.bad = fr.bad + (if fault = 0 then 0 else 1) ∧
        fr'.rows = fr.rows ++ [if fault = 0 then (true, px.take (s.dev.camGeom n).inW) else (false, replacement fr.rows fr.rows.length)] ∧
        (fault ≠ 0 → s'.dev.fb (r1 .camPortStat n) F.camPortStat.BADLINE = true)) ∧
      ((s.dev.camGeom n).inH ≤ fr.rows.length → (s'.dev.camPort n).frame = some { fr with extra := true, unc := fr.unc || s.dev.elastic 1 n })) ∧
  (∀ (s : State) (t n : Nat) (fr : CamFrame), n < 8 → s.dev.on (160 + n / 4) = true → (s.dev.camPort n).frame = some fr →
    Answers (.frameEnd t n) s fun s' => (s'.dev.camPort n).frame = none ∧
      (fr.dropped = false → fr.stamp.isSome = true → fr.buf < 8 → s.dev.fb (r1 .camPortBuf n) F.camPortBuf.CELL_EN = false →
        let short := decide (fr.rows.length < (s.dev.camGeom n).inH)
        (s'.dev.f (r1 .camPortBuf n) F.camPortBuf.READY).testBit fr.buf = true ∧ (s'.dev.f (r1 .camPortBuf n) F.camPortBuf.FILLING).testBit fr.buf = false ∧
        (s.dev.on 156 = true → s'.dev.eic.pend.contains (232 + n) = true) ∧
        ∃ k : Key, k.dt = fr.stamp.getD (s.now t) ∧ (⟨k, .camera, fr.unc, [(fr.status short).code, fr.flags short, fr.buf, fr.bad, fr.first, fr.last, s.dev.camBuf n fr.buf]⟩ : Rec) ∈ s'.dev.recs)) ∧
  (∀ (s : State) (t c n v : Nat), n < 8 → hits s t c (r1 .camPortBuf n) .write = true →
    let ready := s.dev.f (r1 .camPortBuf n) F.camPortBuf.READY
    Answers (.bufferRelease t c n v) s fun s' => s'.dev.f (r1 .camPortBuf n) F.camPortBuf.READY = ready - (ready &&& bits v 32 8) ∧
      s'.dev.f (r1 .camPortBuf n) F.camPortBuf.FILLING = s.dev.f (r1 .camPortBuf n) F.camPortBuf.FILLING ∧ s'.dev.f (r1 .camPortBuf n) F.camPortBuf.CELL = v % 2 ^ 17 ∧
      (∀ g, g ≠ r1 .camPortBuf n → s'.dev.rd g = s.dev.rd g) ∧ s'.dev.mem = s.dev.mem)

/-- O50. R265, R267 to R273, R278, R281 to R283, R290: a stream takes its sample converted; a cut-off starts the estimator with each stream's contribution; a run's record is published, or
missed at EST_NS; a replay amends; the ladder rises a level; a configuration waits; a subscriber is added or removed. -/
def Obligations.FusionCommands : Prop :=
  (∀ (s : State) (t kind source stamp cnt bound : Nat) (unc : Bool) (raw : List Nat) (x : FusStream), s.dev.on 149 = true → kind ≤ 5 → kind ≠ 4 → s.dev.fus.newestTov = none → tget s.dev.cue.trig 2 = none →
    (s.dev.streams.filter fun y => y.kind == kind && y.source == source) = [x] →
    let value := fun i => match raw[i]? with
      | some v => x.convert v
      | none => Config.freeNat (s.dev.free + i) % 2 ^ 32
    Answers (.sampleArrive t kind source stamp cnt unc bound raw) s fun s' =>
      (⟨stamp, cnt, s.now t, unc, bound, (List.range x.nval).map value, false⟩ : FusSample) ∈ tgetD s'.dev.fus.samples x.stream [] ∧
      (s.dev.strState x.stream = 1 → s'.dev.strState x.stream = 2) ∧ (s.dev.fus.subs = [] → s'.dev.mem = s.dev.mem) ∧
      ((∀ y ∈ tgetD s.dev.fus.samples x.stream [], y.stamp < stamp) → s'.dev.rn (r1 .fusStrLast x.stream) = stamp % 2 ^ 64)) ∧
  (∀ (s : State) (t c p idx : Nat) (x : FusStream), p < 16 → hits s t c (r1 .fusPortPost p) .write = true → s.dev.ownsPort c p = true → s.dev.fb (r1 .fusPortRing p) F.fusPortRing.VALID = true →
    idx % 256 ≤ s.dev.f (r1 .fusPortRing p) F.fusPortRing.ENTRIES → s.dev.fus.newestTov = none →
    (s.dev.streams.filter fun y => y.kind == 4 && y.source == p * 2 ^ 28) = [x] →
    let a := s.dev.f (r1 .fusPortRing p) F.fusPortRing.ADDR + 96 * (idx % 256)
    Answers (.samplePost t c p idx) s fun s' => s'.dev.bus = .ok ∧ ∃ y ∈ tgetD s'.dev.fus.samples x.stream [], y.stamp = s.dev.mem.le a 8 ∧ y.cnt = s.dev.mem.le (a + 8) 4 ∧
      y.delivered = s.now t ∧ y.unc = false) ∧
  (∀ (s : State) (t tov : Nat), tget s.dev.cue.trig 2 = some tov → s.dev.on 149 = true → s.dev.fusGuard < s.dev.elapsed tov (s.now t) → s.dev.fus.pend = none →
    Answers (.cutoff t) s fun s' => tget s'.dev.cue.trig 2 = none ∧
      (∀ c, s.dev.fusEn = true → s.dev.fus.conf = some c → s.dev.fus.subs = [] → s'.dev.fus.cut = (s.dev.fus.cut + 1) % 2 ^ 32 ∧ s'.dev.fus.newestTov = some tov ∧
        ∃ x, s'.dev.fus.run = some x ∧ x.tov = tov ∧ x.cut = s.dev.fus.cut ∧ x.guard = s.dev.fusGuard ∧ x.contrs.map (·.1) = c.streams.map (·.stream))) ∧
  (∀ (s : State) (t : Nat) (x : FusRun) (c : FusConf), s.dev.fus.run = some x → s.dev.fus.conf = some c → s.dev.fusEn = true → s.dev.fus.subs = [] →
    (s.dev.elapsed x.tov (s.now t) ≤ x.guard + c.estNs + 500 →
      Answers (.fusedRecordPublish t) s fun s' => s'.dev.fus.run = none ∧ s'.dev.fus.missed = 0 ∧ s'.dev.fus.est = c.estimate s.dev.fus.est x.tov x.ego x.contrs ∧
        (∃ r ∈ s'.dev.fus.hist, r.tov = x.tov ∧ r.cut = x.cut ∧ r.rev = 0) ∧
        ∃ k : Key, ∃ u, k.dt = s.now t ∧ (⟨k, .fused, u, [x.tov, x.cut, 0, s.dev.level, x.ego]⟩ : Rec) ∈ s'.dev.recs) ∧
    (x.guard + c.estNs ≤ s.dev.elapsed x.tov (s.now t) →
      Answers (.estimatorTimeout t) s fun s' => s'.dev.fus.run = none ∧ s'.dev.fus.missed = s.dev.fus.missed + 1 ∧ s'.dev.fb (r0 .fusStat) F.fusStat.MISSED = true ∧
        (s.dev.on 156 = true → s'.dev.eic.pend.contains 201 = true))) ∧
  (∀ (s : State) (t pos : Nat), s.dev.fusEn = true → s.dev.fus.replay = some pos → s.dev.fus.run = none → s.dev.fus.subs = [] →
    Answers (.amendment t) s fun s' =>
      ((s.dev.fus.hist.find? fun r => decide (pos ≤ r.tov)) = none → s'.dev.fus.replay = none ∧ s'.dev.fb (r0 .fusStat) F.fusStat.REPLAY = false) ∧
      (∀ r, (s.dev.fus.hist.find? fun r => decide (pos ≤ r.tov)) = some r → (∃ r' ∈ s'.dev.fus.hist, r'.tov = r.tov ∧ r'.rev = r.rev + 1 ∧ r'.ego = r.ego) ∧
        s'.dev.f (r0 .fusLate) F.fusLate.AMENDS = min (2 ^ F.fusLate.AMENDS.w - 1) (s.dev.f (r0 .fusLate) F.fusLate.AMENDS + 1))) ∧
  (∀ (s : State) (t b : Nat), s.dev.fus.below = some b → s.dev.fusEn = true → 0 < s.dev.fus.ladder → s.dev.fus.ladder ≤ 4 → s.dev.condition.1 < s.dev.fus.ladder →
    500000000 ≤ s.dev.elapsed b (s.now t) → s.dev.fus.subs = [] →
    Answers (.ladderRise t) s fun s' => s'.dev.fus.ladder = s.dev.fus.ladder - 1 ∧ s'.dev.level = max (s.dev.fus.ladder - 1) (s.dev.f (r0 .fusCtrl) F.fusCtrl.FLOOR)) ∧
  (∀ (s : State) (t m seq : Nat) (r : Req), ready s t m seq 0x0801 r = true → s.dev.fuseConfigCheck r = none →
    Answers (.fuseConfig t m seq) s fun s' => awaits s'.dev m seq ∧ s'.dev.fus.conf = s.dev.fus.conf ∧ s'.dev.regs = s.dev.regs ∧
      ∃ c, s'.dev.fus.pend = some (c, r.w32 4) ∧ (r.w32 0 ≠ 0 → c.isSome = true)) ∧
  (∀ (s : State) (t m seq : Nat) (r : Req), ready s t m seq 0x0802 r = true → s.dev.fuseSubscribeCheck r = none →
    Answers (.fuseSubscribe t m seq) s fun s' => ringKept s.dev s'.dev m ∧
      (r.flag 0 = true → tget s'.dev.fus.subs (r.w32 4) = none ∧ served s.dev s'.dev r .ok 0 []) ∧
      (r.flag 0 = false → ∃ i x, tget s.dev.liveSubs i = none ∧ tget s'.dev.fus.subs i = some x ∧ x.ctx = r.ctx ∧ x.kind = r.fld 0 0 2 ∧ x.target = r.w32 4 ∧ x.every = r.fld 0 8 8 ∧
        served s.dev s'.dev r .ok i []))

/-! ## Planner -/

/-- O51. R298 to R300, R302, R303, R308, R309, R311, R313: a grid write waits for the inactive bank's pins, then publishes its epoch; a wavefront run, a batch, a checking pass and a sweep end
with their record and their command's completion. -/
def Obligations.PlannerEvents : Prop :=
  (∀ (s : State) (t : Nat) (w : GridWrite) (rest : List GridWrite) (g : Roadmap) (r : Req), s.dt ≤ dtMax → s.dev.plan.writes = w :: rest → s.dev.plan.geom = some g → s.dev.planEn = true →
    (s.dev.pins (1 - s.dev.bank) ≠ 0 → Answers (.gridWriteDone t) s fun s' => s'.dev.plan = s.dev.plan ∧ s'.dev.epoch = s.dev.epoch ∧ s'.dev.fb (r0 .planStat) F.planStat.WRITE_HELD = true) ∧
    (s.dev.pins (1 - s.dev.bank) = 0 → s.dev.gated 3 4 = true → Answers (.gridWriteDone t) s fun s' => s'.dev = s.dev) ∧
    (s.dev.pins (1 - s.dev.bank) = 0 → issuesAll s.dev 0 (if w.delta then 8 * w.nruns else 4 * g.voxels) → s.dev.req? w.mbx w.seq = some r →
      Answers (.gridWriteDone t) s fun s' => s'.dev.bankMem (1 - s.dev.bank) = s.dev.gridImage g w ∧ s'.dev.bankMem s.dev.bank = s.dev.bankMem s.dev.bank ∧ s'.dev.plan.writes = rest ∧
        (w.publish = true → s'.dev.bank = 1 - s.dev.bank ∧ s'.dev.epoch = (s.dev.epoch + 1) % 2 ^ 32 ∧ s'.dev.rn (r0 .planEpochAt) = s.now t ∧ s'.dev.bankT0 (1 - s.dev.bank) = w.t0 ∧
          served s.dev s'.dev r .ok ((s.dev.epoch + 1) % 2 ^ 32) []) ∧
        (w.publish = false → s'.dev.bank = s.dev.bank ∧ s'.dev.epoch = s.dev.epoch ∧ served s.dev s'.dev r .ok 0 []))) ∧
  (∀ (s : State) (t : Nat) (w : WaveRun) (g : Roadmap) (r : Req) (m q : Nat), s.dev.plan.wave = some w → s.dev.plan.geom = some g → s.dev.planOn = true → w.cmd = some (m, q) →
    s.dev.req? m q = some r → s.dev.cells = [] → issuesAll s.dev 1 (2 * g.voxels) → (∀ x, s.dev.plan.replan = some x → x.waveDue = false) →
    Answers (.wavefrontRunEnd t) s fun s' => let bad := b2n (!(s.dev.costField g w).2)
      s'.dev.plan.wave = none ∧ served s.dev s'.dev r .ok bad [] ∧ (bad = 1 → s'.dev.fb (r0 .planStat) F.planStat.NOT_CONV = true) ∧ (s.dev.on 156 = true → s'.dev.eic.pend.contains 204 = true) ∧
      s'.dev.pins w.bank = s.dev.pins w.bank - 1 ∧ ∃ k : Key, k.dt = s.now t ∧ (⟨k, .plan, false, [w.epoch, bad]⟩ : Rec) ∈ s'.dev.recs) ∧
  (∀ (s : State) (t stamp id : Nat) (x : Replan) (wt : Wait), s.dev.plan.replan = some x → s.dev.waitAny .candidate = some (id, wt) → tget s.dev.waits id = some wt → s.dev.planOn = true →
    x.batch = false → x.fire ≤ stamp → stamp ≤ s.now t → (s.dev.cellCount x.cfg.cell).testBit 0 = true →
    (((tget s.dev.cells x.cfg.cell).bind Cell.flagKey).elim true fun k => k.dt == stamp) = true → wt.outcome = none → stamp + wt.moved ≤ wt.deadline → s.now t ≤ wt.deadline + wt.guard →
    Answers (.checkBatchStart t stamp) s fun s' =>
      (s.dev.level ≠ 4 → s'.dev.plan.replan = some { x with batch := true, bank := s.dev.bank, epoch := s.dev.epoch, level := s.dev.level, speed := speedOf s.dev.level } ∧
        s'.dev.pins s.dev.bank = min 255 (s.dev.pins s.dev.bank + 1)) ∧
      (s.dev.level = 4 → s'.dev.plan.replan = none)) ∧
  (∀ (s : State) (t id : Nat) (x : Replan) (g : Roadmap) (wt : Wait), s.dev.plan.replan = some x → s.dev.plan.geom = some g → s.dev.planOn = true → x.batch = true → x.passed = none →
    x.recheck = none → x.ruled = [] → s.dev.epoch = x.epoch → s.dev.level ≤ x.level → s.dev.cells = [] → s.dev.waitOf .replan = some (id, wt) → tget s.dev.waits id = some wt → wt.outcome = none →
    s.now t + wt.moved ≤ wt.deadline →
    let set := s.dev.candSet x.cfg.cands
    issuesAll s.dev 2 ((set.2.flatMap Cand.edges).map fun e => s.dev.edgeBytes g e.1).sum →
    let good := fun i => (set.2[i]?).elim false fun c => s.dev.candPass g x.bank set.1 x.level x.speed c && !(c.edges.any fun e => thas s.dev.plan.disabled e.1)
    Answers (.checkPassEnd t) s fun s' => s'.dev.plan.replan = none ∧
      (∀ i, lowest 8 good = some i → ∃ k : Key, k.dt = s.now t ∧ (⟨k, .plan, false, [Status.ok.code, i, x.level, x.epoch, x.epoch, set.1]⟩ : Rec) ∈ s'.dev.recs) ∧
      (lowest 8 good = none → s'.dev.fb (r0 .planStat) F.planStat.NO_CAND = true ∧
        ∃ k : Key, k.dt = s.now t ∧ (⟨k, .plan, false, [Status.noCandidate.code, 0xF, x.level, x.epoch, x.epoch, s.dev.plan.prevStart]⟩ : Rec) ∈ s'.dev.recs)) ∧
  (∀ (s : State) (t : Nat) (w : SweepRun) (g : Roadmap) (r : Req), s.dev.plan.sweep = some w → s.dev.plan.geom = some g → s.dev.planOn = true → s.dev.req? w.mbx w.seq = some r →
    issuesAll s.dev 3 ((List.range g.nedges).map fun e => s.dev.edgeBytes g e).sum →
    Answers (.sweepComplete t) s fun s' => s'.dev.plan.sweep = none ∧ s'.dev.pins w.bank = s.dev.pins w.bank - 1 ∧ (s.dev.on 156 = true → s'.dev.eic.pend.contains 204 = true) ∧
      served s.dev s'.dev r (if s.dev.epoch = w.epoch then .ok else .epochStale) 0 (leBytes 4 w.epoch ++ leBytes 4 s.dev.epoch))

/-- O52. R298, R301, R304, R306, R309, R310, R363: the planner's commands queue a grid write, load a roadmap, change the edge bitmap, and start, repeat and stop its runs. -/
def Obligations.PlannerCommands : Prop :=
  (∀ (s : State) (t m seq : Nat) (r : Req), ready s t m seq 0x0901 r = true → s.dev.planGridCheck r = none →
    Answers (.planGrid t m seq) s fun s' => awaits s'.dev m seq ∧ s'.dev.mem = s.dev.mem ∧
      s'.dev.plan = { s.dev.plan with writes := s.dev.plan.writes ++ [⟨m, seq, r.flag 0, r.flag 1, r.w32 0, r.w32 4, r.w64 8, false⟩] }) ∧
  (∀ (s : State) (t m seq : Nat) (r : Req), ready s t m seq 0x0902 r = true → r.flags &&& 511 = 0 → s.dev.planRoadmapCheck r = none →
    Answers (.planRoadmap t m seq) s fun s' =>
      (s.dev.planBusy = false → gone s'.dev r ∧ ∃ g, s'.dev.plan.geom = some g ∧ g.object = r.w32 0 ∧ s'.dev.f (r0 .planGeom) F.planGeom.RES_MM = g.resMm % 2 ^ F.planGeom.RES_MM.w) ∧
      (s.dev.planBusy = true → awaits s'.dev m seq ∧ s'.dev.plan.geom = s.dev.plan.geom ∧ s'.dev.plan.geomNext.isSome = true)) ∧
  (∀ (s : State) (t m seq : Nat) (r : Req), ready s t m seq 0x0902 r = true → s.dev.edgeCheck r = none →
    (r.flags &&& 511 = 1 → Answers (.edgeDisable t m seq) s fun s' => served s.dev s'.dev r .ok 0 [] ∧ ringKept s.dev s'.dev m ∧
      ∀ e, (thas s'.dev.plan.disabled e = true ↔ thas s.dev.plan.disabled e = true ∨ ∃ x ∈ s.dev.edgeList r, x.2 % 2 ^ 18 = e)) ∧
    (r.flags &&& 511 = 2 → Answers (.edgeEnable t m seq) s fun s' => served s.dev s'.dev r .ok 0 [] ∧ ringKept s.dev s'.dev m ∧
      ∀ e, (thas s'.dev.plan.disabled e = true ↔ thas s.dev.plan.disabled e = true ∧ ∀ x ∈ s.dev.edgeList r, x.2 % 2 ^ 18 ≠ e))) ∧
  (∀ (s : State) (t m seq : Nat) (r : Req), ready s t m seq 0x0903 r = true → (∀ x ∈ s.dev.stew.settings, x.code ≠ 0x0050) →
    (r.flags &&& 511 = 0 → s.dev.planRunCheck r = none →
      Answers (.planRun t m seq) s fun s' => awaits s'.dev m seq ∧ ∃ x, s'.dev.plan.replan = some x ∧ x.cfg = s.dev.planCfg r false ∧ x.fire = s.now t ∧ x.batch = false) ∧
    ((r.flags &&& 511 = 1 ∨ r.flags &&& 511 = 5) → s.dev.planRepeatCheck r = none →
      Answers (.planRunRepeat t m seq) s fun s' => awaits s'.dev m seq ∧ s'.dev.plan = { s.dev.plan with rep := some (s.dev.planCfg r true), repCount := 0 }) ∧
    (r.flags &&& 511 = 2 → s.dev.planSweepCheck r = none →
      Answers (.planSweep t m seq) s fun s' => awaits s'.dev m seq ∧ s'.dev.pins s.dev.bank = min 255 (s.dev.pins s.dev.bank + 1) ∧
        ∃ x, s'.dev.plan.sweep = some x ∧ x.bank = s.dev.bank ∧ x.epoch = s.dev.epoch ∧ x.start = r.w64 32 ∧ x.off = r.w32 40 ∧ x.field = r.w32 4 ∧
          (s.dev.level ≠ 4 → x.speed = speedOf s.dev.level)) ∧
    (r.flags &&& 511 = 4 → s.dev.planWaveCheck r = none →
      Answers (.planWave t m seq) s fun s' => awaits s'.dev m seq ∧ s'.dev.pins s.dev.bank = min 255 (s.dev.pins s.dev.bank + 1) ∧
        ∃ x, s'.dev.plan.wave = some x ∧ x.cmd = some (m, seq) ∧ x.bank = s.dev.bank ∧ x.epoch = s.dev.epoch ∧ x.field = r.w32 8 ∧ x.slices = r.fld 20 0 16) ∧
    (r.flags &&& 511 = 8 → s.dev.planStopCheck r = none →
      Answers (.planRunStop t m seq) s fun s' => served s.dev s'.dev r .ok 0 [] ∧
        ∀ c rc, s.dev.planRep = some c → s.dev.req? c.mbx c.seq = some rc → s'.dev.plan.rep = none ∧ served s.dev s'.dev rc .ok s.dev.plan.repCount []))

/-! ## Loop engines -/

/-- O53. R25, R47, R315, R322, R330, R333, R337, R338: a tick takes its cue and the stop request holds its laws; a reference slot flips to every engine; frames, injections and captures end;
a wait whose guard has passed commits EXPIRED. -/
def Obligations.LoopEngineEvents : Prop :=
  (∀ (s : State) (t n f : Nat), tget s.dev.cue.trig (3 + n) = some f → n < 8 → s.dev.engOn n = true → 200 < s.dev.elapsed f (s.now t) → s.dev.fb (r1 .leEngCfg n) F.leEngCfg.EN = true →
    (s.dev.target (18 + n)).halted = false → (s.dev.target (18 + n)).stepping = false → s.dev.stew.settings = [] → s.dev.isEarly n = false → (s.dev.eng n).changes = [] → f < 2 ^ 64 →
    Answers (.loopTick t n) s fun s' => tget s'.dev.cue.trig (3 + n) = none ∧ s'.dev.rn (r1 .leEngTickAt n) = f ∧ (s'.dev.eng n).latched = s.dev.latch f (s.dev.eng n).latched ∧
      ((s.dev.eng n).armed ≠ [] → (s.dev.lineAt f).2.2 = true → (s.dev.eng n).holding = false →
        (s'.dev.eng n).holding = true ∧ s'.dev.rn (r1 .leEngHoldAt n) = f ∧ (s.dev.on 156 = true → s'.dev.eic.pend.contains (192 + n) = true)) ∧
      ((s.dev.eng n).holding = false → (s.dev.eng n).holdCmd = false → (s.dev.lineAt f).2.2 = false → s.dev.setStale n f ((s.dev.eng n).setAt f) = false → s.dev.anyUnfit n = false →
        (s'.dev.eng n).holding = false ∧ (s'.dev.eng n).armed.map ArmedLaw.slot = (s.dev.eng n).armed.map ArmedLaw.slot)) ∧
  (∀ (s : State) (t n at_ : Nat) (fr : List Byte) (rest : List (Nat × List Byte)), n < 8 → s.dev.engOn n = true → (s.dev.eng n).frames = (at_, fr) :: rest → at_ ≤ s.now t →
    let p := if (bytesAt fr 25 1).testBit 4 then 0 else s.dev.f (r1 .leEngCfg n) F.leEngCfg.PORT
    Answers (.commandFrameQueue t n) s fun s' => (s'.dev.eng n).frames = rest ∧ s'.dev.regs = s.dev.regs ∧ s'.dev.mem = s.dev.mem ∧
      (s'.dev.port p).txq = (s.dev.port p).txq ++ [⟨7, true, true, 0x0400 + n, Config.frameAddresses p ++ beBytes 2 0x88B5 ++ fr⟩]) ∧
  (∀ (s : State) (t n : Nat) (x : Inject) (r : Req), n < 8 → s.dev.engOn n = true → (s.dev.eng n).inject = some x → x.t0 + x.len ≤ s.now t → s.dev.req? x.mbx x.seq = some r →
    Answers (.injectionEnd t n) s fun s' => (s'.dev.eng n).inject = none ∧ served s.dev s'.dev r .ok 0 [] ∧
      (x.calibrate = true → s'.dev.rn (r0 .pbuSquallCfg) = x.squall % 2 ^ 64)) ∧
  (∀ (s : State) (t n : Nat) (c : Capture) (r : Req), n < 8 → s.dev.engOn n = true → (s.dev.eng n).capture = some c → s.dev.f (r1 .leEngCap n) F.leEngCap.STATE = 3 → s.dev.stewardRuns = true →
    s.dev.req? c.mbx c.seq = some r →
    Answers (.captureEnd t n) s fun s' => (s'.dev.eng n).capture = none ∧
      served s.dev s'.dev r .ok 0 (leBytes 8 (c.first.getD 0) ++ leBytes 4 c.rows ++ leBytes 4 0 ++ leBytes 8 c.holdAt)) ∧
  (∀ (s : State) (t l e slot dt n : Nat) (rest : List (Nat × Nat)) (b : Basin) (c : Ctx), s.dt ≤ dtMax → l < 256 → s.dev.basin? l = some b → (b.entry e).kind = 7 → s.dev.ctxClass b.ctx = 0 →
    s.dev.ctx? b.ctx = some c → c.standby ≠ 1 → (b.entry e).readyQ = (slot, dt) :: rest → n < 8 → s.dev.engOn n = true →
    let set := s.dev.mem.read (s.dev.slotAddr l (b.entry e) slot + 1088 * n) 1088
    Answers (.referenceFlip t l e) s fun s' => s'.dev.mem = s.dev.mem ∧
      (bits (bytesAt set 24 4) 30 2 = 0 → (s'.dev.eng n).sets = ((s.now t, set) :: (s.dev.eng n).sets).take 4 ∧ s'.dev.rn (r1 .leEngFlipAt n) = s.now t) ∧
      (bits (bytesAt set 24 4) 30 2 ≠ 0 → (s'.dev.eng n).sets = (s.dev.eng n).sets ∧ s'.dev.fb (r1 .leEngStat n) F.leEngStat.REF_STALE = true)) ∧
  (∀ (s : State) (t id : Nat) (w : Wait), tget s.dev.waits id = some w → w.outcome = none →
    (w.deadline + w.guard < s.now t → Answers (.waitExpire t id) s fun s' => ∃ e : Dev, e.regs = s.dev.regs ∧ e.mem = s.dev.mem ∧ e.fab = s.dev.fab ∧
      tget e.waits id = some { w with outcome := some false, key := some ⟨w.deadline, s.dev.src w.src, s.dev.cntOf w.src⟩, late := [] } ∧
      (∀ k, k ≠ id → tget e.waits k = tget s.dev.waits k) ∧ s'.dev = (e.waitExpired (s.now t) id w).settleEnds (s.now t)) ∧
    (s.now t ≤ w.deadline + w.guard → Answers (.waitExpire t id) s fun s' => s'.dev = s.dev))

/-- O54. R316, R318, R319, R330 to R332, R337, R338, R342: a law is loaded converted; a change of armed laws waits on every engine named; an injection or a capture starts, or STOP ends it. -/
def Obligations.LawCommands : Prop :=
  (∀ (s : State) (t m seq : Nat) (r : Req) (o : Obj) (l : Loc), ready s t m seq 0x0A01 r = true → s.dev.lawLoadCheck r = none → s.dev.pinned1 (r.w32 4) = some (o, l) →
    Answers (.lawLoad t m seq) s fun s' => ringKept s.dev s'.dev m ∧
      (∃ x, tget (s'.dev.eng (r.fld 0 0 3)).slots (r.fld 0 3 6) = some x ∧ x.desc = lawConvert (s.dev.locBytes l (r.w32 8) 4096)) ∧
      (r.w32 12 = 0 → served s.dev s'.dev r .ok 0 []) ∧ (r.w32 12 ≠ 0 → served s.dev s'.dev r .ok 0 [] ∨ served s.dev s'.dev r .calEnvelope 0 [])) ∧
  (∀ (s : State) (t m seq : Nat) (r : Req) (x : Instr × Nat × Option Fail × Nat × Nat), ready s t m seq 0x0A02 r = true →
    x ∈ [(.lawArm t m seq, 1, s.dev.lawArmCheck (s.now t) r, 0, s.now t), (.lawDisarm t m seq, 2, s.dev.lawDisarmCheck r, 1, s.now t), (.lawHold t m seq, 4, s.dev.lawHoldCheck r, 2, s.now t),
      (.lawResume t m seq, 8, s.dev.lawResumeCheck (s.now t) r, 3, s.now t), (.lawSwap t m seq, 16, s.dev.lawSwapCheck (s.now t) r, 4, s.now t),
      (.lawHandover t m seq, 32, s.dev.lawHandoverCheck (s.now t) r, 5, r.lawH)] → r.flags &&& 511 = x.2.1 → x.2.2.1 = none →
    Answers x.1 s fun s' => awaits s'.dev m seq ∧ s'.dev.regs = s.dev.regs ∧ s'.dev.mem = s.dev.mem ∧
      (∀ n, n ∈ r.engines → s'.dev.eng n = { s.dev.eng n with changes := (s.dev.eng n).changes ++ [⟨x.2.2.2.1, some (m, seq), r.slots n, x.2.2.2.2, m, r.ctx⟩] }) ∧
      ∀ n, n ∉ r.engines → s'.dev.eng n = s.dev.eng n) ∧
  (∀ (s : State) (t m seq : Nat) (r : Req), ready s t m seq 0x0A03 r = true → s.dev.lawInjectCheck r = none →
    Answers (.lawInject t m seq) s fun s' =>
      (r.flag 1 = true → (s'.dev.eng (r.fld 0 0 3)).inject = none ∧ gone s'.dev r) ∧
      (r.flag 1 = false → awaits s'.dev m seq ∧ ∃ x, (s'.dev.eng (r.fld 0 0 3)).inject = some x ∧ x.mbx = m ∧ x.seq = seq ∧ x.slot = r.fld 0 3 6 ∧ x.index = r.fld 0 10 3 ∧ x.a = r.w32 4 ∧
        x.t0 = r.w64 16 ∧ x.len = r.w64 24 ∧ x.calibrate = r.flag 0)) ∧
  (∀ (s : State) (t m seq : Nat) (r : Req), ready s t m seq 0x0A04 r = true → s.dev.lawCaptureCheck r = none →
    Answers (.lawCapture t m seq) s fun s' =>
      (r.flag 0 = true → (s'.dev.eng (r.fld 0 0 3)).capture = none ∧ gone s'.dev r) ∧
      (r.flag 0 = false → awaits s'.dev m seq ∧ s'.dev.f (r1 .leEngCap (r.fld 0 0 3)) F.leEngCap.STATE = 1 ∧ ∃ c, (s'.dev.eng (r.fld 0 0 3)).capture = some c ∧ c.mbx = m ∧ c.seq = seq ∧
        c.object = r.w32 4 ∧ c.start = r.w64 8 ∧ c.data = []))

/-! ## The management controller, power, boot -/

/-- O55. R360, R417, R426, R427, R431, R435 to R437: the queries of the management controller: each answers with the bytes of its item, and changes what its item names. -/
def Obligations.ManagementQueries : Prop :=
  (∀ (s : State) (t m seq : Nat) (r : Req) (v lo hi : F32), asks s t m seq r 0x0001 false (decide (r.mcIndex < 32)) none →
    let x := Sensor.take (tget s.dev.mc.temps r.mcIndex) v lo hi (s.now t)
    Answers (.temp t m seq v lo hi) s fun s' => answered s.dev s'.dev r (f32Bytes v ++ f32Bytes x.min ++ f32Bytes x.max ++ leBytes 4 0 ++ leBytes 8 (s.now t)) ∧ tget s'.dev.mc.temps r.mcIndex = some x) ∧
  (∀ (s : State) (t m seq : Nat) (r : Req) (v a : F32), asks s t m seq r 0x0002 false (decide (r.mcIndex < 40)) none →
    Answers (.rail t m seq v a) s fun s' => answered s.dev s'.dev r (f32Bytes v ++ f32Bytes a ++ leBytes 8 (s.now t)) ∧
      tget s'.dev.mc.volts r.mcIndex = some (Sensor.take (tget s.dev.mc.volts r.mcIndex) v v v (s.now t)) ∧ tget s'.dev.mc.amps r.mcIndex = some (Sensor.take (tget s.dev.mc.amps r.mcIndex) a a a (s.now t))) ∧
  (∀ (s : State) (t m seq : Nat) (r : Req) (rh margin : F32), asks s t m seq r 0x0003 false (r.mcIndex == 0) none →
    Answers (.humidity t m seq rh margin) s fun s' => answered s.dev s'.dev r (f32Bytes rh ++ f32Bytes margin ++ leBytes 4 (b2n (f32Lt margin 0x40000000)) ++ leBytes 4 0 ++ leBytes 8 (s.now t)) ∧
      s'.dev.mc.condense = f32Lt margin 0x40000000 ∧ s'.dev.mc.margin.value = margin ∧ s'.dev.mc.rh.value = rh) ∧
  (∀ (s : State) (t m seq : Nat) (r : Req), asks s t m seq r 0x0004 false (r.mcIndex == 0) none →
    Answers (.shock t m seq) s fun s' => answered s.dev s'.dev r (f32Bytes s.dev.mc.peak ++ leBytes 4 s.dev.mc.falls ++ leBytes 4 s.dev.mc.impacts ++ leBytes 4 0 ++ leBytes 8 s.dev.mc.shockLast) ∧ s'.dev.mc = s.dev.mc) ∧
  (∀ (s : State) (t m seq mv : Nat) (r : Req), asks s t m seq r 0x0005 false (r.mcIndex == 0) none →
    Answers (.holdup t m seq mv) s fun s' => s'.dev.mc = { s.dev.mc with bankMv := mv } ∧
      answered s.dev s'.dev r (leBytes 4 (enc32 ((FV.ofInt s.dev.mc.cMeas 0).div (FV.ofInt (10 ^ 9 : Nat) 0))) ++ leBytes 4 (enc32 ((FV.ofInt mv 0).div (FV.ofInt 1000 0))) ++
        joules (540 * (s.dev.mc.cMeas : Int) * ((mv : Int) ^ 2 - 28000 ^ 2)) ++ joules (s.dev.energyReserved 256 0) ++ leBytes 8 s.dev.mc.cAt)) ∧
  (∀ (s : State) (t m seq : Nat) (r : Req) (vin iin pAvg : F32), asks s t m seq r 0x0006 false (r.mcIndex == 0) none →
    Answers (.input t m seq vin iin pAvg) s fun s' => answered s.dev s'.dev r (f32Bytes vin ++ f32Bytes iin ++ f32Bytes pAvg ++ leBytes 4 0 ++ leBytes 8 (s.now t)) ∧
      s'.dev.mc.vin = vin ∧ s'.dev.mc.iin = iin ∧ s'.dev.mc.pAvg = pAvg ∧ s'.dev.mc.inputAt = s.now t) ∧
  (∀ (s : State) (t m seq : Nat) (r : Req), asks s t m seq r 0x0010 false (r.mcIndex == 0) none →
    Answers (.measure t m seq) s fun s' => answered s.dev s'.dev r ([s.dev.mc.mE, s.dev.mc.mB, s.dev.mc.mS, s.dev.mc.mL, s.dev.mc.mP, s.dev.mc.mMC].flatMap (fixed 48)) ∧ s'.dev.mc = s.dev.mc) ∧
  (∀ (s : State) (t m seq : Nat) (r : Req), asks s t m seq r 0x0011 false (decide (r.mcIndex < 2)) (needCfg (thas s.dev.mc.nonces r.mbx) 0) → r.mcIndex = 0 → s.dev.mc.buffered + 4096 ≤ 2 ^ 20 →
    Answers (.attest t m seq) s fun s' => ∃ x, s'.dev.mc.buf = s.dev.mc.buf ++ [x] ∧ x.kind = 0x0A4 ∧ x.at_ = s.now t ∧ x.key.dt = s.now t ∧
      answered s.dev s'.dev r (leBytes 8 (s.dev.mc.aseq + s.dev.mc.buf.length) ++ x.key.bytes)) ∧
  (∀ (s : State) (t m seq : Nat) (r : Req), asks s t m seq r 0x0020 false (decide (r.mcIndex < 64)) none →
    Answers (.counter t m seq) s fun s' => answered s.dev s'.dev r (leBytes 4 (tgetD s.otp.counters r.mcIndex 0)) ∧ s'.otp = s.otp ∧ s'.dev.mc = s.dev.mc) ∧
  (∀ (s : State) (t m seq : Nat) (r : Req), ready s t m seq 0x0C01 r = true → r.mcItem = 0x0021 → s.dev.mcAnswers 0x0021 = true → s.dev.advanceFail s.otp r = none → tgetD s.otp.counters r.mcIndex 0 < 255 →
    Answers (.counterAdvance t m seq) s fun s' => s'.otp = { s.otp with counters := s'.otp.counters } ∧ tget s'.otp.counters r.mcIndex = some (tgetD s.otp.counters r.mcIndex 0 + 1) ∧
      (∀ k, k ≠ r.mcIndex → tget s'.otp.counters k = tget s.otp.counters k) ∧ answered s.dev s'.dev r (leBytes 4 (tgetD s.otp.counters r.mcIndex 0 + 1))) ∧
  (∀ (s : State) (t m seq : Nat) (r : Req), asks s t m seq r 0x0040 false (r.mcIndex == 0) none →
    Answers (.almanac t m seq) s fun s' => s'.dev.mc = s.dev.mc ∧
      answered s.dev s'.dev r (leBytes 8 s.dev.mc.aseq ++ leBytes 8 ((s.dev.mc.ring.head?.map AlmStored.aseq).getD s.dev.mc.aseq) ++ leBytes 4 s.dev.mc.lostTotal ++ leBytes 4 s.dev.mc.buffered)) ∧
  (∀ (s : State) (t m seq : Nat) (r : Req), asks s t m seq r 0x0050 true (decide (r.mcIndex < 2)) none →
    Answers (.reset t m seq) s fun s' => answered s.dev s'.dev r [] ∧ s'.dev.mc.resetAt = some (s.now t + 10000000, r.mcIndex == 1)) ∧
  (∀ (s : State) (t m seq : Nat) (r : Req), asks s t m seq r 0x0030 true (decide (r.mcIndex < 65536)) (s.dev.stageMore r) →
    let k := s.dev.stageKind r
    Answers (.updateStage t m seq) s fun s' => answered s.dev s'.dev r (leBytes 4 k) ∧
      s'.dev.upd k = { s.dev.upd k with state := 1, boots := 0, object := r.mcIndex, req := r.key s.dev } ∧ ∀ j, j ≠ k → s'.dev.upd j = s.dev.upd j) ∧
  (∀ (s : State) (t m seq : Nat) (r : Req), asks s t m seq r 0x0031 true (decide (r.mcIndex < 5)) (needCfg ((s.dev.upd r.mcIndex).state == 2) 2) →
    Answers (.updateActivate t m seq) s fun s' => answered s.dev s'.dev r [] ∧ s'.dev.upd r.mcIndex = { s.dev.upd r.mcIndex with state := 4, boots := 0 } ∧
      s'.dev.mc.restartAt = if r.mcIndex = 3 then some (s.now t + 1000000000) else s.dev.mc.restartAt) ∧
  (∀ (s : State) (t m seq : Nat) (r : Req), ready s t m seq 0x0C01 r = true → r.mcItem = 0x0032 → s.dev.mcAnswers 0x0032 = true → s.dev.updateTurn r = true → s.dev.confirmFail r = none →
    let u := s.dev.upd r.mcIndex
    let head := (s.dev.imgStore r.mcIndex).le (slotBase r.mcIndex u.running) 4
    Answers (.updateConfirm t m seq) s fun s' => answered s.dev s'.dev r (leBytes 4 (imgSvn head)) ∧ s'.dev.upd r.mcIndex = { u with state := 5, active := u.running, boots := 0 } ∧
      tget s'.otp.counters (imgCtr head) = some (max (tgetD s.otp.counters (imgCtr head) 0) (imgSvn head))) ∧
  (∀ (s : State) (t m seq : Nat) (r : Req), asks s t m seq r 0x0033 false (decide (r.mcIndex < 5)) none →
    let u := s.dev.upd r.mcIndex
    let version (slot : Nat) : Nat := (s.dev.imgStore r.mcIndex).le (slotBase r.mcIndex slot + 4) 4
    let svn (slot : Nat) : Nat := imgSvn ((s.dev.imgStore r.mcIndex).le (slotBase r.mcIndex slot) 4)
    Answers (.updateStatus t m seq) s fun s' => s'.dev.mc = s.dev.mc ∧
      answered s.dev s'.dev r (leBytes 4 (u.state + u.active * 2 ^ 4 + min 7 u.boots * 2 ^ 5 + svn 0 * 2 ^ 8 + svn 1 * 2 ^ 16) ++ leBytes 4 (version 0) ++ leBytes 4 (version 1))) ∧
  (∀ (s : State) (t kind : Nat), s.dev.mc.running = true → kind < 5 → (s.dev.upd kind).state = 1 → s.dev.on 168 = true →
    Answers (.stagingDone t kind) s fun s' => ((s'.dev.upd kind).state = 2 ∨ (s'.dev.upd kind).state = 3) ∧
      (∀ o l, tget s.dev.slu.objs (s.dev.upd kind).object = some o → o.copy 1 = some l →
        ((s'.dev.upd kind).state = 2 ↔ o.size ≤ slotSize kind ∧ s'.dev.slotOk s.otp kind (1 - (s.dev.upd kind).active) = true)) ∧
      s'.dev.mem = s.dev.mem ∧ s'.dev.regs = s.dev.regs)

/-- O56. R432 to R434, R438 to R442: MC_LOG waits until its record is written; the almanac's ring takes the records the MC holds, each chained to the one before; a checkpoint signs the chain; a
safe store starts with its first part, a part starts when it passes the check of the bank, else waits for the bank at most 100 ms; a part that lands commits. -/
def Obligations.AlmanacAndSafeStores : Prop :=
  (∀ (s : State) (t m seq : Nat) (r : Req), ready s t m seq 0x0C02 r = true → r.flag 0 = false → s.dev.mcHalted = false → s.dev.mc.romOnly = false → s.dev.mcLogCheck r = none →
    Answers (.mcLog t m seq) s fun s' => awaits s'.dev m seq ∧ s'.dev.mem = s.dev.mem ∧ ∃ x, s'.dev.mc.buf = s.dev.mc.buf ++ [x] ∧ x.kind = 0x0B0 ∧ x.key = r.key s.dev ∧
      tget s'.dev.mc.nonces m = some (x.key, x.payload) ∧ (r.w32 4 = 0 → x.payload = (r.payload.drop 8).take r.logBytes)) ∧
  (∀ (s : State) (t : Nat), s.dev.ringUp = true → s.dev.mc.bufLost = none →
    Answers (.almanacWrite t) s fun s' => s'.dev.mc.buf = [] ∧
      (∀ x, s.dev.mc.buf = [x] → ∃ y ∈ s'.dev.mc.ring, y.entry = x ∧ y.aseq = s.dev.mc.aseq ∧ y.boot = s.dev.mc.boot ∧
        y.chain = sha (s.dev.mc.chain ++ x.head s.dev.mc.aseq s.dev.mc.boot ++ x.payload) ∧ s'.dev.mc.chain = y.chain ∧ s'.dev.mc.aseq = s.dev.mc.aseq + 1 ∧
        s'.dev.sysArea.read (ringBase + y.offset) (96 + x.payload.length) = x.head y.aseq y.boot ++ y.chain ++ x.payload) ∧
      (∀ r, s.dev.mc.buf ≠ [] → s.dev.stew.inflight = [r] → r.code = 0x0C02 → r.decided = true → r.flag 0 = false → served s.dev s'.dev r .ok 0 [])) ∧
  (∀ (s : State) (t : Nat), s.dev.ringUp = true → 1024 ≤ s.dev.mc.sinceCkpt →
    Answers (.checkpoint t) s fun s' => s'.dev.mc.sinceCkpt = 0 ∧ s'.dev.mc.ckptAt = s.now t ∧ s'.dev.mc.aseq = s.dev.mc.aseq + 1 ∧
      (∃ y ∈ s'.dev.mc.ring, y.entry.kind = 0x0F0 ∧ y.aseq = s.dev.mc.aseq) ∧ s'.dev.mem = s.dev.mem ∧ s'.dev.regs = s.dev.regs) ∧
  (∀ (s : State) (t m seq : Nat) (r : Req) (o : Obj) (l : Loc), ready s t m seq 0x0C02 r = true → r.flag 0 = true → s.dev.mcHalted = false → s.dev.mc.romOnly = false → s.dev.mcLogReadCheck r = none →
    s.dev.mc.buf = [] → s.dev.mc.bufLost = none → s.dev.pinned1 (r.w32 4) = some (o, l) → l.tier = 1 →
    let recs := (s.dev.almFrom (r.w64 8) (r.w32 16)).foldl (fun (bs : List Byte) x => if bs.length + x.entry.size ≤ o.size then bs ++ x.bytes else bs) []
    Answers (.mcLogRead t m seq) s fun s' => served s.dev s'.dev r .ok 0 [] ∧
      ∃ d1 : Dev, s'.dev = d1.finish (s.now t) r .ok 0 [] ∧ d1.mem.read l.addr recs.length = recs ∧ ∀ a, (a < l.addr ∨ l.addr + recs.length ≤ a) → d1.mem.get a = s.dev.mem.get a) ∧
  (∀ (s : State) (t m seq mv : Nat) (r : Req), ready s t m seq 0x0B01 r = true → s.dev.mc.running = true → s.dev.mcHalted = false → s.dev.on 168 = true → s.dev.storeFail mv r = none →
    Answers (.storeSafe t m seq mv) s fun s' => s'.dev.mc.bankMv = mv ∧
      (s.dev.pow.inputLost = false → awaits s'.dev m seq ∧ s'.dev.mem = s.dev.mem ∧ ∃ x ∈ s'.dev.mc.stores, x.mbx = m ∧ x.seq = seq ∧ x.kind = r.ssKind ∧ x.running = [0] ∧ x.committed = [] ∧
        (r.ssKind ≠ 1 → x.size = r.ssSize ∧ x.dest = r.ssDest) ∧ (x.sluiced 0 = true → ∃ e ∈ s'.dev.slu.reqs, e.2.purpose = .safe m seq 0)) ∧
      (s.dev.pow.inputLost = true → ∃ n, 1 ≤ n ∧ served s.dev s'.dev r .partialFail ((List.range n).map fun p => 2 ^ p).sum [])) ∧
  (∀ (s : State) (t m seq mv : Nat) (x : SafeStore), s.dev.store? m seq = some x → s.dev.mc.running = true → x.running = [] → x.committed.length < x.nparts → s.dev.pow.inputLost = false →
    let p := x.committed.length
    (x.sluiced p = true → engineRoom s.dev) →
    Answers (.safeStorePartStart t m seq mv) s fun s' => s'.dev.mem = s.dev.mem ∧
      (s.dev.partPasses m seq mv (x.bytes p) = true → x.sluiced p = true → ∃ e ∈ s'.dev.slu.reqs, e.2.purpose = .safe m seq p) ∧
      s'.dev.store? m seq = some (if s.dev.partPasses m seq mv (x.bytes p) then { x with running := [p], waitFrom := none } else { x with waitFrom := some (x.waitFrom.getD (s.now t)) })) ∧
  (∀ (s : State) (t m seq a : Nat) (x : SafeStore) (r : Req), s.dev.store? m seq = some x → x.waitFrom = some a → 100000000 ≤ s.dev.elapsed a (s.now t) → s.dev.req? m seq = some r →
    (∃ p, p < x.nparts ∧ x.committed.contains p = false) →
    Answers (.rechargeWaitTimeout t m seq) s fun s' => s'.dev.store? m seq = none ∧
      served s.dev s'.dev r .partialFail ((List.range x.nparts).map fun p => if x.committed.contains p then 0 else 2 ^ p).sum []) ∧
  (∀ (s : State) (t m seq p : Nat) (x : SafeStore), s.dev.store? m seq = some x → x.running = [p] → s.dev.on 168 = true → x.kind ≠ 1 →
    ((x.sluiced p = false ∧ s.dev.storeReq x p = none) ∨ ∃ e, s.dev.storeReq x p = some e ∧ tget s.dev.slu.reqs e.1 = some e.2 ∧ e.2.allEnded = true ∧ e.2.outcome = 0 ∧ e.2.crec = 0 ∧ e.2.cellOp = 0 ∧ e.2.making = none) →
    Answers (.safeStorePartCommit t m seq) s fun s' =>
      (∀ i, i < x.bytes p → ((s'.dev.storeFlash x).get (x.base + 0x2000 + p * x.part + i) = s.dev.mem.get (x.src + p * x.part + i))) ∧
      (x.committed.length + 1 ≠ x.nparts → s.dev.pow.inputLost = false → s'.dev.mem = s.dev.mem ∧ ∃ y, s'.dev.store? m seq = some y ∧ y.committed = x.committed ++ [p] ∧ y.running = []) ∧
      (∀ r, x.committed ++ [p] = List.range x.nparts → s.dev.req? m seq = some r → s'.dev.store? m seq = none ∧ served s.dev s'.dev r .ok x.nparts []))

/-- O57. R417, R420, R428 to R430, R439, R462, R465, R466, R468: resets, the input voltage, sensors and the causes of the MC's stop request. -/
def Obligations.PowerEvents : Prop :=
  (∀ (s : State) (t us : Nat), s.dev.mc.running = true → 10000 ≤ us →
    Answers (.resetIn t us) s fun s' => s' = { s with dt := s.now t, dev := { s.dev with mc := { s.dev.mc with resetAt := some (s.now t, decide (2000000 ≤ us)) } } }) ∧
  (∀ (s : State) (t : Nat), s.dev.resetDue (s.now t) true = true →
    Answers (.coldReset t) s fun s' => s'.dt = 0 ∧ s'.frac = 0 ∧ s'.latchClosed = false ∧ s'.ignored = 0 ∧ s'.otp = s.otp ∧ s'.dev.regs = [] ∧ s'.dev.mem = [] ∧ s'.dev.recs = [] ∧
      (∀ p ∈ s'.dev.pow.on, p = 171) ∧ s'.dev.slu.flash = s.dev.slu.flash ∧ s'.dev.sysArea = s.dev.sysArea ∧ s'.dev.nor = s.dev.nor) ∧
  (∀ (s : State) (t : Nat), s.dev.resetDue (s.now t) false = true → s.dev.earlyOn = true → s.dev.pow.inputLost = false →
    Answers (.mainDomainReset t) s fun s' => s'.dt = s.now t ∧ s'.latchClosed = false ∧ s'.ignored = 0 ∧ s'.otp = s.otp ∧ s'.dev.pow.on = [169, 170, 171] ∧ s'.dev.fab.ctxs = [] ∧ s'.dev.stew.inflight = [] ∧
      s'.dev.stew.sessions = [] ∧ s'.dev.mc.resetAt = none ∧ s'.dev.slu.flash = s.dev.slu.flash ∧ s'.dev.sysArea = s.dev.sysArea ∧ s'.dev.nor = s.dev.nor ∧ s'.dev.time = s.dev.time) ∧
  (∀ (s : State) (t : Nat) (watchdog : Bool), s.dev.mc.running = true → (watchdog = true ∨ ∃ x, s.dev.mc.restartAt = some x ∧ x ≤ s.now t) →
    Answers (.mcRestart t watchdog) s fun s' => s'.dev.mc.running = false ∧ s'.dev.mc.restartAt = none ∧ s' = { s with dt := s.now t, dev := { s.dev with mc := s'.dev.mc, cnt := s'.dev.cnt } }) ∧
  (∀ (s : State) (t : Nat), s.dev.stewardRuns = true → s.dev.mc.running = true →
    Answers (.heartbeat t) s fun s' => s'.dev.mc.heartbeatAt = s.now t ∧ s'.dev.mc.stewardStopped = false ∧ s'.dev.mc.causes.contains 5 = false ∧ s'.dev.mem = s.dev.mem) ∧
  (∀ (s : State) (t : Nat), s.dev.mc.running = true → s.dev.cores.steward = true → s.dev.mc.stewardStopped = false → 100000000 ≤ s.dev.elapsed s.dev.mc.heartbeatAt (s.now t) →
    Answers (.stewardStopped t) s fun s' => s'.dev.mc.stewardStopped = true ∧ stopsFor s'.dev 5 ∧ s'.dev.mem = s.dev.mem) ∧
  (∀ (s : State) (t idx : Nat) (v : F32), s.dev.mc.running = true →
    (idx < 32 → Answers (.mcThresholdCrossing t 0 idx v) s fun s' => (tget s'.dev.mc.temps idx).map Sensor.value = some v) ∧
    (idx < 40 → Answers (.mcThresholdCrossing t 1 idx v) s fun s' => (tget s'.dev.mc.volts idx).map Sensor.value = some v) ∧
    (idx < 40 → Answers (.mcThresholdCrossing t 2 idx v) s fun s' => (tget s'.dev.mc.amps idx).map Sensor.value = some v) ∧
    Answers (.mcThresholdCrossing t 3 0 v) s fun s' => s'.dev.mc.margin.value = v ∧ s'.dev.mc.condense = f32Lt v 0x40000000) ∧
  (∀ (s : State) (t : Nat) (g : F32), s.dev.mc.running = true → f32Le 0x42480000 g = true →
    Answers (.shockImpact t g) s fun s' => stopsFor s'.dev 4 ∧ s'.dev.mc.impacts = s.dev.mc.impacts + 1 ∧ s'.dev.mc.falls = s.dev.mc.falls ∧ s'.dev.mc.peak = f32Max s.dev.mc.peak g ∧ s'.dev.mc.shockLast = s.now t) ∧
  (∀ (s : State) (t ms : Nat) (g : F32), s.dev.mc.running = true → f32Lt g 0x3E99999A = true → 100 ≤ ms →
    Answers (.fallDetect t g ms) s fun s' => stopsFor s'.dev 4 ∧ s'.dev.mc.falls = s.dev.mc.falls + 1 ∧ s'.dev.mc.impacts = s.dev.mc.impacts ∧ s'.dev.mc.shockLast = s.now t) ∧
  (∀ (s : State) (t : Nat), s.dev.mc.running = true → s.dev.mc.causes.contains 4 = true → 1000000000 ≤ s.dev.elapsed s.dev.mc.shockLast (s.now t) →
    Answers (.shockStopEnd t) s fun s' => s'.dev.mc.causes.contains 4 = false ∧ ∀ c, c ≠ 4 → s'.dev.mc.causes.contains c = s.dev.mc.causes.contains c) ∧
  (∀ (s : State) (t mv ms : Nat), s.dev.mc.running = true → mv < 28000 → 1000 < ms → s.dev.pow.inputLost = false →
    Answers (.holdupFault t mv ms) s fun s' => stopsFor s'.dev 3 ∧ s'.dev.mc.bankMv = mv) ∧
  (∀ (s : State) (t ms : Nat) (vin : F32), s.dev.mc.running = true → f32Lt vin 0x41C00000 = true → 10 ≤ ms → s.dev.mc.vinLow = false →
    Answers (.vinLowStep t vin ms) s fun s' => s'.dev.mc.vin = vin ∧ s'.dev.mc.vinLow = true ∧
      (s.dev.envelope ≠ 0 → s.dev.on 156 = true → ∃ p, s'.dev.pbu.pend = some p ∧ p.forced = true)) ∧
  (∀ (s : State) (t us : Nat) (vin : F32), s.dev.mc.running = true → f32Lt vin 0x41B00000 = true → 1000 ≤ us →
    Answers (.vinBelowRange t vin us) s fun s' => stopsFor s'.dev 2 ∧ s'.dev.mc.vin = vin) ∧
  (∀ (s : State) (t ms : Nat) (vin : F32), s.dev.mc.running = true → f32Le 0x41C00000 vin = true → 100 ≤ ms → s.dev.pow.inputLost = false →
    Answers (.vinRecover t vin ms) s fun s' => s'.dev.mc.causes.contains 2 = false ∧ s'.dev.mc.vin = vin ∧ s'.dev.mc.vinLow = false) ∧
  (∀ (s : State) (t us : Nat) (vin : F32), s.dev.mc.running = true → s.dev.pow.inputLost = false → 50 ≤ us → (f32Lt vin 0x41A00000 = true ∨ f32Lt 0x42780000 vin = true) → s.dev.earlyOn = true →
    Answers (.inputLoss t vin us) s fun s' => s'.dev.pow.inputLost = true ∧ (∀ p ∈ s'.dev.pow.on, holdUpSet.contains p = true) ∧ s'.dev.cores.released = false ∧ s'.dev.mc.causes.contains 2 = true) ∧
  (∀ (s : State) (t : Nat), s.dev.pow.inputLost = true → s.dev.earlyOn = true → s.dev.partsEnded = true → s.dev.mc.resetAt = none →
    Answers (.processorOff t) s fun s' => s'.dt = 0 ∧ s'.dev.earlyOn = false ∧ s'.dev.regs = [] ∧ s'.dev.mem = [] ∧ s'.otp = s.otp ∧ s'.dev.slu.flash = s.dev.slu.flash ∧ s'.dev.sysArea = s.dev.sysArea) ∧
  (∀ (s : State) (t ms : Nat) (vin : F32), s.dev.pow.inputLost = true → f32Lt vin 0x41C00000 = false → 10 ≤ ms →
    Answers (.inputReturn t vin ms) s fun s' => s'.dev.mc.vin = vin ∧ (if s.dev.earlyOn then s'.dev.mc.resetAt = some (s.now t, false) else s'.dev.pow.inputLost = false ∧ s'.dev.mc.started = false)) ∧
  (∀ (s : State) (t mv : Nat), s.dev.pow.inputLost = true → s.dev.earlyOn = false → mv ≤ 28000 →
    Answers (.mcOff t mv) s fun s' => s'.dev.pow.on = [] ∧ s'.dev.mc.running = false ∧ s'.dev.mc.causes = [] ∧ s'.dev.mc.ring = s.dev.mc.ring ∧ s'.dev.mc.aseq = s.dev.mc.aseq ∧ s'.otp = s.otp ∧
      s'.dev.slu.flash = s.dev.slu.flash ∧ s'.dev.sysArea = s.dev.sysArea ∧ s'.dev.nor = s.dev.nor) ∧
  (∀ (s : State) (t ms : Nat) (v : F32), s.dev.mc.running = true → f32Le 0x42BE0000 v = true → (s.dev.elapsed s.dev.mc.hotAt (s.now t) ≤ ms * 1000000 → 100 + 1000 * s.dev.mc.hotSteps ≤ ms) → 100 ≤ ms →
    Answers (.overtempStep t v ms) s fun s' => s'.dev.mc.hotAt = s.now t ∧ 1 ≤ s'.dev.mc.hotSteps ∧ (s.dev.envelope ≠ 0 → s.dev.on 156 = true → ∃ p, s'.dev.pbu.pend = some p ∧ p.forced = true)) ∧
  (∀ (s : State) (t : Nat) (v : F32), s.dev.mc.running = true → f32Le 0x42D20000 v = true → Answers (.overtempStop t v) s fun s' => stopsFor s'.dev 1) ∧
  (∀ (s : State) (t ms : Nat) (v : F32), s.dev.mc.running = true → f32Lt v 0x42C80000 = true → 1000 ≤ ms → Answers (.overtempClear t v ms) s fun s' => s'.dev.mc.causes.contains 1 = false) ∧
  (∀ (s : State) (t : Nat) (v : F32), s.dev.mc.running = true → f32Le 0x42DC0000 v = true →
    Answers (.overtempShutdown t v) s fun s' => s'.dt = 0 ∧ s'.dev.pow.off = true ∧ (∀ p ∈ s'.dev.pow.on, p = 171) ∧ s'.dev.regs = [] ∧ s'.dev.mem = [] ∧ s'.otp = s.otp)

/-- O58. R70, R135 to R137, R413 to R416, R419 to R424: the steps of the boot from the MC's start to the release of the cores, the boot latch, the protection map's grants and violations, and
accesses to registers and memory. -/
def Obligations.BootAndAccesses : Prop :=
  (∀ (s : State) (t ns v1 : Nat), s.dev.mc.running = false →
    (s.dev.earlyOn = true → Answers (.mcStart t ns v1) s fun s' => s'.dt = s.now t ∧ s'.dev.mc.running = true ∧ s'.dev.mc.cMeas = s.dev.mc.cMeas) ∧
    (s.dev.earlyOn = false → s.dev.mc.started = false → 4000 < v1 → 0 < ns →
      Answers (.mcStart t ns v1) s fun s' => s'.dev.mc.running = true ∧ s'.dev.mc.started = true ∧ s'.dev.mc.cMeas = measuredNf ns v1 ∧ s'.dev.mc.cAt = s.now t ∧
        s'.dev.mc.causes.contains 3 = decide (measuredNf ns v1 < 4000000) ∧ ((s.dev.upd 3).active < 2 → (∀ k, k < 2 → s.dev.slotOk s.otp 3 k = false) → s'.dev.mc.romOnly = true))) ∧
  (∀ (s : State) (t bank module : Nat) (vin : F32), s.dev.mc.running = true → s.dev.mc.started = true → s.dev.earlyOn = false → s.dev.pow.off = false → s.dev.pow.inputLost = false → f32Le 0x41C00000 vin = true →
    f32Le vin 0x42700000 = true → 50000 ≤ bank →
    Answers (.earlyDomainRelease t vin bank module) s fun s' => s'.dt = 0 ∧ s'.frac = 0 ∧ s'.dev.pow.on = [169, 170, 171] ∧ s'.dev.mc.boot = s.dev.mc.boot + 1 ∧ s'.dev.module = module % 4 ∧ s'.dev.mc.bankMv = bank ∧
      ((s.dev.upd 0).active < 2 → (∀ k, k < 2 → s.dev.slotOk s.otp 0 k = false) → s'.dev.f (r0 .leEarly) F.leEarly.STATE = 7)) ∧
  (∀ (s : State) (t c : Nat),
    (c = 10 → s.dev.earlyOn = true → s.dev.idn.udsRead = false → Answers (.udsRead t c) s fun s' => s'.dev.bus = .bytes (fixed 48 Config.uds) ∧ s'.dev.idn.udsRead = true ∧ s'.dev.regs = s.dev.regs) ∧
    (c = 10 → s.dev.earlyOn = true → s.dev.idn.udsRead = true → Answers (.udsRead t c) s fun s' => s' = { s with dt := s.now t, dev := { s.dev with bus := .bytes (List.replicate 48 0) } }) ∧
    (c ≠ 10 → Answers (.udsRead t c) s fun s' => s' = { s with dt := s.now t, dev := { s.dev with bus := .accessFault } })) ∧
  (∀ (s : State) (t : Nat), s.dev.earlyOn = true → s.dev.pow.pllLocked = true → s.dev.mainOn = false → s.dev.mc.mE ≠ [] → s.dev.idn.udsRead = true → s.dev.pow.inputLost = false →
    Answers (.mainPowerGood t) s fun s' => s'.dev.mainOn = true ∧ (∀ p ∈ mainDomains, s'.dev.on p = true) ∧
      ((s.dev.upd 1).state ≠ 4 → s.dev.slotOk s.otp 1 (s.dev.upd 1).active = true →
        s'.dev.mc.mB = imgMeasure s'.dev.sysArea (slotBase 1 (s.dev.upd 1).active) ∧ s'.dev.idn.cdiE = [] ∧ ∀ p ∈ bootDomains, s'.dev.on p = true)) ∧
  (∀ (s : State) (t col row : Nat) (fails : List Nat), s.bootCode = true → col < 16 → row < 16 → (s.dev.repairByte col).testBit 7 = false → 16 * row + col ∈ fails → (∀ k, k < row → 16 * k + col ∉ fails) →
    Answers (.basinSelfTest t fails) s fun s' => s'.dev.repairByte col = 192 + row ∧ (∀ p, p < 136 → s'.dev.on p = true) ∧ s'.dev.mem = s.dev.mem) ∧
  (∀ (s : State) (t phys l : Nat), phys < 272 → s.dev.on 155 = true → s.dev.logicalOf phys = some l → (s.dev.repairByte (phys % 16)).testBit 7 = true →
    Answers (.basinFail t phys) s fun s' => (s'.dev.f (r1 .pbuFabAvail (l / 64)) F.pbuFabAvail.AVAIL).testBit (l % 64) = false ∧ s'.dev.mem = s.dev.mem) ∧
  (∀ (s : State) (t : Nat), s.bootCode = true → s.dev.on 157 = true →
    Answers (.nearStoreTraining t) s fun s' => s'.dev.pow.near = true ∧ (s.dev.pow.far = true → s'.dev.envelope = 1 ∧ s'.dev.profile = 1) ∧ (s.dev.pow.far = false → s'.dev.regs = s.dev.regs) ∧ s'.dev.mem = s.dev.mem) ∧
  (∀ (s : State) (t c v : Nat), hits s t c (r0 .bootLatch) .write = true →
    Answers (.bootLatchClose t c v) s fun s' => (v % 2 = 1 ∨ s.latchClosed = true → s'.latchClosed = true) ∧ (v % 2 = 0 → s' = { s with dt := s.now t, dev := { s.dev with bus := .ok } }) ∧
      (v % 2 = 1 → s.latchClosed = false → s'.ignored = 0 ∧ s'.closedAt = some (s.now t)) ∧ s'.dev.regs = s.dev.regs ∧ s'.dev.mem = s.dev.mem) ∧
  (∀ (s : State) (t : Nat), s.latchClosed = true → s.dev.mainOn = true → s.dev.mc.mS ≠ [] → s.dev.mc.mL ≠ [] → s.dev.pow.near = true → s.dev.pow.far = true → s.dev.cores.released = false → s.dev.cores.steward = false →
    Answers (.coreRelease t) s fun s' => s'.dev.cores.released = true ∧ s'.dev.cores.steward = true ∧ s'.dev.mc.heartbeatAt = s.now t ∧ s'.dev.regs = s.dev.regs ∧
      ∀ k, k < 16 → tget (s'.dev.target k).regs 0x100A = some k ∧ tget (s'.dev.target k).regs 0x1040 = some (imgEntry s.dev.sysArea (slotBase 4 (s.dev.upd 4).running))) ∧
  (∀ (s : State) (t c : Nat) (v : Word), hits s t c (r0 .pmapGrant) .write = true →
    let w := fget v F.pmapGrant.WIN
    let page := fget v F.pmapGrant.PAGE
    let cls := fget v F.pmapGrant.CLASS
    let acc := fget v F.pmapGrant.ACCESS
    let ok := page < s.dev.f (r1 .pmapWin w) F.pmapWin.PAGES ∧ acc ≠ 3 ∧ (acc = 0 ∨ (s.dev.f (r1 .pmapWin w) F.pmapWin.CLASSES).testBit cls = true)
    Answers (.pmapGrant t c v) s fun s' => s'.dev.bus = .ok ∧ (∀ g, g ≠ r0 .pmapGrant → s'.dev.rd g = s.dev.rd g) ∧ s'.dev.mem = s.dev.mem ∧
      (w < 32 → ok → tget s'.dev.grants (s.dev.f (r1 .pmapWin w) F.pmapWin.BASE + page) = (if acc = 0 then none else some (cls, acc)) ∧ s'.dev.fb (r0 .pmapGrant) F.pmapGrant.REFUSED = false) ∧
      (¬ ok → s'.dev.grants = s.dev.grants ∧ s'.dev.fb (r0 .pmapGrant) F.pmapGrant.REFUSED = true)) ∧
  (∀ (s : State) (t c : Nat), hits s t c (r0 .pmapViol) .read = true →
    Answers (.pmapViolRead t c) s fun s' => s'.dev.bus = .data (s.dev.rn (r0 .pmapViol)) ∧ s'.dev.f (r0 .pmapViol) F.pmapViol.COUNT = 0 ∧ (∀ g, g ≠ r0 .pmapViol → s'.dev.rd g = s.dev.rd g) ∧ s'.dev.mem = s.dev.mem) ∧
  (∀ (s : State) (t c a : Nat) (r : Reg) (v : Word), regAt a = some r → r.addr = a → a % r.bytes = 0 → s.beforeClose (s.now t) r = true → effectRegs.contains r.name = false →
    s.dev.reaches false (s.now t) c r.addr r.bytes .write = true →
    Answers (.registerWrite t c a r.bytes v) s fun s' => s'.dev.rn r = maskedWrite r.name.info true (s.dev.rn r) (v.toNat % 2 ^ r.name.info.width) ∧ s'.latchClosed = true ∧ s'.ignored = s.ignored ∧ s'.dev.bus = .ok ∧
      (∀ g, g ≠ r → s'.dev.rd g = s.dev.rd g) ∧ s'.dev.mem = s.dev.mem) ∧
  (∀ (s : State) (t c a : Nat) (r : Reg) (v : Word), regAt a = some r → r.addr = a → a % r.bytes = 0 → hits s t c r .write = true →
    (r.locks = true → s.latchClosed = true → s.beforeClose (s.now t) r = false →
      Answers (.registerWrite t c a r.bytes v) s fun s' => s'.ignored = min 65535 (s.ignored + 1) ∧ s'.dev.bus = .ok ∧ s'.dev.regs = s.dev.regs ∧ s'.dev.mem = s.dev.mem) ∧
    ((r.locks = false ∨ s.latchClosed = false) → effectRegs.contains r.name = false →
      Answers (.registerWrite t c a r.bytes v) s fun s' => s'.dev.rn r = maskedWrite r.name.info (!s.latchClosed) (s.dev.rn r) (v.toNat % 2 ^ r.name.info.width) ∧ s'.dev.bus = .ok ∧
        (∀ g, g ≠ r → s'.dev.rd g = s.dev.rd g) ∧ s'.dev.mem = s.dev.mem)) ∧
  (∀ (s : State) (t c a n ecc : Nat) (data : List (BitVec 8)), placeOf a n = .main → a < 2 ^ 48 →
    (s.dev.farHolds a n = true → s.dev.memOk s.latchClosed (s.now t) c a n .read = true →
      Answers (.memoryAccess t c 0 a n data ecc) s fun s' => s' = { s with dt := s.now t, dev := { s.dev with bus := .idle, pbu := { s.dev.pbu with farHeld := s.dev.pbu.farHeld ++ [⟨c, 0, a, n, data, ecc, none⟩] } } }) ∧
    (s.dev.farHolds a n = false → s.dev.memOk s.latchClosed (s.now t) c a n .read = true →
      Answers (.memoryAccess t c 0 a n data 0) s fun s' => s' = { s with dt := s.now t, dev := { s.dev with bus := .bytes (s.dev.mem.read a n) } }) ∧
    (n = data.length → s.dev.farHolds a n = false → s.dev.memOk s.latchClosed (s.now t) c a n .write = true →
      Answers (.memoryAccess t c 1 a n data ecc) s fun s' => s'.dev.bus = .ok ∧ s'.dev.mem.read a n = data ∧ (∀ x, (x < a ∨ a + n ≤ x) → s'.dev.mem.get x = s.dev.mem.get x) ∧ s'.dev.regs = s.dev.regs) ∧
    (s.dev.permits s.latchClosed c a n .read = false → Answers (.memoryAccess t c 0 a n data ecc) s fun s' => s'.dev.bus = .accessFault ∧ s'.dev.mem = s.dev.mem) ∧
    (storeTier a = 2 → s.dev.farHolds a n = false → s.dev.memOk s.latchClosed (s.now t) c a n .read = true →
      Answers (.memoryAccess t c 0 a n data 2) s fun s' => s'.dev.bus = .accessFault ∧ s'.dev.f (r0 .sluFarEccAddr) F.sluFarEccAddr.ADDR = a / 64 * 64 ∧ s'.dev.fb (r0 .sluFarEcc) F.sluFarEcc.UE_FLAG = true ∧
        s'.dev.mem = s.dev.mem)) ∧
  (∀ (s : State) (t c i o : Nat) (data : List (BitVec 8)), i < 8192 → o < 32 →
    let n := if o < 16 then 4 else 8
    let a := 0x20980000 + 32 * i + o
    regAt a = none → a % n = 0 → s.dev.reaches s.latchClosed (s.now t) c a n .read = true →
    Answers (.memoryAccess t c 0 a n data 0) s fun s' =>
      s' = { s with dt := s.now t, dev := { s.dev with bus := .data (bytesAt (s.dev.pageRecord (8192 * s.dev.f (r0 .kvWindow) F.kvWindow.SEL + i)) o n) } })

/-! ## The Canal link -/

/-- O59. R124, R139 to R141, R399 to R403, R405, R406: flits are acknowledged in order and served; requests for memory are answered; a commit between modules is prepared, voted on, decided, asked for
and done; acknowledgements, replays, retraining, timeouts and training of a port. -/
def Obligations.CanalCommands : Prop :=
  (∀ (s : State) (t srcBasin basin entry srcEntry index slot : Nat) (f : FlitIn) (last : Bool) (key : KeyIn) (data : List Byte) (b : Basin) (rest : List Nat), inOrder s f → basin < 256 →
    s.dev.basin? basin = some b → (b.entry entry).freeQ = slot :: rest →
    Answers (.data t f srcBasin basin entry srcEntry index last key data) s fun s' => received s s' t f fun d0 d1 =>
      (let at_ := s.dev.slotAddr basin (b.entry entry) slot + 256 * index
       let bytes := (data.take 256).take ((b.entry entry).size - 256 * index)
       d1.mem.read at_ bytes.length = bytes ∧ ∀ a, (a < at_ ∨ at_ + bytes.length ≤ a) → d1.mem.get a = d0.mem.get a) ∧
      (last = true → ∃ b', d1.basin? basin = some b' ∧ (b'.entry entry).readyQ = (b.entry entry).readyQ ++ [(slot, s.now t)])) ∧
  (∀ (s : State) (t basin entry consumer count v0 v1 : Nat) (f : FlitIn), inOrder s f →
    Answers (.credit t f basin entry consumer count v0 v1) s fun s' => received s s' t f fun d0 d1 =>
      d1.fab.credits = d0.fab.credits ++ (if count = 0 then [] else List.replicate (min count 16) ⟨basin, entry, 256 * (f.src + 1) + consumer⟩) ∧
      ∃ d : Dev, d1 = d.cnlPump (s.now t) f.port ∧ (d.cnlPort f.port).credits = [min 64 ((d0.cnlPort f.port).credits.getD 0 0 + v0), min 64 ((d0.cnlPort f.port).credits.getD 1 0 + v1)]) ∧
  (∀ (s : State) (t tag addr len : Nat) (f : FlitIn), inOrder s f → s.dev.canalOk s.latchClosed (s.now t) addr len .read = true →
    Answers (.memRd t f tag addr len) s fun s' => received s s' t f fun d0 d1 =>
      (s.dev.farHolds addr len = false → d1 = d0.cnlSend (s.now t) ftMemCpl f.src 1 [tag, 0] (s.dev.memBytes addr len)) ∧
      (s.dev.farHolds addr len = true → d1 = { d0 with pbu := { d0.pbu with farHeld := d0.pbu.farHeld ++ [⟨7, 0, addr, len, [], 0, some (f.src, tag)⟩] } })) ∧
  (∀ (s : State) (t tag addr : Nat) (f : FlitIn) (data : List Byte), inOrder s f → placeOf addr data.length = .main → s.dev.farHolds addr data.length = false → s.dev.canalOk s.latchClosed (s.now t) addr data.length .write = true →
    Answers (.memWr t f tag addr data) s fun s' => received s s' t f fun d0 d1 => ∃ d : Dev, d1 = d.cnlSend (s.now t) ftMemCpl f.src 1 [tag, 0] [] ∧ d = { d0 with mem := d.mem } ∧
      d.mem.read addr data.length = data ∧ ∀ a, (a < addr ∨ addr + data.length ≤ a) → d.mem.get a = s.dev.mem.get a) ∧
  (∀ (s : State) (t tag status n off cls : Nat) (f : FlitIn) (data bs : List Byte), inOrder s f → s.dev.cnl.reads = [⟨tag, f.src, n, off, bs, cls⟩] →
    Answers (.memCpl t f tag status data) s fun s' => received s s' t f fun d0 d1 =>
      let d : Dev := { d0 with cnl := { d0.cnl with reads := [] }, bus := if status ≠ 0 then .accessFault else if n = 0 then .ok else .bytes data }
      (cls ≠ 8 → d1 = d) ∧ (cls = 8 → d1 = d.answered (s.now t) 8 n)) ∧
  (∀ (s : State) (t port seq : Nat), s.dev.portUp port = true →
    Answers (.ack t port seq) s fun s' => ∃ d : Dev, s'.dev = d.cnlPump (s.now t) port ∧ (d.cnlPort port).replay = (s.dev.cnlPort port).acked seq ∧ s' = { s with dt := s.now t, dev := { s.dev with cnl := s'.dev.cnl } }) ∧
  (∀ (s : State) (t port seq : Nat), s.dev.portUp port = true → ((s.dev.cnlPort port).replay.any fun e => e.1 == seq) = true →
    Answers (.nak t port seq) s fun s' => ∃ d : Dev, s'.dev = d.cnlPump (s.now t) port ∧ (d.cnlPort port).replay = (s.dev.cnlPort port).replay.dropWhile (fun e => e.1 != seq) ∧
      (d.cnlPort port).failures = (s.dev.cnlPort port).failures + b2n (s.dev.cnlPort port).replaying ∧ (d.cnlPort port).replaying = true ∧ s' = { s with dt := s.now t, dev := { s.dev with cnl := s'.dev.cnl, regs := s'.dev.regs } }) ∧
  (∀ (s : State) (t : Nat) (f : FlitIn) (data : List Byte), inOrder s f →
    Answers (.ptp t f data) s fun s' => received s s' t f fun d0 d1 => d1.cnl.ptp = d0.cnl.ptp ++ [data] ∧
      ∃ k : Key, k.dt = s.now t ∧ k.src = s.dev.src (0x0151 + 2 * f.port) ∧ d1.recs = ⟨k, .sync, s.dev.elastic 2 (6 + f.port), [s.now t]⟩ :: d0.recs) ∧
  (∀ (s : State) (t kind subject arg : Nat) (f : FlitIn) (key : KeyIn) (h : Nat) (c : Cascade), inOrder s f → (s.dev.cnl.parts.any fun p => p.id == keyOf key) = false → kind = 1 → s.dev.partOf subject = some (h, c) →
    c.bound = true → c.run = none →
    Answers (.prepare t f key kind subject arg) s fun s' => received s s' t f fun _ d1 => ∃ p ∈ d1.cnl.parts, p.id = keyOf key ∧ p.coord = f.src ∧ p.subject = subject ∧ p.arg = arg ∧ p.vote = some (true, s.now t)) ∧
  (∀ (s : State) (t status castAt n : Nat) (f : FlitIn) (key : KeyIn) (w : Wait), inOrder s f → s.dev.waitAny (.vote (txOf (keyOf key)) f.src) = some (n, w) → tget s.dev.waits n = some w → s.dev.onTime w castAt = true →
    Answers (.vote t f key status castAt) s fun s' => received s s' t f fun d0 d1 =>
      (w.outcome = some false → d1.waitAny (.vote (txOf (keyOf key)) f.src) = none ∧ d1.cnl = d0.cnl) ∧
      (w.outcome = none → s.now t ≤ w.deadline + w.guard → ∃ d : Dev, d1 = d.tpcVote (s.now t) (keyOf key) f.src status ∧ d.cnl = d0.cnl ∧ ∃ k : Key, k.dt = w.deadline ∧ tget d.waits n = some { w with outcome := some true, key := some k })) ∧
  (∀ (s : State) (t : Nat) (f : FlitIn) (key : KeyIn) (commit : Bool) (p : TpcPart), inOrder s f → s.dev.cnl.parts = [p] → p.id = keyOf key → p.decided = false → (p.kind ≠ 3 → s.dev.partOf p.subject = none) → (p.kind = 3 → s.dev.splitReq p.subject p.arg = none) →
    Answers (.decide t f key commit) s fun s' => received s s' t f fun d0 d1 => d1.cnl.outcomes = (p.id, commit, s.now t) :: d0.cnl.outcomes ∧ d1.cnl.parts = []) ∧
  (∀ (s : State) (t at_ : Nat) (f : FlitIn) (key : KeyIn) (commit : Bool), inOrder s f → s.dev.cnl.outcomes = [(keyOf key, commit, at_)] → s.now t ≤ at_ + 1000000000 →
    Answers (.query t f key) s fun s' => received s s' t f fun d0 d1 => d1 = d0.cnlSend (s.now t) ftDecide f.src 0 (tpcBody (keyOf key) 0 0 (b2n commit) 0) []) ∧
  (∀ (s : State) (t : Nat) (f : FlitIn) (key : KeyIn) (x : TpcCoord), inOrder s f → s.dev.cnl.coords = [x] → x.id = keyOf key → x.outcome.isSome = true → x.done.contains f.src = false →
    Answers (.done t f key) s fun s' => received s s' t f fun d0 d1 => ∃ d : Dev, d1 = d.tpcFinish (s.now t) ∧ d = { d0 with cnl := { d0.cnl with coords := [{ x with done := f.src :: x.done }] } }) ∧
  (∀ (s : State) (t : Nat) (key : KeyIn) (p : TpcPart), s.dev.cnl.parts = [p] → p.id = keyOf key → p.vote.isSome = true → p.decided = false → 10000000 ≤ s.dev.elapsed p.askedAt (s.now t) →
    Answers (.decideTimeout t key) s fun s' => ∃ d1 : Dev, s'.dev = d1.settleEnds (s.now t) ∧
      (p.rounds < 3 → d1.mem = s.dev.mem ∧ d1.cnl.parts = [{ p with rounds := p.rounds + 1, askedAt := s.now t }]) ∧ (3 ≤ p.rounds → p.kind ≠ 0 → (p.kind = 3 → s.dev.splitReq p.subject p.arg = none) → d1.cnl.parts = [])) ∧
  (∀ (s : State) (t port lanes : Nat), s.dev.portUp port = true → 4 ≤ (s.dev.cnlPort port).failures → 4 ≤ lanes →
    Answers (.canalRetrain t port lanes) s fun s' => s'.dev.fb (r1 .cnlPortStat port) F.cnlPortStat.RETRAINED = true ∧ s'.dev.f (r1 .cnlPortStat port) F.cnlPortStat.LANES = (if lanes < 8 then 4 else 8) ∧
      s'.dev.portUp port = true ∧ (s'.dev.cnlPort port).failures = 0 ∧ (∀ g, g ≠ r1 .cnlPortStat port → s'.dev.rd g = s.dev.rd g) ∧ s'.dev.mem = s.dev.mem) ∧
  (∀ (s : State) (t port a : Nat), s.dev.portUp port = true → (s.dev.cnlPort port).stuckAt = some a → 10000 ≤ s.dev.elapsed a (s.now t) →
    Answers (.creditTimeout t port) s fun s' => s'.dev.fb (r1 .cnlPortStat port) F.cnlPortStat.CREDIT_TO = true ∧ 4 ≤ (s'.dev.cnlPort port).failures ∧ (s'.dev.cnlPort port).stuckAt = none ∧
      (s.dev.on 156 = true → s'.dev.eic.pend.contains (872 + port) = true) ∧ (∀ g, g ≠ r1 .cnlPortStat port → s'.dev.rd g = s.dev.rd g) ∧ s'.dev.mem = s.dev.mem) ∧
  (∀ (s : State) (t port lanes peer ring : Nat), port < 2 → s.dev.on 165 = true → s.dev.portUp port = false →
    Answers (.canalPortTraining t port lanes peer ring) s fun s' =>
      (s.dev.peerOk port peer ring = true → 4 ≤ lanes → s'.dev.portUp port = true ∧ s'.dev.f (r1 .cnlPortStat port) F.cnlPortStat.LANES = (if lanes < 8 then 4 else 8) ∧ s'.dev.cnl.ring = ring ∧
        s'.dev.cnlPort port = {}) ∧
      (s.dev.peerOk port peer ring = false → s'.dev.fb (r1 .cnlPortStat port) F.cnlPortStat.INDEX_ERR = true ∧ s'.dev.portUp port = false ∧ s'.dev.cnl = s.dev.cnl) ∧
      (∀ g, g ≠ r1 .cnlPortStat port → s'.dev.rd g = s.dev.rd g) ∧ s'.dev.mem = s.dev.mem)

/-! ## The debug port -/

/-- O60. R443, R446, R449 to R458: sessions and authorization, halting, resuming, stepping, break- and watchpoints, memory and registers through the debug port. -/
def Obligations.DebugPortCommands : Prop :=
  (∀ (s : State) (t : Nat) (p : UlzilPacket), executes s 0x01 0 p [5] 1 → p.payload = [] →
    (p.flags.testBit 0 = false → Answers (.attach t p) s fun s' =>
      (s.dev.dbg.session = true → answers s'.dev .busy [] ∧ s'.dev.dbg.level = s.dev.dbg.level) ∧
      (s.dev.dbg.session = false → s'.dev.dbg.session = true ∧ s'.dev.dbg.level = 0 ∧ s'.dev.fab.traceSeq = 0 ∧ answers s'.dev .ok (s.dev.deviceDigest ++ beBytes 4 s.dev.mc.boot))) ∧
    (p.flags.testBit 0 = true → s.dev.dbg.session = true → Answers (.attachRelease t p) s fun s' => s'.dev.dbg.session = false ∧ s'.dev.dbg.level = 0 ∧ answers s'.dev .ok [] ∧
      ∀ k, (s'.dev.target k).halted = false ∧ (s'.dev.target k).bps = [])) ∧
  (∀ (s : State) (t : Nat) (p : UlzilPacket), executes s 0x02 0 p [5] 0 → p.payload.length = 4 → bytesAt p.payload 1 3 = 0 → (bytesAt p.payload 0 1 = 1 ∨ bytesAt p.payload 0 1 = 2) →
    Answers (.authChallenge t p) s fun s' =>
      (s.dev.dbg.session = true → s.dev.dbg.refused < 8 → ∃ nonce, let c := s.dev.challengeBlock (bytesAt p.payload 0 1) (s.now t + 10000000000) nonce
        answers s'.dev .ok c ∧ s'.dev.dbg.challenge = some (c, bytesAt p.payload 0 1, s.now t + 10000000000)) ∧
      ((s.dev.dbg.session = false ∨ 8 ≤ s.dev.dbg.refused) → answers s'.dev .denied [] ∧ s'.dev.dbg.challenge = s.dev.dbg.challenge)) ∧
  (∀ (s : State) (t level expiry : Nat) (p : UlzilPacket) (c : List Byte), executes s 0x03 0 p [5] 0 → p.payload.length = 5364 → bytesAt p.payload 1 3 = 0 → bytesAt p.payload 5361 3 = 0 →
    s.dev.dbg.session = true → s.dev.dbg.challenge = some (c, level, expiry) →
    Answers (.authResponse t p) s fun s' => s'.dev.dbg.challenge = none ∧
      (s.now t ≤ expiry → authorizes s.otp c p.payload = true → answers s'.dev .ok [] ∧ s'.dev.dbg.level = level ∧ s'.dev.dbg.refused = s.dev.dbg.refused) ∧
      ((expiry < s.now t ∨ authorizes s.otp c p.payload = false) → answers s'.dev .denied [] ∧ s'.dev.dbg.level = s.dev.dbg.level ∧ s'.dev.dbg.refused = s.dev.dbg.refused + 1)) ∧
  (∀ (s : State) (t : Nat) (p : UlzilPacket), executes s 0x04 2 p [0, 1, 2, 3] 0 → p.payload = [] →
    Answers (.halt t p) s fun s' =>
      (s.dev.haltRefusal (targetOf p) = none → (s'.dev.target (targetOf p)).halted = true ∧ answers s'.dev .ok []) ∧
      (∀ st, s.dev.haltRefusal (targetOf p) = some st → s'.dev.cores = s.dev.cores ∧ answers s'.dev st []) ∧
      (∀ k, k ≠ targetOf p → s'.dev.target k = s.dev.target k) ∧ s' = { s with dt := s.now t, dev := { s.dev with cores := s'.dev.cores, dbg := s'.dev.dbg } }) ∧
  (∀ (s : State) (t : Nat) (p : UlzilPacket), executes s 0x05 2 p [0, 1, 2, 3] 0 → p.payload = [] → (s.dev.target (targetOf p)).halted = true →
    Answers (.resume t p) s fun s' => (s'.dev.target (targetOf p)).halted = false ∧ (s'.dev.target (targetOf p)).bps = (s.dev.target (targetOf p)).bps ∧ answers s'.dev .ok [] ∧
      ∀ k, k ≠ targetOf p → s'.dev.target k = s.dev.target k) ∧
  (∀ (s : State) (t : Nat) (p : UlzilPacket), executes s 0x06 2 p [0, 1, 2] 0 → p.payload = [] →
    Answers (.step t p) s fun s' =>
      ((s.dev.target (targetOf p)).halted = false → s'.dev.cores = s.dev.cores ∧ answers s'.dev .busy []) ∧
      ((s.dev.target (targetOf p)).halted = true → p.type < 2 → (s'.dev.target (targetOf p)).halted = true ∧ answers s'.dev .ok []) ∧
      ((s.dev.target (targetOf p)).halted = true → p.type = 2 → (s'.dev.target (targetOf p)).stepping = true ∧ s'.dev.dbg.work = some (targetOf p, s.now t) ∧ s'.dev.dbg.resp = s.dev.dbg.resp) ∧
      ∀ k, k ≠ targetOf p → s'.dev.target k = s.dev.target k) ∧
  (∀ (s : State) (t : Nat) (p : UlzilPacket), executes s 0x07 2 p [0, 1, 3] 0 → p.payload.length = 8 → bytesAt p.payload 2 2 = 0 →
    let slot := bytesAt p.payload 0 1
    let kind := bytesAt p.payload 1 1
    let size := beNat ((p.payload.drop 4).take 4)
    Answers (.bpSet t p) s fun s' =>
      (bpOk slot kind size p.addr = true → tget (s'.dev.target (targetOf p)).bps slot = some ⟨kind, p.addr, size⟩ ∧ answers s'.dev .ok []) ∧
      (bpOk slot kind size p.addr = false → s'.dev.cores = s.dev.cores ∧ answers s'.dev .badConfig [])) ∧
  (∀ (s : State) (t : Nat) (p : UlzilPacket), executes s 0x08 2 p [0, 1, 3] 0 → p.payload.length = 4 → bytesAt p.payload 1 3 = 0 → bytesAt p.payload 0 1 < 12 →
    Answers (.bpClear t p) s fun s' => tget (s'.dev.target (targetOf p)).bps (bytesAt p.payload 0 1) = none ∧ answers s'.dev .ok [] ∧
      ∀ j, j ≠ bytesAt p.payload 0 1 → tget (s'.dev.target (targetOf p)).bps j = tget (s.dev.target (targetOf p)).bps j) ∧
  (∀ (s : State) (t n : Nat) (p : UlzilPacket), executes s 0x09 1 p [0, 1, 2, 3, 4] 0 → p.type < 4 → p.payload.length = 4 → n = beNat p.payload → 1 ≤ n → n ≤ 4096 → placeOf p.addr n = .main →
    s.dev.memOk s.latchClosed (s.now t) 8 p.addr n .read = true →
    Answers (.memRead t p) s fun s' => s'.dev.mem = s.dev.mem ∧ s'.dev.regs = s.dev.regs ∧ (s.dev.farHolds p.addr n = false → answers s'.dev .ok (s.dev.mem.read p.addr n)) ∧
      (s.dev.farHolds p.addr n = true → s'.dev.dbg.work = some (27, s.now t) ∧ s'.dev.dbg.resp = s.dev.dbg.resp)) ∧
  (∀ (s : State) (t : Nat) (p : UlzilPacket), executes s 0x0A 2 p [0, 1, 2, 3] 0 → 1 ≤ p.payload.length → p.payload.length ≤ 4096 → placeOf p.addr p.payload.length = .main →
    s.dev.farHolds p.addr p.payload.length = false → s.dev.memOk s.latchClosed (s.now t) 8 p.addr p.payload.length .write = true →
    Answers (.memWrite t p) s fun s' => answers s'.dev .ok [] ∧ s'.dev.mem.read p.addr p.payload.length = p.payload ∧
      (∀ a, (a < p.addr ∨ p.addr + p.payload.length ≤ a) → s'.dev.mem.get a = s.dev.mem.get a) ∧ s'.dev.regs = s.dev.regs) ∧
  (∀ (s : State) (t w : Nat) (p : UlzilPacket), executes s 0x0B 1 p [0, 1, 2, 3] 0 → p.payload = [] → dbgWidth (targetOf p) p.addr = some w →
    Answers (.regRead t p) s fun s' =>
      ((s.dev.target (targetOf p)).halted = false → answers s'.dev .busy []) ∧
      ((s.dev.target (targetOf p)).halted = true → p.type ≠ 2 → p.addr = 0x1000 → answers s'.dev .ok (beBytes w 0)) ∧
      (∀ v, (s.dev.target (targetOf p)).halted = true → p.type ≠ 2 → p.addr ≠ 0x1000 → p.addr ≠ 0xC01 → p.addr ≠ 0x14D → tget (s.dev.target (targetOf p)).regs p.addr = some v → answers s'.dev .ok (beBytes w v)) ∧
      (∀ xs, (s.dev.target (targetOf p)).halted = true → p.type = 2 → s.dev.lawStates p.index (p.addr - 0x2000) = some xs →
        answers s'.dev .ok ((List.range 16).flatMap fun i => beBytes 4 (xs.getD i 0)))) ∧
  (∀ (s : State) (t w : Nat) (p : UlzilPacket), executes s 0x0C 2 p [0, 1, 2, 3] 0 → dbgWidth (targetOf p) p.addr = some w → p.payload.length = w →
    Answers (.regWrite t p) s fun s' =>
      ((s.dev.target (targetOf p)).halted = false → s'.dev.cores = s.dev.cores ∧ s'.dev.le = s.dev.le ∧ answers s'.dev .busy []) ∧
      ((s.dev.target (targetOf p)).halted = true → p.type ≠ 2 → p.addr = 0x1000 → s'.dev.cores = s.dev.cores ∧ answers s'.dev .ok []) ∧
      ((s.dev.target (targetOf p)).halted = true → p.type ≠ 2 → p.addr ≠ 0x1000 → p.addr ≠ 0xC01 → p.addr ≠ 0x14D →
        tget (s'.dev.target (targetOf p)).regs p.addr = some (beNat p.payload) ∧ answers s'.dev .ok [])) ∧
  (∀ (s : State) (t : Nat) (p : UlzilPacket), executes s 0x0D 0 p [5] 0 → p.payload = [] →
    Answers (.status t p) s fun s' => answers s'.dev .ok ((List.range 5).map (fun k => BitVec.ofNat 8 (s.dev.levelOf s.latchClosed k)) ++ beBytes 1 (b2n s.latchClosed) ++ leBytes 2 0 ++
        beBytes 4 ((List.range 27).map fun k => if (s.dev.target k).halted then 2 ^ k else 0).sum ++ leBytes 4 0) ∧ s' = { s with dt := s.now t, dev := { s.dev with dbg := s'.dev.dbg } }) ∧
  (∀ (s : State) (t k slot : Nat) (b : Bp), (k < 18 ∨ k = 26) → tget (s.dev.target k).bps slot = some b →
    (slot < 8 → ((s.dev.target k).halted = false ∨ (s.dev.target k).haltAt = some (s.now t)) → Answers (.breakpointHit t k slot) s fun s' => (s'.dev.target k).halted = true ∧ (s'.dev.target k).hitBp = true ∧ tget (s'.dev.target k).regs 0x1040 = some b.addr ∧
      s' = { s with dt := s.now t, dev := { s.dev with cores := s'.dev.cores } }) ∧
    (∀ a n, 8 ≤ slot → (s.dev.target k).halted = false → a < b.addr + b.size → b.addr < a + n → Answers (.watchpointHit t k slot b.kind a n) s fun s' => (s'.dev.target k).halted = true ∧ (s'.dev.target k).hitBp = true ∧
      s' = { s with dt := s.now t, dev := { s.dev with cores := s'.dev.cores } })) ∧
  (∀ (s : State) (t cycles k at_ : Nat), s.dev.dbg.work = some (k, at_) → 65536 ≤ cycles →
    Answers (.ulzilBusyTimeout t cycles) s fun s' => answers s'.dev .busy [] ∧ s'.dev.dbg.work = none ∧ (s'.dev.target k).stepping = false) ∧
  (∀ (s : State) (t : Nat), s.dev.dbg.session = true → 10000000000 ≤ s.dev.elapsed s.dev.dbg.lastAt (s.now t) →
    Answers (.sessionTimeout t) s fun s' => s'.dev.dbg.session = false ∧ s'.dev.dbg.level = 0 ∧ ∀ k, (s'.dev.target k).halted = false ∧ (s'.dev.target k).bps = []) ∧
  (∀ (s : State) (t ns : Nat), s.dev.on 167 = true → 1000 ≤ ns →
    Answers (.udrst t ns) s fun s' => s'.dev.dbg = { vref := s.dev.dbg.vref, refused := s.dev.dbg.refused } ∧ (s.dev.dbg.session = true → ∀ k, (s'.dev.target k).halted = false)) ∧
  (∀ (s : State) (t : Nat) (present : Bool), Answers (.probeVrefChange t present) s fun s' => s' = { s with dt := s.now t, dev := { s.dev with dbg := { s.dev.dbg with vref := present } } })
end

