-- ==== Sys2Proof/Laws/Mem.lean ====
section
/-! SUPPORT. The laws of byte memories: reads after writes, and that every operation keeps the canonical form. -/

namespace Sys2Proof.Machine

theorem Memory.wfFrom_mono {lo lo' : Nat} {m : Memory} (h : lo' ≤ lo) (hm : Memory.wfFrom lo m = true) :
    Memory.wfFrom lo' m = true := by
  cases m with
  | nil => rfl
  | cons c rest =>
    simp only [Memory.wfFrom, Bool.and_eq_true, decide_eq_true_eq] at hm ⊢
    exact ⟨⟨le_trans h hm.1.1, hm.1.2⟩, hm.2⟩

theorem Memory.wfFrom_filter {lo : Nat} {m : Memory} (p : Host.Cell → Bool) (hm : Memory.wfFrom lo m = true) :
    Memory.wfFrom lo (m.filter p) = true := by
  induction m generalizing lo with
  | nil => rfl
  | cons c rest ih =>
    simp only [Memory.wfFrom, Bool.and_eq_true, decide_eq_true_eq] at hm
    by_cases hp : p c = true
    · rw [List.filter_cons_of_pos hp]
      simp only [Memory.wfFrom, Bool.and_eq_true, decide_eq_true_eq]
      exact ⟨hm.1, ih hm.2⟩
    · rw [List.filter_cons_of_neg hp]
      exact Memory.wfFrom_mono (by omega) (ih hm.2)

theorem Memory.wfFrom_append {lo mid : Nat} {m m' : Memory} (hm : Memory.wfFrom lo m = true)
    (hb : ∀ c ∈ m, c.1 < mid) (h' : Memory.wfFrom mid m' = true) (hl : lo ≤ mid) :
    Memory.wfFrom lo (m ++ m') = true := by
  induction m generalizing lo with
  | nil => exact Memory.wfFrom_mono hl h'
  | cons c rest ih =>
    simp only [Memory.wfFrom, Bool.and_eq_true, decide_eq_true_eq] at hm
    simp only [List.cons_append, Memory.wfFrom, Bool.and_eq_true, decide_eq_true_eq]
    have hc := hb c (by simp)
    exact ⟨hm.1, ih hm.2 (fun x hx => hb x (by simp [hx])) (by omega)⟩

theorem Memory.wfFrom_shift {lo a : Nat} {m : Memory} (hm : Memory.wfFrom lo m = true) :
    Memory.wfFrom (lo + a) (m.map fun c => (c.1 + a, c.2)) = true := by
  induction m generalizing lo with
  | nil => rfl
  | cons c rest ih =>
    simp only [Memory.wfFrom, Bool.and_eq_true, decide_eq_true_eq] at hm
    simp only [List.map_cons, Memory.wfFrom, Bool.and_eq_true, decide_eq_true_eq]
    have := ih hm.2
    refine ⟨⟨by omega, hm.1.2⟩, ?_⟩
    have e : c.1 + a + 1 = c.1 + 1 + a := by omega
    rw [e]; exact this

theorem Memory.wfFrom_ge {lo a : Nat} {m : Memory} (hm : Memory.wfFrom lo m = true) (h : ∀ c ∈ m, a ≤ c.1) :
    Memory.wfFrom a m = true := by
  cases m with
  | nil => rfl
  | cons c rest =>
    simp only [Memory.wfFrom, Bool.and_eq_true, decide_eq_true_eq] at hm ⊢
    exact ⟨⟨h c (by simp), hm.1.2⟩, hm.2⟩

/-- Replacing a stretch keeps the canonical form. -/
theorem Memory.put_wf {m rel : Memory} (a n : Nat) (hm : m.wf = true) (hr : rel.wf = true) :
    (m.put a n rel).wf = true := by
  unfold Memory.put Memory.wf at *
  have h3 : Memory.wfFrom (a + n) (m.filter fun c => decide (a + n ≤ c.1)) = true :=
    Memory.wfFrom_ge (Memory.wfFrom_filter _ hm) (by intro c hc; simpa using (List.mem_filter.mp hc).2)
  have h2 := Memory.wfFrom_shift (a := a)
    (Memory.wfFrom_filter (fun c => decide (c.1 < n)) hr)
  rw [Nat.zero_add] at h2
  rw [List.append_assoc]
  refine Memory.wfFrom_append (mid := a) (Memory.wfFrom_filter _ hm)
    (by intro c hc; simpa using (List.mem_filter.mp hc).2) ?_ (Nat.zero_le _)
  refine Memory.wfFrom_append (mid := a + n) h2 ?_ h3 (by omega)
  intro c hc
  obtain ⟨x, hx, rfl⟩ := List.mem_map.mp hc
  have := (List.mem_filter.mp hx).2
  simp only [decide_eq_true_eq] at this
  simp only; omega

theorem Memory.relOf_wfFrom (bs : List Byte) (i : Nat) : Memory.wfFrom i (Memory.relOf i bs) = true := by
  induction bs generalizing i with
  | nil => rfl
  | cons b bs ih =>
    unfold Memory.relOf
    split
    · exact Memory.wfFrom_mono (by omega) (ih (i + 1))
    · rename_i h
      simp only [Memory.wfFrom, Bool.and_eq_true, decide_eq_true_eq, bne_iff_ne, ne_eq]
      exact ⟨⟨le_refl _, h⟩, ih (i + 1)⟩

/-- Writing bytes keeps the canonical form. -/
theorem Memory.write_wf {m : Memory} (a : Nat) (bs : List Byte) (hm : m.wf = true) : (m.write a bs).wf = true :=
  Memory.put_wf a _ hm (Memory.relOf_wfFrom bs 0)

/-- Clearing a stretch keeps the canonical form. -/
theorem Memory.clear_wf {m : Memory} (a n : Nat) (hm : m.wf = true) : (m.clear a n).wf = true :=
  Memory.put_wf a n hm rfl

theorem Memory.slice_wf {m : Memory} (a n : Nat) (hm : m.wf = true) : (m.slice a n).wf = true := by
  unfold Memory.slice Memory.wf at *
  have h := Memory.wfFrom_filter (fun c => decide (a ≤ c.1) && decide (c.1 < a + n)) hm
  have hge : ∀ c ∈ m.filter (fun c => decide (a ≤ c.1) && decide (c.1 < a + n)), a ≤ c.1 := by
    intro c hc
    have := (List.mem_filter.mp hc).2
    simp only [Bool.and_eq_true, decide_eq_true_eq] at this
    exact this.1
  generalize m.filter (fun c => decide (a ≤ c.1) && decide (c.1 < a + n)) = l at h hge
  have h' := Memory.wfFrom_ge h hge
  clear h
  have key : ∀ (l : Memory) (lo : Nat), (∀ c ∈ l, a ≤ c.1) → Memory.wfFrom (lo + a) l = true →
      Memory.wfFrom lo (l.map fun c => (c.1 - a, c.2)) = true := by
    intro l
    induction l with
    | nil => intros; rfl
    | cons c rest ih =>
      intro lo hge hw
      simp only [Memory.wfFrom, Bool.and_eq_true, decide_eq_true_eq] at hw
      simp only [List.map_cons, Memory.wfFrom, Bool.and_eq_true, decide_eq_true_eq]
      have hc := hge c (by simp)
      refine ⟨⟨by omega, hw.1.2⟩, ih _ (fun x hx => hge x (by simp [hx])) ?_⟩
      have e : c.1 - a + 1 + a = c.1 + 1 := by omega
      rw [e]; exact hw.2
  exact key l 0 hge (by simpa using h')

/-- Copying a stretch keeps the canonical form. -/
theorem Memory.copy_wf {dst src : Memory} (d n a : Nat) (hd : dst.wf = true) (hs : src.wf = true) :
    (dst.copy d n src a).wf = true :=
  Memory.put_wf d n hd (Memory.slice_wf a n hs)

theorem Memory.get_append_of_not {m m' : Memory} {a : Nat} (h : ∀ c ∈ m, c.1 ≠ a) :
    Memory.get (m ++ m') a = Memory.get m' a := by
  induction m with
  | nil => rfl
  | cons c rest ih =>
    have hc := h c (by simp)
    simp only [List.cons_append, Memory.get, hc, if_false]
    exact ih fun x hx => h x (by simp [hx])

theorem Memory.get_append_left {m m' : Memory} {a : Nat} (h : ∀ c ∈ m', c.1 ≠ a) :
    Memory.get (m ++ m') a = Memory.get m a := by
  induction m with
  | nil =>
    induction m' with
    | nil => rfl
    | cons c rest ih =>
      have hc := h c (by simp)
      simp only [List.nil_append, Memory.get, hc, if_false] at ih ⊢
      exact ih fun x hx => h x (by simp [hx])
  | cons c rest ih =>
    simp only [List.cons_append, Memory.get]
    split
    · rfl
    · exact ih

theorem Memory.get_filter {m : Memory} {a : Nat} (p : Host.Cell → Bool) (hp : ∀ c ∈ m, c.1 = a → p c = true) :
    Memory.get (m.filter p) a = Memory.get m a := by
  induction m with
  | nil => rfl
  | cons c rest ih =>
    have ih' := ih fun x hx => hp x (by simp [hx])
    by_cases h : p c = true
    · rw [List.filter_cons_of_pos h]
      simp only [Memory.get]
      split
      · rfl
      · exact ih'
    · rw [List.filter_cons_of_neg h]
      have : c.1 ≠ a := fun e => h (hp c (by simp) e)
      simp only [Memory.get, this, if_false]
      exact ih'

/-- A byte outside the replaced stretch reads as before. -/
theorem Memory.get_put_outside {m rel : Memory} {a n x : Nat} (h : x < a ∨ a + n ≤ x) :
    (m.put a n rel).get x = m.get x := by
  have mid : ∀ c ∈ (rel.filter fun c => decide (c.1 < n)).map (fun c : Host.Cell => (c.1 + a, c.2)), c.1 ≠ x := by
    intro c hc
    obtain ⟨y, hy, rfl⟩ := List.mem_map.mp hc
    have := (List.mem_filter.mp hy).2
    simp only [decide_eq_true_eq] at this
    simp only; omega
  unfold Memory.put
  rcases h with h | h
  · rw [List.append_assoc, Memory.get_append_left, Memory.get_filter]
    · intro c _ e; simp only [decide_eq_true_eq]; omega
    · intro c hc
      rcases List.mem_append.mp hc with hc | hc
      · exact mid c hc
      · have := (List.mem_filter.mp hc).2
        simp only [decide_eq_true_eq] at this
        omega
  · rw [Memory.get_append_of_not, Memory.get_filter]
    · intro c _ e; simp only [decide_eq_true_eq]; omega
    · intro c hc
      rcases List.mem_append.mp hc with hc | hc
      · have := (List.mem_filter.mp hc).2
        simp only [decide_eq_true_eq] at this
        omega
      · exact mid c hc

/-- A byte outside a written stretch reads as before. -/
theorem Memory.get_write_outside {m : Memory} {a x : Nat} {bs : List Byte} (h : x < a ∨ a + bs.length ≤ x) :
    (m.write a bs).get x = m.get x := Memory.get_put_outside h

theorem Memory.get_shift {m : Memory} {a x : Nat} : Memory.get (m.map fun c : Host.Cell => (c.1 + a, c.2)) (a + x) = Memory.get m x := by
  induction m with
  | nil => rfl
  | cons c rest ih =>
    simp only [List.map_cons, Memory.get]
    by_cases h : c.1 = x
    · rw [if_pos h, if_pos (by omega)]
    · rw [if_neg h, if_neg (by omega)]; exact ih

/-- A byte inside the replaced stretch reads as the replacement says. -/
theorem Memory.get_put_inside {m rel : Memory} {a n i : Nat} (h : i < n) : (m.put a n rel).get (a + i) = Memory.get rel i := by
  unfold Memory.put
  rw [Memory.get_append_left, Memory.get_append_of_not, Memory.get_shift, Memory.get_filter]
  · intro c _ e; simp only [decide_eq_true_eq]; omega
  · intro c hc
    have := (List.mem_filter.mp hc).2
    simp only [decide_eq_true_eq] at this
    omega
  · intro c hc
    have := (List.mem_filter.mp hc).2
    simp only [decide_eq_true_eq] at this
    omega

theorem Memory.get_relOf (bs : List Byte) (j i : Nat) : Memory.get (Memory.relOf j bs) (j + i) = bs.getD i 0 := by
  have low (bs : List Byte) (j k : Nat) (h : k < j) : Memory.get (Memory.relOf j bs) k = 0 := by
    induction bs generalizing j with
    | nil => rfl
    | cons b bs ih =>
      simp only [Memory.relOf]
      split
      · exact ih (j + 1) (by omega)
      · simp only [Memory.get, if_neg (show ¬ j = k by omega)]; exact ih (j + 1) (by omega)
  induction bs generalizing j i with
  | nil => rfl
  | cons b bs ih =>
    simp only [Memory.relOf]
    cases i with
    | zero =>
      split
      · next h => rw [low bs (j + 1) (j + 0) (by omega)]; simp [h]
      · simp [Memory.get]
    | succ i =>
      have e : j + (i + 1) = j + 1 + i := by omega
      split
      · rw [e, ih]; simp
      · simp only [Memory.get, if_neg (show ¬ j = j + (i + 1) by omega)]; rw [e, ih]; simp

/-- A written byte reads as written. -/
theorem Memory.get_write_inside {m : Memory} {a i : Nat} {bs : List Byte} (h : i < bs.length) : (m.write a bs).get (a + i) = bs.getD i 0 := by
  unfold Memory.write
  rw [Memory.get_put_inside h]
  have := Memory.get_relOf bs 0 i
  rwa [Nat.zero_add] at this

/-- A read returns what was written at the same place. -/
theorem Memory.read_write {m : Memory} {a : Nat} {bs : List Byte} : (m.write a bs).read a bs.length = bs := by
  apply List.ext_getElem
  · simp [Memory.read]
  · intro i h1 h2
    simp only [Memory.read, List.getElem_map, List.getElem_range]
    rw [Memory.get_write_inside h2]
    simp [h2]

@[simp] theorem Memory.read_length {m : Memory} {a n : Nat} : (m.read a n).length = n := by simp [Memory.read]

/-- A stretch that a write does not touch reads as before. -/
theorem Memory.read_write_outside {m : Memory} {a x n : Nat} {bs : List Byte} (h : x + n ≤ a ∨ a + bs.length ≤ x) : (m.write a bs).read x n = m.read x n := by
  unfold Memory.read
  apply List.map_congr_left
  intro i hi
  have := List.mem_range.mp hi
  exact Memory.get_write_outside (by omega)

/-- A cleared byte reads 0. -/
theorem Memory.get_clear_inside {m : Memory} {a n i : Nat} (h : i < n) : (m.clear a n).get (a + i) = 0 := by
  unfold Memory.clear
  rw [Memory.get_put_inside h]; rfl

end Sys2Proof.Machine
end

