-- ==== Sys2Proof/Laws/PerInstr.lean ====
section
/-! SUPPORT. A law of each command as syntax: a well-formed command's instant fits the counter of device time (R11, log entry 1). -/

namespace Sys2Proof.Laws.TimeFits

/-- A well-formed command acts at an instant that device time can show. -/
def Statement (i : Instr) : Prop := wellFormed i = true → commandTime i ≤ dtMax

theorem of_wellFormed (i : Instr) : Statement i := by
  intro h
  simp only [wellFormed, Bool.and_eq_true, decide_eq_true_eq] at h
  exact h.1

theorem servoUpdate (t : DT) (c : Nat) (off : Word) : Statement (.servoUpdate t c off) := of_wellFormed _
theorem holdover (t : DT) : Statement (.holdover t) := of_wellFormed _
theorem pllLock (t : DT) : Statement (.pllLock t) := of_wellFormed _
theorem frameReceive (t : DT) (p : Nat) (stamp : Nat) (fault : Nat) (data : List Nat) : Statement (.frameReceive t p stamp fault data) := of_wellFormed _
theorem frameTransmit (t : DT) (p : Nat) (q : Nat) (insert : Bool) (stamped : Bool) (data : List Nat) : Statement (.frameTransmit t p q insert stamped data) := of_wellFormed _
theorem gateEntryEnd (t : DT) (p : Nat) : Statement (.gateEntryEnd t p) := of_wellFormed _
theorem preemptionVerify (t : DT) (p : Nat) : Statement (.preemptionVerify t p) := of_wellFormed _
theorem waitExpire (t : DT) (id : Nat) : Statement (.waitExpire t id) := of_wellFormed _
theorem cueFire (t : DT) (n : Nat) : Statement (.cueFire t n) := of_wellFormed _
theorem cuePulseEnd (t : DT) (n : Nat) : Statement (.cuePulseEnd t n) := of_wellFormed _
theorem cueArm (t : DT) (c : Nat) (n : Nat) (v : Nat) : Statement (.cueArm t c n v) := of_wellFormed _
theorem cueTimeWrite (t : DT) (c : Nat) (n : Nat) (v : Word) : Statement (.cueTimeWrite t c n v) := of_wellFormed _
theorem captureEdge (t : DT) (src : Nat) (rising : Bool) (stamp : Nat) (stable : Nat) : Statement (.captureEdge t src rising stamp stable) := of_wellFormed _
theorem captureDataRead (t : DT) (c : Nat) (n : Nat) : Statement (.captureDataRead t c n) := of_wellFormed _
theorem queueEnterElastic (t : DT) (block : Nat) (q : Nat) : Statement (.queueEnterElastic t block q) := of_wellFormed _
theorem queueReturnFixed (t : DT) (block : Nat) (q : Nat) : Statement (.queueReturnFixed t block q) := of_wellFormed _
theorem crossingStale (t : DT) (block : Nat) (n : Nat) : Statement (.crossingStale t block n) := of_wellFormed _
theorem basinPairReady (t : DT) (pd : Nat) : Statement (.basinPairReady t pd) := of_wellFormed _
theorem periodStart (t : DT) (avg : F32) : Statement (.periodStart t avg) := of_wellFormed _
theorem pbuMissedPeriod (t : DT) (avg : F32) : Statement (.pbuMissedPeriod t avg) := of_wellFormed _
theorem farStoreTraining (t : DT) (vals : List Nat) : Statement (.farStoreTraining t vals) := of_wellFormed _
theorem retrainWindowTimeout (t : DT) : Statement (.retrainWindowTimeout t) := of_wellFormed _
theorem forcedStep (t : DT) : Statement (.forcedStep t) := of_wellFormed _
theorem powerLimitBroken (t : DT) (avg : F32) (overMs : Nat) : Statement (.powerLimitBroken t avg overMs) := of_wellFormed _
theorem stageDispatch (t : DT) (l : Nat) : Statement (.stageDispatch t l) := of_wellFormed _
theorem load (t : DT) (l : Nat) (st : Nat) (row0 : WinAt) : Statement (.load t l st row0) := of_wellFormed _
theorem matrix (t : DT) (l : Nat) (st : Nat) (op : AttnOp) : Statement (.matrix t l st op) := of_wellFormed _
theorem vector (t : DT) (l : Nat) (st : Nat) : Statement (.vector t l st) := of_wellFormed _
theorem reduce (t : DT) (l : Nat) (st : Nat) (last : Bool) : Statement (.reduce t l st last) := of_wellFormed _
theorem normalise (t : DT) (l : Nat) (st : Nat) (op : AttnOp) : Statement (.normalise t l st op) := of_wellFormed _
theorem convert (t : DT) (l : Nat) (st : Nat) : Statement (.convert t l st) := of_wellFormed _
theorem store (t : DT) (l : Nat) (st : Nat) : Statement (.store t l st) := of_wellFormed _
theorem forward (t : DT) (l : Nat) (st : Nat) (n : Nat) : Statement (.forward t l st n) := of_wellFormed _
theorem tileEnd (t : DT) (l : Nat) (st : Nat) (cycles : Nat) (stalls : Nat) : Statement (.tileEnd t l st cycles stalls) := of_wellFormed _
theorem contextSwitchDone (t : DT) (region : Nat) : Statement (.contextSwitchDone t region) := of_wellFormed _
theorem flitDeliver (t : DT) (src : Nat) (dst : Nat) (entry : Nat) : Statement (.flitDeliver t src dst entry) := of_wellFormed _
theorem creditReturn (t : DT) (l : Nat) (e : Nat) : Statement (.creditReturn t l e) := of_wellFormed _
theorem basinStoreUncorrectable (t : DT) (l : Nat) (a : Nat) : Statement (.basinStoreUncorrectable t l a) := of_wellFormed _
theorem deadlockWatchdog (t : DT) (c : Nat) : Statement (.deadlockWatchdog t c) := of_wellFormed _
theorem holdLimitExpire (t : DT) : Statement (.holdLimitExpire t) := of_wellFormed _
theorem calibrationRunDone (t : DT) : Statement (.calibrationRunDone t) := of_wellFormed _
theorem acquire (t : DT) (via : CellVia) (cell : Nat) (arg : Nat) (rsvd : Nat) : Statement (.acquire t via cell arg rsvd) := of_wellFormed _
theorem tryAcquire (t : DT) (via : CellVia) (cell : Nat) (arg : Nat) (rsvd : Nat) : Statement (.tryAcquire t via cell arg rsvd) := of_wellFormed _
theorem cellRelease (t : DT) (via : CellVia) (cell : Nat) (arg : Nat) (rsvd : Nat) : Statement (.cellRelease t via cell arg rsvd) := of_wellFormed _
theorem arrive (t : DT) (via : CellVia) (cell : Nat) (arg : Nat) (rsvd : Nat) : Statement (.arrive t via cell arg rsvd) := of_wellFormed _
theorem arriveWait (t : DT) (via : CellVia) (cell : Nat) (arg : Nat) (rsvd : Nat) : Statement (.arriveWait t via cell arg rsvd) := of_wellFormed _
theorem flagSet (t : DT) (via : CellVia) (cell : Nat) (arg : Nat) (rsvd : Nat) : Statement (.flagSet t via cell arg rsvd) := of_wellFormed _
theorem flagClear (t : DT) (via : CellVia) (cell : Nat) (arg : Nat) (rsvd : Nat) : Statement (.flagClear t via cell arg rsvd) := of_wellFormed _
theorem waitAny (t : DT) (via : CellVia) (cell : Nat) (arg : Nat) (rsvd : Nat) : Statement (.waitAny t via cell arg rsvd) := of_wellFormed _
theorem waitAll (t : DT) (via : CellVia) (cell : Nat) (arg : Nat) (rsvd : Nat) : Statement (.waitAll t via cell arg rsvd) := of_wellFormed _
theorem read (t : DT) (via : CellVia) (cell : Nat) (arg : Nat) (rsvd : Nat) : Statement (.read t via cell arg rsvd) := of_wellFormed _
theorem rdvResultRead (t : DT) (c : Nat) (n : Nat) : Statement (.rdvResultRead t c n) := of_wellFormed _
theorem moveCommit (t : DT) (r : Nat) : Statement (.moveCommit t r) := of_wellFormed _
theorem descriptorStart (t : DT) (eng : Nat) : Statement (.descriptorStart t eng) := of_wellFormed _
theorem tileLand (t : DT) (eng : Nat) (x : Landing) : Statement (.tileLand t eng x) := of_wellFormed _
theorem requestComplete (t : DT) (r : Nat) : Statement (.requestComplete t r) := of_wellFormed _
theorem partFail (t : DT) (eng : Nat) (why : PartFailure) : Statement (.partFail t eng why) := of_wellFormed _
theorem partTimeout (t : DT) (eng : Nat) (lastByte : Nat) : Statement (.partTimeout t eng lastByte) := of_wellFormed _
theorem patrolScrub (t : DT) (n : Nat) (ce : Nat) (ue : Option Nat) : Statement (.patrolScrub t n ce ue) := of_wellFormed _
theorem stepBoundary (t : DT) : Statement (.stepBoundary t) := of_wellFormed _
theorem lineReceive (t : DT) (n : Nat) (dtype : Nat) (vc : Nat) (stamp : Nat) (fault : Nat) (px : List Nat) : Statement (.lineReceive t n dtype vc stamp fault px) := of_wellFormed _
theorem frameStart (t : DT) (n : Nat) : Statement (.frameStart t n) := of_wellFormed _
theorem frameEnd (t : DT) (n : Nat) : Statement (.frameEnd t n) := of_wellFormed _
theorem camStrobeEdge (t : DT) (n : Nat) (stamp : Nat) : Statement (.camStrobeEdge t n stamp) := of_wellFormed _
theorem bufferRelease (t : DT) (c : Nat) (n : Nat) (v : Nat) : Statement (.bufferRelease t c n v) := of_wellFormed _
theorem cameraEnable (t : DT) (c : Nat) (n : Nat) (v : Nat) : Statement (.cameraEnable t c n v) := of_wellFormed _
theorem sampleArrive (t : DT) (kind : Nat) (source : Nat) (stamp : Nat) (cnt : Nat) (unc : Bool) (bound : Nat) (raw : List Nat) : Statement (.sampleArrive t kind source stamp cnt unc bound raw) := of_wellFormed _
theorem samplePost (t : DT) (c : Nat) (p : Nat) (idx : Nat) : Statement (.samplePost t c p idx) := of_wellFormed _
theorem cutoff (t : DT) : Statement (.cutoff t) := of_wellFormed _
theorem fusedRecordPublish (t : DT) : Statement (.fusedRecordPublish t) := of_wellFormed _
theorem estimatorTimeout (t : DT) : Statement (.estimatorTimeout t) := of_wellFormed _
theorem amendment (t : DT) : Statement (.amendment t) := of_wellFormed _
theorem ladderRise (t : DT) : Statement (.ladderRise t) := of_wellFormed _
theorem gridWriteDone (t : DT) : Statement (.gridWriteDone t) := of_wellFormed _
theorem wavefrontRunEnd (t : DT) : Statement (.wavefrontRunEnd t) := of_wellFormed _
theorem checkBatchStart (t : DT) (stamp : Nat) : Statement (.checkBatchStart t stamp) := of_wellFormed _
theorem checkPassEnd (t : DT) : Statement (.checkPassEnd t) := of_wellFormed _
theorem sweepComplete (t : DT) : Statement (.sweepComplete t) := of_wellFormed _
theorem loopTick (t : DT) (n : Nat) : Statement (.loopTick t n) := of_wellFormed _
theorem commandFrameQueue (t : DT) (n : Nat) : Statement (.commandFrameQueue t n) := of_wellFormed _
theorem referenceFlip (t : DT) (l : Nat) (e : Nat) : Statement (.referenceFlip t l e) := of_wellFormed _
theorem injectionEnd (t : DT) (n : Nat) : Statement (.injectionEnd t n) := of_wellFormed _
theorem captureEnd (t : DT) (n : Nat) : Statement (.captureEnd t n) := of_wellFormed _
theorem doorbell (t : DT) (c : Nat) (m : Nat) (v : Nat) : Statement (.doorbell t c m v) := of_wellFormed _
theorem requestTake (t : DT) (m : Nat) : Statement (.requestTake t m) := of_wellFormed _
theorem hello (t : DT) (m : Nat) (seq : Nat) : Statement (.hello t m seq) := of_wellFormed _
theorem bye (t : DT) (m : Nat) (seq : Nat) : Statement (.bye t m seq) := of_wellFormed _
theorem ctxOpen (t : DT) (m : Nat) (seq : Nat) : Statement (.ctxOpen t m seq) := of_wellFormed _
theorem ctxClose (t : DT) (m : Nat) (seq : Nat) : Statement (.ctxClose t m seq) := of_wellFormed _
theorem ctxShares (t : DT) (m : Nat) (seq : Nat) : Statement (.ctxShares t m seq) := of_wellFormed _
theorem cascadeLoad (t : DT) (m : Nat) (seq : Nat) : Statement (.cascadeLoad t m seq) := of_wellFormed _
theorem cascadeBind (t : DT) (m : Nat) (seq : Nat) : Statement (.cascadeBind t m seq) := of_wellFormed _
theorem cascadeRun (t : DT) (m : Nat) (seq : Nat) : Statement (.cascadeRun t m seq) := of_wellFormed _
theorem cascadeUnload (t : DT) (m : Nat) (seq : Nat) : Statement (.cascadeUnload t m seq) := of_wellFormed _
theorem objCreate (t : DT) (m : Nat) (seq : Nat) : Statement (.objCreate t m seq) := of_wellFormed _
theorem objCreateCell (t : DT) (m : Nat) (seq : Nat) : Statement (.objCreateCell t m seq) := of_wellFormed _
theorem objCreateKvPool (t : DT) (m : Nat) (seq : Nat) : Statement (.objCreateKvPool t m seq) := of_wellFormed _
theorem objDelete (t : DT) (m : Nat) (seq : Nat) : Statement (.objDelete t m seq) := of_wellFormed _
theorem objPlace (t : DT) (m : Nat) (seq : Nat) : Statement (.objPlace t m seq) := of_wellFormed _
theorem objPin (t : DT) (m : Nat) (seq : Nat) : Statement (.objPin t m seq) := of_wellFormed _
theorem objPinRelease (t : DT) (m : Nat) (seq : Nat) : Statement (.objPinRelease t m seq) := of_wellFormed _
theorem objEvict (t : DT) (m : Nat) (seq : Nat) : Statement (.objEvict t m seq) := of_wellFormed _
theorem seqJoin (t : DT) (m : Nat) (seq : Nat) : Statement (.seqJoin t m seq) := of_wellFormed _
theorem seqLeave (t : DT) (m : Nat) (seq : Nat) : Statement (.seqLeave t m seq) := of_wellFormed _
theorem seqStep (t : DT) (m : Nat) (seq : Nat) : Statement (.seqStep t m seq) := of_wellFormed _
theorem budgetSet (t : DT) (m : Nat) (seq : Nat) : Statement (.budgetSet t m seq) := of_wellFormed _
theorem modeSet (t : DT) (m : Nat) (seq : Nat) : Statement (.modeSet t m seq) := of_wellFormed _
theorem profileSet (t : DT) (m : Nat) (seq : Nat) : Statement (.profileSet t m seq) := of_wellFormed _
theorem claim (t : DT) (m : Nat) (seq : Nat) : Statement (.claim t m seq) := of_wellFormed _
theorem release (t : DT) (m : Nat) (seq : Nat) : Statement (.release t m seq) := of_wellFormed _
theorem configSet (t : DT) (m : Nat) (seq : Nat) : Statement (.configSet t m seq) := of_wellFormed _
theorem cueSet (t : DT) (m : Nat) (seq : Nat) : Statement (.cueSet t m seq) := of_wellFormed _
theorem captureSet (t : DT) (m : Nat) (seq : Nat) : Statement (.captureSet t m seq) := of_wellFormed _
theorem fuseConfig (t : DT) (m : Nat) (seq : Nat) : Statement (.fuseConfig t m seq) := of_wellFormed _
theorem fuseSubscribe (t : DT) (m : Nat) (seq : Nat) : Statement (.fuseSubscribe t m seq) := of_wellFormed _
theorem planGrid (t : DT) (m : Nat) (seq : Nat) : Statement (.planGrid t m seq) := of_wellFormed _
theorem planRoadmap (t : DT) (m : Nat) (seq : Nat) : Statement (.planRoadmap t m seq) := of_wellFormed _
theorem edgeDisable (t : DT) (m : Nat) (seq : Nat) : Statement (.edgeDisable t m seq) := of_wellFormed _
theorem edgeEnable (t : DT) (m : Nat) (seq : Nat) : Statement (.edgeEnable t m seq) := of_wellFormed _
theorem planRun (t : DT) (m : Nat) (seq : Nat) : Statement (.planRun t m seq) := of_wellFormed _
theorem planRunRepeat (t : DT) (m : Nat) (seq : Nat) : Statement (.planRunRepeat t m seq) := of_wellFormed _
theorem planSweep (t : DT) (m : Nat) (seq : Nat) : Statement (.planSweep t m seq) := of_wellFormed _
theorem planWave (t : DT) (m : Nat) (seq : Nat) : Statement (.planWave t m seq) := of_wellFormed _
theorem planRunStop (t : DT) (m : Nat) (seq : Nat) : Statement (.planRunStop t m seq) := of_wellFormed _
theorem lawLoad (t : DT) (m : Nat) (seq : Nat) : Statement (.lawLoad t m seq) := of_wellFormed _
theorem lawArm (t : DT) (m : Nat) (seq : Nat) : Statement (.lawArm t m seq) := of_wellFormed _
theorem lawDisarm (t : DT) (m : Nat) (seq : Nat) : Statement (.lawDisarm t m seq) := of_wellFormed _
theorem lawHold (t : DT) (m : Nat) (seq : Nat) : Statement (.lawHold t m seq) := of_wellFormed _
theorem lawResume (t : DT) (m : Nat) (seq : Nat) : Statement (.lawResume t m seq) := of_wellFormed _
theorem lawSwap (t : DT) (m : Nat) (seq : Nat) : Statement (.lawSwap t m seq) := of_wellFormed _
theorem lawHandover (t : DT) (m : Nat) (seq : Nat) : Statement (.lawHandover t m seq) := of_wellFormed _
theorem lawInject (t : DT) (m : Nat) (seq : Nat) : Statement (.lawInject t m seq) := of_wellFormed _
theorem lawCapture (t : DT) (m : Nat) (seq : Nat) : Statement (.lawCapture t m seq) := of_wellFormed _
theorem storeSafe (t : DT) (m : Nat) (seq : Nat) (mv : Nat) : Statement (.storeSafe t m seq mv) := of_wellFormed _
theorem safeStorePartStart (t : DT) (m : Nat) (seq : Nat) (mv : Nat) : Statement (.safeStorePartStart t m seq mv) := of_wellFormed _
theorem safeStorePartCommit (t : DT) (m : Nat) (seq : Nat) : Statement (.safeStorePartCommit t m seq) := of_wellFormed _
theorem temp (t : DT) (m : Nat) (seq : Nat) (v : F32) (lo : F32) (hi : F32) : Statement (.temp t m seq v lo hi) := of_wellFormed _
theorem rail (t : DT) (m : Nat) (seq : Nat) (v : F32) (a : F32) : Statement (.rail t m seq v a) := of_wellFormed _
theorem humidity (t : DT) (m : Nat) (seq : Nat) (rh : F32) (margin : F32) : Statement (.humidity t m seq rh margin) := of_wellFormed _
theorem shock (t : DT) (m : Nat) (seq : Nat) : Statement (.shock t m seq) := of_wellFormed _
theorem holdup (t : DT) (m : Nat) (seq : Nat) (mv : Nat) : Statement (.holdup t m seq mv) := of_wellFormed _
theorem input (t : DT) (m : Nat) (seq : Nat) (vin : F32) (iin : F32) (avg : F32) : Statement (.input t m seq vin iin avg) := of_wellFormed _
theorem measure (t : DT) (m : Nat) (seq : Nat) : Statement (.measure t m seq) := of_wellFormed _
theorem attest (t : DT) (m : Nat) (seq : Nat) : Statement (.attest t m seq) := of_wellFormed _
theorem counter (t : DT) (m : Nat) (seq : Nat) : Statement (.counter t m seq) := of_wellFormed _
theorem counterAdvance (t : DT) (m : Nat) (seq : Nat) : Statement (.counterAdvance t m seq) := of_wellFormed _
theorem updateStage (t : DT) (m : Nat) (seq : Nat) : Statement (.updateStage t m seq) := of_wellFormed _
theorem stagingDone (t : DT) (kind : Nat) : Statement (.stagingDone t kind) := of_wellFormed _
theorem updateActivate (t : DT) (m : Nat) (seq : Nat) : Statement (.updateActivate t m seq) := of_wellFormed _
theorem updateConfirm (t : DT) (m : Nat) (seq : Nat) : Statement (.updateConfirm t m seq) := of_wellFormed _
theorem updateStatus (t : DT) (m : Nat) (seq : Nat) : Statement (.updateStatus t m seq) := of_wellFormed _
theorem almanac (t : DT) (m : Nat) (seq : Nat) : Statement (.almanac t m seq) := of_wellFormed _
theorem reset (t : DT) (m : Nat) (seq : Nat) : Statement (.reset t m seq) := of_wellFormed _
theorem mcLog (t : DT) (m : Nat) (seq : Nat) : Statement (.mcLog t m seq) := of_wellFormed _
theorem mcLogRead (t : DT) (m : Nat) (seq : Nat) : Statement (.mcLogRead t m seq) := of_wellFormed _
theorem eicClaim (t : DT) (c : Nat) (tgt : Nat) : Statement (.eicClaim t c tgt) := of_wellFormed _
theorem eicComplete (t : DT) (c : Nat) (tgt : Nat) (src : Nat) : Statement (.eicComplete t c tgt src) := of_wellFormed _
theorem gpioEdge (t : DT) (line : Nat) (level : Bool) (samples : Nat) : Statement (.gpioEdge t line level samples) := of_wellFormed _
theorem timerInterrupt (t : DT) (tgt : Nat) : Statement (.timerInterrupt t tgt) := of_wellFormed _
theorem wfi (t : DT) (core : Nat) : Statement (.wfi t core) := of_wellFormed _
theorem coreWake (t : DT) (core : Nat) : Statement (.coreWake t core) := of_wellFormed _
theorem canFrameReceive (t : DT) (n : Nat) (fmt : Nat) (id : Nat) (stamp : Nat) (bad : Bool) (data : List Nat) : Statement (.canFrameReceive t n fmt id stamp bad data) := of_wellFormed _
theorem spiDataReady (t : DT) (n : Nat) (rising : Bool) (stamp : Nat) : Statement (.spiDataReady t n rising stamp) := of_wellFormed _
theorem spiGo (t : DT) (c : Nat) (n : Nat) (slot : Nat) (v : Nat) : Statement (.spiGo t c n slot v) := of_wellFormed _
theorem spiTransactionEnd (t : DT) (n : Nat) (rd : List (List Nat)) : Statement (.spiTransactionEnd t n rd) := of_wellFormed _
theorem tdmBlock (t : DT) (n : Nat) (stamp : Nat) (data : List Nat) : Statement (.tdmBlock t n stamp data) := of_wellFormed _
theorem safeStopChange (t : DT) (k : Nat) (a : Bool) (b : Bool) (heldUs : Nat) : Statement (.safeStopChange t k a b heldUs) := of_wellFormed _
theorem safeStopDiscrepancy (t : DT) (k : Nat) : Statement (.safeStopDiscrepancy t k) := of_wellFormed _
theorem data (t : DT) (f : FlitIn) (srcBasin : Nat) (basin : Nat) (entry : Nat) (srcEntry : Nat) (index : Nat) (last : Bool) (key : KeyIn) (data : List Byte) : Statement (.data t f srcBasin basin entry srcEntry index last key data) := of_wellFormed _
theorem credit (t : DT) (f : FlitIn) (basin : Nat) (entry : Nat) (consumer : Nat) (count : Nat) (v0 : Nat) (v1 : Nat) : Statement (.credit t f basin entry consumer count v0 v1) := of_wellFormed _
theorem memRd (t : DT) (f : FlitIn) (tag : Nat) (addr : Nat) (len : Nat) : Statement (.memRd t f tag addr len) := of_wellFormed _
theorem memWr (t : DT) (f : FlitIn) (tag : Nat) (addr : Nat) (data : List Byte) : Statement (.memWr t f tag addr data) := of_wellFormed _
theorem memCpl (t : DT) (f : FlitIn) (tag : Nat) (status : Nat) (data : List Byte) : Statement (.memCpl t f tag status data) := of_wellFormed _
theorem ack (t : DT) (port : Nat) (seq : Nat) : Statement (.ack t port seq) := of_wellFormed _
theorem nak (t : DT) (port : Nat) (seq : Nat) : Statement (.nak t port seq) := of_wellFormed _
theorem ptp (t : DT) (f : FlitIn) (data : List Byte) : Statement (.ptp t f data) := of_wellFormed _
theorem prepare (t : DT) (f : FlitIn) (key : KeyIn) (kind : Nat) (subject : Nat) (arg : Nat) : Statement (.prepare t f key kind subject arg) := of_wellFormed _
theorem vote (t : DT) (f : FlitIn) (key : KeyIn) (status : Nat) (castAt : Nat) : Statement (.vote t f key status castAt) := of_wellFormed _
theorem decide (t : DT) (f : FlitIn) (key : KeyIn) (commit : Bool) : Statement (.decide t f key commit) := of_wellFormed _
theorem query (t : DT) (f : FlitIn) (key : KeyIn) : Statement (.query t f key) := of_wellFormed _
theorem done (t : DT) (f : FlitIn) (key : KeyIn) : Statement (.done t f key) := of_wellFormed _
theorem decideTimeout (t : DT) (key : KeyIn) : Statement (.decideTimeout t key) := of_wellFormed _
theorem canalRetrain (t : DT) (port : Nat) (lanes : Nat) : Statement (.canalRetrain t port lanes) := of_wellFormed _
theorem creditTimeout (t : DT) (port : Nat) : Statement (.creditTimeout t port) := of_wellFormed _
theorem mcStart (t : DT) (ns : Nat) (mv : Nat) : Statement (.mcStart t ns mv) := of_wellFormed _
theorem earlyDomainRelease (t : DT) (vin : F32) (mv : Nat) (module : Nat) : Statement (.earlyDomainRelease t vin mv module) := of_wellFormed _
theorem mainPowerGood (t : DT) : Statement (.mainPowerGood t) := of_wellFormed _
theorem basinSelfTest (t : DT) (fails : List Nat) : Statement (.basinSelfTest t fails) := of_wellFormed _
theorem basinFail (t : DT) (phys : Nat) : Statement (.basinFail t phys) := of_wellFormed _
theorem nearStoreTraining (t : DT) : Statement (.nearStoreTraining t) := of_wellFormed _
theorem bootLatchClose (t : DT) (c : Nat) (v : Nat) : Statement (.bootLatchClose t c v) := of_wellFormed _
theorem coreRelease (t : DT) : Statement (.coreRelease t) := of_wellFormed _
theorem pmapGrant (t : DT) (c : Nat) (v : Word) : Statement (.pmapGrant t c v) := of_wellFormed _
theorem pmapViolRead (t : DT) (c : Nat) : Statement (.pmapViolRead t c) := of_wellFormed _
theorem udsRead (t : DT) (c : Nat) : Statement (.udsRead t c) := of_wellFormed _
theorem memoryAccess (t : DT) (c : Nat) (kind : Nat) (a : Nat) (n : Nat) (data : List (BitVec 8)) (ecc : Nat) : Statement (.memoryAccess t c kind a n data ecc) := of_wellFormed _
theorem registerWrite (t : DT) (c : Nat) (a : Nat) (n : Nat) (v : Word) : Statement (.registerWrite t c a n v) := of_wellFormed _
theorem resetIn (t : DT) (us : Nat) : Statement (.resetIn t us) := of_wellFormed _
theorem coldReset (t : DT) : Statement (.coldReset t) := of_wellFormed _
theorem mainDomainReset (t : DT) : Statement (.mainDomainReset t) := of_wellFormed _
theorem mcRestart (t : DT) (watchdog : Bool) : Statement (.mcRestart t watchdog) := of_wellFormed _
theorem heartbeat (t : DT) : Statement (.heartbeat t) := of_wellFormed _
theorem stewardStopped (t : DT) : Statement (.stewardStopped t) := of_wellFormed _
theorem mcThresholdCrossing (t : DT) (kind : Nat) (idx : Nat) (v : F32) : Statement (.mcThresholdCrossing t kind idx v) := of_wellFormed _
theorem shockImpact (t : DT) (g : F32) : Statement (.shockImpact t g) := of_wellFormed _
theorem fallDetect (t : DT) (g : F32) (ms : Nat) : Statement (.fallDetect t g ms) := of_wellFormed _
theorem shockStopEnd (t : DT) : Statement (.shockStopEnd t) := of_wellFormed _
theorem holdupFault (t : DT) (mv : Nat) (ms : Nat) : Statement (.holdupFault t mv ms) := of_wellFormed _
theorem almanacWrite (t : DT) : Statement (.almanacWrite t) := of_wellFormed _
theorem checkpoint (t : DT) : Statement (.checkpoint t) := of_wellFormed _
theorem vinLowStep (t : DT) (vin : F32) (ms : Nat) : Statement (.vinLowStep t vin ms) := of_wellFormed _
theorem vinBelowRange (t : DT) (vin : F32) (us : Nat) : Statement (.vinBelowRange t vin us) := of_wellFormed _
theorem vinRecover (t : DT) (vin : F32) (ms : Nat) : Statement (.vinRecover t vin ms) := of_wellFormed _
theorem inputLoss (t : DT) (vin : F32) (us : Nat) : Statement (.inputLoss t vin us) := of_wellFormed _
theorem processorOff (t : DT) : Statement (.processorOff t) := of_wellFormed _
theorem inputReturn (t : DT) (vin : F32) (ms : Nat) : Statement (.inputReturn t vin ms) := of_wellFormed _
theorem mcOff (t : DT) (mv : Nat) : Statement (.mcOff t mv) := of_wellFormed _
theorem overtempStep (t : DT) (v : F32) (ms : Nat) : Statement (.overtempStep t v ms) := of_wellFormed _
theorem overtempStop (t : DT) (v : F32) : Statement (.overtempStop t v) := of_wellFormed _
theorem overtempClear (t : DT) (v : F32) (ms : Nat) : Statement (.overtempClear t v ms) := of_wellFormed _
theorem overtempShutdown (t : DT) (v : F32) : Statement (.overtempShutdown t v) := of_wellFormed _
theorem attach (t : DT) (p : UlzilPacket) : Statement (.attach t p) := of_wellFormed _
theorem attachRelease (t : DT) (p : UlzilPacket) : Statement (.attachRelease t p) := of_wellFormed _
theorem authChallenge (t : DT) (p : UlzilPacket) : Statement (.authChallenge t p) := of_wellFormed _
theorem authResponse (t : DT) (p : UlzilPacket) : Statement (.authResponse t p) := of_wellFormed _
theorem halt (t : DT) (p : UlzilPacket) : Statement (.halt t p) := of_wellFormed _
theorem resume (t : DT) (p : UlzilPacket) : Statement (.resume t p) := of_wellFormed _
theorem step (t : DT) (p : UlzilPacket) : Statement (.step t p) := of_wellFormed _
theorem bpSet (t : DT) (p : UlzilPacket) : Statement (.bpSet t p) := of_wellFormed _
theorem bpClear (t : DT) (p : UlzilPacket) : Statement (.bpClear t p) := of_wellFormed _
theorem memRead (t : DT) (p : UlzilPacket) : Statement (.memRead t p) := of_wellFormed _
theorem memWrite (t : DT) (p : UlzilPacket) : Statement (.memWrite t p) := of_wellFormed _
theorem regRead (t : DT) (p : UlzilPacket) : Statement (.regRead t p) := of_wellFormed _
theorem regWrite (t : DT) (p : UlzilPacket) : Statement (.regWrite t p) := of_wellFormed _
theorem status (t : DT) (p : UlzilPacket) : Statement (.status t p) := of_wellFormed _
theorem breakpointHit (t : DT) (k : Nat) (slot : Nat) : Statement (.breakpointHit t k slot) := of_wellFormed _
theorem watchpointHit (t : DT) (k : Nat) (slot : Nat) (kind : Nat) (a : Nat) (n : Nat) : Statement (.watchpointHit t k slot kind a n) := of_wellFormed _
theorem ulzilBusyTimeout (t : DT) (cycles : Nat) : Statement (.ulzilBusyTimeout t cycles) := of_wellFormed _
theorem sessionTimeout (t : DT) : Statement (.sessionTimeout t) := of_wellFormed _
theorem udrst (t : DT) (ns : Nat) : Statement (.udrst t ns) := of_wellFormed _
theorem linkChange (t : DT) (p : Nat) (up : Bool) : Statement (.linkChange t p up) := of_wellFormed _
theorem canalPortTraining (t : DT) (port : Nat) (lanes : Nat) (peer : Nat) (ring : Nat) : Statement (.canalPortTraining t port lanes peer ring) := of_wellFormed _
theorem dynamicSignalEdge (t : DT) : Statement (.dynamicSignalEdge t) := of_wellFormed _
theorem gpioGlitch (t : DT) (line : Nat) (samples : Nat) : Statement (.gpioGlitch t line samples) := of_wellFormed _
theorem ptmRequest (t : DT) : Statement (.ptmRequest t) := of_wellFormed _
theorem syncInterval (t : DT) (p : Nat) (msg : Nat) (q : Nat) (delay : Nat) (data : List Nat) : Statement (.syncInterval t p msg q delay data) := of_wellFormed _
theorem probeVrefChange (t : DT) (present : Bool) : Statement (.probeVrefChange t present) := of_wellFormed _
theorem rechargeWaitTimeout (t : DT) (m : Nat) (seq : Nat) : Statement (.rechargeWaitTimeout t m seq) := of_wellFormed _
theorem mcQueryTimeout (t : DT) (m : Nat) (seq : Nat) : Statement (.mcQueryTimeout t m seq) := of_wellFormed _

end Sys2Proof.Laws.TimeFits
end

