-- ==== Sys2Proof/Laws/Tbl.lean ====
section
/-! SUPPORT. The laws of sparse tables, of the lowest number that passes a test, and of little-endian bytes. -/

namespace Sys2Proof.Machine

section tables

variable {α : Type}

@[simp] theorem tget_nil (k : Nat) : tget ([] : Tbl α) k = none := rfl

@[simp] theorem tget_tset (t : Tbl α) (k : Nat) (v : α) : tget (tset t k v) k = some v := by
  induction t with
  | nil => simp [tset, tget]
  | cons e rest ih =>
    simp only [tset]
    split
    · simp [tget]
    · next h => simp [tget, h, ih]

theorem tget_tset_ne {t : Tbl α} {j k : Nat} {v : α} (h : j ≠ k) : tget (tset t k v) j = tget t j := by
  induction t with
  | nil => simp [tset, tget, Ne.symm h]
  | cons e rest ih =>
    simp only [tset]
    split
    · next e1 => simp [tget, e1, Ne.symm h]
    · simp [tget, ih]

@[simp] theorem tget_tdel (t : Tbl α) (k : Nat) : tget (tdel t k) k = none := by
  induction t with
  | nil => rfl
  | cons e rest ih =>
    unfold tdel at ih ⊢
    by_cases h : e.1 = k
    · rw [List.filter_cons_of_neg (by simp [h])]; exact ih
    · rw [List.filter_cons_of_pos (by simp [h])]; simp only [tget, if_neg h]; exact ih

theorem tget_tdel_ne {t : Tbl α} {j k : Nat} (h : j ≠ k) : tget (tdel t k) j = tget t j := by
  induction t with
  | nil => rfl
  | cons e rest ih =>
    unfold tdel at ih ⊢
    by_cases e1 : e.1 = k
    · rw [List.filter_cons_of_neg (by simp [e1])]
      simp only [tget, if_neg (show ¬ e.1 = j by omega)]; exact ih
    · rw [List.filter_cons_of_pos (by simp [e1])]
      simp only [tget]; split
      · rfl
      · exact ih

theorem tget_tmod {t : Tbl α} {j k : Nat} {f : α → α} : tget (tmod t k f) j = if j = k then (tget t j).map f else tget t j := by
  induction t with
  | nil => simp [tmod, tget]
  | cons e rest ih =>
    unfold tmod at ih ⊢
    simp only [List.map_cons]
    by_cases h : e.1 = k
    · simp only [if_pos h, tget]
      split
      · next h2 => rw [if_pos (by omega)]; rfl
      · exact ih
    · simp only [if_neg h, tget]
      split
      · next h2 => rw [if_neg (by omega)]
      · exact ih

@[simp] theorem tgetD_tset (t : Tbl α) (k : Nat) (v d : α) : tgetD (tset t k v) k d = v := by simp [tgetD]

theorem tgetD_tset_ne {t : Tbl α} {j k : Nat} {v d : α} (h : j ≠ k) : tgetD (tset t k v) j d = tgetD t j d := by
  simp [tgetD, tget_tset_ne h]

theorem thas_eq (t : Tbl α) (k : Nat) : thas t k = (tget t k).isSome := by
  induction t with
  | nil => rfl
  | cons e rest ih =>
    unfold thas at ih ⊢
    by_cases h : e.1 = k
    · simp [tget, h]
    · simp [tget, h, ih]

end tables

/-- The number found is in range, passes the test, and is the first to pass. -/
theorem lowestFrom_spec {n k x : Nat} {p : Nat → Bool} (h : lowestFrom n k p = some x) : k ≤ x ∧ x < k + n ∧ p x = true ∧ ∀ y, k ≤ y → y < x → p y = false := by
  induction n generalizing k with
  | zero => simp [lowestFrom] at h
  | succ n ih =>
    simp only [lowestFrom] at h
    split at h
    · next hp => cases h; exact ⟨le_refl _, by omega, hp, fun y h1 h2 => absurd h1 (by omega)⟩
    · next hp =>
      obtain ⟨a, b, c, d⟩ := ih h
      refine ⟨by omega, by omega, c, fun y h1 h2 => ?_⟩
      by_cases e : y = k
      · simpa [e] using hp
      · exact d y (by omega) h2

/-- Nothing is found only where no number in range passes. -/
theorem lowestFrom_none {n k : Nat} {p : Nat → Bool} (h : lowestFrom n k p = none) : ∀ y, k ≤ y → y < k + n → p y = false := by
  induction n generalizing k with
  | zero => intro y h1 h2; omega
  | succ n ih =>
    simp only [lowestFrom] at h
    split at h
    · cases h
    · next hp =>
      intro y h1 h2
      by_cases e : y = k
      · simpa [e] using hp
      · exact ih h y (by omega) (by omega)

theorem lowest_spec {n x : Nat} {p : Nat → Bool} (h : lowest n p = some x) : x < n ∧ p x = true ∧ ∀ y, y < x → p y = false := by
  obtain ⟨_, b, c, d⟩ := lowestFrom_spec h
  exact ⟨by omega, c, fun y hy => d y (Nat.zero_le _) hy⟩

theorem lowest_none {n : Nat} {p : Nat → Bool} (h : lowest n p = none) : ∀ y, y < n → p y = false := by
  intro y hy; exact lowestFrom_none h y (Nat.zero_le _) (by omega)

@[simp] theorem leBytes_length (n v : Nat) : (leBytes n v).length = n := by
  induction n generalizing v with
  | zero => rfl
  | succ n ih => simp [leBytes, ih]

/-- Bytes written little-endian read back as the number they hold. -/
theorem leNat_leBytes (n v : Nat) : leNat (leBytes n v) = v % 256 ^ n := by
  induction n generalizing v with
  | zero => simp [leBytes, leNat, Nat.mod_one]
  | succ n ih =>
    simp only [leBytes, leNat, ih, BitVec.toNat_ofNat]
    rw [show (256 : Nat) ^ (n + 1) = 256 * 256 ^ n from by rw [Nat.pow_succ, Nat.mul_comm], Nat.mod_mul]

end Sys2Proof.Machine
end

