-- ==== Sys2Proof/Laws/Regs.lean ====
section
/-! SUPPORT. The laws of the register file and of a register's fields. -/

namespace Sys2Proof.Machine

@[simp] theorem Regs.rd_wr (rs : Regs) (r : Reg) (v : Word) : (Regs.wr rs r v).rd r = v := by
  induction rs with
  | nil => simp [Regs.wr, Regs.rd]
  | cons e rest ih =>
    simp only [Regs.wr]
    split
    · simp [Regs.rd]
    · next h => simp [Regs.rd, h, ih]

theorem Regs.rd_wr_ne {rs : Regs} {q r : Reg} {v : Word} (h : q ≠ r) : (Regs.wr rs r v).rd q = Regs.rd rs q := by
  induction rs with
  | nil => simp [Regs.wr, Regs.rd, Ne.symm h]
  | cons e rest ih =>
    simp only [Regs.wr]
    split
    · next h1 => simp [Regs.rd, h1, Ne.symm h]
    · simp [Regs.rd, ih]

/-- A field lies inside the 64 bits of a register. -/
def Fld.ok (x : Fld) : Prop := x.lo + x.w ≤ 64

theorem fget_lt (v : Word) (x : Fld) : fget v x < 2 ^ x.w := Nat.mod_lt _ (Nat.two_pow_pos _)

/-- Taking a field's bits out of a number and putting others in gives a number with those bits. -/
theorem bits_replace (n lo w k : Nat) : let m := n - bits n lo w * 2 ^ lo + (k % 2 ^ w) * 2 ^ lo
    m % 2 ^ lo = n % 2 ^ lo ∧ m / 2 ^ lo = n / 2 ^ lo / 2 ^ w * 2 ^ w + k % 2 ^ w := by
  intro m
  have hp : 0 < 2 ^ lo := Nat.two_pow_pos _
  have e : n = n % 2 ^ lo + 2 ^ lo * (n / 2 ^ lo / 2 ^ w * 2 ^ w + n / 2 ^ lo % 2 ^ w) := by
    have h1 := Nat.mod_add_div n (2 ^ lo)
    have h2 := Nat.div_add_mod (n / 2 ^ lo) (2 ^ w)
    rw [Nat.mul_comm (n / 2 ^ lo / 2 ^ w), h2, h1]
  have hm : m = n % 2 ^ lo + 2 ^ lo * (n / 2 ^ lo / 2 ^ w * 2 ^ w + k % 2 ^ w) := by
    show n - n / 2 ^ lo % 2 ^ w * 2 ^ lo + k % 2 ^ w * 2 ^ lo = _
    generalize n / 2 ^ lo / 2 ^ w * 2 ^ w = a at *
    generalize n / 2 ^ lo % 2 ^ w = b at *
    generalize k % 2 ^ w = c at *
    generalize n % 2 ^ lo = d at *
    rw [e, Nat.mul_add, Nat.mul_add, Nat.mul_comm b, Nat.mul_comm c]
    omega
  rw [hm]
  exact ⟨by simp [Nat.add_mul_mod_self_left], by rw [Nat.add_mul_div_left _ _ hp]; simp [Nat.div_eq_of_lt (Nat.mod_lt n hp)]⟩

theorem fput_toNat {v : Word} {x : Fld} (n : Nat) (h : x.ok) : (fput v x n).toNat = v.toNat - fget v x * 2 ^ x.lo + (n % 2 ^ x.w) * 2 ^ x.lo := by
  unfold fput
  rw [BitVec.toNat_ofNat]
  apply Nat.mod_eq_of_lt
  have hb := bits_replace v.toNat x.lo x.w n
  simp only at hb
  obtain ⟨h1, h2⟩ := hb
  change (v.toNat - bits v.toNat x.lo x.w * 2 ^ x.lo + n % 2 ^ x.w * 2 ^ x.lo) < _
  generalize hm : v.toNat - bits v.toNat x.lo x.w * 2 ^ x.lo + n % 2 ^ x.w * 2 ^ x.lo = m at h1 h2 ⊢
  have hv := v.isLt
  have hq : m / 2 ^ x.lo < 2 ^ (64 - x.lo) := by
    rw [h2]
    have e1 : v.toNat / 2 ^ x.lo < 2 ^ (64 - x.lo) := by
      apply Nat.div_lt_of_lt_mul
      rw [← Nat.pow_add]
      unfold Fld.ok at h
      rw [show x.lo + (64 - x.lo) = 64 by omega]; exact hv
    have e2 : v.toNat / 2 ^ x.lo / 2 ^ x.w < 2 ^ (64 - x.lo - x.w) := by
      apply Nat.div_lt_of_lt_mul
      rw [← Nat.pow_add]
      unfold Fld.ok at h
      rw [show x.w + (64 - x.lo - x.w) = 64 - x.lo by omega]; exact e1
    have e3 : n % 2 ^ x.w < 2 ^ x.w := Nat.mod_lt _ (Nat.two_pow_pos _)
    have e4 : 2 ^ (64 - x.lo) = 2 ^ (64 - x.lo - x.w) * 2 ^ x.w := by
      rw [← Nat.pow_add]
      unfold Fld.ok at h
      rw [show 64 - x.lo - x.w + x.w = 64 - x.lo by omega]
    rw [e4]
    generalize v.toNat / 2 ^ x.lo / 2 ^ x.w = a at *
    generalize 2 ^ (64 - x.lo - x.w) = b at *
    generalize 2 ^ x.w = c at *
    calc a * c + n % c < a * c + c := by omega
      _ = (a + 1) * c := by ring
      _ ≤ b * c := Nat.mul_le_mul_right c e2
  have e5 : m < 2 ^ x.lo * 2 ^ (64 - x.lo) := by
    rw [Nat.mul_comm]
    exact (Nat.div_lt_iff_lt_mul (Nat.two_pow_pos _)).mp hq
  rw [← Nat.pow_add] at e5
  unfold Fld.ok at h
  rwa [show x.lo + (64 - x.lo) = 64 by omega] at e5

/-- A field reads as it was written. -/
theorem fget_fput {v : Word} {x : Fld} (n : Nat) (h : x.ok) : fget (fput v x n) x = n % 2 ^ x.w := by
  have hb := bits_replace v.toNat x.lo x.w n
  simp only at hb
  unfold fget bits
  rw [fput_toNat n h]
  change (v.toNat - bits v.toNat x.lo x.w * 2 ^ x.lo + n % 2 ^ x.w * 2 ^ x.lo) / 2 ^ x.lo % 2 ^ x.w = _
  rw [hb.2]
  simp [Nat.add_mod]

/-- A field below or above the one written reads as before. -/
theorem fget_fput_ne {v : Word} {x y : Fld} (n : Nat) (h : x.ok) (hd : y.lo + y.w ≤ x.lo ∨ x.lo + x.w ≤ y.lo) : fget (fput v x n) y = fget v y := by
  have hb := bits_replace v.toNat x.lo x.w n
  simp only at hb
  unfold fget bits
  rw [fput_toNat n h]
  change (v.toNat - bits v.toNat x.lo x.w * 2 ^ x.lo + n % 2 ^ x.w * 2 ^ x.lo) / 2 ^ y.lo % 2 ^ y.w = _
  generalize v.toNat - bits v.toNat x.lo x.w * 2 ^ x.lo + n % 2 ^ x.w * 2 ^ x.lo = m at hb ⊢
  obtain ⟨h1, h2⟩ := hb
  rcases hd with hd | hd
  · have key (a : Nat) : a / 2 ^ y.lo % 2 ^ y.w = a % 2 ^ x.lo / 2 ^ y.lo % 2 ^ y.w := by
      have e : x.lo = y.lo + (x.lo - y.lo) := by omega
      rw [e, Nat.pow_add, Nat.mod_mul_right_div_self, Nat.mod_mod_of_dvd]
      exact Nat.pow_dvd_pow 2 (by omega)
    rw [key m, key v.toNat, h1]
  · have key (a : Nat) : a / 2 ^ y.lo = a / 2 ^ x.lo / 2 ^ x.w / 2 ^ (y.lo - x.lo - x.w) := by
      rw [Nat.div_div_eq_div_mul, Nat.div_div_eq_div_mul, ← Nat.pow_add, ← Nat.pow_add]
      congr 2; omega
    rw [key m, key v.toNat, h2]
    congr 2
    rw [Nat.mul_comm, Nat.mul_add_div (Nat.two_pow_pos _)]
    simp [Nat.div_eq_of_lt (Nat.mod_lt n (Nat.two_pow_pos x.w))]

end Sys2Proof.Machine
end

