-- ==== Sys2Proof/Laws/State.lean ====
section
/-! SUPPORT. What the shared updates of the device leave as it is, one lemma per update and part of the state; what they change; the state after reset. -/

namespace Sys2Proof.Machine

/-- The memory after reset has the canonical form. -/
theorem State.reset_mem_wf : State.reset.dev.mem.wf = true ∧ State.reset.dev.nor.wf = true ∧ State.reset.dev.sysArea.wf = true ∧ State.reset.dev.slu.flash.wf = true := by decide

/-- A command on the device changes time and the device alone. -/
@[simp] theorem State.run_eq (s : State) (t : Nat) (f : Nat → Dev → Dev) : s.run t f = .next { s with dt := s.now t, dev := f (s.now t) s.dev } := rfl

/-- Time never runs back and stays within the counter. -/
theorem State.now_ge (s : State) (t : Nat) : s.dt ≤ s.now t := by unfold State.now; split <;> omega
theorem State.now_le (s : State) (t : Nat) (h : s.dt ≤ dtMax) : s.now t ≤ dtMax := by unfold State.now; split <;> omega
theorem State.now_mono (s : State) {t u : Nat} (h : t ≤ u) : s.now t ≤ s.now u := by unfold State.now; split <;> omega

/-! ### Registers and fields -/

@[simp] theorem Dev.rd_wr (d : Dev) (r : Reg) (v : Word) : (d.wr r v).rd r = v := Regs.rd_wr d.regs r v
theorem Dev.rd_wr_ne {d : Dev} {q r : Reg} {v : Word} (h : q ≠ r) : (d.wr r v).rd q = d.rd q := Regs.rd_wr_ne h
theorem Dev.rd_wn_ne {d : Dev} {q r : Reg} {n : Nat} (h : q ≠ r) : (d.wn r n).rd q = d.rd q := Dev.rd_wr_ne h
theorem Dev.rd_sf_ne {d : Dev} {q r : Reg} {x : Fld} {n : Nat} (h : q ≠ r) : (d.sf r x n).rd q = d.rd q := Dev.rd_wr_ne h
theorem Dev.rn_wn (d : Dev) (r : Reg) (n : Nat) : (d.wn r n).rn r = n % 2 ^ 64 := by
  show (d.regs.wr r (BitVec.ofNat 64 n) |>.rd r).toNat = _
  rw [Regs.rd_wr]; rfl
theorem Dev.f_sf (d : Dev) (r : Reg) {x : Fld} (n : Nat) (h : x.ok) : (d.sf r x n).f r x = n % 2 ^ x.w := by
  show fget ((d.wr r (fput (d.rd r) x n)).rd r) x = _
  rw [Dev.rd_wr, fget_fput n h]
theorem Dev.f_sf_ne {d : Dev} {r : Reg} {x y : Fld} (n : Nat) (h : x.ok) (hd : y.lo + y.w ≤ x.lo ∨ x.lo + x.w ≤ y.lo) : (d.sf r x n).f r y = d.f r y := by
  show fget ((d.wr r (fput (d.rd r) x n)).rd r) y = _
  rw [Dev.rd_wr, fget_fput_ne n h hd]; rfl
theorem Dev.f_sf_reg {d : Dev} {q r : Reg} {x y : Fld} {n : Nat} (h : q ≠ r) : (d.sf r x n).f q y = d.f q y := by
  show fget ((d.sf r x n).rd q) y = _
  rw [Dev.rd_sf_ne h]; rfl

/-! ### Interrupts -/

/-- A listed source pends after its event while the controller is powered; no other source's bit changes. -/
theorem Dev.raise_pend {d : Dev} {x : Nat} (hl : eicListed x = true) (ho : d.on 156 = true) : (d.raise x).eic.pend.contains x = true := by
  unfold Dev.raise
  split
  · simp
  · next h => simpa [hl, ho] using h
theorem Dev.raise_other {d : Dev} {x y : Nat} (h : y ≠ x) : (d.raise x).eic.pend.contains y = d.eic.pend.contains y := by
  unfold Dev.raise
  split
  · simp [h]
  · rfl
@[simp] theorem Dev.raise_active (d : Dev) (x : Nat) : (d.raise x).eic.active = d.eic.active := by unfold Dev.raise; split <;> rfl

/-! ### wr -/

@[simp] theorem Dev.wr_recs (d : Dev) (r : Reg) (v : Word) : (d.wr r v).recs = d.recs := rfl
@[simp] theorem Dev.wr_cnt (d : Dev) (r : Reg) (v : Word) : (d.wr r v).cnt = d.cnt := rfl
@[simp] theorem Dev.wr_free (d : Dev) (r : Reg) (v : Word) : (d.wr r v).free = d.free := rfl
@[simp] theorem Dev.wr_bus (d : Dev) (r : Reg) (v : Word) : (d.wr r v).bus = d.bus := rfl
@[simp] theorem Dev.wr_module (d : Dev) (r : Reg) (v : Word) : (d.wr r v).module = d.module := rfl
@[simp] theorem Dev.wr_mem (d : Dev) (r : Reg) (v : Word) : (d.wr r v).mem = d.mem := rfl
@[simp] theorem Dev.wr_grants (d : Dev) (r : Reg) (v : Word) : (d.wr r v).grants = d.grants := rfl
@[simp] theorem Dev.wr_waits (d : Dev) (r : Reg) (v : Word) : (d.wr r v).waits = d.waits := rfl
@[simp] theorem Dev.wr_nextWait (d : Dev) (r : Reg) (v : Word) : (d.wr r v).nextWait = d.nextWait := rfl
@[simp] theorem Dev.wr_sysArea (d : Dev) (r : Reg) (v : Word) : (d.wr r v).sysArea = d.sysArea := rfl
@[simp] theorem Dev.wr_nor (d : Dev) (r : Reg) (v : Word) : (d.wr r v).nor = d.nor := rfl
@[simp] theorem Dev.wr_time (d : Dev) (r : Reg) (v : Word) : (d.wr r v).time = d.time := rfl
@[simp] theorem Dev.wr_cue (d : Dev) (r : Reg) (v : Word) : (d.wr r v).cue = d.cue := rfl
@[simp] theorem Dev.wr_pow (d : Dev) (r : Reg) (v : Word) : (d.wr r v).pow = d.pow := rfl
@[simp] theorem Dev.wr_eic (d : Dev) (r : Reg) (v : Word) : (d.wr r v).eic = d.eic := rfl
@[simp] theorem Dev.wr_stew (d : Dev) (r : Reg) (v : Word) : (d.wr r v).stew = d.stew := rfl
@[simp] theorem Dev.wr_pbu (d : Dev) (r : Reg) (v : Word) : (d.wr r v).pbu = d.pbu := rfl
@[simp] theorem Dev.wr_fab (d : Dev) (r : Reg) (v : Word) : (d.wr r v).fab = d.fab := rfl
@[simp] theorem Dev.wr_slu (d : Dev) (r : Reg) (v : Word) : (d.wr r v).slu = d.slu := rfl
@[simp] theorem Dev.wr_kv (d : Dev) (r : Reg) (v : Word) : (d.wr r v).kv = d.kv := rfl
@[simp] theorem Dev.wr_cam (d : Dev) (r : Reg) (v : Word) : (d.wr r v).cam = d.cam := rfl
@[simp] theorem Dev.wr_fus (d : Dev) (r : Reg) (v : Word) : (d.wr r v).fus = d.fus := rfl
@[simp] theorem Dev.wr_plan (d : Dev) (r : Reg) (v : Word) : (d.wr r v).plan = d.plan := rfl
@[simp] theorem Dev.wr_le (d : Dev) (r : Reg) (v : Word) : (d.wr r v).le = d.le := rfl
@[simp] theorem Dev.wr_ss (d : Dev) (r : Reg) (v : Word) : (d.wr r v).ss = d.ss := rfl
@[simp] theorem Dev.wr_io (d : Dev) (r : Reg) (v : Word) : (d.wr r v).io = d.io := rfl
@[simp] theorem Dev.wr_cnl (d : Dev) (r : Reg) (v : Word) : (d.wr r v).cnl = d.cnl := rfl
@[simp] theorem Dev.wr_dbg (d : Dev) (r : Reg) (v : Word) : (d.wr r v).dbg = d.dbg := rfl
@[simp] theorem Dev.wr_cells (d : Dev) (r : Reg) (v : Word) : (d.wr r v).cells = d.cells := rfl
@[simp] theorem Dev.wr_cellRes (d : Dev) (r : Reg) (v : Word) : (d.wr r v).cellRes = d.cellRes := rfl
@[simp] theorem Dev.wr_mc (d : Dev) (r : Reg) (v : Word) : (d.wr r v).mc = d.mc := rfl
@[simp] theorem Dev.wr_cores (d : Dev) (r : Reg) (v : Word) : (d.wr r v).cores = d.cores := rfl
@[simp] theorem Dev.wr_idn (d : Dev) (r : Reg) (v : Word) : (d.wr r v).idn = d.idn := rfl

/-! ### wn -/

@[simp] theorem Dev.wn_recs (d : Dev) (r : Reg) (n : Nat) : (d.wn r n).recs = d.recs := rfl
@[simp] theorem Dev.wn_cnt (d : Dev) (r : Reg) (n : Nat) : (d.wn r n).cnt = d.cnt := rfl
@[simp] theorem Dev.wn_free (d : Dev) (r : Reg) (n : Nat) : (d.wn r n).free = d.free := rfl
@[simp] theorem Dev.wn_bus (d : Dev) (r : Reg) (n : Nat) : (d.wn r n).bus = d.bus := rfl
@[simp] theorem Dev.wn_module (d : Dev) (r : Reg) (n : Nat) : (d.wn r n).module = d.module := rfl
@[simp] theorem Dev.wn_mem (d : Dev) (r : Reg) (n : Nat) : (d.wn r n).mem = d.mem := rfl
@[simp] theorem Dev.wn_grants (d : Dev) (r : Reg) (n : Nat) : (d.wn r n).grants = d.grants := rfl
@[simp] theorem Dev.wn_waits (d : Dev) (r : Reg) (n : Nat) : (d.wn r n).waits = d.waits := rfl
@[simp] theorem Dev.wn_nextWait (d : Dev) (r : Reg) (n : Nat) : (d.wn r n).nextWait = d.nextWait := rfl
@[simp] theorem Dev.wn_sysArea (d : Dev) (r : Reg) (n : Nat) : (d.wn r n).sysArea = d.sysArea := rfl
@[simp] theorem Dev.wn_nor (d : Dev) (r : Reg) (n : Nat) : (d.wn r n).nor = d.nor := rfl
@[simp] theorem Dev.wn_time (d : Dev) (r : Reg) (n : Nat) : (d.wn r n).time = d.time := rfl
@[simp] theorem Dev.wn_cue (d : Dev) (r : Reg) (n : Nat) : (d.wn r n).cue = d.cue := rfl
@[simp] theorem Dev.wn_pow (d : Dev) (r : Reg) (n : Nat) : (d.wn r n).pow = d.pow := rfl
@[simp] theorem Dev.wn_eic (d : Dev) (r : Reg) (n : Nat) : (d.wn r n).eic = d.eic := rfl
@[simp] theorem Dev.wn_stew (d : Dev) (r : Reg) (n : Nat) : (d.wn r n).stew = d.stew := rfl
@[simp] theorem Dev.wn_pbu (d : Dev) (r : Reg) (n : Nat) : (d.wn r n).pbu = d.pbu := rfl
@[simp] theorem Dev.wn_fab (d : Dev) (r : Reg) (n : Nat) : (d.wn r n).fab = d.fab := rfl
@[simp] theorem Dev.wn_slu (d : Dev) (r : Reg) (n : Nat) : (d.wn r n).slu = d.slu := rfl
@[simp] theorem Dev.wn_kv (d : Dev) (r : Reg) (n : Nat) : (d.wn r n).kv = d.kv := rfl
@[simp] theorem Dev.wn_cam (d : Dev) (r : Reg) (n : Nat) : (d.wn r n).cam = d.cam := rfl
@[simp] theorem Dev.wn_fus (d : Dev) (r : Reg) (n : Nat) : (d.wn r n).fus = d.fus := rfl
@[simp] theorem Dev.wn_plan (d : Dev) (r : Reg) (n : Nat) : (d.wn r n).plan = d.plan := rfl
@[simp] theorem Dev.wn_le (d : Dev) (r : Reg) (n : Nat) : (d.wn r n).le = d.le := rfl
@[simp] theorem Dev.wn_ss (d : Dev) (r : Reg) (n : Nat) : (d.wn r n).ss = d.ss := rfl
@[simp] theorem Dev.wn_io (d : Dev) (r : Reg) (n : Nat) : (d.wn r n).io = d.io := rfl
@[simp] theorem Dev.wn_cnl (d : Dev) (r : Reg) (n : Nat) : (d.wn r n).cnl = d.cnl := rfl
@[simp] theorem Dev.wn_dbg (d : Dev) (r : Reg) (n : Nat) : (d.wn r n).dbg = d.dbg := rfl
@[simp] theorem Dev.wn_cells (d : Dev) (r : Reg) (n : Nat) : (d.wn r n).cells = d.cells := rfl
@[simp] theorem Dev.wn_cellRes (d : Dev) (r : Reg) (n : Nat) : (d.wn r n).cellRes = d.cellRes := rfl
@[simp] theorem Dev.wn_mc (d : Dev) (r : Reg) (n : Nat) : (d.wn r n).mc = d.mc := rfl
@[simp] theorem Dev.wn_cores (d : Dev) (r : Reg) (n : Nat) : (d.wn r n).cores = d.cores := rfl
@[simp] theorem Dev.wn_idn (d : Dev) (r : Reg) (n : Nat) : (d.wn r n).idn = d.idn := rfl

/-! ### sf -/

@[simp] theorem Dev.sf_recs (d : Dev) (r : Reg) (x : Fld) (n : Nat) : (d.sf r x n).recs = d.recs := rfl
@[simp] theorem Dev.sf_cnt (d : Dev) (r : Reg) (x : Fld) (n : Nat) : (d.sf r x n).cnt = d.cnt := rfl
@[simp] theorem Dev.sf_free (d : Dev) (r : Reg) (x : Fld) (n : Nat) : (d.sf r x n).free = d.free := rfl
@[simp] theorem Dev.sf_bus (d : Dev) (r : Reg) (x : Fld) (n : Nat) : (d.sf r x n).bus = d.bus := rfl
@[simp] theorem Dev.sf_module (d : Dev) (r : Reg) (x : Fld) (n : Nat) : (d.sf r x n).module = d.module := rfl
@[simp] theorem Dev.sf_mem (d : Dev) (r : Reg) (x : Fld) (n : Nat) : (d.sf r x n).mem = d.mem := rfl
@[simp] theorem Dev.sf_grants (d : Dev) (r : Reg) (x : Fld) (n : Nat) : (d.sf r x n).grants = d.grants := rfl
@[simp] theorem Dev.sf_waits (d : Dev) (r : Reg) (x : Fld) (n : Nat) : (d.sf r x n).waits = d.waits := rfl
@[simp] theorem Dev.sf_nextWait (d : Dev) (r : Reg) (x : Fld) (n : Nat) : (d.sf r x n).nextWait = d.nextWait := rfl
@[simp] theorem Dev.sf_sysArea (d : Dev) (r : Reg) (x : Fld) (n : Nat) : (d.sf r x n).sysArea = d.sysArea := rfl
@[simp] theorem Dev.sf_nor (d : Dev) (r : Reg) (x : Fld) (n : Nat) : (d.sf r x n).nor = d.nor := rfl
@[simp] theorem Dev.sf_time (d : Dev) (r : Reg) (x : Fld) (n : Nat) : (d.sf r x n).time = d.time := rfl
@[simp] theorem Dev.sf_cue (d : Dev) (r : Reg) (x : Fld) (n : Nat) : (d.sf r x n).cue = d.cue := rfl
@[simp] theorem Dev.sf_pow (d : Dev) (r : Reg) (x : Fld) (n : Nat) : (d.sf r x n).pow = d.pow := rfl
@[simp] theorem Dev.sf_eic (d : Dev) (r : Reg) (x : Fld) (n : Nat) : (d.sf r x n).eic = d.eic := rfl
@[simp] theorem Dev.sf_stew (d : Dev) (r : Reg) (x : Fld) (n : Nat) : (d.sf r x n).stew = d.stew := rfl
@[simp] theorem Dev.sf_pbu (d : Dev) (r : Reg) (x : Fld) (n : Nat) : (d.sf r x n).pbu = d.pbu := rfl
@[simp] theorem Dev.sf_fab (d : Dev) (r : Reg) (x : Fld) (n : Nat) : (d.sf r x n).fab = d.fab := rfl
@[simp] theorem Dev.sf_slu (d : Dev) (r : Reg) (x : Fld) (n : Nat) : (d.sf r x n).slu = d.slu := rfl
@[simp] theorem Dev.sf_kv (d : Dev) (r : Reg) (x : Fld) (n : Nat) : (d.sf r x n).kv = d.kv := rfl
@[simp] theorem Dev.sf_cam (d : Dev) (r : Reg) (x : Fld) (n : Nat) : (d.sf r x n).cam = d.cam := rfl
@[simp] theorem Dev.sf_fus (d : Dev) (r : Reg) (x : Fld) (n : Nat) : (d.sf r x n).fus = d.fus := rfl
@[simp] theorem Dev.sf_plan (d : Dev) (r : Reg) (x : Fld) (n : Nat) : (d.sf r x n).plan = d.plan := rfl
@[simp] theorem Dev.sf_le (d : Dev) (r : Reg) (x : Fld) (n : Nat) : (d.sf r x n).le = d.le := rfl
@[simp] theorem Dev.sf_ss (d : Dev) (r : Reg) (x : Fld) (n : Nat) : (d.sf r x n).ss = d.ss := rfl
@[simp] theorem Dev.sf_io (d : Dev) (r : Reg) (x : Fld) (n : Nat) : (d.sf r x n).io = d.io := rfl
@[simp] theorem Dev.sf_cnl (d : Dev) (r : Reg) (x : Fld) (n : Nat) : (d.sf r x n).cnl = d.cnl := rfl
@[simp] theorem Dev.sf_dbg (d : Dev) (r : Reg) (x : Fld) (n : Nat) : (d.sf r x n).dbg = d.dbg := rfl
@[simp] theorem Dev.sf_cells (d : Dev) (r : Reg) (x : Fld) (n : Nat) : (d.sf r x n).cells = d.cells := rfl
@[simp] theorem Dev.sf_cellRes (d : Dev) (r : Reg) (x : Fld) (n : Nat) : (d.sf r x n).cellRes = d.cellRes := rfl
@[simp] theorem Dev.sf_mc (d : Dev) (r : Reg) (x : Fld) (n : Nat) : (d.sf r x n).mc = d.mc := rfl
@[simp] theorem Dev.sf_cores (d : Dev) (r : Reg) (x : Fld) (n : Nat) : (d.sf r x n).cores = d.cores := rfl
@[simp] theorem Dev.sf_idn (d : Dev) (r : Reg) (x : Fld) (n : Nat) : (d.sf r x n).idn = d.idn := rfl

/-! ### incSat -/

@[simp] theorem Dev.incSat_recs (d : Dev) (r : Reg) (x : Fld) : (d.incSat r x).recs = d.recs := rfl
@[simp] theorem Dev.incSat_cnt (d : Dev) (r : Reg) (x : Fld) : (d.incSat r x).cnt = d.cnt := rfl
@[simp] theorem Dev.incSat_free (d : Dev) (r : Reg) (x : Fld) : (d.incSat r x).free = d.free := rfl
@[simp] theorem Dev.incSat_bus (d : Dev) (r : Reg) (x : Fld) : (d.incSat r x).bus = d.bus := rfl
@[simp] theorem Dev.incSat_module (d : Dev) (r : Reg) (x : Fld) : (d.incSat r x).module = d.module := rfl
@[simp] theorem Dev.incSat_mem (d : Dev) (r : Reg) (x : Fld) : (d.incSat r x).mem = d.mem := rfl
@[simp] theorem Dev.incSat_grants (d : Dev) (r : Reg) (x : Fld) : (d.incSat r x).grants = d.grants := rfl
@[simp] theorem Dev.incSat_waits (d : Dev) (r : Reg) (x : Fld) : (d.incSat r x).waits = d.waits := rfl
@[simp] theorem Dev.incSat_nextWait (d : Dev) (r : Reg) (x : Fld) : (d.incSat r x).nextWait = d.nextWait := rfl
@[simp] theorem Dev.incSat_sysArea (d : Dev) (r : Reg) (x : Fld) : (d.incSat r x).sysArea = d.sysArea := rfl
@[simp] theorem Dev.incSat_nor (d : Dev) (r : Reg) (x : Fld) : (d.incSat r x).nor = d.nor := rfl
@[simp] theorem Dev.incSat_time (d : Dev) (r : Reg) (x : Fld) : (d.incSat r x).time = d.time := rfl
@[simp] theorem Dev.incSat_cue (d : Dev) (r : Reg) (x : Fld) : (d.incSat r x).cue = d.cue := rfl
@[simp] theorem Dev.incSat_pow (d : Dev) (r : Reg) (x : Fld) : (d.incSat r x).pow = d.pow := rfl
@[simp] theorem Dev.incSat_eic (d : Dev) (r : Reg) (x : Fld) : (d.incSat r x).eic = d.eic := rfl
@[simp] theorem Dev.incSat_stew (d : Dev) (r : Reg) (x : Fld) : (d.incSat r x).stew = d.stew := rfl
@[simp] theorem Dev.incSat_pbu (d : Dev) (r : Reg) (x : Fld) : (d.incSat r x).pbu = d.pbu := rfl
@[simp] theorem Dev.incSat_fab (d : Dev) (r : Reg) (x : Fld) : (d.incSat r x).fab = d.fab := rfl
@[simp] theorem Dev.incSat_slu (d : Dev) (r : Reg) (x : Fld) : (d.incSat r x).slu = d.slu := rfl
@[simp] theorem Dev.incSat_kv (d : Dev) (r : Reg) (x : Fld) : (d.incSat r x).kv = d.kv := rfl
@[simp] theorem Dev.incSat_cam (d : Dev) (r : Reg) (x : Fld) : (d.incSat r x).cam = d.cam := rfl
@[simp] theorem Dev.incSat_fus (d : Dev) (r : Reg) (x : Fld) : (d.incSat r x).fus = d.fus := rfl
@[simp] theorem Dev.incSat_plan (d : Dev) (r : Reg) (x : Fld) : (d.incSat r x).plan = d.plan := rfl
@[simp] theorem Dev.incSat_le (d : Dev) (r : Reg) (x : Fld) : (d.incSat r x).le = d.le := rfl
@[simp] theorem Dev.incSat_ss (d : Dev) (r : Reg) (x : Fld) : (d.incSat r x).ss = d.ss := rfl
@[simp] theorem Dev.incSat_io (d : Dev) (r : Reg) (x : Fld) : (d.incSat r x).io = d.io := rfl
@[simp] theorem Dev.incSat_cnl (d : Dev) (r : Reg) (x : Fld) : (d.incSat r x).cnl = d.cnl := rfl
@[simp] theorem Dev.incSat_dbg (d : Dev) (r : Reg) (x : Fld) : (d.incSat r x).dbg = d.dbg := rfl
@[simp] theorem Dev.incSat_cells (d : Dev) (r : Reg) (x : Fld) : (d.incSat r x).cells = d.cells := rfl
@[simp] theorem Dev.incSat_cellRes (d : Dev) (r : Reg) (x : Fld) : (d.incSat r x).cellRes = d.cellRes := rfl
@[simp] theorem Dev.incSat_mc (d : Dev) (r : Reg) (x : Fld) : (d.incSat r x).mc = d.mc := rfl
@[simp] theorem Dev.incSat_cores (d : Dev) (r : Reg) (x : Fld) : (d.incSat r x).cores = d.cores := rfl
@[simp] theorem Dev.incSat_idn (d : Dev) (r : Reg) (x : Fld) : (d.incSat r x).idn = d.idn := rfl

/-! ### addSat -/

@[simp] theorem Dev.addSat_recs (d : Dev) (r : Reg) (x : Fld) (k : Nat) : (d.addSat r x k).recs = d.recs := rfl
@[simp] theorem Dev.addSat_cnt (d : Dev) (r : Reg) (x : Fld) (k : Nat) : (d.addSat r x k).cnt = d.cnt := rfl
@[simp] theorem Dev.addSat_free (d : Dev) (r : Reg) (x : Fld) (k : Nat) : (d.addSat r x k).free = d.free := rfl
@[simp] theorem Dev.addSat_bus (d : Dev) (r : Reg) (x : Fld) (k : Nat) : (d.addSat r x k).bus = d.bus := rfl
@[simp] theorem Dev.addSat_module (d : Dev) (r : Reg) (x : Fld) (k : Nat) : (d.addSat r x k).module = d.module := rfl
@[simp] theorem Dev.addSat_mem (d : Dev) (r : Reg) (x : Fld) (k : Nat) : (d.addSat r x k).mem = d.mem := rfl
@[simp] theorem Dev.addSat_grants (d : Dev) (r : Reg) (x : Fld) (k : Nat) : (d.addSat r x k).grants = d.grants := rfl
@[simp] theorem Dev.addSat_waits (d : Dev) (r : Reg) (x : Fld) (k : Nat) : (d.addSat r x k).waits = d.waits := rfl
@[simp] theorem Dev.addSat_nextWait (d : Dev) (r : Reg) (x : Fld) (k : Nat) : (d.addSat r x k).nextWait = d.nextWait := rfl
@[simp] theorem Dev.addSat_sysArea (d : Dev) (r : Reg) (x : Fld) (k : Nat) : (d.addSat r x k).sysArea = d.sysArea := rfl
@[simp] theorem Dev.addSat_nor (d : Dev) (r : Reg) (x : Fld) (k : Nat) : (d.addSat r x k).nor = d.nor := rfl
@[simp] theorem Dev.addSat_time (d : Dev) (r : Reg) (x : Fld) (k : Nat) : (d.addSat r x k).time = d.time := rfl
@[simp] theorem Dev.addSat_cue (d : Dev) (r : Reg) (x : Fld) (k : Nat) : (d.addSat r x k).cue = d.cue := rfl
@[simp] theorem Dev.addSat_pow (d : Dev) (r : Reg) (x : Fld) (k : Nat) : (d.addSat r x k).pow = d.pow := rfl
@[simp] theorem Dev.addSat_eic (d : Dev) (r : Reg) (x : Fld) (k : Nat) : (d.addSat r x k).eic = d.eic := rfl
@[simp] theorem Dev.addSat_stew (d : Dev) (r : Reg) (x : Fld) (k : Nat) : (d.addSat r x k).stew = d.stew := rfl
@[simp] theorem Dev.addSat_pbu (d : Dev) (r : Reg) (x : Fld) (k : Nat) : (d.addSat r x k).pbu = d.pbu := rfl
@[simp] theorem Dev.addSat_fab (d : Dev) (r : Reg) (x : Fld) (k : Nat) : (d.addSat r x k).fab = d.fab := rfl
@[simp] theorem Dev.addSat_slu (d : Dev) (r : Reg) (x : Fld) (k : Nat) : (d.addSat r x k).slu = d.slu := rfl
@[simp] theorem Dev.addSat_kv (d : Dev) (r : Reg) (x : Fld) (k : Nat) : (d.addSat r x k).kv = d.kv := rfl
@[simp] theorem Dev.addSat_cam (d : Dev) (r : Reg) (x : Fld) (k : Nat) : (d.addSat r x k).cam = d.cam := rfl
@[simp] theorem Dev.addSat_fus (d : Dev) (r : Reg) (x : Fld) (k : Nat) : (d.addSat r x k).fus = d.fus := rfl
@[simp] theorem Dev.addSat_plan (d : Dev) (r : Reg) (x : Fld) (k : Nat) : (d.addSat r x k).plan = d.plan := rfl
@[simp] theorem Dev.addSat_le (d : Dev) (r : Reg) (x : Fld) (k : Nat) : (d.addSat r x k).le = d.le := rfl
@[simp] theorem Dev.addSat_ss (d : Dev) (r : Reg) (x : Fld) (k : Nat) : (d.addSat r x k).ss = d.ss := rfl
@[simp] theorem Dev.addSat_io (d : Dev) (r : Reg) (x : Fld) (k : Nat) : (d.addSat r x k).io = d.io := rfl
@[simp] theorem Dev.addSat_cnl (d : Dev) (r : Reg) (x : Fld) (k : Nat) : (d.addSat r x k).cnl = d.cnl := rfl
@[simp] theorem Dev.addSat_dbg (d : Dev) (r : Reg) (x : Fld) (k : Nat) : (d.addSat r x k).dbg = d.dbg := rfl
@[simp] theorem Dev.addSat_cells (d : Dev) (r : Reg) (x : Fld) (k : Nat) : (d.addSat r x k).cells = d.cells := rfl
@[simp] theorem Dev.addSat_cellRes (d : Dev) (r : Reg) (x : Fld) (k : Nat) : (d.addSat r x k).cellRes = d.cellRes := rfl
@[simp] theorem Dev.addSat_mc (d : Dev) (r : Reg) (x : Fld) (k : Nat) : (d.addSat r x k).mc = d.mc := rfl
@[simp] theorem Dev.addSat_cores (d : Dev) (r : Reg) (x : Fld) (k : Nat) : (d.addSat r x k).cores = d.cores := rfl
@[simp] theorem Dev.addSat_idn (d : Dev) (r : Reg) (x : Fld) (k : Nat) : (d.addSat r x k).idn = d.idn := rfl

/-! ### setBit -/

@[simp] theorem Dev.setBit_recs (d : Dev) (r : Reg) (x : Fld) (i : Nat) : (d.setBit r x i).recs = d.recs := rfl
@[simp] theorem Dev.setBit_cnt (d : Dev) (r : Reg) (x : Fld) (i : Nat) : (d.setBit r x i).cnt = d.cnt := rfl
@[simp] theorem Dev.setBit_free (d : Dev) (r : Reg) (x : Fld) (i : Nat) : (d.setBit r x i).free = d.free := rfl
@[simp] theorem Dev.setBit_bus (d : Dev) (r : Reg) (x : Fld) (i : Nat) : (d.setBit r x i).bus = d.bus := rfl
@[simp] theorem Dev.setBit_module (d : Dev) (r : Reg) (x : Fld) (i : Nat) : (d.setBit r x i).module = d.module := rfl
@[simp] theorem Dev.setBit_mem (d : Dev) (r : Reg) (x : Fld) (i : Nat) : (d.setBit r x i).mem = d.mem := rfl
@[simp] theorem Dev.setBit_grants (d : Dev) (r : Reg) (x : Fld) (i : Nat) : (d.setBit r x i).grants = d.grants := rfl
@[simp] theorem Dev.setBit_waits (d : Dev) (r : Reg) (x : Fld) (i : Nat) : (d.setBit r x i).waits = d.waits := rfl
@[simp] theorem Dev.setBit_nextWait (d : Dev) (r : Reg) (x : Fld) (i : Nat) : (d.setBit r x i).nextWait = d.nextWait := rfl
@[simp] theorem Dev.setBit_sysArea (d : Dev) (r : Reg) (x : Fld) (i : Nat) : (d.setBit r x i).sysArea = d.sysArea := rfl
@[simp] theorem Dev.setBit_nor (d : Dev) (r : Reg) (x : Fld) (i : Nat) : (d.setBit r x i).nor = d.nor := rfl
@[simp] theorem Dev.setBit_time (d : Dev) (r : Reg) (x : Fld) (i : Nat) : (d.setBit r x i).time = d.time := rfl
@[simp] theorem Dev.setBit_cue (d : Dev) (r : Reg) (x : Fld) (i : Nat) : (d.setBit r x i).cue = d.cue := rfl
@[simp] theorem Dev.setBit_pow (d : Dev) (r : Reg) (x : Fld) (i : Nat) : (d.setBit r x i).pow = d.pow := rfl
@[simp] theorem Dev.setBit_eic (d : Dev) (r : Reg) (x : Fld) (i : Nat) : (d.setBit r x i).eic = d.eic := rfl
@[simp] theorem Dev.setBit_stew (d : Dev) (r : Reg) (x : Fld) (i : Nat) : (d.setBit r x i).stew = d.stew := rfl
@[simp] theorem Dev.setBit_pbu (d : Dev) (r : Reg) (x : Fld) (i : Nat) : (d.setBit r x i).pbu = d.pbu := rfl
@[simp] theorem Dev.setBit_fab (d : Dev) (r : Reg) (x : Fld) (i : Nat) : (d.setBit r x i).fab = d.fab := rfl
@[simp] theorem Dev.setBit_slu (d : Dev) (r : Reg) (x : Fld) (i : Nat) : (d.setBit r x i).slu = d.slu := rfl
@[simp] theorem Dev.setBit_kv (d : Dev) (r : Reg) (x : Fld) (i : Nat) : (d.setBit r x i).kv = d.kv := rfl
@[simp] theorem Dev.setBit_cam (d : Dev) (r : Reg) (x : Fld) (i : Nat) : (d.setBit r x i).cam = d.cam := rfl
@[simp] theorem Dev.setBit_fus (d : Dev) (r : Reg) (x : Fld) (i : Nat) : (d.setBit r x i).fus = d.fus := rfl
@[simp] theorem Dev.setBit_plan (d : Dev) (r : Reg) (x : Fld) (i : Nat) : (d.setBit r x i).plan = d.plan := rfl
@[simp] theorem Dev.setBit_le (d : Dev) (r : Reg) (x : Fld) (i : Nat) : (d.setBit r x i).le = d.le := rfl
@[simp] theorem Dev.setBit_ss (d : Dev) (r : Reg) (x : Fld) (i : Nat) : (d.setBit r x i).ss = d.ss := rfl
@[simp] theorem Dev.setBit_io (d : Dev) (r : Reg) (x : Fld) (i : Nat) : (d.setBit r x i).io = d.io := rfl
@[simp] theorem Dev.setBit_cnl (d : Dev) (r : Reg) (x : Fld) (i : Nat) : (d.setBit r x i).cnl = d.cnl := rfl
@[simp] theorem Dev.setBit_dbg (d : Dev) (r : Reg) (x : Fld) (i : Nat) : (d.setBit r x i).dbg = d.dbg := rfl
@[simp] theorem Dev.setBit_cells (d : Dev) (r : Reg) (x : Fld) (i : Nat) : (d.setBit r x i).cells = d.cells := rfl
@[simp] theorem Dev.setBit_cellRes (d : Dev) (r : Reg) (x : Fld) (i : Nat) : (d.setBit r x i).cellRes = d.cellRes := rfl
@[simp] theorem Dev.setBit_mc (d : Dev) (r : Reg) (x : Fld) (i : Nat) : (d.setBit r x i).mc = d.mc := rfl
@[simp] theorem Dev.setBit_cores (d : Dev) (r : Reg) (x : Fld) (i : Nat) : (d.setBit r x i).cores = d.cores := rfl
@[simp] theorem Dev.setBit_idn (d : Dev) (r : Reg) (x : Fld) (i : Nat) : (d.setBit r x i).idn = d.idn := rfl

/-! ### clrBit -/

@[simp] theorem Dev.clrBit_recs (d : Dev) (r : Reg) (x : Fld) (i : Nat) : (d.clrBit r x i).recs = d.recs := rfl
@[simp] theorem Dev.clrBit_cnt (d : Dev) (r : Reg) (x : Fld) (i : Nat) : (d.clrBit r x i).cnt = d.cnt := rfl
@[simp] theorem Dev.clrBit_free (d : Dev) (r : Reg) (x : Fld) (i : Nat) : (d.clrBit r x i).free = d.free := rfl
@[simp] theorem Dev.clrBit_bus (d : Dev) (r : Reg) (x : Fld) (i : Nat) : (d.clrBit r x i).bus = d.bus := rfl
@[simp] theorem Dev.clrBit_module (d : Dev) (r : Reg) (x : Fld) (i : Nat) : (d.clrBit r x i).module = d.module := rfl
@[simp] theorem Dev.clrBit_mem (d : Dev) (r : Reg) (x : Fld) (i : Nat) : (d.clrBit r x i).mem = d.mem := rfl
@[simp] theorem Dev.clrBit_grants (d : Dev) (r : Reg) (x : Fld) (i : Nat) : (d.clrBit r x i).grants = d.grants := rfl
@[simp] theorem Dev.clrBit_waits (d : Dev) (r : Reg) (x : Fld) (i : Nat) : (d.clrBit r x i).waits = d.waits := rfl
@[simp] theorem Dev.clrBit_nextWait (d : Dev) (r : Reg) (x : Fld) (i : Nat) : (d.clrBit r x i).nextWait = d.nextWait := rfl
@[simp] theorem Dev.clrBit_sysArea (d : Dev) (r : Reg) (x : Fld) (i : Nat) : (d.clrBit r x i).sysArea = d.sysArea := rfl
@[simp] theorem Dev.clrBit_nor (d : Dev) (r : Reg) (x : Fld) (i : Nat) : (d.clrBit r x i).nor = d.nor := rfl
@[simp] theorem Dev.clrBit_time (d : Dev) (r : Reg) (x : Fld) (i : Nat) : (d.clrBit r x i).time = d.time := rfl
@[simp] theorem Dev.clrBit_cue (d : Dev) (r : Reg) (x : Fld) (i : Nat) : (d.clrBit r x i).cue = d.cue := rfl
@[simp] theorem Dev.clrBit_pow (d : Dev) (r : Reg) (x : Fld) (i : Nat) : (d.clrBit r x i).pow = d.pow := rfl
@[simp] theorem Dev.clrBit_eic (d : Dev) (r : Reg) (x : Fld) (i : Nat) : (d.clrBit r x i).eic = d.eic := rfl
@[simp] theorem Dev.clrBit_stew (d : Dev) (r : Reg) (x : Fld) (i : Nat) : (d.clrBit r x i).stew = d.stew := rfl
@[simp] theorem Dev.clrBit_pbu (d : Dev) (r : Reg) (x : Fld) (i : Nat) : (d.clrBit r x i).pbu = d.pbu := rfl
@[simp] theorem Dev.clrBit_fab (d : Dev) (r : Reg) (x : Fld) (i : Nat) : (d.clrBit r x i).fab = d.fab := rfl
@[simp] theorem Dev.clrBit_slu (d : Dev) (r : Reg) (x : Fld) (i : Nat) : (d.clrBit r x i).slu = d.slu := rfl
@[simp] theorem Dev.clrBit_kv (d : Dev) (r : Reg) (x : Fld) (i : Nat) : (d.clrBit r x i).kv = d.kv := rfl
@[simp] theorem Dev.clrBit_cam (d : Dev) (r : Reg) (x : Fld) (i : Nat) : (d.clrBit r x i).cam = d.cam := rfl
@[simp] theorem Dev.clrBit_fus (d : Dev) (r : Reg) (x : Fld) (i : Nat) : (d.clrBit r x i).fus = d.fus := rfl
@[simp] theorem Dev.clrBit_plan (d : Dev) (r : Reg) (x : Fld) (i : Nat) : (d.clrBit r x i).plan = d.plan := rfl
@[simp] theorem Dev.clrBit_le (d : Dev) (r : Reg) (x : Fld) (i : Nat) : (d.clrBit r x i).le = d.le := rfl
@[simp] theorem Dev.clrBit_ss (d : Dev) (r : Reg) (x : Fld) (i : Nat) : (d.clrBit r x i).ss = d.ss := rfl
@[simp] theorem Dev.clrBit_io (d : Dev) (r : Reg) (x : Fld) (i : Nat) : (d.clrBit r x i).io = d.io := rfl
@[simp] theorem Dev.clrBit_cnl (d : Dev) (r : Reg) (x : Fld) (i : Nat) : (d.clrBit r x i).cnl = d.cnl := rfl
@[simp] theorem Dev.clrBit_dbg (d : Dev) (r : Reg) (x : Fld) (i : Nat) : (d.clrBit r x i).dbg = d.dbg := rfl
@[simp] theorem Dev.clrBit_cells (d : Dev) (r : Reg) (x : Fld) (i : Nat) : (d.clrBit r x i).cells = d.cells := rfl
@[simp] theorem Dev.clrBit_cellRes (d : Dev) (r : Reg) (x : Fld) (i : Nat) : (d.clrBit r x i).cellRes = d.cellRes := rfl
@[simp] theorem Dev.clrBit_mc (d : Dev) (r : Reg) (x : Fld) (i : Nat) : (d.clrBit r x i).mc = d.mc := rfl
@[simp] theorem Dev.clrBit_cores (d : Dev) (r : Reg) (x : Fld) (i : Nat) : (d.clrBit r x i).cores = d.cores := rfl
@[simp] theorem Dev.clrBit_idn (d : Dev) (r : Reg) (x : Fld) (i : Nat) : (d.clrBit r x i).idn = d.idn := rfl

/-! ### log -/

@[simp] theorem Dev.log_regs (d : Dev) (x : Rec) : (d.log x).regs = d.regs := rfl
@[simp] theorem Dev.log_cnt (d : Dev) (x : Rec) : (d.log x).cnt = d.cnt := rfl
@[simp] theorem Dev.log_free (d : Dev) (x : Rec) : (d.log x).free = d.free := rfl
@[simp] theorem Dev.log_bus (d : Dev) (x : Rec) : (d.log x).bus = d.bus := rfl
@[simp] theorem Dev.log_module (d : Dev) (x : Rec) : (d.log x).module = d.module := rfl
@[simp] theorem Dev.log_mem (d : Dev) (x : Rec) : (d.log x).mem = d.mem := rfl
@[simp] theorem Dev.log_grants (d : Dev) (x : Rec) : (d.log x).grants = d.grants := rfl
@[simp] theorem Dev.log_waits (d : Dev) (x : Rec) : (d.log x).waits = d.waits := rfl
@[simp] theorem Dev.log_nextWait (d : Dev) (x : Rec) : (d.log x).nextWait = d.nextWait := rfl
@[simp] theorem Dev.log_sysArea (d : Dev) (x : Rec) : (d.log x).sysArea = d.sysArea := rfl
@[simp] theorem Dev.log_nor (d : Dev) (x : Rec) : (d.log x).nor = d.nor := rfl
@[simp] theorem Dev.log_time (d : Dev) (x : Rec) : (d.log x).time = d.time := rfl
@[simp] theorem Dev.log_cue (d : Dev) (x : Rec) : (d.log x).cue = d.cue := rfl
@[simp] theorem Dev.log_pow (d : Dev) (x : Rec) : (d.log x).pow = d.pow := rfl
@[simp] theorem Dev.log_eic (d : Dev) (x : Rec) : (d.log x).eic = d.eic := rfl
@[simp] theorem Dev.log_stew (d : Dev) (x : Rec) : (d.log x).stew = d.stew := rfl
@[simp] theorem Dev.log_pbu (d : Dev) (x : Rec) : (d.log x).pbu = d.pbu := rfl
@[simp] theorem Dev.log_fab (d : Dev) (x : Rec) : (d.log x).fab = d.fab := rfl
@[simp] theorem Dev.log_slu (d : Dev) (x : Rec) : (d.log x).slu = d.slu := rfl
@[simp] theorem Dev.log_kv (d : Dev) (x : Rec) : (d.log x).kv = d.kv := rfl
@[simp] theorem Dev.log_cam (d : Dev) (x : Rec) : (d.log x).cam = d.cam := rfl
@[simp] theorem Dev.log_fus (d : Dev) (x : Rec) : (d.log x).fus = d.fus := rfl
@[simp] theorem Dev.log_plan (d : Dev) (x : Rec) : (d.log x).plan = d.plan := rfl
@[simp] theorem Dev.log_le (d : Dev) (x : Rec) : (d.log x).le = d.le := rfl
@[simp] theorem Dev.log_ss (d : Dev) (x : Rec) : (d.log x).ss = d.ss := rfl
@[simp] theorem Dev.log_io (d : Dev) (x : Rec) : (d.log x).io = d.io := rfl
@[simp] theorem Dev.log_cnl (d : Dev) (x : Rec) : (d.log x).cnl = d.cnl := rfl
@[simp] theorem Dev.log_dbg (d : Dev) (x : Rec) : (d.log x).dbg = d.dbg := rfl
@[simp] theorem Dev.log_cells (d : Dev) (x : Rec) : (d.log x).cells = d.cells := rfl
@[simp] theorem Dev.log_cellRes (d : Dev) (x : Rec) : (d.log x).cellRes = d.cellRes := rfl
@[simp] theorem Dev.log_mc (d : Dev) (x : Rec) : (d.log x).mc = d.mc := rfl
@[simp] theorem Dev.log_cores (d : Dev) (x : Rec) : (d.log x).cores = d.cores := rfl
@[simp] theorem Dev.log_idn (d : Dev) (x : Rec) : (d.log x).idn = d.idn := rfl

/-! ### draw.2 -/

@[simp] theorem Dev.draw_2_regs (d : Dev) (x dt : Nat) : (d.draw x dt).2.regs = d.regs := rfl
@[simp] theorem Dev.draw_2_recs (d : Dev) (x dt : Nat) : (d.draw x dt).2.recs = d.recs := rfl
@[simp] theorem Dev.draw_2_free (d : Dev) (x dt : Nat) : (d.draw x dt).2.free = d.free := rfl
@[simp] theorem Dev.draw_2_bus (d : Dev) (x dt : Nat) : (d.draw x dt).2.bus = d.bus := rfl
@[simp] theorem Dev.draw_2_module (d : Dev) (x dt : Nat) : (d.draw x dt).2.module = d.module := rfl
@[simp] theorem Dev.draw_2_mem (d : Dev) (x dt : Nat) : (d.draw x dt).2.mem = d.mem := rfl
@[simp] theorem Dev.draw_2_grants (d : Dev) (x dt : Nat) : (d.draw x dt).2.grants = d.grants := rfl
@[simp] theorem Dev.draw_2_waits (d : Dev) (x dt : Nat) : (d.draw x dt).2.waits = d.waits := rfl
@[simp] theorem Dev.draw_2_nextWait (d : Dev) (x dt : Nat) : (d.draw x dt).2.nextWait = d.nextWait := rfl
@[simp] theorem Dev.draw_2_sysArea (d : Dev) (x dt : Nat) : (d.draw x dt).2.sysArea = d.sysArea := rfl
@[simp] theorem Dev.draw_2_nor (d : Dev) (x dt : Nat) : (d.draw x dt).2.nor = d.nor := rfl
@[simp] theorem Dev.draw_2_time (d : Dev) (x dt : Nat) : (d.draw x dt).2.time = d.time := rfl
@[simp] theorem Dev.draw_2_cue (d : Dev) (x dt : Nat) : (d.draw x dt).2.cue = d.cue := rfl
@[simp] theorem Dev.draw_2_pow (d : Dev) (x dt : Nat) : (d.draw x dt).2.pow = d.pow := rfl
@[simp] theorem Dev.draw_2_eic (d : Dev) (x dt : Nat) : (d.draw x dt).2.eic = d.eic := rfl
@[simp] theorem Dev.draw_2_stew (d : Dev) (x dt : Nat) : (d.draw x dt).2.stew = d.stew := rfl
@[simp] theorem Dev.draw_2_pbu (d : Dev) (x dt : Nat) : (d.draw x dt).2.pbu = d.pbu := rfl
@[simp] theorem Dev.draw_2_fab (d : Dev) (x dt : Nat) : (d.draw x dt).2.fab = d.fab := rfl
@[simp] theorem Dev.draw_2_slu (d : Dev) (x dt : Nat) : (d.draw x dt).2.slu = d.slu := rfl
@[simp] theorem Dev.draw_2_kv (d : Dev) (x dt : Nat) : (d.draw x dt).2.kv = d.kv := rfl
@[simp] theorem Dev.draw_2_cam (d : Dev) (x dt : Nat) : (d.draw x dt).2.cam = d.cam := rfl
@[simp] theorem Dev.draw_2_fus (d : Dev) (x dt : Nat) : (d.draw x dt).2.fus = d.fus := rfl
@[simp] theorem Dev.draw_2_plan (d : Dev) (x dt : Nat) : (d.draw x dt).2.plan = d.plan := rfl
@[simp] theorem Dev.draw_2_le (d : Dev) (x dt : Nat) : (d.draw x dt).2.le = d.le := rfl
@[simp] theorem Dev.draw_2_ss (d : Dev) (x dt : Nat) : (d.draw x dt).2.ss = d.ss := rfl
@[simp] theorem Dev.draw_2_io (d : Dev) (x dt : Nat) : (d.draw x dt).2.io = d.io := rfl
@[simp] theorem Dev.draw_2_cnl (d : Dev) (x dt : Nat) : (d.draw x dt).2.cnl = d.cnl := rfl
@[simp] theorem Dev.draw_2_dbg (d : Dev) (x dt : Nat) : (d.draw x dt).2.dbg = d.dbg := rfl
@[simp] theorem Dev.draw_2_cells (d : Dev) (x dt : Nat) : (d.draw x dt).2.cells = d.cells := rfl
@[simp] theorem Dev.draw_2_cellRes (d : Dev) (x dt : Nat) : (d.draw x dt).2.cellRes = d.cellRes := rfl
@[simp] theorem Dev.draw_2_mc (d : Dev) (x dt : Nat) : (d.draw x dt).2.mc = d.mc := rfl
@[simp] theorem Dev.draw_2_cores (d : Dev) (x dt : Nat) : (d.draw x dt).2.cores = d.cores := rfl
@[simp] theorem Dev.draw_2_idn (d : Dev) (x dt : Nat) : (d.draw x dt).2.idn = d.idn := rfl

/-! ### emit -/

@[simp] theorem Dev.emit_regs (d : Dev) (x dt : Nat) (k : RecKind) (u : Bool) (b : List Nat) : (d.emit x dt k u b).regs = d.regs := rfl
@[simp] theorem Dev.emit_free (d : Dev) (x dt : Nat) (k : RecKind) (u : Bool) (b : List Nat) : (d.emit x dt k u b).free = d.free := rfl
@[simp] theorem Dev.emit_bus (d : Dev) (x dt : Nat) (k : RecKind) (u : Bool) (b : List Nat) : (d.emit x dt k u b).bus = d.bus := rfl
@[simp] theorem Dev.emit_module (d : Dev) (x dt : Nat) (k : RecKind) (u : Bool) (b : List Nat) : (d.emit x dt k u b).module = d.module := rfl
@[simp] theorem Dev.emit_mem (d : Dev) (x dt : Nat) (k : RecKind) (u : Bool) (b : List Nat) : (d.emit x dt k u b).mem = d.mem := rfl
@[simp] theorem Dev.emit_grants (d : Dev) (x dt : Nat) (k : RecKind) (u : Bool) (b : List Nat) : (d.emit x dt k u b).grants = d.grants := rfl
@[simp] theorem Dev.emit_waits (d : Dev) (x dt : Nat) (k : RecKind) (u : Bool) (b : List Nat) : (d.emit x dt k u b).waits = d.waits := rfl
@[simp] theorem Dev.emit_nextWait (d : Dev) (x dt : Nat) (k : RecKind) (u : Bool) (b : List Nat) : (d.emit x dt k u b).nextWait = d.nextWait := rfl
@[simp] theorem Dev.emit_sysArea (d : Dev) (x dt : Nat) (k : RecKind) (u : Bool) (b : List Nat) : (d.emit x dt k u b).sysArea = d.sysArea := rfl
@[simp] theorem Dev.emit_nor (d : Dev) (x dt : Nat) (k : RecKind) (u : Bool) (b : List Nat) : (d.emit x dt k u b).nor = d.nor := rfl
@[simp] theorem Dev.emit_time (d : Dev) (x dt : Nat) (k : RecKind) (u : Bool) (b : List Nat) : (d.emit x dt k u b).time = d.time := rfl
@[simp] theorem Dev.emit_cue (d : Dev) (x dt : Nat) (k : RecKind) (u : Bool) (b : List Nat) : (d.emit x dt k u b).cue = d.cue := rfl
@[simp] theorem Dev.emit_pow (d : Dev) (x dt : Nat) (k : RecKind) (u : Bool) (b : List Nat) : (d.emit x dt k u b).pow = d.pow := rfl
@[simp] theorem Dev.emit_eic (d : Dev) (x dt : Nat) (k : RecKind) (u : Bool) (b : List Nat) : (d.emit x dt k u b).eic = d.eic := rfl
@[simp] theorem Dev.emit_stew (d : Dev) (x dt : Nat) (k : RecKind) (u : Bool) (b : List Nat) : (d.emit x dt k u b).stew = d.stew := rfl
@[simp] theorem Dev.emit_pbu (d : Dev) (x dt : Nat) (k : RecKind) (u : Bool) (b : List Nat) : (d.emit x dt k u b).pbu = d.pbu := rfl
@[simp] theorem Dev.emit_fab (d : Dev) (x dt : Nat) (k : RecKind) (u : Bool) (b : List Nat) : (d.emit x dt k u b).fab = d.fab := rfl
@[simp] theorem Dev.emit_slu (d : Dev) (x dt : Nat) (k : RecKind) (u : Bool) (b : List Nat) : (d.emit x dt k u b).slu = d.slu := rfl
@[simp] theorem Dev.emit_kv (d : Dev) (x dt : Nat) (k : RecKind) (u : Bool) (b : List Nat) : (d.emit x dt k u b).kv = d.kv := rfl
@[simp] theorem Dev.emit_cam (d : Dev) (x dt : Nat) (k : RecKind) (u : Bool) (b : List Nat) : (d.emit x dt k u b).cam = d.cam := rfl
@[simp] theorem Dev.emit_fus (d : Dev) (x dt : Nat) (k : RecKind) (u : Bool) (b : List Nat) : (d.emit x dt k u b).fus = d.fus := rfl
@[simp] theorem Dev.emit_plan (d : Dev) (x dt : Nat) (k : RecKind) (u : Bool) (b : List Nat) : (d.emit x dt k u b).plan = d.plan := rfl
@[simp] theorem Dev.emit_le (d : Dev) (x dt : Nat) (k : RecKind) (u : Bool) (b : List Nat) : (d.emit x dt k u b).le = d.le := rfl
@[simp] theorem Dev.emit_ss (d : Dev) (x dt : Nat) (k : RecKind) (u : Bool) (b : List Nat) : (d.emit x dt k u b).ss = d.ss := rfl
@[simp] theorem Dev.emit_io (d : Dev) (x dt : Nat) (k : RecKind) (u : Bool) (b : List Nat) : (d.emit x dt k u b).io = d.io := rfl
@[simp] theorem Dev.emit_cnl (d : Dev) (x dt : Nat) (k : RecKind) (u : Bool) (b : List Nat) : (d.emit x dt k u b).cnl = d.cnl := rfl
@[simp] theorem Dev.emit_dbg (d : Dev) (x dt : Nat) (k : RecKind) (u : Bool) (b : List Nat) : (d.emit x dt k u b).dbg = d.dbg := rfl
@[simp] theorem Dev.emit_cells (d : Dev) (x dt : Nat) (k : RecKind) (u : Bool) (b : List Nat) : (d.emit x dt k u b).cells = d.cells := rfl
@[simp] theorem Dev.emit_cellRes (d : Dev) (x dt : Nat) (k : RecKind) (u : Bool) (b : List Nat) : (d.emit x dt k u b).cellRes = d.cellRes := rfl
@[simp] theorem Dev.emit_mc (d : Dev) (x dt : Nat) (k : RecKind) (u : Bool) (b : List Nat) : (d.emit x dt k u b).mc = d.mc := rfl
@[simp] theorem Dev.emit_cores (d : Dev) (x dt : Nat) (k : RecKind) (u : Bool) (b : List Nat) : (d.emit x dt k u b).cores = d.cores := rfl
@[simp] theorem Dev.emit_idn (d : Dev) (x dt : Nat) (k : RecKind) (u : Bool) (b : List Nat) : (d.emit x dt k u b).idn = d.idn := rfl

/-! ### raise -/

@[simp] theorem Dev.raise_regs (d : Dev) (x : Nat) : (d.raise x).regs = d.regs := by unfold Dev.raise; split <;> rfl
@[simp] theorem Dev.raise_recs (d : Dev) (x : Nat) : (d.raise x).recs = d.recs := by unfold Dev.raise; split <;> rfl
@[simp] theorem Dev.raise_cnt (d : Dev) (x : Nat) : (d.raise x).cnt = d.cnt := by unfold Dev.raise; split <;> rfl
@[simp] theorem Dev.raise_free (d : Dev) (x : Nat) : (d.raise x).free = d.free := by unfold Dev.raise; split <;> rfl
@[simp] theorem Dev.raise_bus (d : Dev) (x : Nat) : (d.raise x).bus = d.bus := by unfold Dev.raise; split <;> rfl
@[simp] theorem Dev.raise_module (d : Dev) (x : Nat) : (d.raise x).module = d.module := by unfold Dev.raise; split <;> rfl
@[simp] theorem Dev.raise_mem (d : Dev) (x : Nat) : (d.raise x).mem = d.mem := by unfold Dev.raise; split <;> rfl
@[simp] theorem Dev.raise_grants (d : Dev) (x : Nat) : (d.raise x).grants = d.grants := by unfold Dev.raise; split <;> rfl
@[simp] theorem Dev.raise_waits (d : Dev) (x : Nat) : (d.raise x).waits = d.waits := by unfold Dev.raise; split <;> rfl
@[simp] theorem Dev.raise_nextWait (d : Dev) (x : Nat) : (d.raise x).nextWait = d.nextWait := by unfold Dev.raise; split <;> rfl
@[simp] theorem Dev.raise_sysArea (d : Dev) (x : Nat) : (d.raise x).sysArea = d.sysArea := by unfold Dev.raise; split <;> rfl
@[simp] theorem Dev.raise_nor (d : Dev) (x : Nat) : (d.raise x).nor = d.nor := by unfold Dev.raise; split <;> rfl
@[simp] theorem Dev.raise_time (d : Dev) (x : Nat) : (d.raise x).time = d.time := by unfold Dev.raise; split <;> rfl
@[simp] theorem Dev.raise_cue (d : Dev) (x : Nat) : (d.raise x).cue = d.cue := by unfold Dev.raise; split <;> rfl
@[simp] theorem Dev.raise_pow (d : Dev) (x : Nat) : (d.raise x).pow = d.pow := by unfold Dev.raise; split <;> rfl
@[simp] theorem Dev.raise_stew (d : Dev) (x : Nat) : (d.raise x).stew = d.stew := by unfold Dev.raise; split <;> rfl
@[simp] theorem Dev.raise_pbu (d : Dev) (x : Nat) : (d.raise x).pbu = d.pbu := by unfold Dev.raise; split <;> rfl
@[simp] theorem Dev.raise_fab (d : Dev) (x : Nat) : (d.raise x).fab = d.fab := by unfold Dev.raise; split <;> rfl
@[simp] theorem Dev.raise_slu (d : Dev) (x : Nat) : (d.raise x).slu = d.slu := by unfold Dev.raise; split <;> rfl
@[simp] theorem Dev.raise_kv (d : Dev) (x : Nat) : (d.raise x).kv = d.kv := by unfold Dev.raise; split <;> rfl
@[simp] theorem Dev.raise_cam (d : Dev) (x : Nat) : (d.raise x).cam = d.cam := by unfold Dev.raise; split <;> rfl
@[simp] theorem Dev.raise_fus (d : Dev) (x : Nat) : (d.raise x).fus = d.fus := by unfold Dev.raise; split <;> rfl
@[simp] theorem Dev.raise_plan (d : Dev) (x : Nat) : (d.raise x).plan = d.plan := by unfold Dev.raise; split <;> rfl
@[simp] theorem Dev.raise_le (d : Dev) (x : Nat) : (d.raise x).le = d.le := by unfold Dev.raise; split <;> rfl
@[simp] theorem Dev.raise_ss (d : Dev) (x : Nat) : (d.raise x).ss = d.ss := by unfold Dev.raise; split <;> rfl
@[simp] theorem Dev.raise_io (d : Dev) (x : Nat) : (d.raise x).io = d.io := by unfold Dev.raise; split <;> rfl
@[simp] theorem Dev.raise_cnl (d : Dev) (x : Nat) : (d.raise x).cnl = d.cnl := by unfold Dev.raise; split <;> rfl
@[simp] theorem Dev.raise_dbg (d : Dev) (x : Nat) : (d.raise x).dbg = d.dbg := by unfold Dev.raise; split <;> rfl
@[simp] theorem Dev.raise_cells (d : Dev) (x : Nat) : (d.raise x).cells = d.cells := by unfold Dev.raise; split <;> rfl
@[simp] theorem Dev.raise_cellRes (d : Dev) (x : Nat) : (d.raise x).cellRes = d.cellRes := by unfold Dev.raise; split <;> rfl
@[simp] theorem Dev.raise_mc (d : Dev) (x : Nat) : (d.raise x).mc = d.mc := by unfold Dev.raise; split <;> rfl
@[simp] theorem Dev.raise_cores (d : Dev) (x : Nat) : (d.raise x).cores = d.cores := by unfold Dev.raise; split <;> rfl
@[simp] theorem Dev.raise_idn (d : Dev) (x : Nat) : (d.raise x).idn = d.idn := by unfold Dev.raise; split <;> rfl

/-! ### almPost -/

@[simp] theorem Dev.almPost_regs (d : Dev) (x : AlmRec) : (d.almPost x).regs = d.regs := by unfold Dev.almPost; split <;> rfl
@[simp] theorem Dev.almPost_recs (d : Dev) (x : AlmRec) : (d.almPost x).recs = d.recs := by unfold Dev.almPost; split <;> rfl
@[simp] theorem Dev.almPost_cnt (d : Dev) (x : AlmRec) : (d.almPost x).cnt = d.cnt := by unfold Dev.almPost; split <;> rfl
@[simp] theorem Dev.almPost_free (d : Dev) (x : AlmRec) : (d.almPost x).free = d.free := by unfold Dev.almPost; split <;> rfl
@[simp] theorem Dev.almPost_bus (d : Dev) (x : AlmRec) : (d.almPost x).bus = d.bus := by unfold Dev.almPost; split <;> rfl
@[simp] theorem Dev.almPost_module (d : Dev) (x : AlmRec) : (d.almPost x).module = d.module := by unfold Dev.almPost; split <;> rfl
@[simp] theorem Dev.almPost_mem (d : Dev) (x : AlmRec) : (d.almPost x).mem = d.mem := by unfold Dev.almPost; split <;> rfl
@[simp] theorem Dev.almPost_grants (d : Dev) (x : AlmRec) : (d.almPost x).grants = d.grants := by unfold Dev.almPost; split <;> rfl
@[simp] theorem Dev.almPost_waits (d : Dev) (x : AlmRec) : (d.almPost x).waits = d.waits := by unfold Dev.almPost; split <;> rfl
@[simp] theorem Dev.almPost_nextWait (d : Dev) (x : AlmRec) : (d.almPost x).nextWait = d.nextWait := by unfold Dev.almPost; split <;> rfl
@[simp] theorem Dev.almPost_sysArea (d : Dev) (x : AlmRec) : (d.almPost x).sysArea = d.sysArea := by unfold Dev.almPost; split <;> rfl
@[simp] theorem Dev.almPost_nor (d : Dev) (x : AlmRec) : (d.almPost x).nor = d.nor := by unfold Dev.almPost; split <;> rfl
@[simp] theorem Dev.almPost_time (d : Dev) (x : AlmRec) : (d.almPost x).time = d.time := by unfold Dev.almPost; split <;> rfl
@[simp] theorem Dev.almPost_cue (d : Dev) (x : AlmRec) : (d.almPost x).cue = d.cue := by unfold Dev.almPost; split <;> rfl
@[simp] theorem Dev.almPost_pow (d : Dev) (x : AlmRec) : (d.almPost x).pow = d.pow := by unfold Dev.almPost; split <;> rfl
@[simp] theorem Dev.almPost_eic (d : Dev) (x : AlmRec) : (d.almPost x).eic = d.eic := by unfold Dev.almPost; split <;> rfl
@[simp] theorem Dev.almPost_stew (d : Dev) (x : AlmRec) : (d.almPost x).stew = d.stew := by unfold Dev.almPost; split <;> rfl
@[simp] theorem Dev.almPost_pbu (d : Dev) (x : AlmRec) : (d.almPost x).pbu = d.pbu := by unfold Dev.almPost; split <;> rfl
@[simp] theorem Dev.almPost_fab (d : Dev) (x : AlmRec) : (d.almPost x).fab = d.fab := by unfold Dev.almPost; split <;> rfl
@[simp] theorem Dev.almPost_slu (d : Dev) (x : AlmRec) : (d.almPost x).slu = d.slu := by unfold Dev.almPost; split <;> rfl
@[simp] theorem Dev.almPost_kv (d : Dev) (x : AlmRec) : (d.almPost x).kv = d.kv := by unfold Dev.almPost; split <;> rfl
@[simp] theorem Dev.almPost_cam (d : Dev) (x : AlmRec) : (d.almPost x).cam = d.cam := by unfold Dev.almPost; split <;> rfl
@[simp] theorem Dev.almPost_fus (d : Dev) (x : AlmRec) : (d.almPost x).fus = d.fus := by unfold Dev.almPost; split <;> rfl
@[simp] theorem Dev.almPost_plan (d : Dev) (x : AlmRec) : (d.almPost x).plan = d.plan := by unfold Dev.almPost; split <;> rfl
@[simp] theorem Dev.almPost_le (d : Dev) (x : AlmRec) : (d.almPost x).le = d.le := by unfold Dev.almPost; split <;> rfl
@[simp] theorem Dev.almPost_ss (d : Dev) (x : AlmRec) : (d.almPost x).ss = d.ss := by unfold Dev.almPost; split <;> rfl
@[simp] theorem Dev.almPost_io (d : Dev) (x : AlmRec) : (d.almPost x).io = d.io := by unfold Dev.almPost; split <;> rfl
@[simp] theorem Dev.almPost_cnl (d : Dev) (x : AlmRec) : (d.almPost x).cnl = d.cnl := by unfold Dev.almPost; split <;> rfl
@[simp] theorem Dev.almPost_dbg (d : Dev) (x : AlmRec) : (d.almPost x).dbg = d.dbg := by unfold Dev.almPost; split <;> rfl
@[simp] theorem Dev.almPost_cells (d : Dev) (x : AlmRec) : (d.almPost x).cells = d.cells := by unfold Dev.almPost; split <;> rfl
@[simp] theorem Dev.almPost_cellRes (d : Dev) (x : AlmRec) : (d.almPost x).cellRes = d.cellRes := by unfold Dev.almPost; split <;> rfl
@[simp] theorem Dev.almPost_cores (d : Dev) (x : AlmRec) : (d.almPost x).cores = d.cores := by unfold Dev.almPost; split <;> rfl
@[simp] theorem Dev.almPost_idn (d : Dev) (x : AlmRec) : (d.almPost x).idn = d.idn := by unfold Dev.almPost; split <;> rfl

/-! ### alm -/

@[simp] theorem Dev.alm_regs (d : Dev) (kind sev : Nat) (key : Key) (now : Nat) (b : List Nat) : (d.alm kind sev key now b).regs = d.regs := by unfold Dev.alm; simp
@[simp] theorem Dev.alm_recs (d : Dev) (kind sev : Nat) (key : Key) (now : Nat) (b : List Nat) : (d.alm kind sev key now b).recs = d.recs := by unfold Dev.alm; simp
@[simp] theorem Dev.alm_cnt (d : Dev) (kind sev : Nat) (key : Key) (now : Nat) (b : List Nat) : (d.alm kind sev key now b).cnt = d.cnt := by unfold Dev.alm; simp
@[simp] theorem Dev.alm_free (d : Dev) (kind sev : Nat) (key : Key) (now : Nat) (b : List Nat) : (d.alm kind sev key now b).free = d.free := by unfold Dev.alm; simp
@[simp] theorem Dev.alm_bus (d : Dev) (kind sev : Nat) (key : Key) (now : Nat) (b : List Nat) : (d.alm kind sev key now b).bus = d.bus := by unfold Dev.alm; simp
@[simp] theorem Dev.alm_module (d : Dev) (kind sev : Nat) (key : Key) (now : Nat) (b : List Nat) : (d.alm kind sev key now b).module = d.module := by unfold Dev.alm; simp
@[simp] theorem Dev.alm_mem (d : Dev) (kind sev : Nat) (key : Key) (now : Nat) (b : List Nat) : (d.alm kind sev key now b).mem = d.mem := by unfold Dev.alm; simp
@[simp] theorem Dev.alm_grants (d : Dev) (kind sev : Nat) (key : Key) (now : Nat) (b : List Nat) : (d.alm kind sev key now b).grants = d.grants := by unfold Dev.alm; simp
@[simp] theorem Dev.alm_waits (d : Dev) (kind sev : Nat) (key : Key) (now : Nat) (b : List Nat) : (d.alm kind sev key now b).waits = d.waits := by unfold Dev.alm; simp
@[simp] theorem Dev.alm_nextWait (d : Dev) (kind sev : Nat) (key : Key) (now : Nat) (b : List Nat) : (d.alm kind sev key now b).nextWait = d.nextWait := by unfold Dev.alm; simp
@[simp] theorem Dev.alm_sysArea (d : Dev) (kind sev : Nat) (key : Key) (now : Nat) (b : List Nat) : (d.alm kind sev key now b).sysArea = d.sysArea := by unfold Dev.alm; simp
@[simp] theorem Dev.alm_nor (d : Dev) (kind sev : Nat) (key : Key) (now : Nat) (b : List Nat) : (d.alm kind sev key now b).nor = d.nor := by unfold Dev.alm; simp
@[simp] theorem Dev.alm_time (d : Dev) (kind sev : Nat) (key : Key) (now : Nat) (b : List Nat) : (d.alm kind sev key now b).time = d.time := by unfold Dev.alm; simp
@[simp] theorem Dev.alm_cue (d : Dev) (kind sev : Nat) (key : Key) (now : Nat) (b : List Nat) : (d.alm kind sev key now b).cue = d.cue := by unfold Dev.alm; simp
@[simp] theorem Dev.alm_pow (d : Dev) (kind sev : Nat) (key : Key) (now : Nat) (b : List Nat) : (d.alm kind sev key now b).pow = d.pow := by unfold Dev.alm; simp
@[simp] theorem Dev.alm_eic (d : Dev) (kind sev : Nat) (key : Key) (now : Nat) (b : List Nat) : (d.alm kind sev key now b).eic = d.eic := by unfold Dev.alm; simp
@[simp] theorem Dev.alm_stew (d : Dev) (kind sev : Nat) (key : Key) (now : Nat) (b : List Nat) : (d.alm kind sev key now b).stew = d.stew := by unfold Dev.alm; simp
@[simp] theorem Dev.alm_pbu (d : Dev) (kind sev : Nat) (key : Key) (now : Nat) (b : List Nat) : (d.alm kind sev key now b).pbu = d.pbu := by unfold Dev.alm; simp
@[simp] theorem Dev.alm_fab (d : Dev) (kind sev : Nat) (key : Key) (now : Nat) (b : List Nat) : (d.alm kind sev key now b).fab = d.fab := by unfold Dev.alm; simp
@[simp] theorem Dev.alm_slu (d : Dev) (kind sev : Nat) (key : Key) (now : Nat) (b : List Nat) : (d.alm kind sev key now b).slu = d.slu := by unfold Dev.alm; simp
@[simp] theorem Dev.alm_kv (d : Dev) (kind sev : Nat) (key : Key) (now : Nat) (b : List Nat) : (d.alm kind sev key now b).kv = d.kv := by unfold Dev.alm; simp
@[simp] theorem Dev.alm_cam (d : Dev) (kind sev : Nat) (key : Key) (now : Nat) (b : List Nat) : (d.alm kind sev key now b).cam = d.cam := by unfold Dev.alm; simp
@[simp] theorem Dev.alm_fus (d : Dev) (kind sev : Nat) (key : Key) (now : Nat) (b : List Nat) : (d.alm kind sev key now b).fus = d.fus := by unfold Dev.alm; simp
@[simp] theorem Dev.alm_plan (d : Dev) (kind sev : Nat) (key : Key) (now : Nat) (b : List Nat) : (d.alm kind sev key now b).plan = d.plan := by unfold Dev.alm; simp
@[simp] theorem Dev.alm_le (d : Dev) (kind sev : Nat) (key : Key) (now : Nat) (b : List Nat) : (d.alm kind sev key now b).le = d.le := by unfold Dev.alm; simp
@[simp] theorem Dev.alm_ss (d : Dev) (kind sev : Nat) (key : Key) (now : Nat) (b : List Nat) : (d.alm kind sev key now b).ss = d.ss := by unfold Dev.alm; simp
@[simp] theorem Dev.alm_io (d : Dev) (kind sev : Nat) (key : Key) (now : Nat) (b : List Nat) : (d.alm kind sev key now b).io = d.io := by unfold Dev.alm; simp
@[simp] theorem Dev.alm_cnl (d : Dev) (kind sev : Nat) (key : Key) (now : Nat) (b : List Nat) : (d.alm kind sev key now b).cnl = d.cnl := by unfold Dev.alm; simp
@[simp] theorem Dev.alm_dbg (d : Dev) (kind sev : Nat) (key : Key) (now : Nat) (b : List Nat) : (d.alm kind sev key now b).dbg = d.dbg := by unfold Dev.alm; simp
@[simp] theorem Dev.alm_cells (d : Dev) (kind sev : Nat) (key : Key) (now : Nat) (b : List Nat) : (d.alm kind sev key now b).cells = d.cells := by unfold Dev.alm; simp
@[simp] theorem Dev.alm_cellRes (d : Dev) (kind sev : Nat) (key : Key) (now : Nat) (b : List Nat) : (d.alm kind sev key now b).cellRes = d.cellRes := by unfold Dev.alm; simp
@[simp] theorem Dev.alm_cores (d : Dev) (kind sev : Nat) (key : Key) (now : Nat) (b : List Nat) : (d.alm kind sev key now b).cores = d.cores := by unfold Dev.alm; simp
@[simp] theorem Dev.alm_idn (d : Dev) (kind sev : Nat) (key : Key) (now : Nat) (b : List Nat) : (d.alm kind sev key now b).idn = d.idn := by unfold Dev.alm; simp

/-! ### almMc -/

@[simp] theorem Dev.almMc_regs (d : Dev) (kind sev now : Nat) (b : List Nat) : (d.almMc kind sev now b).regs = d.regs := by unfold Dev.almMc; simp
@[simp] theorem Dev.almMc_recs (d : Dev) (kind sev now : Nat) (b : List Nat) : (d.almMc kind sev now b).recs = d.recs := by unfold Dev.almMc; simp
@[simp] theorem Dev.almMc_free (d : Dev) (kind sev now : Nat) (b : List Nat) : (d.almMc kind sev now b).free = d.free := by unfold Dev.almMc; simp
@[simp] theorem Dev.almMc_bus (d : Dev) (kind sev now : Nat) (b : List Nat) : (d.almMc kind sev now b).bus = d.bus := by unfold Dev.almMc; simp
@[simp] theorem Dev.almMc_module (d : Dev) (kind sev now : Nat) (b : List Nat) : (d.almMc kind sev now b).module = d.module := by unfold Dev.almMc; simp
@[simp] theorem Dev.almMc_mem (d : Dev) (kind sev now : Nat) (b : List Nat) : (d.almMc kind sev now b).mem = d.mem := by unfold Dev.almMc; simp
@[simp] theorem Dev.almMc_grants (d : Dev) (kind sev now : Nat) (b : List Nat) : (d.almMc kind sev now b).grants = d.grants := by unfold Dev.almMc; simp
@[simp] theorem Dev.almMc_waits (d : Dev) (kind sev now : Nat) (b : List Nat) : (d.almMc kind sev now b).waits = d.waits := by unfold Dev.almMc; simp
@[simp] theorem Dev.almMc_nextWait (d : Dev) (kind sev now : Nat) (b : List Nat) : (d.almMc kind sev now b).nextWait = d.nextWait := by unfold Dev.almMc; simp
@[simp] theorem Dev.almMc_sysArea (d : Dev) (kind sev now : Nat) (b : List Nat) : (d.almMc kind sev now b).sysArea = d.sysArea := by unfold Dev.almMc; simp
@[simp] theorem Dev.almMc_nor (d : Dev) (kind sev now : Nat) (b : List Nat) : (d.almMc kind sev now b).nor = d.nor := by unfold Dev.almMc; simp
@[simp] theorem Dev.almMc_time (d : Dev) (kind sev now : Nat) (b : List Nat) : (d.almMc kind sev now b).time = d.time := by unfold Dev.almMc; simp
@[simp] theorem Dev.almMc_cue (d : Dev) (kind sev now : Nat) (b : List Nat) : (d.almMc kind sev now b).cue = d.cue := by unfold Dev.almMc; simp
@[simp] theorem Dev.almMc_pow (d : Dev) (kind sev now : Nat) (b : List Nat) : (d.almMc kind sev now b).pow = d.pow := by unfold Dev.almMc; simp
@[simp] theorem Dev.almMc_eic (d : Dev) (kind sev now : Nat) (b : List Nat) : (d.almMc kind sev now b).eic = d.eic := by unfold Dev.almMc; simp
@[simp] theorem Dev.almMc_stew (d : Dev) (kind sev now : Nat) (b : List Nat) : (d.almMc kind sev now b).stew = d.stew := by unfold Dev.almMc; simp
@[simp] theorem Dev.almMc_pbu (d : Dev) (kind sev now : Nat) (b : List Nat) : (d.almMc kind sev now b).pbu = d.pbu := by unfold Dev.almMc; simp
@[simp] theorem Dev.almMc_fab (d : Dev) (kind sev now : Nat) (b : List Nat) : (d.almMc kind sev now b).fab = d.fab := by unfold Dev.almMc; simp
@[simp] theorem Dev.almMc_slu (d : Dev) (kind sev now : Nat) (b : List Nat) : (d.almMc kind sev now b).slu = d.slu := by unfold Dev.almMc; simp
@[simp] theorem Dev.almMc_kv (d : Dev) (kind sev now : Nat) (b : List Nat) : (d.almMc kind sev now b).kv = d.kv := by unfold Dev.almMc; simp
@[simp] theorem Dev.almMc_cam (d : Dev) (kind sev now : Nat) (b : List Nat) : (d.almMc kind sev now b).cam = d.cam := by unfold Dev.almMc; simp
@[simp] theorem Dev.almMc_fus (d : Dev) (kind sev now : Nat) (b : List Nat) : (d.almMc kind sev now b).fus = d.fus := by unfold Dev.almMc; simp
@[simp] theorem Dev.almMc_plan (d : Dev) (kind sev now : Nat) (b : List Nat) : (d.almMc kind sev now b).plan = d.plan := by unfold Dev.almMc; simp
@[simp] theorem Dev.almMc_le (d : Dev) (kind sev now : Nat) (b : List Nat) : (d.almMc kind sev now b).le = d.le := by unfold Dev.almMc; simp
@[simp] theorem Dev.almMc_ss (d : Dev) (kind sev now : Nat) (b : List Nat) : (d.almMc kind sev now b).ss = d.ss := by unfold Dev.almMc; simp
@[simp] theorem Dev.almMc_io (d : Dev) (kind sev now : Nat) (b : List Nat) : (d.almMc kind sev now b).io = d.io := by unfold Dev.almMc; simp
@[simp] theorem Dev.almMc_cnl (d : Dev) (kind sev now : Nat) (b : List Nat) : (d.almMc kind sev now b).cnl = d.cnl := by unfold Dev.almMc; simp
@[simp] theorem Dev.almMc_dbg (d : Dev) (kind sev now : Nat) (b : List Nat) : (d.almMc kind sev now b).dbg = d.dbg := by unfold Dev.almMc; simp
@[simp] theorem Dev.almMc_cells (d : Dev) (kind sev now : Nat) (b : List Nat) : (d.almMc kind sev now b).cells = d.cells := by unfold Dev.almMc; simp
@[simp] theorem Dev.almMc_cellRes (d : Dev) (kind sev now : Nat) (b : List Nat) : (d.almMc kind sev now b).cellRes = d.cellRes := by unfold Dev.almMc; simp
@[simp] theorem Dev.almMc_cores (d : Dev) (kind sev now : Nat) (b : List Nat) : (d.almMc kind sev now b).cores = d.cores := by unfold Dev.almMc; simp
@[simp] theorem Dev.almMc_idn (d : Dev) (kind sev now : Nat) (b : List Nat) : (d.almMc kind sev now b).idn = d.idn := by unfold Dev.almMc; simp

/-! ### overrun -/

@[simp] theorem Dev.overrun_recs (d : Dev) (block q : Nat) : (d.overrun block q).recs = d.recs := by unfold Dev.overrun; simp
@[simp] theorem Dev.overrun_cnt (d : Dev) (block q : Nat) : (d.overrun block q).cnt = d.cnt := by unfold Dev.overrun; simp
@[simp] theorem Dev.overrun_free (d : Dev) (block q : Nat) : (d.overrun block q).free = d.free := by unfold Dev.overrun; simp
@[simp] theorem Dev.overrun_bus (d : Dev) (block q : Nat) : (d.overrun block q).bus = d.bus := by unfold Dev.overrun; simp
@[simp] theorem Dev.overrun_module (d : Dev) (block q : Nat) : (d.overrun block q).module = d.module := by unfold Dev.overrun; simp
@[simp] theorem Dev.overrun_mem (d : Dev) (block q : Nat) : (d.overrun block q).mem = d.mem := by unfold Dev.overrun; simp
@[simp] theorem Dev.overrun_grants (d : Dev) (block q : Nat) : (d.overrun block q).grants = d.grants := by unfold Dev.overrun; simp
@[simp] theorem Dev.overrun_waits (d : Dev) (block q : Nat) : (d.overrun block q).waits = d.waits := by unfold Dev.overrun; simp
@[simp] theorem Dev.overrun_nextWait (d : Dev) (block q : Nat) : (d.overrun block q).nextWait = d.nextWait := by unfold Dev.overrun; simp
@[simp] theorem Dev.overrun_sysArea (d : Dev) (block q : Nat) : (d.overrun block q).sysArea = d.sysArea := by unfold Dev.overrun; simp
@[simp] theorem Dev.overrun_nor (d : Dev) (block q : Nat) : (d.overrun block q).nor = d.nor := by unfold Dev.overrun; simp
@[simp] theorem Dev.overrun_time (d : Dev) (block q : Nat) : (d.overrun block q).time = d.time := by unfold Dev.overrun; simp
@[simp] theorem Dev.overrun_cue (d : Dev) (block q : Nat) : (d.overrun block q).cue = d.cue := by unfold Dev.overrun; simp
@[simp] theorem Dev.overrun_pow (d : Dev) (block q : Nat) : (d.overrun block q).pow = d.pow := by unfold Dev.overrun; simp
@[simp] theorem Dev.overrun_stew (d : Dev) (block q : Nat) : (d.overrun block q).stew = d.stew := by unfold Dev.overrun; simp
@[simp] theorem Dev.overrun_pbu (d : Dev) (block q : Nat) : (d.overrun block q).pbu = d.pbu := by unfold Dev.overrun; simp
@[simp] theorem Dev.overrun_fab (d : Dev) (block q : Nat) : (d.overrun block q).fab = d.fab := by unfold Dev.overrun; simp
@[simp] theorem Dev.overrun_slu (d : Dev) (block q : Nat) : (d.overrun block q).slu = d.slu := by unfold Dev.overrun; simp
@[simp] theorem Dev.overrun_kv (d : Dev) (block q : Nat) : (d.overrun block q).kv = d.kv := by unfold Dev.overrun; simp
@[simp] theorem Dev.overrun_cam (d : Dev) (block q : Nat) : (d.overrun block q).cam = d.cam := by unfold Dev.overrun; simp
@[simp] theorem Dev.overrun_fus (d : Dev) (block q : Nat) : (d.overrun block q).fus = d.fus := by unfold Dev.overrun; simp
@[simp] theorem Dev.overrun_plan (d : Dev) (block q : Nat) : (d.overrun block q).plan = d.plan := by unfold Dev.overrun; simp
@[simp] theorem Dev.overrun_le (d : Dev) (block q : Nat) : (d.overrun block q).le = d.le := by unfold Dev.overrun; simp
@[simp] theorem Dev.overrun_ss (d : Dev) (block q : Nat) : (d.overrun block q).ss = d.ss := by unfold Dev.overrun; simp
@[simp] theorem Dev.overrun_io (d : Dev) (block q : Nat) : (d.overrun block q).io = d.io := by unfold Dev.overrun; simp
@[simp] theorem Dev.overrun_cnl (d : Dev) (block q : Nat) : (d.overrun block q).cnl = d.cnl := by unfold Dev.overrun; simp
@[simp] theorem Dev.overrun_dbg (d : Dev) (block q : Nat) : (d.overrun block q).dbg = d.dbg := by unfold Dev.overrun; simp
@[simp] theorem Dev.overrun_cells (d : Dev) (block q : Nat) : (d.overrun block q).cells = d.cells := by unfold Dev.overrun; simp
@[simp] theorem Dev.overrun_cellRes (d : Dev) (block q : Nat) : (d.overrun block q).cellRes = d.cellRes := by unfold Dev.overrun; simp
@[simp] theorem Dev.overrun_mc (d : Dev) (block q : Nat) : (d.overrun block q).mc = d.mc := by unfold Dev.overrun; simp
@[simp] theorem Dev.overrun_cores (d : Dev) (block q : Nat) : (d.overrun block q).cores = d.cores := by unfold Dev.overrun; simp
@[simp] theorem Dev.overrun_idn (d : Dev) (block q : Nat) : (d.overrun block q).idn = d.idn := by unfold Dev.overrun; simp

/-! ### setTarget -/

@[simp] theorem Dev.setTarget_regs (d : Dev) (k : Nat) (x : DbgTarget) : (d.setTarget k x).regs = d.regs := rfl
@[simp] theorem Dev.setTarget_recs (d : Dev) (k : Nat) (x : DbgTarget) : (d.setTarget k x).recs = d.recs := rfl
@[simp] theorem Dev.setTarget_cnt (d : Dev) (k : Nat) (x : DbgTarget) : (d.setTarget k x).cnt = d.cnt := rfl
@[simp] theorem Dev.setTarget_free (d : Dev) (k : Nat) (x : DbgTarget) : (d.setTarget k x).free = d.free := rfl
@[simp] theorem Dev.setTarget_bus (d : Dev) (k : Nat) (x : DbgTarget) : (d.setTarget k x).bus = d.bus := rfl
@[simp] theorem Dev.setTarget_module (d : Dev) (k : Nat) (x : DbgTarget) : (d.setTarget k x).module = d.module := rfl
@[simp] theorem Dev.setTarget_mem (d : Dev) (k : Nat) (x : DbgTarget) : (d.setTarget k x).mem = d.mem := rfl
@[simp] theorem Dev.setTarget_grants (d : Dev) (k : Nat) (x : DbgTarget) : (d.setTarget k x).grants = d.grants := rfl
@[simp] theorem Dev.setTarget_waits (d : Dev) (k : Nat) (x : DbgTarget) : (d.setTarget k x).waits = d.waits := rfl
@[simp] theorem Dev.setTarget_nextWait (d : Dev) (k : Nat) (x : DbgTarget) : (d.setTarget k x).nextWait = d.nextWait := rfl
@[simp] theorem Dev.setTarget_sysArea (d : Dev) (k : Nat) (x : DbgTarget) : (d.setTarget k x).sysArea = d.sysArea := rfl
@[simp] theorem Dev.setTarget_nor (d : Dev) (k : Nat) (x : DbgTarget) : (d.setTarget k x).nor = d.nor := rfl
@[simp] theorem Dev.setTarget_time (d : Dev) (k : Nat) (x : DbgTarget) : (d.setTarget k x).time = d.time := rfl
@[simp] theorem Dev.setTarget_cue (d : Dev) (k : Nat) (x : DbgTarget) : (d.setTarget k x).cue = d.cue := rfl
@[simp] theorem Dev.setTarget_pow (d : Dev) (k : Nat) (x : DbgTarget) : (d.setTarget k x).pow = d.pow := rfl
@[simp] theorem Dev.setTarget_eic (d : Dev) (k : Nat) (x : DbgTarget) : (d.setTarget k x).eic = d.eic := rfl
@[simp] theorem Dev.setTarget_stew (d : Dev) (k : Nat) (x : DbgTarget) : (d.setTarget k x).stew = d.stew := rfl
@[simp] theorem Dev.setTarget_pbu (d : Dev) (k : Nat) (x : DbgTarget) : (d.setTarget k x).pbu = d.pbu := rfl
@[simp] theorem Dev.setTarget_fab (d : Dev) (k : Nat) (x : DbgTarget) : (d.setTarget k x).fab = d.fab := rfl
@[simp] theorem Dev.setTarget_slu (d : Dev) (k : Nat) (x : DbgTarget) : (d.setTarget k x).slu = d.slu := rfl
@[simp] theorem Dev.setTarget_kv (d : Dev) (k : Nat) (x : DbgTarget) : (d.setTarget k x).kv = d.kv := rfl
@[simp] theorem Dev.setTarget_cam (d : Dev) (k : Nat) (x : DbgTarget) : (d.setTarget k x).cam = d.cam := rfl
@[simp] theorem Dev.setTarget_fus (d : Dev) (k : Nat) (x : DbgTarget) : (d.setTarget k x).fus = d.fus := rfl
@[simp] theorem Dev.setTarget_plan (d : Dev) (k : Nat) (x : DbgTarget) : (d.setTarget k x).plan = d.plan := rfl
@[simp] theorem Dev.setTarget_le (d : Dev) (k : Nat) (x : DbgTarget) : (d.setTarget k x).le = d.le := rfl
@[simp] theorem Dev.setTarget_ss (d : Dev) (k : Nat) (x : DbgTarget) : (d.setTarget k x).ss = d.ss := rfl
@[simp] theorem Dev.setTarget_io (d : Dev) (k : Nat) (x : DbgTarget) : (d.setTarget k x).io = d.io := rfl
@[simp] theorem Dev.setTarget_cnl (d : Dev) (k : Nat) (x : DbgTarget) : (d.setTarget k x).cnl = d.cnl := rfl
@[simp] theorem Dev.setTarget_dbg (d : Dev) (k : Nat) (x : DbgTarget) : (d.setTarget k x).dbg = d.dbg := rfl
@[simp] theorem Dev.setTarget_cells (d : Dev) (k : Nat) (x : DbgTarget) : (d.setTarget k x).cells = d.cells := rfl
@[simp] theorem Dev.setTarget_cellRes (d : Dev) (k : Nat) (x : DbgTarget) : (d.setTarget k x).cellRes = d.cellRes := rfl
@[simp] theorem Dev.setTarget_mc (d : Dev) (k : Nat) (x : DbgTarget) : (d.setTarget k x).mc = d.mc := rfl
@[simp] theorem Dev.setTarget_idn (d : Dev) (k : Nat) (x : DbgTarget) : (d.setTarget k x).idn = d.idn := rfl

end Sys2Proof.Machine
end

