-- ==== Sys2Proof/Laws/Steward.lean ====
section
/-! SUPPORT. What a register access and a steward command can do, and what completing a request, a notice and a refused access leave as they are. -/

namespace Sys2Proof.Machine

/-- A register access has its effect where it reaches the register, else it is an access fault. -/
theorem State.regAccess_reaches {s : State} {t c : Nat} {r : Reg} {x : Acc} {f : Nat → Dev → Dev} (h : s.dev.reaches s.latchClosed (s.now t) c r.addr r.bytes x = true) :
    s.regAccess t c r x f = .next { s with dt := s.now t, dev := f (s.now t) { s.dev with bus := .ok } } := by
  unfold State.regAccess; simp [h]
theorem State.regAccess_fault {s : State} {t c : Nat} {r : Reg} {x : Acc} {f : Nat → Dev → Dev} (h : s.dev.reaches s.latchClosed (s.now t) c r.addr r.bytes x = false) :
    s.regAccess t c r x f = .next { s with dt := s.now t, dev := s.dev.faulted s.latchClosed (s.now t) c r.addr r.bytes x } := by
  unfold State.regAccess; simp [h]

/-- What a command of the steward can do: nothing where its request is not in flight or may not be decided yet, complete with the failing check, or have its effect. -/
theorem Dev.command_cases (d : Dev) (now m seq code : Nat) (form : Req → Bool) (check : Req → Option Fail) (effect : Req → Dev) :
    d.command now m seq code form check effect = d ∨
    ∃ r, d.req? m seq = some r ∧ d.stewardRuns = true ∧ r.code = code ∧ form r = true ∧ d.mayDecide now r = true ∧
      ((∃ f, check r = some f ∧ d.command now m seq code form check effect = d.finish now r f.1 f.2 []) ∨
       (check r = none ∧ d.command now m seq code form check effect = effect r)) := by
  unfold Dev.command
  cases hr : d.req? m seq with
  | none => exact .inl rfl
  | some r =>
    simp only []
    by_cases h : (d.stewardRuns && r.code == code && form r && d.mayDecide now r) = true
    · rw [if_pos h]
      simp only [Bool.and_eq_true, beq_iff_eq] at h
      obtain ⟨⟨⟨a, b⟩, c⟩, e⟩ := h
      refine .inr ⟨r, rfl, a, b, c, e, ?_⟩
      cases hc : check r with
      | none => exact .inr ⟨rfl, rfl⟩
      | some f => exact .inl ⟨f, rfl, rfl⟩
    · rw [if_neg h]; exact .inl rfl

/-- A command that may be decided and passes its checks has its effect. -/
theorem Dev.command_passes {d : Dev} {now m seq code : Nat} {form : Req → Bool} {check : Req → Option Fail} {effect : Req → Dev} {r : Req} (hr : d.req? m seq = some r)
    (hs : d.stewardRuns = true) (hc : r.code = code) (hf : form r = true) (hm : d.mayDecide now r = true) (hk : check r = none) :
    d.command now m seq code form check effect = effect r := by
  unfold Dev.command; simp [hr, hs, hc, hf, hm, hk]

/-- A command whose check fails completes with it. -/
theorem Dev.command_fails {d : Dev} {now m seq code : Nat} {form : Req → Bool} {check : Req → Option Fail} {effect : Req → Dev} {r : Req} {f : Fail} (hr : d.req? m seq = some r)
    (hs : d.stewardRuns = true) (hc : r.code = code) (hf : form r = true) (hm : d.mayDecide now r = true) (hk : check r = some f) :
    d.command now m seq code form check effect = d.finish now r f.1 f.2 [] := by
  unfold Dev.command; simp [hr, hs, hc, hf, hm, hk]

/-- The first failing check is one of the checks, and none fails where all pass. -/
theorem firstFail_mem {l : List (Option Fail)} {f : Fail} (h : firstFail l = some f) : some f ∈ l := by
  induction l with
  | nil => simp [firstFail] at h
  | cons x rest ih =>
    cases x with
    | some g => simp only [firstFail] at h; cases h; simp
    | none => exact List.mem_cons_of_mem _ (ih h)
theorem firstFail_none {l : List (Option Fail)} : firstFail l = none ↔ ∀ x ∈ l, x = none := by
  induction l with
  | nil => simp [firstFail]
  | cons x rest ih => cases x <;> simp [firstFail, ih]
theorem need_none {ok : Bool} {st : Status} {n : Nat} : need ok st n = none ↔ ok = true := by cases ok <;> simp [need]

/-! ### syncInflight -/

@[simp] theorem Dev.syncInflight_recs (d : Dev) (m : Nat) : (d.syncInflight m).recs = d.recs := by unfold Dev.syncInflight; simp
@[simp] theorem Dev.syncInflight_cnt (d : Dev) (m : Nat) : (d.syncInflight m).cnt = d.cnt := by unfold Dev.syncInflight; simp
@[simp] theorem Dev.syncInflight_free (d : Dev) (m : Nat) : (d.syncInflight m).free = d.free := by unfold Dev.syncInflight; simp
@[simp] theorem Dev.syncInflight_bus (d : Dev) (m : Nat) : (d.syncInflight m).bus = d.bus := by unfold Dev.syncInflight; simp
@[simp] theorem Dev.syncInflight_module (d : Dev) (m : Nat) : (d.syncInflight m).module = d.module := by unfold Dev.syncInflight; simp
@[simp] theorem Dev.syncInflight_mem (d : Dev) (m : Nat) : (d.syncInflight m).mem = d.mem := by unfold Dev.syncInflight; simp
@[simp] theorem Dev.syncInflight_grants (d : Dev) (m : Nat) : (d.syncInflight m).grants = d.grants := by unfold Dev.syncInflight; simp
@[simp] theorem Dev.syncInflight_waits (d : Dev) (m : Nat) : (d.syncInflight m).waits = d.waits := by unfold Dev.syncInflight; simp
@[simp] theorem Dev.syncInflight_nextWait (d : Dev) (m : Nat) : (d.syncInflight m).nextWait = d.nextWait := by unfold Dev.syncInflight; simp
@[simp] theorem Dev.syncInflight_sysArea (d : Dev) (m : Nat) : (d.syncInflight m).sysArea = d.sysArea := by unfold Dev.syncInflight; simp
@[simp] theorem Dev.syncInflight_nor (d : Dev) (m : Nat) : (d.syncInflight m).nor = d.nor := by unfold Dev.syncInflight; simp
@[simp] theorem Dev.syncInflight_time (d : Dev) (m : Nat) : (d.syncInflight m).time = d.time := by unfold Dev.syncInflight; simp
@[simp] theorem Dev.syncInflight_cue (d : Dev) (m : Nat) : (d.syncInflight m).cue = d.cue := by unfold Dev.syncInflight; simp
@[simp] theorem Dev.syncInflight_pow (d : Dev) (m : Nat) : (d.syncInflight m).pow = d.pow := by unfold Dev.syncInflight; simp
@[simp] theorem Dev.syncInflight_eic (d : Dev) (m : Nat) : (d.syncInflight m).eic = d.eic := by unfold Dev.syncInflight; simp
@[simp] theorem Dev.syncInflight_stew (d : Dev) (m : Nat) : (d.syncInflight m).stew = d.stew := by unfold Dev.syncInflight; simp
@[simp] theorem Dev.syncInflight_pbu (d : Dev) (m : Nat) : (d.syncInflight m).pbu = d.pbu := by unfold Dev.syncInflight; simp
@[simp] theorem Dev.syncInflight_fab (d : Dev) (m : Nat) : (d.syncInflight m).fab = d.fab := by unfold Dev.syncInflight; simp
@[simp] theorem Dev.syncInflight_slu (d : Dev) (m : Nat) : (d.syncInflight m).slu = d.slu := by unfold Dev.syncInflight; simp
@[simp] theorem Dev.syncInflight_kv (d : Dev) (m : Nat) : (d.syncInflight m).kv = d.kv := by unfold Dev.syncInflight; simp
@[simp] theorem Dev.syncInflight_cam (d : Dev) (m : Nat) : (d.syncInflight m).cam = d.cam := by unfold Dev.syncInflight; simp
@[simp] theorem Dev.syncInflight_fus (d : Dev) (m : Nat) : (d.syncInflight m).fus = d.fus := by unfold Dev.syncInflight; simp
@[simp] theorem Dev.syncInflight_plan (d : Dev) (m : Nat) : (d.syncInflight m).plan = d.plan := by unfold Dev.syncInflight; simp
@[simp] theorem Dev.syncInflight_le (d : Dev) (m : Nat) : (d.syncInflight m).le = d.le := by unfold Dev.syncInflight; simp
@[simp] theorem Dev.syncInflight_ss (d : Dev) (m : Nat) : (d.syncInflight m).ss = d.ss := by unfold Dev.syncInflight; simp
@[simp] theorem Dev.syncInflight_io (d : Dev) (m : Nat) : (d.syncInflight m).io = d.io := by unfold Dev.syncInflight; simp
@[simp] theorem Dev.syncInflight_cnl (d : Dev) (m : Nat) : (d.syncInflight m).cnl = d.cnl := by unfold Dev.syncInflight; simp
@[simp] theorem Dev.syncInflight_dbg (d : Dev) (m : Nat) : (d.syncInflight m).dbg = d.dbg := by unfold Dev.syncInflight; simp
@[simp] theorem Dev.syncInflight_cells (d : Dev) (m : Nat) : (d.syncInflight m).cells = d.cells := by unfold Dev.syncInflight; simp
@[simp] theorem Dev.syncInflight_cellRes (d : Dev) (m : Nat) : (d.syncInflight m).cellRes = d.cellRes := by unfold Dev.syncInflight; simp
@[simp] theorem Dev.syncInflight_mc (d : Dev) (m : Nat) : (d.syncInflight m).mc = d.mc := by unfold Dev.syncInflight; simp
@[simp] theorem Dev.syncInflight_cores (d : Dev) (m : Nat) : (d.syncInflight m).cores = d.cores := by unfold Dev.syncInflight; simp
@[simp] theorem Dev.syncInflight_idn (d : Dev) (m : Nat) : (d.syncInflight m).idn = d.idn := by unfold Dev.syncInflight; simp

/-! ### cplEntry -/

@[simp] theorem Dev.cplEntry_recs (d : Dev) (now m w tag ctx st de : Nat) (b : List Byte) : (d.cplEntry now m w tag ctx st de b).recs = d.recs := by unfold Dev.cplEntry; simp
@[simp] theorem Dev.cplEntry_free (d : Dev) (now m w tag ctx st de : Nat) (b : List Byte) : (d.cplEntry now m w tag ctx st de b).free = d.free := by unfold Dev.cplEntry; simp
@[simp] theorem Dev.cplEntry_bus (d : Dev) (now m w tag ctx st de : Nat) (b : List Byte) : (d.cplEntry now m w tag ctx st de b).bus = d.bus := by unfold Dev.cplEntry; simp
@[simp] theorem Dev.cplEntry_module (d : Dev) (now m w tag ctx st de : Nat) (b : List Byte) : (d.cplEntry now m w tag ctx st de b).module = d.module := by unfold Dev.cplEntry; simp
@[simp] theorem Dev.cplEntry_grants (d : Dev) (now m w tag ctx st de : Nat) (b : List Byte) : (d.cplEntry now m w tag ctx st de b).grants = d.grants := by unfold Dev.cplEntry; simp
@[simp] theorem Dev.cplEntry_waits (d : Dev) (now m w tag ctx st de : Nat) (b : List Byte) : (d.cplEntry now m w tag ctx st de b).waits = d.waits := by unfold Dev.cplEntry; simp
@[simp] theorem Dev.cplEntry_nextWait (d : Dev) (now m w tag ctx st de : Nat) (b : List Byte) : (d.cplEntry now m w tag ctx st de b).nextWait = d.nextWait := by unfold Dev.cplEntry; simp
@[simp] theorem Dev.cplEntry_sysArea (d : Dev) (now m w tag ctx st de : Nat) (b : List Byte) : (d.cplEntry now m w tag ctx st de b).sysArea = d.sysArea := by unfold Dev.cplEntry; simp
@[simp] theorem Dev.cplEntry_nor (d : Dev) (now m w tag ctx st de : Nat) (b : List Byte) : (d.cplEntry now m w tag ctx st de b).nor = d.nor := by unfold Dev.cplEntry; simp
@[simp] theorem Dev.cplEntry_time (d : Dev) (now m w tag ctx st de : Nat) (b : List Byte) : (d.cplEntry now m w tag ctx st de b).time = d.time := by unfold Dev.cplEntry; simp
@[simp] theorem Dev.cplEntry_cue (d : Dev) (now m w tag ctx st de : Nat) (b : List Byte) : (d.cplEntry now m w tag ctx st de b).cue = d.cue := by unfold Dev.cplEntry; simp
@[simp] theorem Dev.cplEntry_pow (d : Dev) (now m w tag ctx st de : Nat) (b : List Byte) : (d.cplEntry now m w tag ctx st de b).pow = d.pow := by unfold Dev.cplEntry; simp
@[simp] theorem Dev.cplEntry_pbu (d : Dev) (now m w tag ctx st de : Nat) (b : List Byte) : (d.cplEntry now m w tag ctx st de b).pbu = d.pbu := by unfold Dev.cplEntry; simp
@[simp] theorem Dev.cplEntry_fab (d : Dev) (now m w tag ctx st de : Nat) (b : List Byte) : (d.cplEntry now m w tag ctx st de b).fab = d.fab := by unfold Dev.cplEntry; simp
@[simp] theorem Dev.cplEntry_slu (d : Dev) (now m w tag ctx st de : Nat) (b : List Byte) : (d.cplEntry now m w tag ctx st de b).slu = d.slu := by unfold Dev.cplEntry; simp
@[simp] theorem Dev.cplEntry_kv (d : Dev) (now m w tag ctx st de : Nat) (b : List Byte) : (d.cplEntry now m w tag ctx st de b).kv = d.kv := by unfold Dev.cplEntry; simp
@[simp] theorem Dev.cplEntry_cam (d : Dev) (now m w tag ctx st de : Nat) (b : List Byte) : (d.cplEntry now m w tag ctx st de b).cam = d.cam := by unfold Dev.cplEntry; simp
@[simp] theorem Dev.cplEntry_fus (d : Dev) (now m w tag ctx st de : Nat) (b : List Byte) : (d.cplEntry now m w tag ctx st de b).fus = d.fus := by unfold Dev.cplEntry; simp
@[simp] theorem Dev.cplEntry_plan (d : Dev) (now m w tag ctx st de : Nat) (b : List Byte) : (d.cplEntry now m w tag ctx st de b).plan = d.plan := by unfold Dev.cplEntry; simp
@[simp] theorem Dev.cplEntry_le (d : Dev) (now m w tag ctx st de : Nat) (b : List Byte) : (d.cplEntry now m w tag ctx st de b).le = d.le := by unfold Dev.cplEntry; simp
@[simp] theorem Dev.cplEntry_ss (d : Dev) (now m w tag ctx st de : Nat) (b : List Byte) : (d.cplEntry now m w tag ctx st de b).ss = d.ss := by unfold Dev.cplEntry; simp
@[simp] theorem Dev.cplEntry_io (d : Dev) (now m w tag ctx st de : Nat) (b : List Byte) : (d.cplEntry now m w tag ctx st de b).io = d.io := by unfold Dev.cplEntry; simp
@[simp] theorem Dev.cplEntry_cnl (d : Dev) (now m w tag ctx st de : Nat) (b : List Byte) : (d.cplEntry now m w tag ctx st de b).cnl = d.cnl := by unfold Dev.cplEntry; simp
@[simp] theorem Dev.cplEntry_dbg (d : Dev) (now m w tag ctx st de : Nat) (b : List Byte) : (d.cplEntry now m w tag ctx st de b).dbg = d.dbg := by unfold Dev.cplEntry; simp
@[simp] theorem Dev.cplEntry_cells (d : Dev) (now m w tag ctx st de : Nat) (b : List Byte) : (d.cplEntry now m w tag ctx st de b).cells = d.cells := by unfold Dev.cplEntry; simp
@[simp] theorem Dev.cplEntry_cellRes (d : Dev) (now m w tag ctx st de : Nat) (b : List Byte) : (d.cplEntry now m w tag ctx st de b).cellRes = d.cellRes := by unfold Dev.cplEntry; simp
@[simp] theorem Dev.cplEntry_mc (d : Dev) (now m w tag ctx st de : Nat) (b : List Byte) : (d.cplEntry now m w tag ctx st de b).mc = d.mc := by unfold Dev.cplEntry; simp
@[simp] theorem Dev.cplEntry_cores (d : Dev) (now m w tag ctx st de : Nat) (b : List Byte) : (d.cplEntry now m w tag ctx st de b).cores = d.cores := by unfold Dev.cplEntry; simp
@[simp] theorem Dev.cplEntry_idn (d : Dev) (now m w tag ctx st de : Nat) (b : List Byte) : (d.cplEntry now m w tag ctx st de b).idn = d.idn := by unfold Dev.cplEntry; simp

/-! ### flushNotice -/

@[simp] theorem Dev.flushNotice_recs (d : Dev) (now m : Nat) : (d.flushNotice now m).recs = d.recs := by unfold Dev.flushNotice; split <;> (try split) <;> simp
@[simp] theorem Dev.flushNotice_free (d : Dev) (now m : Nat) : (d.flushNotice now m).free = d.free := by unfold Dev.flushNotice; split <;> (try split) <;> simp
@[simp] theorem Dev.flushNotice_bus (d : Dev) (now m : Nat) : (d.flushNotice now m).bus = d.bus := by unfold Dev.flushNotice; split <;> (try split) <;> simp
@[simp] theorem Dev.flushNotice_module (d : Dev) (now m : Nat) : (d.flushNotice now m).module = d.module := by unfold Dev.flushNotice; split <;> (try split) <;> simp
@[simp] theorem Dev.flushNotice_grants (d : Dev) (now m : Nat) : (d.flushNotice now m).grants = d.grants := by unfold Dev.flushNotice; split <;> (try split) <;> simp
@[simp] theorem Dev.flushNotice_waits (d : Dev) (now m : Nat) : (d.flushNotice now m).waits = d.waits := by unfold Dev.flushNotice; split <;> (try split) <;> simp
@[simp] theorem Dev.flushNotice_nextWait (d : Dev) (now m : Nat) : (d.flushNotice now m).nextWait = d.nextWait := by unfold Dev.flushNotice; split <;> (try split) <;> simp
@[simp] theorem Dev.flushNotice_sysArea (d : Dev) (now m : Nat) : (d.flushNotice now m).sysArea = d.sysArea := by unfold Dev.flushNotice; split <;> (try split) <;> simp
@[simp] theorem Dev.flushNotice_nor (d : Dev) (now m : Nat) : (d.flushNotice now m).nor = d.nor := by unfold Dev.flushNotice; split <;> (try split) <;> simp
@[simp] theorem Dev.flushNotice_time (d : Dev) (now m : Nat) : (d.flushNotice now m).time = d.time := by unfold Dev.flushNotice; split <;> (try split) <;> simp
@[simp] theorem Dev.flushNotice_cue (d : Dev) (now m : Nat) : (d.flushNotice now m).cue = d.cue := by unfold Dev.flushNotice; split <;> (try split) <;> simp
@[simp] theorem Dev.flushNotice_pow (d : Dev) (now m : Nat) : (d.flushNotice now m).pow = d.pow := by unfold Dev.flushNotice; split <;> (try split) <;> simp
@[simp] theorem Dev.flushNotice_pbu (d : Dev) (now m : Nat) : (d.flushNotice now m).pbu = d.pbu := by unfold Dev.flushNotice; split <;> (try split) <;> simp
@[simp] theorem Dev.flushNotice_fab (d : Dev) (now m : Nat) : (d.flushNotice now m).fab = d.fab := by unfold Dev.flushNotice; split <;> (try split) <;> simp
@[simp] theorem Dev.flushNotice_slu (d : Dev) (now m : Nat) : (d.flushNotice now m).slu = d.slu := by unfold Dev.flushNotice; split <;> (try split) <;> simp
@[simp] theorem Dev.flushNotice_kv (d : Dev) (now m : Nat) : (d.flushNotice now m).kv = d.kv := by unfold Dev.flushNotice; split <;> (try split) <;> simp
@[simp] theorem Dev.flushNotice_cam (d : Dev) (now m : Nat) : (d.flushNotice now m).cam = d.cam := by unfold Dev.flushNotice; split <;> (try split) <;> simp
@[simp] theorem Dev.flushNotice_fus (d : Dev) (now m : Nat) : (d.flushNotice now m).fus = d.fus := by unfold Dev.flushNotice; split <;> (try split) <;> simp
@[simp] theorem Dev.flushNotice_plan (d : Dev) (now m : Nat) : (d.flushNotice now m).plan = d.plan := by unfold Dev.flushNotice; split <;> (try split) <;> simp
@[simp] theorem Dev.flushNotice_le (d : Dev) (now m : Nat) : (d.flushNotice now m).le = d.le := by unfold Dev.flushNotice; split <;> (try split) <;> simp
@[simp] theorem Dev.flushNotice_ss (d : Dev) (now m : Nat) : (d.flushNotice now m).ss = d.ss := by unfold Dev.flushNotice; split <;> (try split) <;> simp
@[simp] theorem Dev.flushNotice_io (d : Dev) (now m : Nat) : (d.flushNotice now m).io = d.io := by unfold Dev.flushNotice; split <;> (try split) <;> simp
@[simp] theorem Dev.flushNotice_cnl (d : Dev) (now m : Nat) : (d.flushNotice now m).cnl = d.cnl := by unfold Dev.flushNotice; split <;> (try split) <;> simp
@[simp] theorem Dev.flushNotice_dbg (d : Dev) (now m : Nat) : (d.flushNotice now m).dbg = d.dbg := by unfold Dev.flushNotice; split <;> (try split) <;> simp
@[simp] theorem Dev.flushNotice_cells (d : Dev) (now m : Nat) : (d.flushNotice now m).cells = d.cells := by unfold Dev.flushNotice; split <;> (try split) <;> simp
@[simp] theorem Dev.flushNotice_cellRes (d : Dev) (now m : Nat) : (d.flushNotice now m).cellRes = d.cellRes := by unfold Dev.flushNotice; split <;> (try split) <;> simp
@[simp] theorem Dev.flushNotice_mc (d : Dev) (now m : Nat) : (d.flushNotice now m).mc = d.mc := by unfold Dev.flushNotice; split <;> (try split) <;> simp
@[simp] theorem Dev.flushNotice_cores (d : Dev) (now m : Nat) : (d.flushNotice now m).cores = d.cores := by unfold Dev.flushNotice; split <;> (try split) <;> simp
@[simp] theorem Dev.flushNotice_idn (d : Dev) (now m : Nat) : (d.flushNotice now m).idn = d.idn := by unfold Dev.flushNotice; split <;> (try split) <;> simp

/-! ### flushNotices -/

@[simp] theorem Dev.flushNotices_recs (d : Dev) (now m k : Nat) : (d.flushNotices now m k).recs = d.recs := by
  induction k generalizing d with
  | zero => rfl
  | succ k ih => simp [Dev.flushNotices, ih]
@[simp] theorem Dev.flushNotices_free (d : Dev) (now m k : Nat) : (d.flushNotices now m k).free = d.free := by
  induction k generalizing d with
  | zero => rfl
  | succ k ih => simp [Dev.flushNotices, ih]
@[simp] theorem Dev.flushNotices_bus (d : Dev) (now m k : Nat) : (d.flushNotices now m k).bus = d.bus := by
  induction k generalizing d with
  | zero => rfl
  | succ k ih => simp [Dev.flushNotices, ih]
@[simp] theorem Dev.flushNotices_module (d : Dev) (now m k : Nat) : (d.flushNotices now m k).module = d.module := by
  induction k generalizing d with
  | zero => rfl
  | succ k ih => simp [Dev.flushNotices, ih]
@[simp] theorem Dev.flushNotices_grants (d : Dev) (now m k : Nat) : (d.flushNotices now m k).grants = d.grants := by
  induction k generalizing d with
  | zero => rfl
  | succ k ih => simp [Dev.flushNotices, ih]
@[simp] theorem Dev.flushNotices_waits (d : Dev) (now m k : Nat) : (d.flushNotices now m k).waits = d.waits := by
  induction k generalizing d with
  | zero => rfl
  | succ k ih => simp [Dev.flushNotices, ih]
@[simp] theorem Dev.flushNotices_nextWait (d : Dev) (now m k : Nat) : (d.flushNotices now m k).nextWait = d.nextWait := by
  induction k generalizing d with
  | zero => rfl
  | succ k ih => simp [Dev.flushNotices, ih]
@[simp] theorem Dev.flushNotices_sysArea (d : Dev) (now m k : Nat) : (d.flushNotices now m k).sysArea = d.sysArea := by
  induction k generalizing d with
  | zero => rfl
  | succ k ih => simp [Dev.flushNotices, ih]
@[simp] theorem Dev.flushNotices_nor (d : Dev) (now m k : Nat) : (d.flushNotices now m k).nor = d.nor := by
  induction k generalizing d with
  | zero => rfl
  | succ k ih => simp [Dev.flushNotices, ih]
@[simp] theorem Dev.flushNotices_time (d : Dev) (now m k : Nat) : (d.flushNotices now m k).time = d.time := by
  induction k generalizing d with
  | zero => rfl
  | succ k ih => simp [Dev.flushNotices, ih]
@[simp] theorem Dev.flushNotices_cue (d : Dev) (now m k : Nat) : (d.flushNotices now m k).cue = d.cue := by
  induction k generalizing d with
  | zero => rfl
  | succ k ih => simp [Dev.flushNotices, ih]
@[simp] theorem Dev.flushNotices_pow (d : Dev) (now m k : Nat) : (d.flushNotices now m k).pow = d.pow := by
  induction k generalizing d with
  | zero => rfl
  | succ k ih => simp [Dev.flushNotices, ih]
@[simp] theorem Dev.flushNotices_pbu (d : Dev) (now m k : Nat) : (d.flushNotices now m k).pbu = d.pbu := by
  induction k generalizing d with
  | zero => rfl
  | succ k ih => simp [Dev.flushNotices, ih]
@[simp] theorem Dev.flushNotices_fab (d : Dev) (now m k : Nat) : (d.flushNotices now m k).fab = d.fab := by
  induction k generalizing d with
  | zero => rfl
  | succ k ih => simp [Dev.flushNotices, ih]
@[simp] theorem Dev.flushNotices_slu (d : Dev) (now m k : Nat) : (d.flushNotices now m k).slu = d.slu := by
  induction k generalizing d with
  | zero => rfl
  | succ k ih => simp [Dev.flushNotices, ih]
@[simp] theorem Dev.flushNotices_kv (d : Dev) (now m k : Nat) : (d.flushNotices now m k).kv = d.kv := by
  induction k generalizing d with
  | zero => rfl
  | succ k ih => simp [Dev.flushNotices, ih]
@[simp] theorem Dev.flushNotices_cam (d : Dev) (now m k : Nat) : (d.flushNotices now m k).cam = d.cam := by
  induction k generalizing d with
  | zero => rfl
  | succ k ih => simp [Dev.flushNotices, ih]
@[simp] theorem Dev.flushNotices_fus (d : Dev) (now m k : Nat) : (d.flushNotices now m k).fus = d.fus := by
  induction k generalizing d with
  | zero => rfl
  | succ k ih => simp [Dev.flushNotices, ih]
@[simp] theorem Dev.flushNotices_plan (d : Dev) (now m k : Nat) : (d.flushNotices now m k).plan = d.plan := by
  induction k generalizing d with
  | zero => rfl
  | succ k ih => simp [Dev.flushNotices, ih]
@[simp] theorem Dev.flushNotices_le (d : Dev) (now m k : Nat) : (d.flushNotices now m k).le = d.le := by
  induction k generalizing d with
  | zero => rfl
  | succ k ih => simp [Dev.flushNotices, ih]
@[simp] theorem Dev.flushNotices_ss (d : Dev) (now m k : Nat) : (d.flushNotices now m k).ss = d.ss := by
  induction k generalizing d with
  | zero => rfl
  | succ k ih => simp [Dev.flushNotices, ih]
@[simp] theorem Dev.flushNotices_io (d : Dev) (now m k : Nat) : (d.flushNotices now m k).io = d.io := by
  induction k generalizing d with
  | zero => rfl
  | succ k ih => simp [Dev.flushNotices, ih]
@[simp] theorem Dev.flushNotices_cnl (d : Dev) (now m k : Nat) : (d.flushNotices now m k).cnl = d.cnl := by
  induction k generalizing d with
  | zero => rfl
  | succ k ih => simp [Dev.flushNotices, ih]
@[simp] theorem Dev.flushNotices_dbg (d : Dev) (now m k : Nat) : (d.flushNotices now m k).dbg = d.dbg := by
  induction k generalizing d with
  | zero => rfl
  | succ k ih => simp [Dev.flushNotices, ih]
@[simp] theorem Dev.flushNotices_cells (d : Dev) (now m k : Nat) : (d.flushNotices now m k).cells = d.cells := by
  induction k generalizing d with
  | zero => rfl
  | succ k ih => simp [Dev.flushNotices, ih]
@[simp] theorem Dev.flushNotices_cellRes (d : Dev) (now m k : Nat) : (d.flushNotices now m k).cellRes = d.cellRes := by
  induction k generalizing d with
  | zero => rfl
  | succ k ih => simp [Dev.flushNotices, ih]
@[simp] theorem Dev.flushNotices_mc (d : Dev) (now m k : Nat) : (d.flushNotices now m k).mc = d.mc := by
  induction k generalizing d with
  | zero => rfl
  | succ k ih => simp [Dev.flushNotices, ih]
@[simp] theorem Dev.flushNotices_cores (d : Dev) (now m k : Nat) : (d.flushNotices now m k).cores = d.cores := by
  induction k generalizing d with
  | zero => rfl
  | succ k ih => simp [Dev.flushNotices, ih]
@[simp] theorem Dev.flushNotices_idn (d : Dev) (now m k : Nat) : (d.flushNotices now m k).idn = d.idn := by
  induction k generalizing d with
  | zero => rfl
  | succ k ih => simp [Dev.flushNotices, ih]

/-! ### notice -/

@[simp] theorem Dev.notice_recs (d : Dev) (now m kind subject : Nat) (st : Status) (key : Key) : (d.notice now m kind subject st key).recs = d.recs := by unfold Dev.notice; simp only []; split <;> simp
@[simp] theorem Dev.notice_free (d : Dev) (now m kind subject : Nat) (st : Status) (key : Key) : (d.notice now m kind subject st key).free = d.free := by unfold Dev.notice; simp only []; split <;> simp
@[simp] theorem Dev.notice_bus (d : Dev) (now m kind subject : Nat) (st : Status) (key : Key) : (d.notice now m kind subject st key).bus = d.bus := by unfold Dev.notice; simp only []; split <;> simp
@[simp] theorem Dev.notice_module (d : Dev) (now m kind subject : Nat) (st : Status) (key : Key) : (d.notice now m kind subject st key).module = d.module := by unfold Dev.notice; simp only []; split <;> simp
@[simp] theorem Dev.notice_grants (d : Dev) (now m kind subject : Nat) (st : Status) (key : Key) : (d.notice now m kind subject st key).grants = d.grants := by unfold Dev.notice; simp only []; split <;> simp
@[simp] theorem Dev.notice_waits (d : Dev) (now m kind subject : Nat) (st : Status) (key : Key) : (d.notice now m kind subject st key).waits = d.waits := by unfold Dev.notice; simp only []; split <;> simp
@[simp] theorem Dev.notice_nextWait (d : Dev) (now m kind subject : Nat) (st : Status) (key : Key) : (d.notice now m kind subject st key).nextWait = d.nextWait := by unfold Dev.notice; simp only []; split <;> simp
@[simp] theorem Dev.notice_sysArea (d : Dev) (now m kind subject : Nat) (st : Status) (key : Key) : (d.notice now m kind subject st key).sysArea = d.sysArea := by unfold Dev.notice; simp only []; split <;> simp
@[simp] theorem Dev.notice_nor (d : Dev) (now m kind subject : Nat) (st : Status) (key : Key) : (d.notice now m kind subject st key).nor = d.nor := by unfold Dev.notice; simp only []; split <;> simp
@[simp] theorem Dev.notice_time (d : Dev) (now m kind subject : Nat) (st : Status) (key : Key) : (d.notice now m kind subject st key).time = d.time := by unfold Dev.notice; simp only []; split <;> simp
@[simp] theorem Dev.notice_cue (d : Dev) (now m kind subject : Nat) (st : Status) (key : Key) : (d.notice now m kind subject st key).cue = d.cue := by unfold Dev.notice; simp only []; split <;> simp
@[simp] theorem Dev.notice_pow (d : Dev) (now m kind subject : Nat) (st : Status) (key : Key) : (d.notice now m kind subject st key).pow = d.pow := by unfold Dev.notice; simp only []; split <;> simp
@[simp] theorem Dev.notice_pbu (d : Dev) (now m kind subject : Nat) (st : Status) (key : Key) : (d.notice now m kind subject st key).pbu = d.pbu := by unfold Dev.notice; simp only []; split <;> simp
@[simp] theorem Dev.notice_fab (d : Dev) (now m kind subject : Nat) (st : Status) (key : Key) : (d.notice now m kind subject st key).fab = d.fab := by unfold Dev.notice; simp only []; split <;> simp
@[simp] theorem Dev.notice_slu (d : Dev) (now m kind subject : Nat) (st : Status) (key : Key) : (d.notice now m kind subject st key).slu = d.slu := by unfold Dev.notice; simp only []; split <;> simp
@[simp] theorem Dev.notice_kv (d : Dev) (now m kind subject : Nat) (st : Status) (key : Key) : (d.notice now m kind subject st key).kv = d.kv := by unfold Dev.notice; simp only []; split <;> simp
@[simp] theorem Dev.notice_cam (d : Dev) (now m kind subject : Nat) (st : Status) (key : Key) : (d.notice now m kind subject st key).cam = d.cam := by unfold Dev.notice; simp only []; split <;> simp
@[simp] theorem Dev.notice_fus (d : Dev) (now m kind subject : Nat) (st : Status) (key : Key) : (d.notice now m kind subject st key).fus = d.fus := by unfold Dev.notice; simp only []; split <;> simp
@[simp] theorem Dev.notice_plan (d : Dev) (now m kind subject : Nat) (st : Status) (key : Key) : (d.notice now m kind subject st key).plan = d.plan := by unfold Dev.notice; simp only []; split <;> simp
@[simp] theorem Dev.notice_le (d : Dev) (now m kind subject : Nat) (st : Status) (key : Key) : (d.notice now m kind subject st key).le = d.le := by unfold Dev.notice; simp only []; split <;> simp
@[simp] theorem Dev.notice_ss (d : Dev) (now m kind subject : Nat) (st : Status) (key : Key) : (d.notice now m kind subject st key).ss = d.ss := by unfold Dev.notice; simp only []; split <;> simp
@[simp] theorem Dev.notice_io (d : Dev) (now m kind subject : Nat) (st : Status) (key : Key) : (d.notice now m kind subject st key).io = d.io := by unfold Dev.notice; simp only []; split <;> simp
@[simp] theorem Dev.notice_cnl (d : Dev) (now m kind subject : Nat) (st : Status) (key : Key) : (d.notice now m kind subject st key).cnl = d.cnl := by unfold Dev.notice; simp only []; split <;> simp
@[simp] theorem Dev.notice_dbg (d : Dev) (now m kind subject : Nat) (st : Status) (key : Key) : (d.notice now m kind subject st key).dbg = d.dbg := by unfold Dev.notice; simp only []; split <;> simp
@[simp] theorem Dev.notice_cells (d : Dev) (now m kind subject : Nat) (st : Status) (key : Key) : (d.notice now m kind subject st key).cells = d.cells := by unfold Dev.notice; simp only []; split <;> simp
@[simp] theorem Dev.notice_cellRes (d : Dev) (now m kind subject : Nat) (st : Status) (key : Key) : (d.notice now m kind subject st key).cellRes = d.cellRes := by unfold Dev.notice; simp only []; split <;> simp
@[simp] theorem Dev.notice_mc (d : Dev) (now m kind subject : Nat) (st : Status) (key : Key) : (d.notice now m kind subject st key).mc = d.mc := by unfold Dev.notice; simp only []; split <;> simp
@[simp] theorem Dev.notice_cores (d : Dev) (now m kind subject : Nat) (st : Status) (key : Key) : (d.notice now m kind subject st key).cores = d.cores := by unfold Dev.notice; simp only []; split <;> simp
@[simp] theorem Dev.notice_idn (d : Dev) (now m kind subject : Nat) (st : Status) (key : Key) : (d.notice now m kind subject st key).idn = d.idn := by unfold Dev.notice; simp only []; split <;> simp

/-! ### finish -/

@[simp] theorem Dev.finish_recs (d : Dev) (now : Nat) (r : Req) (st : Status) (de : Nat) (b : List Byte) : (d.finish now r st de b).recs = d.recs := by unfold Dev.finish; simp
@[simp] theorem Dev.finish_free (d : Dev) (now : Nat) (r : Req) (st : Status) (de : Nat) (b : List Byte) : (d.finish now r st de b).free = d.free := by unfold Dev.finish; simp
@[simp] theorem Dev.finish_bus (d : Dev) (now : Nat) (r : Req) (st : Status) (de : Nat) (b : List Byte) : (d.finish now r st de b).bus = d.bus := by unfold Dev.finish; simp
@[simp] theorem Dev.finish_module (d : Dev) (now : Nat) (r : Req) (st : Status) (de : Nat) (b : List Byte) : (d.finish now r st de b).module = d.module := by unfold Dev.finish; simp
@[simp] theorem Dev.finish_grants (d : Dev) (now : Nat) (r : Req) (st : Status) (de : Nat) (b : List Byte) : (d.finish now r st de b).grants = d.grants := by unfold Dev.finish; simp
@[simp] theorem Dev.finish_waits (d : Dev) (now : Nat) (r : Req) (st : Status) (de : Nat) (b : List Byte) : (d.finish now r st de b).waits = d.waits := by unfold Dev.finish; simp
@[simp] theorem Dev.finish_nextWait (d : Dev) (now : Nat) (r : Req) (st : Status) (de : Nat) (b : List Byte) : (d.finish now r st de b).nextWait = d.nextWait := by unfold Dev.finish; simp
@[simp] theorem Dev.finish_sysArea (d : Dev) (now : Nat) (r : Req) (st : Status) (de : Nat) (b : List Byte) : (d.finish now r st de b).sysArea = d.sysArea := by unfold Dev.finish; simp
@[simp] theorem Dev.finish_nor (d : Dev) (now : Nat) (r : Req) (st : Status) (de : Nat) (b : List Byte) : (d.finish now r st de b).nor = d.nor := by unfold Dev.finish; simp
@[simp] theorem Dev.finish_time (d : Dev) (now : Nat) (r : Req) (st : Status) (de : Nat) (b : List Byte) : (d.finish now r st de b).time = d.time := by unfold Dev.finish; simp
@[simp] theorem Dev.finish_cue (d : Dev) (now : Nat) (r : Req) (st : Status) (de : Nat) (b : List Byte) : (d.finish now r st de b).cue = d.cue := by unfold Dev.finish; simp
@[simp] theorem Dev.finish_pow (d : Dev) (now : Nat) (r : Req) (st : Status) (de : Nat) (b : List Byte) : (d.finish now r st de b).pow = d.pow := by unfold Dev.finish; simp
@[simp] theorem Dev.finish_pbu (d : Dev) (now : Nat) (r : Req) (st : Status) (de : Nat) (b : List Byte) : (d.finish now r st de b).pbu = d.pbu := by unfold Dev.finish; simp
@[simp] theorem Dev.finish_fab (d : Dev) (now : Nat) (r : Req) (st : Status) (de : Nat) (b : List Byte) : (d.finish now r st de b).fab = d.fab := by unfold Dev.finish; simp
@[simp] theorem Dev.finish_slu (d : Dev) (now : Nat) (r : Req) (st : Status) (de : Nat) (b : List Byte) : (d.finish now r st de b).slu = d.slu := by unfold Dev.finish; simp
@[simp] theorem Dev.finish_kv (d : Dev) (now : Nat) (r : Req) (st : Status) (de : Nat) (b : List Byte) : (d.finish now r st de b).kv = d.kv := by unfold Dev.finish; simp
@[simp] theorem Dev.finish_cam (d : Dev) (now : Nat) (r : Req) (st : Status) (de : Nat) (b : List Byte) : (d.finish now r st de b).cam = d.cam := by unfold Dev.finish; simp
@[simp] theorem Dev.finish_fus (d : Dev) (now : Nat) (r : Req) (st : Status) (de : Nat) (b : List Byte) : (d.finish now r st de b).fus = d.fus := by unfold Dev.finish; simp
@[simp] theorem Dev.finish_plan (d : Dev) (now : Nat) (r : Req) (st : Status) (de : Nat) (b : List Byte) : (d.finish now r st de b).plan = d.plan := by unfold Dev.finish; simp
@[simp] theorem Dev.finish_le (d : Dev) (now : Nat) (r : Req) (st : Status) (de : Nat) (b : List Byte) : (d.finish now r st de b).le = d.le := by unfold Dev.finish; simp
@[simp] theorem Dev.finish_ss (d : Dev) (now : Nat) (r : Req) (st : Status) (de : Nat) (b : List Byte) : (d.finish now r st de b).ss = d.ss := by unfold Dev.finish; simp
@[simp] theorem Dev.finish_io (d : Dev) (now : Nat) (r : Req) (st : Status) (de : Nat) (b : List Byte) : (d.finish now r st de b).io = d.io := by unfold Dev.finish; simp
@[simp] theorem Dev.finish_cnl (d : Dev) (now : Nat) (r : Req) (st : Status) (de : Nat) (b : List Byte) : (d.finish now r st de b).cnl = d.cnl := by unfold Dev.finish; simp
@[simp] theorem Dev.finish_dbg (d : Dev) (now : Nat) (r : Req) (st : Status) (de : Nat) (b : List Byte) : (d.finish now r st de b).dbg = d.dbg := by unfold Dev.finish; simp
@[simp] theorem Dev.finish_cells (d : Dev) (now : Nat) (r : Req) (st : Status) (de : Nat) (b : List Byte) : (d.finish now r st de b).cells = d.cells := by unfold Dev.finish; simp
@[simp] theorem Dev.finish_cellRes (d : Dev) (now : Nat) (r : Req) (st : Status) (de : Nat) (b : List Byte) : (d.finish now r st de b).cellRes = d.cellRes := by unfold Dev.finish; simp
@[simp] theorem Dev.finish_mc (d : Dev) (now : Nat) (r : Req) (st : Status) (de : Nat) (b : List Byte) : (d.finish now r st de b).mc = d.mc := by unfold Dev.finish; simp
@[simp] theorem Dev.finish_cores (d : Dev) (now : Nat) (r : Req) (st : Status) (de : Nat) (b : List Byte) : (d.finish now r st de b).cores = d.cores := by unfold Dev.finish; simp
@[simp] theorem Dev.finish_idn (d : Dev) (now : Nat) (r : Req) (st : Status) (de : Nat) (b : List Byte) : (d.finish now r st de b).idn = d.idn := by unfold Dev.finish; simp

/-! ### finishAt -/

@[simp] theorem Dev.finishAt_recs (d : Dev) (now : Nat) (ms : Nat × Nat) (st : Status) (de : Nat) (b : List Byte) : (d.finishAt now ms st de b).recs = d.recs := by unfold Dev.finishAt; split <;> simp
@[simp] theorem Dev.finishAt_free (d : Dev) (now : Nat) (ms : Nat × Nat) (st : Status) (de : Nat) (b : List Byte) : (d.finishAt now ms st de b).free = d.free := by unfold Dev.finishAt; split <;> simp
@[simp] theorem Dev.finishAt_bus (d : Dev) (now : Nat) (ms : Nat × Nat) (st : Status) (de : Nat) (b : List Byte) : (d.finishAt now ms st de b).bus = d.bus := by unfold Dev.finishAt; split <;> simp
@[simp] theorem Dev.finishAt_module (d : Dev) (now : Nat) (ms : Nat × Nat) (st : Status) (de : Nat) (b : List Byte) : (d.finishAt now ms st de b).module = d.module := by unfold Dev.finishAt; split <;> simp
@[simp] theorem Dev.finishAt_grants (d : Dev) (now : Nat) (ms : Nat × Nat) (st : Status) (de : Nat) (b : List Byte) : (d.finishAt now ms st de b).grants = d.grants := by unfold Dev.finishAt; split <;> simp
@[simp] theorem Dev.finishAt_waits (d : Dev) (now : Nat) (ms : Nat × Nat) (st : Status) (de : Nat) (b : List Byte) : (d.finishAt now ms st de b).waits = d.waits := by unfold Dev.finishAt; split <;> simp
@[simp] theorem Dev.finishAt_nextWait (d : Dev) (now : Nat) (ms : Nat × Nat) (st : Status) (de : Nat) (b : List Byte) : (d.finishAt now ms st de b).nextWait = d.nextWait := by unfold Dev.finishAt; split <;> simp
@[simp] theorem Dev.finishAt_sysArea (d : Dev) (now : Nat) (ms : Nat × Nat) (st : Status) (de : Nat) (b : List Byte) : (d.finishAt now ms st de b).sysArea = d.sysArea := by unfold Dev.finishAt; split <;> simp
@[simp] theorem Dev.finishAt_nor (d : Dev) (now : Nat) (ms : Nat × Nat) (st : Status) (de : Nat) (b : List Byte) : (d.finishAt now ms st de b).nor = d.nor := by unfold Dev.finishAt; split <;> simp
@[simp] theorem Dev.finishAt_time (d : Dev) (now : Nat) (ms : Nat × Nat) (st : Status) (de : Nat) (b : List Byte) : (d.finishAt now ms st de b).time = d.time := by unfold Dev.finishAt; split <;> simp
@[simp] theorem Dev.finishAt_cue (d : Dev) (now : Nat) (ms : Nat × Nat) (st : Status) (de : Nat) (b : List Byte) : (d.finishAt now ms st de b).cue = d.cue := by unfold Dev.finishAt; split <;> simp
@[simp] theorem Dev.finishAt_pow (d : Dev) (now : Nat) (ms : Nat × Nat) (st : Status) (de : Nat) (b : List Byte) : (d.finishAt now ms st de b).pow = d.pow := by unfold Dev.finishAt; split <;> simp
@[simp] theorem Dev.finishAt_pbu (d : Dev) (now : Nat) (ms : Nat × Nat) (st : Status) (de : Nat) (b : List Byte) : (d.finishAt now ms st de b).pbu = d.pbu := by unfold Dev.finishAt; split <;> simp
@[simp] theorem Dev.finishAt_fab (d : Dev) (now : Nat) (ms : Nat × Nat) (st : Status) (de : Nat) (b : List Byte) : (d.finishAt now ms st de b).fab = d.fab := by unfold Dev.finishAt; split <;> simp
@[simp] theorem Dev.finishAt_slu (d : Dev) (now : Nat) (ms : Nat × Nat) (st : Status) (de : Nat) (b : List Byte) : (d.finishAt now ms st de b).slu = d.slu := by unfold Dev.finishAt; split <;> simp
@[simp] theorem Dev.finishAt_kv (d : Dev) (now : Nat) (ms : Nat × Nat) (st : Status) (de : Nat) (b : List Byte) : (d.finishAt now ms st de b).kv = d.kv := by unfold Dev.finishAt; split <;> simp
@[simp] theorem Dev.finishAt_cam (d : Dev) (now : Nat) (ms : Nat × Nat) (st : Status) (de : Nat) (b : List Byte) : (d.finishAt now ms st de b).cam = d.cam := by unfold Dev.finishAt; split <;> simp
@[simp] theorem Dev.finishAt_fus (d : Dev) (now : Nat) (ms : Nat × Nat) (st : Status) (de : Nat) (b : List Byte) : (d.finishAt now ms st de b).fus = d.fus := by unfold Dev.finishAt; split <;> simp
@[simp] theorem Dev.finishAt_plan (d : Dev) (now : Nat) (ms : Nat × Nat) (st : Status) (de : Nat) (b : List Byte) : (d.finishAt now ms st de b).plan = d.plan := by unfold Dev.finishAt; split <;> simp
@[simp] theorem Dev.finishAt_le (d : Dev) (now : Nat) (ms : Nat × Nat) (st : Status) (de : Nat) (b : List Byte) : (d.finishAt now ms st de b).le = d.le := by unfold Dev.finishAt; split <;> simp
@[simp] theorem Dev.finishAt_ss (d : Dev) (now : Nat) (ms : Nat × Nat) (st : Status) (de : Nat) (b : List Byte) : (d.finishAt now ms st de b).ss = d.ss := by unfold Dev.finishAt; split <;> simp
@[simp] theorem Dev.finishAt_io (d : Dev) (now : Nat) (ms : Nat × Nat) (st : Status) (de : Nat) (b : List Byte) : (d.finishAt now ms st de b).io = d.io := by unfold Dev.finishAt; split <;> simp
@[simp] theorem Dev.finishAt_cnl (d : Dev) (now : Nat) (ms : Nat × Nat) (st : Status) (de : Nat) (b : List Byte) : (d.finishAt now ms st de b).cnl = d.cnl := by unfold Dev.finishAt; split <;> simp
@[simp] theorem Dev.finishAt_dbg (d : Dev) (now : Nat) (ms : Nat × Nat) (st : Status) (de : Nat) (b : List Byte) : (d.finishAt now ms st de b).dbg = d.dbg := by unfold Dev.finishAt; split <;> simp
@[simp] theorem Dev.finishAt_cells (d : Dev) (now : Nat) (ms : Nat × Nat) (st : Status) (de : Nat) (b : List Byte) : (d.finishAt now ms st de b).cells = d.cells := by unfold Dev.finishAt; split <;> simp
@[simp] theorem Dev.finishAt_cellRes (d : Dev) (now : Nat) (ms : Nat × Nat) (st : Status) (de : Nat) (b : List Byte) : (d.finishAt now ms st de b).cellRes = d.cellRes := by unfold Dev.finishAt; split <;> simp
@[simp] theorem Dev.finishAt_mc (d : Dev) (now : Nat) (ms : Nat × Nat) (st : Status) (de : Nat) (b : List Byte) : (d.finishAt now ms st de b).mc = d.mc := by unfold Dev.finishAt; split <;> simp
@[simp] theorem Dev.finishAt_cores (d : Dev) (now : Nat) (ms : Nat × Nat) (st : Status) (de : Nat) (b : List Byte) : (d.finishAt now ms st de b).cores = d.cores := by unfold Dev.finishAt; split <;> simp
@[simp] theorem Dev.finishAt_idn (d : Dev) (now : Nat) (ms : Nat × Nat) (st : Status) (de : Nat) (b : List Byte) : (d.finishAt now ms st de b).idn = d.idn := by unfold Dev.finishAt; split <;> simp

/-! ### decide' -/

@[simp] theorem Dev.decide'_regs (d : Dev) (r : Req) : (d.decide' r).regs = d.regs := rfl
@[simp] theorem Dev.decide'_recs (d : Dev) (r : Req) : (d.decide' r).recs = d.recs := rfl
@[simp] theorem Dev.decide'_cnt (d : Dev) (r : Req) : (d.decide' r).cnt = d.cnt := rfl
@[simp] theorem Dev.decide'_free (d : Dev) (r : Req) : (d.decide' r).free = d.free := rfl
@[simp] theorem Dev.decide'_bus (d : Dev) (r : Req) : (d.decide' r).bus = d.bus := rfl
@[simp] theorem Dev.decide'_module (d : Dev) (r : Req) : (d.decide' r).module = d.module := rfl
@[simp] theorem Dev.decide'_mem (d : Dev) (r : Req) : (d.decide' r).mem = d.mem := rfl
@[simp] theorem Dev.decide'_grants (d : Dev) (r : Req) : (d.decide' r).grants = d.grants := rfl
@[simp] theorem Dev.decide'_waits (d : Dev) (r : Req) : (d.decide' r).waits = d.waits := rfl
@[simp] theorem Dev.decide'_nextWait (d : Dev) (r : Req) : (d.decide' r).nextWait = d.nextWait := rfl
@[simp] theorem Dev.decide'_sysArea (d : Dev) (r : Req) : (d.decide' r).sysArea = d.sysArea := rfl
@[simp] theorem Dev.decide'_nor (d : Dev) (r : Req) : (d.decide' r).nor = d.nor := rfl
@[simp] theorem Dev.decide'_time (d : Dev) (r : Req) : (d.decide' r).time = d.time := rfl
@[simp] theorem Dev.decide'_cue (d : Dev) (r : Req) : (d.decide' r).cue = d.cue := rfl
@[simp] theorem Dev.decide'_pow (d : Dev) (r : Req) : (d.decide' r).pow = d.pow := rfl
@[simp] theorem Dev.decide'_eic (d : Dev) (r : Req) : (d.decide' r).eic = d.eic := rfl
@[simp] theorem Dev.decide'_pbu (d : Dev) (r : Req) : (d.decide' r).pbu = d.pbu := rfl
@[simp] theorem Dev.decide'_fab (d : Dev) (r : Req) : (d.decide' r).fab = d.fab := rfl
@[simp] theorem Dev.decide'_slu (d : Dev) (r : Req) : (d.decide' r).slu = d.slu := rfl
@[simp] theorem Dev.decide'_kv (d : Dev) (r : Req) : (d.decide' r).kv = d.kv := rfl
@[simp] theorem Dev.decide'_cam (d : Dev) (r : Req) : (d.decide' r).cam = d.cam := rfl
@[simp] theorem Dev.decide'_fus (d : Dev) (r : Req) : (d.decide' r).fus = d.fus := rfl
@[simp] theorem Dev.decide'_plan (d : Dev) (r : Req) : (d.decide' r).plan = d.plan := rfl
@[simp] theorem Dev.decide'_le (d : Dev) (r : Req) : (d.decide' r).le = d.le := rfl
@[simp] theorem Dev.decide'_ss (d : Dev) (r : Req) : (d.decide' r).ss = d.ss := rfl
@[simp] theorem Dev.decide'_io (d : Dev) (r : Req) : (d.decide' r).io = d.io := rfl
@[simp] theorem Dev.decide'_cnl (d : Dev) (r : Req) : (d.decide' r).cnl = d.cnl := rfl
@[simp] theorem Dev.decide'_dbg (d : Dev) (r : Req) : (d.decide' r).dbg = d.dbg := rfl
@[simp] theorem Dev.decide'_cells (d : Dev) (r : Req) : (d.decide' r).cells = d.cells := rfl
@[simp] theorem Dev.decide'_cellRes (d : Dev) (r : Req) : (d.decide' r).cellRes = d.cellRes := rfl
@[simp] theorem Dev.decide'_mc (d : Dev) (r : Req) : (d.decide' r).mc = d.mc := rfl
@[simp] theorem Dev.decide'_cores (d : Dev) (r : Req) : (d.decide' r).cores = d.cores := rfl
@[simp] theorem Dev.decide'_idn (d : Dev) (r : Req) : (d.decide' r).idn = d.idn := rfl

/-! ### violate -/

@[simp] theorem Dev.violate_recs (d : Dev) (now c a : Nat) (x : Acc) : (d.violate now c a x).recs = d.recs := by unfold Dev.violate; simp only []; split <;> split <;> simp
@[simp] theorem Dev.violate_free (d : Dev) (now c a : Nat) (x : Acc) : (d.violate now c a x).free = d.free := by unfold Dev.violate; simp only []; split <;> split <;> simp
@[simp] theorem Dev.violate_module (d : Dev) (now c a : Nat) (x : Acc) : (d.violate now c a x).module = d.module := by unfold Dev.violate; simp only []; split <;> split <;> simp
@[simp] theorem Dev.violate_mem (d : Dev) (now c a : Nat) (x : Acc) : (d.violate now c a x).mem = d.mem := by unfold Dev.violate; simp only []; split <;> split <;> simp
@[simp] theorem Dev.violate_grants (d : Dev) (now c a : Nat) (x : Acc) : (d.violate now c a x).grants = d.grants := by unfold Dev.violate; simp only []; split <;> split <;> simp
@[simp] theorem Dev.violate_waits (d : Dev) (now c a : Nat) (x : Acc) : (d.violate now c a x).waits = d.waits := by unfold Dev.violate; simp only []; split <;> split <;> simp
@[simp] theorem Dev.violate_nextWait (d : Dev) (now c a : Nat) (x : Acc) : (d.violate now c a x).nextWait = d.nextWait := by unfold Dev.violate; simp only []; split <;> split <;> simp
@[simp] theorem Dev.violate_sysArea (d : Dev) (now c a : Nat) (x : Acc) : (d.violate now c a x).sysArea = d.sysArea := by unfold Dev.violate; simp only []; split <;> split <;> simp
@[simp] theorem Dev.violate_nor (d : Dev) (now c a : Nat) (x : Acc) : (d.violate now c a x).nor = d.nor := by unfold Dev.violate; simp only []; split <;> split <;> simp
@[simp] theorem Dev.violate_time (d : Dev) (now c a : Nat) (x : Acc) : (d.violate now c a x).time = d.time := by unfold Dev.violate; simp only []; split <;> split <;> simp
@[simp] theorem Dev.violate_cue (d : Dev) (now c a : Nat) (x : Acc) : (d.violate now c a x).cue = d.cue := by unfold Dev.violate; simp only []; split <;> split <;> simp
@[simp] theorem Dev.violate_pow (d : Dev) (now c a : Nat) (x : Acc) : (d.violate now c a x).pow = d.pow := by unfold Dev.violate; simp only []; split <;> split <;> simp
@[simp] theorem Dev.violate_eic (d : Dev) (now c a : Nat) (x : Acc) : (d.violate now c a x).eic = d.eic := by unfold Dev.violate; simp only []; split <;> split <;> simp
@[simp] theorem Dev.violate_stew (d : Dev) (now c a : Nat) (x : Acc) : (d.violate now c a x).stew = d.stew := by unfold Dev.violate; simp only []; split <;> split <;> simp
@[simp] theorem Dev.violate_pbu (d : Dev) (now c a : Nat) (x : Acc) : (d.violate now c a x).pbu = d.pbu := by unfold Dev.violate; simp only []; split <;> split <;> simp
@[simp] theorem Dev.violate_fab (d : Dev) (now c a : Nat) (x : Acc) : (d.violate now c a x).fab = d.fab := by unfold Dev.violate; simp only []; split <;> split <;> simp
@[simp] theorem Dev.violate_slu (d : Dev) (now c a : Nat) (x : Acc) : (d.violate now c a x).slu = d.slu := by unfold Dev.violate; simp only []; split <;> split <;> simp
@[simp] theorem Dev.violate_kv (d : Dev) (now c a : Nat) (x : Acc) : (d.violate now c a x).kv = d.kv := by unfold Dev.violate; simp only []; split <;> split <;> simp
@[simp] theorem Dev.violate_cam (d : Dev) (now c a : Nat) (x : Acc) : (d.violate now c a x).cam = d.cam := by unfold Dev.violate; simp only []; split <;> split <;> simp
@[simp] theorem Dev.violate_fus (d : Dev) (now c a : Nat) (x : Acc) : (d.violate now c a x).fus = d.fus := by unfold Dev.violate; simp only []; split <;> split <;> simp
@[simp] theorem Dev.violate_plan (d : Dev) (now c a : Nat) (x : Acc) : (d.violate now c a x).plan = d.plan := by unfold Dev.violate; simp only []; split <;> split <;> simp
@[simp] theorem Dev.violate_le (d : Dev) (now c a : Nat) (x : Acc) : (d.violate now c a x).le = d.le := by unfold Dev.violate; simp only []; split <;> split <;> simp
@[simp] theorem Dev.violate_ss (d : Dev) (now c a : Nat) (x : Acc) : (d.violate now c a x).ss = d.ss := by unfold Dev.violate; simp only []; split <;> split <;> simp
@[simp] theorem Dev.violate_io (d : Dev) (now c a : Nat) (x : Acc) : (d.violate now c a x).io = d.io := by unfold Dev.violate; simp only []; split <;> split <;> simp
@[simp] theorem Dev.violate_cnl (d : Dev) (now c a : Nat) (x : Acc) : (d.violate now c a x).cnl = d.cnl := by unfold Dev.violate; simp only []; split <;> split <;> simp
@[simp] theorem Dev.violate_dbg (d : Dev) (now c a : Nat) (x : Acc) : (d.violate now c a x).dbg = d.dbg := by unfold Dev.violate; simp only []; split <;> split <;> simp
@[simp] theorem Dev.violate_cells (d : Dev) (now c a : Nat) (x : Acc) : (d.violate now c a x).cells = d.cells := by unfold Dev.violate; simp only []; split <;> split <;> simp
@[simp] theorem Dev.violate_cellRes (d : Dev) (now c a : Nat) (x : Acc) : (d.violate now c a x).cellRes = d.cellRes := by unfold Dev.violate; simp only []; split <;> split <;> simp
@[simp] theorem Dev.violate_cores (d : Dev) (now c a : Nat) (x : Acc) : (d.violate now c a x).cores = d.cores := by unfold Dev.violate; simp only []; split <;> split <;> simp
@[simp] theorem Dev.violate_idn (d : Dev) (now c a : Nat) (x : Acc) : (d.violate now c a x).idn = d.idn := by unfold Dev.violate; simp only []; split <;> split <;> simp

/-! ### faulted -/

@[simp] theorem Dev.faulted_recs (d : Dev) (l : Bool) (now c a n : Nat) (x : Acc) : (d.faulted l now c a n x).recs = d.recs := by unfold Dev.faulted; split <;> simp
@[simp] theorem Dev.faulted_free (d : Dev) (l : Bool) (now c a n : Nat) (x : Acc) : (d.faulted l now c a n x).free = d.free := by unfold Dev.faulted; split <;> simp
@[simp] theorem Dev.faulted_module (d : Dev) (l : Bool) (now c a n : Nat) (x : Acc) : (d.faulted l now c a n x).module = d.module := by unfold Dev.faulted; split <;> simp
@[simp] theorem Dev.faulted_mem (d : Dev) (l : Bool) (now c a n : Nat) (x : Acc) : (d.faulted l now c a n x).mem = d.mem := by unfold Dev.faulted; split <;> simp
@[simp] theorem Dev.faulted_grants (d : Dev) (l : Bool) (now c a n : Nat) (x : Acc) : (d.faulted l now c a n x).grants = d.grants := by unfold Dev.faulted; split <;> simp
@[simp] theorem Dev.faulted_waits (d : Dev) (l : Bool) (now c a n : Nat) (x : Acc) : (d.faulted l now c a n x).waits = d.waits := by unfold Dev.faulted; split <;> simp
@[simp] theorem Dev.faulted_nextWait (d : Dev) (l : Bool) (now c a n : Nat) (x : Acc) : (d.faulted l now c a n x).nextWait = d.nextWait := by unfold Dev.faulted; split <;> simp
@[simp] theorem Dev.faulted_sysArea (d : Dev) (l : Bool) (now c a n : Nat) (x : Acc) : (d.faulted l now c a n x).sysArea = d.sysArea := by unfold Dev.faulted; split <;> simp
@[simp] theorem Dev.faulted_nor (d : Dev) (l : Bool) (now c a n : Nat) (x : Acc) : (d.faulted l now c a n x).nor = d.nor := by unfold Dev.faulted; split <;> simp
@[simp] theorem Dev.faulted_time (d : Dev) (l : Bool) (now c a n : Nat) (x : Acc) : (d.faulted l now c a n x).time = d.time := by unfold Dev.faulted; split <;> simp
@[simp] theorem Dev.faulted_cue (d : Dev) (l : Bool) (now c a n : Nat) (x : Acc) : (d.faulted l now c a n x).cue = d.cue := by unfold Dev.faulted; split <;> simp
@[simp] theorem Dev.faulted_pow (d : Dev) (l : Bool) (now c a n : Nat) (x : Acc) : (d.faulted l now c a n x).pow = d.pow := by unfold Dev.faulted; split <;> simp
@[simp] theorem Dev.faulted_eic (d : Dev) (l : Bool) (now c a n : Nat) (x : Acc) : (d.faulted l now c a n x).eic = d.eic := by unfold Dev.faulted; split <;> simp
@[simp] theorem Dev.faulted_stew (d : Dev) (l : Bool) (now c a n : Nat) (x : Acc) : (d.faulted l now c a n x).stew = d.stew := by unfold Dev.faulted; split <;> simp
@[simp] theorem Dev.faulted_pbu (d : Dev) (l : Bool) (now c a n : Nat) (x : Acc) : (d.faulted l now c a n x).pbu = d.pbu := by unfold Dev.faulted; split <;> simp
@[simp] theorem Dev.faulted_fab (d : Dev) (l : Bool) (now c a n : Nat) (x : Acc) : (d.faulted l now c a n x).fab = d.fab := by unfold Dev.faulted; split <;> simp
@[simp] theorem Dev.faulted_slu (d : Dev) (l : Bool) (now c a n : Nat) (x : Acc) : (d.faulted l now c a n x).slu = d.slu := by unfold Dev.faulted; split <;> simp
@[simp] theorem Dev.faulted_kv (d : Dev) (l : Bool) (now c a n : Nat) (x : Acc) : (d.faulted l now c a n x).kv = d.kv := by unfold Dev.faulted; split <;> simp
@[simp] theorem Dev.faulted_cam (d : Dev) (l : Bool) (now c a n : Nat) (x : Acc) : (d.faulted l now c a n x).cam = d.cam := by unfold Dev.faulted; split <;> simp
@[simp] theorem Dev.faulted_fus (d : Dev) (l : Bool) (now c a n : Nat) (x : Acc) : (d.faulted l now c a n x).fus = d.fus := by unfold Dev.faulted; split <;> simp
@[simp] theorem Dev.faulted_plan (d : Dev) (l : Bool) (now c a n : Nat) (x : Acc) : (d.faulted l now c a n x).plan = d.plan := by unfold Dev.faulted; split <;> simp
@[simp] theorem Dev.faulted_le (d : Dev) (l : Bool) (now c a n : Nat) (x : Acc) : (d.faulted l now c a n x).le = d.le := by unfold Dev.faulted; split <;> simp
@[simp] theorem Dev.faulted_ss (d : Dev) (l : Bool) (now c a n : Nat) (x : Acc) : (d.faulted l now c a n x).ss = d.ss := by unfold Dev.faulted; split <;> simp
@[simp] theorem Dev.faulted_io (d : Dev) (l : Bool) (now c a n : Nat) (x : Acc) : (d.faulted l now c a n x).io = d.io := by unfold Dev.faulted; split <;> simp
@[simp] theorem Dev.faulted_cnl (d : Dev) (l : Bool) (now c a n : Nat) (x : Acc) : (d.faulted l now c a n x).cnl = d.cnl := by unfold Dev.faulted; split <;> simp
@[simp] theorem Dev.faulted_dbg (d : Dev) (l : Bool) (now c a n : Nat) (x : Acc) : (d.faulted l now c a n x).dbg = d.dbg := by unfold Dev.faulted; split <;> simp
@[simp] theorem Dev.faulted_cells (d : Dev) (l : Bool) (now c a n : Nat) (x : Acc) : (d.faulted l now c a n x).cells = d.cells := by unfold Dev.faulted; split <;> simp
@[simp] theorem Dev.faulted_cellRes (d : Dev) (l : Bool) (now c a n : Nat) (x : Acc) : (d.faulted l now c a n x).cellRes = d.cellRes := by unfold Dev.faulted; split <;> simp
@[simp] theorem Dev.faulted_cores (d : Dev) (l : Bool) (now c a n : Nat) (x : Acc) : (d.faulted l now c a n x).cores = d.cores := by unfold Dev.faulted; split <;> simp
@[simp] theorem Dev.faulted_idn (d : Dev) (l : Bool) (now c a n : Nat) (x : Acc) : (d.faulted l now c a n x).idn = d.idn := by unfold Dev.faulted; split <;> simp

end Sys2Proof.Machine
end

