-- ==== Sys2Proof/Laws/Updates.lean ====
section
/-! SUPPORT. What the updates of the families leave as it is; what a step on a queue and on an empty queue does. -/

namespace Sys2Proof.Machine

/-- A step with a command in front is that command on the rest. -/
@[simp] theorem step_cons {s : State} {c : Instr} {rest : List Instr} (h : s.pending = c :: rest) : step s = exec c { s with pending := rest } := by
  unfold step; rw [h]

/-! ### setCell -/

@[simp] theorem Dev.setCell_regs (d : Dev) (n : Nat) (x : Cell) : (d.setCell n x).regs = d.regs := rfl
@[simp] theorem Dev.setCell_recs (d : Dev) (n : Nat) (x : Cell) : (d.setCell n x).recs = d.recs := rfl
@[simp] theorem Dev.setCell_cnt (d : Dev) (n : Nat) (x : Cell) : (d.setCell n x).cnt = d.cnt := rfl
@[simp] theorem Dev.setCell_free (d : Dev) (n : Nat) (x : Cell) : (d.setCell n x).free = d.free := rfl
@[simp] theorem Dev.setCell_bus (d : Dev) (n : Nat) (x : Cell) : (d.setCell n x).bus = d.bus := rfl
@[simp] theorem Dev.setCell_module (d : Dev) (n : Nat) (x : Cell) : (d.setCell n x).module = d.module := rfl
@[simp] theorem Dev.setCell_mem (d : Dev) (n : Nat) (x : Cell) : (d.setCell n x).mem = d.mem := rfl
@[simp] theorem Dev.setCell_grants (d : Dev) (n : Nat) (x : Cell) : (d.setCell n x).grants = d.grants := rfl
@[simp] theorem Dev.setCell_waits (d : Dev) (n : Nat) (x : Cell) : (d.setCell n x).waits = d.waits := rfl
@[simp] theorem Dev.setCell_nextWait (d : Dev) (n : Nat) (x : Cell) : (d.setCell n x).nextWait = d.nextWait := rfl
@[simp] theorem Dev.setCell_sysArea (d : Dev) (n : Nat) (x : Cell) : (d.setCell n x).sysArea = d.sysArea := rfl
@[simp] theorem Dev.setCell_nor (d : Dev) (n : Nat) (x : Cell) : (d.setCell n x).nor = d.nor := rfl
@[simp] theorem Dev.setCell_time (d : Dev) (n : Nat) (x : Cell) : (d.setCell n x).time = d.time := rfl
@[simp] theorem Dev.setCell_cue (d : Dev) (n : Nat) (x : Cell) : (d.setCell n x).cue = d.cue := rfl
@[simp] theorem Dev.setCell_pow (d : Dev) (n : Nat) (x : Cell) : (d.setCell n x).pow = d.pow := rfl
@[simp] theorem Dev.setCell_eic (d : Dev) (n : Nat) (x : Cell) : (d.setCell n x).eic = d.eic := rfl
@[simp] theorem Dev.setCell_stew (d : Dev) (n : Nat) (x : Cell) : (d.setCell n x).stew = d.stew := rfl
@[simp] theorem Dev.setCell_pbu (d : Dev) (n : Nat) (x : Cell) : (d.setCell n x).pbu = d.pbu := rfl
@[simp] theorem Dev.setCell_fab (d : Dev) (n : Nat) (x : Cell) : (d.setCell n x).fab = d.fab := rfl
@[simp] theorem Dev.setCell_slu (d : Dev) (n : Nat) (x : Cell) : (d.setCell n x).slu = d.slu := rfl
@[simp] theorem Dev.setCell_kv (d : Dev) (n : Nat) (x : Cell) : (d.setCell n x).kv = d.kv := rfl
@[simp] theorem Dev.setCell_cam (d : Dev) (n : Nat) (x : Cell) : (d.setCell n x).cam = d.cam := rfl
@[simp] theorem Dev.setCell_fus (d : Dev) (n : Nat) (x : Cell) : (d.setCell n x).fus = d.fus := rfl
@[simp] theorem Dev.setCell_plan (d : Dev) (n : Nat) (x : Cell) : (d.setCell n x).plan = d.plan := rfl
@[simp] theorem Dev.setCell_le (d : Dev) (n : Nat) (x : Cell) : (d.setCell n x).le = d.le := rfl
@[simp] theorem Dev.setCell_ss (d : Dev) (n : Nat) (x : Cell) : (d.setCell n x).ss = d.ss := rfl
@[simp] theorem Dev.setCell_io (d : Dev) (n : Nat) (x : Cell) : (d.setCell n x).io = d.io := rfl
@[simp] theorem Dev.setCell_cnl (d : Dev) (n : Nat) (x : Cell) : (d.setCell n x).cnl = d.cnl := rfl
@[simp] theorem Dev.setCell_dbg (d : Dev) (n : Nat) (x : Cell) : (d.setCell n x).dbg = d.dbg := rfl
@[simp] theorem Dev.setCell_cellRes (d : Dev) (n : Nat) (x : Cell) : (d.setCell n x).cellRes = d.cellRes := rfl
@[simp] theorem Dev.setCell_mc (d : Dev) (n : Nat) (x : Cell) : (d.setCell n x).mc = d.mc := rfl
@[simp] theorem Dev.setCell_cores (d : Dev) (n : Nat) (x : Cell) : (d.setCell n x).cores = d.cores := rfl
@[simp] theorem Dev.setCell_idn (d : Dev) (n : Nat) (x : Cell) : (d.setCell n x).idn = d.idn := rfl

/-! ### setHolds -/

@[simp] theorem Dev.setHolds_regs (d : Dev) (c : Nat) (h : List (Nat × Key)) : (d.setHolds c h).regs = d.regs := rfl
@[simp] theorem Dev.setHolds_recs (d : Dev) (c : Nat) (h : List (Nat × Key)) : (d.setHolds c h).recs = d.recs := rfl
@[simp] theorem Dev.setHolds_cnt (d : Dev) (c : Nat) (h : List (Nat × Key)) : (d.setHolds c h).cnt = d.cnt := rfl
@[simp] theorem Dev.setHolds_free (d : Dev) (c : Nat) (h : List (Nat × Key)) : (d.setHolds c h).free = d.free := rfl
@[simp] theorem Dev.setHolds_bus (d : Dev) (c : Nat) (h : List (Nat × Key)) : (d.setHolds c h).bus = d.bus := rfl
@[simp] theorem Dev.setHolds_module (d : Dev) (c : Nat) (h : List (Nat × Key)) : (d.setHolds c h).module = d.module := rfl
@[simp] theorem Dev.setHolds_mem (d : Dev) (c : Nat) (h : List (Nat × Key)) : (d.setHolds c h).mem = d.mem := rfl
@[simp] theorem Dev.setHolds_grants (d : Dev) (c : Nat) (h : List (Nat × Key)) : (d.setHolds c h).grants = d.grants := rfl
@[simp] theorem Dev.setHolds_waits (d : Dev) (c : Nat) (h : List (Nat × Key)) : (d.setHolds c h).waits = d.waits := rfl
@[simp] theorem Dev.setHolds_nextWait (d : Dev) (c : Nat) (h : List (Nat × Key)) : (d.setHolds c h).nextWait = d.nextWait := rfl
@[simp] theorem Dev.setHolds_sysArea (d : Dev) (c : Nat) (h : List (Nat × Key)) : (d.setHolds c h).sysArea = d.sysArea := rfl
@[simp] theorem Dev.setHolds_nor (d : Dev) (c : Nat) (h : List (Nat × Key)) : (d.setHolds c h).nor = d.nor := rfl
@[simp] theorem Dev.setHolds_time (d : Dev) (c : Nat) (h : List (Nat × Key)) : (d.setHolds c h).time = d.time := rfl
@[simp] theorem Dev.setHolds_cue (d : Dev) (c : Nat) (h : List (Nat × Key)) : (d.setHolds c h).cue = d.cue := rfl
@[simp] theorem Dev.setHolds_pow (d : Dev) (c : Nat) (h : List (Nat × Key)) : (d.setHolds c h).pow = d.pow := rfl
@[simp] theorem Dev.setHolds_eic (d : Dev) (c : Nat) (h : List (Nat × Key)) : (d.setHolds c h).eic = d.eic := rfl
@[simp] theorem Dev.setHolds_stew (d : Dev) (c : Nat) (h : List (Nat × Key)) : (d.setHolds c h).stew = d.stew := rfl
@[simp] theorem Dev.setHolds_pbu (d : Dev) (c : Nat) (h : List (Nat × Key)) : (d.setHolds c h).pbu = d.pbu := rfl
@[simp] theorem Dev.setHolds_slu (d : Dev) (c : Nat) (h : List (Nat × Key)) : (d.setHolds c h).slu = d.slu := rfl
@[simp] theorem Dev.setHolds_kv (d : Dev) (c : Nat) (h : List (Nat × Key)) : (d.setHolds c h).kv = d.kv := rfl
@[simp] theorem Dev.setHolds_cam (d : Dev) (c : Nat) (h : List (Nat × Key)) : (d.setHolds c h).cam = d.cam := rfl
@[simp] theorem Dev.setHolds_fus (d : Dev) (c : Nat) (h : List (Nat × Key)) : (d.setHolds c h).fus = d.fus := rfl
@[simp] theorem Dev.setHolds_plan (d : Dev) (c : Nat) (h : List (Nat × Key)) : (d.setHolds c h).plan = d.plan := rfl
@[simp] theorem Dev.setHolds_le (d : Dev) (c : Nat) (h : List (Nat × Key)) : (d.setHolds c h).le = d.le := rfl
@[simp] theorem Dev.setHolds_ss (d : Dev) (c : Nat) (h : List (Nat × Key)) : (d.setHolds c h).ss = d.ss := rfl
@[simp] theorem Dev.setHolds_io (d : Dev) (c : Nat) (h : List (Nat × Key)) : (d.setHolds c h).io = d.io := rfl
@[simp] theorem Dev.setHolds_cnl (d : Dev) (c : Nat) (h : List (Nat × Key)) : (d.setHolds c h).cnl = d.cnl := rfl
@[simp] theorem Dev.setHolds_dbg (d : Dev) (c : Nat) (h : List (Nat × Key)) : (d.setHolds c h).dbg = d.dbg := rfl
@[simp] theorem Dev.setHolds_cells (d : Dev) (c : Nat) (h : List (Nat × Key)) : (d.setHolds c h).cells = d.cells := rfl
@[simp] theorem Dev.setHolds_cellRes (d : Dev) (c : Nat) (h : List (Nat × Key)) : (d.setHolds c h).cellRes = d.cellRes := rfl
@[simp] theorem Dev.setHolds_mc (d : Dev) (c : Nat) (h : List (Nat × Key)) : (d.setHolds c h).mc = d.mc := rfl
@[simp] theorem Dev.setHolds_cores (d : Dev) (c : Nat) (h : List (Nat × Key)) : (d.setHolds c h).cores = d.cores := rfl
@[simp] theorem Dev.setHolds_idn (d : Dev) (c : Nat) (h : List (Nat × Key)) : (d.setHolds c h).idn = d.idn := rfl

/-! ### setBasin -/

@[simp] theorem Dev.setBasin_regs (d : Dev) (l : Nat) (b : Basin) : (d.setBasin l b).regs = d.regs := rfl
@[simp] theorem Dev.setBasin_recs (d : Dev) (l : Nat) (b : Basin) : (d.setBasin l b).recs = d.recs := rfl
@[simp] theorem Dev.setBasin_cnt (d : Dev) (l : Nat) (b : Basin) : (d.setBasin l b).cnt = d.cnt := rfl
@[simp] theorem Dev.setBasin_free (d : Dev) (l : Nat) (b : Basin) : (d.setBasin l b).free = d.free := rfl
@[simp] theorem Dev.setBasin_bus (d : Dev) (l : Nat) (b : Basin) : (d.setBasin l b).bus = d.bus := rfl
@[simp] theorem Dev.setBasin_module (d : Dev) (l : Nat) (b : Basin) : (d.setBasin l b).module = d.module := rfl
@[simp] theorem Dev.setBasin_mem (d : Dev) (l : Nat) (b : Basin) : (d.setBasin l b).mem = d.mem := rfl
@[simp] theorem Dev.setBasin_grants (d : Dev) (l : Nat) (b : Basin) : (d.setBasin l b).grants = d.grants := rfl
@[simp] theorem Dev.setBasin_waits (d : Dev) (l : Nat) (b : Basin) : (d.setBasin l b).waits = d.waits := rfl
@[simp] theorem Dev.setBasin_nextWait (d : Dev) (l : Nat) (b : Basin) : (d.setBasin l b).nextWait = d.nextWait := rfl
@[simp] theorem Dev.setBasin_sysArea (d : Dev) (l : Nat) (b : Basin) : (d.setBasin l b).sysArea = d.sysArea := rfl
@[simp] theorem Dev.setBasin_nor (d : Dev) (l : Nat) (b : Basin) : (d.setBasin l b).nor = d.nor := rfl
@[simp] theorem Dev.setBasin_time (d : Dev) (l : Nat) (b : Basin) : (d.setBasin l b).time = d.time := rfl
@[simp] theorem Dev.setBasin_cue (d : Dev) (l : Nat) (b : Basin) : (d.setBasin l b).cue = d.cue := rfl
@[simp] theorem Dev.setBasin_pow (d : Dev) (l : Nat) (b : Basin) : (d.setBasin l b).pow = d.pow := rfl
@[simp] theorem Dev.setBasin_eic (d : Dev) (l : Nat) (b : Basin) : (d.setBasin l b).eic = d.eic := rfl
@[simp] theorem Dev.setBasin_stew (d : Dev) (l : Nat) (b : Basin) : (d.setBasin l b).stew = d.stew := rfl
@[simp] theorem Dev.setBasin_pbu (d : Dev) (l : Nat) (b : Basin) : (d.setBasin l b).pbu = d.pbu := rfl
@[simp] theorem Dev.setBasin_slu (d : Dev) (l : Nat) (b : Basin) : (d.setBasin l b).slu = d.slu := rfl
@[simp] theorem Dev.setBasin_kv (d : Dev) (l : Nat) (b : Basin) : (d.setBasin l b).kv = d.kv := rfl
@[simp] theorem Dev.setBasin_cam (d : Dev) (l : Nat) (b : Basin) : (d.setBasin l b).cam = d.cam := rfl
@[simp] theorem Dev.setBasin_fus (d : Dev) (l : Nat) (b : Basin) : (d.setBasin l b).fus = d.fus := rfl
@[simp] theorem Dev.setBasin_plan (d : Dev) (l : Nat) (b : Basin) : (d.setBasin l b).plan = d.plan := rfl
@[simp] theorem Dev.setBasin_le (d : Dev) (l : Nat) (b : Basin) : (d.setBasin l b).le = d.le := rfl
@[simp] theorem Dev.setBasin_ss (d : Dev) (l : Nat) (b : Basin) : (d.setBasin l b).ss = d.ss := rfl
@[simp] theorem Dev.setBasin_io (d : Dev) (l : Nat) (b : Basin) : (d.setBasin l b).io = d.io := rfl
@[simp] theorem Dev.setBasin_cnl (d : Dev) (l : Nat) (b : Basin) : (d.setBasin l b).cnl = d.cnl := rfl
@[simp] theorem Dev.setBasin_dbg (d : Dev) (l : Nat) (b : Basin) : (d.setBasin l b).dbg = d.dbg := rfl
@[simp] theorem Dev.setBasin_cells (d : Dev) (l : Nat) (b : Basin) : (d.setBasin l b).cells = d.cells := rfl
@[simp] theorem Dev.setBasin_cellRes (d : Dev) (l : Nat) (b : Basin) : (d.setBasin l b).cellRes = d.cellRes := rfl
@[simp] theorem Dev.setBasin_mc (d : Dev) (l : Nat) (b : Basin) : (d.setBasin l b).mc = d.mc := rfl
@[simp] theorem Dev.setBasin_cores (d : Dev) (l : Nat) (b : Basin) : (d.setBasin l b).cores = d.cores := rfl
@[simp] theorem Dev.setBasin_idn (d : Dev) (l : Nat) (b : Basin) : (d.setBasin l b).idn = d.idn := rfl

/-! ### modCascade -/

@[simp] theorem Dev.modCascade_regs (d : Dev) (h : Nat) (f : Cascade → Cascade) : (d.modCascade h f).regs = d.regs := rfl
@[simp] theorem Dev.modCascade_recs (d : Dev) (h : Nat) (f : Cascade → Cascade) : (d.modCascade h f).recs = d.recs := rfl
@[simp] theorem Dev.modCascade_cnt (d : Dev) (h : Nat) (f : Cascade → Cascade) : (d.modCascade h f).cnt = d.cnt := rfl
@[simp] theorem Dev.modCascade_free (d : Dev) (h : Nat) (f : Cascade → Cascade) : (d.modCascade h f).free = d.free := rfl
@[simp] theorem Dev.modCascade_bus (d : Dev) (h : Nat) (f : Cascade → Cascade) : (d.modCascade h f).bus = d.bus := rfl
@[simp] theorem Dev.modCascade_module (d : Dev) (h : Nat) (f : Cascade → Cascade) : (d.modCascade h f).module = d.module := rfl
@[simp] theorem Dev.modCascade_mem (d : Dev) (h : Nat) (f : Cascade → Cascade) : (d.modCascade h f).mem = d.mem := rfl
@[simp] theorem Dev.modCascade_grants (d : Dev) (h : Nat) (f : Cascade → Cascade) : (d.modCascade h f).grants = d.grants := rfl
@[simp] theorem Dev.modCascade_waits (d : Dev) (h : Nat) (f : Cascade → Cascade) : (d.modCascade h f).waits = d.waits := rfl
@[simp] theorem Dev.modCascade_nextWait (d : Dev) (h : Nat) (f : Cascade → Cascade) : (d.modCascade h f).nextWait = d.nextWait := rfl
@[simp] theorem Dev.modCascade_sysArea (d : Dev) (h : Nat) (f : Cascade → Cascade) : (d.modCascade h f).sysArea = d.sysArea := rfl
@[simp] theorem Dev.modCascade_nor (d : Dev) (h : Nat) (f : Cascade → Cascade) : (d.modCascade h f).nor = d.nor := rfl
@[simp] theorem Dev.modCascade_time (d : Dev) (h : Nat) (f : Cascade → Cascade) : (d.modCascade h f).time = d.time := rfl
@[simp] theorem Dev.modCascade_cue (d : Dev) (h : Nat) (f : Cascade → Cascade) : (d.modCascade h f).cue = d.cue := rfl
@[simp] theorem Dev.modCascade_pow (d : Dev) (h : Nat) (f : Cascade → Cascade) : (d.modCascade h f).pow = d.pow := rfl
@[simp] theorem Dev.modCascade_eic (d : Dev) (h : Nat) (f : Cascade → Cascade) : (d.modCascade h f).eic = d.eic := rfl
@[simp] theorem Dev.modCascade_stew (d : Dev) (h : Nat) (f : Cascade → Cascade) : (d.modCascade h f).stew = d.stew := rfl
@[simp] theorem Dev.modCascade_pbu (d : Dev) (h : Nat) (f : Cascade → Cascade) : (d.modCascade h f).pbu = d.pbu := rfl
@[simp] theorem Dev.modCascade_slu (d : Dev) (h : Nat) (f : Cascade → Cascade) : (d.modCascade h f).slu = d.slu := rfl
@[simp] theorem Dev.modCascade_kv (d : Dev) (h : Nat) (f : Cascade → Cascade) : (d.modCascade h f).kv = d.kv := rfl
@[simp] theorem Dev.modCascade_cam (d : Dev) (h : Nat) (f : Cascade → Cascade) : (d.modCascade h f).cam = d.cam := rfl
@[simp] theorem Dev.modCascade_fus (d : Dev) (h : Nat) (f : Cascade → Cascade) : (d.modCascade h f).fus = d.fus := rfl
@[simp] theorem Dev.modCascade_plan (d : Dev) (h : Nat) (f : Cascade → Cascade) : (d.modCascade h f).plan = d.plan := rfl
@[simp] theorem Dev.modCascade_le (d : Dev) (h : Nat) (f : Cascade → Cascade) : (d.modCascade h f).le = d.le := rfl
@[simp] theorem Dev.modCascade_ss (d : Dev) (h : Nat) (f : Cascade → Cascade) : (d.modCascade h f).ss = d.ss := rfl
@[simp] theorem Dev.modCascade_io (d : Dev) (h : Nat) (f : Cascade → Cascade) : (d.modCascade h f).io = d.io := rfl
@[simp] theorem Dev.modCascade_cnl (d : Dev) (h : Nat) (f : Cascade → Cascade) : (d.modCascade h f).cnl = d.cnl := rfl
@[simp] theorem Dev.modCascade_dbg (d : Dev) (h : Nat) (f : Cascade → Cascade) : (d.modCascade h f).dbg = d.dbg := rfl
@[simp] theorem Dev.modCascade_cells (d : Dev) (h : Nat) (f : Cascade → Cascade) : (d.modCascade h f).cells = d.cells := rfl
@[simp] theorem Dev.modCascade_cellRes (d : Dev) (h : Nat) (f : Cascade → Cascade) : (d.modCascade h f).cellRes = d.cellRes := rfl
@[simp] theorem Dev.modCascade_mc (d : Dev) (h : Nat) (f : Cascade → Cascade) : (d.modCascade h f).mc = d.mc := rfl
@[simp] theorem Dev.modCascade_cores (d : Dev) (h : Nat) (f : Cascade → Cascade) : (d.modCascade h f).cores = d.cores := rfl
@[simp] theorem Dev.modCascade_idn (d : Dev) (h : Nat) (f : Cascade → Cascade) : (d.modCascade h f).idn = d.idn := rfl

/-! ### modReq -/

@[simp] theorem Dev.modReq_regs (d : Dev) (r : Nat) (f : SluReq → SluReq) : (d.modReq r f).regs = d.regs := rfl
@[simp] theorem Dev.modReq_recs (d : Dev) (r : Nat) (f : SluReq → SluReq) : (d.modReq r f).recs = d.recs := rfl
@[simp] theorem Dev.modReq_cnt (d : Dev) (r : Nat) (f : SluReq → SluReq) : (d.modReq r f).cnt = d.cnt := rfl
@[simp] theorem Dev.modReq_free (d : Dev) (r : Nat) (f : SluReq → SluReq) : (d.modReq r f).free = d.free := rfl
@[simp] theorem Dev.modReq_bus (d : Dev) (r : Nat) (f : SluReq → SluReq) : (d.modReq r f).bus = d.bus := rfl
@[simp] theorem Dev.modReq_module (d : Dev) (r : Nat) (f : SluReq → SluReq) : (d.modReq r f).module = d.module := rfl
@[simp] theorem Dev.modReq_mem (d : Dev) (r : Nat) (f : SluReq → SluReq) : (d.modReq r f).mem = d.mem := rfl
@[simp] theorem Dev.modReq_grants (d : Dev) (r : Nat) (f : SluReq → SluReq) : (d.modReq r f).grants = d.grants := rfl
@[simp] theorem Dev.modReq_waits (d : Dev) (r : Nat) (f : SluReq → SluReq) : (d.modReq r f).waits = d.waits := rfl
@[simp] theorem Dev.modReq_nextWait (d : Dev) (r : Nat) (f : SluReq → SluReq) : (d.modReq r f).nextWait = d.nextWait := rfl
@[simp] theorem Dev.modReq_sysArea (d : Dev) (r : Nat) (f : SluReq → SluReq) : (d.modReq r f).sysArea = d.sysArea := rfl
@[simp] theorem Dev.modReq_nor (d : Dev) (r : Nat) (f : SluReq → SluReq) : (d.modReq r f).nor = d.nor := rfl
@[simp] theorem Dev.modReq_time (d : Dev) (r : Nat) (f : SluReq → SluReq) : (d.modReq r f).time = d.time := rfl
@[simp] theorem Dev.modReq_cue (d : Dev) (r : Nat) (f : SluReq → SluReq) : (d.modReq r f).cue = d.cue := rfl
@[simp] theorem Dev.modReq_pow (d : Dev) (r : Nat) (f : SluReq → SluReq) : (d.modReq r f).pow = d.pow := rfl
@[simp] theorem Dev.modReq_eic (d : Dev) (r : Nat) (f : SluReq → SluReq) : (d.modReq r f).eic = d.eic := rfl
@[simp] theorem Dev.modReq_stew (d : Dev) (r : Nat) (f : SluReq → SluReq) : (d.modReq r f).stew = d.stew := rfl
@[simp] theorem Dev.modReq_pbu (d : Dev) (r : Nat) (f : SluReq → SluReq) : (d.modReq r f).pbu = d.pbu := rfl
@[simp] theorem Dev.modReq_fab (d : Dev) (r : Nat) (f : SluReq → SluReq) : (d.modReq r f).fab = d.fab := rfl
@[simp] theorem Dev.modReq_kv (d : Dev) (r : Nat) (f : SluReq → SluReq) : (d.modReq r f).kv = d.kv := rfl
@[simp] theorem Dev.modReq_cam (d : Dev) (r : Nat) (f : SluReq → SluReq) : (d.modReq r f).cam = d.cam := rfl
@[simp] theorem Dev.modReq_fus (d : Dev) (r : Nat) (f : SluReq → SluReq) : (d.modReq r f).fus = d.fus := rfl
@[simp] theorem Dev.modReq_plan (d : Dev) (r : Nat) (f : SluReq → SluReq) : (d.modReq r f).plan = d.plan := rfl
@[simp] theorem Dev.modReq_le (d : Dev) (r : Nat) (f : SluReq → SluReq) : (d.modReq r f).le = d.le := rfl
@[simp] theorem Dev.modReq_ss (d : Dev) (r : Nat) (f : SluReq → SluReq) : (d.modReq r f).ss = d.ss := rfl
@[simp] theorem Dev.modReq_io (d : Dev) (r : Nat) (f : SluReq → SluReq) : (d.modReq r f).io = d.io := rfl
@[simp] theorem Dev.modReq_cnl (d : Dev) (r : Nat) (f : SluReq → SluReq) : (d.modReq r f).cnl = d.cnl := rfl
@[simp] theorem Dev.modReq_dbg (d : Dev) (r : Nat) (f : SluReq → SluReq) : (d.modReq r f).dbg = d.dbg := rfl
@[simp] theorem Dev.modReq_cells (d : Dev) (r : Nat) (f : SluReq → SluReq) : (d.modReq r f).cells = d.cells := rfl
@[simp] theorem Dev.modReq_cellRes (d : Dev) (r : Nat) (f : SluReq → SluReq) : (d.modReq r f).cellRes = d.cellRes := rfl
@[simp] theorem Dev.modReq_mc (d : Dev) (r : Nat) (f : SluReq → SluReq) : (d.modReq r f).mc = d.mc := rfl
@[simp] theorem Dev.modReq_cores (d : Dev) (r : Nat) (f : SluReq → SluReq) : (d.modReq r f).cores = d.cores := rfl
@[simp] theorem Dev.modReq_idn (d : Dev) (r : Nat) (f : SluReq → SluReq) : (d.modReq r f).idn = d.idn := rfl

/-! ### setObj -/

@[simp] theorem Dev.setObj_regs (d : Dev) (i : Nat) (o : Obj) : (d.setObj i o).regs = d.regs := rfl
@[simp] theorem Dev.setObj_recs (d : Dev) (i : Nat) (o : Obj) : (d.setObj i o).recs = d.recs := rfl
@[simp] theorem Dev.setObj_cnt (d : Dev) (i : Nat) (o : Obj) : (d.setObj i o).cnt = d.cnt := rfl
@[simp] theorem Dev.setObj_free (d : Dev) (i : Nat) (o : Obj) : (d.setObj i o).free = d.free := rfl
@[simp] theorem Dev.setObj_bus (d : Dev) (i : Nat) (o : Obj) : (d.setObj i o).bus = d.bus := rfl
@[simp] theorem Dev.setObj_module (d : Dev) (i : Nat) (o : Obj) : (d.setObj i o).module = d.module := rfl
@[simp] theorem Dev.setObj_grants (d : Dev) (i : Nat) (o : Obj) : (d.setObj i o).grants = d.grants := rfl
@[simp] theorem Dev.setObj_waits (d : Dev) (i : Nat) (o : Obj) : (d.setObj i o).waits = d.waits := rfl
@[simp] theorem Dev.setObj_nextWait (d : Dev) (i : Nat) (o : Obj) : (d.setObj i o).nextWait = d.nextWait := rfl
@[simp] theorem Dev.setObj_sysArea (d : Dev) (i : Nat) (o : Obj) : (d.setObj i o).sysArea = d.sysArea := rfl
@[simp] theorem Dev.setObj_nor (d : Dev) (i : Nat) (o : Obj) : (d.setObj i o).nor = d.nor := rfl
@[simp] theorem Dev.setObj_time (d : Dev) (i : Nat) (o : Obj) : (d.setObj i o).time = d.time := rfl
@[simp] theorem Dev.setObj_cue (d : Dev) (i : Nat) (o : Obj) : (d.setObj i o).cue = d.cue := rfl
@[simp] theorem Dev.setObj_pow (d : Dev) (i : Nat) (o : Obj) : (d.setObj i o).pow = d.pow := rfl
@[simp] theorem Dev.setObj_eic (d : Dev) (i : Nat) (o : Obj) : (d.setObj i o).eic = d.eic := rfl
@[simp] theorem Dev.setObj_stew (d : Dev) (i : Nat) (o : Obj) : (d.setObj i o).stew = d.stew := rfl
@[simp] theorem Dev.setObj_pbu (d : Dev) (i : Nat) (o : Obj) : (d.setObj i o).pbu = d.pbu := rfl
@[simp] theorem Dev.setObj_fab (d : Dev) (i : Nat) (o : Obj) : (d.setObj i o).fab = d.fab := rfl
@[simp] theorem Dev.setObj_kv (d : Dev) (i : Nat) (o : Obj) : (d.setObj i o).kv = d.kv := rfl
@[simp] theorem Dev.setObj_cam (d : Dev) (i : Nat) (o : Obj) : (d.setObj i o).cam = d.cam := rfl
@[simp] theorem Dev.setObj_fus (d : Dev) (i : Nat) (o : Obj) : (d.setObj i o).fus = d.fus := rfl
@[simp] theorem Dev.setObj_plan (d : Dev) (i : Nat) (o : Obj) : (d.setObj i o).plan = d.plan := rfl
@[simp] theorem Dev.setObj_le (d : Dev) (i : Nat) (o : Obj) : (d.setObj i o).le = d.le := rfl
@[simp] theorem Dev.setObj_ss (d : Dev) (i : Nat) (o : Obj) : (d.setObj i o).ss = d.ss := rfl
@[simp] theorem Dev.setObj_io (d : Dev) (i : Nat) (o : Obj) : (d.setObj i o).io = d.io := rfl
@[simp] theorem Dev.setObj_cnl (d : Dev) (i : Nat) (o : Obj) : (d.setObj i o).cnl = d.cnl := rfl
@[simp] theorem Dev.setObj_dbg (d : Dev) (i : Nat) (o : Obj) : (d.setObj i o).dbg = d.dbg := rfl
@[simp] theorem Dev.setObj_cells (d : Dev) (i : Nat) (o : Obj) : (d.setObj i o).cells = d.cells := rfl
@[simp] theorem Dev.setObj_cellRes (d : Dev) (i : Nat) (o : Obj) : (d.setObj i o).cellRes = d.cellRes := rfl
@[simp] theorem Dev.setObj_mc (d : Dev) (i : Nat) (o : Obj) : (d.setObj i o).mc = d.mc := rfl
@[simp] theorem Dev.setObj_cores (d : Dev) (i : Nat) (o : Obj) : (d.setObj i o).cores = d.cores := rfl
@[simp] theorem Dev.setObj_idn (d : Dev) (i : Nat) (o : Obj) : (d.setObj i o).idn = d.idn := rfl

/-! ### modSeq -/

@[simp] theorem Dev.modSeq_regs (d : Dev) (i : Nat) (f : KvSeq → KvSeq) : (d.modSeq i f).regs = d.regs := rfl
@[simp] theorem Dev.modSeq_recs (d : Dev) (i : Nat) (f : KvSeq → KvSeq) : (d.modSeq i f).recs = d.recs := rfl
@[simp] theorem Dev.modSeq_cnt (d : Dev) (i : Nat) (f : KvSeq → KvSeq) : (d.modSeq i f).cnt = d.cnt := rfl
@[simp] theorem Dev.modSeq_free (d : Dev) (i : Nat) (f : KvSeq → KvSeq) : (d.modSeq i f).free = d.free := rfl
@[simp] theorem Dev.modSeq_bus (d : Dev) (i : Nat) (f : KvSeq → KvSeq) : (d.modSeq i f).bus = d.bus := rfl
@[simp] theorem Dev.modSeq_module (d : Dev) (i : Nat) (f : KvSeq → KvSeq) : (d.modSeq i f).module = d.module := rfl
@[simp] theorem Dev.modSeq_mem (d : Dev) (i : Nat) (f : KvSeq → KvSeq) : (d.modSeq i f).mem = d.mem := rfl
@[simp] theorem Dev.modSeq_grants (d : Dev) (i : Nat) (f : KvSeq → KvSeq) : (d.modSeq i f).grants = d.grants := rfl
@[simp] theorem Dev.modSeq_waits (d : Dev) (i : Nat) (f : KvSeq → KvSeq) : (d.modSeq i f).waits = d.waits := rfl
@[simp] theorem Dev.modSeq_nextWait (d : Dev) (i : Nat) (f : KvSeq → KvSeq) : (d.modSeq i f).nextWait = d.nextWait := rfl
@[simp] theorem Dev.modSeq_sysArea (d : Dev) (i : Nat) (f : KvSeq → KvSeq) : (d.modSeq i f).sysArea = d.sysArea := rfl
@[simp] theorem Dev.modSeq_nor (d : Dev) (i : Nat) (f : KvSeq → KvSeq) : (d.modSeq i f).nor = d.nor := rfl
@[simp] theorem Dev.modSeq_time (d : Dev) (i : Nat) (f : KvSeq → KvSeq) : (d.modSeq i f).time = d.time := rfl
@[simp] theorem Dev.modSeq_cue (d : Dev) (i : Nat) (f : KvSeq → KvSeq) : (d.modSeq i f).cue = d.cue := rfl
@[simp] theorem Dev.modSeq_pow (d : Dev) (i : Nat) (f : KvSeq → KvSeq) : (d.modSeq i f).pow = d.pow := rfl
@[simp] theorem Dev.modSeq_eic (d : Dev) (i : Nat) (f : KvSeq → KvSeq) : (d.modSeq i f).eic = d.eic := rfl
@[simp] theorem Dev.modSeq_stew (d : Dev) (i : Nat) (f : KvSeq → KvSeq) : (d.modSeq i f).stew = d.stew := rfl
@[simp] theorem Dev.modSeq_pbu (d : Dev) (i : Nat) (f : KvSeq → KvSeq) : (d.modSeq i f).pbu = d.pbu := rfl
@[simp] theorem Dev.modSeq_fab (d : Dev) (i : Nat) (f : KvSeq → KvSeq) : (d.modSeq i f).fab = d.fab := rfl
@[simp] theorem Dev.modSeq_slu (d : Dev) (i : Nat) (f : KvSeq → KvSeq) : (d.modSeq i f).slu = d.slu := rfl
@[simp] theorem Dev.modSeq_cam (d : Dev) (i : Nat) (f : KvSeq → KvSeq) : (d.modSeq i f).cam = d.cam := rfl
@[simp] theorem Dev.modSeq_fus (d : Dev) (i : Nat) (f : KvSeq → KvSeq) : (d.modSeq i f).fus = d.fus := rfl
@[simp] theorem Dev.modSeq_plan (d : Dev) (i : Nat) (f : KvSeq → KvSeq) : (d.modSeq i f).plan = d.plan := rfl
@[simp] theorem Dev.modSeq_le (d : Dev) (i : Nat) (f : KvSeq → KvSeq) : (d.modSeq i f).le = d.le := rfl
@[simp] theorem Dev.modSeq_ss (d : Dev) (i : Nat) (f : KvSeq → KvSeq) : (d.modSeq i f).ss = d.ss := rfl
@[simp] theorem Dev.modSeq_io (d : Dev) (i : Nat) (f : KvSeq → KvSeq) : (d.modSeq i f).io = d.io := rfl
@[simp] theorem Dev.modSeq_cnl (d : Dev) (i : Nat) (f : KvSeq → KvSeq) : (d.modSeq i f).cnl = d.cnl := rfl
@[simp] theorem Dev.modSeq_dbg (d : Dev) (i : Nat) (f : KvSeq → KvSeq) : (d.modSeq i f).dbg = d.dbg := rfl
@[simp] theorem Dev.modSeq_cells (d : Dev) (i : Nat) (f : KvSeq → KvSeq) : (d.modSeq i f).cells = d.cells := rfl
@[simp] theorem Dev.modSeq_cellRes (d : Dev) (i : Nat) (f : KvSeq → KvSeq) : (d.modSeq i f).cellRes = d.cellRes := rfl
@[simp] theorem Dev.modSeq_mc (d : Dev) (i : Nat) (f : KvSeq → KvSeq) : (d.modSeq i f).mc = d.mc := rfl
@[simp] theorem Dev.modSeq_cores (d : Dev) (i : Nat) (f : KvSeq → KvSeq) : (d.modSeq i f).cores = d.cores := rfl
@[simp] theorem Dev.modSeq_idn (d : Dev) (i : Nat) (f : KvSeq → KvSeq) : (d.modSeq i f).idn = d.idn := rfl

/-! ### modPage -/

@[simp] theorem Dev.modPage_regs (d : Dev) (i : Nat) (f : KvPage → KvPage) : (d.modPage i f).regs = d.regs := rfl
@[simp] theorem Dev.modPage_recs (d : Dev) (i : Nat) (f : KvPage → KvPage) : (d.modPage i f).recs = d.recs := rfl
@[simp] theorem Dev.modPage_cnt (d : Dev) (i : Nat) (f : KvPage → KvPage) : (d.modPage i f).cnt = d.cnt := rfl
@[simp] theorem Dev.modPage_free (d : Dev) (i : Nat) (f : KvPage → KvPage) : (d.modPage i f).free = d.free := rfl
@[simp] theorem Dev.modPage_bus (d : Dev) (i : Nat) (f : KvPage → KvPage) : (d.modPage i f).bus = d.bus := rfl
@[simp] theorem Dev.modPage_module (d : Dev) (i : Nat) (f : KvPage → KvPage) : (d.modPage i f).module = d.module := rfl
@[simp] theorem Dev.modPage_mem (d : Dev) (i : Nat) (f : KvPage → KvPage) : (d.modPage i f).mem = d.mem := rfl
@[simp] theorem Dev.modPage_grants (d : Dev) (i : Nat) (f : KvPage → KvPage) : (d.modPage i f).grants = d.grants := rfl
@[simp] theorem Dev.modPage_waits (d : Dev) (i : Nat) (f : KvPage → KvPage) : (d.modPage i f).waits = d.waits := rfl
@[simp] theorem Dev.modPage_nextWait (d : Dev) (i : Nat) (f : KvPage → KvPage) : (d.modPage i f).nextWait = d.nextWait := rfl
@[simp] theorem Dev.modPage_sysArea (d : Dev) (i : Nat) (f : KvPage → KvPage) : (d.modPage i f).sysArea = d.sysArea := rfl
@[simp] theorem Dev.modPage_nor (d : Dev) (i : Nat) (f : KvPage → KvPage) : (d.modPage i f).nor = d.nor := rfl
@[simp] theorem Dev.modPage_time (d : Dev) (i : Nat) (f : KvPage → KvPage) : (d.modPage i f).time = d.time := rfl
@[simp] theorem Dev.modPage_cue (d : Dev) (i : Nat) (f : KvPage → KvPage) : (d.modPage i f).cue = d.cue := rfl
@[simp] theorem Dev.modPage_pow (d : Dev) (i : Nat) (f : KvPage → KvPage) : (d.modPage i f).pow = d.pow := rfl
@[simp] theorem Dev.modPage_eic (d : Dev) (i : Nat) (f : KvPage → KvPage) : (d.modPage i f).eic = d.eic := rfl
@[simp] theorem Dev.modPage_stew (d : Dev) (i : Nat) (f : KvPage → KvPage) : (d.modPage i f).stew = d.stew := rfl
@[simp] theorem Dev.modPage_pbu (d : Dev) (i : Nat) (f : KvPage → KvPage) : (d.modPage i f).pbu = d.pbu := rfl
@[simp] theorem Dev.modPage_fab (d : Dev) (i : Nat) (f : KvPage → KvPage) : (d.modPage i f).fab = d.fab := rfl
@[simp] theorem Dev.modPage_slu (d : Dev) (i : Nat) (f : KvPage → KvPage) : (d.modPage i f).slu = d.slu := rfl
@[simp] theorem Dev.modPage_cam (d : Dev) (i : Nat) (f : KvPage → KvPage) : (d.modPage i f).cam = d.cam := rfl
@[simp] theorem Dev.modPage_fus (d : Dev) (i : Nat) (f : KvPage → KvPage) : (d.modPage i f).fus = d.fus := rfl
@[simp] theorem Dev.modPage_plan (d : Dev) (i : Nat) (f : KvPage → KvPage) : (d.modPage i f).plan = d.plan := rfl
@[simp] theorem Dev.modPage_le (d : Dev) (i : Nat) (f : KvPage → KvPage) : (d.modPage i f).le = d.le := rfl
@[simp] theorem Dev.modPage_ss (d : Dev) (i : Nat) (f : KvPage → KvPage) : (d.modPage i f).ss = d.ss := rfl
@[simp] theorem Dev.modPage_io (d : Dev) (i : Nat) (f : KvPage → KvPage) : (d.modPage i f).io = d.io := rfl
@[simp] theorem Dev.modPage_cnl (d : Dev) (i : Nat) (f : KvPage → KvPage) : (d.modPage i f).cnl = d.cnl := rfl
@[simp] theorem Dev.modPage_dbg (d : Dev) (i : Nat) (f : KvPage → KvPage) : (d.modPage i f).dbg = d.dbg := rfl
@[simp] theorem Dev.modPage_cells (d : Dev) (i : Nat) (f : KvPage → KvPage) : (d.modPage i f).cells = d.cells := rfl
@[simp] theorem Dev.modPage_cellRes (d : Dev) (i : Nat) (f : KvPage → KvPage) : (d.modPage i f).cellRes = d.cellRes := rfl
@[simp] theorem Dev.modPage_mc (d : Dev) (i : Nat) (f : KvPage → KvPage) : (d.modPage i f).mc = d.mc := rfl
@[simp] theorem Dev.modPage_cores (d : Dev) (i : Nat) (f : KvPage → KvPage) : (d.modPage i f).cores = d.cores := rfl
@[simp] theorem Dev.modPage_idn (d : Dev) (i : Nat) (f : KvPage → KvPage) : (d.modPage i f).idn = d.idn := rfl

/-! ### setCam -/

@[simp] theorem Dev.setCam_regs (d : Dev) (n : Nat) (x : CamPort) : (d.setCam n x).regs = d.regs := rfl
@[simp] theorem Dev.setCam_recs (d : Dev) (n : Nat) (x : CamPort) : (d.setCam n x).recs = d.recs := rfl
@[simp] theorem Dev.setCam_cnt (d : Dev) (n : Nat) (x : CamPort) : (d.setCam n x).cnt = d.cnt := rfl
@[simp] theorem Dev.setCam_free (d : Dev) (n : Nat) (x : CamPort) : (d.setCam n x).free = d.free := rfl
@[simp] theorem Dev.setCam_bus (d : Dev) (n : Nat) (x : CamPort) : (d.setCam n x).bus = d.bus := rfl
@[simp] theorem Dev.setCam_module (d : Dev) (n : Nat) (x : CamPort) : (d.setCam n x).module = d.module := rfl
@[simp] theorem Dev.setCam_mem (d : Dev) (n : Nat) (x : CamPort) : (d.setCam n x).mem = d.mem := rfl
@[simp] theorem Dev.setCam_grants (d : Dev) (n : Nat) (x : CamPort) : (d.setCam n x).grants = d.grants := rfl
@[simp] theorem Dev.setCam_waits (d : Dev) (n : Nat) (x : CamPort) : (d.setCam n x).waits = d.waits := rfl
@[simp] theorem Dev.setCam_nextWait (d : Dev) (n : Nat) (x : CamPort) : (d.setCam n x).nextWait = d.nextWait := rfl
@[simp] theorem Dev.setCam_sysArea (d : Dev) (n : Nat) (x : CamPort) : (d.setCam n x).sysArea = d.sysArea := rfl
@[simp] theorem Dev.setCam_nor (d : Dev) (n : Nat) (x : CamPort) : (d.setCam n x).nor = d.nor := rfl
@[simp] theorem Dev.setCam_time (d : Dev) (n : Nat) (x : CamPort) : (d.setCam n x).time = d.time := rfl
@[simp] theorem Dev.setCam_cue (d : Dev) (n : Nat) (x : CamPort) : (d.setCam n x).cue = d.cue := rfl
@[simp] theorem Dev.setCam_pow (d : Dev) (n : Nat) (x : CamPort) : (d.setCam n x).pow = d.pow := rfl
@[simp] theorem Dev.setCam_eic (d : Dev) (n : Nat) (x : CamPort) : (d.setCam n x).eic = d.eic := rfl
@[simp] theorem Dev.setCam_stew (d : Dev) (n : Nat) (x : CamPort) : (d.setCam n x).stew = d.stew := rfl
@[simp] theorem Dev.setCam_pbu (d : Dev) (n : Nat) (x : CamPort) : (d.setCam n x).pbu = d.pbu := rfl
@[simp] theorem Dev.setCam_fab (d : Dev) (n : Nat) (x : CamPort) : (d.setCam n x).fab = d.fab := rfl
@[simp] theorem Dev.setCam_slu (d : Dev) (n : Nat) (x : CamPort) : (d.setCam n x).slu = d.slu := rfl
@[simp] theorem Dev.setCam_kv (d : Dev) (n : Nat) (x : CamPort) : (d.setCam n x).kv = d.kv := rfl
@[simp] theorem Dev.setCam_fus (d : Dev) (n : Nat) (x : CamPort) : (d.setCam n x).fus = d.fus := rfl
@[simp] theorem Dev.setCam_plan (d : Dev) (n : Nat) (x : CamPort) : (d.setCam n x).plan = d.plan := rfl
@[simp] theorem Dev.setCam_le (d : Dev) (n : Nat) (x : CamPort) : (d.setCam n x).le = d.le := rfl
@[simp] theorem Dev.setCam_ss (d : Dev) (n : Nat) (x : CamPort) : (d.setCam n x).ss = d.ss := rfl
@[simp] theorem Dev.setCam_io (d : Dev) (n : Nat) (x : CamPort) : (d.setCam n x).io = d.io := rfl
@[simp] theorem Dev.setCam_cnl (d : Dev) (n : Nat) (x : CamPort) : (d.setCam n x).cnl = d.cnl := rfl
@[simp] theorem Dev.setCam_dbg (d : Dev) (n : Nat) (x : CamPort) : (d.setCam n x).dbg = d.dbg := rfl
@[simp] theorem Dev.setCam_cells (d : Dev) (n : Nat) (x : CamPort) : (d.setCam n x).cells = d.cells := rfl
@[simp] theorem Dev.setCam_cellRes (d : Dev) (n : Nat) (x : CamPort) : (d.setCam n x).cellRes = d.cellRes := rfl
@[simp] theorem Dev.setCam_mc (d : Dev) (n : Nat) (x : CamPort) : (d.setCam n x).mc = d.mc := rfl
@[simp] theorem Dev.setCam_cores (d : Dev) (n : Nat) (x : CamPort) : (d.setCam n x).cores = d.cores := rfl
@[simp] theorem Dev.setCam_idn (d : Dev) (n : Nat) (x : CamPort) : (d.setCam n x).idn = d.idn := rfl

/-! ### modFus -/

@[simp] theorem Dev.modFus_regs (d : Dev) (f : FusSt → FusSt) : (d.modFus f).regs = d.regs := rfl
@[simp] theorem Dev.modFus_recs (d : Dev) (f : FusSt → FusSt) : (d.modFus f).recs = d.recs := rfl
@[simp] theorem Dev.modFus_cnt (d : Dev) (f : FusSt → FusSt) : (d.modFus f).cnt = d.cnt := rfl
@[simp] theorem Dev.modFus_free (d : Dev) (f : FusSt → FusSt) : (d.modFus f).free = d.free := rfl
@[simp] theorem Dev.modFus_bus (d : Dev) (f : FusSt → FusSt) : (d.modFus f).bus = d.bus := rfl
@[simp] theorem Dev.modFus_module (d : Dev) (f : FusSt → FusSt) : (d.modFus f).module = d.module := rfl
@[simp] theorem Dev.modFus_mem (d : Dev) (f : FusSt → FusSt) : (d.modFus f).mem = d.mem := rfl
@[simp] theorem Dev.modFus_grants (d : Dev) (f : FusSt → FusSt) : (d.modFus f).grants = d.grants := rfl
@[simp] theorem Dev.modFus_waits (d : Dev) (f : FusSt → FusSt) : (d.modFus f).waits = d.waits := rfl
@[simp] theorem Dev.modFus_nextWait (d : Dev) (f : FusSt → FusSt) : (d.modFus f).nextWait = d.nextWait := rfl
@[simp] theorem Dev.modFus_sysArea (d : Dev) (f : FusSt → FusSt) : (d.modFus f).sysArea = d.sysArea := rfl
@[simp] theorem Dev.modFus_nor (d : Dev) (f : FusSt → FusSt) : (d.modFus f).nor = d.nor := rfl
@[simp] theorem Dev.modFus_time (d : Dev) (f : FusSt → FusSt) : (d.modFus f).time = d.time := rfl
@[simp] theorem Dev.modFus_cue (d : Dev) (f : FusSt → FusSt) : (d.modFus f).cue = d.cue := rfl
@[simp] theorem Dev.modFus_pow (d : Dev) (f : FusSt → FusSt) : (d.modFus f).pow = d.pow := rfl
@[simp] theorem Dev.modFus_eic (d : Dev) (f : FusSt → FusSt) : (d.modFus f).eic = d.eic := rfl
@[simp] theorem Dev.modFus_stew (d : Dev) (f : FusSt → FusSt) : (d.modFus f).stew = d.stew := rfl
@[simp] theorem Dev.modFus_pbu (d : Dev) (f : FusSt → FusSt) : (d.modFus f).pbu = d.pbu := rfl
@[simp] theorem Dev.modFus_fab (d : Dev) (f : FusSt → FusSt) : (d.modFus f).fab = d.fab := rfl
@[simp] theorem Dev.modFus_slu (d : Dev) (f : FusSt → FusSt) : (d.modFus f).slu = d.slu := rfl
@[simp] theorem Dev.modFus_kv (d : Dev) (f : FusSt → FusSt) : (d.modFus f).kv = d.kv := rfl
@[simp] theorem Dev.modFus_cam (d : Dev) (f : FusSt → FusSt) : (d.modFus f).cam = d.cam := rfl
@[simp] theorem Dev.modFus_plan (d : Dev) (f : FusSt → FusSt) : (d.modFus f).plan = d.plan := rfl
@[simp] theorem Dev.modFus_le (d : Dev) (f : FusSt → FusSt) : (d.modFus f).le = d.le := rfl
@[simp] theorem Dev.modFus_ss (d : Dev) (f : FusSt → FusSt) : (d.modFus f).ss = d.ss := rfl
@[simp] theorem Dev.modFus_io (d : Dev) (f : FusSt → FusSt) : (d.modFus f).io = d.io := rfl
@[simp] theorem Dev.modFus_cnl (d : Dev) (f : FusSt → FusSt) : (d.modFus f).cnl = d.cnl := rfl
@[simp] theorem Dev.modFus_dbg (d : Dev) (f : FusSt → FusSt) : (d.modFus f).dbg = d.dbg := rfl
@[simp] theorem Dev.modFus_cells (d : Dev) (f : FusSt → FusSt) : (d.modFus f).cells = d.cells := rfl
@[simp] theorem Dev.modFus_cellRes (d : Dev) (f : FusSt → FusSt) : (d.modFus f).cellRes = d.cellRes := rfl
@[simp] theorem Dev.modFus_mc (d : Dev) (f : FusSt → FusSt) : (d.modFus f).mc = d.mc := rfl
@[simp] theorem Dev.modFus_cores (d : Dev) (f : FusSt → FusSt) : (d.modFus f).cores = d.cores := rfl
@[simp] theorem Dev.modFus_idn (d : Dev) (f : FusSt → FusSt) : (d.modFus f).idn = d.idn := rfl

/-! ### modPlan -/

@[simp] theorem Dev.modPlan_regs (d : Dev) (f : PlanSt → PlanSt) : (d.modPlan f).regs = d.regs := rfl
@[simp] theorem Dev.modPlan_recs (d : Dev) (f : PlanSt → PlanSt) : (d.modPlan f).recs = d.recs := rfl
@[simp] theorem Dev.modPlan_cnt (d : Dev) (f : PlanSt → PlanSt) : (d.modPlan f).cnt = d.cnt := rfl
@[simp] theorem Dev.modPlan_free (d : Dev) (f : PlanSt → PlanSt) : (d.modPlan f).free = d.free := rfl
@[simp] theorem Dev.modPlan_bus (d : Dev) (f : PlanSt → PlanSt) : (d.modPlan f).bus = d.bus := rfl
@[simp] theorem Dev.modPlan_module (d : Dev) (f : PlanSt → PlanSt) : (d.modPlan f).module = d.module := rfl
@[simp] theorem Dev.modPlan_mem (d : Dev) (f : PlanSt → PlanSt) : (d.modPlan f).mem = d.mem := rfl
@[simp] theorem Dev.modPlan_grants (d : Dev) (f : PlanSt → PlanSt) : (d.modPlan f).grants = d.grants := rfl
@[simp] theorem Dev.modPlan_waits (d : Dev) (f : PlanSt → PlanSt) : (d.modPlan f).waits = d.waits := rfl
@[simp] theorem Dev.modPlan_nextWait (d : Dev) (f : PlanSt → PlanSt) : (d.modPlan f).nextWait = d.nextWait := rfl
@[simp] theorem Dev.modPlan_sysArea (d : Dev) (f : PlanSt → PlanSt) : (d.modPlan f).sysArea = d.sysArea := rfl
@[simp] theorem Dev.modPlan_nor (d : Dev) (f : PlanSt → PlanSt) : (d.modPlan f).nor = d.nor := rfl
@[simp] theorem Dev.modPlan_time (d : Dev) (f : PlanSt → PlanSt) : (d.modPlan f).time = d.time := rfl
@[simp] theorem Dev.modPlan_cue (d : Dev) (f : PlanSt → PlanSt) : (d.modPlan f).cue = d.cue := rfl
@[simp] theorem Dev.modPlan_pow (d : Dev) (f : PlanSt → PlanSt) : (d.modPlan f).pow = d.pow := rfl
@[simp] theorem Dev.modPlan_eic (d : Dev) (f : PlanSt → PlanSt) : (d.modPlan f).eic = d.eic := rfl
@[simp] theorem Dev.modPlan_stew (d : Dev) (f : PlanSt → PlanSt) : (d.modPlan f).stew = d.stew := rfl
@[simp] theorem Dev.modPlan_pbu (d : Dev) (f : PlanSt → PlanSt) : (d.modPlan f).pbu = d.pbu := rfl
@[simp] theorem Dev.modPlan_fab (d : Dev) (f : PlanSt → PlanSt) : (d.modPlan f).fab = d.fab := rfl
@[simp] theorem Dev.modPlan_slu (d : Dev) (f : PlanSt → PlanSt) : (d.modPlan f).slu = d.slu := rfl
@[simp] theorem Dev.modPlan_kv (d : Dev) (f : PlanSt → PlanSt) : (d.modPlan f).kv = d.kv := rfl
@[simp] theorem Dev.modPlan_cam (d : Dev) (f : PlanSt → PlanSt) : (d.modPlan f).cam = d.cam := rfl
@[simp] theorem Dev.modPlan_fus (d : Dev) (f : PlanSt → PlanSt) : (d.modPlan f).fus = d.fus := rfl
@[simp] theorem Dev.modPlan_le (d : Dev) (f : PlanSt → PlanSt) : (d.modPlan f).le = d.le := rfl
@[simp] theorem Dev.modPlan_ss (d : Dev) (f : PlanSt → PlanSt) : (d.modPlan f).ss = d.ss := rfl
@[simp] theorem Dev.modPlan_io (d : Dev) (f : PlanSt → PlanSt) : (d.modPlan f).io = d.io := rfl
@[simp] theorem Dev.modPlan_cnl (d : Dev) (f : PlanSt → PlanSt) : (d.modPlan f).cnl = d.cnl := rfl
@[simp] theorem Dev.modPlan_dbg (d : Dev) (f : PlanSt → PlanSt) : (d.modPlan f).dbg = d.dbg := rfl
@[simp] theorem Dev.modPlan_cells (d : Dev) (f : PlanSt → PlanSt) : (d.modPlan f).cells = d.cells := rfl
@[simp] theorem Dev.modPlan_cellRes (d : Dev) (f : PlanSt → PlanSt) : (d.modPlan f).cellRes = d.cellRes := rfl
@[simp] theorem Dev.modPlan_mc (d : Dev) (f : PlanSt → PlanSt) : (d.modPlan f).mc = d.mc := rfl
@[simp] theorem Dev.modPlan_cores (d : Dev) (f : PlanSt → PlanSt) : (d.modPlan f).cores = d.cores := rfl
@[simp] theorem Dev.modPlan_idn (d : Dev) (f : PlanSt → PlanSt) : (d.modPlan f).idn = d.idn := rfl

/-! ### setEng -/

@[simp] theorem Dev.setEng_regs (d : Dev) (n : Nat) (e : Engine) : (d.setEng n e).regs = d.regs := rfl
@[simp] theorem Dev.setEng_recs (d : Dev) (n : Nat) (e : Engine) : (d.setEng n e).recs = d.recs := rfl
@[simp] theorem Dev.setEng_cnt (d : Dev) (n : Nat) (e : Engine) : (d.setEng n e).cnt = d.cnt := rfl
@[simp] theorem Dev.setEng_free (d : Dev) (n : Nat) (e : Engine) : (d.setEng n e).free = d.free := rfl
@[simp] theorem Dev.setEng_bus (d : Dev) (n : Nat) (e : Engine) : (d.setEng n e).bus = d.bus := rfl
@[simp] theorem Dev.setEng_module (d : Dev) (n : Nat) (e : Engine) : (d.setEng n e).module = d.module := rfl
@[simp] theorem Dev.setEng_mem (d : Dev) (n : Nat) (e : Engine) : (d.setEng n e).mem = d.mem := rfl
@[simp] theorem Dev.setEng_grants (d : Dev) (n : Nat) (e : Engine) : (d.setEng n e).grants = d.grants := rfl
@[simp] theorem Dev.setEng_waits (d : Dev) (n : Nat) (e : Engine) : (d.setEng n e).waits = d.waits := rfl
@[simp] theorem Dev.setEng_nextWait (d : Dev) (n : Nat) (e : Engine) : (d.setEng n e).nextWait = d.nextWait := rfl
@[simp] theorem Dev.setEng_sysArea (d : Dev) (n : Nat) (e : Engine) : (d.setEng n e).sysArea = d.sysArea := rfl
@[simp] theorem Dev.setEng_nor (d : Dev) (n : Nat) (e : Engine) : (d.setEng n e).nor = d.nor := rfl
@[simp] theorem Dev.setEng_time (d : Dev) (n : Nat) (e : Engine) : (d.setEng n e).time = d.time := rfl
@[simp] theorem Dev.setEng_cue (d : Dev) (n : Nat) (e : Engine) : (d.setEng n e).cue = d.cue := rfl
@[simp] theorem Dev.setEng_pow (d : Dev) (n : Nat) (e : Engine) : (d.setEng n e).pow = d.pow := rfl
@[simp] theorem Dev.setEng_eic (d : Dev) (n : Nat) (e : Engine) : (d.setEng n e).eic = d.eic := rfl
@[simp] theorem Dev.setEng_stew (d : Dev) (n : Nat) (e : Engine) : (d.setEng n e).stew = d.stew := rfl
@[simp] theorem Dev.setEng_pbu (d : Dev) (n : Nat) (e : Engine) : (d.setEng n e).pbu = d.pbu := rfl
@[simp] theorem Dev.setEng_fab (d : Dev) (n : Nat) (e : Engine) : (d.setEng n e).fab = d.fab := rfl
@[simp] theorem Dev.setEng_slu (d : Dev) (n : Nat) (e : Engine) : (d.setEng n e).slu = d.slu := rfl
@[simp] theorem Dev.setEng_kv (d : Dev) (n : Nat) (e : Engine) : (d.setEng n e).kv = d.kv := rfl
@[simp] theorem Dev.setEng_cam (d : Dev) (n : Nat) (e : Engine) : (d.setEng n e).cam = d.cam := rfl
@[simp] theorem Dev.setEng_fus (d : Dev) (n : Nat) (e : Engine) : (d.setEng n e).fus = d.fus := rfl
@[simp] theorem Dev.setEng_plan (d : Dev) (n : Nat) (e : Engine) : (d.setEng n e).plan = d.plan := rfl
@[simp] theorem Dev.setEng_ss (d : Dev) (n : Nat) (e : Engine) : (d.setEng n e).ss = d.ss := rfl
@[simp] theorem Dev.setEng_io (d : Dev) (n : Nat) (e : Engine) : (d.setEng n e).io = d.io := rfl
@[simp] theorem Dev.setEng_cnl (d : Dev) (n : Nat) (e : Engine) : (d.setEng n e).cnl = d.cnl := rfl
@[simp] theorem Dev.setEng_dbg (d : Dev) (n : Nat) (e : Engine) : (d.setEng n e).dbg = d.dbg := rfl
@[simp] theorem Dev.setEng_cells (d : Dev) (n : Nat) (e : Engine) : (d.setEng n e).cells = d.cells := rfl
@[simp] theorem Dev.setEng_cellRes (d : Dev) (n : Nat) (e : Engine) : (d.setEng n e).cellRes = d.cellRes := rfl
@[simp] theorem Dev.setEng_mc (d : Dev) (n : Nat) (e : Engine) : (d.setEng n e).mc = d.mc := rfl
@[simp] theorem Dev.setEng_cores (d : Dev) (n : Nat) (e : Engine) : (d.setEng n e).cores = d.cores := rfl
@[simp] theorem Dev.setEng_idn (d : Dev) (n : Nat) (e : Engine) : (d.setEng n e).idn = d.idn := rfl

/-! ### modEng -/

@[simp] theorem Dev.modEng_regs (d : Dev) (n : Nat) (f : Engine → Engine) : (d.modEng n f).regs = d.regs := rfl
@[simp] theorem Dev.modEng_recs (d : Dev) (n : Nat) (f : Engine → Engine) : (d.modEng n f).recs = d.recs := rfl
@[simp] theorem Dev.modEng_cnt (d : Dev) (n : Nat) (f : Engine → Engine) : (d.modEng n f).cnt = d.cnt := rfl
@[simp] theorem Dev.modEng_free (d : Dev) (n : Nat) (f : Engine → Engine) : (d.modEng n f).free = d.free := rfl
@[simp] theorem Dev.modEng_bus (d : Dev) (n : Nat) (f : Engine → Engine) : (d.modEng n f).bus = d.bus := rfl
@[simp] theorem Dev.modEng_module (d : Dev) (n : Nat) (f : Engine → Engine) : (d.modEng n f).module = d.module := rfl
@[simp] theorem Dev.modEng_mem (d : Dev) (n : Nat) (f : Engine → Engine) : (d.modEng n f).mem = d.mem := rfl
@[simp] theorem Dev.modEng_grants (d : Dev) (n : Nat) (f : Engine → Engine) : (d.modEng n f).grants = d.grants := rfl
@[simp] theorem Dev.modEng_waits (d : Dev) (n : Nat) (f : Engine → Engine) : (d.modEng n f).waits = d.waits := rfl
@[simp] theorem Dev.modEng_nextWait (d : Dev) (n : Nat) (f : Engine → Engine) : (d.modEng n f).nextWait = d.nextWait := rfl
@[simp] theorem Dev.modEng_sysArea (d : Dev) (n : Nat) (f : Engine → Engine) : (d.modEng n f).sysArea = d.sysArea := rfl
@[simp] theorem Dev.modEng_nor (d : Dev) (n : Nat) (f : Engine → Engine) : (d.modEng n f).nor = d.nor := rfl
@[simp] theorem Dev.modEng_time (d : Dev) (n : Nat) (f : Engine → Engine) : (d.modEng n f).time = d.time := rfl
@[simp] theorem Dev.modEng_cue (d : Dev) (n : Nat) (f : Engine → Engine) : (d.modEng n f).cue = d.cue := rfl
@[simp] theorem Dev.modEng_pow (d : Dev) (n : Nat) (f : Engine → Engine) : (d.modEng n f).pow = d.pow := rfl
@[simp] theorem Dev.modEng_eic (d : Dev) (n : Nat) (f : Engine → Engine) : (d.modEng n f).eic = d.eic := rfl
@[simp] theorem Dev.modEng_stew (d : Dev) (n : Nat) (f : Engine → Engine) : (d.modEng n f).stew = d.stew := rfl
@[simp] theorem Dev.modEng_pbu (d : Dev) (n : Nat) (f : Engine → Engine) : (d.modEng n f).pbu = d.pbu := rfl
@[simp] theorem Dev.modEng_fab (d : Dev) (n : Nat) (f : Engine → Engine) : (d.modEng n f).fab = d.fab := rfl
@[simp] theorem Dev.modEng_slu (d : Dev) (n : Nat) (f : Engine → Engine) : (d.modEng n f).slu = d.slu := rfl
@[simp] theorem Dev.modEng_kv (d : Dev) (n : Nat) (f : Engine → Engine) : (d.modEng n f).kv = d.kv := rfl
@[simp] theorem Dev.modEng_cam (d : Dev) (n : Nat) (f : Engine → Engine) : (d.modEng n f).cam = d.cam := rfl
@[simp] theorem Dev.modEng_fus (d : Dev) (n : Nat) (f : Engine → Engine) : (d.modEng n f).fus = d.fus := rfl
@[simp] theorem Dev.modEng_plan (d : Dev) (n : Nat) (f : Engine → Engine) : (d.modEng n f).plan = d.plan := rfl
@[simp] theorem Dev.modEng_ss (d : Dev) (n : Nat) (f : Engine → Engine) : (d.modEng n f).ss = d.ss := rfl
@[simp] theorem Dev.modEng_io (d : Dev) (n : Nat) (f : Engine → Engine) : (d.modEng n f).io = d.io := rfl
@[simp] theorem Dev.modEng_cnl (d : Dev) (n : Nat) (f : Engine → Engine) : (d.modEng n f).cnl = d.cnl := rfl
@[simp] theorem Dev.modEng_dbg (d : Dev) (n : Nat) (f : Engine → Engine) : (d.modEng n f).dbg = d.dbg := rfl
@[simp] theorem Dev.modEng_cells (d : Dev) (n : Nat) (f : Engine → Engine) : (d.modEng n f).cells = d.cells := rfl
@[simp] theorem Dev.modEng_cellRes (d : Dev) (n : Nat) (f : Engine → Engine) : (d.modEng n f).cellRes = d.cellRes := rfl
@[simp] theorem Dev.modEng_mc (d : Dev) (n : Nat) (f : Engine → Engine) : (d.modEng n f).mc = d.mc := rfl
@[simp] theorem Dev.modEng_cores (d : Dev) (n : Nat) (f : Engine → Engine) : (d.modEng n f).cores = d.cores := rfl
@[simp] theorem Dev.modEng_idn (d : Dev) (n : Nat) (f : Engine → Engine) : (d.modEng n f).idn = d.idn := rfl

/-! ### modPort -/

@[simp] theorem Dev.modPort_regs (d : Dev) (p : Nat) (f : EthPort → EthPort) : (d.modPort p f).regs = d.regs := rfl
@[simp] theorem Dev.modPort_recs (d : Dev) (p : Nat) (f : EthPort → EthPort) : (d.modPort p f).recs = d.recs := rfl
@[simp] theorem Dev.modPort_cnt (d : Dev) (p : Nat) (f : EthPort → EthPort) : (d.modPort p f).cnt = d.cnt := rfl
@[simp] theorem Dev.modPort_free (d : Dev) (p : Nat) (f : EthPort → EthPort) : (d.modPort p f).free = d.free := rfl
@[simp] theorem Dev.modPort_bus (d : Dev) (p : Nat) (f : EthPort → EthPort) : (d.modPort p f).bus = d.bus := rfl
@[simp] theorem Dev.modPort_module (d : Dev) (p : Nat) (f : EthPort → EthPort) : (d.modPort p f).module = d.module := rfl
@[simp] theorem Dev.modPort_mem (d : Dev) (p : Nat) (f : EthPort → EthPort) : (d.modPort p f).mem = d.mem := rfl
@[simp] theorem Dev.modPort_grants (d : Dev) (p : Nat) (f : EthPort → EthPort) : (d.modPort p f).grants = d.grants := rfl
@[simp] theorem Dev.modPort_waits (d : Dev) (p : Nat) (f : EthPort → EthPort) : (d.modPort p f).waits = d.waits := rfl
@[simp] theorem Dev.modPort_nextWait (d : Dev) (p : Nat) (f : EthPort → EthPort) : (d.modPort p f).nextWait = d.nextWait := rfl
@[simp] theorem Dev.modPort_sysArea (d : Dev) (p : Nat) (f : EthPort → EthPort) : (d.modPort p f).sysArea = d.sysArea := rfl
@[simp] theorem Dev.modPort_nor (d : Dev) (p : Nat) (f : EthPort → EthPort) : (d.modPort p f).nor = d.nor := rfl
@[simp] theorem Dev.modPort_time (d : Dev) (p : Nat) (f : EthPort → EthPort) : (d.modPort p f).time = d.time := rfl
@[simp] theorem Dev.modPort_cue (d : Dev) (p : Nat) (f : EthPort → EthPort) : (d.modPort p f).cue = d.cue := rfl
@[simp] theorem Dev.modPort_pow (d : Dev) (p : Nat) (f : EthPort → EthPort) : (d.modPort p f).pow = d.pow := rfl
@[simp] theorem Dev.modPort_eic (d : Dev) (p : Nat) (f : EthPort → EthPort) : (d.modPort p f).eic = d.eic := rfl
@[simp] theorem Dev.modPort_stew (d : Dev) (p : Nat) (f : EthPort → EthPort) : (d.modPort p f).stew = d.stew := rfl
@[simp] theorem Dev.modPort_pbu (d : Dev) (p : Nat) (f : EthPort → EthPort) : (d.modPort p f).pbu = d.pbu := rfl
@[simp] theorem Dev.modPort_fab (d : Dev) (p : Nat) (f : EthPort → EthPort) : (d.modPort p f).fab = d.fab := rfl
@[simp] theorem Dev.modPort_slu (d : Dev) (p : Nat) (f : EthPort → EthPort) : (d.modPort p f).slu = d.slu := rfl
@[simp] theorem Dev.modPort_kv (d : Dev) (p : Nat) (f : EthPort → EthPort) : (d.modPort p f).kv = d.kv := rfl
@[simp] theorem Dev.modPort_cam (d : Dev) (p : Nat) (f : EthPort → EthPort) : (d.modPort p f).cam = d.cam := rfl
@[simp] theorem Dev.modPort_fus (d : Dev) (p : Nat) (f : EthPort → EthPort) : (d.modPort p f).fus = d.fus := rfl
@[simp] theorem Dev.modPort_plan (d : Dev) (p : Nat) (f : EthPort → EthPort) : (d.modPort p f).plan = d.plan := rfl
@[simp] theorem Dev.modPort_le (d : Dev) (p : Nat) (f : EthPort → EthPort) : (d.modPort p f).le = d.le := rfl
@[simp] theorem Dev.modPort_ss (d : Dev) (p : Nat) (f : EthPort → EthPort) : (d.modPort p f).ss = d.ss := rfl
@[simp] theorem Dev.modPort_cnl (d : Dev) (p : Nat) (f : EthPort → EthPort) : (d.modPort p f).cnl = d.cnl := rfl
@[simp] theorem Dev.modPort_dbg (d : Dev) (p : Nat) (f : EthPort → EthPort) : (d.modPort p f).dbg = d.dbg := rfl
@[simp] theorem Dev.modPort_cells (d : Dev) (p : Nat) (f : EthPort → EthPort) : (d.modPort p f).cells = d.cells := rfl
@[simp] theorem Dev.modPort_cellRes (d : Dev) (p : Nat) (f : EthPort → EthPort) : (d.modPort p f).cellRes = d.cellRes := rfl
@[simp] theorem Dev.modPort_mc (d : Dev) (p : Nat) (f : EthPort → EthPort) : (d.modPort p f).mc = d.mc := rfl
@[simp] theorem Dev.modPort_cores (d : Dev) (p : Nat) (f : EthPort → EthPort) : (d.modPort p f).cores = d.cores := rfl
@[simp] theorem Dev.modPort_idn (d : Dev) (p : Nat) (f : EthPort → EthPort) : (d.modPort p f).idn = d.idn := rfl

/-! ### setSpi -/

@[simp] theorem Dev.setSpi_regs (d : Dev) (n : Nat) (x : SpiSt) : (d.setSpi n x).regs = d.regs := rfl
@[simp] theorem Dev.setSpi_recs (d : Dev) (n : Nat) (x : SpiSt) : (d.setSpi n x).recs = d.recs := rfl
@[simp] theorem Dev.setSpi_cnt (d : Dev) (n : Nat) (x : SpiSt) : (d.setSpi n x).cnt = d.cnt := rfl
@[simp] theorem Dev.setSpi_free (d : Dev) (n : Nat) (x : SpiSt) : (d.setSpi n x).free = d.free := rfl
@[simp] theorem Dev.setSpi_bus (d : Dev) (n : Nat) (x : SpiSt) : (d.setSpi n x).bus = d.bus := rfl
@[simp] theorem Dev.setSpi_module (d : Dev) (n : Nat) (x : SpiSt) : (d.setSpi n x).module = d.module := rfl
@[simp] theorem Dev.setSpi_mem (d : Dev) (n : Nat) (x : SpiSt) : (d.setSpi n x).mem = d.mem := rfl
@[simp] theorem Dev.setSpi_grants (d : Dev) (n : Nat) (x : SpiSt) : (d.setSpi n x).grants = d.grants := rfl
@[simp] theorem Dev.setSpi_waits (d : Dev) (n : Nat) (x : SpiSt) : (d.setSpi n x).waits = d.waits := rfl
@[simp] theorem Dev.setSpi_nextWait (d : Dev) (n : Nat) (x : SpiSt) : (d.setSpi n x).nextWait = d.nextWait := rfl
@[simp] theorem Dev.setSpi_sysArea (d : Dev) (n : Nat) (x : SpiSt) : (d.setSpi n x).sysArea = d.sysArea := rfl
@[simp] theorem Dev.setSpi_nor (d : Dev) (n : Nat) (x : SpiSt) : (d.setSpi n x).nor = d.nor := rfl
@[simp] theorem Dev.setSpi_time (d : Dev) (n : Nat) (x : SpiSt) : (d.setSpi n x).time = d.time := rfl
@[simp] theorem Dev.setSpi_cue (d : Dev) (n : Nat) (x : SpiSt) : (d.setSpi n x).cue = d.cue := rfl
@[simp] theorem Dev.setSpi_pow (d : Dev) (n : Nat) (x : SpiSt) : (d.setSpi n x).pow = d.pow := rfl
@[simp] theorem Dev.setSpi_eic (d : Dev) (n : Nat) (x : SpiSt) : (d.setSpi n x).eic = d.eic := rfl
@[simp] theorem Dev.setSpi_stew (d : Dev) (n : Nat) (x : SpiSt) : (d.setSpi n x).stew = d.stew := rfl
@[simp] theorem Dev.setSpi_pbu (d : Dev) (n : Nat) (x : SpiSt) : (d.setSpi n x).pbu = d.pbu := rfl
@[simp] theorem Dev.setSpi_fab (d : Dev) (n : Nat) (x : SpiSt) : (d.setSpi n x).fab = d.fab := rfl
@[simp] theorem Dev.setSpi_slu (d : Dev) (n : Nat) (x : SpiSt) : (d.setSpi n x).slu = d.slu := rfl
@[simp] theorem Dev.setSpi_kv (d : Dev) (n : Nat) (x : SpiSt) : (d.setSpi n x).kv = d.kv := rfl
@[simp] theorem Dev.setSpi_cam (d : Dev) (n : Nat) (x : SpiSt) : (d.setSpi n x).cam = d.cam := rfl
@[simp] theorem Dev.setSpi_fus (d : Dev) (n : Nat) (x : SpiSt) : (d.setSpi n x).fus = d.fus := rfl
@[simp] theorem Dev.setSpi_plan (d : Dev) (n : Nat) (x : SpiSt) : (d.setSpi n x).plan = d.plan := rfl
@[simp] theorem Dev.setSpi_le (d : Dev) (n : Nat) (x : SpiSt) : (d.setSpi n x).le = d.le := rfl
@[simp] theorem Dev.setSpi_ss (d : Dev) (n : Nat) (x : SpiSt) : (d.setSpi n x).ss = d.ss := rfl
@[simp] theorem Dev.setSpi_cnl (d : Dev) (n : Nat) (x : SpiSt) : (d.setSpi n x).cnl = d.cnl := rfl
@[simp] theorem Dev.setSpi_dbg (d : Dev) (n : Nat) (x : SpiSt) : (d.setSpi n x).dbg = d.dbg := rfl
@[simp] theorem Dev.setSpi_cells (d : Dev) (n : Nat) (x : SpiSt) : (d.setSpi n x).cells = d.cells := rfl
@[simp] theorem Dev.setSpi_cellRes (d : Dev) (n : Nat) (x : SpiSt) : (d.setSpi n x).cellRes = d.cellRes := rfl
@[simp] theorem Dev.setSpi_mc (d : Dev) (n : Nat) (x : SpiSt) : (d.setSpi n x).mc = d.mc := rfl
@[simp] theorem Dev.setSpi_cores (d : Dev) (n : Nat) (x : SpiSt) : (d.setSpi n x).cores = d.cores := rfl
@[simp] theorem Dev.setSpi_idn (d : Dev) (n : Nat) (x : SpiSt) : (d.setSpi n x).idn = d.idn := rfl

/-! ### modCnl -/

@[simp] theorem Dev.modCnl_regs (d : Dev) (p : Nat) (f : CnlPort → CnlPort) : (d.modCnl p f).regs = d.regs := rfl
@[simp] theorem Dev.modCnl_recs (d : Dev) (p : Nat) (f : CnlPort → CnlPort) : (d.modCnl p f).recs = d.recs := rfl
@[simp] theorem Dev.modCnl_cnt (d : Dev) (p : Nat) (f : CnlPort → CnlPort) : (d.modCnl p f).cnt = d.cnt := rfl
@[simp] theorem Dev.modCnl_free (d : Dev) (p : Nat) (f : CnlPort → CnlPort) : (d.modCnl p f).free = d.free := rfl
@[simp] theorem Dev.modCnl_bus (d : Dev) (p : Nat) (f : CnlPort → CnlPort) : (d.modCnl p f).bus = d.bus := rfl
@[simp] theorem Dev.modCnl_module (d : Dev) (p : Nat) (f : CnlPort → CnlPort) : (d.modCnl p f).module = d.module := rfl
@[simp] theorem Dev.modCnl_mem (d : Dev) (p : Nat) (f : CnlPort → CnlPort) : (d.modCnl p f).mem = d.mem := rfl
@[simp] theorem Dev.modCnl_grants (d : Dev) (p : Nat) (f : CnlPort → CnlPort) : (d.modCnl p f).grants = d.grants := rfl
@[simp] theorem Dev.modCnl_waits (d : Dev) (p : Nat) (f : CnlPort → CnlPort) : (d.modCnl p f).waits = d.waits := rfl
@[simp] theorem Dev.modCnl_nextWait (d : Dev) (p : Nat) (f : CnlPort → CnlPort) : (d.modCnl p f).nextWait = d.nextWait := rfl
@[simp] theorem Dev.modCnl_sysArea (d : Dev) (p : Nat) (f : CnlPort → CnlPort) : (d.modCnl p f).sysArea = d.sysArea := rfl
@[simp] theorem Dev.modCnl_nor (d : Dev) (p : Nat) (f : CnlPort → CnlPort) : (d.modCnl p f).nor = d.nor := rfl
@[simp] theorem Dev.modCnl_time (d : Dev) (p : Nat) (f : CnlPort → CnlPort) : (d.modCnl p f).time = d.time := rfl
@[simp] theorem Dev.modCnl_cue (d : Dev) (p : Nat) (f : CnlPort → CnlPort) : (d.modCnl p f).cue = d.cue := rfl
@[simp] theorem Dev.modCnl_pow (d : Dev) (p : Nat) (f : CnlPort → CnlPort) : (d.modCnl p f).pow = d.pow := rfl
@[simp] theorem Dev.modCnl_eic (d : Dev) (p : Nat) (f : CnlPort → CnlPort) : (d.modCnl p f).eic = d.eic := rfl
@[simp] theorem Dev.modCnl_stew (d : Dev) (p : Nat) (f : CnlPort → CnlPort) : (d.modCnl p f).stew = d.stew := rfl
@[simp] theorem Dev.modCnl_pbu (d : Dev) (p : Nat) (f : CnlPort → CnlPort) : (d.modCnl p f).pbu = d.pbu := rfl
@[simp] theorem Dev.modCnl_fab (d : Dev) (p : Nat) (f : CnlPort → CnlPort) : (d.modCnl p f).fab = d.fab := rfl
@[simp] theorem Dev.modCnl_slu (d : Dev) (p : Nat) (f : CnlPort → CnlPort) : (d.modCnl p f).slu = d.slu := rfl
@[simp] theorem Dev.modCnl_kv (d : Dev) (p : Nat) (f : CnlPort → CnlPort) : (d.modCnl p f).kv = d.kv := rfl
@[simp] theorem Dev.modCnl_cam (d : Dev) (p : Nat) (f : CnlPort → CnlPort) : (d.modCnl p f).cam = d.cam := rfl
@[simp] theorem Dev.modCnl_fus (d : Dev) (p : Nat) (f : CnlPort → CnlPort) : (d.modCnl p f).fus = d.fus := rfl
@[simp] theorem Dev.modCnl_plan (d : Dev) (p : Nat) (f : CnlPort → CnlPort) : (d.modCnl p f).plan = d.plan := rfl
@[simp] theorem Dev.modCnl_le (d : Dev) (p : Nat) (f : CnlPort → CnlPort) : (d.modCnl p f).le = d.le := rfl
@[simp] theorem Dev.modCnl_ss (d : Dev) (p : Nat) (f : CnlPort → CnlPort) : (d.modCnl p f).ss = d.ss := rfl
@[simp] theorem Dev.modCnl_io (d : Dev) (p : Nat) (f : CnlPort → CnlPort) : (d.modCnl p f).io = d.io := rfl
@[simp] theorem Dev.modCnl_dbg (d : Dev) (p : Nat) (f : CnlPort → CnlPort) : (d.modCnl p f).dbg = d.dbg := rfl
@[simp] theorem Dev.modCnl_cells (d : Dev) (p : Nat) (f : CnlPort → CnlPort) : (d.modCnl p f).cells = d.cells := rfl
@[simp] theorem Dev.modCnl_cellRes (d : Dev) (p : Nat) (f : CnlPort → CnlPort) : (d.modCnl p f).cellRes = d.cellRes := rfl
@[simp] theorem Dev.modCnl_mc (d : Dev) (p : Nat) (f : CnlPort → CnlPort) : (d.modCnl p f).mc = d.mc := rfl
@[simp] theorem Dev.modCnl_cores (d : Dev) (p : Nat) (f : CnlPort → CnlPort) : (d.modCnl p f).cores = d.cores := rfl
@[simp] theorem Dev.modCnl_idn (d : Dev) (p : Nat) (f : CnlPort → CnlPort) : (d.modCnl p f).idn = d.idn := rfl

/-! ### setUpd -/

@[simp] theorem Dev.setUpd_regs (d : Dev) (k : Nat) (u : Update) : (d.setUpd k u).regs = d.regs := rfl
@[simp] theorem Dev.setUpd_recs (d : Dev) (k : Nat) (u : Update) : (d.setUpd k u).recs = d.recs := rfl
@[simp] theorem Dev.setUpd_cnt (d : Dev) (k : Nat) (u : Update) : (d.setUpd k u).cnt = d.cnt := rfl
@[simp] theorem Dev.setUpd_free (d : Dev) (k : Nat) (u : Update) : (d.setUpd k u).free = d.free := rfl
@[simp] theorem Dev.setUpd_bus (d : Dev) (k : Nat) (u : Update) : (d.setUpd k u).bus = d.bus := rfl
@[simp] theorem Dev.setUpd_module (d : Dev) (k : Nat) (u : Update) : (d.setUpd k u).module = d.module := rfl
@[simp] theorem Dev.setUpd_mem (d : Dev) (k : Nat) (u : Update) : (d.setUpd k u).mem = d.mem := rfl
@[simp] theorem Dev.setUpd_grants (d : Dev) (k : Nat) (u : Update) : (d.setUpd k u).grants = d.grants := rfl
@[simp] theorem Dev.setUpd_waits (d : Dev) (k : Nat) (u : Update) : (d.setUpd k u).waits = d.waits := rfl
@[simp] theorem Dev.setUpd_nextWait (d : Dev) (k : Nat) (u : Update) : (d.setUpd k u).nextWait = d.nextWait := rfl
@[simp] theorem Dev.setUpd_sysArea (d : Dev) (k : Nat) (u : Update) : (d.setUpd k u).sysArea = d.sysArea := rfl
@[simp] theorem Dev.setUpd_nor (d : Dev) (k : Nat) (u : Update) : (d.setUpd k u).nor = d.nor := rfl
@[simp] theorem Dev.setUpd_time (d : Dev) (k : Nat) (u : Update) : (d.setUpd k u).time = d.time := rfl
@[simp] theorem Dev.setUpd_cue (d : Dev) (k : Nat) (u : Update) : (d.setUpd k u).cue = d.cue := rfl
@[simp] theorem Dev.setUpd_pow (d : Dev) (k : Nat) (u : Update) : (d.setUpd k u).pow = d.pow := rfl
@[simp] theorem Dev.setUpd_eic (d : Dev) (k : Nat) (u : Update) : (d.setUpd k u).eic = d.eic := rfl
@[simp] theorem Dev.setUpd_stew (d : Dev) (k : Nat) (u : Update) : (d.setUpd k u).stew = d.stew := rfl
@[simp] theorem Dev.setUpd_pbu (d : Dev) (k : Nat) (u : Update) : (d.setUpd k u).pbu = d.pbu := rfl
@[simp] theorem Dev.setUpd_fab (d : Dev) (k : Nat) (u : Update) : (d.setUpd k u).fab = d.fab := rfl
@[simp] theorem Dev.setUpd_slu (d : Dev) (k : Nat) (u : Update) : (d.setUpd k u).slu = d.slu := rfl
@[simp] theorem Dev.setUpd_kv (d : Dev) (k : Nat) (u : Update) : (d.setUpd k u).kv = d.kv := rfl
@[simp] theorem Dev.setUpd_cam (d : Dev) (k : Nat) (u : Update) : (d.setUpd k u).cam = d.cam := rfl
@[simp] theorem Dev.setUpd_fus (d : Dev) (k : Nat) (u : Update) : (d.setUpd k u).fus = d.fus := rfl
@[simp] theorem Dev.setUpd_plan (d : Dev) (k : Nat) (u : Update) : (d.setUpd k u).plan = d.plan := rfl
@[simp] theorem Dev.setUpd_le (d : Dev) (k : Nat) (u : Update) : (d.setUpd k u).le = d.le := rfl
@[simp] theorem Dev.setUpd_ss (d : Dev) (k : Nat) (u : Update) : (d.setUpd k u).ss = d.ss := rfl
@[simp] theorem Dev.setUpd_io (d : Dev) (k : Nat) (u : Update) : (d.setUpd k u).io = d.io := rfl
@[simp] theorem Dev.setUpd_cnl (d : Dev) (k : Nat) (u : Update) : (d.setUpd k u).cnl = d.cnl := rfl
@[simp] theorem Dev.setUpd_dbg (d : Dev) (k : Nat) (u : Update) : (d.setUpd k u).dbg = d.dbg := rfl
@[simp] theorem Dev.setUpd_cells (d : Dev) (k : Nat) (u : Update) : (d.setUpd k u).cells = d.cells := rfl
@[simp] theorem Dev.setUpd_cellRes (d : Dev) (k : Nat) (u : Update) : (d.setUpd k u).cellRes = d.cellRes := rfl
@[simp] theorem Dev.setUpd_cores (d : Dev) (k : Nat) (u : Update) : (d.setUpd k u).cores = d.cores := rfl
@[simp] theorem Dev.setUpd_idn (d : Dev) (k : Nat) (u : Update) : (d.setUpd k u).idn = d.idn := rfl

/-! ### modStore -/

@[simp] theorem Dev.modStore_regs (d : Dev) (m q : Nat) (f : SafeStore → SafeStore) : (d.modStore m q f).regs = d.regs := rfl
@[simp] theorem Dev.modStore_recs (d : Dev) (m q : Nat) (f : SafeStore → SafeStore) : (d.modStore m q f).recs = d.recs := rfl
@[simp] theorem Dev.modStore_cnt (d : Dev) (m q : Nat) (f : SafeStore → SafeStore) : (d.modStore m q f).cnt = d.cnt := rfl
@[simp] theorem Dev.modStore_free (d : Dev) (m q : Nat) (f : SafeStore → SafeStore) : (d.modStore m q f).free = d.free := rfl
@[simp] theorem Dev.modStore_bus (d : Dev) (m q : Nat) (f : SafeStore → SafeStore) : (d.modStore m q f).bus = d.bus := rfl
@[simp] theorem Dev.modStore_module (d : Dev) (m q : Nat) (f : SafeStore → SafeStore) : (d.modStore m q f).module = d.module := rfl
@[simp] theorem Dev.modStore_mem (d : Dev) (m q : Nat) (f : SafeStore → SafeStore) : (d.modStore m q f).mem = d.mem := rfl
@[simp] theorem Dev.modStore_grants (d : Dev) (m q : Nat) (f : SafeStore → SafeStore) : (d.modStore m q f).grants = d.grants := rfl
@[simp] theorem Dev.modStore_waits (d : Dev) (m q : Nat) (f : SafeStore → SafeStore) : (d.modStore m q f).waits = d.waits := rfl
@[simp] theorem Dev.modStore_nextWait (d : Dev) (m q : Nat) (f : SafeStore → SafeStore) : (d.modStore m q f).nextWait = d.nextWait := rfl
@[simp] theorem Dev.modStore_sysArea (d : Dev) (m q : Nat) (f : SafeStore → SafeStore) : (d.modStore m q f).sysArea = d.sysArea := rfl
@[simp] theorem Dev.modStore_nor (d : Dev) (m q : Nat) (f : SafeStore → SafeStore) : (d.modStore m q f).nor = d.nor := rfl
@[simp] theorem Dev.modStore_time (d : Dev) (m q : Nat) (f : SafeStore → SafeStore) : (d.modStore m q f).time = d.time := rfl
@[simp] theorem Dev.modStore_cue (d : Dev) (m q : Nat) (f : SafeStore → SafeStore) : (d.modStore m q f).cue = d.cue := rfl
@[simp] theorem Dev.modStore_pow (d : Dev) (m q : Nat) (f : SafeStore → SafeStore) : (d.modStore m q f).pow = d.pow := rfl
@[simp] theorem Dev.modStore_eic (d : Dev) (m q : Nat) (f : SafeStore → SafeStore) : (d.modStore m q f).eic = d.eic := rfl
@[simp] theorem Dev.modStore_stew (d : Dev) (m q : Nat) (f : SafeStore → SafeStore) : (d.modStore m q f).stew = d.stew := rfl
@[simp] theorem Dev.modStore_pbu (d : Dev) (m q : Nat) (f : SafeStore → SafeStore) : (d.modStore m q f).pbu = d.pbu := rfl
@[simp] theorem Dev.modStore_fab (d : Dev) (m q : Nat) (f : SafeStore → SafeStore) : (d.modStore m q f).fab = d.fab := rfl
@[simp] theorem Dev.modStore_slu (d : Dev) (m q : Nat) (f : SafeStore → SafeStore) : (d.modStore m q f).slu = d.slu := rfl
@[simp] theorem Dev.modStore_kv (d : Dev) (m q : Nat) (f : SafeStore → SafeStore) : (d.modStore m q f).kv = d.kv := rfl
@[simp] theorem Dev.modStore_cam (d : Dev) (m q : Nat) (f : SafeStore → SafeStore) : (d.modStore m q f).cam = d.cam := rfl
@[simp] theorem Dev.modStore_fus (d : Dev) (m q : Nat) (f : SafeStore → SafeStore) : (d.modStore m q f).fus = d.fus := rfl
@[simp] theorem Dev.modStore_plan (d : Dev) (m q : Nat) (f : SafeStore → SafeStore) : (d.modStore m q f).plan = d.plan := rfl
@[simp] theorem Dev.modStore_le (d : Dev) (m q : Nat) (f : SafeStore → SafeStore) : (d.modStore m q f).le = d.le := rfl
@[simp] theorem Dev.modStore_ss (d : Dev) (m q : Nat) (f : SafeStore → SafeStore) : (d.modStore m q f).ss = d.ss := rfl
@[simp] theorem Dev.modStore_io (d : Dev) (m q : Nat) (f : SafeStore → SafeStore) : (d.modStore m q f).io = d.io := rfl
@[simp] theorem Dev.modStore_cnl (d : Dev) (m q : Nat) (f : SafeStore → SafeStore) : (d.modStore m q f).cnl = d.cnl := rfl
@[simp] theorem Dev.modStore_dbg (d : Dev) (m q : Nat) (f : SafeStore → SafeStore) : (d.modStore m q f).dbg = d.dbg := rfl
@[simp] theorem Dev.modStore_cells (d : Dev) (m q : Nat) (f : SafeStore → SafeStore) : (d.modStore m q f).cells = d.cells := rfl
@[simp] theorem Dev.modStore_cellRes (d : Dev) (m q : Nat) (f : SafeStore → SafeStore) : (d.modStore m q f).cellRes = d.cellRes := rfl
@[simp] theorem Dev.modStore_cores (d : Dev) (m q : Nat) (f : SafeStore → SafeStore) : (d.modStore m q f).cores = d.cores := rfl
@[simp] theorem Dev.modStore_idn (d : Dev) (m q : Nat) (f : SafeStore → SafeStore) : (d.modStore m q f).idn = d.idn := rfl

/-! ### putTile -/

@[simp] theorem Dev.putTile_regs (d : Dev) (x : Tile) (a b : List Nat) : (d.putTile x a b).regs = d.regs := rfl
@[simp] theorem Dev.putTile_recs (d : Dev) (x : Tile) (a b : List Nat) : (d.putTile x a b).recs = d.recs := rfl
@[simp] theorem Dev.putTile_cnt (d : Dev) (x : Tile) (a b : List Nat) : (d.putTile x a b).cnt = d.cnt := rfl
@[simp] theorem Dev.putTile_free (d : Dev) (x : Tile) (a b : List Nat) : (d.putTile x a b).free = d.free := rfl
@[simp] theorem Dev.putTile_bus (d : Dev) (x : Tile) (a b : List Nat) : (d.putTile x a b).bus = d.bus := rfl
@[simp] theorem Dev.putTile_module (d : Dev) (x : Tile) (a b : List Nat) : (d.putTile x a b).module = d.module := rfl
@[simp] theorem Dev.putTile_grants (d : Dev) (x : Tile) (a b : List Nat) : (d.putTile x a b).grants = d.grants := rfl
@[simp] theorem Dev.putTile_waits (d : Dev) (x : Tile) (a b : List Nat) : (d.putTile x a b).waits = d.waits := rfl
@[simp] theorem Dev.putTile_nextWait (d : Dev) (x : Tile) (a b : List Nat) : (d.putTile x a b).nextWait = d.nextWait := rfl
@[simp] theorem Dev.putTile_sysArea (d : Dev) (x : Tile) (a b : List Nat) : (d.putTile x a b).sysArea = d.sysArea := rfl
@[simp] theorem Dev.putTile_nor (d : Dev) (x : Tile) (a b : List Nat) : (d.putTile x a b).nor = d.nor := rfl
@[simp] theorem Dev.putTile_time (d : Dev) (x : Tile) (a b : List Nat) : (d.putTile x a b).time = d.time := rfl
@[simp] theorem Dev.putTile_cue (d : Dev) (x : Tile) (a b : List Nat) : (d.putTile x a b).cue = d.cue := rfl
@[simp] theorem Dev.putTile_pow (d : Dev) (x : Tile) (a b : List Nat) : (d.putTile x a b).pow = d.pow := rfl
@[simp] theorem Dev.putTile_eic (d : Dev) (x : Tile) (a b : List Nat) : (d.putTile x a b).eic = d.eic := rfl
@[simp] theorem Dev.putTile_stew (d : Dev) (x : Tile) (a b : List Nat) : (d.putTile x a b).stew = d.stew := rfl
@[simp] theorem Dev.putTile_pbu (d : Dev) (x : Tile) (a b : List Nat) : (d.putTile x a b).pbu = d.pbu := rfl
@[simp] theorem Dev.putTile_fab (d : Dev) (x : Tile) (a b : List Nat) : (d.putTile x a b).fab = d.fab := rfl
@[simp] theorem Dev.putTile_slu (d : Dev) (x : Tile) (a b : List Nat) : (d.putTile x a b).slu = d.slu := rfl
@[simp] theorem Dev.putTile_kv (d : Dev) (x : Tile) (a b : List Nat) : (d.putTile x a b).kv = d.kv := rfl
@[simp] theorem Dev.putTile_cam (d : Dev) (x : Tile) (a b : List Nat) : (d.putTile x a b).cam = d.cam := rfl
@[simp] theorem Dev.putTile_fus (d : Dev) (x : Tile) (a b : List Nat) : (d.putTile x a b).fus = d.fus := rfl
@[simp] theorem Dev.putTile_plan (d : Dev) (x : Tile) (a b : List Nat) : (d.putTile x a b).plan = d.plan := rfl
@[simp] theorem Dev.putTile_le (d : Dev) (x : Tile) (a b : List Nat) : (d.putTile x a b).le = d.le := rfl
@[simp] theorem Dev.putTile_ss (d : Dev) (x : Tile) (a b : List Nat) : (d.putTile x a b).ss = d.ss := rfl
@[simp] theorem Dev.putTile_io (d : Dev) (x : Tile) (a b : List Nat) : (d.putTile x a b).io = d.io := rfl
@[simp] theorem Dev.putTile_cnl (d : Dev) (x : Tile) (a b : List Nat) : (d.putTile x a b).cnl = d.cnl := rfl
@[simp] theorem Dev.putTile_dbg (d : Dev) (x : Tile) (a b : List Nat) : (d.putTile x a b).dbg = d.dbg := rfl
@[simp] theorem Dev.putTile_cells (d : Dev) (x : Tile) (a b : List Nat) : (d.putTile x a b).cells = d.cells := rfl
@[simp] theorem Dev.putTile_cellRes (d : Dev) (x : Tile) (a b : List Nat) : (d.putTile x a b).cellRes = d.cellRes := rfl
@[simp] theorem Dev.putTile_mc (d : Dev) (x : Tile) (a b : List Nat) : (d.putTile x a b).mc = d.mc := rfl
@[simp] theorem Dev.putTile_cores (d : Dev) (x : Tile) (a b : List Nat) : (d.putTile x a b).cores = d.cores := rfl
@[simp] theorem Dev.putTile_idn (d : Dev) (x : Tile) (a b : List Nat) : (d.putTile x a b).idn = d.idn := rfl

/-! ### farHold -/

@[simp] theorem Dev.farHold_regs (d : Dev) (x : FarAccess) : (d.farHold x).regs = d.regs := rfl
@[simp] theorem Dev.farHold_recs (d : Dev) (x : FarAccess) : (d.farHold x).recs = d.recs := rfl
@[simp] theorem Dev.farHold_cnt (d : Dev) (x : FarAccess) : (d.farHold x).cnt = d.cnt := rfl
@[simp] theorem Dev.farHold_free (d : Dev) (x : FarAccess) : (d.farHold x).free = d.free := rfl
@[simp] theorem Dev.farHold_module (d : Dev) (x : FarAccess) : (d.farHold x).module = d.module := rfl
@[simp] theorem Dev.farHold_mem (d : Dev) (x : FarAccess) : (d.farHold x).mem = d.mem := rfl
@[simp] theorem Dev.farHold_grants (d : Dev) (x : FarAccess) : (d.farHold x).grants = d.grants := rfl
@[simp] theorem Dev.farHold_waits (d : Dev) (x : FarAccess) : (d.farHold x).waits = d.waits := rfl
@[simp] theorem Dev.farHold_nextWait (d : Dev) (x : FarAccess) : (d.farHold x).nextWait = d.nextWait := rfl
@[simp] theorem Dev.farHold_sysArea (d : Dev) (x : FarAccess) : (d.farHold x).sysArea = d.sysArea := rfl
@[simp] theorem Dev.farHold_nor (d : Dev) (x : FarAccess) : (d.farHold x).nor = d.nor := rfl
@[simp] theorem Dev.farHold_time (d : Dev) (x : FarAccess) : (d.farHold x).time = d.time := rfl
@[simp] theorem Dev.farHold_cue (d : Dev) (x : FarAccess) : (d.farHold x).cue = d.cue := rfl
@[simp] theorem Dev.farHold_pow (d : Dev) (x : FarAccess) : (d.farHold x).pow = d.pow := rfl
@[simp] theorem Dev.farHold_eic (d : Dev) (x : FarAccess) : (d.farHold x).eic = d.eic := rfl
@[simp] theorem Dev.farHold_stew (d : Dev) (x : FarAccess) : (d.farHold x).stew = d.stew := rfl
@[simp] theorem Dev.farHold_fab (d : Dev) (x : FarAccess) : (d.farHold x).fab = d.fab := rfl
@[simp] theorem Dev.farHold_slu (d : Dev) (x : FarAccess) : (d.farHold x).slu = d.slu := rfl
@[simp] theorem Dev.farHold_kv (d : Dev) (x : FarAccess) : (d.farHold x).kv = d.kv := rfl
@[simp] theorem Dev.farHold_cam (d : Dev) (x : FarAccess) : (d.farHold x).cam = d.cam := rfl
@[simp] theorem Dev.farHold_fus (d : Dev) (x : FarAccess) : (d.farHold x).fus = d.fus := rfl
@[simp] theorem Dev.farHold_plan (d : Dev) (x : FarAccess) : (d.farHold x).plan = d.plan := rfl
@[simp] theorem Dev.farHold_le (d : Dev) (x : FarAccess) : (d.farHold x).le = d.le := rfl
@[simp] theorem Dev.farHold_ss (d : Dev) (x : FarAccess) : (d.farHold x).ss = d.ss := rfl
@[simp] theorem Dev.farHold_io (d : Dev) (x : FarAccess) : (d.farHold x).io = d.io := rfl
@[simp] theorem Dev.farHold_cnl (d : Dev) (x : FarAccess) : (d.farHold x).cnl = d.cnl := rfl
@[simp] theorem Dev.farHold_dbg (d : Dev) (x : FarAccess) : (d.farHold x).dbg = d.dbg := rfl
@[simp] theorem Dev.farHold_cells (d : Dev) (x : FarAccess) : (d.farHold x).cells = d.cells := rfl
@[simp] theorem Dev.farHold_cellRes (d : Dev) (x : FarAccess) : (d.farHold x).cellRes = d.cellRes := rfl
@[simp] theorem Dev.farHold_mc (d : Dev) (x : FarAccess) : (d.farHold x).mc = d.mc := rfl
@[simp] theorem Dev.farHold_cores (d : Dev) (x : FarAccess) : (d.farHold x).cores = d.cores := rfl
@[simp] theorem Dev.farHold_idn (d : Dev) (x : FarAccess) : (d.farHold x).idn = d.idn := rfl

/-! ### respond -/

@[simp] theorem Dev.respond_regs (d : Dev) (st : Status) (b : List Byte) : (d.respond st b).regs = d.regs := rfl
@[simp] theorem Dev.respond_recs (d : Dev) (st : Status) (b : List Byte) : (d.respond st b).recs = d.recs := rfl
@[simp] theorem Dev.respond_cnt (d : Dev) (st : Status) (b : List Byte) : (d.respond st b).cnt = d.cnt := rfl
@[simp] theorem Dev.respond_free (d : Dev) (st : Status) (b : List Byte) : (d.respond st b).free = d.free := rfl
@[simp] theorem Dev.respond_bus (d : Dev) (st : Status) (b : List Byte) : (d.respond st b).bus = d.bus := rfl
@[simp] theorem Dev.respond_module (d : Dev) (st : Status) (b : List Byte) : (d.respond st b).module = d.module := rfl
@[simp] theorem Dev.respond_mem (d : Dev) (st : Status) (b : List Byte) : (d.respond st b).mem = d.mem := rfl
@[simp] theorem Dev.respond_grants (d : Dev) (st : Status) (b : List Byte) : (d.respond st b).grants = d.grants := rfl
@[simp] theorem Dev.respond_waits (d : Dev) (st : Status) (b : List Byte) : (d.respond st b).waits = d.waits := rfl
@[simp] theorem Dev.respond_nextWait (d : Dev) (st : Status) (b : List Byte) : (d.respond st b).nextWait = d.nextWait := rfl
@[simp] theorem Dev.respond_sysArea (d : Dev) (st : Status) (b : List Byte) : (d.respond st b).sysArea = d.sysArea := rfl
@[simp] theorem Dev.respond_nor (d : Dev) (st : Status) (b : List Byte) : (d.respond st b).nor = d.nor := rfl
@[simp] theorem Dev.respond_time (d : Dev) (st : Status) (b : List Byte) : (d.respond st b).time = d.time := rfl
@[simp] theorem Dev.respond_cue (d : Dev) (st : Status) (b : List Byte) : (d.respond st b).cue = d.cue := rfl
@[simp] theorem Dev.respond_pow (d : Dev) (st : Status) (b : List Byte) : (d.respond st b).pow = d.pow := rfl
@[simp] theorem Dev.respond_eic (d : Dev) (st : Status) (b : List Byte) : (d.respond st b).eic = d.eic := rfl
@[simp] theorem Dev.respond_stew (d : Dev) (st : Status) (b : List Byte) : (d.respond st b).stew = d.stew := rfl
@[simp] theorem Dev.respond_pbu (d : Dev) (st : Status) (b : List Byte) : (d.respond st b).pbu = d.pbu := rfl
@[simp] theorem Dev.respond_fab (d : Dev) (st : Status) (b : List Byte) : (d.respond st b).fab = d.fab := rfl
@[simp] theorem Dev.respond_slu (d : Dev) (st : Status) (b : List Byte) : (d.respond st b).slu = d.slu := rfl
@[simp] theorem Dev.respond_kv (d : Dev) (st : Status) (b : List Byte) : (d.respond st b).kv = d.kv := rfl
@[simp] theorem Dev.respond_cam (d : Dev) (st : Status) (b : List Byte) : (d.respond st b).cam = d.cam := rfl
@[simp] theorem Dev.respond_fus (d : Dev) (st : Status) (b : List Byte) : (d.respond st b).fus = d.fus := rfl
@[simp] theorem Dev.respond_plan (d : Dev) (st : Status) (b : List Byte) : (d.respond st b).plan = d.plan := rfl
@[simp] theorem Dev.respond_le (d : Dev) (st : Status) (b : List Byte) : (d.respond st b).le = d.le := rfl
@[simp] theorem Dev.respond_ss (d : Dev) (st : Status) (b : List Byte) : (d.respond st b).ss = d.ss := rfl
@[simp] theorem Dev.respond_io (d : Dev) (st : Status) (b : List Byte) : (d.respond st b).io = d.io := rfl
@[simp] theorem Dev.respond_cnl (d : Dev) (st : Status) (b : List Byte) : (d.respond st b).cnl = d.cnl := rfl
@[simp] theorem Dev.respond_cells (d : Dev) (st : Status) (b : List Byte) : (d.respond st b).cells = d.cells := rfl
@[simp] theorem Dev.respond_cellRes (d : Dev) (st : Status) (b : List Byte) : (d.respond st b).cellRes = d.cellRes := rfl
@[simp] theorem Dev.respond_mc (d : Dev) (st : Status) (b : List Byte) : (d.respond st b).mc = d.mc := rfl
@[simp] theorem Dev.respond_cores (d : Dev) (st : Status) (b : List Byte) : (d.respond st b).cores = d.cores := rfl
@[simp] theorem Dev.respond_idn (d : Dev) (st : Status) (b : List Byte) : (d.respond st b).idn = d.idn := rfl

/-! ### Time and the queue -/

/-- A command that delivers capture records changes time and the device alone. -/
@[simp] theorem State.runFed_eq (s : State) (t : Nat) (f : Nat → Dev → Dev) :
    s.runFed t f = .next { s with dt := s.now t, dev := (f (s.now t) s.dev).feedCaptures } := rfl

end Sys2Proof.Machine
end

