-- ==== Sys2Proof/Tests/Slice0.lean ====
section
/-! SUPPORT. Small states for the tests, and witnesses for the statements about steps, time, cues, interrupts, networks, crossings, low-speed interfaces and safe stops. -/

namespace Sys2Proof.Tests

open Sys2Proof Sys2Proof.Machine

set_option Elab.async false

/-- A device with every domain on, boot complete, a session on mailbox 0 and context 0 of class 2 open on it. -/
def base : Dev :=
  (({ pow := { on := List.range 172, pllLocked := true, mainGood := true, near := true, far := true }, cores := { released := true, steward := true },
      mc := { running := true, started := true }, stew := { sessions := [(0, 0)] }, fab := { ctxs := [(0, { mbx := 0, cls := 2, seed := 0 })] } } : Dev).sf
    (r1 .pmapMbx 0) F.pmapMbx.GROUPS 0xFFFF).sf (r1 .pbuCtxCfg 0) F.pbuCtxCfg.CLASS 2

/-- A state at DT 100,000 with the latch open, so that class 2 is not checked against regions. -/
def st (d : Dev) : State := { State.reset with dt := 100000, dev := d }

/-- The state after a command. -/
def after (i : Instr) (s : State) : State :=
  match exec i s with
  | .next s' => s'
  | _ => s

/-- The bytes of 32-bit words. -/
def words (ws : List Nat) : List Byte := ws.flatMap (leBytes 4)

/-- A request of a code on mailbox 0 with SEQ 5: FLAGS, context and payload. -/
def rq (code flags ctx : Nat) (payload : List Byte) : Req :=
  { mbx := 0, word0 := code + 2 ^ 26, tag := 7, word8 := payload.length + flags * 2 ^ 12 + ctx * 2 ^ 22, seq := 5, stamp := 1000, order := 1000, payload := payload }

/-- A device with a request in flight. -/
def withReq (d : Dev) (r : Req) : Dev := { d with stew := { d.stew with inflight := [r] } }

/-! ## Well-formed commands: one ill-formed term for each check -/

theorem test_ill_time : (([.holdover (dtMax + 1), .frameReceive 0 0 (dtMax + 1) 0 [], .captureEdge 0 0 true (dtMax + 1) 0, .lineReceive 0 0 0 0 (dtMax + 1) 0 [], .camStrobeEdge 0 0 (dtMax + 1), .sampleArrive 0 0 0 (dtMax + 1) 0 false 0 [], .checkBatchStart 0 (dtMax + 1), .canFrameReceive 0 0 0 0 (dtMax + 1) false [], .spiDataReady 0 0 true (dtMax + 1), .tdmBlock 0 0 (dtMax + 1) [], .acquire 0 (.stage 0 (dtMax + 1)) 0 0 0] : List Instr).all fun i => !wellFormed i) = true := by decide +kernel
theorem test_ill_class : (([.servoUpdate 0 11 0, .pmapGrant 0 11 0, .pmapViolRead 0 11, .udsRead 0 11, .cueArm 0 11 0 0, .cueTimeWrite 0 11 0 0, .rdvResultRead 0 11 0, .captureDataRead 0 11 0, .acquire 0 (.port 11 0) 0 0 0, .bufferRelease 0 11 0 0, .cameraEnable 0 11 0 0, .samplePost 0 11 0 0, .doorbell 0 11 0 0, .eicClaim 0 11 0, .eicComplete 0 11 0 0, .spiGo 0 11 0 0 0, .bootLatchClose 0 11 0, .memoryAccess 0 11 0 0 1 [] 0, .registerWrite 0 11 0 4 0] : List Instr).all fun i => !wellFormed i) = true := by decide +kernel
theorem test_ill_network : (([.frameReceive 0 14 0 0 [], .frameReceive 0 0 0 3 [], .frameReceive 0 0 0 0 [256], .frameTransmit 0 14 0 false false [], .frameTransmit 0 0 8 false false [], .frameTransmit 0 0 0 false false [256], .gateEntryEnd 0 4, .preemptionVerify 0 4, .linkChange 0 14 true, .syncInterval 0 16 0 0 0 [], .syncInterval 0 0 16 0 0 [], .syncInterval 0 0 0 8 0 [], .syncInterval 0 0 0 0 0 [256]] : List Instr).all fun i => !wellFormed i) = true := by decide +kernel
theorem test_ill_cues : (([.cueFire 0 64, .cuePulseEnd 0 64, .cueArm 0 2 64 0, .cueArm 0 2 0 (2 ^ 32), .cueTimeWrite 0 2 64 0, .captureEdge 0 37 true 0 0, .captureDataRead 0 2 32, .queueEnterElastic 0 4 0, .queueReturnFixed 0 0 16, .crossingStale 0 4 0, .crossingStale 0 0 8] : List Instr).all fun i => !wellFormed i) = true := by decide +kernel
theorem test_ill_fabric : (([.basinPairReady 0 136, .farStoreTraining 0 [2 ^ 32], .stageDispatch 0 256, .basinStoreUncorrectable 0 256 0, .load 0 256 0 ⟨0, 0⟩, .convert 0 0 8, .contextSwitchDone 0 4, .flitDeliver 0 256 0 0, .flitDeliver 0 0 256 0, .flitDeliver 0 0 0 16, .creditReturn 0 512 0, .referenceFlip 0 0 16, .deadlockWatchdog 0 1024, .rdvResultRead 0 2 64] : List Instr).all fun i => !wellFormed i) = true := by decide +kernel
theorem test_ill_cells : (([.acquire 0 (.port 2 64) 0 0 0, .acquire 0 (.stage 1024 0) 0 0 0, .tryAcquire 0 (.port 2 0) (2 ^ 17) 0 0, .arrive 0 (.port 2 0) 0 (2 ^ 32) 0, .read 0 (.port 2 0) 0 0 (2 ^ 32)] : List Instr).all fun i => !wellFormed i) = true := by decide +kernel
theorem test_ill_memory : (([.descriptorStart 0 12, .tileLand 0 12 ⟨0, 0, 0, 0⟩, .partTimeout 0 12 0, .patrolScrub 0 24 0 none, .doorbell 0 2 256 0, .doorbell 0 2 0 (2 ^ 32), .requestTake 0 256, .hello 0 256 0, .hello 0 0 (2 ^ 32), .stagingDone 0 8] : List Instr).all fun i => !wellFormed i) = true := by decide +kernel
theorem test_ill_sensing : (([.lineReceive 0 8 0 0 0 0 [], .lineReceive 0 0 64 0 0 0 [], .lineReceive 0 0 0 16 0 0 [], .lineReceive 0 0 0 0 0 4 [], .frameStart 0 8, .camStrobeEdge 0 8 0, .bufferRelease 0 2 8 0, .cameraEnable 0 2 0 (2 ^ 32), .samplePost 0 2 16 0, .samplePost 0 2 0 (2 ^ 8), .loopTick 0 8] : List Instr).all fun i => !wellFormed i) = true := by decide +kernel
theorem test_ill_robot : (([.eicClaim 0 2 34, .eicComplete 0 2 34 0, .eicComplete 0 2 0 1024, .gpioEdge 0 32 true 0, .gpioGlitch 0 32 0, .timerInterrupt 0 34, .wfi 0 18, .coreWake 0 18, .canFrameReceive 0 4 0 0 0 false [], .canFrameReceive 0 0 0 (2 ^ 29) 0 false [], .canFrameReceive 0 0 0 0 0 false [256], .spiDataReady 0 2 true 0, .spiGo 0 2 2 0 0, .spiGo 0 2 0 16 0, .spiTransactionEnd 0 2 [], .spiTransactionEnd 0 0 [[256]], .tdmBlock 0 2 0 [], .tdmBlock 0 0 0 [256], .safeStopChange 0 2 true true 0] : List Instr).all fun i => !wellFormed i) = true := by decide +kernel
theorem test_ill_canal : (([.ptp 0 ⟨2, 0, false, 0, 0, 0⟩ [], .ptp 0 ⟨0, 2 ^ 16, false, 0, 0, 0⟩ [], .ptp 0 ⟨0, 0, false, 8, 0, 0⟩ [], .ptp 0 ⟨0, 0, false, 0, 8, 0⟩ [], .ptp 0 ⟨0, 0, false, 0, 0, 2⟩ [], .data 0 ⟨0, 0, false, 0, 0, 0⟩ 0 256 0 0 0 true ⟨0, 0, 0⟩ [], .credit 0 ⟨0, 0, false, 0, 0, 0⟩ 0 16 0 0 0 0, .memRd 0 ⟨0, 0, false, 0, 0, 0⟩ (2 ^ 16) 0 0, .ack 0 2 0, .nak 0 0 (2 ^ 16), .creditTimeout 0 2] : List Instr).all fun i => !wellFormed i) = true := by decide +kernel
theorem test_ill_boot : (([.earlyDomainRelease 0 0 0 8, .basinSelfTest 0 [272], .basinFail 0 272, .bootLatchClose 0 2 (2 ^ 32), .memoryAccess 0 2 3 0 1 [] 0, .memoryAccess 0 2 0 (2 ^ 48) 1 [] 0, .memoryAccess 0 2 0 0 1 [] 3, .registerWrite 0 2 (2 ^ 48) 4 0, .registerWrite 0 2 0 2 0, .mcThresholdCrossing 0 4 0 0] : List Instr).all fun i => !wellFormed i) = true := by decide +kernel
theorem test_ill_debug : (([.halt 0 ⟨4, 0, 0, 0, 0, 0, [], 0⟩, .halt 0 ⟨0, 16, 0, 0, 0, 0, [], 0⟩, .halt 0 ⟨0, 0, 16, 0, 0, 0, [], 0⟩, .halt 0 ⟨0, 0, 0, 16, 0, 0, [], 0⟩, .halt 0 ⟨0, 0, 0, 0, 4096, 0, [], 0⟩, .halt 0 ⟨0, 0, 0, 0, 0, 2 ^ 64, [], 0⟩, .halt 0 ⟨0, 0, 0, 0, 0, 0, [], 2 ^ 16⟩, .breakpointHit 0 27 0, .breakpointHit 0 0 8, .watchpointHit 0 27 8 1 0 1, .watchpointHit 0 0 7 1 0 1, .watchpointHit 0 0 12 1 0 1, .watchpointHit 0 0 8 3 0 1] : List Instr).all fun i => !wellFormed i) = true := by decide +kernel
/-- A payload that a well-formed packet carries has at most 6,144 bytes (R445). -/
theorem test_ill_payload (p : UlzilPacket) (h : 6144 < p.payload.length) : p.ok = false := by
  have h' : decide (p.payload.length ≤ 6144) = false := by simp; omega
  simp [UlzilPacket.ok, h']
theorem test_well : (([.holdover dtMax, .cueFire 0 63, .memoryAccess 0 10 2 (2 ^ 48 - 1) 1 [] 2, .watchpointHit 0 26 11 2 0 1, .ptp 0 ⟨1, 65535, true, 7, 7, 1⟩ []] : List Instr).all wellFormed) = true := by decide +kernel

/-! ## Steps, time, the latch -/

theorem test_reset_pending : State.reset.pending = [] ∧ State.reset.dev.earlyOn = false := by decide
theorem test_idle_cycle : (match step (st (base.wn (r0 .timeServoRate) 5)) with | .next s => (s.dt, s.frac) | _ => (0, 0)) = (100001, 5) := by decide +kernel
theorem test_idle_slow : (match step (st (base.wn (r0 .timeServoRate) (2 ^ 32 - 3))) with | .next s => (s.dt, s.frac) | _ => (0, 0)) = (100000, 2 ^ 32 - 3) := by decide +kernel
theorem wit_idle : (st (base.wn (r0 .timeServoRate) 5)).pending = [] ∧ (st base).dev.earlyOn = true ∧
    ((100001 : Int) * 2 ^ 32 + 5 = ((st base).dt : Int) * 2 ^ 32 + (st base).frac + 2 ^ 32 + (base.wn (r0 .timeServoRate) 5).rate) := by decide +kernel

/-- A device whose MC has asked for a reset. -/
def resetting (cold : Bool) : Dev := { base with mc := { base.mc with resetAt := some (100000, cold) } }
theorem wit_cold : (resetting true).resetDue ((st (resetting true)).now 0) true = true := by decide +kernel
theorem test_cold : (after (.coldReset 0) (st (resetting true))).dt = 0 ∧ (after (.coldReset 0) (st (resetting true))).dev.fb (r0 .timeStatus) F.timeStatus.UNSYNCED = true := by decide +kernel
theorem wit_main : (resetting false).resetDue ((st (resetting false)).now 0) false = true ∧ (resetting false).earlyOn = true ∧ (resetting false).pow.inputLost = false := by decide +kernel
theorem test_main : (after (.mainDomainReset 0) (st (resetting false))).dt = 100000 ∧ (after (.mainDomainReset 0) (st (resetting false))).dev.pow.on = [169, 170, 171] := by decide +kernel
theorem wit_latch : (let s : State := { st (resetting true) with latchClosed := true }
    s.latchClosed = true ∧ (after (.coldReset 0) s).latchClosed = false) := by decide +kernel
theorem wit_range : (st base).dt ≤ dtMax ∧ State.reset.inRange := by
  refine ⟨by decide, ?_⟩
  unfold State.inRange
  decide

/-! ## The servo -/

def servo (unsynced jump : Nat) : Dev := ((base.sf (r0 .timeCtrl) F.timeCtrl.SERVO_EN 1).sf (r0 .timeCtrl) F.timeCtrl.JUMP_ARM jump).sf (r0 .timeStatus) F.timeStatus.UNSYNCED unsynced
theorem wit_servo : hits (st (servo 0 0)) 0 2 (r0 .timeServoOffset) .write = true ∧ (servo 0 0).fb (r0 .timeCtrl) F.timeCtrl.SERVO_EN = true ∧ (servo 0 0).fb (r0 .timeStatus) F.timeStatus.UNSYNCED = false := by
  decide +kernel
/-- The worked example of R35: an offset of 1,000 ns at the default gains makes the rate −24,250. -/
theorem test_servo : (after (.servoUpdate 0 2 1000) (st (servo 0 0))).dev.rate = -24250 ∧ (after (.servoUpdate 0 2 1000) (st (servo 0 0))).dev.rn (r0 .timeServoInteg) = 250 * 65536 := by decide +kernel
theorem wit_jump : hits (st (servo 1 1)) 0 2 (r0 .timeServoOffset) .write = true ∧ (servo 1 1).fb (r0 .timeStatus) F.timeStatus.UNSYNCED = true ∧ (servo 1 1).fb (r0 .timeCtrl) F.timeCtrl.JUMP_ARM = true := by
  decide +kernel
theorem test_jump : (after (.servoUpdate 0 2 (BitVec.ofInt 64 (-7))) (st (servo 1 1))).dt = 100007 ∧
    (after (.servoUpdate 0 2 (BitVec.ofInt 64 (-7))) (st (servo 1 1))).dev.rn (r0 .timeJumpSize) = 7 := by decide +kernel
theorem wit_no_jump : hits (st (servo 1 0)) 0 2 (r0 .timeServoOffset) .write = true ∧ (servo 1 0).fb (r0 .timeStatus) F.timeStatus.UNSYNCED = true ∧ (servo 1 0).fb (r0 .timeCtrl) F.timeCtrl.JUMP_ARM = false := by
  decide +kernel
def servoOff : Dev := base.sf (r0 .timeCtrl) F.timeCtrl.SERVO_EN 0
theorem wit_servo_off : hits (st servoOff) 0 2 (r0 .timeServoOffset) .write = true ∧ servoOff.fb (r0 .timeCtrl) F.timeCtrl.SERVO_EN = false := by decide +kernel
def holding : Dev := { (servo 0 0).sf (r0 .timeCtrl) F.timeCtrl.HOLDOVER_MS 1 with time := { holdBase := some 0 } }
theorem wit_holdover : holding.time.holdBase = some 0 ∧ holding.earlyOn = true ∧ holding.fb (r0 .timeCtrl) F.timeCtrl.SERVO_EN = true ∧ holding.fb (r0 .timeStatus) F.timeStatus.HOLDOVER = false ∧
    holding.f (r0 .timeCtrl) F.timeCtrl.HOLDOVER_MS * 1000000 ≤ holding.elapsed 0 ((st holding).now 1000000) := by decide +kernel
theorem test_holdover : (after (.holdover 1000000) (st holding)).dev.fb (r0 .timeStatus) F.timeStatus.HOLDOVER = true := by decide +kernel
theorem test_pll : (after (.pllLock 0) (st { base with pow := { base.pow with pllLocked := false } })).dev.pow.pllLocked = true := by decide +kernel

/-! ## Cues and captures -/

def armed (periodic : Nat) : Dev :=
  ((((base.wn (r1 .cueChTime 5) 100000).sf (r1 .cueChPeriod 5) F.cueChPeriod.PERIOD 64).sf (r1 .cueChCfg 5) F.cueChCfg.ARM 1).sf (r1 .cueChCfg 5) F.cueChCfg.PERIODIC periodic).sf (r1 .cueChCfg 5) F.cueChCfg.TRIG 1
theorem wit_cue : (armed 1).cueDue ((st (armed 1)).now 0) 5 = true ∧ (armed 1).f (r1 .cueChCfg 5) F.cueChCfg.TRIG < 0x0B ∧ (armed 1).cue.out = [] ∧ (armed 1).fb (r1 .cueChCfg 5) F.cueChCfg.PERIODIC = true ∧
    64 ≤ (armed 1).f (r1 .cueChPeriod 5) F.cueChPeriod.PERIOD := by decide +kernel
theorem test_cue : (after (.cueFire 0 5) (st (armed 1))).dev.rn (r1 .cueChTime 5) = 100064 ∧ tget (after (.cueFire 0 5) (st (armed 1))).dev.cue.trig 1 = some 100000 := by decide +kernel
theorem wit_cue_once : (armed 0).cueDue ((st (armed 0)).now 0) 5 = true ∧ (armed 0).fb (r1 .cueChCfg 5) F.cueChCfg.PERIODIC = false := by decide +kernel
def pulsing : Dev := { base with cue := { pulses := [(2, ⟨2, true, 100000⟩)] } }
theorem wit_pulse : tget pulsing.cue.pulses 2 = some ⟨2, true, 100000⟩ ∧ (⟨2, true, 100000⟩ : Pulse).endAt ≤ (st pulsing).now 0 := by decide +kernel
theorem wit_arm : hits (st (base.wn (r1 .cueChTime 63) 100016)) 0 2 (r1 .cueChCfg 63) .write = true ∧ (1 : Nat).testBit 0 = true ∧
    (st (base.wn (r1 .cueChTime 63) 100016)).now 0 + 16 ≤ (base.wn (r1 .cueChTime 63) 100016).rn (r1 .cueChTime 63) := by decide +kernel
theorem test_arm : (after (.cueArm 0 2 63 1) (st (base.wn (r1 .cueChTime 63) 100016))).dev.fb (r1 .cueChCfg 63) F.cueChCfg.ARM = true := by decide +kernel
theorem wit_time_write : hits (st base) 0 2 (r1 .cueChTime 63) .write = true ∧ base.cueDue ((st base).now 0) 63 = false ∧ base.cue.out = [] := by decide +kernel
def capturing : Dev := (base.sf (r1 .capChCfg 31) F.capChCfg.EN 1).sf (r1 .capChCfg 31) F.capChCfg.SRC 3
theorem wit_capture : (∃ e, e < 4 ∧ ∀ k, k < 32 → ((capturing.sf (r1 .capChCfg 31) F.capChCfg.EDGE e).captures k 3 true 255 = true ↔ k = 31)) ∧ (capturing.heldOf 31).length < 16 ∧ capturing.cue.out = [] ∧ capturing.streams = [] := by decide +kernel
def held1 : Dev := { base with cue := { held := [(31, [(99, 4)])] } }
theorem wit_capture_read : hits (st held1) 0 2 (r1 .capChData 31) .read = true ∧ held1.heldOf 31 = [(99, 4)] := by decide +kernel
theorem test_capture_read : (after (.captureDataRead 0 2 31) (st held1)).dev.bus = .data 99 := by decide +kernel

/-! ## Interrupts -/

/-- Sources 18 and 263 pend; both are enabled for target 33, source 18 with the higher priority (the example of R380). -/
def twoPend : Dev :=
  let d := { base with eic := { pend := [263, 18] } }
  (((d.sf (r1 .eicSrcCfg 18) F.eicSrcCfg.PRIO 9).sf (r1 .eicSrcCfg 263) F.eicSrcCfg.PRIO 6).wn (r2 .eicTEnable 33 0) (2 ^ 18)).wn (r2 .eicTEnable 33 8) (2 ^ 7)
theorem wit_claim : hits (st twoPend) 0 2 (r1 .eicTClaim 33) .read = true ∧ twoPend.eligible 33 18 = true ∧ twoPend.eligible 33 263 = true ∧ twoPend.prio 263 < twoPend.prio 18 ∧ twoPend.eic.since ≠ (st twoPend).now 0 ∧
    (twoPend.eicBefore 100000).eligible 33 18 = true ∧ (twoPend.eicBefore 100000).prio 263 < (twoPend.eicBefore 100000).prio 18 := by decide +kernel
/-- A threshold written in the cycle of the claim does not count in it (R381). -/
theorem test_claim_before : (after (.eicClaim 0 2 33) (st (twoPend.regWrite false 100000 (r1 .eicTThresh 33) 15))).dev.bus = .data 18 := by decide +kernel
theorem test_claim : (after (.eicClaim 0 2 33) (st twoPend)).dev.bus = .data 18 ∧ (after (.eicClaim 0 2 33) (st twoPend)).dev.eic.active = [(18, 33)] := by decide +kernel
theorem wit_claim_none : hits (st base) 0 2 (r1 .eicTClaim 33) .read = true ∧ base.eic.pend = [] := by decide +kernel
def active1 : Dev := { base with eic := { active := [(18, 33)] } }
theorem wit_complete : hits (st active1) 0 2 (r1 .eicTComplete 33) .write = true ∧ active1.eic.active.contains (18, 33) = true ∧ active1.eic.active.contains (1023, 33) = false := by decide +kernel
theorem test_complete : (after (.eicComplete 0 2 33 18) (st active1)).dev.eic.active = [] := by decide +kernel
theorem wit_gpio : base.on 156 = true ∧ base.filterOf (832 + 31) ≤ 1 ∧ (tgetD base.eic.lines 31 ⟨false⟩).level ≠ true := by decide +kernel
/-- A doorbell's enable bit in an application core's page and the configuration of a reserved source ignore writes (R376, R377). -/
theorem test_eic_masks : (let d := base.regWrite false 0 (r2 .eicTEnable 3 16) 0xFFFFFFFF
    let e := base.regWrite false 0 (r1 .eicSrcCfg 5) 0xF
    let g := base.regWrite false 0 (r1 .eicSrcCfg 18) 0xFFFF
    d.rn (r2 .eicTEnable 3 16) = 0 ∧ e.rn (r1 .eicSrcCfg 5) = 0 ∧ g.rn (r1 .eicSrcCfg 18) = 0xF) := by decide +kernel
def filtered : Dev := base.sf (r1 .eicSrcCfg (832 + 31)) F.eicSrcCfg.FILTER 7
theorem wit_glitch : filtered.on 156 = true ∧ 1 ≤ 6 ∧ 6 < filtered.filterOf (832 + 31) := by decide +kernel
def timing : Dev := base.wn (r1 .eicTTimecmp 33) 100000
theorem wit_timer : timing.on 156 = true ∧ timing.timerCmp 33 ≤ (st timing).now 0 ∧ timing.timerCmp 33 ≠ dtMax ∧ timing.eic.timer.contains 33 = false := by decide +kernel
theorem wit_wfi : base.coreRuns 15 = true ∧ base.eic.asleep.contains 15 = false := by decide +kernel
def sleeping : Dev := { base with eic := { asleep := [15], timer := [31] } }
theorem wit_wake : sleeping.eic.asleep.contains 15 = true ∧ sleeping.wakes 15 = true := by decide +kernel

/-! ## Networks -/

def noFusion : Dev := { base with pow := { base.pow with on := base.pow.on.filter (· != 149) } }
theorem wit_receive : noFusion.ethEn 4 = true ∧ noFusion.ethEn 11 = true ∧ base.ethEn 4 = true ∧ unsupported 4 (List.replicate 64 0) = false ∧ noFusion.consumed? 4 (List.replicate 64 0) = false := by decide +kernel
theorem test_receive : ((after (.frameReceive 0 4 99 0 (List.replicate 64 0)) (st noFusion)).dev.port 4).rx.length = 1 := by decide +kernel
def linked : Dev := { base.sf (r1 .ethPortCfg 3) F.ethPortCfg.EN 1 with io := { eth := [(3, { link := true })] } }
theorem wit_receive_early : linked.ethEn 3 = true ∧ unsupported 3 (List.replicate 64 0) = false ∧ linked.consumed? 3 (List.replicate 64 0) = false := by decide +kernel
theorem wit_transmit : linked.ethEn 3 = true ∧ (linked.port 3).link = true ∧
    linked.mayStart ((st linked).now 0) 3 { queue := 7, insert := true, stamped := false, src := ethSrc 3 + 1, data := [1, 2] } = true := by decide +kernel
def gating : Dev :=
  { ((base.sf (r1 .ethPortCfg 3) F.ethPortCfg.EN 1).sf (r1 .ethPortCfg 3) F.ethPortCfg.GCL_EN 1).wn (r2 .ethPortGcl 3 0) 1000 with io := { eth := [(3, { started := true, nent := 2, entryAt := 99000 })] } }
theorem wit_gate : gating.ethEn 3 = true ∧ gating.fb (r1 .ethPortCfg 3) F.ethPortCfg.GCL_EN = true ∧ (gating.port 3).started = true ∧ (gating.port 3).entry + 1 < (gating.port 3).nent ∧
    (gating.port 3).entryAt + gating.rn (r2 .ethPortGcl 3 (256 * gating.f (r1 .ethPortCfg 3) F.ethPortCfg.BANK + (gating.port 3).entry)) % 2 ^ 24 ≤ (st gating).now 0 := by decide +kernel
theorem test_gate : ((after (.gateEntryEnd 0 3) (st gating)).dev.port 3).entry = 1 := by decide +kernel
theorem wit_preempt : (let d := linked.sf (r1 .ethPortCfg 3) F.ethPortCfg.PREEMPT_EN 1
    d.ethEn 3 = true ∧ (d.port 3).link = true ∧ d.fb (r1 .ethPortCfg 3) F.ethPortCfg.PREEMPT_EN = true) := by decide +kernel
theorem wit_link : base.ethOn 13 = true ∧ base.ethOn 0 = true := by decide +kernel
theorem wit_sync : linked.ethEn 3 = true ∧ (linked.port 3).link = true ∧ (800 : Nat) ≤ 800 := by decide +kernel
theorem test_sync : (after (.syncInterval 0 3 0 5 800 [1]) (st linked)).dev.fb (r1 .ethPortStat 3) F.ethPortStat.AS_CAPABLE = true := by decide +kernel
theorem wit_ptm : base.on 163 = true := by decide

/-! ## Crossings and low-speed interfaces -/

theorem wit_crossings : 5 < cdcQueues 0 ∧ 7 < cdcQueues 1 ∧ 7 < cdcQueues 2 ∧ 0 < cdcQueues 3 ∧ 4 < cdcSamples 0 ∧ 7 < cdcSamples 1 ∧ 1 < cdcSamples 2 := by decide
theorem test_elastic : (after (.queueEnterElastic 0 0 5) (st base)).dev.elastic 0 5 = true := by decide +kernel
theorem wit_can : noFusion.on 166 = true ∧ noFusion.on 149 = false := by decide
def spi : Dev := ((base.sf (r1 .spiCfg 1) F.spiCfg.EN 1).sf (r2 .spiSlot 1 15) F.spiSlot.TRIG 1).sf (r1 .spiCfg 1) F.spiCfg.DRDY_POL 0
theorem wit_spi_ready : spi.spiEn 1 = true ∧ true = !(spi.fb (r1 .spiCfg 1) F.spiCfg.DRDY_POL) ∧ spi.trigSlots 1 = [15] ∧ (spi.spi 1).run = none := by decide +kernel
theorem wit_spi_go : hits (st spi) 0 2 (r2 .spiSlot 1 15) .write = true ∧ spi.spiEn 1 = true ∧ (2 ^ 30 : Nat).testBit 30 = true ∧ (2 ^ 30 : Nat).testBit 31 = false ∧ (spi.spi 1).run = none := by decide +kernel
theorem test_spi_go : ((after (.spiGo 0 2 1 15 (2 ^ 30)) (st spi)).dev.spi 1).run = some (100000, [15]) := by decide +kernel
def spiRunning : Dev := { noFusion with io := { spi := [(1, { run := some (99, [15]) })] } }
theorem wit_spi_end : spiRunning.on 166 = true ∧ spiRunning.on 149 = false ∧ (spiRunning.spi 1).run = some (99, [15]) ∧ (spiRunning.spi 1).waiting = [] ∧ (spiRunning.spi 1).goes = [] := by decide +kernel
theorem wit_tdm : base.on 166 = true := by decide

/-! ## Safe stop -/

theorem wit_stop_change : base.earlyOn = true ∧ base.f (r0 .ssCfg) F.ssCfg.TP_US ≤ 1000 ∧ base.fus.subs = [] ∧ (base.f (r0 .ssStat) F.ssStat.DISC).testBit 1 = false := by decide +kernel
theorem test_stop_change : ((after (.safeStopChange 0 1 false true 1000) (st base)).dev.f (r0 .ssStat) F.ssStat.STOP_IN).testBit 1 = true := by decide +kernel
def differing : Dev := { base with ss := { differ := [(1, 0)] } }
theorem wit_discrepancy : differing.earlyOn = true ∧ tget differing.ss.differ 1 = some 0 ∧ differing.f (r0 .ssCfg) F.ssCfg.DISC_MS * 1000000 < differing.elapsed 0 ((st differing).now 1000000000) := by decide +kernel
def dynamic : Dev := (base.sf (r0 .ssCfg) F.ssCfg.DYN 1).sf (r0 .ssStat) F.ssStat.REQ 0
theorem wit_dynamic : dynamic.earlyOn = true ∧ dynamic.fb (r0 .ssCfg) F.ssCfg.DYN = true ∧ dynamic.fb (r0 .ssStat) F.ssStat.REQ = false ∧ 500000 ≤ dynamic.elapsed dynamic.ss.phaseAt ((st dynamic).now 600000) := by
  decide +kernel

end Sys2Proof.Tests
end

