-- ==== Sys2Proof/Tests/Cells.lean ====
section
/-! SUPPORT. Witnesses for the statements about rendezvous cells. -/

namespace Sys2Proof.Tests

open Sys2Proof Sys2Proof.Machine

set_option Elab.async false

/-- A cell of a type, with a count and a target, that context 0 may operate. -/
def cell (type count target : Nat) (ws : List Waiter) : Cell :=
  { type := type, broken := false, owner := 0, ceiling := 15, count := count, target := target, hold := 0, phase := false, users := [0, 1], session := none, waiters := ws, creator := 0 }

/-- A device with cell 131,071, contexts 0 and 1, and software port 63 claimed by context 0. -/
def celled (x : Cell) : Dev :=
  { base with cells := [(131071, x)], stew := { base.stew with owners := [(resKey 0x0B 63, .ctx 0)] },
              fab := { ctxs := [(0, { mbx := 0, cls := 2, seed := 0 }), (1, { mbx := 0, cls := 3, seed := 0 })] } }
def port63 : CellVia := .port 2 63
def stage0 : CellVia := .stage 0 0

theorem wit_uses_semaphore : uses (st (celled (cell 0 1 1 []))) 0 port63 0 131071 (cell 0 1 1 []) := ⟨by decide +kernel, by decide, rfl, by decide +kernel, rfl⟩
theorem wit_uses_barrier : uses (st (celled (cell 1 0 2 []))) 0 port63 0 131071 (cell 1 0 2 []) := ⟨by decide +kernel, by decide, rfl, by decide +kernel, rfl⟩
theorem wit_uses_flags : uses (st (celled (cell 2 1 0 []))) 0 port63 0 131071 (cell 2 1 0 []) := ⟨by decide +kernel, by decide, rfl, by decide +kernel, rfl⟩

/-- Context 0 holds a unit of the cell; context 1 waits for one. -/
def holder (x : Cell) : Dev :=
  { celled x with fab := { ctxs := [(0, { mbx := 0, cls := 2, seed := 0, held := [(131071, {})] }), (1, { mbx := 0, cls := 3, seed := 0 })] } }
def waiter (op : Nat) : Waiter := { who := .port 62, ctx := 1, op := op, arg := 4, prio := 3, key := ⟨5, 0, 0⟩, wait := none }

theorem wit_refused : viaCtx (st (celled (cell 0 1 1 []))) 0 port63 = some 0 ∧ (celled (cell 0 1 1 [])).cellCount 131071 < 2 ^ 32 ∧
    (celled (cell 0 1 1 [])).cellFail 0 4 131071 0 0 = some .badConfig ∧ (celled (cell 0 1 1 [])).cellFail 0 1 131070 0 0 = some .badConfig ∧ (celled (cell 0 1 1 [])).cellFail 0 1 131071 0 1 = some .badReserved := by
  decide +kernel
theorem wit_via_stage : (let d := (celled (cell 0 1 1 [])).sf (r1 .pbuCtxCfg 0) F.pbuCtxCfg.STATE 2
    viaCtx (st d) 0 stage0 = some 0) := by decide +kernel
theorem wit_acquire : (cell 0 1 1 []).type = 0 ∧ ((celled (cell 0 1 1 [])).ctx? 0).isSome = true ∧ ((celled (cell 0 1 1 [])).holds 0).length < 16 ∧ 0 < (cell 0 1 1 []).count := by decide +kernel
theorem test_acquire : (after (.acquire 0 port63 131071 0 0) (st (celled (cell 0 1 1 [])))).dev.cellCount 131071 = 0 ∧
    ((after (.acquire 0 port63 131071 0 0) (st (celled (cell 0 1 1 [])))).dev.holds 0).length = 1 := by decide +kernel
/-- Context 0 is of class 2, so it may wait on any cell; one of class 0 may wait where the owner is of class 0 or 1 (R107). -/
theorem wit_waits : waitsOk (st (celled (cell 0 1 1 []))) 0 (cell 0 1 1 []) ∧ waitsOk (st ((celled (cell 0 1 1 [])).sf (r1 .pbuCtxCfg 0) F.pbuCtxCfg.CLASS 0)) 0 (cell 0 1 1 []) := by
  unfold waitsOk; decide +kernel
theorem wit_acquire_none : (cell 0 0 1 []).type = 0 ∧ ((celled (cell 0 0 1 [])).holds 0).length < 16 ∧ (cell 0 0 1 []).count = 0 := by decide +kernel
theorem test_try_none : (after (.tryAcquire 0 port63 131071 0 0) (st (celled (cell 0 0 1 [])))).dev.f (r1 .rdvPortRes 63) F.rdvPortRes.STATUS = Status.busy.code := by decide +kernel
theorem wit_release : (cell 0 0 1 []).count < (cell 0 0 1 []).target ∧ (cell 0 0 1 []).waiters = [] ∧ (131071, ({} : Key)) ∈ (holder (cell 0 0 1 [])).holds 0 := by decide +kernel
theorem wit_release_uses : uses (st (holder (cell 0 0 1 []))) 0 port63 0 131071 (cell 0 0 1 []) := ⟨by decide +kernel, by decide, rfl, by decide +kernel, rfl⟩
theorem wit_release_waiter : (cell 0 0 1 [waiter 1]).waiters = [waiter 1] ∧ (131071, ({} : Key)) ∈ (holder (cell 0 0 1 [waiter 1])).holds 0 ∧ (waiter 1).ctx ≠ 0 ∧
    ((holder (cell 0 0 1 [waiter 1])).ctx? 1).isSome = true ∧ ((holder (cell 0 0 1 [waiter 1])).holds 1).length < 16 ∧ (holder (cell 0 0 1 [waiter 1])).lapsed 100000 (waiter 1) = false := by decide +kernel
theorem wit_release_waiter_uses : uses (st (holder (cell 0 0 1 [waiter 1]))) 0 port63 0 131071 (cell 0 0 1 [waiter 1]) := ⟨by decide +kernel, by decide, rfl, by decide +kernel, rfl⟩
theorem test_release_waiter : ((after (.cellRelease 0 port63 131071 0 0) (st (holder (cell 0 0 1 [waiter 1])))).dev.holds 1).length = 1 := by decide +kernel
theorem wit_release_none : (celled (cell 0 0 1 [])).holds 0 = [] := by decide +kernel
theorem wit_arrive : (cell 1 0 2 []).count + 1 < (cell 1 0 2 []).target ∧ (cell 1 1 2 []).target ≤ (cell 1 1 2 []).count + 1 := by decide
theorem test_arrive : ((after (.arrive 0 port63 131071 0 0) (st (celled (cell 1 1 2 [waiter 5])))).dev.cells.map fun e => (e.2.count, e.2.phase, e.2.waiters)) = [(0, true, [])] := by decide +kernel
theorem test_arrive_wait : ((after (.arriveWait 0 port63 131071 0 0) (st (celled (cell 1 0 2 [])))).dev.cells.map fun e => (e.2.count, e.2.waiters.length)) = [(1, 1)] := by decide +kernel
theorem wit_flags : (cell 2 1 0 []).type = 2 ∧ (cell 2 (2 ^ 32 - 1) 0 []).count < 2 ^ 32 ∧ (1 &&& 4 : Nat) = 0 ∧ (1 &&& 1 : Nat) ≠ 0 ∧ (1 &&& 5 : Nat) ≠ 5 := by decide
theorem test_flag_set : ((after (.flagSet 0 port63 131071 4 0) (st (celled (cell 2 1 0 [waiter 8])))).dev.cells.map fun e => (e.2.count, e.2.waiters)) = [(5, [])] := by decide +kernel
theorem test_flag_clear : (after (.flagClear 0 port63 131071 1 0) (st (celled (cell 2 5 0 [])))).dev.cellCount 131071 = 4 := by decide +kernel
theorem test_wait_all : ((after (.waitAll 0 port63 131071 5 0) (st (celled (cell 2 1 0 [])))).dev.cells.map fun e => e.2.waiters.length) = [1] := by decide +kernel
theorem test_wait_any : (after (.waitAny 0 port63 131071 5 0) (st (celled (cell 2 1 0 [])))).dev.f (r1 .rdvPortRes 63) F.rdvPortRes.VALUE = 1 := by decide +kernel
def done63 : Dev := (celled (cell 2 1 0 [])).sf (r1 .rdvPortRes 63) F.rdvPortRes.STATE 2
theorem wit_result : hits (st done63) 0 2 (r1 .rdvPortRes 63) .read = true ∧ (done63.portCtx 63).isSome = true ∧ done63.f (r1 .rdvPortRes 63) F.rdvPortRes.STATE = 2 := by decide +kernel
theorem test_result : (after (.rdvResultRead 0 2 63) (st done63)).dev.f (r1 .rdvPortRes 63) F.rdvPortRes.STATE = 0 := by decide +kernel

end Sys2Proof.Tests
end

