-- ==== Sys2Proof/Tests/Fabric.lean ====
section
/-! SUPPORT. Witnesses for the statements about the cascade fabric. -/

namespace Sys2Proof.Tests

open Sys2Proof Sys2Proof.Machine

set_option Elab.async false

/-- A stage word: its kind, sub-operation and parameter entry; input entry 0, result entry 1, dimensions 4, 1, 1, FP32 throughout. -/
def stageWord (kind sub param : Nat) : Nat :=
  kind * 2 ^ 122 + sub * 2 ^ 97 + 0 * 2 ^ 90 + 63 * 2 ^ 84 + 1 * 2 ^ 78 + param * 2 ^ 72 + 4 * 2 ^ 60 + 2 ^ 48 + 2 ^ 36

/-- A scoreboard entry with two slots of 256 bytes: those ready and those free. -/
def sb (kind : Nat) (readyQ : List (Nat × Nat)) (freeQ : List Nat) : SbEntry :=
  ⟨kind, false, 2, 0, 256, 200, 3, 0, false, readyQ, freeQ, if kind = 2 then 2 else 0, 0⟩

/-- A basin of context 0 with two stages of one word, entries 0 (ready), 1 (free) and 2 (ready, for parameters), and running stages. -/
def basin (w : Nat) (running : Tbl Running) (out : Nat) : Basin :=
  { ctx := 0, header := 2 ^ 45, stages := [w, w], entries := [(0, sb 0 [(1, 5)] [0]), (1, sb out [] [0, 1]), (2, sb 5 [(0, 5)] [1])], running := running }
def run0 : Running := { slotA := 1, slotB := none, slotOut := 0, slotParam := none, dim0 := 4, dim1 := 1, dim2 := 1, at_ := 5, worked := false, sent := 0 }

/-- The device with a basin at logical basin 255, its context running. -/
def weir (b : Basin) : Dev :=
  ({ base with fab := { ctxs := [(0, { mbx := 0, cls := 2, seed := 0, basins := [255] })], basins := [(255, b)] } } : Dev).sf (r1 .pbuCtxCfg 0) F.pbuCtxCfg.STATE 2

theorem wit_dispatch : (let b := basin (stageWord 2 8 63) [] 1
    (weir b).dispatchable 100000 255 b 0 = true ∧ (0 : Nat) < hdrNstage b.header ∧ stParam (b.stages.getD 0 0) = 63) := by decide +kernel
theorem test_dispatch : (after (.stageDispatch 0 255) (st (weir (basin (stageWord 2 8 63) [] 1)))).dev.rn (r1 .pbuWeirDispatched 3) = 1 := by decide +kernel
/-- The parameter slot holds zeros, and a dimension is at least 1. -/
theorem wit_dispatch_dims : (let b := basin (stageWord 2 8 2) [] 1
    (weir b).dispatchable 100000 255 b 0 = true ∧ stParam (b.stages.getD 0 0) ≠ 63 ∧
    (weir b).dimsFit (b.stages.getD 0 0) b ((weir b).dimsFor 255 (b.stages.getD 0 0) b (some 0)) ((weir b).winOf 255 0) = false) := by decide +kernel
theorem test_dispatch_dims : (after (.stageDispatch 0 255) (st (weir (basin (stageWord 2 8 2) [] 1)))).dev.ctxState 0 = 0 := by decide +kernel
theorem wit_dispatch_none : (let b := { basin (stageWord 2 8 63) [] 1 with entries := [] }
    ∀ j, j < 8 → (weir b).dispatchable 100000 255 b j = false) := by decide +kernel
theorem wit_at_work : ∀ k, k < 8 → (weir (basin (stageWord k 0 63) [(1, run0)] 1)).atWork 255 1 k = some (basin (stageWord k 0 63) [(1, run0)] 1, run0, stageWord k 0 63) := by decide +kernel
/-- ABS of an unwritten slot of FP32 writes four zeros; the stage is then worked. -/
theorem test_vector : ((after (.vector 0 255 1) (st (weir (basin (stageWord 2 8 63) [(1, run0)] 1)))).dev.fab.basins.map fun e => e.2.running.map fun r => r.2.worked) = [[true]] := by decide +kernel
theorem wit_forward : (let b := basin (stageWord 7 0 63) [(1, run0)] 2
    (weir b).atWork 255 1 7 = some (b, run0, stageWord 7 0 63) ∧ (weir b).gated ((weir b).payer 0) 6 = false) := by decide +kernel
def flit0 : Flit := ⟨200, 255, 1, 1, 0, List.replicate 256 7, true, 1, ⟨5, 0, 0⟩⟩
def meshed : Dev := { weir (basin (stageWord 7 0 63) [] 1) with fab := { (weir (basin (stageWord 7 0 63) [] 1)).fab with flits := [flit0] } }
theorem wit_flit : meshed.fab.flits.find? (fun f => f.src == 200 && f.dst == 255 && f.entry == 1) = some flit0 ∧ (meshed.basin? 255).map (fun b => (b.entry 1).freeQ) = some [0, 1] := by decide +kernel
theorem test_flit : ((after (.flitDeliver 0 200 255 1) (st meshed)).dev.basin? 255).map (fun b => ((b.entry 1).readyQ, (b.entry 1).freeQ)) = some ([(0, 100000)], [1]) := by decide +kernel
def crediting : Dev :=
  (let d := weir (basin (stageWord 7 0 63) [] 2)
   { d with fab := { d.fab with credits := [⟨255, 1, 200⟩] } })
theorem wit_credit : crediting.remoteBack 255 1 = none ∧ crediting.consumers 255 1 = [200] ∧ (∀ c ∈ crediting.consumers 255 1, (⟨255, 1, c⟩ : CreditBack) ∈ crediting.fab.credits) := by decide +kernel
/-- An entry of another module, with a credit from there. -/
def remoteCrediting : Dev :=
  (let b := basin (stageWord 7 0 63) [] 2
   let e : SbEntry := { sb 2 [] [0, 1] with remote := true, peerModule := 1 }
   let d := weir { b with entries := [(0, sb 0 [(1, 5)] [0]), (1, e)] }
   { d with fab := { d.fab with credits := [⟨255, 1, 256 * 2 + 200⟩] } })
theorem wit_credit_remote : remoteCrediting.remoteBack 255 1 = some ⟨255, 1, 256 * 2 + 200⟩ ∧ (remoteCrediting.basin? 255).isSome = true := by decide +kernel
theorem wit_flit_order : meshed.fab.flits.find? (fun f => f.src == 200 && f.dst == 255) = some flit0 ∧ flit0.entry = 1 ∧ flit0.entry ≠ 2 := by decide +kernel
theorem wit_tile_end_local : (let w := stageWord 2 8 63
    let b := basin w [(1, { run0 with worked := true })] 0
    b.stages.getD 1 0 = w ∧ ({ run0 with worked := true } : Running).post = true ∧ (b.entry (stInA w)).kind = 0 ∧ stInB w = 63 ∧ run0.slotB = none ∧ stParam w = 63 ∧ run0.slotParam = none ∧
    (b.entry (stOut w)).kind = 0 ∧ stOut w ≠ stInA w ∧ stLast w = false ∧ b.sheets = []) := by decide +kernel
theorem test_tile_end_local : (((after (.tileEnd 0 255 1 10 3) (st (weir (basin (stageWord 2 8 63) [(1, { run0 with worked := true })] 0)))).dev.basin? 255).map fun b => ((b.entry 0).freeQ, (b.entry 1).readyQ)) =
    some ([0, 1], [(0, 100000)]) := by decide +kernel
theorem wit_tile_end : (let b := basin (stageWord 2 8 63) [(1, { run0 with worked := true })] 1
    (weir b).basin? 255 = some b ∧ tget b.running 1 = some { run0 with worked := true }) := by decide +kernel
def switching : Dev :=
  { base with fab := { ctxs := [(0, { mbx := 0, cls := 2, seed := 0 }), (1, { mbx := 0, cls := 3, seed := 0 })], switches := [⟨3, 0, 1, 50000, 70000⟩] } }
theorem wit_switch : switching.fab.switches.find? (fun x => x.region == 3 && decide (x.doneAt ≤ (st switching).now 0) && (x.out == x.inn || switching.drained x.out)) = some ⟨3, 0, 1, 50000, 70000⟩ ∧
    (switching.ctx? 0).isSome = true ∧ (switching.ctx? 1).isSome = true := by decide +kernel
theorem test_switch : (after (.contextSwitchDone 0 3) (st switching)).dev.ctxState 1 = 2 := by decide +kernel
/-- The device with no column repaired. -/
def intact (d : Dev) : Dev := (d.wn (r0 .pbuFabRepairLo) 0).wn (r0 .pbuFabRepairHi) 0
theorem wit_uncorrectable : (let d := intact (weir (basin (stageWord 2 8 63) [] 1))
    d.on (pairOf (d.physical 255)) = true ∧ (d.basin? 255).isSome = true ∧ (d.ctx? 0).map Ctx.torn = some false ∧ d.basin? 254 = none ∧ d.on (pairOf (d.physical 254)) = true) := by decide +kernel
theorem test_uncorrectable : (after (.basinStoreUncorrectable 0 255 0) (st (intact (weir (basin (stageWord 2 8 63) [] 1))))).dev.fab.basins = [] := by decide +kernel
theorem wit_watchdog : (let d := weir (basin (stageWord 2 8 63) [] 1)
    d.watched 0 = true ∧ d.f (r0 .pbuCtrl) F.pbuCtrl.WDOG_MS * 1000000 ≤ d.elapsed 0 ((st d).now 10000000000)) := by decide +kernel
def carrying : Dev :=
  { celled (cell 0 0 1 []) with fab := { ctxs := [(0, { mbx := 0, cls := 2, seed := 0 }), (1, { mbx := 0, cls := 2, seed := 0 })], carries := [⟨131071, 131071, 0, 1, 1, 0, some 5⟩] } }
theorem wit_hold_limit : (carrying.syncCarries 100000).fab.carries = [⟨131071, 131071, 0, 1, 1, 0, some 5⟩] ∧ (carrying.syncCarries 100000).holdEnd ⟨131071, 131071, 0, 1, 1, 0, some 5⟩ = some 6 ∧
    6 < (st carrying).now 0 ∧ (tget carrying.cells 131071).map Cell.waiters = some [] ∧ (carrying.ctx? 0).map Ctx.torn = some false := by decide +kernel
theorem test_hold_limit : ((after (.holdLimitExpire 0) (st carrying)).dev.cells.map fun e => e.2.broken) = [true] := by decide +kernel

end Sys2Proof.Tests
end

