-- ==== Sys2Proof/Tests/Steward.lean ====
section
/-! SUPPORT. Witnesses for the statements about mailboxes, sessions, claims, configuration, budgets and modes. -/

namespace Sys2Proof.Tests

open Sys2Proof Sys2Proof.Machine

set_option Elab.async false

/-- A request is the one in flight on mailbox 0, may be decided, and passes its checks. -/
def passes (d : Dev) (r : Req) (code : Nat) (check : Dev → Req → Option Fail) : Bool :=
  ready (st (withReq d r)) 0 0 5 code r && check (withReq d r) r == none

/-- A device whose context 0 owns a resource. -/
def owning (type index : Nat) (d : Dev) : Dev := { d with stew := { d.stew with owners := (resKey type index, .ctx 0) :: d.stew.owners } }
def lone : Dev := { base with stew := { base.stew with sessions := [] }, fab := {} }
def hello0 (flags : Nat) : Req := rq 0x0001 flags 0 (words [1, 0, 2 ^ 26])
def bye0 : Req := rq 0x0002 0 0 []
def open0 : Req := rq 0x0101 0 0 (words [2 + 7 * 2 ^ 16, 99])
def close0 : Req := rq 0x0102 0 0 []
def shares0 : Req := rq 0x0103 0 0 (words [1, 0 + 9 * 2 ^ 16])

/-! ## Mailboxes -/

def mailed : Dev := (base.sf (r1 .mbxBase 0) F.mbxBase.EN 1).sf (r1 .mbxBase 0) F.mbxBase.BASE 0x1000000
theorem wit_doorbell : hits (st mailed) 0 2 (r1 .mbxReq 0) .write = true ∧ mailed.fb (r1 .mbxBase 0) F.mbxBase.EN = true ∧ (32 % 64 + 64 - mailed.f (r1 .mbxReq 0) F.mbxReq.HEAD) % 64 ≤ 32 ∧
    32 < (33 % 64 + 64 - mailed.f (r1 .mbxReq 0) F.mbxReq.HEAD) % 64 := by decide +kernel
theorem test_doorbell : (after (.doorbell 0 2 0 1) (st mailed)).dev.f (r1 .mbxReq 0) F.mbxReq.TAIL = 1 := by decide +kernel
theorem test_doorbell_range : (after (.doorbell 0 2 0 33) (st mailed)).dev.fb (r1 .mbxStat 0) F.mbxStat.IDX_ERR = true := by decide +kernel
def rung (head : List Byte) : Dev :=
  let d := mailed.sf (r1 .mbxReq 0) F.mbxReq.TAIL 1
  { d with mem := d.mem.write (d.ring 0) head }
/-- A HELLO's header: code 1, version 1.0, payload of 12 bytes; below, one whose GEN is not 0. -/
def helloBytes (gen : Nat) : List Byte := words [1 + 2 ^ 26 + gen * 2 ^ 30, 7, 12, 5, 1000, 0, 0, 0, 1, 0, 2 ^ 26]
theorem wit_take : (rung (helloBytes 0)).stewardRuns = true ∧ (rung (helloBytes 0)).requests 0 = 1 ∧ (rung (helloBytes 0)).inflightOf 0 + (rung (helloBytes 0)).unconsumed 0 + ((rung (helloBytes 0)).noticesOf 0).length < 32 ∧
    (rung (helloBytes 0)).formFail ((rung (helloBytes 0)).readReq 100000 0) = none := by decide +kernel
theorem test_take : (after (.requestTake 0 0) (st (rung (helloBytes 0)))).dev.stew.inflight.map Req.code = [1] := by decide +kernel
def full0 : Dev := (rung (helloBytes 0)).sf (r1 .mbxCpl 0) F.mbxCpl.TAIL 32
theorem wit_held : full0.stewardRuns = true ∧ 0 < full0.requests 0 ∧ 32 ≤ full0.inflightOf 0 + full0.unconsumed 0 + (full0.noticesOf 0).length := by decide +kernel
def query0 : Req := rq 0x0C01 0 0 (words [0x0001, 0])
theorem wit_query_timeout : (withReq base query0).req? 0 5 = some query0 ∧ (withReq base query0).stewardRuns = true ∧ query0.code = 0x0C01 ∧ query0.decided = false ∧
    10000000 ≤ (withReq base query0).elapsed query0.order ((st (withReq base query0)).now 20000000) := by decide +kernel
theorem test_query_timeout : (after (.mcQueryTimeout 20000000 0 5) (st (withReq base query0))).dev.stew.cpls.map Cpl.status = [0x0010] := by decide +kernel
theorem wit_finish : ([] : List Byte).length ≤ 480 ∧ base.on 156 = true ∧ (0 : Nat) < 256 := by decide

/-! ## Checks that fail -/

def badBye : Req := rq 0x0002 0 0 (words [0])
theorem wit_failed : ready (st (withReq base badBye)) 0 0 5 0x0002 badBye = true ∧ (withReq base badBye).byeCheck badBye = some (.badConfig, 8) := by decide +kernel
theorem wit_not_in_flight : base.req? 0 5 = none ∧ base.stew.settings = [] := by decide +kernel
theorem test_failed : (after (.bye 0 0 5) (st (withReq base badBye))).dev.stew.cpls.map (fun c => (c.status, c.detail)) = [(0x0032, 8)] := by decide +kernel

/-! ## Sessions -/

theorem wit_hello : passes lone (hello0 0) 0x0001 (fun d => d.helloCheck 0) = true ∧ (withReq lone (hello0 0)).hasSession 0 = false := by decide +kernel
theorem test_hello : (after (.hello 0 0 5) (st (withReq lone (hello0 0)))).dev.stew.cpls.map Cpl.status = [0] ∧
    (after (.hello 0 0 5) (st (withReq lone (hello0 0)))).dev.fb (r1 .mbxStat 0) F.mbxStat.SESSION = true := by decide +kernel
theorem wit_hello_keep : passes base (hello0 1) 0x0001 (fun d => d.helloCheck 0) = true ∧ (withReq base (hello0 1)).hasSession 0 = true ∧ (hello0 1).flag 1 = false := by decide +kernel
theorem wit_hello_reset : passes base (hello0 2) 0x0001 (fun d => d.helloCheck 0) = true ∧ (withReq base (hello0 2)).hasSession 0 = true ∧ (hello0 2).flag 1 = true := by decide +kernel
def noCtx : Dev := { base with fab := {} }
theorem wit_bye : passes noCtx bye0 0x0002 Dev.byeCheck = true ∧ (withReq noCtx bye0).stew.inflight = [bye0] ∧ (withReq noCtx bye0).fab.ctxs = [] ∧ (withReq noCtx bye0).fab.cascades = [] := by decide +kernel
theorem test_bye : (after (.bye 0 0 5) (st (withReq noCtx bye0))).dev.stew.sessions = [] := by decide +kernel
theorem wit_ctx_open : passes base open0 0x0101 (fun d => d.ctxOpenCheck 0) = true ∧ (withReq base open0).freeCtx = some 1 := by decide +kernel
theorem test_ctx_open : (after (.ctxOpen 0 0 5) (st (withReq base open0))).dev.ctx? 1 = some { mbx := 0, cls := 2, seed := 99 } := by decide +kernel
theorem wit_ctx_close : passes base close0 0x0102 Dev.ctxCloseCheck = true := by decide +kernel
theorem test_ctx_close : (after (.ctxClose 0 0 5) (st (withReq base close0))).dev.fab.ctxs = [] := by decide +kernel
theorem wit_ctx_shares : passes base shares0 0x0103 (fun d => d.ctxSharesCheck 0) = true ∧ 0 < shares0.fld 0 0 8 := by decide +kernel

/-! ## Resources and settings -/

def claim0 : Req := rq 0x0601 0 0 (words [9 + 5 * 2 ^ 16])
def release0 : Req := rq 0x0602 0 0 (words [9 + 5 * 2 ^ 16])
def cueSet0 : Req := rq 0x0701 0 0 (words [5, 1, 200000, 0, 64, 0])
def captureSet0 : Req := rq 0x0702 0 0 (words [31, 0])
theorem wit_claim_cmd : passes base claim0 0x0601 Dev.claimCmdCheck = true := by decide +kernel
theorem test_claim_cmd : (after (.claim 0 0 5) (st (withReq base claim0))).dev.owner 9 5 = some (.ctx 0) := by decide +kernel
theorem wit_release_cmd : passes (owning 9 5 base) release0 0x0602 Dev.releaseCheck = true := by decide +kernel
theorem wit_cue_set : passes (owning 9 5 base) cueSet0 0x0701 Dev.cueSetCheck = true ∧ (withReq (owning 9 5 base) cueSet0).cueDue ((st base).now 0) 5 = false ∧
    (withReq (owning 9 5 base) cueSet0).fixedChannel 5 = false ∧ cueSet0.cueCfg F.cueChCfg.ARM = 1 ∧ (st base).now 0 + 16 ≤ cueSet0.w64 8 := by decide +kernel
theorem test_cue_set : (after (.cueSet 0 0 5) (st (withReq (owning 9 5 base) cueSet0))).dev.rn (r1 .cueChTime 5) = 200000 := by decide +kernel
theorem wit_capture_set : passes (owning 10 31 base) captureSet0 0x0702 Dev.captureSetCheck = true := by decide +kernel
/-- CONFIG_SET of TIME_SERVO_KP: the same value, another, and of KV_CTRL, which waits for its point. -/
def config0 (code value : Nat) : Req := rq 0x0603 0 0 (words [code, 0, 255, 0, value, 0])
theorem wit_config_set : (let d := withReq base (config0 0x0002 1)
    ready (st d) 0 0 5 0x0603 (config0 0x0002 1) = true ∧ d.configSetCheck ((st d).now 0) 0 (config0 0x0002 1) = none ∧ (setRow 0x0002).isSome = true ∧
    d.setNew 0x0002 0 255 1 ≠ d.setOld 0x0002 0 ∧ d.setNew 0x0002 0 255 0 = d.setOld 0x0002 0 - d.setOld 0x0002 0 % 256) := by decide +kernel
theorem test_config_set : (after (.configSet 0 0 5) (st (withReq base (config0 0x0002 1)))).dev.stew.cpls.map Cpl.status = [0] := by decide +kernel
theorem wit_config_wait : (let r := rq 0x0603 0 0 (words [0x0040, 0, 1, 0, 1 - base.rn (r0 .kvCtrl) % 2, 0])
    let d := withReq base r
    ready (st d) 0 0 5 0x0603 r = true ∧ d.configSetCheck ((st d).now 0) 0 r = none ∧ (setRow 0x0040).map SetRow.atOnce = some false ∧
    d.setNew 0x0040 0 (r.w64 8) (r.w64 16) ≠ d.setOld 0x0040 0) := by decide +kernel

end Sys2Proof.Tests
end

