-- ==== Sys2Proof/Tests/Memory.lean ====
section
/-! SUPPORT. Witnesses for the statements about modes, periods, budgets, the sluice, objects, sequences and cascades. -/

namespace Sys2Proof.Tests

open Sys2Proof Sys2Proof.Machine

set_option Elab.async false

/-! ## Modes, periods, budgets -/

def budget0 (flags cal periods : Nat) : Req := rq 0x0501 flags 0 (words ([15 + 1 * 16 + 3 * 2 ^ 12 + 1 * 2 ^ 16, 0] ++ List.replicate 16 0 ++ [cal, periods]))
def mode0 (envelope profile : Nat) : Req := rq 0x0502 0 0 (words ((envelope + profile * 4) :: List.replicate 11 0))
def profile0 (p : Nat) : Req := rq 0x0503 0 0 (words [p])
theorem wit_budget_set : passes base (budget0 0 0 0) 0x0501 Dev.budgetFail = true ∧ (budget0 0 0 0).flag 0 = false := by decide +kernel
theorem test_budget_set : (after (.budgetSet 0 0 5) (st (withReq base (budget0 0 0 0)))).dev.fb (r0 .pbuCtrl) F.pbuCtrl.SWAP = true := by decide +kernel
theorem wit_mode_set : passes base (mode0 1 0) 0x0502 (fun d => d.modeSetCheck 100000) = true ∧ (withReq base (mode0 1 0)).pbu.pend = none := by decide +kernel
theorem test_mode_set : (after (.modeSet 0 0 5) (st (withReq base (mode0 1 0)))).dev.f (r0 .cpcMode) F.cpcMode.PEND_ENVELOPE = 1 := by decide +kernel
theorem wit_profile_set : passes base (profile0 1) 0x0503 Dev.profileSetCheck = true := by decide +kernel
def surging : Dev := base.sf (r0 .cpcMode) F.cpcMode.ENVELOPE 2
theorem wit_forced : surging.mc.running = true ∧ surging.envelope ≠ 0 ∧ surging.on 156 = true ∧ surging.pbu.pend = none := by decide +kernel
theorem test_forced : (after (.forcedStep 0) (st surging)).dev.pbu.pend.map PendMode.envelope = some 1 := by decide +kernel
theorem wit_power : base.on 156 = true ∧ base.fb (r0 .pbuStat) F.pbuStat.POWER_SCALED = false ∧ f32Lt (powerLimit base.envelope) 0x44000000 = true := by decide +kernel
theorem wit_power_surge : surging.envelope = 2 ∧ f32Lt (powerCap 2) 0x43960000 = true ∧ (2000 : Nat) < 2001 ∧ surging.fb (r0 .pbuStat) F.pbuStat.POWER_SCALED = false := by decide +kernel
def calibrating : Dev := { withReq base (budget0 1 0 1) with pbu := { calRun := some { mbx := 0, seq := 5, cls := 15, object := 0, periodsLeft := 0, periods := 1, worst := [] } } }
theorem wit_calibration : (calibrating.pbu.calRun.map CalRun.periodsLeft) = some 0 ∧ calibrating.stewardRuns = true ∧ (calibrating.req? 0 5).isSome = true := by decide +kernel
def retraining : Dev := { base with pbu := { windowFrom := some 0 } }
theorem wit_retraining : (st retraining).dt ≤ dtMax ∧ retraining.pbu.windowFrom = some 0 ∧ retraining.dueAfter 0 2000000 ≤ (st retraining).now 2000000 ∧
    (st retraining).now 1000000 ≤ retraining.dueAfter 0 2000000 ∧ retraining.dueAfter 0 2000000 < (st retraining).now 3000000 := by decide +kernel
theorem test_late_training : (after (.farStoreTraining 3000000 []) (st retraining)).dev.rn (r0 .cpcWindowEnd) = 2000000 := by decide +kernel
theorem test_retraining : (after (.retrainWindowTimeout 3000000) (st retraining)).dev.fb (r0 .cpcMode) F.cpcMode.FAR_LOW = true := by decide +kernel
def triggered : Dev := { base with cue := { trig := [(1, 90000)] } }
theorem wit_period : tget triggered.cue.trig 1 = some 90000 ∧ triggered.on 155 = true := by decide +kernel
theorem test_period : (after (.periodStart 0 0) (st triggered)).dev.rn (r0 .pbuPeriodAt) = 90000 := by decide +kernel
def missed : Dev := { base with pbu := { triggered := true } }
theorem wit_missed : missed.on 155 = true ∧ missed.on 156 = true ∧ missed.pbu.triggered = true ∧ tget missed.cue.trig 1 = none ∧
    missed.dueAfter (missed.rn (r0 .pbuPeriodAt)) (if missed.pbu.selfAt = 0 then 2 * missed.periodLen else missed.periodLen) ≤ (st missed).now 100000000 := by decide +kernel
theorem wit_renewal : base.pbu.calRun = none ∧ base.pbu.late = [] ∧ base.fab.basins = [] ∧ base.stew.settings = [] := by decide +kernel

/-! ## Objects -/

/-- Object 3 of 4,096 bytes, pinned in T1 by context 0, and object 4 of home T2 with a dirty copy in T1. -/
def obj1 : Obj := { tag := 1, kind := 1, size := 4096, home := 1, creator := 0, copies := [(1, ⟨1, 0x810000000, 0, 0, 0⟩)], pins := [(1, 0)] }
def obj2 : Obj := { tag := 1, kind := 1, size := 4096, home := 2, creator := 0, dirty := true, copies := [(1, ⟨1, 0x820000000, 0, 0, 0⟩), (2, ⟨2, 0x1010000000, 0, 0, 0⟩)] }
def stored : Dev := { base with slu := { objs := [(3, obj1), (4, obj2)] } }
/-- Object 3 at home in T2 alone, with no needs. -/
def low : Dev := { base with slu := { objs := [(3, { obj2 with dirty := false, copies := [(2, ⟨2, 0x1010000000, 0, 0, 0⟩)] })] } }
def create0 (kind size : Nat) : Req := rq 0x0301 0 0 (words [kind + 1 * 16, 0, size, 0])
def cellCreate0 : Req := rq 0x0301 0 0 (words [2 + 15 * 64, 1, 1 + 1 * 2 ^ 16])
def pool0 : Req := rq 0x0301 0 0 (words [3, 8192, 4, 4])
def delete0 (id : Nat) : Req := rq 0x0301 1 0 (words [1, id])
def place0 (code tier : Nat) : Req := rq code 0 0 (words [3 + 2 ^ 16, tier])
def unpin0 : Req := rq 0x0303 1 0 (words [3 + 2 ^ 16, 1])
def evict0 (id : Nat) : Req := rq 0x0304 0 0 (words [id + 2 ^ 16, 1])
theorem wit_create : passes base (create0 1 128) 0x0301 Dev.objCreateCheck = true ∧ (create0 1 128).flag 0 = false ∧ (create0 1 128).kind4 < 2 ∧ (create0 1 128).w32 4 = 0 := by decide +kernel
theorem test_create : (after (.objCreate 0 0 5) (st (withReq base (create0 1 128)))).dev.slu.objs.map (fun e => (e.2.size, e.2.home)) = [(128, 1)] := by decide +kernel
theorem wit_create_cell : passes base cellCreate0 0x0301 Dev.objCreateCellCheck = true ∧ cellCreate0.kind4 = 2 := by decide +kernel
theorem test_create_cell : (after (.objCreateCell 0 0 5) (st (withReq base cellCreate0))).dev.cells.map (fun e => (e.2.count, e.2.target)) = [(1, 1)] := by decide +kernel
theorem wit_create_pool : passes base pool0 0x0301 Dev.objCreateKvPoolCheck = true ∧ pool0.kind4 = 3 := by decide +kernel
def unpinned : Dev := { base with slu := { objs := [(3, { obj1 with pins := [] })] } }
theorem wit_delete : passes unpinned (delete0 (3 + 2 ^ 16)) 0x0301 Dev.objDeleteCheck = true ∧ (delete0 (3 + 2 ^ 16)).flag 0 = true ∧ (delete0 (3 + 2 ^ 16)).kind4 < 4 := by decide +kernel
theorem test_delete : (after (.objDelete 0 0 5) (st (withReq unpinned (delete0 (3 + 2 ^ 16))))).dev.slu.objs = [] := by decide +kernel
theorem wit_place : passes stored (place0 0x0302 1) 0x0302 Dev.objPlaceCheck = true ∧ stored.obj? (3 + 2 ^ 16) = some obj1 ∧ (obj1.copy 1).isSome = true ∧ (withReq stored (place0 0x0302 1)).evicting obj1 1 = false := by
  decide +kernel
theorem wit_pin : passes stored (place0 0x0303 1) 0x0303 Dev.objPinCheck = true ∧ (place0 0x0303 1).flag 0 = false := by decide +kernel
theorem wit_place_move : passes low (place0 0x0302 1) 0x0302 Dev.objPlaceCheck = true ∧ (low.obj? (3 + 2 ^ 16)).map (fun o => (o.copy 1, o.lock, o.queue, (o.below 1).isSome, (low.copyPlace 0 1 o.size).isSome)) = some (none, none, [], true, true) := by
  decide +kernel
theorem wit_engine_room : engineRoom (withReq low (place0 0x0302 1)) := ⟨0, by decide, by decide +kernel⟩
theorem test_place_move : (after (.objPlace 0 0 5) (st (withReq low (place0 0x0302 1)))).dev.slu.reqs.map (fun e => e.2.parts.length) = [1] := by decide +kernel
theorem wit_unpin : passes stored unpin0 0x0303 Dev.objPinReleaseCheck = true ∧ unpin0.flag 0 = true := by decide +kernel
theorem test_unpin : (after (.objPinRelease 0 0 5) (st (withReq stored unpin0))).dev.slu.objs.map (fun e => e.2.pins) = [[], []] := by decide +kernel
theorem wit_evict : passes stored (evict0 3) 0x0304 Dev.objEvictCheck = true ∧ stored.obj? (3 + 2 ^ 16) = some obj1 ∧ obj1.lock = none ∧ obj1.queue = [] ∧ (evict0 3).tier = obj1.home := by decide +kernel
theorem wit_evict_dirty : passes stored (evict0 4) 0x0304 Dev.objEvictCheck = true ∧ stored.obj? (4 + 2 ^ 16) = some obj2 ∧ (evict0 4).tier ≠ obj2.home ∧ obj2.pinsIn 1 = [] ∧
    (obj2.copy 1).isSome = true ∧ obj2.dirty = true ∧ obj2.highest = 1 ∧ obj2.afterEvict 1 0 false = [] ∧ (obj2.below 1).isSome = true ∧ (stored.copyPlace 0 2 4096).isSome = true := by decide +kernel
/-- A write-back that failed is tried again by an OBJ_EVICT of the object that names its home tier (R182). -/
def stuck0 : Obj := { obj2 with stuck := true }
theorem wit_evict_stuck : (let d := { base with slu := { objs := [(4, stuck0)] } }
    let r := rq 0x0304 0 0 (words [4 + 2 ^ 16, 2])
    passes d r 0x0304 Dev.objEvictCheck = true ∧ d.obj? (4 + 2 ^ 16) = some stuck0 ∧ stuck0.lock = none ∧ stuck0.queue = [] ∧ r.tier = stuck0.home ∧ stuck0.highest < stuck0.home ∧ stuck0.pinsIn stuck0.highest = [] ∧
    stuck0.needsIn stuck0.highest = [] ∧ stuck0.dirty = true ∧ (stuck0.below stuck0.highest).isSome = true ∧ (d.copyPlace 0 2 stuck0.size).isSome = true) := by decide +kernel
theorem test_evict_clean : (let d := { base with slu := { objs := [(4, { obj2 with dirty := false })] } }
    (after (.objEvict 0 0 5) (st (withReq d (evict0 4)))).dev.slu.objs.map (fun e => e.2.copies.map (·.1))) = [[2]] := by decide +kernel

/-! ## The sluice -/

def desc0 (op : Nat) : Desc :=
  { op := op, srcTier := 1, dstTier := 2, cls := 2, ctx := 0, staged := false, entryDst := false, entrySrc := false, srcAddr := 0x830000000, dstAddr := 0x1020000000, count := 2 }
def part0 (op : Nat) (state : PartState) (startAt : Nat) : Part := { index := 0, engine := 11, desc := desc0 op, key := ⟨5, 0, 0⟩, state := state, startAt := startAt }
def sluReq0 (p : Part) : SluReq := { purpose := .list 9 0, ctx := 0, cls := 2, key := ⟨5, 0, 0⟩, parts := [p] }
def sluiced (x : SluReq) : Dev := { base with slu := { reqs := [(7, x)] } }
theorem wit_start : (let p := part0 1 .queued 0
    let d := sluiced (sluReq0 p)
    d.sluiceOn 11 = true ∧ d.runningPart 11 = none ∧ tget d.slu.reqs 7 = some (sluReq0 p) ∧ p ∈ (sluReq0 p).parts ∧ p.state = .queued ∧ thas d.slu.lastStart 11 = false ∧
    d.gated (d.partPayer p) 7 = false ∧ d.partsOn 11 .queued = [(7, p)] ∧ d.partsOn 11 .held = [] ∧ d.partsOn 11 .parked = [] ∧ p.desc.op ≠ 0) := by decide +kernel
theorem wit_none_waits : noneWaits (sluiced (sluReq0 (part0 1 .queued 0))) 11 := by
  have h : (sluiced (sluReq0 (part0 1 .queued 0))).partsOn 11 .held = [] := by decide +kernel
  unfold noneWaits; rw [h]; intro e he; cases he
theorem wit_start_pack : (let p := part0 0 .queued 0
    let d := sluiced (sluReq0 p)
    d.partsOn 11 .queued = [(7, p)] ∧ p.desc.op = 0 ∧ p.desc.entrySrc = false ∧ ((sluReq0 p).parts.all fun q => q.startAt == 0) = true ∧ packOk (d.packOf p.desc) = false ∧ (sluReq0 p).making = none) := by decide +kernel
theorem test_start_pack : (after (.descriptorStart 0 11) (st (sluiced (sluReq0 (part0 0 .queued 0))))).dev.slu.reqs.map (fun e => e.2.status) = [some 0x0032] := by decide +kernel
theorem wit_land : (let p := part0 1 .running 5
    let d := sluiced (sluReq0 p)
    d.sluiceOn 11 = true ∧ d.runningPart 11 = some (7, p) ∧ d.canLand 7 p = true ∧ ((d.landNotes ⟨1, 0, 0, 0⟩).issueBytes ((st d).now 0) ((d.landNotes ⟨1, 0, 0, 0⟩).partPayer p) ((d.landNotes ⟨1, 0, 0, 0⟩).resources p) (128 / 65536 + 2) (128 - p.prog)).1 = 0 ∧
    (sluReq0 p).wait = none ∧ (sluReq0 p).stall = none ∧ (sluReq0 p).spill = 0 ∧ d.partsOn 11 .parked = [] ∧ p.pos + landUnits d 7 p 1 < p.desc.count ∧ p.area = none ∧
    d.touched p.desc.dstTier (p.desc.dstAddr + 64 * (p.desc.first + p.pos)) 64 = []) := by decide +kernel
theorem test_land : (let d := sluiced (sluReq0 (part0 1 .running 5))
    ((after (.tileLand 0 11 ⟨2, 0, 0, 0⟩) (st { d with mem := [(0x830000000 + 65, 9)] })).dev.mem.get (0x1020000000 + 65))) = 9 := by decide +kernel
def ended : SluReq := { sluReq0 (part0 1 .ended 5) with purpose := .place 0 5 0 true, stage := some (⟨1, 0x840000000, 0, 0, 0⟩, 4096), making := some (3, 1) }
def committing : Dev := { withReq low (place0 0x0302 1) with slu := { low.slu with reqs := [(7, ended)] } }
theorem wit_commit : tget committing.slu.reqs 7 = some ended ∧ ended.allEnded = true ∧ ended.failMask = 0 ∧ ended.committed = false ∧ (ended.parts.map Part.area = [none]) ∧ (tget committing.slu.objs 3).map Obj.queue = some [] ∧
    (committing.req? 0 5).isSome = true := by decide +kernel
theorem test_commit : (after (.moveCommit 0 7) (st committing)).dev.slu.objs.map (fun e => e.2.pins) = [[(1, 0)]] := by decide +kernel
/-- A staged part of a list's request, ended, whose bytes lie in an area of T1. -/
def areaPart : Part := { part0 1 .ended 5 with desc := { desc0 1 with staged := true }, area := some (flat 1 0x870000000, 128) }
def areaReq : SluReq := sluReq0 areaPart
theorem wit_area_commit : areaReq.purpose = .list 9 0 ∧ areaReq.stage = none ∧ areaReq.making = none ∧ areaPart.state = .ended ∧ areaReq.nparts = 1 ∧ areaReq.failMask = 0 ∧ areaReq.status = none ∧
    areaReq.committed = false ∧ areaReq.wait = none ∧ areaReq.stall = none ∧ areaReq.spill = 0 ∧
    (sluiced areaReq).touched 2 (0x1020000000 + (areaPart.desc.span (Pack.parse ((sluiced areaReq).packOf areaPart.desc))).1) 128 = [] := by decide +kernel
theorem test_area_commit : (after (.moveCommit 0 7) (st { sluiced areaReq with mem := [(0x870000000 + 65, 9)] })).dev.mem.get (0x1020000000 + 65) = 9 := by decide +kernel
def page0 : KvPage := ⟨2, 1, 0, 32, 0, 0, 0, 1, 0, none, 0, 0, 0, 0, 3, false⟩
def swapping : Dev := { base with slu := { reqs := [(7, { sluReq0 (part0 1 .ended 5) with purpose := .kv 0 .swapOut [(9, 4)] })] }, kv := { pages := [(9, page0)] } }
theorem wit_swap_commit : tget swapping.kv.pages 9 = some page0 ∧ (9, 4) ∈ [((9 : Nat), (4 : Nat))] ∧ (∀ f, (9, f) ∈ [((9 : Nat), (4 : Nat))] → f = 4) := by
  refine ⟨by decide +kernel, by decide, fun f h => ?_⟩
  simpa using h
theorem test_swap_commit : (after (.moveCommit 0 7) (st swapping)).dev.kv.pages.map (fun e => (e.2.tier, e.2.frame)) = [(2, 4)] := by decide +kernel
def listDone : SluReq := { sluReq0 (part0 1 .ended 5) with crec := 0x850000000, reqId := 12, bytes := 128 }
theorem wit_complete_list : listDone.allEnded = true ∧ listDone.failMask = 0 ∧ listDone.status = none ∧ listDone.making = none ∧ listDone.stage = none ∧ listDone.cellOp = 0 ∧ listDone.crec ≠ 0 ∧
    listDone.closed = false ∧ listDone.staged = false ∧ (sluiced listDone).cnl.coords = [] := by decide +kernel
theorem test_complete_list : (after (.requestComplete 0 7) (st (sluiced listDone))).dev.mem.le (0x850000000 + 24) 8 = 128 := by decide +kernel
def failed : SluReq := { ended with failMask := 1 }
def failing : Dev := { withReq low (place0 0x0302 1) with slu := { low.slu with reqs := [(7, failed)] } }
theorem wit_complete_failed : failed.allEnded = true ∧ failed.failMask ≠ 0 ∧ failed.status = none ∧ failed.cellOp = 0 ∧ (failed.parts.all fun p => !p.desc.entryDst) = true ∧ failed.closed = false ∧ failing.cnl.coords = [] := by decide +kernel
theorem test_complete_failed : (after (.requestComplete 0 7) (st failing)).dev.stew.cpls.map (fun c => (c.status, c.detail)) = [(0x0020, 1)] := by decide +kernel
theorem test_part_fail : (after (.partFail 0 11 .flash) (st (sluiced (sluReq0 (part0 1 .running 5))))).dev.fb (r1 .sluEngStat 11) F.sluEngStat.FAILED = true := by decide +kernel
theorem wit_retry : (let d := sluiced (sluReq0 (part0 1 .running 5))
    (part0 1 .running 5).retried = false ∧ lowest 12 (fun k => k != 11 && decide ((d.partsOn k .queued).length < 64)) = some 0 ∧ (part0 1 .running 5).startAt ≤ 6 ∧ 6 ≤ (st d).now 200000 ∧
    100000 ≤ d.activeSince (part0 1 .running 5) 6 ((st d).now 200000) ∧ (sluReq0 (part0 1 .running 5)).stage = none ∧ (part0 1 .running 5).area = none) := by decide +kernel
theorem test_retry : (after (.partTimeout 200000 11 6) (st (sluiced (sluReq0 (part0 1 .running 5))))).dev.fb (r1 .sluEngStat 0) F.sluEngStat.RETRIED = true := by decide +kernel
theorem wit_scrub : base.on 158 = true ∧ base.on 159 = true ∧ base.windowOpen = false := by decide +kernel

/-! ## Sequences -/

def pooled : Dev := { stored with kv := { pool := some ⟨10 + 2 ^ 16, 11 + 2 ^ 16, 8192, 4096, 4, 0x860000000, 0x1030000000⟩ } }
def join0 : Req := rq 0x0401 0 0 (words [0 + 1 * 2 ^ 16, 1 + 3 * 2 ^ 8 + 64 * 2 ^ 16, 0, 0, 0, 0, 0, 0])
def seq0 : KvSeq := { ctx := 0, mbx := 0, seq := 4, key := {}, domain := 0, layers := 1, groups := 1, fmt := 3, headDim := 64, prompt := [], fork := none, state := .atRest }
def leave0 : Req := rq 0x0402 0 0 (words [4095])
def step0 : Req := rq 0x0403 0 0 (words [3 + 2 ^ 16, 1, 4095 + 1 * 2 ^ 16])
def running0 : Dev := { pooled with kv := { pooled.kv with seqs := [(4095, seq0)] } }
theorem wit_join : passes pooled join0 0x0401 Dev.seqJoinCheck = true ∧ lowest 4096 (fun i => !thas pooled.kv.seqs i) = some 0 := by decide +kernel
theorem test_join : (after (.seqJoin 0 0 5) (st (withReq pooled join0))).dev.kv.seqs.map (fun e => (e.1, e.2.headDim)) = [(0, 64)] := by decide +kernel
theorem wit_leave : passes running0 leave0 0x0402 Dev.seqLeaveCheck = true := by decide +kernel
theorem wit_step : passes running0 step0 0x0403 Dev.seqStepCheck = true := by decide +kernel
theorem test_step : (after (.seqStep 0 0 5) (st (withReq running0 step0))).dev.kv.steps.map KvStep.entries = [[(4095, 1)]] := by decide +kernel
def stepping : Dev :=
  { (withReq running0 step0).sf (r0 .kvCtrl) F.kvCtrl.EN 1 with kv := { running0.kv with steps := [{ ctx := 0, mbx := 0, seq := 5, key := {}, result := 3 + 2 ^ 16, entries := [(4095, 1)] }] } }
theorem wit_boundary : stepping.on 154 = true ∧ stepping.fb (r0 .kvCtrl) F.kvCtrl.EN = true ∧ stepping.attnOf 0 = [] ∧ seq0.state = .atRest ∧ seq0.leaving = none ∧ seq0.faulted = false ∧
    (stepping.commitStep ((st stepping).now 0) 0).growthAll [(4095, 1)] ≤ (stepping.commitStep ((st stepping).now 0) 0).freeFrames 1 ∧ (stepping.req? 0 5).isSome = true := by decide +kernel
theorem test_boundary : (after (.stepBoundary 0) (st stepping)).dev.kv.seqs.map (fun e => e.2.len) = [1] := by decide +kernel

end Sys2Proof.Tests
end

