-- ==== Sys2Proof/Tests/Cascades.lean ====
section
/-! SUPPORT. Witnesses for the statements about cascades, cameras and fusion. -/

namespace Sys2Proof.Tests

open Sys2Proof Sys2Proof.Machine

set_option Elab.async false

/-! ## Cascades -/

/-- An entry of two slots of 256 bytes from a base in 64-byte lines. -/
def imgEntry (base : Nat) : Nat := 2 * 2 ^ 21 + base * 2 ^ 50 + 4 * 2 ^ 36
def imgStage : Nat := stageWord 2 6 63 + 2 ^ 96
/-- An image of class 2 with one basin, 255, of one stage, and a ceiling record; its CRC field as given. -/
def imageBytes (crc : Nat) : List Byte :=
  words ([2 * 256, 0, 128, 1] ++ List.replicate 12 0 ++ [1296, 1] ++ List.replicate 13 0 ++ [crc]) ++
  (leBytes 8 255 ++ leBytes 8 (2 * 2 ^ 48) ++ leBytes 16 imgStage ++ List.replicate 112 0 ++ leBytes 16 (imgEntry 0) ++ leBytes 16 (imgEntry 8) ++ List.replicate 992 0) ++
  List.replicate 112 0
def imageMem : Memory := Memory.write [] 0x810000000 (imageBytes (crc32c (imageBytes 0)))
def imaged : Dev := { intact base with mem := imageMem, slu := { objs := [(3, { obj1 with size := 1408 })] } }
def load0 : Req := rq 0x0201 0 0 (words [3 + 2 ^ 16, 0, 0, 0])
set_option maxRecDepth 20000 in
theorem wit_cascade_load : passes imaged load0 0x0201 Dev.cascadeLoadCheck = true := by decide +kernel
def imgBasin0 : ImgBasin := { lbasin := 255, header := 2 * 2 ^ 48 + 2 ^ 44, stages := [imgStage], entries := [imgEntry 0, imgEntry 8] }
def casc0 : Cascade := { ctx := 0, basins := [imgBasin0], ceil := [], cells := [], packs := [], windows := [], spills := [], lists := [], attn := [], split := ⟨0, 0, 1, [0, 0, 0, 0], 0⟩, taken := [] }
def cascaded (c : Cascade) (on : List Nat) : Dev :=
  { (intact base).sf (r1 .pbuFabAvail 3) F.pbuFabAvail.AVAIL (2 ^ 64 - 1) with pow := { base.pow with on := on }, fab := { base.fab with cascades := [(1, c)] } }
def bind0 : Req := rq 0x0202 0 0 (words [1])
def runCmd0 (iter : Nat) : Req := rq 0x0203 0 0 (words [1, iter, 0, 0])
def unload0 : Req := rq 0x0204 0 0 (words [1])
theorem wit_bind_on : passes (cascaded casc0 base.pow.on) bind0 0x0202 (fun d => d.cascadeBindCheck 100000) = true ∧ casc0.bound = false ∧
    (cascaded casc0 base.pow.on).coordinates casc0 = false ∧ (cascaded casc0 base.pow.on).ctxClass 0 ≠ 0 ∧ (cascaded casc0 base.pow.on).usable 100000 casc0 = true := by decide +kernel
theorem test_bind_on : (after (.cascadeBind 0 0 5) (st (withReq (cascaded casc0 base.pow.on) bind0))).dev.fab.cascades.map (fun e => e.2.bound) = [true] := by decide +kernel
theorem wit_bind_off : passes (cascaded casc0 (base.pow.on.drop 136)) bind0 0x0202 (fun d => d.cascadeBindCheck 100000) = true ∧ 255 ∈ casc0.ls ∧
    (cascaded casc0 (base.pow.on.drop 136)).on (pairOf ((cascaded casc0 (base.pow.on.drop 136)).physical 255)) = false ∧ casc0.staged = false := by decide +kernel
def staged0 : Cascade := { casc0 with staged := true, binding := some (0, 5) }
theorem wit_pair_ready : (let d := withReq (cascaded staged0 base.pow.on) { bind0 with decided := true }
    d.on 127 = true ∧ tgetD d.pow.pairs 127 0 ≤ (st d).now 0 ∧ d.fab.cascades = [(1, staged0)] ∧ d.usable ((st d).now 0) staged0 = true) := by decide +kernel
theorem test_pair_ready : (after (.basinPairReady 0 127) (st (withReq (cascaded staged0 base.pow.on) { bind0 with decided := true }))).dev.stew.cpls.map Cpl.status = [0] := by decide +kernel
def bound0 : Cascade := { casc0 with bound := true }
theorem wit_bound : passes (cascaded bound0 base.pow.on) bind0 0x0202 (fun d => d.cascadeBindCheck 100000) = true := by decide +kernel
theorem wit_run : passes (cascaded bound0 base.pow.on) (runCmd0 2) 0x0203 Dev.cascadeRunCheck = true ∧ (runCmd0 2).w32 4 ≠ 0 ∧ bound0.openLists = [] := by decide +kernel
theorem wit_arm_run : passes (cascaded bound0 base.pow.on) (runCmd0 0) 0x0203 Dev.cascadeRunCheck = true ∧ (runCmd0 0).w32 4 = 0 := by decide +kernel
theorem test_run : (after (.cascadeRun 0 0 5) (st (withReq (cascaded bound0 base.pow.on) (runCmd0 0)))).dev.fab.cascades.map (fun e => e.2.armed) = [true] := by decide +kernel
theorem wit_unload : passes (cascaded bound0 base.pow.on) unload0 0x0204 Dev.cascadeUnloadCheck = true ∧ (cascaded bound0 base.pow.on).coordinates bound0 = false := by decide +kernel
theorem test_unload : (after (.cascadeUnload 0 0 5) (st (withReq (cascaded bound0 base.pow.on) unload0))).dev.fab.cascades = [] := by decide +kernel

/-! ## Cameras -/

/-- Camera port 7 as its registers declare it: 64 × 64 of RAW8, mono, FP16, two buffers. -/
def lens (bufs : Dev → Dev) : Dev :=
  bufs <| ((((((((((base.sf (r1 .camPortSize 7) F.camPortSize.IN_W 64).sf (r1 .camPortSize 7) F.camPortSize.IN_H 64).sf (r1 .camPortSize 7) F.camPortSize.OUT_W 64).sf (r1 .camPortSize 7)
    F.camPortSize.OUT_H 64).sf (r1 .camPortTiming 7) F.camPortTiming.PERIOD_US 10000).sf (r1 .camPortRec 7) F.camPortRec.SIZE 15).sf (r1 .camPortRec 7) F.camPortRec.ADDR 0x880000000).sf
    (r1 .camPortBufbase 7) F.camPortBufbase.BASE 0x881000000).sf (r1 .camPortBufbase 7) F.camPortBufbase.STRIDE 4).wn (r0 .camLimit) 995328000)
/-- CAM_PORT_CFG with EN and the geometry of the lens. -/
def camCfg : Nat :=
  1 * 2 ^ F.camPortCfg.EN.lo + 0x2A * 2 ^ F.camPortCfg.DTYPE.lo + 4 * 2 ^ F.camPortCfg.CFA.lo + 1 * 2 ^ F.camPortCfg.NBUF.lo + 1 * 2 ^ F.camPortCfg.OUT_FMT.lo + 1 * 2 ^ F.camPortCfg.EXP_SRC.lo
def enabled : Dev := (lens id).wn (r1 .camPortCfg 7) camCfg
theorem wit_camera_enable : hits (st (lens id)) 0 2 (r1 .camPortCfg 7) .write = true ∧ enabled.fb (r1 .camPortCfg 7) F.camPortCfg.EN = true ∧ enabled.camRefusal false 2 7 = 0 := by decide +kernel
theorem test_camera_enable : (after (.cameraEnable 0 2 7 camCfg) (st (lens id))).dev.fb (r1 .camPortCfg 7) F.camPortCfg.EN = true := by decide +kernel
theorem wit_camera_refused : (base.wn (r1 .camPortCfg 7) camCfg).camRefusal false 2 7 = 1 := by decide +kernel
theorem test_camera_refused : (after (.cameraEnable 0 2 7 camCfg) (st base)).dev.f (r1 .camPortStat 7) F.camPortStat.ERR = 1 := by decide +kernel
theorem wit_strobe : enabled.on (160 + 7 / 4) = true ∧ enabled.fb (r1 .camPortCfg 7) F.camPortCfg.EN = true ∧ enabled.f (r1 .camPortCfg 7) F.camPortCfg.EXP_SRC = 1 ∧ (enabled.camPort 7).frame = none ∧ enabled.cue.out = [] ∧ enabled.fus.subs = [] := by decide +kernel
theorem test_strobe : ((after (.camStrobeEdge 0 7 99990) (st enabled)).dev.camPort 7).exps = [⟨99990, none⟩] := by decide +kernel
theorem test_frame_start : (after (.frameStart 0 7) (st enabled)).dev.f (r1 .camPortBuf 7) F.camPortBuf.FILLING = 1 := by decide +kernel
def crowded : Dev := enabled.sf (r1 .camPortBuf 7) F.camPortBuf.READY 3
theorem wit_dropped : lowest (crowded.f (r1 .camPortCfg 7) F.camPortCfg.NBUF + 1) (fun b => !((crowded.f (r1 .camPortBuf 7) F.camPortBuf.FILLING).testBit b) && !((crowded.f (r1 .camPortBuf 7) F.camPortBuf.READY).testBit b)) = none := by
  decide +kernel
theorem test_dropped : (after (.frameStart 0 7) (st crowded)).dev.f (r1 .camPortStat 7) F.camPortStat.DROPPED = 1 := by decide +kernel
def frame0 (n : Nat) : CamFrame := { buf := 1, rows := List.replicate n (true, []), stamp := some 99990 }
def receiving (n : Nat) : Dev := { enabled with cam := [(7, { frame := some (frame0 n) })] }
theorem wit_line : ((receiving 1).camPort 7).frame = some (frame0 1) ∧ (frame0 1).dropped = false ∧ (frame0 1).stamp.isSome = true ∧ (frame0 1).rows.length < ((receiving 1).camGeom 7).inH ∧ ((receiving 64).camGeom 7).inH ≤ (frame0 64).rows.length := by
  decide +kernel
theorem test_line : ((after (.lineReceive 0 7 0x2A 0 99995 1 []) (st (receiving 1))).dev.camPort 7).frame.map (fun f => (f.bad, f.rows.length)) = some (1, 2) := by decide +kernel
theorem wit_frame_end : (frame0 64).buf < 8 ∧ (receiving 64).fb (r1 .camPortBuf 7) F.camPortBuf.CELL_EN = false := by decide +kernel
theorem wit_buffer_release : hits (st crowded) 0 2 (r1 .camPortBuf 7) .write = true := by decide +kernel
theorem test_buffer_release : (after (.bufferRelease 0 2 7 (1 * 2 ^ 32)) (st crowded)).dev.f (r1 .camPortBuf 7) F.camPortBuf.READY = 2 := by decide +kernel

/-! ## Fusion -/

def stream0 (kind source : Nat) : FusStream := ⟨0, kind, 0, true, 2, 1, 127, 0, source, 64000000, 255, 0, 0x3F800000, 0x40000000⟩
def conf0 (kind source : Nat) : FusConf := { streams := [stream0 kind source], groups := [], ports := [], estNs := 50000, program := [] }
def fusing (kind source : Nat) : Dev := { base.sf (r0 .fusCtrl) F.fusCtrl.EN 1 with fus := { conf := some (conf0 kind source) } }
theorem wit_sample : (fusing 3 1).on 149 = true ∧ (fusing 3 1).fus.newestTov = none ∧ tget (fusing 3 1).cue.trig 2 = none ∧ ((fusing 3 1).streams.filter fun y => y.kind == 3 && y.source == 1) = [stream0 3 1] := by decide +kernel
/-- 1.5 times SCALE 2 is 3. -/
theorem test_sample : (tgetD (after (.sampleArrive 0 3 1 99000 1 false 0 [0x3FC00000]) (st (fusing 3 1))).dev.fus.samples 127 []).map FusSample.vals = [[0x40400000]] := by decide +kernel
def posting : Dev :=
  owning 0x0C 15 ((((((fusing 4 (15 * 2 ^ 28)).sf (r1 .fusPortRing 15) F.fusPortRing.VALID 1).sf (r1 .fusPortRing 15) F.fusPortRing.ENTRIES 9).sf (r1 .fusPortRing 15) F.fusPortRing.ADDR 0x882000000)).sf
    (r1 .pmapMbx 0) F.pmapMbx.INIT 4)
theorem wit_post : hits (st posting) 0 2 (r1 .fusPortPost 15) .write = true ∧ posting.ownsPort 2 15 = true ∧ posting.fb (r1 .fusPortRing 15) F.fusPortRing.VALID = true ∧
    (9 % 256 ≤ posting.f (r1 .fusPortRing 15) F.fusPortRing.ENTRIES) ∧ (posting.streams.filter fun y => y.kind == 4 && y.source == 15 * 2 ^ 28) = [stream0 4 (15 * 2 ^ 28)] := by decide +kernel
theorem test_post : ((tgetD (after (.samplePost 0 2 15 9) (st posting)).dev.fus.samples 127 []).map FusSample.stamp) = [0] := by decide +kernel
def cutting : Dev := { fusing 3 1 with cue := { trig := [(2, 50000)] } }
theorem wit_cutoff : tget cutting.cue.trig 2 = some 50000 ∧ cutting.fusGuard < cutting.elapsed 50000 ((st cutting).now 0) ∧ cutting.fus.pend = none ∧ cutting.fusEn = true ∧ cutting.fus.subs = [] := by decide +kernel
theorem test_cutoff : (after (.cutoff 0) (st cutting)).dev.fus.run.map FusRun.tov = some 50000 := by decide +kernel
def estimating : Dev := { fusing 3 1 with fus := { conf := some (conf0 3 1), run := some ⟨90000, 0, 0, [], 2⟩ } }
theorem wit_publish : estimating.fusEn = true ∧ estimating.fus.subs = [] ∧ estimating.elapsed 90000 ((st estimating).now 0) ≤ 0 + 50000 + 500 ∧ 0 + 50000 ≤ estimating.elapsed 90000 ((st estimating).now 140000) := by decide +kernel
theorem test_publish : (after (.fusedRecordPublish 0) (st estimating)).dev.fus.hist.map FusRecd.tov = [90000] := by decide +kernel
theorem test_timeout : (after (.estimatorTimeout 140000) (st estimating)).dev.fb (r0 .fusStat) F.fusStat.MISSED = true := by decide +kernel
def replaying : Dev := { fusing 3 1 with fus := { conf := some (conf0 3 1), replay := some 80000, hist := [⟨80000, 0, 0, 0, conf0 3 1, [], 2, [], [], []⟩] } }
theorem wit_amend : replaying.fusEn = true ∧ replaying.fus.subs = [] ∧ replaying.fus.replay = some 80000 ∧ replaying.fus.run = none ∧ (replaying.fus.hist.find? fun r => decide (80000 ≤ r.tov)).isSome = true := by decide +kernel
theorem test_amend : (after (.amendment 0) (st replaying)).dev.fus.hist.map FusRecd.rev = [1] := by decide +kernel
def rising : Dev := { fusing 3 1 with fus := { conf := some { conf0 3 1 with streams := [] }, ladder := 4, below := some 0, ego := 0 } }
theorem wit_rise : rising.fusEn = true ∧ rising.condition.1 < rising.fus.ladder ∧ 500000000 ≤ rising.elapsed 0 ((st rising).now 600000000) := by decide +kernel
theorem test_rise : (after (.ladderRise 600000000) (st rising)).dev.fus.ladder = 3 := by decide +kernel
def fuseCfg0 : Req := rq 0x0801 0 0 (words [0, 1])
def fuseSub0 : Req := rq 0x0802 0 0 (words [1 + 1 * 2 ^ 8, 3 + 2 ^ 16, 0])
theorem wit_fuse_config : passes base fuseCfg0 0x0801 Dev.fuseConfigCheck = true := by decide +kernel
def ringed : Dev := { base with slu := { objs := [(3, { obj1 with size := 10496 })] } }
theorem wit_fuse_subscribe : passes ringed fuseSub0 0x0802 Dev.fuseSubscribeCheck = true ∧ fuseSub0.flag 0 = false := by decide +kernel
theorem test_fuse_subscribe : (after (.fuseSubscribe 0 0 5) (st (withReq ringed fuseSub0))).dev.fus.subs.map (fun e => (e.1, e.2.every)) = [(0, 1)] := by decide +kernel

end Sys2Proof.Tests
end

