-- ==== Sys2Proof/Tests/Engines.lean ====
section
/-! SUPPORT. Witnesses for the statements about the planner, the loop engines and laws. -/

namespace Sys2Proof.Tests

open Sys2Proof Sys2Proof.Machine

set_option Elab.async false

/-! ## Planner -/

def geom0 : Roadmap := { object := 3 + 2 ^ 16, nx := 16, ny := 16, nz := 1, resMm := 20, stepMs := 10, origin := [0, 0, 0], nnodes := 1, nedges := 1, edges := 64, lists := 128 }
/-- The planner enabled, with a roadmap loaded and object 3 of 65,536 bytes pinned. -/
def planning (p : PlanSt) : Dev := { base.sf (r0 .planCtrl) F.planCtrl.EN 1 with plan := { p with geom := some geom0 }, slu := { objs := [(3, { obj1 with size := 65536 })] } }
def write0 (publish : Bool) : GridWrite := ⟨0, 5, false, publish, 3 + 2 ^ 16, 0, 77, false⟩
def grid0 (flags : Nat) : Req := rq 0x0901 flags 0 (words [3 + 2 ^ 16, 0, 77, 0])
theorem wit_grid_done : (let d := withReq (planning { writes := [write0 true] }) (grid0 2)
    d.plan.writes = [write0 true] ∧ d.plan.geom = some geom0 ∧ d.planEn = true ∧ d.pins (1 - d.bank) = 0 ∧ d.gated 3 4 = false ∧ 4 * geom0.voxels ≤ tgetD d.plan.issued 0 0 + d.issuable 3 4 ∧ (d.req? 0 5).isSome = true) := by decide +kernel
theorem test_grid_done : (let d := withReq (planning { writes := [write0 true] }) (grid0 2)
    ((after (.gridWriteDone 0) (st d)).dev.bank, (after (.gridWriteDone 0) (st d)).dev.epoch)) = (1, 1) := by decide +kernel
def pinned : Dev := (planning { writes := [write0 true] }).sf (r0 .planEpoch) F.planEpoch.PINS1 1
theorem wit_grid_held : pinned.planEn = true ∧ pinned.pins (1 - pinned.bank) ≠ 0 := by decide +kernel
theorem test_grid_held : (after (.gridWriteDone 0) (st pinned)).dev.fb (r0 .planStat) F.planStat.WRITE_HELD = true := by decide +kernel
def wave0 : WaveRun := ⟨some (0, 5), 0, 0, [(1, 1, 0)], 1, 3 + 2 ^ 16, 9⟩
def waving : Dev := withReq (planning { wave := some wave0 }) (grid0 0)
theorem wit_wave_end : waving.plan.wave = some wave0 ∧ waving.plan.geom = some geom0 ∧ waving.planOn = true ∧ (waving.req? 0 5).isSome = true ∧ waving.cells = [] ∧ waving.gated 3 4 = false ∧
    2 * geom0.voxels ≤ tgetD waving.plan.issued 1 0 + waving.issuable 3 4 ∧ waving.plan.replan = none := by decide +kernel
def cfg0 : PlanCfg := { mbx := 0, seq := 5, ctx := 0, cands := 3 + 2 ^ 16, ring := 3 + 2 ^ 16, field := 0, goals := [], wave := false, slices := 0, cell := 131071, deadlineUs := 0, checkUs := 0, repeat_ := false, cue := 0 }
/-- A replan whose candidate flag is set before its wait's deadline; outside Whiteout, then at it. -/
def replanning (level : Nat) : Dev :=
  (let d := planning { replan := some { cfg := cfg0, fire := 90000 } }
   { d with cells := [(131071, cell 2 1 0 [])], waits := [(4, { owner := .candidate, deadline := 100000, guard := 0, src := 0x0304 })] }).sf (r0 .fusStat) F.fusStat.LEVEL level
theorem wit_batch : (replanning 0).waitAny .candidate = some (4, { owner := .candidate, deadline := 100000, guard := 0, src := 0x0304 }) ∧ tget (replanning 0).waits 4 = some { owner := .candidate, deadline := 100000, guard := 0, src := 0x0304 } ∧ (replanning 0).planOn = true ∧
    ((replanning 0).cellCount 131071).testBit 0 = true ∧ (tget (replanning 0).cells 131071).map Cell.flagKey = some none ∧ (90000 : Nat) ≤ 99000 ∧ 99000 ≤ (st (replanning 0)).now 0 ∧ (st (replanning 0)).now 0 ≤ 100000 + 0 ∧ (replanning 0).level ≠ 4 ∧ (replanning 4).level = 4 := by
  decide +kernel
theorem test_batch : (after (.checkBatchStart 0 99000) (st (replanning 0))).dev.plan.replan.map Replan.batch = some true := by decide +kernel
theorem test_batch_whiteout : (after (.checkBatchStart 0 99000) (st (replanning 4))).dev.plan.replan = none := by decide +kernel
def checking : Dev := { planning { replan := some { cfg := cfg0, fire := 90000, batch := true } } with waits := [(4, { owner := .replan, deadline := 100000, guard := 0, src := 0x0304 })] }.sf (r0 .fusStat) F.fusStat.LEVEL 0
theorem wit_pass : checking.plan.replan = some { cfg := cfg0, fire := 90000, batch := true } ∧ checking.epoch = 0 ∧ checking.level ≤ 0 ∧
    checking.waitOf .replan = some (4, { owner := .replan, deadline := 100000, guard := 0, src := 0x0304 }) ∧ (st checking).now 0 ≤ 100000 ∧ checking.gated 3 4 = false ∧ 100000 ≤ checking.issuable 3 4 := by decide +kernel
def sweep0 : SweepRun := ⟨0, 5, 0, 0, 0, 0, 3 + 2 ^ 16, 100, []⟩
def sweeping : Dev := withReq (planning { sweep := some sweep0 }) (grid0 0)
theorem wit_sweep : sweeping.plan.sweep = some sweep0 ∧ sweeping.planOn = true ∧ (sweeping.req? 0 5).isSome = true ∧ sweeping.gated 3 4 = false ∧
    ((List.range geom0.nedges).map fun e => sweeping.edgeBytes geom0 e).sum ≤ tgetD sweeping.plan.issued 3 0 + sweeping.issuable 3 4 := by decide +kernel
theorem wit_plan_grid : (let d := { planning {} with slu := { objs := [(3, { obj1 with size := 1024 })] } }
    passes d (grid0 2) 0x0901 Dev.planGridCheck = true) := by decide +kernel
theorem test_plan_grid : (let d := { planning {} with slu := { objs := [(3, { obj1 with size := 1024 })] } }
    (after (.planGrid 0 0 5) (st (withReq d (grid0 2)))).dev.plan.writes.map GridWrite.publish) = [true] := by decide +kernel
/-- A roadmap object of one edge: header, edge, one entry. -/
def roadBytes : List Byte :=
  words [0, 16 + 16 * 65536, 1 + 20 * 65536, 10, 0, 0, 0, 1, 1] ++ List.replicate 28 0 ++ words [2 ^ 29, 0, 1, 0] ++ List.replicate 48 0 ++ words [0]
def roaded : Dev := { planning {} with mem := Memory.write [] 0x810000000 roadBytes, slu := { objs := [(3, { obj1 with size := 192 })] } }
def roadmap0 : Req := rq 0x0902 0 0 (words [3 + 2 ^ 16, 0])
theorem wit_roadmap : passes roaded roadmap0 0x0902 Dev.planRoadmapCheck = true ∧ roadmap0.flags &&& 511 = 0 ∧ (withReq roaded roadmap0).planBusy = false := by decide +kernel
theorem test_roadmap : (after (.planRoadmap 0 0 5) (st (withReq roaded roadmap0))).dev.f (r0 .planGeom) F.planGeom.RES_MM = 20 := by decide +kernel
def edge0 (flags : Nat) : Req := rq 0x0902 flags 0 (words [0, 1, 262143])
theorem wit_edge : passes base (edge0 1) 0x0902 Dev.edgeCheck = true ∧ passes base (edge0 2) 0x0902 Dev.edgeCheck = true ∧ (edge0 1).flags &&& 511 = 1 ∧ (edge0 2).flags &&& 511 = 2 := by decide +kernel
theorem test_edge : (after (.edgeDisable 0 0 5) (st (withReq base (edge0 1)))).dev.plan.disabled = [(262143, 100000)] := by decide +kernel
/-- PLAN_RUN: candidates, ring and field in object 3, goals there, cell 131,071. -/
def plan0 (flags goals cell : Nat) : Req :=
  rq 0x0903 flags 0 (words [3 + 2 ^ 16, 3 + 2 ^ 16, 3 + 2 ^ 16, 3 + 2 ^ 16, cell + goals * 2 ^ 17, 1, 10, 0, 0, 0, 0, 63])
def flagged : Dev := { planning {} with cells := [(131071, { cell 2 0 0 [] with users := [0] })] }
theorem wit_plan_run : passes flagged (plan0 0 0 131071) 0x0903 Dev.planRunCheck = true ∧ flagged.stew.settings = [] := by decide +kernel
theorem test_plan_run : (after (.planRun 0 0 5) (st (withReq flagged (plan0 0 0 131071)))).dev.plan.replan.map Replan.fire = some 100000 := by decide +kernel
def cued : Dev := owning 9 63 ((flagged.sf (r1 .cueChCfg 63) F.cueChCfg.TRIG 0x17).sf (r1 .cueChPeriod 63) F.cueChPeriod.PERIOD 10000)
theorem wit_plan_repeat : passes cued (plan0 1 0 131071) 0x0903 Dev.planRepeatCheck = true ∧ (plan0 1 0 131071).flags &&& 511 = 1 := by decide +kernel
theorem wit_plan_sweep : passes flagged (plan0 2 0 131071) 0x0903 Dev.planSweepCheck = true ∧ (plan0 2 0 131071).flags &&& 511 = 2 := by decide +kernel
theorem test_plan_sweep : (after (.planSweep 0 0 5) (st (withReq flagged (plan0 2 0 131071)))).dev.pins 0 = 1 := by decide +kernel
theorem wit_plan_wave : passes flagged (plan0 4 1 131071) 0x0903 Dev.planWaveCheck = true ∧ (plan0 4 1 131071).flags &&& 511 = 4 := by decide +kernel
theorem wit_plan_stop : passes flagged (plan0 8 0 131071) 0x0903 Dev.planStopCheck = true ∧ (plan0 8 0 131071).flags &&& 511 = 8 := by decide +kernel

/-! ## Loop engines -/

/-- A law's descriptor: PERIOD 250,000 ns, DIV 1, one input, one torque output of joint 0 between −1 and 1. -/
def desc1 : List Byte := words [0, 250000] ++ List.replicate 104 0 ++ words [2 ^ 23, 0xBF800000, 0x3F800000, 0]
/-- Engine 7 enabled with law slot 63 loaded. -/
def engined (e : Engine) : Dev :=
  (((((base.sf (r1 .leEngCfg 7) F.leEngCfg.EN 1).sf (r1 .leEngCfg 7) F.leEngCfg.TX_OFF 100).sf (r1 .cueChCfg 20) F.cueChCfg.ARM 1).sf (r1 .cueChCfg 20) F.cueChCfg.TRIG 10).sf (r1 .cueChCfg 20)
    F.cueChCfg.PERIODIC 1).sf (r1 .cueChPeriod 20) F.cueChPeriod.PERIOD 250000
  |> fun d => { d with le := { eng := [(7, { e with slots := [(63, { desc := desc1 })] })] } }
def armed63 : ArmedLaw := ⟨63, 1, 0, [], [none], [none], 0, 0⟩
def ticking : Dev := { engined { armed := [armed63] } with cue := { trig := [(10, 90000)] } }
theorem wit_tick : tget ticking.cue.trig (3 + 7) = some 90000 ∧ ticking.engOn 7 = true ∧ 200 < ticking.elapsed 90000 ((st ticking).now 0) ∧ ticking.fb (r1 .leEngCfg 7) F.leEngCfg.EN = true ∧
    (ticking.target 25).halted = false ∧ (ticking.target 25).stepping = false ∧ ticking.stew.settings = [] ∧ ticking.isEarly 7 = false ∧ (ticking.eng 7).changes = [] ∧
    (ticking.eng 7).armed ≠ [] ∧ (ticking.lineAt 90000).2.2 = true ∧ (ticking.eng 7).holding = false := by decide +kernel
def lit : Dev := { ticking with fus := { lines := [(0, 0, 100, false)] } }
theorem wit_tick_run : (lit.lineAt 90000).2.2 = false ∧ (lit.eng 7).holdCmd = false ∧ lit.setStale 7 90000 ((lit.eng 7).setAt 90000) = false ∧ lit.anyUnfit 7 = false := by decide +kernel
def framing : Dev := engined { frames := [(99000, [1])] }
theorem wit_frames : framing.engOn 7 = true ∧ (framing.eng 7).frames = [(99000, [1])] ∧ 99000 ≤ (st framing).now 0 := by decide +kernel
def inject0 : Inject := { mbx := 0, seq := 5, slot := 63, output := false, index := 0, sig := 0, n := 0, m := 0, a := 0, f0 := 0, f1 := 0, t0 := 90000, len := 10000, cal := 0, calibrate := false, lfsr := 0, steps := 0, squall := 0 }
def injecting : Dev := withReq (engined { inject := some inject0 }) (grid0 0)
theorem wit_injection : (injecting.eng 7).inject = some inject0 ∧ inject0.t0 + inject0.len ≤ (st injecting).now 0 ∧ (injecting.req? 0 5).isSome = true := by decide +kernel
theorem test_injection : ((after (.injectionEnd 0 7) (st injecting)).dev.eng 7).inject = none := by decide +kernel
def capture0 : Capture := { mbx := 0, seq := 5, k := 1, dec := 1, object := 3 + 2 ^ 16, start := 0, codes := [], first := none, ticks := 0, rows := 0, data := [], holdAt := 0 }
def captured : Dev := (withReq (engined { capture := some capture0 }) (grid0 0)).sf (r1 .leEngCap 7) F.leEngCap.STATE 3
theorem wit_capture_end : (captured.eng 7).capture = some capture0 ∧ captured.f (r1 .leEngCap 7) F.leEngCap.STATE = 3 ∧ captured.stewardRuns = true ∧ (captured.req? 0 5).isSome = true := by decide +kernel
theorem test_capture_end : (after (.captureEnd 0 7) (st captured)).dev.stew.cpls.map (fun c => c.result.length) = [24] := by decide +kernel
def flipping : Dev :=
  let d := weir { basin (stageWord 2 8 63) [] 1 with entries := [(5, sb 7 [(1, 5)] [0])] }
  d.sf (r1 .pbuCtxCfg 0) F.pbuCtxCfg.CLASS 0
theorem wit_flip : (flipping.basin? 255).map (fun b => ((b.entry 5).kind, (b.entry 5).readyQ)) = some (7, [(1, 5)]) ∧ flipping.ctxClass 0 = 0 ∧ (flipping.ctx? 0).map Ctx.standby = some 0 ∧ flipping.engOn 0 = true := by
  decide +kernel
theorem test_flip : ((after (.referenceFlip 0 255 5) (st flipping)).dev.rn (r1 .leEngFlipAt 0)) = 100000 := by decide +kernel
def waiting : Dev := { base with waits := [(4, { owner := .command 0 9, deadline := 90000, guard := 5, src := 0 })] }
theorem wit_expire : tget waiting.waits 4 = some { owner := .command 0 9, deadline := 90000, guard := 5, src := 0 } ∧ 90000 + 5 < (st waiting).now 0 ∧ (st { waiting with waits := [] }).now 0 ≤ 100000 + 0 := by decide +kernel

/-! ## Laws -/

def arm0 (flags : Nat) : Req := rq 0x0A02 flags 0 (words ([128, 0, 0, 0] ++ List.replicate 15 0 ++ [2 ^ 31]))
theorem wit_law_arm : passes (engined {}) (arm0 1) 0x0A02 (fun d => d.lawArmCheck 100000) = true ∧ (arm0 1).flags &&& 511 = 1 := by decide +kernel
theorem test_law_arm : ((after (.lawArm 0 0 5) (st (withReq (engined {}) (arm0 1)))).dev.eng 7).changes.map LawChange.slots = [2 ^ 63] := by decide +kernel
theorem wit_law_disarm : passes (engined { armed := [armed63] }) (arm0 2) 0x0A02 Dev.lawDisarmCheck = true := by decide +kernel
theorem wit_law_hold : passes (engined { armed := [armed63] }) (arm0 4) 0x0A02 Dev.lawHoldCheck = true := by decide +kernel
def calm (d : Dev) : Dev := d.sf (r0 .fusStat) F.fusStat.STOP 0
theorem wit_law_resume : passes (calm (engined { armed := [armed63], holding := true })) (arm0 8) 0x0A02 (fun d => d.lawResumeCheck 100000) = true := by decide +kernel
def swappable : Dev :=
  let d := engined { armed := [{ armed63 with slot := 62 }] }
  d.modEng 7 fun e => { e with slots := [(62, { desc := desc1 }), (63, { desc := desc1 })] }
theorem wit_law_swap : passes swappable (arm0 16) 0x0A02 (fun d => d.lawSwapCheck 100000) = true := by decide +kernel
/-- Engine 0 runs the early service; law slot 63 takes over at DT 3,000,000. -/
def early0 : Dev :=
  let cue (d : Dev) (c trig : Nat) : Dev := (((d.sf (r1 .cueChCfg c) F.cueChCfg.ARM 1).sf (r1 .cueChCfg c) F.cueChCfg.TRIG trig).sf (r1 .cueChCfg c) F.cueChCfg.PERIODIC 1).sf (r1 .cueChPeriod c) F.cueChPeriod.PERIOD 250000
  let d := cue (cue base 0 3) 20 3
  calm { (((d.sf (r1 .leEngCfg 0) F.leEngCfg.EN 1).sf (r1 .leEngCfg 0) F.leEngCfg.TX_OFF 100).sf (r0 .leEarly) F.leEarly.STATE 2) with
    le := { eng := [(0, { slots := [(63, { desc := desc1 })], sets := [(0, [])] })] } }
def handover0 : Req := rq 0x0A02 32 0 (words ([1, 0, 3000000, 0, 0, 2 ^ 31] ++ List.replicate 14 0))
theorem wit_law_handover : passes early0 handover0 0x0A02 (fun d => d.lawHandoverCheck 100000) = true := by decide +kernel
def inject1 (flags : Nat) : Req := rq 0x0A03 flags 0 (words [7 + 63 * 8, 0x3F800000, 0x3F800000, 0, 200000, 0, 1000, 0, 0, 0])
theorem wit_law_inject : passes (engined { armed := [armed63] }) (inject1 0) 0x0A03 Dev.lawInjectCheck = true ∧ (inject1 0).flag 1 = false := by decide +kernel
theorem test_law_inject : ((after (.lawInject 0 0 5) (st (withReq (engined { armed := [armed63] }) (inject1 0)))).dev.eng 7).inject.map Inject.t0 = some 200000 := by decide +kernel
theorem wit_inject_stop : passes (engined { armed := [armed63] }) (inject1 2) 0x0A03 Dev.lawInjectCheck = true ∧ (inject1 2).flag 1 = true := by decide +kernel
def recorder : Dev := { engined {} with slu := { objs := [(3, { obj1 with size := 262144 })] } }
def capture1 (flags : Nat) : Req := rq 0x0A04 flags 0 (words [7, 3 + 2 ^ 16, 200000, 0, 63 * 1024, 0, 0, 0])
theorem wit_law_capture : passes recorder (capture1 0) 0x0A04 Dev.lawCaptureCheck = true ∧ (capture1 0).flag 0 = false := by decide +kernel
theorem test_law_capture : (after (.lawCapture 0 0 5) (st (withReq recorder (capture1 0)))).dev.f (r1 .leEngCap 7) F.leEngCap.STATE = 1 := by decide +kernel
theorem wit_capture_stop : passes recorder (capture1 1) 0x0A04 Dev.lawCaptureCheck = true ∧ (capture1 1).flag 0 = true := by decide +kernel

end Sys2Proof.Tests
end

