-- ==== Sys2Proof/Tests/Link.lean ====
section
/-! SUPPORT. Witnesses for the statements about the Canal link and the debug port. -/

namespace Sys2Proof.Tests

open Sys2Proof Sys2Proof.Machine

set_option Elab.async false

/-! ## The Canal link -/

/-- A device with Canal port 0 up in a ring of two modules. -/
def canal : Dev := { base.sf (r1 .cnlPortStat 0) F.cnlPortStat.UP 1 with cnl := { ring := 2 } }
/-- The next fl on port 0, from module 1 to this one. -/
def fl : FlitIn := ⟨0, 0, false, 1, 0, 0⟩
theorem wit_fl : inOrder (st canal) fl := by unfold inOrder; decide +kernel
theorem test_flit_again : (after (.ptp 0 { fl with bad := true } [1]) (st canal)).dev.cnl.ptp = [] ∧ (after (.ptp 0 fl [1]) (st canal)).dev.cnl.ptp = [[1]] := by decide +kernel
def fielded : Dev := { canal with fab := (weir (basin (stageWord 2 8 63) [] 1)).fab }
theorem wit_data : inOrder (st fielded) fl ∧ ((fielded.basin? 255).map fun b => (b.entry 1).freeQ) = some [0, 1] := by unfold inOrder; decide +kernel
theorem test_data : (((after (.data 0 fl 0 255 1 0 0 true ⟨1, 1, 1⟩ [7, 8]) (st fielded)).dev.basin? 255).map fun b => (b.entry 1).readyQ) = some [(0, 100000)] := by decide +kernel
/-- Region 0 of a class lets it read and write T1. -/
def region (c : Nat) (d : Dev) : Dev :=
  let r := r2 .pmapFwL c 0
  (((((d.sf (r1 .pmapPerm c) F.pmapPerm.EN 1).sf (r2 .pmapFwB c 0) F.pmapFwB.BASE 0x800000).sf r F.pmapFwL.LIMIT 0xDFFFFF).sf r F.pmapFwL.EN 1).sf r F.pmapFwL.R 1).sf r F.pmapFwL.W 1
theorem wit_mem_rd : (let s : State := { st (region 7 canal) with latchClosed := true }
    inOrder s fl ∧ s.dev.canalOk s.latchClosed (s.now 0) 0x810000000 64 .read = true ∧ s.dev.canalOk s.latchClosed (s.now 0) 0x810000000 64 .write = true ∧ s.dev.farHolds 0x810000000 64 = false) := by unfold inOrder; decide +kernel
theorem wit_mem_cpl : (let d : Dev := { canal with cnl := { canal.cnl with reads := [⟨9, 1, 2, 0x400000000, [], 2⟩] } }
    d.cnl.reads = [⟨9, fl.src, 2, 0x400000000, [], 2⟩] ∧ (after (.memCpl 0 fl 9 0 [1, 2]) (st d)).dev.bus = .bytes [1, 2]) := by decide +kernel
def sent : Dev := { canal with cnl := { canal.cnl with ports := [(0, { replay := [(3, ⟨ftMemCpl, 0, 1, 1, [], []⟩)] })] } }
theorem wit_nak : sent.portUp 0 = true ∧ ((sent.cnlPort 0).replay.any fun e => e.1 == 3) = true := by decide +kernel
theorem test_ack : ((after (.ack 0 0 3) (st sent)).dev.cnlPort 0).replay = [] ∧ ((after (.nak 0 0 3) (after (.nak 0 0 3) (st sent))).dev.cnlPort 0).failures = 1 := by decide +kernel
def txn : KeyIn := ⟨90000, 0x4001, 2⟩
theorem wit_coord : (let d : Dev := { canal with cnl := { canal.cnl with coords := [{ id := keyOf txn, cmd := none, kind := 0, subject := 0, parts := [0, 1], deadline := 0, outcome := some true, done := [0] }] } }
    (after (.done 0 fl txn) (st d)).dev.cnl.coords = [] ∧ d.cnl.coords.length = 1) := by decide +kernel
def tpc0 (vote : Option (Bool × Nat)) (rounds : Nat) : TpcPart := { id := keyOf txn, coord := 1, kind := 1, subject := 5, vote := vote, rounds := rounds, askedAt := 0 }
theorem wit_decide_kinds : (tpc0 none 0).kind ≠ 3 ∧ ({ tpc0 none 0 with kind := 3 } : TpcPart).kind = 3 ∧ canal.splitReq 5 0 = none := by decide +kernel
theorem wit_decide : (let d : Dev := { canal with cnl := { canal.cnl with parts := [tpc0 none 0] } }
    inOrder (st d) fl ∧ d.partOf 5 = none ∧ (after (.decide 0 fl txn true) (st d)).dev.cnl.parts = []) := by unfold inOrder; decide +kernel
theorem wit_query : (let d : Dev := { canal with cnl := { canal.cnl with outcomes := [(keyOf txn, true, 90000)] } }
    inOrder (st d) fl ∧ (st d).now 0 ≤ 90000 + 1000000000) := by unfold inOrder; decide +kernel
theorem wit_decide_timeout : (let d (n : Nat) : Dev := { canal with cnl := { canal.cnl with parts := [tpc0 (some (true, 5)) n] } }
    10000000 ≤ (d 0).elapsed 0 ((st (d 0)).now 10000000) ∧ (after (.decideTimeout 10000000 txn) (st (d 0))).dev.cnl.parts.map TpcPart.rounds = [1] ∧ (after (.decideTimeout 10000000 txn) (st (d 3))).dev.cnl.parts = []) := by
  decide +kernel
def voting : Dev := { canal with waits := [(4, { owner := .vote (txOf (keyOf txn)) 1, deadline := 200000, guard := 1000, src := 0 })] }
def votedLate : Dev := { voting with waits := voting.waits.map fun e => (e.1, { e.2 with outcome := some false }) }
theorem wit_vote_late : inOrder (st votedLate) fl ∧ (votedLate.waitAny (.vote (txOf (keyOf txn)) fl.src)).map (fun e => (e.2.outcome, votedLate.onTime e.2 150000)) = some (some false, true) := by unfold inOrder; decide +kernel
theorem test_vote_late : (after (.vote 0 fl txn 0 150000) (st votedLate)).dev.waits = [] := by decide +kernel
theorem wit_vote : inOrder (st voting) fl ∧ (voting.waitAny (.vote (txOf (keyOf txn)) fl.src)).map (fun e => (e.1, e.2.outcome, voting.onTime e.2 100000)) = some (4, none, true) ∧ (st voting).now 0 ≤ 200000 + 1000 := by unfold inOrder; decide +kernel
theorem test_vote : (after (.vote 0 fl txn 0 100000) (st voting)).dev.waits.map (fun e => e.2.outcome) = [some true] := by decide +kernel
theorem wit_retrain : (let d : Dev := { canal with cnl := { canal.cnl with ports := [(0, { failures := 4, stuckAt := some 0 })] } }
    d.portUp 0 = true ∧ 4 ≤ (d.cnlPort 0).failures ∧ (d.cnlPort 0).stuckAt = some 0 ∧ 10000 ≤ d.elapsed 0 ((st d).now 0)) := by decide +kernel
theorem test_retrain : (let d : Dev := { canal with cnl := { canal.cnl with ports := [(0, { failures := 4 })] } }
    (after (.canalRetrain 0 0 4) (st d)).dev.f (r1 .cnlPortStat 0) F.cnlPortStat.LANES = 4) := by decide +kernel
theorem wit_train : base.on 165 = true ∧ base.portUp 0 = false ∧ base.peerOk 0 1 2 = true ∧ base.peerOk 0 2 2 = false := by decide +kernel
theorem test_train : (after (.canalPortTraining 0 0 8 1 2) (st base)).dev.portUp 0 = true ∧ (after (.canalPortTraining 0 0 8 2 2) (st base)).dev.fb (r1 .cnlPortStat 0) F.cnlPortStat.INDEX_ERR = true := by decide +kernel

/-! ## The debug port -/

/-- A packet with its CRC. -/
def pkt (cmd flags type index addr : Nat) (payload : List Byte) : UlzilPacket :=
  let p : UlzilPacket := ⟨0, flags, 1, type, index, addr, payload, 0⟩
  { p with crc := crc16 (ulzilBytes p cmd) }
/-- A session at level full, every target allowed that level; the state has the latch closed. -/
def probed : Dev := { base.sf (r0 .pmapDebug) F.pmapDebug.APP 2 with dbg := { vref := true, session := true, level := 2 } }
def sess : Dev := (((probed.sf (r0 .pmapDebug) F.pmapDebug.STW 2).sf (r0 .pmapDebug) F.pmapDebug.LE 2).sf (r0 .pmapDebug) F.pmapDebug.MC 2).sf (r1 .pmapPerm 8) F.pmapPerm.EN 1
def locked0 : State := { st sess with latchClosed := true }
/-- A device without a session. -/
def idle0 : State := { locked0 with dev := { sess with dbg := { vref := true } } }
def halted0 (k : Nat) (regs : Tbl Nat) : State := { locked0 with dev := { sess with cores := { sess.cores with targets := [(k, { halted := true, regs := regs, bps := [(1, ⟨0, 64, 0⟩), (8, ⟨3, 128, 16⟩)] })] } } }
theorem wit_attach : executes idle0 0x01 0 (pkt 0x01 0 5 0 0 []) [5] 1 ∧ executes locked0 0x01 0 (pkt 0x01 1 5 0 0 []) [5] 1 := by unfold executes; decide +kernel
theorem test_attach : (after (.attach 0 (pkt 0x01 0 5 0 0 [])) idle0).dev.dbg.session = true ∧ (after (.attachRelease 0 (pkt 0x01 1 5 0 0 [])) locked0).dev.dbg.session = false := by decide +kernel
theorem wit_challenge : executes locked0 0x02 0 (pkt 0x02 0 5 0 0 [2, 0, 0, 0]) [5] 0 ∧ sess.dbg.session = true ∧ sess.dbg.refused < 8 ∧ idle0.dev.dbg.session = false := by unfold executes; decide +kernel
def zeros : List Byte := List.replicate 5364 0
def authP : UlzilPacket := pkt 0x03 0 5 0 0 zeros
def asked : State := { locked0 with dev := { sess with dbg := { sess.dbg with challenge := some ([], 2, 200000) } } }
theorem zeros_bytes (a n : Nat) : leNat ((zeros.drop a).take n) = 0 := by
  have h (m : Nat) : leNat (List.replicate m (0 : Byte)) = 0 := by
    induction m with
    | zero => rfl
    | succ m ih => rw [List.replicate_succ]; simp [leNat]; exact ih
  unfold zeros
  rw [List.drop_replicate, List.take_replicate, h]
theorem wit_auth : executes asked 0x03 0 authP [5] 0 ∧ authP.payload.length = 5364 ∧ bytesAt authP.payload 1 3 = 0 ∧ bytesAt authP.payload 5361 3 = 0 ∧ asked.dev.dbg.session = true ∧
    asked.dev.dbg.challenge = some ([], 2, 200000) ∧ asked.now 0 ≤ 200000 := by
  have hl : asked.dev.dbg.last = none := by decide +kernel
  have h1 : asked.dev.dbg.vref = true ∧ asked.dev.on 167 = true ∧ asked.dev.dbg.work = none ∧ asked.dev.dbg.session = true ∧
      asked.dev.dbg.challenge = some ([], 2, 200000) ∧ asked.now 0 ≤ 200000 := by decide +kernel
  obtain ⟨a, b, c, d, e, f⟩ := h1
  refine ⟨⟨a, b, c, by simp [ulzilGood, authP, pkt, ulzilBytes], rfl, by simp [hl], rfl, rfl, fun h => absurd h (by simp [authP, pkt]), fun _ => rfl, Nat.zero_le _⟩, ?_, zeros_bytes 1 3, zeros_bytes 5361 3, d, e, f⟩
  exact List.length_replicate ..
/-- Without a key slot's hashes nothing authorizes. -/
theorem wit_auth_refused : authorizes {} [] [] = false := by simp [authorizes, tget]
theorem wit_halt : executes locked0 0x04 2 (pkt 0x04 0 0 3 0 []) [0, 1, 2, 3] 0 ∧ sess.haltRefusal (targetOf (pkt 0x04 0 0 3 0 [])) = none := by unfold executes; decide +kernel
theorem test_halt : ((after (.halt 0 (pkt 0x04 0 0 3 0 [])) locked0).dev.target 3).halted = true := by decide +kernel
theorem wit_halt_refused : (let s : State := { locked0 with dev := sess.sf (r1 .leEngStat 0) F.leEngStat.MODE 1 }
    executes s 0x04 2 (pkt 0x04 0 2 0 0 []) [0, 1, 2, 3] 0 ∧ s.dev.haltRefusal (targetOf (pkt 0x04 0 2 0 0 [])) = some .denied) := by unfold executes; decide +kernel
theorem wit_resume : executes (halted0 3 []) 0x05 2 (pkt 0x05 0 0 3 0 []) [0, 1, 2, 3] 0 ∧ ((halted0 3 []).dev.target (targetOf (pkt 0x05 0 0 3 0 []))).halted = true := by unfold executes; decide +kernel
theorem test_resume : ((after (.resume 0 (pkt 0x05 0 0 3 0 [])) (halted0 3 [])).dev.target 3).halted = false := by decide +kernel
theorem wit_dbg_step : executes (halted0 3 []) 0x06 2 (pkt 0x06 0 0 3 0 []) [0, 1, 2] 0 ∧ executes (halted0 19 []) 0x06 2 (pkt 0x06 0 2 1 0 []) [0, 1, 2] 0 ∧ targetOf (pkt 0x06 0 2 1 0 []) = 19 := by unfold executes; decide +kernel
theorem test_dbg_step : (after (.step 0 (pkt 0x06 0 2 1 0 [])) (halted0 19 [])).dev.dbg.work = some (19, 100000) := by decide +kernel
def bpP (slot kind addr size : Nat) : UlzilPacket := pkt 0x07 0 0 3 addr ([BitVec.ofNat 8 slot, BitVec.ofNat 8 kind, 0, 0] ++ beBytes 4 size)
theorem wit_bp : executes locked0 0x07 2 (bpP 8 1 64 16) [0, 1, 3] 0 ∧ bpOk 8 1 16 64 = true ∧ bpOk 8 1 16 65 = false ∧ bpOk 12 1 16 64 = false ∧ executes locked0 0x07 2 (bpP 8 1 65 16) [0, 1, 3] 0 := by unfold executes; decide +kernel
theorem test_bp : tget ((after (.bpSet 0 (bpP 8 1 64 16)) locked0).dev.target 3).bps 8 = some ⟨1, 64, 16⟩ := by decide +kernel
theorem wit_bp_clear : executes (halted0 3 []) 0x08 2 (pkt 0x08 0 0 3 0 [1, 0, 0, 0]) [0, 1, 3] 0 := by unfold executes; decide +kernel
theorem test_bp_clear : ((after (.bpClear 0 (pkt 0x08 0 0 3 0 [1, 0, 0, 0])) (halted0 3 [])).dev.target 3).bps.map Prod.fst = [8] := by decide +kernel
def reach : State := { st (region 8 sess) with latchClosed := true }
def readP : UlzilPacket := pkt 0x09 0 0 3 0x810000000 (beBytes 4 16)
def writeP : UlzilPacket := pkt 0x0A 0 0 3 0x810000000 [1, 2, 3]
theorem wit_mem_read : executes reach 0x09 1 readP [0, 1, 2, 3, 4] 0 ∧ reach.dev.memOk reach.latchClosed (reach.now 0) 8 readP.addr 16 .read = true ∧ reach.dev.farHolds readP.addr 16 = false ∧ placeOf readP.addr 16 = .main ∧ beNat readP.payload = 16 := by unfold executes; decide +kernel
theorem wit_mem_write : executes reach 0x0A 2 writeP [0, 1, 2, 3] 0 ∧ reach.dev.memOk reach.latchClosed (reach.now 0) 8 writeP.addr 3 .write = true ∧ reach.dev.farHolds writeP.addr 3 = false ∧ placeOf writeP.addr 3 = .main := by unfold executes; decide +kernel
theorem wit_reg_read : executes (halted0 3 [(0x1005, 77)]) 0x0B 1 (pkt 0x0B 0 0 3 0x1005 []) [0, 1, 2, 3] 0 ∧ dbgWidth 3 0x1005 = some 8 ∧ tget ((halted0 3 [(0x1005, 77)]).dev.target 3).regs 0x1005 = some 77 ∧
    executes locked0 0x0B 1 (pkt 0x0B 0 0 3 0x1005 []) [0, 1, 2, 3] 0 := by unfold executes; decide +kernel
theorem test_reg_read : (after (.regRead 0 (pkt 0x0B 0 0 3 0x1005 [])) (halted0 3 [(0x1005, 77)])).dev.dbg.resp = (0, beBytes 8 77) := by decide +kernel
theorem wit_reg_zero : executes (halted0 3 []) 0x0B 1 (pkt 0x0B 0 0 3 0x1000 []) [0, 1, 2, 3] 0 ∧ executes (halted0 3 []) 0x0C 2 (pkt 0x0C 0 0 3 0x1000 (beBytes 8 5)) [0, 1, 2, 3] 0 := by unfold executes; decide +kernel
theorem wit_reg_write : executes (halted0 3 []) 0x0C 2 (pkt 0x0C 0 0 3 0x1005 (beBytes 8 5)) [0, 1, 2, 3] 0 ∧ executes locked0 0x0C 2 (pkt 0x0C 0 0 3 0x1005 (beBytes 8 5)) [0, 1, 2, 3] 0 := by unfold executes; decide +kernel
theorem test_reg_write : tget ((after (.regWrite 0 (pkt 0x0C 0 0 3 0x1005 (beBytes 8 5))) (halted0 3 [])).dev.target 3).regs 0x1005 = some 5 := by decide +kernel
theorem wit_reg_state : (let s : State := { halted0 18 [] with dev := { (halted0 18 []).dev with le := { eng := [(0, { armed := [⟨2, 1, 0, [1, 2], [none], [none], 0, 0⟩] })] } } }
    executes s 0x0B 1 (pkt 0x0B 0 2 0 0x2002 []) [0, 1, 2, 3] 0 ∧ s.dev.lawStates 0 2 = some [1, 2]) := by unfold executes; decide +kernel
theorem wit_status : executes locked0 0x0D 0 (pkt 0x0D 0 5 0 0 []) [5] 0 := by unfold executes; decide +kernel
def pointed : State := { locked0 with dev := { sess with cores := { sess.cores with targets := [(3, { bps := [(1, ⟨0, 64, 0⟩), (8, ⟨3, 128, 16⟩)] })] } } }
theorem wit_hits : tget (pointed.dev.target 3).bps 1 = some ⟨0, 64, 0⟩ ∧ tget (pointed.dev.target 3).bps 8 = some ⟨3, 128, 16⟩ ∧ (pointed.dev.target 3).halted = false ∧ (143 : Nat) < 128 + 16 ∧ (128 : Nat) < 143 + 1 := by decide +kernel
/-- A breakpoint reached in the cycle of a HALT halts the target there (R457). -/
def haltedNow : State := { locked0 with dev := { sess with cores := { sess.cores with targets := [(3, { halted := true, haltAt := some 100000, bps := [(1, ⟨0, 64, 0⟩)] })] } } }
theorem wit_hit_halted : (haltedNow.dev.target 3).haltAt = some (haltedNow.now 0) ∧ (after (.breakpointHit 0 3 1) haltedNow).dev.target 3 = { (haltedNow.dev.target 3) with hitBp := true, regs := [(0x1040, 64)] } := by decide +kernel
theorem test_hit : ((after (.breakpointHit 0 3 1) pointed).dev.target 3).halted = true ∧ ((after (.watchpointHit 0 3 8 1 143 1) pointed).dev.target 3).halted = true ∧
    ((after (.watchpointHit 0 3 8 1 144 1) pointed).dev.target 3).halted = false := by decide +kernel
theorem wit_busy_timeout : (let s := after (.step 0 (pkt 0x06 0 2 1 0 [])) (halted0 19 [])
    s.dev.dbg.work = some (19, 100000) ∧ (after (.ulzilBusyTimeout 0 65536) s).dev.dbg.work = none) := by decide +kernel
theorem wit_session_timeout : sess.dbg.session = true ∧ 10000000000 ≤ sess.elapsed sess.dbg.lastAt (locked0.now 10000000000) := by decide +kernel
theorem test_udrst : sess.on 167 = true ∧ (after (.udrst 0 1000) locked0).dev.dbg.session = false ∧ (after (.udrst 0 999) locked0).dev.dbg.session = true := by decide +kernel
theorem test_vref : (after (.probeVrefChange 0 false) locked0).dev.dbg.vref = false := by decide +kernel

end Sys2Proof.Tests
end

