-- ==== Sys2Proof/Tests/Power.lean ====
section
/-! SUPPORT. Witnesses for the statements about the management controller, the almanac, safe stores, resets, sensors, the boot and accesses. -/

namespace Sys2Proof.Tests

open Sys2Proof Sys2Proof.Machine

set_option Elab.async false

/-! ## Queries -/

/-- A device whose mailbox 0 may administer the MC. -/
def admin : Dev := base.sf (r1 .pmapMbx 0) F.pmapMbx.MC_ADMIN 1
/-- A query of an item and index. -/
def q0 (item index : Nat) : Req := rq 0x0C01 0 0 (words [item + index * 2 ^ 16])
/-- The premises of a statement about an item hold. -/
def asking (d : Dev) (item index : Nat) (more : Bool := true) : Bool :=
  passes d (q0 item index) 0x0C01 (fun d r => d.mcFail r true more none) && (q0 item index).mcItem == item && (withReq d (q0 item index)).mcAnswers item && (withReq d (q0 item index)).updateTurn (q0 item index) && (q0 item index).mcIndex == index
theorem wit_queries : asking admin 0x0001 31 && asking admin 0x0002 39 && asking admin 0x0003 0 && asking admin 0x0004 0 && asking admin 0x0005 0 && asking admin 0x0006 0 = true := by decide +kernel
theorem wit_queries2 : asking admin 0x0010 0 && asking admin 0x0020 63 && asking admin 0x0033 4 && asking admin 0x0040 0 && asking admin 0x0050 1 = true := by decide +kernel
theorem test_temp : (tget (after (.temp 0 0 5 0x42280000 0x42200000 0x42300000) (st (withReq admin (q0 1 31)))).dev.mc.temps 31).map Sensor.value = some 0x42280000 := by decide +kernel
theorem test_rail : (tget (after (.rail 0 0 5 0x3F800000 0x40000000) (st (withReq admin (q0 2 39)))).dev.mc.amps 39).map Sensor.value = some 0x40000000 := by decide +kernel
theorem test_humidity : (after (.humidity 0 0 5 0x42280000 0x3F800000) (st (withReq admin (q0 3 0)))).dev.mc.condense = true := by decide +kernel
theorem test_reset_item : (after (.reset 0 0 5) (st (withReq admin (q0 0x50 1)))).dev.mc.resetAt = some (10100000, true) := by decide +kernel
def challenged : Dev := { admin with mc := { admin.mc with nonces := [(0, (⟨90000, 0, 0⟩, []))] } }
theorem wit_attest : asking challenged 0x0011 0 (thas challenged.mc.nonces 0) = true ∧ challenged.mc.buffered + 4096 ≤ 2 ^ 20 := by decide +kernel
theorem wit_counter_advance : passes admin (q0 0x21 16) 0x0C01 (fun d r => d.advanceFail {} r) = true ∧ tgetD State.reset.otp.counters 16 0 < 255 := by decide +kernel
theorem test_counter_advance : (after (.counterAdvance 0 0 5) (st (withReq admin (q0 0x21 16)))).otp.counters = [(16, 1)] := by decide +kernel
/-- An object of 8 MiB pinned in T1 that begins with the header of an image of KIND 2. -/
def staged : Dev := { admin with slu := { objs := [(3, { obj1 with size := 0x800000 })] }, mem := Memory.write [] 0x810000000 (words [2 * 2 ^ 26]) }
theorem wit_stage : passes staged (q0 0x30 3) 0x0C01 (fun d r => d.mcFail r true (decide (r.mcIndex < 65536)) (d.stageMore r)) = true ∧ (withReq staged (q0 0x30 3)).updateTurn (q0 0x30 3) = true := by decide +kernel
theorem test_stage : (after (.updateStage 0 0 5) (st (withReq staged (q0 0x30 3)))).dev.upd 2 = { state := 1, object := 3, req := (q0 0x30 3).key staged } := by decide +kernel
def updating (kind state running : Nat) : Dev := { admin with mc := { admin.mc with updates := [(kind, { state := state, running := running })] } }
theorem wit_activate : passes (updating 3 2 0) (q0 0x31 3) 0x0C01 (fun d r => d.mcFail r true (decide (r.mcIndex < 5)) (needCfg ((d.upd r.mcIndex).state == 2) 2)) = true ∧ (withReq (updating 3 2 0) (q0 0x31 3)).updateTurn (q0 0x31 3) = true := by decide +kernel
theorem test_activate : (after (.updateActivate 0 0 5) (st (withReq (updating 3 2 0) (q0 0x31 3)))).dev.mc.restartAt = some 1000100000 := by decide +kernel
theorem wit_confirm : passes (updating 2 4 1) (q0 0x32 2) 0x0C01 Dev.confirmFail = true ∧ (withReq (updating 2 4 1) (q0 0x32 2)).updateTurn (q0 0x32 2) = true := by decide +kernel
theorem test_confirm : (after (.updateConfirm 0 0 5) (st (withReq (updating 2 4 1) (q0 0x32 2)))).dev.upd 2 = { state := 5, active := 1, running := 1 } := by decide +kernel
theorem wit_staging : (updating 2 1 0).mc.running = true ∧ ((updating 2 1 0).upd 2).state = 1 ∧ (updating 2 1 0).on 168 = true := by decide +kernel

/-! ## The almanac and safe stores -/

def log0 : Req := rq 0x0C02 0 0 (words [4, 0, 0x01020304])
theorem wit_mc_log : passes base log0 0x0C02 Dev.mcLogCheck = true ∧ log0.flag 0 = false ∧ base.mcHalted = false ∧ base.mc.romOnly = false ∧ log0.w32 4 = 0 := by decide +kernel
theorem test_mc_log : (after (.mcLog 0 0 5) (st (withReq base log0))).dev.mc.buf.map (fun x => (x.kind, x.payload)) = [(0x0B0, words [0x01020304])] := by decide +kernel
/-- An MC that holds one record, and an MC_LOG that waits for it. -/
def logged : Dev := (after (.mcLog 0 0 5) (st (withReq base log0))).dev
theorem wit_almanac : logged.ringUp = true ∧ logged.mc.bufLost = none ∧ logged.mc.buf.length = 1 ∧ logged.stew.inflight.map (fun r => (r.code, r.decided, r.flag 0)) = [(0x0C02, true, false)] := by decide +kernel
def due : Dev := { base with mc := { base.mc with sinceCkpt := 1024 } }
theorem wit_checkpoint : due.ringUp = true ∧ 1024 ≤ due.mc.sinceCkpt := by decide +kernel
def logRead0 : Req := rq 0x0C02 1 0 (words [0, 3 + 2 ^ 16, 0, 0, 8, 0])
theorem wit_log_read : passes stored logRead0 0x0C02 Dev.mcLogReadCheck = true ∧ logRead0.flag 0 = true ∧ stored.mc.buf = [] ∧ stored.mc.bufLost = none ∧ stored.pinned1 (logRead0.w32 4) = some (obj1, ⟨1, 0x810000000, 0, 0, 0⟩) := by decide +kernel
/-- A device with a bank of 5 mF at 48 V. -/
def banked (d : Dev) : Dev := { d with mc := { d.mc with cMeas := 5000000, bankMv := 48000 } }
def safe0 : Req := rq 0x0B01 0 0 (words [2, 3 + 2 ^ 16, 4096, 0, 0, 0])
theorem wit_store_safe : passes (banked stored) safe0 0x0B01 (fun d => d.storeFail 48000) = true ∧ (banked stored).mc.running = true ∧ (banked stored).mcHalted = false ∧ (banked stored).on 168 = true ∧
    (banked stored).pow.inputLost = false ∧ safe0.ssKind = 2 := by decide +kernel
theorem test_store_safe : (after (.storeSafe 0 0 5 48000) (st (withReq (banked stored) safe0))).dev.mc.stores.map (fun x => (x.running, x.size, x.nparts)) = [([0], 4096, 1)] := by decide +kernel
theorem wit_store_lost : (let d := banked { stored with pow := { stored.pow with inputLost := true } }
    passes d safe0 0x0B01 (fun d => d.storeFail 48000) && d.pow.inputLost) = true := by decide +kernel
/-- A store of two parts of which the first landed; one that waits for the bank; one whose only part runs. -/
def storing (running committed : List Nat) (n : Nat) (wait : Option Nat) : Dev :=
  { banked (withReq stored { safe0 with decided := true }) with
    mc := { (banked stored).mc with stores := [⟨0, 5, 0, ⟨1000, 0, 5⟩, 2, 0x810000000, 4096 * n, 0, 4096, n, committed, running, [], wait⟩] } }
theorem wit_part_start : ((storing [] [0] 2 none).store? 0 5).map (fun x => (x.running, x.committed.length, x.nparts)) = some ([], 1, 2) ∧ (storing [] [0] 2 none).mc.running = true ∧
    (storing [] [0] 2 none).pow.inputLost = false := by decide +kernel
theorem wit_part_start_engine : engineRoom (storing [] [0] 2 none) ∧ (∀ x, (storing [] [0] 2 none).store? 0 5 = some x → x.sluiced 1 = true ∧ (storing [] [0] 2 none).partPasses 0 5 48000 (x.bytes 1) = true) := by
  refine ⟨⟨0, by decide, by decide +kernel⟩, fun x h => ?_⟩
  have e : (storing [] [0] 2 none).store? 0 5 = some ⟨0, 5, 0, ⟨1000, 0, 5⟩, 2, 0x810000000, 8192, 0, 4096, 2, [0], [], [], none⟩ := by decide +kernel
  rw [e] at h; cases h; decide +kernel
theorem test_part_start : ((after (.safeStorePartStart 0 0 5 48000) (st (storing [] [0] 2 none))).dev.store? 0 5).map SafeStore.running = some [1] := by decide +kernel
theorem wit_recharge : ((storing [] [0] 2 (some 0)).store? 0 5).map SafeStore.waitFrom = some (some 0) ∧ 100000000 ≤ (storing [] [0] 2 (some 0)).elapsed 0 ((st base).now 200000000) ∧
    ((storing [] [0] 2 (some 0)).req? 0 5).isSome = true := by decide +kernel
theorem test_recharge : (after (.rechargeWaitTimeout 200000000 0 5) (st (storing [] [0] 2 (some 0)))).dev.stew.cpls.map (fun c => (c.status, c.detail)) = [(Status.partialFail.code, 2)] := by decide +kernel
theorem wit_part_commit : ((storing [0] [] 1 none).store? 0 5).map (fun x => (x.running, x.kind, x.committed ++ [0] == List.range x.nparts)) = some ([0], 2, true) ∧ (storing [0] [] 1 none).on 168 = true ∧
    ((storing [0] [] 1 none).req? 0 5).isSome = true := by decide +kernel
/-- A store in the system area, whose parts no engine moves; one whose request on an engine has ended. -/
def storingSys : Dev := { storing [0] [] 1 none with mc := { (storing [0] [] 1 none).mc with stores := [⟨0, 5, 0, ⟨1000, 0, 5⟩, 0, 0x810000000, 4096, 0, 4096, 1, [], [0], [], none⟩] } }
theorem wit_part_commit_direct : (storingSys.store? 0 5).map (fun x => (x.kind, x.running, x.sluiced 0, storingSys.storeReq x 0)) = some (0, [0], false, none) := by decide +kernel
def storeEnded : SluReq := { sluReq0 (part0 1 .ended 5) with purpose := .safe 0 5 0 }
def storingReq : Dev := { storing [0] [] 1 none with slu := { (storing [0] [] 1 none).slu with reqs := [(7, storeEnded)] } }
theorem wit_part_commit_sluiced : (storingReq.store? 0 5).map (fun x => storingReq.storeReq x 0) = some (some (7, storeEnded)) ∧ storeEnded.allEnded = true ∧ storeEnded.outcome = 0 ∧ storeEnded.crec = 0 ∧
    storeEnded.cellOp = 0 ∧ storeEnded.making = none := by decide +kernel
theorem test_part_commit : (after (.safeStorePartCommit 0 0 5) (st storingReq)).dev.stew.cpls.map (fun c => (c.status, c.detail)) = [(0, 1)] := by decide +kernel
theorem wit_part_commit_first : ((storing [0] [] 2 none).store? 0 5).map (fun x => (x.running, x.committed.length + 1 != x.nparts)) = some ([0], true) := by decide +kernel

/-! ## Resets, sensors, input voltage -/

theorem test_reset_in : (after (.resetIn 0 2000000) (st base)).dev.mc.resetAt = some (100000, true) := by decide +kernel
theorem wit_reset_in : base.mc.running = true ∧ (10000 : Nat) ≤ 10000 := by decide +kernel
theorem test_mc_restart : (after (.mcRestart 0 true) (st base)).dev.mc.running = false := by decide +kernel
theorem wit_mc_restart : (let d : Dev := { base with mc := { base.mc with restartAt := some 100000 } }
    d.mc.running = true ∧ d.mc.restartAt = some 100000 ∧ 100000 ≤ (st d).now 0) := by decide +kernel
theorem wit_heartbeat : base.stewardRuns = true ∧ base.mc.running = true := by decide +kernel
theorem wit_steward_stopped : base.mc.running = true ∧ base.cores.steward = true ∧ base.mc.stewardStopped = false ∧ 100000000 ≤ base.elapsed base.mc.heartbeatAt ((st base).now 100000000) := by decide +kernel
theorem test_steward_stopped : (after (.stewardStopped 100000000) (st base)).dev.mc.causes = [5] := by decide +kernel
theorem test_threshold : (after (.mcThresholdCrossing 0 3 0 0x3F800000) (st base)).dev.mc.condense = true := by decide +kernel
theorem wit_shock : f32Le 0x42480000 0x42480000 = true ∧ f32Lt 0 0x3E99999A = true := by decide +kernel
theorem test_shock : (after (.shockImpact 0 0x42480000) (st base)).dev.mc.causes = [4] ∧ (after (.fallDetect 0 0 100) (st base)).dev.mc.falls = 1 := by decide +kernel
def shocked : Dev := { base with mc := { base.mc with causes := [4] } }
theorem wit_shock_end : shocked.mc.causes.contains 4 = true ∧ 1000000000 ≤ shocked.elapsed shocked.mc.shockLast ((st shocked).now 1000000000) := by decide +kernel
theorem test_holdup_fault : (after (.holdupFault 0 27999 1001) (st base)).dev.mc.causes = [3] ∧ base.pow.inputLost = false := by decide +kernel
theorem wit_vin : f32Lt 0x41B80000 0x41C00000 = true ∧ base.mc.vinLow = false ∧ f32Lt 0x41B00000 0x41B00000 = false ∧ f32Lt 0x41A80000 0x41B00000 = true ∧ f32Le 0x41C00000 0x41C00000 = true ∧
    f32Lt 0x41980000 0x41A00000 = true ∧ f32Lt 0x42780000 0x42800000 = true := by decide +kernel
theorem test_vin_low : (after (.vinLowStep 0 0x41B80000 10) (st surging)).dev.pbu.pend.map PendMode.forced = some true := by decide +kernel
theorem test_vin_below : (after (.vinBelowRange 0 0x41A80000 1000) (st base)).dev.mc.causes = [2] ∧ (after (.vinRecover 0 0x41C00000 100) (st { base with mc := { base.mc with causes := [2] } })).dev.mc.causes = [] := by decide +kernel
theorem test_input_loss : (after (.inputLoss 0 0x41980000 50) (st base)).dev.pow.inputLost = true ∧ base.earlyOn = true := by decide +kernel
def darkening : Dev := { base with pow := { base.pow with inputLost := true } }
theorem wit_off : darkening.pow.inputLost = true ∧ darkening.earlyOn = true ∧ darkening.partsEnded = true ∧ darkening.mc.resetAt = none := by decide +kernel
theorem test_off : (after (.processorOff 0) (st darkening)).dt = 0 ∧ (after (.inputReturn 0 0x42000000 10) (st darkening)).dev.mc.resetAt = some (100000, false) := by decide +kernel
def dark : Dev := { darkening with pow := { darkening.pow with on := [171] } }
theorem wit_mc_off : dark.pow.inputLost = true ∧ dark.earlyOn = false ∧ f32Lt 0x42000000 0x41C00000 = false := by decide +kernel
theorem test_mc_off : (after (.mcOff 0 28000) (st dark)).dev.pow.on = [] := by decide +kernel
theorem wit_overtemp : f32Le 0x42BE0000 0x42BE0000 = true ∧ f32Le 0x42D20000 0x42D20000 = true ∧ f32Lt 0x42C60000 0x42C80000 = true ∧ f32Le 0x42DC0000 0x42DC0000 = true ∧
    (surging.elapsed surging.mc.hotAt ((st surging).now 0) ≤ 100 * 1000000 → 100 + 1000 * surging.mc.hotSteps ≤ 100) := by decide +kernel
theorem test_overtemp : (after (.overtempStep 0 0x42BE0000 100) (st surging)).dev.pbu.pend.map PendMode.forced = some true ∧ (after (.overtempStop 0 0x42D20000) (st base)).dev.mc.causes = [1] := by decide +kernel
theorem test_overtemp_shutdown : (after (.overtempShutdown 0 0x42DC0000) (st base)).dev.pow.off = true := by decide +kernel

/-! ## The boot -/

def unstarted : Dev := { pow := { on := [171] } }
theorem wit_mc_start : unstarted.mc.running = false ∧ unstarted.earlyOn = false ∧ unstarted.mc.started = false ∧ (4000 : Nat) < 4500 ∧ ({ base with mc := { base.mc with running := false } } : Dev).earlyOn = true := by decide +kernel
theorem wit_mc_start_rom : (unstarted.upd 3).active < 2 ∧ unstarted.slotOk {} 3 0 = false ∧ unstarted.slotOk {} 3 1 = false := by decide +kernel
theorem test_mc_start : (after (.mcStart 0 1000000 4500) { State.reset with dev := unstarted }).dev.mc.started = true := by decide +kernel
def waiting0 : Dev := { unstarted with mc := { running := true, started := true } }
theorem wit_early : waiting0.mc.running = true ∧ waiting0.mc.started = true ∧ waiting0.earlyOn = false ∧ waiting0.pow.off = false ∧ waiting0.pow.inputLost = false ∧ f32Le 0x41C00000 0x42400000 = true ∧
    f32Le 0x42400000 0x42700000 = true ∧ (waiting0.upd 0).active < 2 ∧ waiting0.slotOk {} 0 0 = false ∧ waiting0.slotOk {} 0 1 = false := by decide +kernel
theorem test_early : (after (.earlyDomainRelease 0 0x42400000 50000 2) (st waiting0)).dev.pow.on = [169, 170, 171] ∧ (after (.earlyDomainRelease 0 0x42400000 50000 2) (st waiting0)).dev.module = 2 := by decide +kernel
def early : Dev := { base with pow := { on := [169, 170, 171], pllLocked := true }, mc := { base.mc with mE := [1] }, cores := {}, idn := { udsRead := true } }
theorem wit_uds : early.earlyOn = true ∧ early.idn.udsRead = true ∧ ({ early with idn := {} } : Dev).idn.udsRead = false := by decide +kernel
theorem wit_main_power : early.earlyOn = true ∧ early.pow.pllLocked = true ∧ early.mainOn = false ∧ early.mc.mE ≠ [] ∧ early.idn.udsRead = true ∧ early.pow.inputLost = false ∧ (early.upd 1).state ≠ 4 := by decide +kernel
theorem test_main_power : (after (.mainPowerGood 0) (st early)).dev.mainOn = true := by decide +kernel
def booting : Dev := { intact base with mc := { base.mc with mB := [1] }, pow := { base.pow with near := false }, cores := {} }
theorem wit_boot_code : (st booting).bootCode = true ∧ booting.on 157 = true ∧ booting.pow.far = true ∧ ({ booting with pow := { booting.pow with far := false } } : Dev).pow.far = false := by decide +kernel
theorem wit_self_test : (booting.repairByte 3).testBit 7 = false ∧ 16 * 2 + 3 ∈ [35] ∧ ∀ k, k < 2 → 16 * k + 3 ∉ [35] := by decide +kernel
theorem test_self_test : (after (.basinSelfTest 0 [35]) (st booting)).dev.repairByte 3 = 194 := by decide +kernel
theorem wit_basin_fail : (let d := (after (.basinSelfTest 0 [35]) (st booting)).dev
    d.on 155 = true ∧ d.logicalOf 3 = some 3 ∧ (d.repairByte 3).testBit 7 = true) := by decide +kernel
theorem test_near_training : (after (.nearStoreTraining 0) (st booting)).dev.pow.near = true ∧ (after (.nearStoreTraining 0) (st booting)).dev.profile = 1 := by decide +kernel
theorem wit_latch_close : hits (st base) 0 2 (r0 .bootLatch) .write = true ∧ (st base).latchClosed = false := by decide +kernel
theorem test_latch_close : (after (.bootLatchClose 0 2 1) (st base)).latchClosed = true := by decide +kernel
def latched (d : Dev) : State := { st d with latchClosed := true }
def measured : Dev := { base with mc := { base.mc with mS := [1], mL := [1] }, cores := {} }
theorem wit_core_release : (latched measured).latchClosed = true ∧ measured.mainOn = true ∧ measured.mc.mS ≠ [] ∧ measured.mc.mL ≠ [] ∧ measured.pow.near = true ∧ measured.pow.far = true ∧ measured.cores.released = false ∧ measured.cores.steward = false := by decide +kernel
theorem test_core_release : (after (.coreRelease 0) (latched measured)).dev.cores.released = true := by decide +kernel

/-! ## Accesses -/

/-- Window 3 of two pages from page 8 on, which classes 2 and 4 may be granted. -/
def windowed : Dev := ((base.sf (r1 .pmapWin 3) F.pmapWin.BASE 8).sf (r1 .pmapWin 3) F.pmapWin.PAGES 2).sf (r1 .pmapWin 3) F.pmapWin.CLASSES 20
def grant0 (page cls acc : Nat) : Word := fput (fput (fput (fput 0 F.pmapGrant.WIN 3) F.pmapGrant.PAGE page) F.pmapGrant.CLASS cls) F.pmapGrant.ACCESS acc
theorem wit_grant : hits (st windowed) 0 2 (r0 .pmapGrant) .write = true ∧ fget (grant0 1 4 2) F.pmapGrant.WIN < 32 ∧ fget (grant0 1 4 2) F.pmapGrant.PAGE < windowed.f (r1 .pmapWin 3) F.pmapWin.PAGES ∧
    fget (grant0 1 4 2) F.pmapGrant.ACCESS ≠ 3 ∧ (windowed.f (r1 .pmapWin 3) F.pmapWin.CLASSES).testBit 4 = true := by decide +kernel
theorem test_grant : tget (after (.pmapGrant 0 2 (grant0 1 4 2)) (st windowed)).dev.grants 9 = some (4, 2) := by decide +kernel
theorem wit_grant_refused : ¬ (fget (grant0 2 4 2) F.pmapGrant.PAGE < windowed.f (r1 .pmapWin 3) F.pmapWin.PAGES) := by decide +kernel
theorem test_grant_refused : (after (.pmapGrant 0 2 (grant0 1 3 2)) (st windowed)).dev.fb (r0 .pmapGrant) F.pmapGrant.REFUSED = true := by decide +kernel
theorem wit_viol : hits (st (base.wn (r0 .pmapViol) 5)) 0 2 (r0 .pmapViol) .read = true := by decide +kernel
theorem wit_register : regAt (r1 .pbuCtxCfg 4).addr = some (r1 .pbuCtxCfg 4) ∧ (r1 .pbuCtxCfg 4).addr % 8 = 0 ∧ hits (st base) 0 2 (r1 .pbuCtxCfg 4) .write = true ∧ effectRegs.contains .pbuCtxCfg = false := by decide +kernel
theorem wit_register_latched : regAt (r1 .mbxBase 0).addr = some (r1 .mbxBase 0) ∧ (r1 .mbxBase 0).locks = true ∧ hits (latched (base.sf (r1 .pmapMbx 0) F.pmapMbx.INIT 4)) 0 2 (r1 .mbxBase 0) .write = true ∧
    (latched (base.sf (r1 .pmapMbx 0) F.pmapMbx.INIT 4)).beforeClose 100000 (r1 .mbxBase 0) = false := by decide +kernel
/-- A write to the map in the cycle of the latch's close finds it open (R420). -/
def closing : State := { latched base with closedAt := some 100000 }
theorem wit_before_close : regAt (r0 .pmapDebug).addr = some (r0 .pmapDebug) ∧ (r0 .pmapDebug).addr % (r0 .pmapDebug).bytes = 0 ∧ closing.beforeClose (closing.now 0) (r0 .pmapDebug) = true ∧
    effectRegs.contains .pmapDebug = false ∧ closing.dev.reaches false (closing.now 0) 2 (r0 .pmapDebug).addr (r0 .pmapDebug).bytes .write = true := by decide +kernel
theorem test_before_close : (let s := after (.registerWrite 0 2 (r0 .pmapDebug).addr (r0 .pmapDebug).bytes (fput 0 F.pmapDebug.APP 2)) closing
    s.dev.f (r0 .pmapDebug) F.pmapDebug.APP = 2 ∧ s.latchClosed = true) := by decide +kernel
/-- The window on the KV page records; a page's record lies at 32 bytes times its number (R243). -/
theorem wit_page_window : regAt (0x20980000 + 32 * 9) = none ∧ (st base).dev.reaches false 100000 2 (0x20980000 + 32 * 9) 4 .read = true := by decide +kernel
theorem test_page_window : (after (.memoryAccess 0 2 0 (0x20980000 + 32 * 9) 4 [] 0) (st swapping)).dev.bus = .data (bytesAt (swapping.pageRecord 9) 0 4) := by decide +kernel
theorem wit_memory : placeOf 0x810000000 16 = .main ∧ (st base).dev.memOk false 100000 2 0x810000000 16 .read = true ∧ (st base).dev.memOk false 100000 2 0x810000000 16 .write = true ∧ base.farHolds 0x810000000 16 = false := by decide +kernel
theorem wit_memory_held : placeOf 0x1000000040 16 = .main ∧ retraining.farHolds 0x1000000040 16 = true ∧ retraining.memOk false 100000 2 0x1000000040 16 .read = true := by decide +kernel
theorem test_memory_held : (after (.retrainWindowTimeout 3000000) (after (.memoryAccess 0 2 0 0x1000000040 2 [] 0) (st retraining))).dev.bus = .bytes [0, 0] := by decide +kernel
theorem wit_memory_denied : (latched base).dev.permits true 2 0x810000000 16 .read = false := by decide +kernel
theorem test_memory : (after (.memoryAccess 0 2 1 0x810000000 2 [1, 2] 0) (st base)).dev.mem.read 0x810000000 3 = [1, 2, 0] := by decide +kernel
theorem wit_memory_ecc : storeTier 0x1000000040 = 2 ∧ placeOf 0x1000000040 16 = .main ∧ (st base).dev.memOk false 100000 2 0x1000000040 16 .read = true ∧ base.farHolds 0x1000000040 16 = false := by decide +kernel
theorem test_memory_ecc : (let s := after (.memoryAccess 0 2 0 0x1000000044 4 [] 2) (st base)
    s.dev.bus = .accessFault ∧ s.dev.f (r0 .sluFarEccAddr) F.sluFarEccAddr.ADDR = 0x1000000040 ∧ s.dev.f (r0 .sluFarEcc) F.sluFarEcc.UE = 1) := by decide +kernel

end Sys2Proof.Tests
end

/-! ## O4: every step keeps device time, its fraction and IGNORED in range -/

namespace Sys2Proof.Machine

/-! ### What a step can do to time, the latch and IGNORED -/

/-- What every command keeps of the counters outside the device: DT and its fraction stay within them, and IGNORED is cleared, counts refused writes of
a closed latch, or stays as it is with the latch (R11, R29, R420). -/
structure KeepsCounters (s s' : State) : Prop where
  dt : s.dt ≤ dtMax → s'.dt ≤ dtMax
  frac : s.frac < 2 ^ 32 → s'.frac < 2 ^ 32
  latch : s'.ignored = 0 ∨ (s'.latchClosed = true ∧ s'.ignored ≤ 65535) ∨ (s'.latchClosed = s.latchClosed ∧ s'.ignored = s.ignored)

namespace KeepsCounters

/-- A state in range leads to a state in range. -/
theorem inRange {s s' : State} (k : KeepsCounters s s') (hs : s.inRange) : s'.inRange := by
  obtain ⟨hdt, hfrac, hign, hopen⟩ := hs
  refine ⟨k.dt hdt, k.frac hfrac, ?_⟩
  rcases k.latch with h | ⟨hl, hi⟩ | ⟨hl, hi⟩
  · simp [h]
  · simp [hl, hi]
  · rw [hl, hi]; exact ⟨hign, hopen⟩

/-- A write of the cycle of the close is applied with the latch open, and the latch is closed after it (R420). -/
theorem inRange_reclosed {s s' : State} (k : KeepsCounters { s with latchClosed := false } s') (hs : s.inRange) : ({ s' with latchClosed := true } : State).inRange := by
  obtain ⟨hdt, hfrac, hign, -⟩ := hs
  refine ⟨k.dt hdt, k.frac hfrac, ?_, nofun⟩
  rcases k.latch with h | ⟨-, h⟩ | ⟨-, h⟩ <;> simp only at h ⊢ <;> omega

/-- A command's time and any change of the device and of one-time-programmable memory. -/
theorem at_now (s : State) (t : Nat) (otp : Otp) (d : Dev) : KeepsCounters s { s with dt := s.now t, otp := otp, dev := d } :=
  ⟨s.now_le t, id, .inr (.inr ⟨rfl, rfl⟩)⟩

/-- The loss of power or a cold reset: DT counts from 0, the latch opens or stays. -/
theorem offline (s : State) {latch : Bool} (d : Dev) (h : latch = false ∨ latch = s.latchClosed) : KeepsCounters s (s.offline latch d) := by
  refine ⟨fun _ => Nat.zero_le _, fun _ => Nat.two_pow_pos 32, ?_⟩
  cases latch with
  | false => exact .inl rfl
  | true => exact .inr (.inr ⟨h.resolve_left nofun, rfl⟩)

theorem of_run {s s' : State} {t : Nat} {f : Nat → Dev → Dev} (h : s.run t f = .next s') : KeepsCounters s s' := by
  cases h
  exact at_now s t s.otp _

end KeepsCounters

/-! ### The commands that change the device and the time alone -/

/-- An operation on a cell, by a port or by a stage, changes the device and the time alone. -/
theorem cellCommand_next (t : Nat) (via : CellVia) (op cell arg rsvd : Nat) (s : State) : ∃ d, cellCommand t via op cell arg rsvd s = .next { s with dt := s.now t, dev := d } := by
  cases via with
  | port c n => exact ⟨_, rfl⟩
  | stage ctx dl => exact ⟨_, rfl⟩

/-- The commands that may change more than the device and the time: the servo's jump, resets, power, the latch, one-time-programmable memory, and the
accesses through which an initiator reaches these. -/
def actsOutside (i : Instr) : Bool :=
  match i with
  | .servoUpdate .. | .counterAdvance .. | .updateConfirm .. | .mcStart .. | .earlyDomainRelease .. | .bootLatchClose .. | .coldReset .. | .mainDomainReset ..
  | .processorOff .. | .overtempShutdown .. | .registerWrite .. | .memoryAccess .. | .memWrite .. => true
  | _ => false

/-- Every other command acts on the device at its instant and changes nothing else. -/
theorem exec_next_of_not_actsOutside (i : Instr) (s : State) (h : actsOutside i = false) : ∃ d, exec i s = .next { s with dt := s.now (commandTime i), dev := d } := by
  cases i with
  | servoUpdate | counterAdvance | updateConfirm | mcStart | earlyDomainRelease | bootLatchClose | coldReset | mainDomainReset
  | processorOff | overtempShutdown | registerWrite | memoryAccess | memWrite => exact Bool.noConfusion h
  | acquire | tryAcquire | cellRelease | arrive | arriveWait | flagSet | flagClear | waitAny | waitAll | read => exact cellCommand_next ..
  | _ => exact ⟨_, rfl⟩

/-! ### The servo, one-time-programmable memory, resets and the latch -/

/-- The jump of the first lock is cut to what is left of the counter (log entry 60). -/
theorem Dev.offsetWrite_le (d : Dev) (now : Nat) (e : Int) : (d.offsetWrite now e).1 ≤ dtMax - now := by
  unfold Dev.offsetWrite
  split
  · exact Nat.zero_le _
  · dsimp only
    split
    · split
      · exact Nat.min_le_right ..
      · exact Nat.zero_le _
    · exact Nat.zero_le _

theorem execServoUpdate_keepsCounters {t c : Nat} {off : Word} {s s' : State} (h : execServoUpdate t c off s = .next s') : KeepsCounters s s' := by
  unfold execServoUpdate at h
  dsimp only at h
  split at h <;> cases h
  · exact ⟨fun hdt => (Nat.le_sub_iff_add_le' (s.now_le t hdt)).mp (Dev.offsetWrite_le ..), id, .inr (.inr ⟨rfl, rfl⟩)⟩
  · exact .at_now s t s.otp _

theorem execMcStart_keepsCounters {t ns v1 : Nat} {s s' : State} (h : execMcStart t ns v1 s = .next s') : KeepsCounters s s' := by
  unfold execMcStart at h
  dsimp only at h
  split at h
  · cases h; split
    · exact .at_now s t s.otp s.dev
    · exact .at_now s t ..
  · split at h <;> cases h
    · split
      · exact .at_now s t s.otp _
      · exact .at_now s t ..
    · exact .at_now s t s.otp s.dev

theorem execEarlyDomainRelease_keepsCounters {t : Nat} {vin : F32} {bank module : Nat} {s s' : State} (h : execEarlyDomainRelease t vin bank module s = .next s') :
    KeepsCounters s s' := by
  unfold execEarlyDomainRelease at h
  dsimp only at h
  split at h <;> cases h
  · exact ⟨fun _ => Nat.zero_le _, fun _ => Nat.two_pow_pos 32, .inr (.inr ⟨rfl, rfl⟩)⟩
  · exact .at_now s t s.otp s.dev

theorem execBootLatchClose_keepsCounters {t c v : Nat} {s s' : State} (h : execBootLatchClose t c v s = .next s') : KeepsCounters s s' := by
  unfold execBootLatchClose at h
  dsimp only at h
  split at h
  · split at h <;> cases h
    · exact ⟨s.now_le t, id, .inl rfl⟩
    · exact .at_now s t s.otp _
  · cases h; exact .at_now s t s.otp _

theorem execColdReset_keepsCounters {t : Nat} {s s' : State} (h : execColdReset t s = .next s') : KeepsCounters s s' := by
  unfold execColdReset at h
  dsimp only at h
  split at h <;> cases h
  · exact .offline s _ (.inl rfl)
  · exact .at_now s t s.otp s.dev

theorem execMainDomainReset_keepsCounters {t : Nat} {s s' : State} (h : execMainDomainReset t s = .next s') : KeepsCounters s s' := by
  unfold execMainDomainReset at h
  dsimp only at h
  split at h <;> cases h
  · exact ⟨s.now_le t, id, .inl rfl⟩
  · exact .at_now s t s.otp s.dev

theorem execProcessorOff_keepsCounters {t : Nat} {s s' : State} (h : execProcessorOff t s = .next s') : KeepsCounters s s' := by
  unfold execProcessorOff at h
  dsimp only at h
  split at h <;> cases h
  · exact .offline s _ (.inl rfl)
  · exact .at_now s t s.otp s.dev

theorem execOvertempShutdown_keepsCounters {t : Nat} {v : F32} {s s' : State} (h : execOvertempShutdown t v s = .next s') : KeepsCounters s s' := by
  unfold execOvertempShutdown at h
  dsimp only at h
  split at h <;> cases h
  · exact .offline s _ (.inr rfl)
  · exact .at_now s t s.otp s.dev

/-! ### Accesses -/

/-- A write with the latch as it is: a locked register's is refused and counted, another's is the row's of its own or a run on the device (R420). -/
theorem State.latchedWrite_keepsCounters {s s' : State} {t c : Nat} {r : Reg} {v : Word} (h : s.latchedWrite t c r v = .next s') : KeepsCounters s s' := by
  unfold State.latchedWrite at h
  dsimp only at h
  split at h
  · next hlocked =>
    obtain ⟨-, hclosed⟩ := (Bool.and_eq_true ..).mp hlocked
    split at h <;> cases h
    · exact ⟨s.now_le t, id, .inr (.inl ⟨hclosed, Nat.min_le_left ..⟩)⟩
    · exact .at_now s t s.otp _
  · -- The registers whose write changes more than the device and the time: TIME_SERVO_OFFSET, first, and BOOT_LATCH, tenth.
    split at h
    case h_1 => exact execServoUpdate_keepsCounters h
    case h_10 => exact execBootLatchClose_keepsCounters h
    all_goals cases h; exact .at_now s t s.otp _

theorem State.writeReg_keepsRange {s s' : State} {t c : Nat} {r : Reg} {v : Word} (hs : s.inRange) (h : s.writeReg t c r v = .next s') : s'.inRange := by
  unfold State.writeReg at h
  split at h
  · split at h
    · next hw => cases h; exact (State.latchedWrite_keepsCounters hw).inRange_reclosed hs
    · next hw => exact absurd h (hw s')
  · exact (State.latchedWrite_keepsCounters h).inRange hs

/-- An access to a register block: a read or a refused access acts on the device alone, a write is writeReg's. -/
theorem State.blockAccess_keepsRange {s s' : State} {t c a n : Nat} {x : Acc} {v : Word} (hs : s.inRange) (h : s.blockAccess t c a n x v = .next s') : s'.inRange := by
  unfold State.blockAccess at h
  split at h
  · split at h
    · cases x with
      | read => cases h; exact (KeepsCounters.at_now s t s.otp _).inRange hs
      | write => exact State.writeReg_keepsRange hs h
      | exec => exact (KeepsCounters.of_run h).inRange hs
    · exact (KeepsCounters.of_run h).inRange hs
  · split at h <;> exact (KeepsCounters.of_run h).inRange hs

theorem State.access_keepsRange {s s' : State} {t c a n ecc : Nat} {x : Acc} {bs : List Byte} (hs : s.inRange) (h : s.access t c a n x bs ecc = .next s') : s'.inRange := by
  unfold State.access at h
  split at h
  case h_1 => exact State.blockAccess_keepsRange hs h
  all_goals exact (KeepsCounters.of_run h).inRange hs

theorem State.debugAccess_inRange {s : State} {t a n : Nat} {x : Acc} {bs : List Byte} (hs : s.inRange) : (s.debugAccess t a n x bs).inRange := by
  unfold State.debugAccess
  split
  · next h => exact State.access_keepsRange hs h
  · exact hs

theorem execMemWrite_keepsRange {t : Nat} {p : UlzilPacket} {s s' : State} (hs : s.inRange) (h : execMemWrite t p s = .next s') : s'.inRange := by
  unfold execMemWrite at h
  dsimp only at h
  obtain ⟨hdt, hfrac, hign, hopen⟩ := State.debugAccess_inRange (t := t) (a := p.addr) (n := p.payload.length) (x := .write) (bs := p.payload) hs
  cases h
  split
  · exact ⟨max_le hdt (s.now_le t hs.1), hfrac, hign, hopen⟩
  · exact (KeepsCounters.at_now s t s.otp _).inRange hs

/-! ### Every command, and the time-base cycle -/

theorem exec_keepsRange {i : Instr} {s s' : State} (hs : s.inRange) (h : exec i s = .next s') : s'.inRange := by
  cases hi : actsOutside i with
  | false =>
    obtain ⟨d, hd⟩ := exec_next_of_not_actsOutside i s hi
    cases hd.symm.trans h
    exact (KeepsCounters.at_now s _ s.otp d).inRange hs
  | true =>
    cases i with
    | servoUpdate => exact (execServoUpdate_keepsCounters h).inRange hs
    | counterAdvance | updateConfirm => cases h; exact (KeepsCounters.at_now s ..).inRange hs
    | mcStart => exact (execMcStart_keepsCounters h).inRange hs
    | earlyDomainRelease => exact (execEarlyDomainRelease_keepsCounters h).inRange hs
    | bootLatchClose => exact (execBootLatchClose_keepsCounters h).inRange hs
    | coldReset => exact (execColdReset_keepsCounters h).inRange hs
    | mainDomainReset => exact (execMainDomainReset_keepsCounters h).inRange hs
    | processorOff => exact (execProcessorOff_keepsCounters h).inRange hs
    | overtempShutdown => exact (execOvertempShutdown_keepsCounters h).inRange hs
    | registerWrite => exact State.blockAccess_keepsRange hs h
    | memoryAccess => exact State.access_keepsRange hs h
    | memWrite => exact execMemWrite_keepsRange hs h
    | _ => exact Bool.noConfusion hi

theorem cycleAdvance_frac_lt (frac : Nat) (rate : Int) : (cycleAdvance frac rate).2 < 2 ^ 32 := by
  have h : ((4294967296 + frac + rate : Int) % 4294967296).toNat < 4294967296 := by omega
  exact h

theorem timeBaseCycle_keepsCounters {s s' : State} (h : timeBaseCycle s = .next s') : KeepsCounters s s' := by
  unfold timeBaseCycle at h
  split at h
  · cases h; exact ⟨id, id, .inr (.inr ⟨rfl, rfl⟩)⟩
  · dsimp only at h
    split at h <;> cases h
    next hle => exact ⟨fun _ => hle, fun _ => cycleAdvance_frac_lt .., .inr (.inr ⟨rfl, rfl⟩)⟩

/-- Settles O4: every command keeps the counters, whatever its effect on the device, and so does the time-base cycle of an empty queue. -/
theorem stepKeepsRange : Obligations.StepKeepsRange := by
  unfold Obligations.StepKeepsRange
  intro s s' hs h
  unfold step at h
  split at h
  · exact (timeBaseCycle_keepsCounters h).inRange hs
  · next c rest _ => exact exec_keepsRange (s := { s with pending := rest }) hs h

end Sys2Proof.Machine

/-! ## O10: a MATRIX that spills its sheet charges its class, so it does not keep the registers -/

namespace Sys2Proof.SpilledSheet

open Sys2Proof Sys2Proof.Machine

/-- The word of a MATRIX stage that drains its accumulators: result entry 1, no second input and no parameters, FP32 throughout. -/
def drainWord : Nat := 1 * 2 ^ 122 + 2 * 2 ^ 97 + 63 * 2 ^ 84 + 1 * 2 ^ 78 + 63 * 2 ^ 72

/-- The attention record of basin 255 (R361): one head of dimension 64, a sheet of FP32 scores, up to 4,096 keys, four query rows. -/
def attention : List Byte := leBytes 4 (255 + 1 * 2 ^ 8 + 64 * 2 ^ 11) ++ leBytes 4 4096 ++ leBytes 4 4

/-- A bound cascade of context 0 with that record and the area in T1 reserved for its spilled sheets (R217). -/
def cascade : Cascade :=
  { ctx := 0, basins := [], ceil := [], cells := [], packs := [], windows := [], spills := [], lists := [], attn := [attention], split := ⟨0, 0, 1, [], 0⟩,
    taken := [(1, 0x810000000)], bound := true }

/-- A sequence of 4,096 tokens: two key blocks of 2,048 keys, of which the first one's sheet spills (R217). -/
def sequence : KvSeq :=
  { ctx := 0, mbx := 0, seq := 4, key := {}, domain := 0, layers := 1, groups := 1, fmt := 0, headDim := 64, prompt := [], fork := none, len := 4096 }

/-- A scoreboard entry of two slots of 256 bytes from a line of the basin store on. -/
def entry (kind base : Nat) (readyQ : List (Nat × Nat)) (freeQ : List Nat) : SbEntry :=
  { kind := kind, latest := false, slots := 2, base := base, size := 256, peer := 200, peerEntry := 3, peerModule := 0, remote := false, readyQ := readyQ, freeQ := freeQ, credits := 0,
    tokens := 0 }

/-- A basin of context 0 whose stage 0 runs the drain into slot 0 of entry 1 and has not worked yet. -/
def basin : Basin :=
  { ctx := 0, header := 2 ^ 44, stages := [drainWord],
    entries := [(0, entry 0 0 [(1, 5)] [0]), (1, entry 1 8 [] [1])],
    running := [(0, { slotA := 1, slotB := none, slotOut := 0, slotParam := none, dim0 := 4, dim1 := 1, dim2 := 1, at_ := 5, worked := false, sent := 0 })] }

/-- A powered device with context 0 of class 2 running on that basin, and the sequence in slot 0. -/
def device : Dev :=
  (({ pow := { on := List.range 172, pllLocked := true, mainGood := true, near := true, far := true },
      fab := { ctxs := [(0, { mbx := 0, cls := 2, seed := 0, basins := [255] })], basins := [(255, basin)], cascades := [(1, cascade)] },
      kv := { seqs := [(0, sequence)] } } : Dev).sf (r1 .pbuCtxCfg 0) F.pbuCtxCfg.CLASS 2).sf (r1 .pbuCtxCfg 0) F.pbuCtxCfg.STATE 2

/-- That device at DT 100,000, nothing in the queue. -/
def start : State := { State.reset with dt := 100000, dev := device }

/-- The drain of the scores of the first key block. -/
def drain : Instr := .matrix 0 255 0 (.scores 0 0 0 0 0 4)

/-- The count of descriptors charged to class 2, which the spilled sheet's descriptor raises (R83, R217). -/
def descriptors : Reg := r2 .pbuClassUsed 2 7

/-- The counterexample lies in the domain of the statements: the command is well formed, it is one whose registers O10 freezes, and the state is in range. -/
theorem drain_wellFormed : wellFormed drain = true ∧ keepsRegisters drain = true ∧ start.inRange := by
  unfold State.inRange
  decide +kernel

theorem start_descriptors : start.dev.rn descriptors = 0 := by decide +kernel

/-- The drain spills the first block's sheet and charges one descriptor. -/
theorem drain_charges_descriptor : Answers drain start fun s' => s'.dev.rn descriptors = 1 :=
  ⟨_, rfl, by decide +kernel⟩

/-- Refutes O10: a MATRIX that drains the scores of a key block before the sequence's last one spills the sheet to T1 and charges near-store bytes and a
descriptor to its class (R83, R217), in the PBU's registers. -/
theorem not_memoryAndRegisterFrames : ¬ Obligations.MemoryAndRegisterFrames := by
  unfold Obligations.MemoryAndRegisterFrames
  intro h
  obtain ⟨-, hkeeps, -⟩ := drain_wellFormed
  obtain ⟨s', hs', hused⟩ := drain_charges_descriptor
  obtain ⟨-, -, hregs⟩ := h drain start s' hs'
  have hsame : s'.dev.rn descriptors = start.dev.rn descriptors := by unfold Dev.rn; rw [hregs hkeeps]
  rw [hused, start_descriptors] at hsame
  exact absurd hsame (by decide)

end Sys2Proof.SpilledSheet

/-! ## O53: the events of the loop engines, and waits that expire -/

namespace Sys2Proof.Machine

/-! ### Engines -/

@[simp] theorem Dev.eng_setEng (d : Dev) (n : Nat) (e : Engine) : (d.setEng n e).eng n = e := tgetD_tset ..
theorem Dev.eng_setEng_ne {d : Dev} {k n : Nat} {e : Engine} (h : k ≠ n) : (d.setEng n e).eng k = d.eng k := tgetD_tset_ne h
@[simp] theorem Dev.eng_modEng (d : Dev) (n : Nat) (f : Engine → Engine) : (d.modEng n f).eng n = f (d.eng n) := Dev.eng_setEng ..
theorem Dev.eng_modEng_ne {d : Dev} {k n : Nat} {f : Engine → Engine} (h : k ≠ n) : (d.modEng n f).eng k = d.eng k := Dev.eng_setEng_ne h
theorem Dev.eng_of_le {d d' : Dev} (h : d'.le = d.le) (n : Nat) : d'.eng n = d.eng n := by unfold Dev.eng; rw [h]

/-! ### Registers and pending interrupts -/

theorem Dev.rd_of_regs {d d' : Dev} (h : d'.regs = d.regs) (r : Reg) : d'.rd r = d.rd r := by unfold Dev.rd; rw [h]
theorem Dev.rn_of_rd {d d' : Dev} {r : Reg} (h : d'.rd r = d.rd r) : d'.rn r = d.rn r := congrArg BitVec.toNat h
theorem Dev.f_of_rd {d d' : Dev} {r : Reg} (h : d'.rd r = d.rd r) (x : Fld) : d'.f r x = d.f r x := congrArg (fget · x) h
theorem Dev.fb_of_rd {d d' : Dev} {r : Reg} (h : d'.rd r = d.rd r) (x : Fld) : d'.fb r x = d.fb r x := congrArg (fget · x == 1) h
theorem Reg.ne_of_name {q r : Reg} (h : q.name ≠ r.name) : q ≠ r := fun e => h (e ▸ rfl)

/-- An event leaves every pending source pending (R377). -/
theorem Dev.raise_keeps {d : Dev} {x y : Nat} (h : d.eic.pend.contains y = true) : (d.raise x).eic.pend.contains y = true := by
  unfold Dev.raise
  split
  · simpa using Or.inr (by simpa using h)
  · exact h

/-! ### The completion of a request -/

theorem Dev.cplEntry_rd {d : Dev} {now m w tag ctx st de : Nat} {b : List Byte} {r : Reg} (h : r.name ≠ .mbxCpl) :
    (d.cplEntry now m w tag ctx st de b).rd r = d.rd r := by
  unfold Dev.cplEntry
  exact (Dev.rd_of_regs (Dev.raise_regs ..) r).trans (Dev.rd_sf_ne (Reg.ne_of_name h))

theorem Dev.cplEntry_pend {d : Dev} {now m w tag ctx st de : Nat} {b : List Byte} {x : Nat} (h : d.eic.pend.contains x = true) :
    (d.cplEntry now m w tag ctx st de b).eic.pend.contains x = true := by
  unfold Dev.cplEntry
  exact Dev.raise_keeps h

theorem Dev.cplEntry_inflight (d : Dev) (now m w tag ctx st de : Nat) (b : List Byte) :
    (d.cplEntry now m w tag ctx st de b).stew.inflight = d.stew.inflight := by
  unfold Dev.cplEntry; simp

/-- A written entry is the newest completion (R347, R349). -/
theorem Dev.cplEntry_cpls (d : Dev) (now m w tag ctx st de : Nat) (b : List Byte) :
    (d.cplEntry now m w tag ctx st de b).stew.cpls =
      { mbx := m, code := bits w 0 16, tag := tag, ctx := ctx, status := st, detail := de, dt := now, seq := d.cntOf (0x2000 + m), result := b } :: d.stew.cpls := by
  unfold Dev.cplEntry; simp [Dev.draw]

/-- Waiting notices are written as further entries of the ring, or not at all: no request in flight, no register but the ring's TAIL and no pending
source is lost (R359). -/
structure Notices (d d' : Dev) : Prop where
  inflight : d'.stew.inflight = d.stew.inflight
  cpls : ∃ later, d'.stew.cpls = later ++ d.stew.cpls
  rd : ∀ r : Reg, r.name ≠ .mbxCpl → d'.rd r = d.rd r
  pend : ∀ x, d.eic.pend.contains x = true → d'.eic.pend.contains x = true

theorem Notices.refl (d : Dev) : Notices d d := ⟨rfl, ⟨[], rfl⟩, fun _ _ => rfl, fun _ h => h⟩

theorem Notices.trans {d d' d'' : Dev} (a : Notices d d') (b : Notices d' d'') : Notices d d'' := by
  obtain ⟨l, hl⟩ := a.cpls
  obtain ⟨k, hk⟩ := b.cpls
  exact ⟨b.inflight.trans a.inflight, ⟨k ++ l, by rw [hk, hl, List.append_assoc]⟩, fun r h => (b.rd r h).trans (a.rd r h), fun x h => b.pend x (a.pend x h)⟩

theorem Dev.flushNotice_notices (d : Dev) (now m : Nat) : Notices d (d.flushNotice now m) := by
  unfold Dev.flushNotice
  split
  · exact .refl d
  · split
    · exact ⟨Dev.cplEntry_inflight .., ⟨[_], Dev.cplEntry_cpls ..⟩, fun _ h => Dev.cplEntry_rd h, fun _ h => Dev.cplEntry_pend h⟩
    · exact .refl d

theorem Dev.flushNotices_notices (d : Dev) (now m k : Nat) : Notices d (d.flushNotices now m k) := by
  induction k generalizing d with
  | zero => exact .refl d
  | succ k ih => exact (d.flushNotice_notices now m).trans (ih _)

theorem Dev.syncInflight_rd {d : Dev} {m : Nat} {r : Reg} (h : r.name ≠ .mbxStat) : (d.syncInflight m).rd r = d.rd r :=
  Dev.rd_sf_ne (Reg.ne_of_name h)

theorem Dev.finish_rd {d : Dev} {now de : Nat} {q : Req} {st : Status} {b : List Byte} {r : Reg} (h : r.name ≠ .mbxCpl) (h' : r.name ≠ .mbxStat) :
    (d.finish now q st de b).rd r = d.rd r := by
  unfold Dev.finish
  rw [(Dev.flushNotices_notices _ now q.mbx 64).rd r h, Dev.syncInflight_rd h', Dev.cplEntry_rd h]
  rfl

theorem Dev.finish_pend {d : Dev} {now de : Nat} {q : Req} {st : Status} {b : List Byte} {x : Nat} (h : d.eic.pend.contains x = true) :
    (d.finish now q st de b).eic.pend.contains x = true := by
  unfold Dev.finish
  apply (Dev.flushNotices_notices _ now q.mbx 64).pend
  rw [Dev.syncInflight_eic]
  exact Dev.cplEntry_pend h

theorem Dev.finishAt_rd {d : Dev} {now de : Nat} {ms : Nat × Nat} {st : Status} {b : List Byte} {r : Reg} (h : r.name ≠ .mbxCpl) (h' : r.name ≠ .mbxStat) :
    (d.finishAt now ms st de b).rd r = d.rd r := by
  unfold Dev.finishAt
  split
  · exact Dev.finish_rd h h'
  · rfl

theorem Dev.finishAt_pend {d : Dev} {now de : Nat} {ms : Nat × Nat} {st : Status} {b : List Byte} {x : Nat} (h : d.eic.pend.contains x = true) :
    (d.finishAt now ms st de b).eic.pend.contains x = true := by
  unfold Dev.finishAt
  split
  · exact Dev.finish_pend h
  · exact h

theorem Dev.windowStatus_of_eq {d d' : Dev} (hf : d'.fab = d.fab) (hp : d'.pbu = d.pbu) (ctx : Nat) (st : Status) : d'.windowStatus ctx st = d.windowStatus ctx st := by
  unfold Dev.windowStatus Dev.ctx? Dev.windowOpen
  rw [hf, hp]

/-- The version word of a completion carries the request's code (R349). -/
theorem Dev.cplWord0_code (d : Dev) (r : Req) : bits (d.cplWord0 r) 0 16 = r.code := by
  have hlt : r.code < 2 ^ 16 := Nat.mod_lt _ (Nat.two_pow_pos _)
  unfold Dev.cplWord0 bits
  omega

/-- A request that is finished is served (R347). -/
theorem Dev.finish_served {old d : Dev} (h : d.stew.cpls = old.stew.cpls) (now : Nat) (r : Req) (st : Status) (de : Nat) (b : List Byte) :
    served old (d.finish now r st de b) r st de b := by
  have hstatus := Dev.windowStatus_of_eq (Dev.finish_fab d now r st de b) (Dev.finish_pbu d now r st de b) r.ctx st
  constructor
  · unfold gone Dev.req? Dev.finish
    rw [(Dev.flushNotices_notices _ now r.mbx 64).inflight, Dev.syncInflight_stew, Dev.cplEntry_inflight]
    exact List.find?_eq_none.mpr fun x hx => by simpa only [Bool.not_eq_true, Bool.not_eq_true'] using (List.mem_filter.mp hx).2
  · unfold wrote
    rw [hstatus]
    unfold Dev.finish
    obtain ⟨later, hl⟩ := (Dev.flushNotices_notices _ now r.mbx 64).cpls
    rw [hl, Dev.syncInflight_stew, Dev.cplEntry_cpls]
    exact ⟨later, [], _, (List.append_cons later _ d.stew.cpls).trans (congrArg _ h), rfl, Dev.cplWord0_code .., rfl, rfl, rfl, rfl, rfl⟩

theorem Dev.finishAt_served {old d : Dev} {ms : Nat × Nat} {r : Req} (h : d.stew = old.stew) (hr : old.req? ms.1 ms.2 = some r) (now : Nat) (st : Status) (de : Nat)
    (b : List Byte) : served old (d.finishAt now ms st de b) r st de b := by
  have hd : d.req? ms.1 ms.2 = some r := by unfold Dev.req? at hr ⊢; rwa [h]
  unfold Dev.finishAt
  rw [hd]
  exact Dev.finish_served (by rw [h]) ..

/-! ### The flags of LE_ENGn_STAT -/

theorem Dev.leFlag_le (d : Dev) (n : Nat) (x : Fld) (on : Bool) : (d.leFlag n x on).le = d.le := by unfold Dev.leFlag; split <;> simp
theorem Dev.leFlag_mem (d : Dev) (n : Nat) (x : Fld) (on : Bool) : (d.leFlag n x on).mem = d.mem := by unfold Dev.leFlag; split <;> simp
theorem Dev.leFlag_pow (d : Dev) (n : Nat) (x : Fld) (on : Bool) : (d.leFlag n x on).pow = d.pow := by unfold Dev.leFlag; split <;> simp
theorem Dev.leFlag_cue (d : Dev) (n : Nat) (x : Fld) (on : Bool) : (d.leFlag n x on).cue = d.cue := by unfold Dev.leFlag; split <;> simp
theorem Dev.leFlag_rd {d : Dev} {n : Nat} {x : Fld} {on : Bool} {r : Reg} (h : r ≠ r1 .leEngStat n) : (d.leFlag n x on).rd r = d.rd r := by
  unfold Dev.leFlag
  split
  · exact (Dev.rd_of_regs (Dev.raise_regs ..) r).trans (Dev.rd_sf_ne h)
  · rfl

/-- A flag of LE_ENGn_STAT that is set reads 1. -/
theorem Dev.fb_leFlag (d : Dev) (n : Nat) {x : Fld} (h : x.ok) (hw : x.w = 1) : (d.leFlag n x true).fb (r1 .leEngStat n) x = true := by
  unfold Dev.leFlag
  cases hf : d.fb (r1 .leEngStat n) x with
  | true => exact hf
  | false =>
    have hset : (d.sf (r1 .leEngStat n) x 1).f (r1 .leEngStat n) x = 1 := by rw [Dev.f_sf d _ 1 h, hw]; rfl
    simp only [Bool.not_false, Bool.and_self, if_true]
    rw [Dev.fb_of_rd (Dev.rd_of_regs (Dev.raise_regs ..) _)]
    exact beq_iff_eq.mpr hset

/-! ### What the parts of a tick keep -/

/-- The registers that hold the instants of an engine's tick and of its holding. -/
def RegName.isTickStamp (x : RegName) : Bool := x == .leEngTickAt || x == .leEngHoldAt

theorem RegName.ne_of_isTickStamp {x y : RegName} (hx : x.isTickStamp = true) (hy : y.isTickStamp = false) : x ≠ y := fun e => by simp [e, hy] at hx

/-- What the parts of an engine's tick after its latch keep, but for the start of holding: the cues, the instants of the tick and of holding, the latched
states, whether the engine holds, the pending sources, and the slots armed while it does not hold. -/
structure TickFrame (n : Nat) (d d' : Dev) : Prop where
  cue : d'.cue = d.cue
  stamps : ∀ r : Reg, r.name.isTickStamp = true → d'.rd r = d.rd r
  latched : (d'.eng n).latched = (d.eng n).latched
  holding : (d'.eng n).holding = (d.eng n).holding
  slots : (d.eng n).holding = false → (d'.eng n).armed.map ArmedLaw.slot = (d.eng n).armed.map ArmedLaw.slot
  pend : ∀ x, d.eic.pend.contains x = true → d'.eic.pend.contains x = true

namespace TickFrame

variable {n : Nat} {d d' d'' : Dev}

theorem refl (n : Nat) (d : Dev) : TickFrame n d d := ⟨rfl, fun _ _ => rfl, rfl, rfl, fun _ => rfl, fun _ h => h⟩

theorem trans (a : TickFrame n d d') (b : TickFrame n d' d'') : TickFrame n d d'' :=
  ⟨b.cue.trans a.cue, fun r h => (b.stamps r h).trans (a.stamps r h), b.latched.trans a.latched, b.holding.trans a.holding,
    fun h => (b.slots (a.holding.trans h)).trans (a.slots h), fun x h => b.pend x (a.pend x h)⟩

/-- A part that leaves the engines alone. -/
theorem of_le (hle : d'.le = d.le) (hcue : d'.cue = d.cue) (hrd : ∀ r : Reg, r.name.isTickStamp = true → d'.rd r = d.rd r)
    (hpend : ∀ x, d.eic.pend.contains x = true → d'.eic.pend.contains x = true) : TickFrame n d d' := by
  have he : d'.eng n = d.eng n := Dev.eng_of_le hle n
  exact ⟨hcue, hrd, by rw [he], by rw [he], fun _ => by rw [he], hpend⟩

/-- A part that changes the engine beside what is kept. -/
theorem setEng {e : Engine} (hl : e.latched = (d.eng n).latched) (hh : e.holding = (d.eng n).holding)
    (hs : (d.eng n).holding = false → e.armed.map ArmedLaw.slot = (d.eng n).armed.map ArmedLaw.slot) : TickFrame n d (d.setEng n e) :=
  ⟨rfl, fun _ _ => rfl, by simpa using hl, by simpa using hh, by simpa using hs, fun _ h => h⟩

theorem sf {r : Reg} (x : Fld) (k : Nat) (h : r.name.isTickStamp = false) : TickFrame n d (d.sf r x k) :=
  of_le rfl rfl (fun _ hq => Dev.rd_sf_ne (Reg.ne_of_name (RegName.ne_of_isTickStamp hq h))) fun _ h => h

theorem wn {r : Reg} (k : Nat) (h : r.name.isTickStamp = false) : TickFrame n d (d.wn r k) :=
  of_le rfl rfl (fun _ hq => Dev.rd_wn_ne (Reg.ne_of_name (RegName.ne_of_isTickStamp hq h))) fun _ h => h

theorem ite {c : Prop} [Decidable c] {e e' : Dev} (h : TickFrame n d e) (h' : TickFrame n d e') : TickFrame n d (if c then e else e') := by
  split <;> assumption

theorem free (k : Nat) : TickFrame n d { d with free := k } := of_le rfl rfl (fun _ _ => rfl) fun _ h => h

theorem draw (x dt : Nat) : TickFrame n d (d.draw x dt).2 := of_le rfl rfl (fun _ _ => rfl) fun _ h => h

theorem raise (x : Nat) : TickFrame n d (d.raise x) := of_le (Dev.raise_le ..) (Dev.raise_cue ..) (fun r _ => Dev.rd_of_regs (Dev.raise_regs ..) r) fun _ h => Dev.raise_keeps h

theorem leFlag (k : Nat) (x : Fld) (on : Bool) : TickFrame n d (d.leFlag k x on) := by
  unfold Dev.leFlag
  exact ite ((sf _ _ rfl).trans (raise _)) (refl n d)

theorem syncEng (k : Nat) : TickFrame n d (d.syncEng k) := by
  unfold Dev.syncEng
  exact ((sf _ _ rfl).trans (sf _ _ rfl)).trans (sf _ _ rfl)

theorem finishAt (now : Nat) (ms : Nat × Nat) (st : Status) (de : Nat) (b : List Byte) : TickFrame n d (d.finishAt now ms st de b) :=
  of_le (Dev.finishAt_le ..) (Dev.finishAt_cue ..) (fun _ hr => Dev.finishAt_rd (RegName.ne_of_isTickStamp hr rfl) (RegName.ne_of_isTickStamp hr rfl))
    fun _ h => Dev.finishAt_pend h

theorem setSquall (now v : Nat) : TickFrame n d (d.setSquall now v) := (wn (r := r0 .pbuSquallCfg) v rfl).trans (of_le rfl rfl (fun _ _ => rfl) fun _ h => h)

end TickFrame

/-! ### The end of an injection and of a capture -/

/-- Bytes written to a place change memory and flash alone. -/
theorem Dev.locPut_eq (d : Dev) (l : Loc) (off n : Nat) (rel : Memory) : ∃ mem slu, d.locPut l off n rel = { d with mem := mem, slu := slu } := by
  unfold Dev.locPut
  generalize d.pieces l off n = ps
  induction ps generalizing d with
  | nil => exact ⟨d.mem, d.slu, rfl⟩
  | cons p ps ih =>
    rw [List.foldl_cons]
    dsimp only
    split
    · exact ih { d with slu := _ }
    · exact ih { d with mem := _ }

theorem Dev.locPut_regs (d : Dev) (l : Loc) (off n : Nat) (rel : Memory) : (d.locPut l off n rel).regs = d.regs := by
  obtain ⟨_, _, h⟩ := d.locPut_eq l off n rel; rw [h]
theorem Dev.locPut_cue (d : Dev) (l : Loc) (off n : Nat) (rel : Memory) : (d.locPut l off n rel).cue = d.cue := by
  obtain ⟨_, _, h⟩ := d.locPut_eq l off n rel; rw [h]
theorem Dev.locPut_eic (d : Dev) (l : Loc) (off n : Nat) (rel : Memory) : (d.locPut l off n rel).eic = d.eic := by
  obtain ⟨_, _, h⟩ := d.locPut_eq l off n rel; rw [h]
theorem Dev.locPut_stew (d : Dev) (l : Loc) (off n : Nat) (rel : Memory) : (d.locPut l off n rel).stew = d.stew := by
  obtain ⟨_, _, h⟩ := d.locPut_eq l off n rel; rw [h]
theorem Dev.locPut_le (d : Dev) (l : Loc) (off n : Nat) (rel : Memory) : (d.locPut l off n rel).le = d.le := by
  obtain ⟨_, _, h⟩ := d.locPut_eq l off n rel; rw [h]

theorem TickFrame.locPut {n : Nat} {d : Dev} (l : Loc) (off k : Nat) (rel : Memory) : TickFrame n d (d.locPut l off k rel) :=
  .of_le (Dev.locPut_le ..) (Dev.locPut_cue ..) (fun r _ => Dev.rd_of_regs (Dev.locPut_regs ..) r) fun _ h => by rwa [Dev.locPut_eic]

theorem Dev.syncEng_le (d : Dev) (n : Nat) : (d.syncEng n).le = d.le := rfl
theorem Dev.syncEng_stew (d : Dev) (n : Nat) : (d.syncEng n).stew = d.stew := rfl

/-- An injection that ends leaves the engine and completes its command; CALIBRATE gives the squall generator its loads back (R335, R337). -/
theorem Dev.injectEnd_eq {d : Dev} {n : Nat} {x : Inject} (now : Nat) (h : (d.eng n).inject = some x) :
    ∃ e : Dev, d.injectEnd now n = e.finishAt now (x.mbx, x.seq) .ok 0 [] ∧ e.stew = d.stew ∧ (e.eng n).inject = none ∧ TickFrame n d e ∧
      (x.calibrate = true → e.rn (r0 .pbuSquallCfg) = x.squall % 2 ^ 64) := by
  unfold Dev.injectEnd
  simp only [h]
  have hset : TickFrame n d (d.setEng n { d.eng n with inject := none }) := .setEng rfl rfl fun _ => rfl
  have hstop := hset.trans (.syncEng n)
  have hinj : (((d.setEng n { d.eng n with inject := none }).syncEng n).eng n).inject = none := by
    rw [Dev.eng_of_le (Dev.syncEng_le ..), Dev.eng_setEng]
  have hstew : ((d.setEng n { d.eng n with inject := none }).syncEng n).stew = d.stew := rfl
  refine ⟨_, rfl, ?_⟩
  generalize (d.setEng n { d.eng n with inject := none }).syncEng n = ds at *
  cases hc : x.calibrate with
  | false => exact ⟨hstew, hinj, hstop, nofun⟩
  | true =>
    have hsquall := hstop.trans (.setSquall now x.squall)
    have hcfg : (ds.setSquall now x.squall).rn (r0 .pbuSquallCfg) = x.squall % 2 ^ 64 := Dev.rn_wn ..
    simp only [if_true]
    split
    · refine ⟨(Dev.locPut_stew ..).trans hstew, ?_, hsquall.trans ?_, fun _ => ?_⟩
      · exact (congrArg Engine.inject (Dev.eng_of_le (Dev.locPut_le ..) n)).trans hinj
      · exact (TickFrame.trans (.draw ..) (.free _)).trans (.locPut ..)
      · exact (congrArg BitVec.toNat (Dev.rd_of_regs (Dev.locPut_regs ..) _)).trans hcfg
    · exact ⟨hstew, hinj, hsquall, fun _ => hcfg⟩

theorem TickFrame.injectEnd {n : Nat} {d : Dev} (now : Nat) : TickFrame n d (d.injectEnd now n) := by
  cases h : (d.eng n).inject with
  | none => unfold Dev.injectEnd; simp only [h]; exact .refl n d
  | some x =>
    obtain ⟨e, he, -, -, hframe, -⟩ := Dev.injectEnd_eq now h
    rw [he]
    exact hframe.trans (.finishAt ..)

/-- A capture that ends leaves the engine and completes its command with its first tick, its rows and the DT holding began (R338). -/
theorem Dev.captureEnd_eq {d : Dev} {n : Nat} {c : Capture} (now : Nat) (h : (d.eng n).capture = some c) :
    ∃ e : Dev, d.captureEnd now n = e.finishAt now (c.mbx, c.seq) .ok 0 (leBytes 8 (c.first.getD 0) ++ leBytes 4 c.rows ++ leBytes 4 0 ++ leBytes 8 c.holdAt) ∧
      e.stew = d.stew ∧ (e.eng n).capture = none := by
  unfold Dev.captureEnd
  simp only [h]
  have hcap : (((d.setEng n { d.eng n with capture := none }).sf (r1 .leEngCap n) F.leEngCap.STATE 3).eng n).capture = none := by
    rw [Dev.eng_of_le (Dev.sf_le ..), Dev.eng_setEng]
  have hstew : ((d.setEng n { d.eng n with capture := none }).sf (r1 .leEngCap n) F.leEngCap.STATE 3).stew = d.stew := rfl
  refine ⟨_, rfl, ?_⟩
  generalize (d.setEng n { d.eng n with capture := none }).sf (r1 .leEngCap n) F.leEngCap.STATE 3 = ds at *
  split
  · refine ⟨?_, ?_⟩
    · rw [Dev.syncEng_stew, Dev.locPut_stew, hstew]
    · rw [Dev.eng_of_le (Dev.syncEng_le ..), Dev.eng_of_le (Dev.locPut_le ..), hcap]
  · exact ⟨hstew, by rw [Dev.eng_of_le (Dev.syncEng_le ..), hcap]⟩

/-! ### The events but the tick and the flip -/

/-- A frame that is due joins its port's express queue (R317, R333). -/
theorem commandFrameQueue_queues {s : State} {t n at_ : Nat} {fr : List Byte} {rest : List (Nat × List Byte)} (hn : n < 8) (hon : s.dev.engOn n = true)
    (hfr : (s.dev.eng n).frames = (at_, fr) :: rest) (hdue : at_ ≤ s.now t) :
    let p := if (bytesAt fr 25 1).testBit 4 then 0 else s.dev.f (r1 .leEngCfg n) F.leEngCfg.PORT
    Answers (.commandFrameQueue t n) s fun s' => (s'.dev.eng n).frames = rest ∧ s'.dev.regs = s.dev.regs ∧ s'.dev.mem = s.dev.mem ∧
      (s'.dev.port p).txq = (s.dev.port p).txq ++ [⟨7, true, true, 0x0400 + n, Config.frameAddresses p ++ beBytes 2 0x88B5 ++ fr⟩] := by
  intro p
  refine ⟨_, rfl, ?_⟩
  simp only [hfr, hn, hon, hdue, and_self, if_true]
  refine ⟨congrArg Engine.frames ((Dev.eng_of_le (Dev.modPort_le ..) n).trans (Dev.eng_modEng s.dev n _)), rfl, rfl, ?_⟩
  exact congrArg EthPort.txq (tgetD_tset ..)

theorem injectionEnd_serves {s : State} {t n : Nat} {x : Inject} {r : Req} (hn : n < 8) (hon : s.dev.engOn n = true) (hx : (s.dev.eng n).inject = some x)
    (hover : x.t0 + x.len ≤ s.now t) (hr : s.dev.req? x.mbx x.seq = some r) :
    Answers (.injectionEnd t n) s fun s' => (s'.dev.eng n).inject = none ∧ served s.dev s'.dev r .ok 0 [] ∧
      (x.calibrate = true → s'.dev.rn (r0 .pbuSquallCfg) = x.squall % 2 ^ 64) := by
  obtain ⟨e, he, hstew, hinj, -, hcfg⟩ := Dev.injectEnd_eq (s.now t) hx
  refine ⟨_, rfl, ?_⟩
  simp only [hx, hn, hon, hover, and_self, if_true, he]
  refine ⟨?_, Dev.finishAt_served hstew hr .., fun hc => ?_⟩
  · rw [Dev.eng_of_le (Dev.finishAt_le ..)]; exact hinj
  · exact (congrArg BitVec.toNat (Dev.finishAt_rd (by decide) (by decide))).trans (hcfg hc)

theorem captureEnd_serves {s : State} {t n : Nat} {c : Capture} {r : Req} (hn : n < 8) (hon : s.dev.engOn n = true) (hc : (s.dev.eng n).capture = some c)
    (hfull : s.dev.f (r1 .leEngCap n) F.leEngCap.STATE = 3) (hruns : s.dev.stewardRuns = true) (hr : s.dev.req? c.mbx c.seq = some r) :
    Answers (.captureEnd t n) s fun s' => (s'.dev.eng n).capture = none ∧
      served s.dev s'.dev r .ok 0 (leBytes 8 (c.first.getD 0) ++ leBytes 4 c.rows ++ leBytes 4 0 ++ leBytes 8 c.holdAt) := by
  obtain ⟨e, he, hstew, hcap⟩ := Dev.captureEnd_eq (s.now t) hc
  refine ⟨_, rfl, ?_⟩
  simp only [hn, hon, hfull, hruns, and_self, if_true, he]
  exact ⟨by rw [Dev.eng_of_le (Dev.finishAt_le ..)]; exact hcap, Dev.finishAt_served hstew hr ..⟩

/-! ### Waits that expire -/

theorem Dev.waitAlm_foldl_frame (now : Nat) (w : Wait) (arrived : Bool) (ks : List Key) (d : Dev) :
    (ks.foldl (fun d k => d.waitAlm now w k arrived) d).regs = d.regs ∧ (ks.foldl (fun d k => d.waitAlm now w k arrived) d).mem = d.mem ∧
      (ks.foldl (fun d k => d.waitAlm now w k arrived) d).fab = d.fab ∧ (ks.foldl (fun d k => d.waitAlm now w k arrived) d).waits = d.waits := by
  induction ks generalizing d with
  | nil => exact ⟨rfl, rfl, rfl, rfl⟩
  | cons k ks ih =>
    have h := ih (d.waitAlm now w k arrived)
    simpa [Dev.waitAlm] using h

/-- A pending wait past D + G commits EXPIRED with the deadline's key and changes no register, no memory, nothing of the fabric and no other wait
(R47, R48). -/
theorem Dev.expire_commits {d : Dev} {now id : Nat} {w : Wait} (hw : tget d.waits id = some w) (hout : w.outcome = none) (hlate : w.deadline + w.guard < now) :
    (d.expire now id).1 = true ∧ (d.expire now id).2.regs = d.regs ∧ (d.expire now id).2.mem = d.mem ∧ (d.expire now id).2.fab = d.fab ∧
      tget (d.expire now id).2.waits id = some { w with outcome := some false, key := some ⟨w.deadline, d.src w.src, d.cntOf w.src⟩, late := [] } ∧
      ∀ k, k ≠ id → tget (d.expire now id).2.waits k = tget d.waits k := by
  have hexp : d.expire now id = (true, w.late.foldl (fun d' k => d'.waitAlm now (d.commitWait id { w with late := [] } false).1 k false) (d.commitWait id { w with late := [] } false).2) := by
    unfold Dev.expire
    simp only [hw]
    rw [if_pos (by simp [hout, hlate])]
  obtain ⟨hregs, hmem, hfab, hwaits⟩ := Dev.waitAlm_foldl_frame now (d.commitWait id { w with late := [] } false).1 false w.late (d.commitWait id { w with late := [] } false).2
  rw [hexp]
  exact ⟨rfl, hregs, hmem, hfab, by rw [hwaits]; exact tget_tset .., fun k hk => by rw [hwaits]; exact tget_tset_ne hk⟩

theorem Dev.expire_pending {d : Dev} {now id : Nat} {w : Wait} (hw : tget d.waits id = some w) (hlate : now ≤ w.deadline + w.guard) : d.expire now id = (false, d) := by
  unfold Dev.expire
  simp only [hw, Nat.not_lt.mpr hlate, decide_false, Bool.and_false, Bool.false_eq_true, if_false]

theorem waitExpire_commits {s : State} {t id : Nat} {w : Wait} (hw : tget s.dev.waits id = some w) (hout : w.outcome = none) (hlate : w.deadline + w.guard < s.now t) :
    Answers (.waitExpire t id) s fun s' => ∃ e : Dev, e.regs = s.dev.regs ∧ e.mem = s.dev.mem ∧ e.fab = s.dev.fab ∧
      tget e.waits id = some { w with outcome := some false, key := some ⟨w.deadline, s.dev.src w.src, s.dev.cntOf w.src⟩, late := [] } ∧
      (∀ k, k ≠ id → tget e.waits k = tget s.dev.waits k) ∧ s'.dev = (e.waitExpired (s.now t) id w).settleEnds (s.now t) := by
  obtain ⟨hdone, hregs, hmem, hfab, hcommit, hothers⟩ := Dev.expire_commits hw hout hlate
  refine ⟨_, rfl, (s.dev.expire (s.now t) id).2, hregs, hmem, hfab, hcommit, hothers, ?_⟩
  simp only [hw, hdone, if_true]

theorem waitExpire_early {s : State} {t id : Nat} {w : Wait} (hw : tget s.dev.waits id = some w) (hearly : s.now t ≤ w.deadline + w.guard) :
    Answers (.waitExpire t id) s fun s' => s'.dev = s.dev := by
  refine ⟨_, rfl, ?_⟩
  simp only [hw, Dev.expire_pending hw hearly, Bool.false_eq_true, if_false]

/-! ### The reference flip -/

theorem Dev.engOn_of_pow {d d' : Dev} (h : d'.pow = d.pow) (n : Nat) : d'.engOn n = d.engOn n := by unfold Dev.engOn Dev.earlyOn Dev.on; rw [h]

/-- A changed entry changes the fabric alone. -/
theorem Dev.modEntry_eq (d : Dev) (now l e : Nat) (f : SbEntry → SbEntry) : ∃ fab, d.modEntry now l e f = { d with fab := fab } := by
  unfold Dev.modEntry
  split
  · exact ⟨_, rfl⟩
  · exact ⟨d.fab, rfl⟩

/-- Engine n's part of a flip of the slot at an address, as `Dev.flip` does it for each engine in turn (R25, R320). -/
def Dev.flipEngine (now a : Nat) (d : Dev) (n : Nat) : Dev :=
  if d.engOn n = false then d
  else
    let set := d.mem.read (a + 1088 * n) 1088
    if bits (bytesAt set 24 4) 30 2 = 0 then
      (((d.wn (r1 .leEngFlipAt n) now).sf (r1 .leEngStat n) F.leEngStat.BUF (1 - d.f (r1 .leEngStat n) F.leEngStat.BUF)).modEng n fun g =>
        { g with sets := ((now, set) :: g.sets).take 4 }).emit (0x0400 + n) now .flip false [now, bytesAt set 16 8]
    else d.leFlag n F.leEngStat.REF_STALE true

/-- The oldest completed slot of an entry flips: every engine takes its part, and the slot is free again. -/
theorem Dev.flip_eq {d : Dev} {now l e slot dt : Nat} {rest : List (Nat × Nat)} {b : Basin} (hb : d.basin? l = some b) (hq : (b.entry e).readyQ = (slot, dt) :: rest) :
    ∃ pbu fab, d.flip now l e = (List.range 8).foldl (Dev.flipEngine now (d.slotAddr l (b.entry e) slot)) { d with pbu := pbu, fab := fab } := by
  obtain ⟨fab, hfab⟩ := Dev.modEntry_eq { d with pbu := { d.pbu with flipDue := false } } now l e fun y => ({ y with readyQ := rest } : SbEntry).giveBack slot
  refine ⟨{ d.pbu with flipDue := false }, fab, ?_⟩
  unfold Dev.flip
  simp only [hb, hq, hfab]
  rfl

/-- What another engine's part of a flip keeps of engine n: memory, power, the engine and its registers. -/
structure FlipFrame (n : Nat) (d d' : Dev) : Prop where
  mem : d'.mem = d.mem
  pow : d'.pow = d.pow
  eng : d'.eng n = d.eng n
  rd : ∀ r : Reg, r.i = n → d'.rd r = d.rd r

theorem FlipFrame.refl (n : Nat) (d : Dev) : FlipFrame n d d := ⟨rfl, rfl, rfl, fun _ _ => rfl⟩

theorem FlipFrame.trans {n : Nat} {d d' d'' : Dev} (a : FlipFrame n d d') (b : FlipFrame n d' d'') : FlipFrame n d d'' :=
  ⟨b.mem.trans a.mem, b.pow.trans a.pow, b.eng.trans a.eng, fun r h => (b.rd r h).trans (a.rd r h)⟩

theorem Dev.flipEngine_frame {now a n k : Nat} (d : Dev) (h : k ≠ n) : FlipFrame n d (d.flipEngine now a k) := by
  have hreg {r : Reg} {x : RegName} (hr : r.i = n) : r ≠ r1 x k := fun e => h (by rw [← hr, e])
  unfold Dev.flipEngine
  split
  · exact .refl n d
  · dsimp only
    split
    · refine ⟨?_, ?_, ?_, fun r hr => ?_⟩
      · rw [Dev.emit_mem]; rfl
      · rw [Dev.emit_pow]; rfl
      · rw [Dev.eng_of_le (Dev.emit_le ..), Dev.eng_modEng_ne h.symm]; rfl
      · rw [Dev.rd_of_regs (Dev.emit_regs ..), Dev.rd_of_regs (Dev.modEng_regs ..), Dev.rd_sf_ne (hreg hr), Dev.rd_wn_ne (hreg hr)]
    · exact ⟨Dev.leFlag_mem .., Dev.leFlag_pow .., Dev.eng_of_le (Dev.leFlag_le ..) n, fun r hr => Dev.leFlag_rd (hreg hr)⟩

theorem Dev.flipEngine_mem (now a n : Nat) (d : Dev) : (d.flipEngine now a n).mem = d.mem := by
  unfold Dev.flipEngine
  split
  · rfl
  · dsimp only
    split
    · rw [Dev.emit_mem]; rfl
    · exact Dev.leFlag_mem ..

theorem Dev.flipEngines_frame {now a n : Nat} {ks : List Nat} (d : Dev) (h : n ∉ ks) : FlipFrame n d (ks.foldl (Dev.flipEngine now a) d) := by
  induction ks generalizing d with
  | nil => exact .refl n d
  | cons k ks ih =>
    obtain ⟨hk, hks⟩ := not_or.mp (mt List.mem_cons.mpr h)
    exact (d.flipEngine_frame (Ne.symm hk)).trans (ih _ hks)

/-- Engine n takes its part between those of the engines before and after it. -/
theorem Dev.flipEngines_at {now a n : Nat} (d : Dev) (h : n < 8) :
    ∃ e, FlipFrame n d e ∧ FlipFrame n (e.flipEngine now a n) ((List.range 8).foldl (Dev.flipEngine now a) d) := by
  obtain ⟨before, after, hl⟩ := List.append_of_mem (List.mem_range.mpr h)
  have hnd := List.nodup_cons.mp (List.nodup_middle.mp (hl ▸ List.nodup_range))
  obtain ⟨hb, ha⟩ := not_or.mp (mt List.mem_append.mpr hnd.1)
  rw [hl, List.foldl_append, List.foldl_cons]
  exact ⟨_, d.flipEngines_frame hb, Dev.flipEngines_frame _ ha⟩

/-- A powered engine takes a part of its own generation: the newest of the four sets it keeps. -/
theorem Dev.flipEngine_takes {now a n : Nat} {d : Dev} (hon : d.engOn n = true) (hgen : bits (bytesAt (d.mem.read (a + 1088 * n) 1088) 24 4) 30 2 = 0) :
    ((d.flipEngine now a n).eng n).sets = ((now, d.mem.read (a + 1088 * n) 1088) :: (d.eng n).sets).take 4 ∧ (d.flipEngine now a n).rn (r1 .leEngFlipAt n) = now % 2 ^ 64 := by
  unfold Dev.flipEngine
  simp only [hon, Bool.true_eq_false, if_false, hgen, if_true]
  constructor
  · rw [Dev.eng_of_le (Dev.emit_le ..), Dev.eng_modEng]; rfl
  · refine Eq.trans (Dev.rn_of_rd ?_) (Dev.rn_wn d (r1 .leEngFlipAt n) now)
    rw [Dev.rd_of_regs (Dev.emit_regs ..), Dev.rd_of_regs (Dev.modEng_regs ..), Dev.rd_sf_ne (Reg.ne_of_name (by simp))]

/-- A powered engine refuses a part of another generation and reports it. -/
theorem Dev.flipEngine_refuses {now a n : Nat} {d : Dev} (hon : d.engOn n = true) (hgen : bits (bytesAt (d.mem.read (a + 1088 * n) 1088) 24 4) 30 2 ≠ 0) :
    ((d.flipEngine now a n).eng n).sets = (d.eng n).sets ∧ (d.flipEngine now a n).fb (r1 .leEngStat n) F.leEngStat.REF_STALE = true := by
  unfold Dev.flipEngine
  simp only [hon, Bool.true_eq_false, if_false, hgen]
  exact ⟨by rw [Dev.eng_of_le (Dev.leFlag_le ..)], Dev.fb_leFlag d n (by unfold Fld.ok; decide) rfl⟩

theorem Dev.flipEngines_mem (now a : Nat) (ks : List Nat) (d : Dev) : (ks.foldl (Dev.flipEngine now a) d).mem = d.mem := by
  induction ks generalizing d with
  | nil => rfl
  | cons k ks ih => exact (ih _).trans (Dev.flipEngine_mem ..)

/-- A flip as engine n sees it: nothing, its own part of the oldest completed slot, nothing. -/
theorem Dev.flip_at {d : Dev} {l e slot dt n : Nat} {rest : List (Nat × Nat)} {b : Basin} (now : Nat) (hb : d.basin? l = some b) (hq : (b.entry e).readyQ = (slot, dt) :: rest) (hn : n < 8) :
    (d.flip now l e).mem = d.mem ∧ ∃ g, FlipFrame n d g ∧ FlipFrame n (g.flipEngine now (d.slotAddr l (b.entry e) slot) n) (d.flip now l e) := by
  obtain ⟨pbu, fab, hflip⟩ := Dev.flip_eq (now := now) hb hq
  have hfreed : FlipFrame n d { d with pbu := pbu, fab := fab } := ⟨rfl, rfl, rfl, fun _ _ => rfl⟩
  obtain ⟨g, hbefore, hafter⟩ := Dev.flipEngines_at (now := now) (a := d.slotAddr l (b.entry e) slot) { d with pbu := pbu, fab := fab } hn
  rw [hflip]
  exact ⟨Dev.flipEngines_mem .., g, hfreed.trans hbefore, hafter⟩

theorem referenceFlip_flips {s : State} {t l e slot dt n : Nat} {rest : List (Nat × Nat)} {b : Basin} {c : Ctx} (hdt : s.dt ≤ dtMax) (hl : l < 256) (hb : s.dev.basin? l = some b)
    (hkind : (b.entry e).kind = 7) (hcls : s.dev.ctxClass b.ctx = 0) (hctx : s.dev.ctx? b.ctx = some c) (hact : c.standby ≠ 1) (hq : (b.entry e).readyQ = (slot, dt) :: rest)
    (hn : n < 8) (hon : s.dev.engOn n = true) :
    let set := s.dev.mem.read (s.dev.slotAddr l (b.entry e) slot + 1088 * n) 1088
    Answers (.referenceFlip t l e) s fun s' => s'.dev.mem = s.dev.mem ∧
      (bits (bytesAt set 24 4) 30 2 = 0 → (s'.dev.eng n).sets = ((s.now t, set) :: (s.dev.eng n).sets).take 4 ∧ s'.dev.rn (r1 .leEngFlipAt n) = s.now t) ∧
      (bits (bytesAt set 24 4) 30 2 ≠ 0 → (s'.dev.eng n).sets = (s.dev.eng n).sets ∧ s'.dev.fb (r1 .leEngStat n) F.leEngStat.REF_STALE = true) := by
  intro set
  have hown : s.dev.ownFlip (s.now t) l e b.ctx = s.dev.flip (s.now t) l e := by
    unfold Dev.ownFlip
    simp [hctx, hact]
  refine ⟨_, rfl, ?_⟩
  simp only [Nat.not_le.mpr hl, if_false, hb, hkind, hcls, and_self, if_true, hown]
  obtain ⟨hmem, g, hbefore, hafter⟩ := Dev.flip_at (s.now t) hb hq hn
  have hon' : g.engOn n = true := (Dev.engOn_of_pow hbefore.pow n).trans hon
  have hset : g.mem.read (s.dev.slotAddr l (b.entry e) slot + 1088 * n) 1088 = set := by rw [hbefore.mem]
  refine ⟨hmem, fun hgen => ?_, fun hgen => ?_⟩
  · obtain ⟨hsets, hat⟩ := Dev.flipEngine_takes (now := s.now t) hon' (hset.symm ▸ hgen)
    have hnow : s.now t % 2 ^ 64 = s.now t := Nat.mod_eq_of_lt (Nat.lt_succ_of_le (s.now_le t hdt))
    exact ⟨by rw [hafter.eng, hsets, hset, hbefore.eng], (Dev.rn_of_rd (hafter.rd _ rfl)).trans (hat.trans hnow)⟩
  · obtain ⟨hsets, hstale⟩ := Dev.flipEngine_refuses (now := s.now t) hon' (hset.symm ▸ hgen)
    exact ⟨by rw [hafter.eng, hsets, hbefore.eng], (Dev.fb_of_rd (hafter.rd _ rfl) _).trans hstale⟩

/-! ### The laws of a tick -/

theorem lawTick_slot (desc : List Byte) (inertia : Nat → Nat) (a : ArmedLaw) (t : TickIn) : (lawTick desc inertia a t).law.slot = (lawTick desc inertia a t).slot := by
  unfold lawTick
  split <;> rfl

/-- A law that ran is armed in the slot it ran from. -/
theorem Dev.runLaws_slot {d : Dev} {n f : Nat} {fresh : List Nat} {t : TickIn} {r : LawRun} (h : r ∈ d.runLaws n f fresh t) : r.law.slot = r.slot := by
  obtain ⟨a, -, rfl⟩ := List.mem_map.mp h
  dsimp only
  split
  · rfl
  · exact lawTick_slot ..

theorem armed_slots_of_runs {runs : List LawRun} (h : ∀ r ∈ runs, r.law.slot = r.slot) (armed : List ArmedLaw) :
    (armed.map fun a => ((runs.find? fun r => r.slot == a.slot).map LawRun.law).getD a).map ArmedLaw.slot = armed.map ArmedLaw.slot := by
  rw [List.map_map]
  refine List.map_congr_left fun a _ => ?_
  dsimp only [Function.comp]
  cases hr : runs.find? fun r => r.slot == a.slot with
  | none => rfl
  | some r =>
    have hfound : (r.slot == a.slot) = true := List.find?_some (p := fun r : LawRun => r.slot == a.slot) hr
    exact (h r (List.mem_of_find?_eq_some hr)).trans (beq_iff_eq.mp hfound)

/-- Taking over by holding laws keeps the latched states and that the engine holds. -/
theorem Engine.holdAll_keeps (e : Engine) (f anchor tick : Nat) (lat : Tbl JointState) :
    (e.holdAll f anchor tick lat).1.latched = e.latched ∧ (e.holdAll f anchor tick lat).1.holding = e.holding := by
  unfold Engine.holdAll
  refine List.foldlRecOn (motive := fun acc : Engine × List Nat => acc.1.latched = e.latched ∧ acc.1.holding = e.holding) _ _ ⟨rfl, rfl⟩ fun acc hacc a _ => ?_
  split
  · exact hacc
  · exact hacc

theorem TickFrame.captureTick {n f : Nat} {d : Dev} (runs : List LawRun) (inj : Nat) : TickFrame n d (d.captureTick n f runs inj) := by
  unfold Dev.captureTick
  extract_lets e
  split
  · exact .refl n d
  · split
    · exact .refl n d
    · extract_lets d1 row data rows c1 d2 d3
      have h1 : TickFrame n d d1  := by
        dsimp only [d1]
        exact .ite ((TickFrame.wn _ rfl).trans (.sf _ _ rfl)) (.refl n d)
      have he : d1.eng n = e := Dev.eng_of_le (by simp only [d1]; split <;> rfl) n
      have hlat : e.latched = (d1.eng n).latched := by rw [he]
      have hhold : e.holding = (d1.eng n).holding := by rw [he]
      have hslots : e.armed.map ArmedLaw.slot = (d1.eng n).armed.map ArmedLaw.slot := by rw [he]
      have h2 : TickFrame n d d2 := by
        dsimp only [d2]
        exact (h1.trans (.free _)).trans (.setEng hlat hhold fun _ => hslots)
      exact (h2.trans (.sf _ _ rfl)).trans (.trans (.ite (.sf _ _ rfl) (.refl n d3)) (.syncEng n))

/-! ### The start of holding -/

theorem Dev.holdStart_starts (d : Dev) {n : Nat} (now f : Nat) (hn : n < 8) :
    (d.holdStart now n f).cue = d.cue ∧ (d.holdStart now n f).rd (r1 .leEngTickAt n) = d.rd (r1 .leEngTickAt n) ∧
      ((d.holdStart now n f).eng n).latched = (d.eng n).latched ∧ ((d.holdStart now n f).eng n).holding = true ∧
      (d.holdStart now n f).rn (r1 .leEngHoldAt n) = f % 2 ^ 64 ∧ (d.on 156 = true → (d.holdStart now n f).eic.pend.contains (192 + n) = true) := by
  unfold Dev.holdStart
  extract_lets p d1
  have hle : d1.le = (d.modEng n fun e => { e with holding := true }).le := by simp [d1, p]
  have heng : d1.eng n = { d.eng n with holding := true } := (Dev.eng_of_le hle n).trans (Dev.eng_modEng ..)
  have hpow : (((p.2.alm 0x070 1 p.1 now [n, f]).wn (r1 .leEngHoldAt n) f).on 156) = d.on 156 := by simp [Dev.on, p]
  have hregs : (p.2.alm 0x070 1 p.1 now [n, f]).regs = d.regs := by simp [p]
  have hrd (r : Reg) : d1.rd r = ((p.2.alm 0x070 1 p.1 now [n, f]).wn (r1 .leEngHoldAt n) f).rd r := Dev.rd_of_regs (Dev.raise_regs ..) r
  have hend : TickFrame n d1 (d1.injectEnd now n) := .injectEnd now
  have hlisted : ∀ n < 8, eicListed (192 + n) = true := by decide
  refine ⟨?_, ?_, ?_, ?_, ?_, fun hon => ?_⟩
  · rw [hend.cue]; simp [d1, p]
  · rw [hend.stamps _ rfl, hrd, Dev.rd_wn_ne (Reg.ne_of_name (by simp)), Dev.rd_of_regs hregs]
  · rw [hend.latched, heng]
  · rw [hend.holding, heng]
  · rw [Dev.rn_of_rd (hend.stamps _ rfl), Dev.rn_of_rd (hrd _)]
    exact Dev.rn_wn ..
  · exact hend.pend _ (Dev.raise_pend (hlisted n hn) (hpow.trans hon))

/-! ### A tick -/

/-- An engine with the states of a tick latched. -/
def Engine.withLatched (e : Engine) (lat : Tbl JointState) : Engine := { e with latched := lat }

/-- The registers that a tick writes before it decides whether its laws hold. -/
def RegName.isTickReport (x : RegName) : Bool := x == .leEngTickAt || x == .leEngRefAge || x == .leEngStat

section
variable {d d' : Dev} (h : ∀ r : Reg, r.name.isTickReport = false → d'.rd r = d.rd r)
include h

theorem Dev.isEarly_of_rd (n : Nat) : d'.isEarly n = d.isEarly n := by
  unfold Dev.isEarly Dev.earlyRuns Dev.earlyState
  rw [Dev.f_of_rd (h _ rfl)]

theorem Dev.setStale_of_rd (n f : Nat) (set : List Byte) : d'.setStale n f set = d.setStale n f set := by
  unfold Dev.setStale Dev.elapsed
  rw [Dev.f_of_rd (h _ rfl), Dev.fb_of_rd (h _ rfl), Dev.rn_of_rd (h (r0 .timeJumpAt) rfl), Dev.rn_of_rd (h (r0 .timeJumpSize) rfl)]

theorem Dev.tickPeriod_of_rd (n : Nat) : d'.tickPeriod n = d.tickPeriod n := by
  have hcfg (c : Nat) (x : Fld) : d'.f (r1 .cueChCfg c) x = d.f (r1 .cueChCfg c) x := Dev.f_of_rd (h _ rfl) x
  have hper (c : Nat) (x : Fld) : d'.f (r1 .cueChPeriod c) x = d.f (r1 .cueChPeriod c) x := Dev.f_of_rd (h _ rfl) x
  unfold Dev.tickPeriod Dev.tickChannel Dev.fb
  simp only [hcfg, hper, Dev.isEarly_of_rd h]

/-- Whether a law is unfit does not turn on the states latched. -/
theorem Dev.anyUnfit_of_rd {n : Nat} {lat : Tbl JointState} (he : d'.eng n = (d.eng n).withLatched lat) : d'.anyUnfit n = d.anyUnfit n := by
  unfold Dev.anyUnfit
  rw [Dev.tickPeriod_of_rd h, he]
  rfl

end

/-- Whether a tick has a cause to hold: armed laws, and the stop request, a set over age, a hold command or a law with no whole DIV (R330). -/
def Dev.holdCause (d : Dev) (n f : Nat) : Bool :=
  (d.eng n).armed != [] && ((d.lineAt f).2.2 || d.setStale n f ((d.eng n).setAt f) || (d.eng n).holdCmd || d.anyUnfit n)

theorem Dev.lawChanges_of_noChange {d : Dev} {n : Nat} (now f : Nat) (h : (d.eng n).changes = []) : (d.lawChanges now n f).1 = d.setEng n (d.eng n) := by
  have hkeep : { d.eng n with changes := (d.eng n).changes.filter fun c => !decide (c.at_ ≤ f) } = d.eng n := by rw [h, List.filter_nil, ← h]
  unfold Dev.lawChanges
  rw [h]
  exact congrArg (d.setEng n) hkeep

/-- Where no change of laws waits, a tick's latch changes the engine's latched states alone. -/
theorem Dev.latch_of_noChange {d : Dev} {n : Nat} (now f : Nat) (lat : Tbl JointState) (h : (d.eng n).changes = []) :
    ∃ le, ((d.modEng n fun e => { e with latched := lat }).lawChanges now n f).1 = { d with le := le } ∧ ({ d with le := le } : Dev).eng n = (d.eng n).withLatched lat := by
  have he : ((d.modEng n fun e => { e with latched := lat }).eng n) = (d.eng n).withLatched lat := Dev.eng_modEng ..
  have hch : ((d.modEng n fun e => { e with latched := lat }).eng n).changes = [] := by rw [he]; exact h
  rw [Dev.lawChanges_of_noChange now f hch, he]
  exact ⟨_, rfl, Dev.eng_setEng ..⟩

/-- A tick of an engine that is not the early service's and has no change waiting: it notes its instant, latches, starts to hold where it has a cause, and runs the
laws (R315, R322, R330). -/
theorem Dev.loopTick_latches {d : Dev} {n : Nat} (now f : Nat) (hearly : d.isEarly n = false) (hch : (d.eng n).changes = []) :
    ∃ d2 : Dev, d2.cue = d.cue ∧ d2.pow = d.pow ∧ d2.rd (r1 .leEngTickAt n) = BitVec.ofNat 64 f ∧ d2.eng n = (d.eng n).withLatched (d.latch f (d.eng n).latched) ∧
      TickFrame n (if d.holdCause n f && !(d.eng n).holding then d2.holdStart now n f else d2) (d.loopTick now n f) := by
  unfold Dev.loopTick
  extract_lets ds lat early0 d1 q early set line stale d2 cause d3 h d4 e inj t runs ranInj d5 d6 k unc flags tov fr kd d7
  -- The tick's instant is noted; the engine is not the early service's.
  have hds (r : Reg) (hr : r.name.isTickReport = false) : ds.rd r = d.rd r := Dev.rd_wn_ne (Reg.ne_of_name fun e => by rw [e] at hr; cases hr)
  have hat : ds.rd (r1 .leEngTickAt n) = BitVec.ofNat 64 f := Dev.rd_wr ..
  have hd1 : d1 = ds := by
    have hearly0 : early0 = false := (Dev.isEarly_of_rd hds n).trans hearly
    simp only [d1, hearly0, Bool.false_eq_true, if_false]
  -- The states of the tick are latched, and no change of laws waits.
  obtain ⟨le, hq, heng⟩ : ∃ le, q.1 = { ds with le := le } ∧ ({ ds with le := le } : Dev).eng n = (d.eng n).withLatched lat := by
    dsimp only [q]
    rw [hd1]
    exact Dev.latch_of_noChange now f lat hch
  rw [← hq] at heng
  have hq1 (r : Reg) (hr : r.name.isTickReport = false) : q.1.rd r = d.rd r := by rw [hq]; exact hds r hr
  have hat1 : q.1.rd (r1 .leEngTickAt n) = BitVec.ofNat 64 f := by rw [hq]; exact hat
  have hcue : q.1.cue = d.cue := by rw [hq]; rfl
  have hpow : q.1.pow = d.pow := by rw [hq]; rfl
  have hline : line = d.lineAt f := by dsimp only [line]; rw [hq]; rfl
  have hlat : lat = d.latch f (d.eng n).latched := rfl
  clear_value ds d1 lat q line
  -- The tick's reports, and whether it has a cause to hold.
  have hearly1 : early = false := (Dev.isEarly_of_rd hq1 n).trans hearly
  have hstale : stale = d.setStale n f ((d.eng n).setAt f) := by
    dsimp only [stale, set]
    rw [hearly1, Dev.setStale_of_rd hq1, heng]
    rfl
  have hd2 : d2 = ((q.1.sf (r1 .leEngRefAge n) F.leEngRefAge.AGE (min (2 ^ 32 - 1) (q.1.elapsed (setTov set) f))).leFlag n F.leEngStat.REF_STALE stale) := by
    simp only [d2, hearly1, Bool.false_eq_true, if_false]
  have heng2 : d2.eng n = (d.eng n).withLatched lat := by rw [hd2, Dev.eng_of_le (Dev.leFlag_le ..)]; exact heng
  have hrd2 (r : Reg) (hr : r.name.isTickReport = false) : d2.rd r = d.rd r := by
    rw [hd2, Dev.leFlag_rd (fun e => by rw [e] at hr; cases hr), Dev.rd_sf_ne (fun e => by rw [e] at hr; cases hr)]
    exact hq1 r hr
  have hat2 : d2.rd (r1 .leEngTickAt n) = BitVec.ofNat 64 f := by
    rw [hd2, Dev.leFlag_rd (Reg.ne_of_name (by simp)), Dev.rd_sf_ne (Reg.ne_of_name (by simp)), hat1]
  have hcue2 : d2.cue = d.cue := by rw [hd2, Dev.leFlag_cue]; exact hcue
  have hpow2 : d2.pow = d.pow := by rw [hd2, Dev.leFlag_pow]; exact hpow
  have hcause : cause = d.holdCause n f := by
    dsimp only [cause]
    rw [hearly1, hstale, hline, Dev.anyUnfit_of_rd hrd2 heng2, heng2]
    rfl
  have hd3 : d3 = if d.holdCause n f && !(d.eng n).holding then d2.holdStart now n f else d2 := by
    dsimp only [d3]
    rw [hcause, heng2]
    rfl
  refine ⟨d2, hcue2, hpow2, hat2, hlat ▸ heng2, ?_⟩
  rw [← hd3]
  clear_value d2 cause d3
  -- The laws run on what the engine holds now, and their frame waits for its instant.
  have h4 : TickFrame n d3 d4 := by
    dsimp only [d4, h]
    split
    · next hold =>
      obtain ⟨hlatched, hholding⟩ := Engine.holdAll_keeps (d3.eng n) f (d3.nextPeriod f) (d3.tickPeriod n) lat
      exact .setEng hlatched hholding fun hnot => absurd hold (by simp [hnot])
    · exact .setEng rfl rfl fun _ => rfl
  clear_value d4
  have h5 : TickFrame n d4 d5 := .setEng rfl rfl fun _ => armed_slots_of_runs (fun _ => Dev.runLaws_slot) e.armed
  clear_value d5 runs
  have h6 : TickFrame n d5 d6 := (((TickFrame.leFlag ..).trans (.leFlag ..)).trans (.leFlag ..)).trans (.trans (.leFlag ..) (.captureTick ..))
  clear_value d6 fr
  have h7 : TickFrame n d6 d7 := by
    dsimp only [d7]
    split
    · exact .refl n d6
    · exact (TickFrame.trans (.draw ..) (.free _)).trans (.setEng rfl rfl fun _ => rfl)
  exact (((h4.trans h5).trans h6).trans h7).trans (.syncEng n)

/-- What a tick leaves (R315, R322, R330): the cues, its instant, the states it latched; with a cause to hold, an engine that did not hold yet holds from this tick
on and its source pends; without one, an engine that does not hold goes on so, its laws armed in their slots. -/
theorem Dev.loopTick_leaves {d : Dev} {n : Nat} (now f : Nat) (hn : n < 8) (hearly : d.isEarly n = false) (hch : (d.eng n).changes = []) :
    (d.loopTick now n f).cue = d.cue ∧ (d.loopTick now n f).rn (r1 .leEngTickAt n) = f % 2 ^ 64 ∧ ((d.loopTick now n f).eng n).latched = d.latch f (d.eng n).latched ∧
      (d.holdCause n f = true → (d.eng n).holding = false → ((d.loopTick now n f).eng n).holding = true ∧ (d.loopTick now n f).rn (r1 .leEngHoldAt n) = f % 2 ^ 64 ∧
        (d.on 156 = true → (d.loopTick now n f).eic.pend.contains (192 + n) = true)) ∧
      (d.holdCause n f = false → (d.eng n).holding = false → ((d.loopTick now n f).eng n).holding = false ∧
        ((d.loopTick now n f).eng n).armed.map ArmedLaw.slot = (d.eng n).armed.map ArmedLaw.slot) := by
  obtain ⟨d2, hcue, hpow, hat, heng, hframe⟩ := Dev.loopTick_latches now f hearly hch
  have hlatched : (d2.eng n).latched = d.latch f (d.eng n).latched := by rw [heng]; rfl
  have hholding : (d2.eng n).holding = (d.eng n).holding := by rw [heng]; rfl
  have hslots : (d2.eng n).armed.map ArmedLaw.slot = (d.eng n).armed.map ArmedLaw.slot := by rw [heng]; rfl
  have hon : d2.on 156 = d.on 156 := by unfold Dev.on; rw [hpow]
  have htick : d2.rn (r1 .leEngTickAt n) = f % 2 ^ 64 := (congrArg BitVec.toNat hat).trans (BitVec.toNat_ofNat ..)
  by_cases hstart : (d.holdCause n f && !(d.eng n).holding) = true
  · rw [if_pos hstart] at hframe
    obtain ⟨hcue', hat', hlatched', hholding', hholdAt, hpend⟩ := d2.holdStart_starts now f hn
    refine ⟨hframe.cue.trans (hcue'.trans hcue), (Dev.rn_of_rd (hframe.stamps _ rfl)).trans ((Dev.rn_of_rd hat').trans htick),
      hframe.latched.trans (hlatched'.trans hlatched), fun _ _ => ?_, fun hnone => ?_⟩
    · exact ⟨hframe.holding.trans hholding', (Dev.rn_of_rd (hframe.stamps _ rfl)).trans hholdAt, fun h => hframe.pend _ (hpend (hon.trans h))⟩
    · simp [hnone] at hstart
  · rw [if_neg hstart] at hframe
    refine ⟨hframe.cue.trans hcue, (Dev.rn_of_rd (hframe.stamps _ rfl)).trans htick, hframe.latched.trans hlatched, fun hcause hnot => ?_, fun _ hnot => ?_⟩
    · simp [hcause, hnot] at hstart
    · have hnot2 : (d2.eng n).holding = false := hholding.trans hnot
      exact ⟨hframe.holding.trans hnot2, (hframe.slots hnot2).trans hslots⟩

/-! ### The command of a tick -/

theorem Dev.settle_of_noSettings {d : Dev} (now code index : Nat) (h : d.stew.settings = []) : d.settle now code index = d := by
  have hkeep : { d with stew := { d.stew with settings := [] } } = d := by rw [← h]
  unfold Dev.settle
  simp only [h, List.filter_nil, List.foldl_nil, hkeep]

/-- The device with a fire's trigger consumed (R315). -/
def Dev.takeTrig (d : Dev) (k : Nat) : Dev := { d with cue := { d.cue with trig := tdel d.cue.trig k } }

/-- A tick takes its cue: the engine's trigger is consumed, and the engine ticks at the instant of the fire (R315). -/
theorem execLoopTick_next {s : State} {t n f : Nat} (htrig : tget s.dev.cue.trig (3 + n) = some f) (hn : n < 8) (hon : s.dev.engOn n = true)
    (hin : 200 < s.dev.elapsed f (s.now t)) (hen : s.dev.fb (r1 .leEngCfg n) F.leEngCfg.EN = true) (hhalt : (s.dev.target (18 + n)).halted = false)
    (hstep : (s.dev.target (18 + n)).stepping = false) (hset : s.dev.stew.settings = []) :
    execLoopTick t n s = .next { s with dt := s.now t, dev := (s.dev.takeTrig (3 + n)).loopTick (s.now t) n f } := by
  have hsettle (code i : Nat) : ({ s.dev with cue := { s.dev.cue with trig := tdel s.dev.cue.trig (3 + n) } } : Dev).settle (s.now t) code i = s.dev.takeTrig (3 + n) :=
    Dev.settle_of_noSettings (d := s.dev.takeTrig (3 + n)) (s.now t) code i hset
  have hsettle' (code i : Nat) : (s.dev.takeTrig (3 + n)).settle (s.now t) code i = s.dev.takeTrig (3 + n) := hsettle code i
  have hrun : ¬ (s.dev.fb (r1 .leEngCfg n) F.leEngCfg.EN = false ∨ s.dev.engHalted n = true) := by simp [hen, Dev.engHalted, hhalt]
  have hfree : ¬ (s.dev.target (18 + n)).stepping = true := by simp [hstep]
  unfold execLoopTick
  simp only [State.run_eq, htrig, hn, hon, hin, and_self, if_true, hsettle, hsettle']
  exact congrArg (fun d : Dev => Host.Outcome.next ({ s with dt := s.now t, dev := d } : State)) ((if_neg hrun).trans (if_neg hfree))

theorem loopTick_takesCue {s : State} {t n f : Nat} (htrig : tget s.dev.cue.trig (3 + n) = some f) (hn : n < 8) (hon : s.dev.engOn n = true)
    (hin : 200 < s.dev.elapsed f (s.now t)) (hen : s.dev.fb (r1 .leEngCfg n) F.leEngCfg.EN = true) (hhalt : (s.dev.target (18 + n)).halted = false)
    (hstep : (s.dev.target (18 + n)).stepping = false) (hset : s.dev.stew.settings = []) (hearly : s.dev.isEarly n = false) (hch : (s.dev.eng n).changes = []) (hf : f < 2 ^ 64) :
    Answers (.loopTick t n) s fun s' => tget s'.dev.cue.trig (3 + n) = none ∧ s'.dev.rn (r1 .leEngTickAt n) = f ∧ (s'.dev.eng n).latched = s.dev.latch f (s.dev.eng n).latched ∧
      ((s.dev.eng n).armed ≠ [] → (s.dev.lineAt f).2.2 = true → (s.dev.eng n).holding = false →
        (s'.dev.eng n).holding = true ∧ s'.dev.rn (r1 .leEngHoldAt n) = f ∧ (s.dev.on 156 = true → s'.dev.eic.pend.contains (192 + n) = true)) ∧
      ((s.dev.eng n).holding = false → (s.dev.eng n).holdCmd = false → (s.dev.lineAt f).2.2 = false → s.dev.setStale n f ((s.dev.eng n).setAt f) = false → s.dev.anyUnfit n = false →
        (s'.dev.eng n).holding = false ∧ (s'.dev.eng n).armed.map ArmedLaw.slot = (s.dev.eng n).armed.map ArmedLaw.slot) := by
  obtain ⟨hcue, hat, hlatched, hholds, hruns⟩ := Dev.loopTick_leaves (d := s.dev.takeTrig (3 + n)) (s.now t) f hn hearly hch
  have hfmod : f % 2 ^ 64 = f := Nat.mod_eq_of_lt hf
  rw [hfmod] at hat hholds
  refine ⟨_, execLoopTick_next htrig hn hon hin hen hhalt hstep hset, ?_, hat, hlatched, fun harmed hstop hnot => hholds ?_ hnot, fun hnot hcmd hgo hfresh hfit => hruns ?_ hnot⟩
  · exact (congrArg (fun c : CueSt => tget c.trig (3 + n)) hcue).trans (tget_tdel ..)
  · have hcause : s.dev.holdCause n f = true := by simp [Dev.holdCause, harmed, hstop]
    exact hcause
  · have hcause : s.dev.holdCause n f = false := by simp [Dev.holdCause, hgo, hfresh, hcmd, hfit]
    exact hcause

/-! ### The statement -/

/-- Settles O53: a tick takes its cue and holds its laws on a stop request, a completed slot flips to every engine, frames, injections and captures end, and
a wait past D + G commits EXPIRED while one within it stands. -/
theorem loopEngineEvents : Obligations.LoopEngineEvents := by
  unfold Obligations.LoopEngineEvents
  exact ⟨fun _ _ _ _ => loopTick_takesCue, fun _ _ _ _ _ _ => commandFrameQueue_queues, fun _ _ _ _ _ => injectionEnd_serves, fun _ _ _ _ _ => captureEnd_serves,
    fun _ _ _ _ _ _ _ _ _ _ => referenceFlip_flips, fun _ _ _ _ hw hout => ⟨waitExpire_commits hw hout, waitExpire_early hw⟩⟩

end Sys2Proof.Machine

/-! ## Fields and frames of registers, and the register file cut by a test -/

namespace Sys2Proof.Machine

/-! ### One-bit fields -/

/-- A one-bit field reads as it was written. -/
theorem Dev.fb_sf (d : Dev) (r : Reg) {x : Fld} (b : Bool) (hx : x.lo + x.w ≤ 64) (hw : x.w = 1) : (d.sf r x (b2n b)).fb r x = b := by
  unfold Dev.fb
  rw [Dev.f_sf d r _ hx, hw]
  cases b <;> rfl

/-- A field beside the one written reads as before. -/
theorem Dev.fb_sf_ne {d : Dev} {r : Reg} {x y : Fld} (n : Nat) (hx : x.lo + x.w ≤ 64) (hd : y.lo + y.w ≤ x.lo ∨ x.lo + x.w ≤ y.lo) : (d.sf r x n).fb r y = d.fb r y := by
  unfold Dev.fb
  rw [Dev.f_sf_ne n hx hd]

theorem Reg.ne_of_index {q r : Reg} (h : q.i ≠ r.i) : q ≠ r := fun e => h (e ▸ rfl)

/-! ### What an update leaves of families of registers -/

/-- The registers of the families that a test names are as before. -/
structure KeepsRegs (p : RegName → Bool) (d d' : Dev) : Prop where
  rd : ∀ r : Reg, p r.name = true → d'.rd r = d.rd r

namespace KeepsRegs

variable {p : RegName → Bool} {d d' d'' : Dev}

theorem refl (p : RegName → Bool) (d : Dev) : KeepsRegs p d d := ⟨fun _ _ => rfl⟩

theorem trans (a : KeepsRegs p d d') (b : KeepsRegs p d' d'') : KeepsRegs p d d'' := ⟨fun r h => (b.rd r h).trans (a.rd r h)⟩

theorem of_regs (h : d'.regs = d.regs) : KeepsRegs p d d' := ⟨fun r _ => Dev.rd_of_regs h r⟩

theorem wr {r : Reg} (v : Word) (h : p r.name = false) : KeepsRegs p d (d.wr r v) :=
  ⟨fun _ hq => Dev.rd_wr_ne fun e => by rw [e, h] at hq; cases hq⟩

theorem wn {r : Reg} (n : Nat) (h : p r.name = false) : KeepsRegs p d (d.wn r n) := wr _ h

theorem sf {r : Reg} (x : Fld) (n : Nat) (h : p r.name = false) : KeepsRegs p d (d.sf r x n) := wr _ h

theorem ite {c : Prop} [Decidable c] {e e' : Dev} (h : KeepsRegs p d e) (h' : KeepsRegs p d e') : KeepsRegs p d (if c then e else e') := by
  split <;> assumption

theorem foldl {α : Type} {f : Dev → α → Dev} (h : ∀ d a, KeepsRegs p d (f d a)) (l : List α) (d : Dev) : KeepsRegs p d (l.foldl f d) := by
  induction l generalizing d with
  | nil => exact refl p d
  | cons a l ih => exact (h d a).trans (ih _)

theorem with_ss (h : KeepsRegs p d d') (x : SsSt) : KeepsRegs p d { d' with ss := x } := ⟨h.rd⟩

theorem with_eic (h : KeepsRegs p d d') (x : EicSt) : KeepsRegs p d { d' with eic := x } := ⟨h.rd⟩

theorem raise (x : Nat) : KeepsRegs p d (d.raise x) := of_regs (Dev.raise_regs ..)

end KeepsRegs

/-! ### The register file cut by a test -/

/-- A register that the test keeps whatever it holds reads as before. -/
theorem Regs.rd_filter {rs : Regs} {r : Reg} {p : Reg × Word → Bool} (h : ∀ v, p (r, v) = true) : Regs.rd (rs.filter p) r = Regs.rd rs r := by
  induction rs with
  | nil => rfl
  | cons e rest ih =>
    obtain ⟨q, v⟩ := e
    by_cases hq : q = r
    · subst hq
      rw [List.filter_cons_of_pos (h v)]
      simp [Regs.rd]
    · cases hp : p (q, v) with
      | true => rw [List.filter_cons_of_pos hp]; simp [Regs.rd, hq, ih]
      | false => rw [List.filter_cons_of_neg (by simp [hp])]; simp [Regs.rd, hq, ih]

end Sys2Proof.Machine

/-! ## O2, O5, O6: the time-base cycle, the state after reset, and device time -/

namespace Sys2Proof.Machine

/-! ### The time-base cycle of an empty queue -/

/-- The ticks and the fraction of a cycle are the only ones whose sum is right and whose fraction fits (R29). -/
theorem cycleAdvance_unique {dt dt' frac frac' : Nat} {rate : Int} (hlt : frac' < 2 ^ 32) (hsum : (dt' : Int) * 2 ^ 32 + frac' = (dt : Int) * 2 ^ 32 + frac + 2 ^ 32 + rate)
    (hpos : (0 : Int) ≤ 2 ^ 32 + frac + rate) : dt + (cycleAdvance frac rate).1 = dt' ∧ (cycleAdvance frac rate).2 = frac' := by
  unfold cycleAdvance
  dsimp only
  omega

theorem timeBaseCycle_runs {s : State} {dt' frac' : Nat} (hon : s.dev.earlyOn = true) (hlt : frac' < 2 ^ 32) (hle : dt' ≤ dtMax)
    (hsum : (dt' : Int) * 2 ^ 32 + frac' = (s.dt : Int) * 2 ^ 32 + s.frac + 2 ^ 32 + s.dev.rate) (hpos : (0 : Int) ≤ 2 ^ 32 + s.frac + s.dev.rate) :
    timeBaseCycle s = .next { s with dt := dt', frac := frac' } := by
  obtain ⟨hdt, hfrac⟩ := cycleAdvance_unique hlt hsum hpos
  simp only [timeBaseCycle, hon, Bool.true_eq_false, if_false, hdt, hfrac, hle, if_true]

theorem step_of_empty {s : State} (h : s.pending = []) : step s = timeBaseCycle s := by
  unfold step
  rw [h]

/-- Settles O2: an empty queue steps by one time-base cycle, whose ticks and fraction are the only ones that fit. -/
theorem idleStepIsTimeBaseCycle : Obligations.IdleStepIsTimeBaseCycle := by
  unfold Obligations.IdleStepIsTimeBaseCycle
  intro s hempty
  rw [step_of_empty hempty]
  exact ⟨fun hoff => if_pos hoff, fun hon _ _ hlt hle hsum hpos => timeBaseCycle_runs hon hlt hle hsum hpos⟩

/-- Settles O5: DT, its fraction and IGNORED are 0 after reset. -/
theorem resetInRange : Obligations.ResetInRange := by
  unfold Obligations.ResetInRange State.inRange
  decide

/-! ### A cold reset -/

theorem Dev.noteDebugEnd_regs (d : Dev) (now : Nat) (o : Bool) : (d.noteDebugEnd now o).regs = d.regs := by
  unfold Dev.noteDebugEnd
  split
  · exact Dev.almMc_regs ..
  · rfl

/-- A cold reset that is due starts DT at 0 and leaves every register at its reset value (R8, R30). -/
theorem coldReset_resets {s : State} {t : Nat} (hdue : s.dev.resetDue (s.now t) true = true) :
    Answers (.coldReset t) s fun s' => s'.dt = 0 ∧ s'.frac = 0 ∧ s'.dev.regs = [] := by
  refine ⟨_, if_pos hdue, rfl, rfl, ?_⟩
  exact (Dev.noteDebugEnd_regs ..).trans (Dev.almMc_regs ..)

theorem coldReset_clearsServo {s : State} {t : Nat} (hdue : s.dev.resetDue (s.now t) true = true) :
    Answers (.coldReset t) s fun s' => s'.dt = 0 ∧ s'.frac = 0 ∧ s'.dev.rn (r0 .timeServoInteg) = 0 ∧ s'.dev.rn (r0 .timeServoRate) = 0 ∧
      s'.dev.fb (r0 .timeStatus) F.timeStatus.UNSYNCED = true := by
  obtain ⟨s', hs', hdt, hfrac, hregs⟩ := coldReset_resets hdue
  have hrd (r : Reg) : s'.dev.rd r = ({} : Dev).rd r := Dev.rd_of_regs hregs r
  refine ⟨s', hs', hdt, hfrac, ?_⟩
  rw [Dev.rn_of_rd (hrd _), Dev.rn_of_rd (hrd _), Dev.fb_of_rd (hrd _)]
  decide

/-! ### A reset of the main domains -/

/-- The registers of the time unit that hold its state and its settings (R30 to R36). -/
def RegName.isTimeUnit (x : RegName) : Bool :=
  [RegName.timeCtrl, .timeStatus, .timeServoKp, .timeServoKi, .timeServoInteg, .timeServoRate, .timeJumpAt, .timeJumpSize].contains x

/-- A stamp changes the registers of its capture channel alone (R51). -/
theorem Dev.capture_keepsRegs {p : RegName → Bool} (hd : p .capChData = false) (hc : p .capChCnt = false) (hs : p .capChStat = false) (d : Dev) (now n stamp : Nat)
    (rising unc : Bool) : KeepsRegs p d (d.capture now n stamp rising unc) := by
  unfold Dev.capture
  extract_lets cnt d0 c0 d1 h
  have h1 : KeepsRegs p d d1 := .of_regs rfl
  split
  · refine h1.trans (.trans (.trans ?_ (.sf _ _ hs)) (.raise _))
    exact .trans (d' := { d1 with cue := { d1.cue with held := tset d1.cue.held n (h ++ [(stamp, cnt)]) } }) (.of_regs rfl) ((KeepsRegs.wn _ hd).trans (.wn _ hc))
  · exact h1.trans ((KeepsRegs.trans (.sf _ _ hs) (.sf _ _ hs)).trans (.raise _))

theorem Dev.captureAll_keepsRegs {p : RegName → Bool} (hd : p .capChData = false) (hc : p .capChCnt = false) (hs : p .capChStat = false) (d : Dev) (now src : Nat)
    (rising : Bool) (stamp : Nat) : KeepsRegs p d (d.captureAll now src rising stamp) := by
  unfold Dev.captureAll
  exact .foldl (fun d _ => .ite (Dev.capture_keepsRegs hd hc hs ..) (.refl p d)) _ d

/-- The safe-stop state changes SS_STAT and the capture channels that stamp it. -/
theorem Dev.syncStop_keepsTime (d : Dev) (now : Nat) : KeepsRegs RegName.isTimeUnit d (d.syncStop now) := by
  unfold Dev.syncStop
  extract_lets r c d1 want d2
  have h1 : KeepsRegs RegName.isTimeUnit d d1 := (KeepsRegs.sf _ _ rfl).trans (.sf _ _ rfl)
  split
  · exact h1
  · have h2 : KeepsRegs RegName.isTimeUnit d1 d2 := ((KeepsRegs.sf _ _ rfl).trans (Dev.captureAll_keepsRegs rfl rfl rfl ..)).trans (.raise _)
    have h3 : KeepsRegs RegName.isTimeUnit d2 (d2.almMc 0x070 1 now [b2n want, c]) := .of_regs (Dev.almMc_regs ..)
    exact ((h1.trans h2).trans h3).with_ss _

theorem Dev.ssSync_keepsTime (d : Dev) (now k : Nat) (disc edge : Bool) : KeepsRegs RegName.isTimeUnit d (d.ssSync now k disc edge) := by
  unfold Dev.ssSync
  extract_lets r stop was d1 d2 d3 p
  split
  · exact .refl _ d
  · have h1 : KeepsRegs RegName.isTimeUnit d d1 := .ite (.sf _ _ rfl) (.sf _ _ rfl)
    have h2 : KeepsRegs RegName.isTimeUnit d1 d2 := .ite (.sf _ _ rfl) (.sf _ _ rfl)
    have h3 : KeepsRegs RegName.isTimeUnit d2 d3 := .ite (.refl _ d2) (Dev.captureAll_keepsRegs rfl rfl rfl ..)
    exact ((h1.trans h2).trans h3).trans (.of_regs (Dev.alm_regs ..))

theorem Dev.setOwner_keepsTime (d : Dev) (type index : Nat) (o : Option Owner) : KeepsRegs RegName.isTimeUnit d (d.setOwner type index o) := by
  unfold Dev.setOwner
  extract_lets st d1 c
  have h1 : KeepsRegs RegName.isTimeUnit d d1 := .of_regs rfl
  exact h1.trans (.ite (.trans (.sf _ _ rfl) (.sf _ _ rfl)) (.ite (.trans (.sf _ _ rfl) (.sf _ _ rfl)) (.refl _ d1)))

/-- The return to the early holding service sets engine 0, its joints and channel 0 (R339, R343). -/
theorem Dev.holdStartAt_keepsTime (d : Dev) (now : Nat) (im : List Byte) : KeepsRegs RegName.isTimeUnit d (d.holdStartAt now im) := by
  unfold Dev.holdStartAt
  extract_lets laws e armed d1 d2 c d3 d4
  have h1 : KeepsRegs RegName.isTimeUnit d d1 := .of_regs rfl
  have h2 : KeepsRegs RegName.isTimeUnit d1 d2 := .foldl (fun d _ => ((KeepsRegs.sf _ _ rfl).trans (.sf _ _ rfl)).trans (.sf _ _ rfl)) _ d1
  have h3 : KeepsRegs RegName.isTimeUnit d2 d3 := (((KeepsRegs.sf _ _ rfl).trans (.sf _ _ rfl)).trans (.sf _ _ rfl)).trans (Dev.setOwner_keepsTime ..)
  have h4 : KeepsRegs RegName.isTimeUnit d3 d4 := ((KeepsRegs.sf _ _ rfl).trans (.sf _ _ rfl)).trans (.sf _ _ rfl)
  have h5 : KeepsRegs RegName.isTimeUnit d4 ((d4.wn (r1 .cueChTime 0) (now + 2000000)).sf c F.cueChCfg.ARM 1) := (KeepsRegs.wn _ rfl).trans (.sf _ _ rfl)
  have hsync : KeepsRegs RegName.isTimeUnit ((d4.wn (r1 .cueChTime 0) (now + 2000000)).sf c F.cueChCfg.ARM 1) (((d4.wn (r1 .cueChTime 0) (now + 2000000)).sf c F.cueChCfg.ARM 1).syncEng 0) := by
    unfold Dev.syncEng
    exact ((KeepsRegs.sf _ _ rfl).trans (.sf _ _ rfl)).trans (.sf _ _ rfl)
  exact (((h1.trans h2).trans h3).trans h4).trans (h5.trans hsync)

theorem Dev.earlyReturn_keepsTime (d : Dev) (now : Nat) : KeepsRegs RegName.isTimeUnit d (d.earlyReturn now) := by
  unfold Dev.earlyReturn
  extract_lets others
  have h1 : KeepsRegs RegName.isTimeUnit d others := .foldl (fun d _ => .ite (.sf _ _ rfl) (.refl _ d)) _ d
  exact (h1.trans (Dev.holdStartAt_keepsTime ..)).trans (.of_regs (Dev.almMc_regs ..))

/-- DT's control and status, the servo and the jump. -/
def timeUnitRegs : List Reg :=
  [r0 .timeCtrl, r0 .timeStatus, r0 .timeServoKp, r0 .timeServoKi, r0 .timeServoInteg, r0 .timeServoRate, r0 .timeJumpAt, r0 .timeJumpSize]

/-- The time unit's registers lie in the early domain, and none belongs to a late channel. -/
theorem timeUnitRegs_early : ∀ g ∈ timeUnitRegs, g.name.isTimeUnit = true ∧ g.lateChannel = false ∧ domainOf g.addr = some [170] := by decide

theorem Dev.mainReset_keepsTime (d : Dev) (now : Nat) {g : Reg} (hname : g.name.isTimeUnit = true) (hlate : g.lateChannel = false) (hdom : domainOf g.addr = some [170]) :
    (d.mainReset now).rd g = d.rd g := by
  unfold Dev.mainReset
  extract_lets early e0 back mc idn d1
  have hcut : d1.rd g = d.rd g := by
    refine (Regs.rd_filter fun v => ?_).trans (Regs.rd_filter fun v => ?_)
    · simp only [hlate, Bool.not_false]
    · simp only [hdom, early]; rfl
  have hback : KeepsRegs RegName.isTimeUnit d1 (if back then d1.earlyReturn now else d1) := .ite (Dev.earlyReturn_keepsTime ..) (.refl _ d1)
  have hend := (((hback.trans (.of_regs (Dev.almMc_regs _ 0x004 1 now [0]))).trans (Dev.ssSync_keepsTime _ now 0 false false)).trans
    (Dev.ssSync_keepsTime _ now 1 false false)).trans (Dev.syncStop_keepsTime _ now)
  exact (hend.rd g hname).trans hcut

theorem mainDomainReset_keepsTime {s : State} {t : Nat} (hdue : s.dev.resetDue (s.now t) false = true) (hon : s.dev.earlyOn = true) (hin : s.dev.pow.inputLost = false) :
    Answers (.mainDomainReset t) s fun s' => s'.dt = s.now t ∧ s'.frac = s.frac ∧ ∀ g ∈ timeUnitRegs, s'.dev.rd g = s.dev.rd g := by
  refine ⟨_, if_pos ⟨hdue, hon, .inl hin⟩, rfl, rfl, fun g hg => ?_⟩
  obtain ⟨hname, hlate, hdom⟩ := timeUnitRegs_early g hg
  exact (Dev.rd_of_regs (Dev.noteDebugEnd_regs ..) g).trans (Dev.mainReset_keepsTime _ _ hname hlate hdom)

/-! ### DT in every other command -/

/-- DT does not run back, and stays within its counter (R11, R30). -/
def TimeForward (s s' : State) : Prop := s.dt ≤ dtMax → s.dt ≤ s'.dt ∧ s'.dt ≤ dtMax

namespace TimeForward

variable {s s' : State}

theorem of_now {t : Nat} (h : s'.dt = s.now t) : TimeForward s s' := fun hs => h ▸ ⟨s.now_ge t, s.now_le t hs⟩

theorem of_run {t : Nat} {f : Nat → Dev → Dev} (h : s.run t f = .next s') : TimeForward s s' := by
  cases h
  exact of_now rfl

theorem servoUpdate {t c : Nat} {off : Word} (h : execServoUpdate t c off s = .next s') : TimeForward s s' := by
  intro hs
  refine ⟨?_, (execServoUpdate_keepsCounters h).dt hs⟩
  unfold execServoUpdate at h
  dsimp only at h
  split at h <;> cases h
  · exact (s.now_ge t).trans (Nat.le_add_right ..)
  · exact s.now_ge t

theorem mcStart {t ns v1 : Nat} (h : execMcStart t ns v1 s = .next s') : TimeForward s s' := by
  unfold execMcStart at h
  dsimp only at h
  split at h
  · cases h; split <;> exact of_now rfl
  · split at h <;> cases h
    · split <;> exact of_now rfl
    · exact of_now rfl

theorem bootLatchClose {t c v : Nat} (h : execBootLatchClose t c v s = .next s') : TimeForward s s' := by
  unfold execBootLatchClose at h
  dsimp only at h
  split at h
  · split at h <;> cases h <;> exact of_now rfl
  · cases h; exact of_now rfl

theorem mainDomainReset {t : Nat} (h : execMainDomainReset t s = .next s') : TimeForward s s' := by
  unfold execMainDomainReset at h
  dsimp only at h
  split at h <;> cases h <;> exact of_now rfl

theorem latchedWrite {t c : Nat} {r : Reg} {v : Word} (h : s.latchedWrite t c r v = .next s') : TimeForward s s' := by
  unfold State.latchedWrite at h
  dsimp only at h
  split at h
  · split at h <;> cases h <;> exact of_now rfl
  · -- TIME_SERVO_OFFSET, first, and BOOT_LATCH, tenth, change more than the device and the time.
    split at h
    case h_1 => exact servoUpdate h
    case h_10 => exact bootLatchClose h
    all_goals cases h; exact of_now rfl

theorem writeReg {t c : Nat} {r : Reg} {v : Word} (h : s.writeReg t c r v = .next s') : TimeForward s s' := by
  unfold State.writeReg at h
  split at h
  · split at h
    · next hw =>
      cases h
      have hforward := latchedWrite hw
      exact hforward
    · next hw => exact absurd h (hw s')
  · exact latchedWrite h

theorem blockAccess {t c a n : Nat} {x : Acc} {v : Word} (h : s.blockAccess t c a n x v = .next s') : TimeForward s s' := by
  unfold State.blockAccess at h
  split at h
  · split at h
    · cases x with
      | read => cases h; exact of_now rfl
      | write => exact writeReg h
      | exec => exact of_run h
    · exact of_run h
  · split at h <;> exact of_run h

theorem access {t c a n ecc : Nat} {x : Acc} {bs : List Byte} (h : s.access t c a n x bs ecc = .next s') : TimeForward s s' := by
  unfold State.access at h
  split at h
  case h_1 => exact blockAccess h
  all_goals exact of_run h

theorem debugAccess {t a n : Nat} {x : Acc} {bs : List Byte} : TimeForward s (s.debugAccess t a n x bs) := by
  unfold State.debugAccess
  split
  · next h => exact access h
  · exact fun hs => ⟨le_refl _, hs⟩

theorem memWrite {t : Nat} {p : UlzilPacket} (h : execMemWrite t p s = .next s') : TimeForward s s' := by
  intro hs
  unfold execMemWrite at h
  dsimp only at h
  have hacc := debugAccess (s := s) (t := t) (a := p.addr) (n := p.payload.length) (x := .write) (bs := p.payload) hs
  cases h
  split
  · exact ⟨hacc.1.trans (le_max_left ..), max_le hacc.2 (s.now_le t hs)⟩
  · exact ⟨s.now_ge t, s.now_le t hs⟩

end TimeForward

/-- No command but the four that take or give the early domain's power or reset the processor cold lets DT run back. -/
theorem exec_timeForward {i : Instr} {s s' : State} (h : exec i s = .next s')
    (hi : ∀ t, i ≠ .coldReset t ∧ i ≠ .processorOff t ∧ (∀ v, i ≠ .overtempShutdown t v) ∧ (∀ v mv m, i ≠ .earlyDomainRelease t v mv m)) : TimeForward s s' := by
  cases hout : actsOutside i with
  | false =>
    obtain ⟨d, hd⟩ := exec_next_of_not_actsOutside i s hout
    cases hd.symm.trans h
    exact .of_now rfl
  | true =>
    cases i with
    | servoUpdate => exact .servoUpdate h
    | counterAdvance | updateConfirm => cases h; exact .of_now rfl
    | mcStart => exact .mcStart h
    | bootLatchClose => exact .bootLatchClose h
    | mainDomainReset => exact .mainDomainReset h
    | registerWrite => exact .blockAccess h
    | memoryAccess => exact .access h
    | memWrite => exact .memWrite h
    | coldReset t => exact absurd rfl (hi t).1
    | processorOff t => exact absurd rfl (hi t).2.1
    | overtempShutdown t v => exact absurd rfl ((hi t).2.2.1 v)
    | earlyDomainRelease t v mv m => exact absurd rfl ((hi t).2.2.2 v mv m)
    | _ => exact Bool.noConfusion hout

/-- Settles O6: a cold reset starts every register afresh, a main-domain reset keeps the early domain's, and every other command acts at its instant, which is
not before DT. -/
theorem timeNeverRunsBack : Obligations.TimeNeverRunsBack := by
  unfold Obligations.TimeNeverRunsBack
  exact ⟨fun _ _ => coldReset_clearsServo, fun _ _ => mainDomainReset_keepsTime, fun _ _ _ h hi => exec_timeForward h hi⟩

end Sys2Proof.Machine

/-! ## O11, O12, O13: the servo, the first lock, holdover and the lock of the root PLL -/

namespace Sys2Proof.Machine

theorem wrapInt_lt (w : Nat) (i : Int) : wrapInt w i < 2 ^ w := by
  have hpos : (0 : Int) < ((2 ^ w : Nat) : Int) := by exact_mod_cast Nat.two_pow_pos w
  have h0 := Int.emod_nonneg i hpos.ne'
  have h1 := Int.emod_lt_of_pos i hpos
  unfold wrapInt
  omega

/-- The device that answers an access of an initiator with OK (R5). -/
def Dev.acked (d : Dev) : Dev := { d with bus := .ok }

/-- Registers do not show the holdover timer. -/
theorem Dev.rd_withTime (d : Dev) (x : TimeSt) (r : Reg) : ({ d with time := x } : Dev).rd r = d.rd r := rfl

/-! ### One update of the servo -/

/-- The integrator after an update with an offset (R33). -/
def Dev.servoInteg (d : Dev) (e : Int) : Int := clampInteg (sext 64 (d.rn (r0 .timeServoInteg)) + (d.rn (r0 .timeServoKi) : Int) * e)

/-- The rate after an update with an offset (R33). -/
def Dev.servoRate (d : Dev) (e : Int) : Int := clampInt (-slewLimit) slewLimit (roundEvenDiv (-((d.rn (r0 .timeServoKp) : Int) * e + d.servoInteg e)) 65536)

theorem Dev.servoStep_eq (d : Dev) (e : Int) :
    d.servoStep e = ((d.wn (r0 .timeServoInteg) (wrapInt 64 (d.servoInteg e))).wn (r0 .timeServoRate) (wrapInt 32 (d.servoRate e))).sf (r0 .timeStatus)
      F.timeStatus.RATE_CLAMPED (b2n (d.servoRate e == slewLimit || d.servoRate e == -slewLimit)) := rfl

theorem Dev.servoStep_integ (d : Dev) (e : Int) : (d.servoStep e).rn (r0 .timeServoInteg) = wrapInt 64 (d.servoInteg e) := by
  rw [Dev.servoStep_eq, Dev.rn_of_rd (Dev.rd_sf_ne (by decide)), Dev.rn_of_rd (Dev.rd_wn_ne (by decide)), Dev.rn_wn]
  exact Nat.mod_eq_of_lt (wrapInt_lt ..)

theorem Dev.servoStep_rate (d : Dev) (e : Int) : (d.servoStep e).rn (r0 .timeServoRate) = wrapInt 32 (d.servoRate e) := by
  rw [Dev.servoStep_eq, Dev.rn_of_rd (Dev.rd_sf_ne (by decide)), Dev.rn_wn]
  exact Nat.mod_eq_of_lt ((wrapInt_lt ..).trans (by decide))

theorem Dev.servoStep_clamped (d : Dev) (e : Int) :
    (d.servoStep e).fb (r0 .timeStatus) F.timeStatus.RATE_CLAMPED = (d.servoRate e == slewLimit || d.servoRate e == -slewLimit) := by
  rw [Dev.servoStep_eq]
  exact Dev.fb_sf _ _ _ (by decide) rfl

/-- The other flags of TIME_STATUS stay. -/
theorem Dev.servoStep_flag (d : Dev) (e : Int) {x : Fld} (hx : x.lo + x.w ≤ F.timeStatus.RATE_CLAMPED.lo ∨ F.timeStatus.RATE_CLAMPED.lo + F.timeStatus.RATE_CLAMPED.w ≤ x.lo) :
    (d.servoStep e).fb (r0 .timeStatus) x = d.fb (r0 .timeStatus) x := by
  rw [Dev.servoStep_eq, Dev.fb_sf_ne _ (by decide) hx, Dev.fb_of_rd (Dev.rd_wn_ne (by decide)), Dev.fb_of_rd (Dev.rd_wn_ne (by decide))]

theorem Dev.servoStep_rd {d : Dev} {e : Int} {r : Reg} (hi : r ≠ r0 .timeServoInteg) (hr : r ≠ r0 .timeServoRate) (hs : r ≠ r0 .timeStatus) :
    (d.servoStep e).rd r = d.rd r := by
  rw [Dev.servoStep_eq, Dev.rd_sf_ne hs, Dev.rd_wn_ne hr, Dev.rd_wn_ne hi]

section
variable {d d' : Dev} (h : ∀ r : Reg, r ≠ r0 .timeStatus → d'.rd r = d.rd r) (e : Int)
include h

theorem Dev.servoInteg_of_rd : d'.servoInteg e = d.servoInteg e := by
  unfold Dev.servoInteg
  rw [Dev.rn_of_rd (h _ (by decide)), Dev.rn_of_rd (h _ (by decide))]

theorem Dev.servoRate_of_rd : d'.servoRate e = d.servoRate e := by
  unfold Dev.servoRate
  rw [Dev.rn_of_rd (h _ (by decide)), Dev.servoInteg_of_rd h]

end

/-! ### A write of an offset -/

/-- A write that reaches the servo: DT takes the ticks of the jump, the device what the write does. -/
theorem servoUpdate_hits {s : State} {t c k : Nat} {off : Word} {d : Dev} (h : hits s t c (r0 .timeServoOffset) .write = true)
    (hw : s.dev.acked.offsetWrite (s.now t) (sext 64 off.toNat) = (k, d)) :
    exec (.servoUpdate t c off) s = .next { s with dt := s.now t + k, dev := d } := by
  have hexec : exec (.servoUpdate t c off) s = .next { s with
      dt := s.now t + (s.dev.acked.offsetWrite (s.now t) (sext 64 off.toNat)).1
      dev := (s.dev.acked.offsetWrite (s.now t) (sext 64 off.toNat)).2 } := if_pos h
  rw [hexec, hw]

theorem Dev.offsetWrite_disabled {d : Dev} {now : Nat} {e : Int} (h : d.fb (r0 .timeCtrl) F.timeCtrl.SERVO_EN = false) : d.offsetWrite now e = (0, d) := if_pos h

section
variable {d : Dev} (now : Nat) {e : Int} (hen : d.fb (r0 .timeCtrl) F.timeCtrl.SERVO_EN = true)
include hen

theorem Dev.offsetWrite_steady (hlock : d.fb (r0 .timeStatus) F.timeStatus.UNSYNCED = false) :
    d.offsetWrite now e = (0, { (d.sf (r0 .timeStatus) F.timeStatus.HOLDOVER 0).servoStep e with time := { holdBase := some now } }) := by
  unfold Dev.offsetWrite
  simp only [hen, hlock, Bool.true_eq_false, Bool.false_eq_true, if_false]

/-- The device with HOLDOVER and UNSYNCED cleared, as the first lock starts (R35, R36). -/
def Dev.locked (d : Dev) : Dev := (d.sf (r0 .timeStatus) F.timeStatus.HOLDOVER 0).sf (r0 .timeStatus) F.timeStatus.UNSYNCED 0

/-- The device that locks without a jump: a step that JUMP_ARM asked for is refused (R36). -/
def Dev.lockedInPlace (d : Dev) : Dev :=
  if d.fb (r0 .timeCtrl) F.timeCtrl.JUMP_ARM then (d.locked.sf (r0 .timeStatus) F.timeStatus.STEP_REFUSED 1).raise 1 else d.locked

/-- The device in the edge of a jump of k ticks to an instant, before its record (R36, R37). -/
def Dev.jumped (d : Dev) (at_ k : Nat) : Dev :=
  ((((d.locked.wn (r0 .timeJumpAt) at_).wn (r0 .timeJumpSize) k).sf (r0 .timeStatus) F.timeStatus.JUMPED 1).jumpAll k).raise 1

variable (hlock : d.fb (r0 .timeStatus) F.timeStatus.UNSYNCED = true)
include hlock

theorem Dev.offsetWrite_jumps (harm : d.fb (r0 .timeCtrl) F.timeCtrl.JUMP_ARM = true) (hneg : e < 0) :
    let k := min e.natAbs (dtMax - now)
    d.offsetWrite now e = (k, { (d.jumped (now + k) k).emit 0x0001 (now + k) .mcEvent false [now + k, k] with time := { holdBase := some (now + k) } }) := by
  unfold Dev.offsetWrite
  simp only [hen, hlock, harm, hneg, Bool.true_eq_false, if_false, and_self, if_true]
  rfl

theorem Dev.offsetWrite_locks (hstep : d.fb (r0 .timeCtrl) F.timeCtrl.JUMP_ARM = false ∨ 0 ≤ e) :
    d.offsetWrite now e = (0, { d.lockedInPlace.servoStep e with time := { holdBase := some now } }) := by
  have hno : ¬ (d.fb (r0 .timeCtrl) F.timeCtrl.JUMP_ARM = true ∧ e < 0) := by
    rintro ⟨harm, hneg⟩
    rcases hstep with h | h
    · rw [harm] at h; cases h
    · omega
  unfold Dev.offsetWrite
  simp only [hen, hlock, Bool.true_eq_false, if_false, if_true]
  rw [if_neg hno]
  rfl

end

/-! ### O11 -/

theorem servoUpdate_steady {s : State} {t c : Nat} {off : Word} (h : hits s t c (r0 .timeServoOffset) .write = true)
    (hen : s.dev.fb (r0 .timeCtrl) F.timeCtrl.SERVO_EN = true) (hlock : s.dev.fb (r0 .timeStatus) F.timeStatus.UNSYNCED = false) :
    let e := sext 64 off.toNat
    Answers (.servoUpdate t c off) s fun s' =>
      s'.dt = s.now t ∧ s'.dev.rn (r0 .timeServoInteg) = wrapInt 64 (s.dev.servoInteg e) ∧ s'.dev.rn (r0 .timeServoRate) = wrapInt 32 (s.dev.servoRate e) ∧
      s'.dev.fb (r0 .timeStatus) F.timeStatus.HOLDOVER = false ∧
      s'.dev.fb (r0 .timeStatus) F.timeStatus.RATE_CLAMPED = (s.dev.servoRate e == slewLimit || s.dev.servoRate e == -slewLimit) ∧
      (∀ r, r ≠ r0 .timeServoInteg → r ≠ r0 .timeServoRate → r ≠ r0 .timeStatus → s'.dev.rd r = s.dev.rd r) ∧ s'.dev.mem = s.dev.mem := by
  intro e
  refine ⟨_, servoUpdate_hits h (Dev.offsetWrite_steady (d := s.dev.acked) (s.now t) hen hlock), rfl, ?_⟩
  have hd (r : Reg) (hr : r ≠ r0 .timeStatus) : (s.dev.acked.sf (r0 .timeStatus) F.timeStatus.HOLDOVER 0).rd r = s.dev.rd r := Dev.rd_sf_ne hr
  have hhold : (s.dev.acked.sf (r0 .timeStatus) F.timeStatus.HOLDOVER 0).fb (r0 .timeStatus) F.timeStatus.HOLDOVER = false :=
    Dev.fb_sf _ _ false (by decide) rfl
  have hmem : (s.dev.acked.sf (r0 .timeStatus) F.timeStatus.HOLDOVER 0).mem = s.dev.mem := rfl
  have hinteg := Dev.servoInteg_of_rd hd e
  have hrate := Dev.servoRate_of_rd hd e
  generalize s.dev.acked.sf (r0 .timeStatus) F.timeStatus.HOLDOVER 0 = d at *
  rw [← hinteg, ← hrate]
  exact ⟨(Dev.rn_of_rd (Dev.rd_withTime ..)).trans (d.servoStep_integ e), (Dev.rn_of_rd (Dev.rd_withTime ..)).trans (d.servoStep_rate e),
    (Dev.fb_of_rd (Dev.rd_withTime ..) _).trans ((d.servoStep_flag e (by decide)).trans hhold), (Dev.fb_of_rd (Dev.rd_withTime ..) _).trans (d.servoStep_clamped e),
    fun r hi hr hs => (Dev.rd_withTime ..).trans ((Dev.servoStep_rd hi hr hs).trans (hd r hs)), hmem⟩

/-- Settles O11: in steady state an offset write is one update of the servo. -/
theorem servoUpdateLaw : Obligations.ServoUpdateLaw := by
  unfold Obligations.ServoUpdateLaw
  exact fun _ _ _ _ => servoUpdate_steady

/-! ### The jump of the first lock -/

/-- One channel's part of the jump, as `Dev.rebaseCues` does it for each in turn (R37). -/
def Dev.rebaseCue (k : Nat) (d : Dev) (n : Nat) : Dev :=
  if d.fb (r1 .cueChCfg n) F.cueChCfg.ARM then (d.wn (r1 .cueChTime n) (rebase k (d.rn (r1 .cueChTime n)))).sf (r1 .cueChStat n) F.cueChStat.REBASED 1 else d

theorem Dev.rebaseCue_cfg (k : Nat) (d : Dev) (n m : Nat) : (d.rebaseCue k n).rd (r1 .cueChCfg m) = d.rd (r1 .cueChCfg m) := by
  unfold Dev.rebaseCue
  split
  · exact (Dev.rd_sf_ne (Reg.ne_of_name (by simp))).trans (Dev.rd_wn_ne (Reg.ne_of_name (by simp)))
  · rfl

theorem Dev.rebaseCue_time_ne {k n m : Nat} {d : Dev} (h : m ≠ n) : (d.rebaseCue k n).rd (r1 .cueChTime m) = d.rd (r1 .cueChTime m) := by
  unfold Dev.rebaseCue
  split
  · exact (Dev.rd_sf_ne (Reg.ne_of_name (by simp))).trans (Dev.rd_wn_ne (Reg.ne_of_index h))
  · rfl

/-- A saturated time fits the register (R37). -/
theorem satAdd_dtMax_mod (x k : Nat) : satAdd dtMax x k % 2 ^ 64 = satAdd dtMax x k := by
  unfold satAdd dtMax
  split <;> omega

theorem Dev.rebaseCue_time {k n : Nat} {d : Dev} (h : d.fb (r1 .cueChCfg n) F.cueChCfg.ARM = true) :
    (d.rebaseCue k n).rn (r1 .cueChTime n) = satAdd dtMax (d.rn (r1 .cueChTime n)) k := by
  unfold Dev.rebaseCue
  rw [if_pos h, Dev.rn_of_rd (Dev.rd_sf_ne (Reg.ne_of_name (by simp))), Dev.rn_wn]
  exact satAdd_dtMax_mod ..

theorem Dev.rebaseCue_unarmed {k n : Nat} {d : Dev} (h : d.fb (r1 .cueChCfg n) F.cueChCfg.ARM = false) : d.rebaseCue k n = d :=
  if_neg (by simp [h])

theorem Dev.rebaseCues_cfg (k : Nat) (ns : List Nat) (d : Dev) (m : Nat) : (ns.foldl (Dev.rebaseCue k) d).rd (r1 .cueChCfg m) = d.rd (r1 .cueChCfg m) := by
  induction ns generalizing d with
  | nil => rfl
  | cons n ns ih => exact (ih _).trans (Dev.rebaseCue_cfg ..)

theorem Dev.rebaseCues_time_notMem {k m : Nat} {ns : List Nat} (d : Dev) (h : m ∉ ns) : (ns.foldl (Dev.rebaseCue k) d).rd (r1 .cueChTime m) = d.rd (r1 .cueChTime m) := by
  induction ns generalizing d with
  | nil => rfl
  | cons n ns ih =>
    obtain ⟨hn, hns⟩ := not_or.mp (mt List.mem_cons.mpr h)
    exact (ih _ hns).trans (Dev.rebaseCue_time_ne hn)

/-- Channel m has its part once, between those of the channels before and after it. -/
theorem Dev.rebaseCues_at {k m : Nat} (d : Dev) (h : m < 64) : ∃ e : Dev, e.rd (r1 .cueChCfg m) = d.rd (r1 .cueChCfg m) ∧ e.rd (r1 .cueChTime m) = d.rd (r1 .cueChTime m) ∧
    (d.rebaseCues k).rd (r1 .cueChTime m) = (e.rebaseCue k m).rd (r1 .cueChTime m) := by
  obtain ⟨before, after, hl⟩ := List.append_of_mem (List.mem_range.mpr h)
  have hnd := List.nodup_cons.mp (List.nodup_middle.mp (hl ▸ List.nodup_range))
  obtain ⟨hb, ha⟩ := not_or.mp (mt List.mem_append.mpr hnd.1)
  refine ⟨before.foldl (Dev.rebaseCue k) d, Dev.rebaseCues_cfg .., Dev.rebaseCues_time_notMem d hb, ?_⟩
  show ((List.range 64).foldl (Dev.rebaseCue k) d).rd _ = _
  rw [hl, List.foldl_append, List.foldl_cons]
  exact Dev.rebaseCues_time_notMem _ ha

/-- Registers that the jump leaves as they are: all but the channels' TIME and STAT and the timers' compare values (R37, R374). -/
def RegName.jumpKeeps (x : RegName) : Bool := x != .cueChTime && x != .cueChStat && x != .eicTTimecmp

theorem Dev.rebaseCues_keepsRegs (d : Dev) (k : Nat) : KeepsRegs RegName.jumpKeeps d (d.rebaseCues k) := by
  unfold Dev.rebaseCues
  exact .foldl (fun d _ => .ite ((KeepsRegs.wn _ rfl).trans (.sf _ _ rfl)) (.refl _ d)) _ d

theorem Dev.rebaseDeadlines_regs (d : Dev) (k : Nat) : (d.rebaseDeadlines k).regs = d.regs := rfl

/-- After the channels only the timers' compare values change. -/
theorem Dev.jumpAll_rd {d : Dev} {k : Nat} {r : Reg} (h : r.name ≠ .eicTTimecmp) : (d.jumpAll k).rd r = (d.rebaseCues k).rd r := by
  have htimers : KeepsRegs (· != .eicTTimecmp) (d.rebaseCues k) ((d.rebaseCues k).rebaseTimers k) := by
    unfold Dev.rebaseTimers
    exact (KeepsRegs.foldl (fun d _ => .ite (.wn _ rfl) (.refl _ d)) _ _).with_eic _
  unfold Dev.jumpAll
  exact (Dev.rd_of_regs (Dev.rebaseDeadlines_regs ..) r).trans (htimers.rd r (by simpa using h))

theorem Dev.jumpAll_keeps {d : Dev} {k : Nat} {r : Reg} (h : r.name.jumpKeeps = true) : (d.jumpAll k).rd r = d.rd r := by
  have hname : r.name ≠ .eicTTimecmp := fun e => by rw [e] at h; cases h
  exact (Dev.jumpAll_rd hname).trans ((d.rebaseCues_keepsRegs k).rd r h)

theorem Dev.jumpAll_time_armed {d : Dev} {k n : Nat} (hn : n < 64) (h : d.fb (r1 .cueChCfg n) F.cueChCfg.ARM = true) :
    (d.jumpAll k).rn (r1 .cueChTime n) = satAdd dtMax (d.rn (r1 .cueChTime n)) k := by
  obtain ⟨e, hcfg, htime, hat⟩ := d.rebaseCues_at (k := k) hn
  rw [Dev.rn_of_rd (Dev.jumpAll_rd (by simp)), Dev.rn_of_rd hat, Dev.rebaseCue_time ((Dev.fb_of_rd hcfg _).trans h), Dev.rn_of_rd htime]

theorem Dev.jumpAll_time_unarmed {d : Dev} {k n : Nat} (hn : n < 64) (h : d.fb (r1 .cueChCfg n) F.cueChCfg.ARM = false) :
    (d.jumpAll k).rd (r1 .cueChTime n) = d.rd (r1 .cueChTime n) := by
  obtain ⟨e, hcfg, htime, hat⟩ := d.rebaseCues_at (k := k) hn
  rw [Dev.jumpAll_rd (by simp), hat, Dev.rebaseCue_unarmed ((Dev.fb_of_rd hcfg _).trans h), htime]

/-! ### The first lock -/

theorem Dev.locked_rd {d : Dev} {r : Reg} (h : r ≠ r0 .timeStatus) : d.locked.rd r = d.rd r := (Dev.rd_sf_ne h).trans (Dev.rd_sf_ne h)

theorem Dev.locked_unsynced (d : Dev) : d.locked.fb (r0 .timeStatus) F.timeStatus.UNSYNCED = false := Dev.fb_sf _ _ false (by decide) rfl

theorem Dev.lockedInPlace_rd {d : Dev} {r : Reg} (h : r ≠ r0 .timeStatus) : d.lockedInPlace.rd r = d.rd r := by
  unfold Dev.lockedInPlace
  split
  · exact (Dev.rd_of_regs (Dev.raise_regs ..) r).trans ((Dev.rd_sf_ne h).trans (Dev.locked_rd h))
  · exact Dev.locked_rd h

theorem Dev.lockedInPlace_unsynced (d : Dev) : d.lockedInPlace.fb (r0 .timeStatus) F.timeStatus.UNSYNCED = false := by
  unfold Dev.lockedInPlace
  split
  · rw [Dev.fb_of_rd (Dev.rd_of_regs (Dev.raise_regs ..) _), Dev.fb_sf_ne 1 (by decide) (by decide)]
    exact d.locked_unsynced
  · exact d.locked_unsynced

theorem Dev.lockedInPlace_refused {d : Dev} (h : d.fb (r0 .timeCtrl) F.timeCtrl.JUMP_ARM = true) :
    d.lockedInPlace.fb (r0 .timeStatus) F.timeStatus.STEP_REFUSED = true := by
  unfold Dev.lockedInPlace
  rw [if_pos h, Dev.fb_of_rd (Dev.rd_of_regs (Dev.raise_regs ..) _)]
  exact Dev.fb_sf _ _ true (by decide) rfl

/-- What the edge of a jump leaves in the registers: the jump's instant and size, JUMPED, no UNSYNCED, the servo and the channels' configuration as they were (R36, R37). -/
structure Jumped (d d' : Dev) (at_ k : Nat) : Prop where
  at_ : at_ < 2 ^ 64 → d'.rn (r0 .timeJumpAt) = at_
  size : d'.rn (r0 .timeJumpSize) = k
  flag : d'.fb (r0 .timeStatus) F.timeStatus.JUMPED = true
  synced : d'.fb (r0 .timeStatus) F.timeStatus.UNSYNCED = false
  integ : d'.rd (r0 .timeServoInteg) = d.rd (r0 .timeServoInteg)
  rate : d'.rd (r0 .timeServoRate) = d.rd (r0 .timeServoRate)
  armed : ∀ n, n < 64 → d.fb (r1 .cueChCfg n) F.cueChCfg.ARM = true → d'.rn (r1 .cueChTime n) = satAdd dtMax (d.rn (r1 .cueChTime n)) k
  unarmed : ∀ n, n < 64 → d.fb (r1 .cueChCfg n) F.cueChCfg.ARM = false → d'.rd (r1 .cueChTime n) = d.rd (r1 .cueChTime n)

theorem Jumped.of_rd {d d' d'' : Dev} {at_ k : Nat} (j : Jumped d d' at_ k) (h : ∀ r, d''.rd r = d'.rd r) : Jumped d d'' at_ k where
  at_ hat := (Dev.rn_of_rd (h _)).trans (j.at_ hat)
  size := (Dev.rn_of_rd (h _)).trans j.size
  flag := (Dev.fb_of_rd (h _) _).trans j.flag
  synced := (Dev.fb_of_rd (h _) _).trans j.synced
  integ := (h _).trans j.integ
  rate := (h _).trans j.rate
  armed n hn ha := (Dev.rn_of_rd (h _)).trans (j.armed n hn ha)
  unarmed n hn ha := (h _).trans (j.unarmed n hn ha)

theorem Dev.jumped_jumped (d : Dev) (at_ : Nat) {k : Nat} (hk : k < 2 ^ 64) : Jumped d (d.jumped at_ k) at_ k := by
  -- The device in the edge, before the stored times move.
  obtain ⟨e, he, hrd⟩ : ∃ e : Dev, d.jumped at_ k = (e.jumpAll k).raise 1 ∧ e = ((d.locked.wn (r0 .timeJumpAt) at_).wn (r0 .timeJumpSize) k).sf (r0 .timeStatus) F.timeStatus.JUMPED 1 :=
    ⟨_, rfl, rfl⟩
  have hother (r : Reg) (hs : r ≠ r0 .timeStatus) (ha : r ≠ r0 .timeJumpAt) (hz : r ≠ r0 .timeJumpSize) : e.rd r = d.rd r := by
    rw [hrd, Dev.rd_sf_ne hs, Dev.rd_wn_ne hz, Dev.rd_wn_ne ha, Dev.locked_rd hs]
  have hcue {x : RegName} (n : Nat) (hs : x ≠ .timeStatus) (ha : x ≠ .timeJumpAt) (hz : x ≠ .timeJumpSize) : e.rd (r1 x n) = d.rd (r1 x n) :=
    hother _ (Reg.ne_of_name hs) (Reg.ne_of_name ha) (Reg.ne_of_name hz)
  have hall : Jumped d (e.jumpAll k) at_ k := by
    refine ⟨fun hat => ?_, ?_, ?_, ?_, ?_, ?_, fun n hn h => ?_, fun n hn h => ?_⟩
    · rw [Dev.rn_of_rd (Dev.jumpAll_keeps rfl), hrd, Dev.rn_of_rd (Dev.rd_sf_ne (by decide)), Dev.rn_of_rd (Dev.rd_wn_ne (by decide)), Dev.rn_wn]
      exact Nat.mod_eq_of_lt hat
    · rw [Dev.rn_of_rd (Dev.jumpAll_keeps rfl), hrd, Dev.rn_of_rd (Dev.rd_sf_ne (by decide)), Dev.rn_wn]
      exact Nat.mod_eq_of_lt hk
    · rw [Dev.fb_of_rd (Dev.jumpAll_keeps rfl), hrd]
      exact Dev.fb_sf _ _ true (by decide) rfl
    · rw [Dev.fb_of_rd (Dev.jumpAll_keeps rfl), hrd, Dev.fb_sf_ne _ (by decide) (by decide), Dev.fb_of_rd (Dev.rd_wn_ne (by decide)),
        Dev.fb_of_rd (Dev.rd_wn_ne (by decide))]
      exact d.locked_unsynced
    · exact (Dev.jumpAll_keeps rfl).trans (hother _ (by decide) (by decide) (by decide))
    · exact (Dev.jumpAll_keeps rfl).trans (hother _ (by decide) (by decide) (by decide))
    · rw [Dev.jumpAll_time_armed hn ((Dev.fb_of_rd (hcue n (by decide) (by decide) (by decide)) _).trans h), Dev.rn_of_rd (hcue n (by decide) (by decide) (by decide))]
    · rw [Dev.jumpAll_time_unarmed hn ((Dev.fb_of_rd (hcue n (by decide) (by decide) (by decide)) _).trans h), hcue n (by decide) (by decide) (by decide)]
  rw [he]
  exact hall.of_rd fun r => Dev.rd_of_regs (Dev.raise_regs ..) r

theorem servoUpdate_jumps {s : State} {t c : Nat} {off : Word} (h : hits s t c (r0 .timeServoOffset) .write = true)
    (hen : s.dev.fb (r0 .timeCtrl) F.timeCtrl.SERVO_EN = true) (hlock : s.dev.fb (r0 .timeStatus) F.timeStatus.UNSYNCED = true)
    (harm : s.dev.fb (r0 .timeCtrl) F.timeCtrl.JUMP_ARM = true) (hneg : sext 64 off.toNat < 0) :
    let k := min (sext 64 off.toNat).natAbs (dtMax - s.now t)
    Answers (.servoUpdate t c off) s fun s' => s'.dt = s.now t + k ∧ Jumped s.dev.acked s'.dev (s.now t + k) k := by
  intro k
  refine ⟨_, servoUpdate_hits h (Dev.offsetWrite_jumps (d := s.dev.acked) (s.now t) hen hlock harm hneg), rfl, ?_⟩
  have hk : k < 2 ^ 64 := Nat.lt_succ_of_le ((Nat.min_le_right ..).trans (Nat.sub_le ..))
  have hj : Jumped s.dev.acked (s.dev.acked.jumped (s.now t + k) k) (s.now t + k) k := Dev.jumped_jumped _ _ hk
  exact hj.of_rd fun r => (Dev.rd_withTime ..).trans (Dev.rd_of_regs (Dev.emit_regs ..) r)

/-- Without the jump the first lock is the servo's first update; it refuses the step where JUMP_ARM asked for one (R36). -/
theorem servoUpdate_locks {s : State} {t c : Nat} {off : Word} (h : hits s t c (r0 .timeServoOffset) .write = true)
    (hen : s.dev.fb (r0 .timeCtrl) F.timeCtrl.SERVO_EN = true) (hlock : s.dev.fb (r0 .timeStatus) F.timeStatus.UNSYNCED = true)
    (hstep : s.dev.fb (r0 .timeCtrl) F.timeCtrl.JUMP_ARM = false ∨ 0 ≤ sext 64 off.toNat) :
    let e := sext 64 off.toNat
    Answers (.servoUpdate t c off) s fun s' => s'.dt = s.now t ∧ s'.dev.fb (r0 .timeStatus) F.timeStatus.UNSYNCED = false ∧
      (s.dev.fb (r0 .timeCtrl) F.timeCtrl.JUMP_ARM = true → s'.dev.fb (r0 .timeStatus) F.timeStatus.STEP_REFUSED = true) ∧
      s'.dev.rn (r0 .timeServoInteg) = wrapInt 64 (s.dev.servoInteg e) ∧ s'.dev.rn (r0 .timeServoRate) = wrapInt 32 (s.dev.servoRate e) := by
  intro e
  refine ⟨_, servoUpdate_hits h (Dev.offsetWrite_locks (d := s.dev.acked) (s.now t) hen hlock hstep), rfl, ?_⟩
  have hrd (r : Reg) (hr : r ≠ r0 .timeStatus) : s.dev.acked.lockedInPlace.rd r = s.dev.rd r := Dev.lockedInPlace_rd hr
  have hsynced := s.dev.acked.lockedInPlace_unsynced
  have hrefused (harm : s.dev.fb (r0 .timeCtrl) F.timeCtrl.JUMP_ARM = true) := Dev.lockedInPlace_refused (d := s.dev.acked) harm
  rw [← Dev.servoInteg_of_rd hrd, ← Dev.servoRate_of_rd hrd]
  generalize s.dev.acked.lockedInPlace = d at *
  exact ⟨(Dev.fb_of_rd (Dev.rd_withTime ..) _).trans ((d.servoStep_flag e (by decide)).trans hsynced),
    fun harm => (Dev.fb_of_rd (Dev.rd_withTime ..) _).trans ((d.servoStep_flag e (by decide)).trans (hrefused harm)),
    (Dev.rn_of_rd (Dev.rd_withTime ..)).trans (d.servoStep_integ e), (Dev.rn_of_rd (Dev.rd_withTime ..)).trans (d.servoStep_rate e)⟩

theorem servoUpdate_disabled {s : State} {t c : Nat} {off : Word} (h : hits s t c (r0 .timeServoOffset) .write = true)
    (hoff : s.dev.fb (r0 .timeCtrl) F.timeCtrl.SERVO_EN = false) : Answers (.servoUpdate t c off) s fun s' => s' = { s with dt := s.now t, dev := { s.dev with bus := .ok } } :=
  ⟨_, servoUpdate_hits h (Dev.offsetWrite_disabled (d := s.dev.acked) hoff), rfl⟩

theorem servoUpdate_firstLock {s : State} {t c : Nat} {off : Word} (h : hits s t c (r0 .timeServoOffset) .write = true)
    (hen : s.dev.fb (r0 .timeCtrl) F.timeCtrl.SERVO_EN = true) (hlock : s.dev.fb (r0 .timeStatus) F.timeStatus.UNSYNCED = true) :
    let e := sext 64 off.toNat
    let k := e.natAbs
    Answers (.servoUpdate t c off) s fun s' => s'.dev.fb (r0 .timeStatus) F.timeStatus.UNSYNCED = false ∧
      (s.dev.fb (r0 .timeCtrl) F.timeCtrl.JUMP_ARM = true → e < 0 → s.now t + k ≤ dtMax → s'.dt = s.now t + k ∧ Jumped s.dev.acked s'.dev (s.now t + k) k) ∧
      ((s.dev.fb (r0 .timeCtrl) F.timeCtrl.JUMP_ARM = false ∨ 0 ≤ e) →
        s'.dt = s.now t ∧ (s.dev.fb (r0 .timeCtrl) F.timeCtrl.JUMP_ARM = true → s'.dev.fb (r0 .timeStatus) F.timeStatus.STEP_REFUSED = true) ∧
        s'.dev.rn (r0 .timeServoInteg) = wrapInt 64 (s.dev.servoInteg e) ∧ s'.dev.rn (r0 .timeServoRate) = wrapInt 32 (s.dev.servoRate e)) := by
  intro e k
  by_cases hstep : s.dev.fb (r0 .timeCtrl) F.timeCtrl.JUMP_ARM = false ∨ 0 ≤ e
  · obtain ⟨s', hs', hdt, hsynced, hrefused, hinteg, hrate⟩ := servoUpdate_locks h hen hlock hstep
    refine ⟨s', hs', hsynced, fun harm hneg _ => ?_, fun _ => ⟨hdt, hrefused, hinteg, hrate⟩⟩
    simp only [harm, Bool.true_eq_false, false_or] at hstep
    omega
  · obtain ⟨harm, hneg⟩ := not_or.mp hstep
    obtain ⟨s', hs', hdt, hjump⟩ := servoUpdate_jumps h hen hlock (Bool.eq_true_of_not_eq_false harm) (Int.not_le.mp hneg)
    refine ⟨s', hs', hjump.synced, fun _ _ hfits => ?_, fun hstep' => absurd hstep' hstep⟩
    have hk : min (sext 64 off.toNat).natAbs (dtMax - s.now t) = k := Nat.min_eq_left (Nat.le_sub_of_add_le' hfits)
    rw [hk] at hdt hjump
    exact ⟨hdt, hjump⟩

/-- Settles O12: the first lock clears UNSYNCED, and jumps or is the servo's first update; a write to a disabled servo is only answered. -/
theorem firstLockJumps : Obligations.FirstLockJumps := by
  unfold Obligations.FirstLockJumps
  refine ⟨fun s t c off h hen hlock => ?_, fun _ _ _ _ => servoUpdate_disabled⟩
  obtain ⟨s', hs', hsynced, hjumps, hlocks⟩ := servoUpdate_firstLock h hen hlock
  refine ⟨s', hs', hsynced, fun harm hneg hfits => ?_, hlocks⟩
  obtain ⟨hdt, j⟩ := hjumps harm hneg hfits
  exact ⟨hdt, j.at_ (Nat.lt_succ_of_le hfits), j.size, j.flag, j.integ, j.rate, j.armed, j.unarmed⟩

/-! ### Holdover and the lock of the root PLL -/

theorem holdover_sets {s : State} {t b : Nat} (hbase : s.dev.time.holdBase = some b) (hon : s.dev.earlyOn = true) (hen : s.dev.fb (r0 .timeCtrl) F.timeCtrl.SERVO_EN = true)
    (hnot : s.dev.fb (r0 .timeStatus) F.timeStatus.HOLDOVER = false) (hdue : s.dev.f (r0 .timeCtrl) F.timeCtrl.HOLDOVER_MS * 1000000 ≤ s.dev.elapsed b (s.now t)) :
    Answers (.holdover t) s fun s' => s'.dev.fb (r0 .timeStatus) F.timeStatus.HOLDOVER = true ∧ (s.dev.on 156 = true → s'.dev.eic.pend.contains 1 = true) ∧
      (∀ r, r ≠ r0 .timeStatus → s'.dev.rd r = s.dev.rd r) ∧ s'.dev.mem = s.dev.mem := by
  have hexec : exec (.holdover t) s = .next { s with dt := s.now t, dev := ((s.dev.sf (r0 .timeStatus) F.timeStatus.HOLDOVER 1).raise 1).emit 0x0001 (s.now t) .mcEvent false [s.now t] } := by
    show execHoldover t s = _
    unfold execHoldover
    simp only [State.run_eq, hbase, hon, hen, hnot, hdue, Bool.not_false, Bool.and_self, decide_true, if_true]
  have hrd (r : Reg) : (((s.dev.sf (r0 .timeStatus) F.timeStatus.HOLDOVER 1).raise 1).emit 0x0001 (s.now t) .mcEvent false [s.now t]).rd r =
      (s.dev.sf (r0 .timeStatus) F.timeStatus.HOLDOVER 1).rd r := (Dev.rd_of_regs (Dev.emit_regs ..) r).trans (Dev.rd_of_regs (Dev.raise_regs ..) r)
  refine ⟨_, hexec, ?_, fun heic => ?_, fun r hr => (hrd r).trans (Dev.rd_sf_ne hr), ?_⟩
  · exact (Dev.fb_of_rd (hrd _) _).trans (Dev.fb_sf _ _ true (by decide) rfl)
  · rw [Dev.emit_eic]
    exact Dev.raise_pend rfl heic
  · simp

theorem pllLock_locks {s : State} {t : Nat} (hon : s.dev.earlyOn = true) :
    Answers (.pllLock t) s fun s' => s'.dev.pow.pllLocked = true ∧ s' = { s with dt := s.now t, dev := { s.dev with pow := s'.dev.pow } } := by
  have hexec : exec (.pllLock t) s = .next { s with dt := s.now t, dev := { s.dev with pow := { s.dev.pow with pllLocked := true } } } := by
    show execPllLock t s = _
    unfold execPllLock
    rw [State.run_eq, if_pos hon]
  exact ⟨_, hexec, rfl, rfl⟩

/-- Settles O13: the timer's end sets HOLDOVER and raises source 1, and a lock of the root PLL is noted. -/
theorem holdoverAndLock : Obligations.HoldoverAndLock := by
  unfold Obligations.HoldoverAndLock
  exact ⟨fun _ _ _ => holdover_sets, fun _ _ => pllLock_locks⟩

end Sys2Proof.Machine

/-! ## O14, O15: the cue and capture unit -/

namespace Sys2Proof.Machine

/-! ### Delivery of capture records -/

theorem Dev.feedCaptures_of_none {d : Dev} (h : d.cue.out = []) : d.feedCaptures = d := by
  have hkeep : { d with cue := { d.cue with out := [] } } = d := by rw [← h]
  unfold Dev.feedCaptures
  rw [h, List.foldl_nil, hkeep]

/-- A record of a channel that no stream consumes changes nothing (R264). -/
theorem Dev.feedCapture_of_unconsumed {d : Dev} {x : CapOut} (h : ∀ y ∈ d.streams, y.kind = 3 → y.source ≠ x.chan) : d.feedCapture x = d := by
  have hnone : (d.streams.filter fun y => y.kind == 3 && y.source == x.chan) = [] := by
    refine List.filter_eq_nil_iff.mpr fun y hy => ?_
    simpa using h y hy
  unfold Dev.feedCapture
  rw [hnone]
  split <;> rfl

/-! ### A fire -/

theorem Dev.emit_recs (d : Dev) (x dt : Nat) (k : RecKind) (u : Bool) (b : List Nat) : (d.emit x dt k u b).recs = ⟨⟨dt, d.src x, d.cntOf x⟩, k, u, b⟩ :: d.recs := rfl

/-- A pin action changes the pin's base level or the channel's pulse (R50), and nothing else. -/
theorem Dev.pinAct_frame (d : Dev) (now n : Nat) : (d.pinAct now n).regs = d.regs ∧ (d.pinAct now n).recs = d.recs ∧ (d.pinAct now n).cue.out = d.cue.out ∧ (d.pinAct now n).mem = d.mem := by
  unfold Dev.pinAct
  dsimp only
  split <;> exact ⟨rfl, rfl, rfl, rfl⟩

/-- What a fire at an instant leaves beside the channel's next TIME or its disarming: FIRED, the record, the trigger (R49, R50). -/
structure Fired (d e : Dev) (f n : Nat) : Prop where
  rd : ∀ r, e.rd r = (d.sf (r1 .cueChStat n) F.cueChStat.FIRED 1).rd r
  recs : e.recs = ⟨⟨f, d.src (0x0030 + n), d.cntOf (0x0030 + n)⟩, .cueFire, false, [n, d.f (r1 .cueChCfg n) F.cueChCfg.TRIG, f]⟩ :: d.recs
  trig : d.triggers n (d.f (r1 .cueChCfg n) F.cueChCfg.TRIG) = true → tget e.cue.trig (d.f (r1 .cueChCfg n) F.cueChCfg.TRIG) = some f
  out : e.cue.out = d.cue.out
  mem : e.mem = d.mem

theorem Fired.rd_ne {d e : Dev} {f n : Nat} (h : Fired d e f n) {r : Reg} (hr : r ≠ r1 .cueChStat n) : e.rd r = d.rd r := (h.rd r).trans (Dev.rd_sf_ne hr)

/-- A fire marks the channel; a periodic channel goes on to its next TIME, any other is disarmed. -/
theorem Dev.fireCue_eq {d : Dev} {f n : Nat} (htrig : d.f (r1 .cueChCfg n) F.cueChCfg.TRIG ≤ 0x17) : ∃ e, Fired d e f n ∧ d.fireCue f n =
    if d.fb (r1 .cueChCfg n) F.cueChCfg.PERIODIC = true ∧ 64 ≤ d.f (r1 .cueChPeriod n) F.cueChPeriod.PERIOD then
      e.wn (r1 .cueChTime n) ((d.rn (r1 .cueChTime n) + d.f (r1 .cueChPeriod n) F.cueChPeriod.PERIOD) % 2 ^ 64)
    else e.sf (r1 .cueChCfg n) F.cueChCfg.ARM 0 := by
  unfold Dev.fireCue
  extract_lets r trig d1 d2 c2 d3 period
  rw [if_neg (Nat.not_lt.mpr htrig)]
  have h1 : d1 = ((d.sf (r1 .cueChStat n) F.cueChStat.FIRED 1).raise (32 + n)).emit (0x0030 + n) f .cueFire false [n, trig, f] := rfl
  clear_value d1
  have hcue1 : d1.cue = d.cue := by rw [h1]; exact (Dev.emit_cue ..).trans (Dev.raise_cue ..)
  have h2 : d2.regs = d1.regs ∧ d2.recs = d1.recs ∧ d2.cue.out = d1.cue.out ∧ d2.mem = d1.mem := by
    dsimp only [d2]
    split
    · exact d1.pinAct_frame f n
    · exact ⟨rfl, rfl, rfl, rfl⟩
  clear_value d2
  have h3 : d3.regs = d1.regs ∧ d3.recs = d1.recs ∧ d3.cue.out = d1.cue.out ∧ d3.mem = d1.mem := by
    dsimp only [d3]
    split <;> exact h2
  obtain ⟨hregs, hrecs, hout, hmem⟩ := h3
  have hfired : Fired d d3 f n := by
    refine ⟨fun r => ?_, ?_, fun ht => ?_, ?_, ?_⟩
    · rw [Dev.rd_of_regs hregs, h1, Dev.rd_of_regs (Dev.emit_regs ..), Dev.rd_of_regs (Dev.raise_regs ..)]
    · rw [hrecs, h1, Dev.emit_recs]
      simp [Dev.src, Dev.cntOf]
      rfl
    · have htr : d.triggers n trig = true := ht
      dsimp only [d3]
      rw [htr, if_neg (by simp)]
      exact tget_tset ..
    · rw [hout, hcue1]
    · rw [hmem, h1]
      simp
  refine ⟨d3, hfired, ?_⟩
  have hcfg : d3.fb r F.cueChCfg.PERIODIC = d.fb r F.cueChCfg.PERIODIC := Dev.fb_of_rd (hfired.rd_ne (Reg.ne_of_name (by simp [r]))) _
  have hperiod : period = d.f (r1 .cueChPeriod n) F.cueChPeriod.PERIOD := Dev.f_of_rd (hfired.rd_ne (Reg.ne_of_name (by simp))) _
  have htime : d3.rn (r1 .cueChTime n) = d.rn (r1 .cueChTime n) := Dev.rn_of_rd (hfired.rd_ne (Reg.ne_of_name (by simp)))
  rw [hcfg, hperiod, htime]

/-- A fire whose trigger starts nothing by itself is the channel's alone. -/
theorem Dev.cueFired_eq {d : Dev} {now f n : Nat} (h : d.f (r1 .cueChCfg n) F.cueChCfg.TRIG < 0x0B) : d.cueFired now f n = d.fireCue f n := by
  unfold Dev.cueFired
  dsimp only
  rw [if_neg (by omega), if_neg (by omega), if_neg (by omega)]

theorem Dev.armed_of_cueDue {d : Dev} {now n : Nat} (h : d.cueDue now n = true) : d.fb (r1 .cueChCfg n) F.cueChCfg.ARM = true := by
  unfold Dev.cueDue at h
  simp only [Bool.and_eq_true] at h
  obtain ⟨⟨-, harm⟩, -⟩ := h
  exact harm

theorem Dev.triggers_of {d : Dev} {n trig : Nat} (h0 : trig ≠ 0) (h3 : trig ≠ 3 ∨ n = 0 ∨ d.earlyRuns = false) : d.triggers n trig = true := by
  unfold Dev.triggers
  simpa [h0, or_assoc] using h3

/-- Settles O14: a fire marks the channel and records itself; then the channel goes on to its next TIME or is disarmed. -/
theorem cueFires : Obligations.CueFires := by
  unfold Obligations.CueFires
  intro s t n hdue htrig hout fired trig period
  obtain ⟨e, hfired, heq⟩ := Dev.fireCue_eq (d := s.dev) (f := fired) (n := n) (by omega)
  have houte : (s.dev.fireCue fired n).cue.out = [] := by
    rw [heq]
    split <;> exact hfired.out.trans hout
  have hexec : exec (.cueFire t n) s = .next { s with dt := s.now t, dev := s.dev.fireCue fired n } := by
    show execCueFire t n s = _
    unfold execCueFire
    rw [State.runFed_eq, if_pos hdue, Dev.cueFired_eq htrig, show s.dev.fireDt (s.now t) n = fired from rfl, Dev.feedCaptures_of_none houte]
  refine ⟨_, hexec, ?_⟩
  have hstat : e.fb (r1 .cueChStat n) F.cueChStat.FIRED = true := (Dev.fb_of_rd (hfired.rd _) _).trans (Dev.fb_sf _ _ true (by decide) rfl)
  have hcs : r1 .cueChCfg n ≠ r1 .cueChStat n := Reg.ne_of_name (by simp)
  have hct : r1 .cueChCfg n ≠ r1 .cueChTime n := Reg.ne_of_name (by simp)
  have harm : e.fb (r1 .cueChCfg n) F.cueChCfg.ARM = true := (Dev.fb_of_rd (hfired.rd_ne hcs) _).trans (Dev.armed_of_cueDue hdue)
  dsimp only
  rw [heq]
  split
  · next hper =>
    refine ⟨?_, hfired.recs, fun h0 h3 => hfired.trig (Dev.triggers_of h0 h3), fun _ _ => ⟨?_, ?_⟩, fun hno => ?_, fun r hr _ ht => ?_, hfired.mem⟩
    · exact (Dev.fb_of_rd (Dev.rd_wn_ne (Reg.ne_of_name (by simp))) _).trans hstat
    · rw [Dev.rn_wn, Nat.mod_mod]
    · exact (Dev.fb_of_rd (Dev.rd_wn_ne hct) _).trans harm
    · exact absurd (hno.symm.trans hper.1) (by simp)
    · exact (Dev.rd_wn_ne ht).trans (hfired.rd_ne hr)
  · next hper =>
    refine ⟨?_, hfired.recs, fun h0 h3 => hfired.trig (Dev.triggers_of h0 h3), fun h1 h2 => absurd ⟨h1, h2⟩ hper, fun _ => ?_, fun r hr hc _ => ?_, hfired.mem⟩
    · exact (Dev.fb_of_rd (Dev.rd_sf_ne hcs.symm) _).trans hstat
    · exact Dev.fb_sf _ _ false (by decide) rfl
    · exact (Dev.rd_sf_ne hc).trans (hfired.rd_ne hr)

end Sys2Proof.Machine

/-! ## O15: pulses, arming, a write of TIME, captures -/

namespace Sys2Proof.Machine

/-! ### Writes of software -/

/-- A writable bit written 1 reads 1. -/
theorem testBit_maskedWrite {x : RegInfo} {o : Bool} {old new i : Nat} (hrw : x.rw.testBit i = true) (hnew : new.testBit i = true) : (maskedWrite x o old new).testBit i = true := by
  unfold maskedWrite
  extract_lets rw keep kept
  have hmask : rw.testBit i = true := by
    dsimp only [rw]
    split <;> simp [hrw]
  simp [hmask, hnew]

/-- A one-bit field shows its bit. -/
theorem Dev.fb_wn_bit (d : Dev) (r : Reg) {x : Fld} {v : Nat} (hw : x.w = 1) (hlo : x.lo < 64) (h : v.testBit x.lo = true) : (d.wn r v).fb r x = true := by
  have hbit : (v % 2 ^ 64).testBit x.lo = true := by rw [Nat.testBit_mod_two_pow, h, decide_eq_true hlo]; rfl
  have hf : (d.wn r v).f r x = bits (v % 2 ^ 64) x.lo x.w := congrArg (bits · x.lo x.w) (Dev.rn_wn d r v)
  unfold Dev.fb
  rw [hf, hw]
  rw [Nat.testBit_eq_decide_div_mod_eq] at hbit
  simpa [bits] using hbit

/-! ### Pulses -/

theorem cuePulseEnd_ends {s : State} {t n : Nat} {p : Pulse} (hp : tget s.dev.cue.pulses n = some p) (hend : p.endAt ≤ s.now t) :
    Answers (.cuePulseEnd t n) s fun s' => tget s'.dev.cue.pulses n = none ∧ s' = { s with dt := s.now t, dev := { s.dev with cue := s'.dev.cue } } := by
  have hexec : exec (.cuePulseEnd t n) s = .next { s with dt := s.now t, dev := { s.dev with cue := { s.dev.cue with pulses := tdel s.dev.cue.pulses n } } } := by
    show execCuePulseEnd t n s = _
    unfold execCuePulseEnd
    rw [State.run_eq, hp]
    simp only [if_pos hend]
  exact ⟨_, hexec, tget_tdel .., rfl⟩

/-! ### Arming -/

/-- Arming 16 ns or more ahead of TIME sets ARM and clears SKIPPED and REBASED (R52). -/
theorem Dev.armCue_ahead {d : Dev} {now n : Nat} (h : now + 16 ≤ d.rn (r1 .cueChTime n)) :
    d.armCue now n = (((d.timeSince now n).sf (r1 .cueChCfg n) F.cueChCfg.ARM 1).sf (r1 .cueChStat n) F.cueChStat.SKIPPED 0).sf (r1 .cueChStat n) F.cueChStat.REBASED 0 := if_pos h

theorem Dev.timeSince_rd (d : Dev) (now n : Nat) (r : Reg) : (d.timeSince now n).rd r = d.rd r := rfl

theorem Dev.armCue_rd {d : Dev} {now n : Nat} (h : now + 16 ≤ d.rn (r1 .cueChTime n)) {r : Reg} (hc : r ≠ r1 .cueChCfg n) (hs : r ≠ r1 .cueChStat n) : (d.armCue now n).rd r = d.rd r := by
  rw [Dev.armCue_ahead h, Dev.rd_sf_ne hs, Dev.rd_sf_ne hs, Dev.rd_sf_ne hc, Dev.timeSince_rd]

theorem Dev.armCue_arms {d : Dev} {now n : Nat} (h : now + 16 ≤ d.rn (r1 .cueChTime n)) : (d.armCue now n).fb (r1 .cueChCfg n) F.cueChCfg.ARM = true := by
  have hne : r1 .cueChCfg n ≠ r1 .cueChStat n := Reg.ne_of_name (by simp)
  rw [Dev.armCue_ahead h, Dev.fb_of_rd (Dev.rd_sf_ne hne), Dev.fb_of_rd (Dev.rd_sf_ne hne)]
  exact Dev.fb_sf _ _ true (by decide) rfl

theorem Dev.armCue_rebased {d : Dev} {now n : Nat} (h : now + 16 ≤ d.rn (r1 .cueChTime n)) : (d.armCue now n).fb (r1 .cueChStat n) F.cueChStat.REBASED = false := by
  rw [Dev.armCue_ahead h]
  exact Dev.fb_sf _ _ false (by decide) rfl

/-- A channel armed ahead of its TIME does not fire at once (R52). -/
theorem Dev.firesAtOnce_ahead {d : Dev} {now n : Nat} (h : now + 16 ≤ d.rn (r1 .cueChTime n)) : d.firesAtOnce now n = false := by
  unfold Dev.firesAtOnce
  rw [decide_eq_false (Nat.not_lt.mpr h), Bool.and_false, Bool.false_and]

theorem cueArm_arms {s : State} {t c n v : Nat} (hn : n < 64) (hhit : hits s t c (r1 .cueChCfg n) .write = true) (hv : v.testBit 0 = true)
    (htime : s.now t + 16 ≤ s.dev.rn (r1 .cueChTime n)) :
    Answers (.cueArm t c n v) s fun s' => s'.dev.fb (r1 .cueChCfg n) F.cueChCfg.ARM = true ∧ s'.dev.fb (r1 .cueChStat n) F.cueChStat.REBASED = false ∧
      s'.dev.bus = .ok ∧ (∀ r, r ≠ r1 .cueChCfg n → r ≠ r1 .cueChStat n → s'.dev.rd r = s.dev.rd r) ∧ s'.dev.mem = s.dev.mem := by
  let cfg := maskedWrite RegName.cueChCfg.info (!s.latchClosed) (s.dev.rn (r1 .cueChCfg n)) v
  let d1 := s.dev.acked.wn (r1 .cueChCfg n) cfg
  have harm : d1.fb (r1 .cueChCfg n) F.cueChCfg.ARM = true := Dev.fb_wn_bit _ _ rfl (by decide) (testBit_maskedWrite (by decide) hv)
  have htc : r1 .cueChTime n ≠ r1 .cueChCfg n := Reg.ne_of_name (by simp)
  have hts : r1 .cueChTime n ≠ r1 .cueChStat n := Reg.ne_of_name (by simp)
  have hrd {r : Reg} (hc : r ≠ r1 .cueChCfg n) : d1.rd r = s.dev.rd r := Dev.rd_wn_ne hc
  have h1 : s.now t + 16 ≤ d1.rn (r1 .cueChTime n) := by rwa [Dev.rn_of_rd (hrd htc)]
  have h2 : s.now t + 16 ≤ (d1.armCue (s.now t) n).rn (r1 .cueChTime n) := by rwa [Dev.rn_of_rd (Dev.armCue_rd h1 htc hts)]
  have hexec : exec (.cueArm t c n v) s = .next { s with dt := s.now t, dev := d1.armCue (s.now t) n } := by
    show execCueArm t c n v s = _
    unfold execCueArm
    rw [State.regAccess_reaches hhit, if_neg (by omega)]
    have heffect : (if d1.fb (r1 .cueChCfg n) F.cueChCfg.ARM = true then
        (if (d1.armCue (s.now t) n).firesAtOnce (s.now t) n = true then ((d1.armCue (s.now t) n).cueFired (s.now t) (s.now t) n).feedCaptures else d1.armCue (s.now t) n)
        else d1) = d1.armCue (s.now t) n := by
      rw [if_pos harm, Dev.firesAtOnce_ahead h2, if_neg (by simp)]
    exact congrArg (fun d => Host.Outcome.next { s with dt := s.now t, dev := d }) heffect
  refine ⟨_, hexec, Dev.armCue_arms h1, Dev.armCue_rebased h1, ?_, fun r hc hs => (Dev.armCue_rd h1 hc hs).trans (hrd hc), ?_⟩
  · rw [Dev.armCue_ahead h1]
    rfl
  · rw [Dev.armCue_ahead h1]
    rfl

/-! ### A write of TIME -/

/-- A channel that is not due has nothing to fire. -/
theorem Dev.fireDue_of_notDue {d : Dev} {now n : Nat} (h : d.cueDue now n = false) : d.fireDue now n = d := by
  unfold Dev.fireDue
  dsimp only
  rw [if_pos h]
  rfl

theorem cueTimeWrite_writes {s : State} {t c n : Nat} {v : Word} (hn : n < 64) (hhit : hits s t c (r1 .cueChTime n) .write = true)
    (hdue : s.dev.cueDue (s.now t) n = false) (hout : s.dev.cue.out = []) :
    Answers (.cueTimeWrite t c n v) s fun s' => s'.dev.rd (r1 .cueChTime n) = v ∧ s'.dev.bus = .ok ∧
      (∀ r, r ≠ r1 .cueChTime n → s'.dev.rd r = s.dev.rd r) ∧ s'.dev.mem = s.dev.mem := by
  have hexec : exec (.cueTimeWrite t c n v) s = .next { s with dt := s.now t, dev := (s.dev.acked.wr (r1 .cueChTime n) v).timeSince (s.now t) n } := by
    show execCueTimeWrite t c n v s = _
    unfold execCueTimeWrite
    have hkeep : s.dev.acked.fireDue (s.now t) n = s.dev.acked := Dev.fireDue_of_notDue hdue
    rw [State.regAccess_reaches hhit, if_neg (by omega), show ({ s.dev with bus := .ok } : Dev) = s.dev.acked from rfl, hkeep, Dev.feedCaptures_of_none]
    exact hout
  exact ⟨_, hexec, Dev.rd_wr .., rfl, fun r hr => Dev.rd_wr_ne hr, rfl⟩

/-! ### Captures -/

/-- A stamp that its channel holds. -/
structure Captured (d e : Dev) (n stamp : Nat) (rising unc : Bool) : Prop where
  held : e.heldOf n = d.heldOf n ++ [(stamp, d.cntOf (0x0010 + n))]
  recs : e.recs = ⟨⟨stamp, d.src (0x0010 + n), d.cntOf (0x0010 + n)⟩, .capture, unc, [n, stamp, b2n rising]⟩ :: d.recs
  out : ∃ x : CapOut, x.chan = n ∧ e.cue.out = d.cue.out ++ [x]
  fus : e.fus = d.fus
  pow : e.pow = d.pow
  mem : e.mem = d.mem

theorem Dev.syncCap_cue (d : Dev) (n : Nat) : (d.syncCap n).cue = d.cue := rfl
theorem Dev.syncCap_recs (d : Dev) (n : Nat) : (d.syncCap n).recs = d.recs := rfl
theorem Dev.syncCap_fus (d : Dev) (n : Nat) : (d.syncCap n).fus = d.fus := rfl
theorem Dev.syncCap_pow (d : Dev) (n : Nat) : (d.syncCap n).pow = d.pow := rfl
theorem Dev.syncCap_mem (d : Dev) (n : Nat) : (d.syncCap n).mem = d.mem := rfl
theorem Dev.syncCap_bus (d : Dev) (n : Nat) : (d.syncCap n).bus = d.bus := rfl

/-- A channel that holds fewer than 16 stamps holds the next one too (R51). -/
theorem Dev.capture_captured {d : Dev} {now n stamp : Nat} {rising unc : Bool} (hroom : (d.heldOf n).length < 16) :
    Captured d (d.capture now n stamp rising unc) n stamp rising unc := by
  unfold Dev.capture
  extract_lets cnt d0 c0 d1 h
  have hheld : h = d.heldOf n := rfl
  rw [if_pos (hheld ▸ hroom)]
  constructor
  · rw [Dev.heldOf, Dev.raise_cue, Dev.syncCap_cue, tgetD_tset, hheld]
  · rw [Dev.raise_recs, Dev.syncCap_recs]
    exact Dev.emit_recs ..
  · rw [Dev.raise_cue, Dev.syncCap_cue]
    exact ⟨_, rfl, rfl⟩
  · rw [Dev.raise_fus, Dev.syncCap_fus]
    rfl
  · rw [Dev.raise_pow, Dev.syncCap_pow]
    rfl
  · rw [Dev.raise_mem, Dev.syncCap_mem]
    rfl

/-- Whether a channel captures is a matter of its configuration and of the domains that run. -/
theorem Dev.captures_of_keepsRegs {p : RegName → Bool} {d e : Dev} (h : KeepsRegs p d e) (hp : p .capChCfg = true) (hpow : e.pow = d.pow) (n src : Nat) (rising : Bool) (stable : Nat) :
    e.captures n src rising stable = d.captures n src rising stable := by
  have hrd : e.rd (r1 .capChCfg n) = d.rd (r1 .capChCfg n) := h.rd _ hp
  have hruns : e.chanRuns n = d.chanRuns n := by
    unfold Dev.chanRuns Dev.earlyOn Dev.on Dev.mainOn
    rw [hpow]
  unfold Dev.captures
  dsimp only
  rw [hruns, Dev.fb_of_rd hrd, Dev.f_of_rd hrd, Dev.f_of_rd hrd, Dev.f_of_rd hrd]

/-- A pass over a list whose items leave the start as it is changes nothing. -/
theorem foldl_of_fixed {α β : Type} {f : β → α → β} {b : β} {l : List α} (h : ∀ a ∈ l, f b a = b) : l.foldl f b = b := by
  induction l with
  | nil => rfl
  | cons a l ih =>
    rw [List.foldl_cons, h a (by simp)]
    exact ih fun c hc => h c (by simp [hc])

/-- A pass over a list in which no item applies changes nothing. -/
theorem foldl_ite_of_none {α : Type} {p : Dev → α → Bool} {f : Dev → α → Dev} {d : Dev} {l : List α} (h : ∀ a ∈ l, p d a = false) :
    l.foldl (fun d a => if p d a then f d a else d) d = d := foldl_of_fixed fun a ha => if_neg (by simp [h a ha])

/-- A pass over a list in which one item applies is that item's effect. -/
theorem foldl_ite_of_one {α : Type} {p : Dev → α → Bool} {f : Dev → α → Dev} {d : Dev} {l : List α} {a : α} (ha : a ∈ l) (hl : l.Nodup)
    (h : ∀ b, p d b = true ↔ b = a) (hf : ∀ b, p (f d a) b = p d b) : l.foldl (fun d a => if p d a then f d a else d) d = f d a := by
  obtain ⟨before, after, rfl⟩ := List.append_of_mem ha
  have hother {b : α} (hb : b ≠ a) : p d b = false := Bool.eq_false_iff.mpr fun hp => hb ((h b).mp hp)
  obtain ⟨-, hafter, hdisj⟩ := List.nodup_append.mp hl
  rw [List.foldl_append, foldl_ite_of_none fun b hb => hother (hdisj b hb a (by simp)), List.foldl_cons, if_pos ((h a).mpr rfl)]
  refine foldl_ite_of_none fun b hb => ?_
  rw [hf]
  exact hother fun e => (List.nodup_cons.mp hafter).1 (e ▸ hb)

/-- A single record of a channel that no stream consumes leaves the device with nothing to deliver. -/
theorem Dev.feedCaptures_unconsumed {d : Dev} {x : CapOut} (hout : d.cue.out = [x]) (h : ∀ y ∈ d.streams, y.kind = 3 → y.source ≠ x.chan) :
    d.feedCaptures = { d with cue := { d.cue with out := [] } } := by
  unfold Dev.feedCaptures
  rw [hout]
  exact Dev.feedCapture_of_unconsumed h

theorem captureEdge_captures {s : State} {t src : Nat} {rising : Bool} {stamp stable n : Nat} (hsrc : src < 16) (hstamp : stamp ≤ s.now t)
    (hone : ∀ k, s.dev.captures k src rising stable = true ↔ k = n) (hroom : (s.dev.heldOf n).length < 16) (hout : s.dev.cue.out = [])
    (hfree : ∀ x ∈ s.dev.streams, x.kind = 3 → x.source ≠ n) :
    Answers (.captureEdge t src rising stamp stable) s fun s' =>
      s'.dev.heldOf n = s.dev.heldOf n ++ [(stamp, s.dev.cntOf (0x0010 + n))] ∧
      s'.dev.recs = ⟨⟨stamp, s.dev.src (0x0010 + n), s.dev.cntOf (0x0010 + n)⟩, .capture, false, [n, stamp, b2n rising]⟩ :: s.dev.recs ∧ s'.dev.mem = s.dev.mem := by
  let e := s.dev.capture (s.now t) n stamp rising false
  have he : Captured s.dev e n stamp rising false := Dev.capture_captured hroom
  obtain ⟨x, hchan, hx⟩ := he.out
  have hn : n < 32 := by
    have h := (hone n).mpr rfl
    unfold Dev.captures at h
    simp only [Bool.and_eq_true, decide_eq_true_eq] at h
    obtain ⟨⟨⟨⟨⟨⟨hn, -⟩, -⟩, -⟩, -⟩, -⟩, -⟩ := h
    exact hn
  have hfold : (List.range 32).foldl (fun (d : Dev) k => if d.captures k src rising stable then d.capture (s.now t) k stamp rising false else d) s.dev = e :=
    foldl_ite_of_one (p := fun d k => d.captures k src rising stable) (f := fun d k => d.capture (s.now t) k stamp rising false) (List.mem_range.mpr hn) List.nodup_range hone
      fun k => Dev.captures_of_keepsRegs (p := (· == .capChCfg)) (Dev.capture_keepsRegs rfl rfl rfl ..) rfl he.pow ..
  have hfeed : e.feedCaptures = { e with cue := { e.cue with out := [] } } := by
    refine Dev.feedCaptures_unconsumed (x := x) (by rw [hx, hout]; rfl) fun y hy => ?_
    rw [hchan]
    refine hfree y ?_
    unfold Dev.streams at hy ⊢
    rwa [he.fus] at hy
  have hexec : exec (.captureEdge t src rising stamp stable) s = .next { s with dt := s.now t, dev := { e with cue := { e.cue with out := [] } } } := by
    show execCaptureEdge t src rising stamp stable s = _
    unfold execCaptureEdge
    rw [State.runFed_eq, if_pos hsrc, Nat.min_eq_left hstamp, hfold, hfeed]
  exact ⟨_, hexec, he.held, he.recs, he.mem⟩

theorem captureDataRead_reads {s : State} {t c n : Nat} {x : Nat × Nat} {rest : List (Nat × Nat)} (hn : n < 32) (hhit : hits s t c (r1 .capChData n) .read = true)
    (hheld : s.dev.heldOf n = x :: rest) :
    Answers (.captureDataRead t c n) s fun s' => s'.dev.bus = .data x.1 ∧ s'.dev.heldOf n = rest ∧ s'.dev.mem = s.dev.mem := by
  let d1 : Dev := { s.dev with bus := .data x.1, cue := { s.dev.cue with held := tset s.dev.cue.held n rest } }
  have hread : s.dev.acked.capRead n = d1.syncCap n := by
    have h : s.dev.acked.heldOf n = x :: rest := hheld
    unfold Dev.capRead
    rw [h]
    rfl
  have hexec : exec (.captureDataRead t c n) s = .next { s with dt := s.now t, dev := d1.syncCap n } := by
    show execCaptureDataRead t c n s = _
    unfold execCaptureDataRead
    rw [State.regAccess_reaches hhit, if_pos hn]
    exact congrArg (fun d => Host.Outcome.next { s with dt := s.now t, dev := d }) hread
  refine ⟨_, hexec, ?_, ?_, ?_⟩
  · exact Dev.syncCap_bus ..
  · show (d1.syncCap n).heldOf n = rest
    rw [Dev.heldOf, Dev.syncCap_cue]
    exact tgetD_tset ..
  · exact Dev.syncCap_mem ..

/-- Settles O15: a clause each for a pulse's end, an arming, a write of TIME, an edge and a read of a stamp. -/
theorem cueCommandsComplete : Obligations.CueCommandsComplete := by
  unfold Obligations.CueCommandsComplete
  exact ⟨fun _ _ _ _ => cuePulseEnd_ends, fun _ _ _ _ _ => cueArm_arms, fun _ _ _ _ _ => cueTimeWrite_writes,
    fun _ _ _ _ _ _ _ => captureEdge_captures, fun _ _ _ _ _ _ => captureDataRead_reads⟩

end Sys2Proof.Machine

/-! ## O18: the network ports -/

namespace Sys2Proof.Machine

@[simp] theorem Dev.port_modPort (d : Dev) (p : Nat) (f : EthPort → EthPort) : (d.modPort p f).port p = f (d.port p) := tgetD_tset ..

theorem Dev.port_of_io {d e : Dev} (h : e.io = d.io) (p : Nat) : e.port p = d.port p := by
  unfold Dev.port
  rw [h]

/-! ### Receiving -/

/-- A frame that no consumer takes feeds no stream (R393). -/
theorem Dev.frameSamples_of_unconsumed {d : Dev} {p : Nat} {fr : List Byte} (h : d.consumed? p fr = false) (now stamp cnt : Nat) (unc : Bool) :
    d.frameSamples now p stamp cnt unc fr = d := by
  unfold Dev.frameSamples
  split
  · rfl
  · next hon =>
    have hp : p < 12 := by omega
    dsimp only
    refine foldl_of_fixed fun s hs => ?_
    obtain ⟨hs, hsel⟩ := List.mem_filter.mp hs
    simp only [Dev.consumed?, Bool.or_eq_false_iff, hp, decide_true, Bool.true_and, List.any_eq_false] at h
    obtain ⟨-, hno⟩ := h
    have hno' := hno s hs
    rw [hsel, Bool.true_and] at hno'
    split
    · next h0 =>
      rw [if_pos h0] at hno'
      rw [if_neg]
      simp [hno']
    · next h0 =>
      rw [if_neg h0] at hno'
      rw [if_neg]
      simpa using hno'

theorem Dev.consumed?_of_fus {d e : Dev} (h : e.fus = d.fus) (p : Nat) (fr : List Byte) : e.consumed? p fr = d.consumed? p fr := by
  unfold Dev.consumed? Dev.streams
  rw [h]

/-- The device after a frame has drawn its key and made its record (R39). -/
def Dev.frameLogged (d : Dev) (p stamp len : Nat) : Dev :=
  (d.draw (ethSrc p) stamp).2.log ⟨(d.draw (ethSrc p) stamp).1, .frame, (ethQueue p).elim false (d.elastic 0), [p, len]⟩

/-- A frame that no consumer inside the device takes is queued with its stamp, and raises the port's interrupt (R39, R388). -/
theorem Dev.frameReceive_queued {d : Dev} {p : Nat} {fr : List Byte} (now stamp : Nat) (hen : d.ethEn p = true) (hun : unsupported p fr = false) (hc : d.consumed? p fr = false) :
    d.frameReceive now p stamp 0 fr = ((d.frameLogged p stamp fr.length).modPort p fun x =>
      { x with rx := x.rx ++ [⟨⟨stamp, d.src (ethSrc p), d.cntOf (ethSrc p)⟩, (ethQueue p).elim false (d.elastic 0), fr⟩] }).raise (768 + p) := by
  have hc' : (d.frameLogged p stamp fr.length).consumed? p fr = false := (Dev.consumed?_of_fus rfl p fr).trans hc
  have hjoint : ¬(etherType fr = 0x88B5 ∧ p < 4) := by
    simp only [Dev.consumed?, Bool.or_eq_false_iff] at hc
    obtain ⟨hno, -⟩ := hc
    simpa using hno
  unfold Dev.frameReceive
  rw [if_neg (by simp [hen]), if_neg (by simp [hun])]
  split
  · contradiction
  · dsimp only
    rw [if_neg hjoint, show (d.draw (ethSrc p) stamp).2.log _ = d.frameLogged p stamp fr.length from rfl, Dev.frameSamples_of_unconsumed hc', hc', if_neg (by simp)]
    rfl

theorem eicListed_port {p : Nat} (h : p < 14) : eicListed (768 + p) = true := by
  unfold eicListed
  simp
  omega

theorem frameReceive_queues {s : State} {t p stamp : Nat} {data : List Nat} (hp : p < 14) (hen : s.dev.ethEn p = true)
    (hun : unsupported p (data.map (BitVec.ofNat 8)) = false) (hc : s.dev.consumed? p (data.map (BitVec.ofNat 8)) = false) :
    Answers (.frameReceive t p stamp 0 data) s fun s' =>
      (s'.dev.port p).rx = (s.dev.port p).rx ++ [⟨⟨stamp, s.dev.src (ethSrc p), s.dev.cntOf (ethSrc p)⟩, (ethQueue p).elim false (s.dev.elastic 0), data.map (BitVec.ofNat 8)⟩] ∧
      (s.dev.on 156 = true → s'.dev.eic.pend.contains (768 + p) = true) ∧ s'.dev.regs = s.dev.regs ∧ s'.dev.mem = s.dev.mem := by
  let fr := data.map (BitVec.ofNat 8)
  have hexec : exec (.frameReceive t p stamp 0 data) s = .next { s with dt := s.now t, dev := ((s.dev.frameLogged p stamp fr.length).modPort p fun x =>
      { x with rx := x.rx ++ [⟨⟨stamp, s.dev.src (ethSrc p), s.dev.cntOf (ethSrc p)⟩, (ethQueue p).elim false (s.dev.elastic 0), fr⟩] }).raise (768 + p) } := by
    show execFrameReceive t p stamp 0 data s = _
    unfold execFrameReceive
    rw [State.run_eq, Dev.frameReceive_queued _ _ hen hun hc]
  refine ⟨_, hexec, ?_, fun hon => ?_, ?_, ?_⟩
  · rw [Dev.port_of_io (Dev.raise_io ..), Dev.port_modPort]
    rfl
  · exact Dev.raise_pend (eicListed_port hp) hon
  · exact Dev.raise_regs ..
  · exact Dev.raise_mem ..

/-- A robot-bus frame with a bad check sequence is counted and dropped. -/
theorem frameReceive_bad {s : State} {t p stamp : Nat} {data : List Nat} (hp : p < 4) (hen : s.dev.ethEn p = true) :
    exec (.frameReceive t p stamp 1 data) s = .next { s with dt := s.now t, dev := s.dev.incSat (r1 .ethPortStat p) F.ethPortStat.RXERR } := by
  show execFrameReceive t p stamp 1 data s = _
  unfold execFrameReceive Dev.frameReceive
  rw [State.run_eq, if_neg (by simp [hen]), if_pos (.inl rfl), if_pos hp]

/-! ### Sending -/

/-- A frame takes time on every port's line. -/
theorem lineNs_pos (p : Nat) {n : Nat} (h : 24 ≤ n) : 0 < lineNs p n := by
  unfold lineNs
  split
  · omega
  · split <;> omega

/-- What a frame that leaves does to its port: its completion, and the time to which the line is taken (R40 to R42). -/
structure Left (d e : Dev) (now p : Nat) (x : TxFrame) : Prop where
  done : ∃ st, (e.port p).done = (d.port p).done ++ [⟨x.src, if x.insert || x.stamped then (now * 65536 + Config.egressLatency p) / 65536 else 0, st⟩] ∧ (x.insert = false → st = Status.ok.code)
  busy : now < (e.port p).busyTo
  regs : e.regs = d.regs
  mem : e.mem = d.mem

theorem Dev.frameLeaves_left (d : Dev) (now p : Nat) (x : TxFrame) : Left d (d.frameLeaves now p x) now p x := by
  unfold Dev.frameLeaves
  extract_lets at_ depart out sent st k d1 express line
  have hraised : ∀ e, (if (x.stamped && !x.insert) = true then d1 else d1.raise (768 + p)) = e → e.regs = d.regs ∧ e.mem = d.mem ∧ e.io = d.io := by
    rintro e rfl
    split
    · exact ⟨rfl, rfl, rfl⟩
    · exact ⟨Dev.raise_regs .., Dev.raise_mem .., Dev.raise_io ..⟩
  generalize heq : (if (x.stamped && !x.insert) = true then d1 else d1.raise (768 + p)) = e
  obtain ⟨hregs, hmem, hio⟩ := hraised e heq
  have hline : 0 < line := lineNs_pos p (by omega)
  constructor
  · refine ⟨st.code, ?_, fun h => ?_⟩
    · rw [Dev.port_modPort, Dev.port_of_io hio]
    · simp [st, out, h]
  · rw [Dev.port_modPort]
    dsimp only
    split
    · next hcut =>
      have hbusy := of_decide_eq_true hcut
      omega
    · omega
  · exact hregs
  · exact hmem

theorem frameTransmit_sends {s : State} {t p q : Nat} {insert stamped : Bool} {b : Nat} {data : List Nat} (hq : q < 8) (hen : s.dev.ethEn p = true) (hlink : (s.dev.port p).link = true)
    (hmay : s.dev.mayStart (s.now t) p { queue := q, insert := insert, stamped := stamped, src := ethSrc p + 1, data := (b :: data).map (BitVec.ofNat 8) } = true) :
    Answers (.frameTransmit t p q insert stamped (b :: data)) s fun s' =>
      (∃ st, (s'.dev.port p).done = (s.dev.port p).done ++
        [⟨ethSrc p + 1, if insert || stamped then (s.now t * 65536 + Config.egressLatency p) / 65536 else 0, st⟩] ∧ (insert = false → st = Status.ok.code)) ∧
      s.now t < (s'.dev.port p).busyTo ∧ s'.dev.regs = s.dev.regs ∧ s'.dev.mem = s.dev.mem := by
  let x : TxFrame := { queue := q, insert := insert, stamped := stamped, src := ethSrc p + 1, data := (b :: data).map (BitVec.ofNat 8) }
  have hexec : exec (.frameTransmit t p q insert stamped (b :: data)) s = .next { s with dt := s.now t, dev := s.dev.frameLeaves (s.now t) p x } := by
    show execFrameTransmit t p q insert stamped (b :: data) s = _
    unfold execFrameTransmit
    rw [State.run_eq, if_neg (by simp [hen, hlink, hq]), if_pos (by simp)]
    dsimp only
    rw [if_pos hmay]
  have h := Dev.frameLeaves_left s.dev (s.now t) p x
  exact ⟨_, hexec, h.done, h.busy, h.regs, h.mem⟩

/-! ### Gate control, preemption, links -/

theorem gateEntryEnd_advances {s : State} {t p : Nat} (hp : p < 4) (hen : s.dev.ethEn p = true) (hgcl : s.dev.fb (r1 .ethPortCfg p) F.ethPortCfg.GCL_EN = true)
    (hstarted : (s.dev.port p).started = true) (hentry : (s.dev.port p).entry + 1 < (s.dev.port p).nent) :
    let done := (s.dev.port p).entryAt + s.dev.rn (r2 .ethPortGcl p (256 * s.dev.f (r1 .ethPortCfg p) F.ethPortCfg.BANK + (s.dev.port p).entry)) % 2 ^ 24
    done ≤ s.now t →
    Answers (.gateEntryEnd t p) s fun s' => (s'.dev.port p).entry = (s.dev.port p).entry + 1 ∧ (s'.dev.port p).entryAt = done ∧
      s' = { s with dt := s.now t, dev := { s.dev with io := s'.dev.io } } := by
  intro done hdone
  have hexec : exec (.gateEntryEnd t p) s = .next { s with dt := s.now t, dev := s.dev.modPort p fun x => { x with entry := x.entry + 1, entryAt := done } } := by
    show execGateEntryEnd t p s = _
    unfold execGateEntryEnd
    rw [State.run_eq]
    dsimp only
    rw [if_pos ⟨hp, hen, hgcl, hstarted, hentry, hdone⟩]
  exact ⟨_, hexec, congrArg EthPort.entry (Dev.port_modPort ..), congrArg EthPort.entryAt (Dev.port_modPort ..), rfl⟩

theorem preemptionVerify_verifies {s : State} {t p : Nat} (hp : p < 4) (hen : s.dev.ethEn p = true) (hlink : (s.dev.port p).link = true)
    (hpre : s.dev.fb (r1 .ethPortCfg p) F.ethPortCfg.PREEMPT_EN = true) :
    Answers (.preemptionVerify t p) s fun s' => s'.dev.fb (r1 .ethPortStat p) F.ethPortStat.VERIFIED = true ∧
      (∀ r, r ≠ r1 .ethPortStat p → s'.dev.rd r = s.dev.rd r) ∧ s' = { s with dt := s.now t, dev := { s.dev with regs := s'.dev.regs } } := by
  have hexec : exec (.preemptionVerify t p) s = .next { s with dt := s.now t, dev := s.dev.sf (r1 .ethPortStat p) F.ethPortStat.VERIFIED 1 } := by
    show execPreemptionVerify t p s = _
    unfold execPreemptionVerify
    rw [State.run_eq, if_pos ⟨hp, hen, hlink, hpre⟩]
  exact ⟨_, hexec, Dev.fb_sf _ _ true (by decide) rfl, fun r hr => Dev.rd_sf_ne hr, rfl⟩

/-- What a link's change shows in its port's status: LINK, and on the loss VERIFIED and AS_CAPABLE clear (R65). -/
def Dev.linkShown (d : Dev) (p : Nat) (up : Bool) : Dev :=
  if 4 ≤ p then d
  else if up then d.sf (r1 .ethPortStat p) F.ethPortStat.LINK 1
  else ((d.sf (r1 .ethPortStat p) F.ethPortStat.LINK 0).sf (r1 .ethPortStat p) F.ethPortStat.VERIFIED 0).sf (r1 .ethPortStat p) F.ethPortStat.AS_CAPABLE 0

theorem Dev.linkShown_link (d : Dev) {p : Nat} (up : Bool) (h : p < 4) : (d.linkShown p up).fb (r1 .ethPortStat p) F.ethPortStat.LINK = up := by
  unfold Dev.linkShown
  rw [if_neg (by omega)]
  cases up with
  | true => exact Dev.fb_sf _ _ true (by decide) rfl
  | false =>
    rw [if_neg (by simp), Dev.fb_sf_ne _ (by decide) (by decide), Dev.fb_sf_ne _ (by decide) (by decide)]
    exact Dev.fb_sf _ _ false (by decide) rfl

theorem Dev.linkShown_verified (d : Dev) {p : Nat} (h : p < 4) : (d.linkShown p false).fb (r1 .ethPortStat p) F.ethPortStat.VERIFIED = false := by
  unfold Dev.linkShown
  rw [if_neg (by omega), if_neg (by simp), Dev.fb_sf_ne _ (by decide) (by decide)]
  exact Dev.fb_sf _ _ false (by decide) rfl

theorem Dev.linkShown_rd (d : Dev) (p : Nat) (up : Bool) {r : Reg} (h : r ≠ r1 .ethPortStat p) : (d.linkShown p up).rd r = d.rd r := by
  unfold Dev.linkShown
  split
  · rfl
  · split
    · exact Dev.rd_sf_ne h
    · rw [Dev.rd_sf_ne h, Dev.rd_sf_ne h, Dev.rd_sf_ne h]

theorem Dev.linkShown_io (d : Dev) (p : Nat) (up : Bool) : (d.linkShown p up).io = d.io := by
  unfold Dev.linkShown
  split
  · rfl
  · split <;> rfl

/-- A link's change is a matter of its port and of a register. -/
theorem Dev.linkShown_eq (d : Dev) (p : Nat) (up : Bool) (f : EthPort → EthPort) :
    (d.modPort p f).linkShown p up = { d with regs := ((d.modPort p f).linkShown p up).regs, io := ((d.modPort p f).linkShown p up).io } := by
  unfold Dev.linkShown
  split
  · rfl
  · split <;> rfl

theorem linkChange_shows {s : State} {t p : Nat} {up : Bool} (hon : s.dev.ethOn p = true) :
    Answers (.linkChange t p up) s fun s' => (s'.dev.port p).link = up ∧ (p < 4 → s'.dev.fb (r1 .ethPortStat p) F.ethPortStat.LINK = up) ∧
      (p < 4 → up = false → s'.dev.fb (r1 .ethPortStat p) F.ethPortStat.VERIFIED = false) ∧
      (∀ r, r ≠ r1 .ethPortStat p → s'.dev.rd r = s.dev.rd r) ∧ s' = { s with dt := s.now t, dev := { s.dev with regs := s'.dev.regs, io := s'.dev.io } } := by
  let d1 := s.dev.modPort p fun x => { x with link := up }
  have hexec : exec (.linkChange t p up) s = .next { s with dt := s.now t, dev := d1.linkShown p up } := by
    show execLinkChange t p up s = _
    unfold execLinkChange
    rw [State.run_eq, if_pos hon]
    rfl
  refine ⟨_, hexec, ?_, fun hp => Dev.linkShown_link d1 up hp, fun hp hup => ?_, fun r hr => Dev.linkShown_rd d1 p up hr, ?_⟩
  · rw [Dev.port_of_io (Dev.linkShown_io ..), Dev.port_modPort]
  · subst hup
    exact Dev.linkShown_verified d1 hp
  · exact congrArg (fun d => { s with dt := s.now t, dev := d }) (Dev.linkShown_eq s.dev p up _)

/-! ### Time on the network -/

theorem syncInterval_sends {s : State} {t p q delay : Nat} {data : List Nat} (hp : p < 4) (hen : s.dev.ethEn p = true) (hlink : (s.dev.port p).link = true) (hdelay : delay ≤ 800) :
    Answers (.syncInterval t p 0 q delay data) s fun s' =>
      (s'.dev.port p).txq = (s.dev.port p).txq ++ [{ queue := q % 8, insert := true, stamped := true, src := ethSrc p + 1, data := data.map (BitVec.ofNat 8) }] ∧
      s'.dev.fb (r1 .ethPortStat p) F.ethPortStat.AS_CAPABLE = true ∧ s'.dev.mem = s.dev.mem := by
  let d1 := (s.dev.sf (r1 .ethPortStat p) F.ethPortStat.AS_CAPABLE 1).emit (ethSrc p + 1) (s.now t) .sync false [p, 0, delay]
  have hlate : ¬(800 < delay ∧ 0 ≠ 2) := by omega
  have hcanal : (p == 14 || p == 15) = false := by simp; omega
  have hexec : exec (.syncInterval t p 0 q delay data) s = .next { s with dt := s.now t, dev := d1.modPort p fun y =>
      { y with txq := y.txq ++ [{ queue := q % 8, insert := true, stamped := true, src := ethSrc p + 1, data := data.map (BitVec.ofNat 8) }] } } := by
    show execSyncInterval t p 0 q delay data s = _
    unfold execSyncInterval Dev.syncInterval
    rw [State.run_eq]
    dsimp only
    rw [hcanal, if_neg (by simp [hen, hlink, hp]), if_neg (show ¬(0 = 11) by decide), if_pos hp, decide_eq_true hdelay, if_neg hlate, if_neg (show ¬(false = true) by simp)]
    rfl
  refine ⟨_, hexec, ?_, ?_, rfl⟩
  · rw [Dev.port_modPort]
    rfl
  · exact Dev.fb_sf _ _ true (by decide) rfl

theorem ptmRequest_answers {s : State} {t : Nat} (hon : s.dev.on 163 = true) :
    Answers (.ptmRequest t) s fun s' => s'.dev.bus = .data (s.now t) ∧ s' = { s with dt := s.now t, dev := { s.dev with bus := s'.dev.bus } } := by
  have hexec : exec (.ptmRequest t) s = .next { s with dt := s.now t, dev := { s.dev with bus := .data (s.now t) } } := by
    show execPtmRequest t s = _
    unfold execPtmRequest
    rw [State.run_eq, if_pos hon]
  exact ⟨_, hexec, rfl, rfl⟩

/-- Settles O18: a clause each for receiving, sending, gate control, preemption, a link's change, gPTP and PTM. -/
theorem networkCommandsComplete : Obligations.NetworkCommandsComplete := by
  unfold Obligations.NetworkCommandsComplete
  exact ⟨fun _ _ _ _ _ => frameReceive_queues, fun _ _ _ _ _ => frameReceive_bad, fun _ _ _ _ _ _ _ _ => frameTransmit_sends, fun _ _ _ => gateEntryEnd_advances,
    fun _ _ _ => preemptionVerify_verifies, fun _ _ _ _ _ => linkChange_shows, fun _ _ _ _ _ _ => syncInterval_sends, fun _ _ => ptmRequest_answers⟩

end Sys2Proof.Machine

/-! ## What a command's completion leaves, and effects that leave the mailboxes alone -/

namespace Sys2Proof.Machine

/-! ### Numbers that bytes spell -/

theorem leNat_lt (bs : List Byte) : leNat bs < 256 ^ bs.length := by
  induction bs with
  | nil => simp [leNat]
  | cons b bs ih =>
    have hb := b.isLt
    simp only [leNat, List.length_cons, Nat.pow_succ]
    omega

theorem bytesAt_lt (bs : List Byte) (off n : Nat) : bytesAt bs off n < 256 ^ n :=
  (leNat_lt _).trans_le (Nat.pow_le_pow_right (by decide) (List.length_take_le ..))

/-! ### The completion ring -/

/-- Between two states of a device only entries of a mailbox's completion ring, and the steward's own lists of requests, completions and notices, are written. -/
structure RingOnly (m : Nat) (d e : Dev) : Prop where
  mem : ringKept d e m
  ring : e.ring m = d.ring m
  owners : e.stew.owners = d.stew.owners
  settings : e.stew.settings = d.stew.settings

namespace RingOnly

theorem refl (m : Nat) (d : Dev) : RingOnly m d d := ⟨fun _ _ => rfl, rfl, rfl, rfl⟩

theorem trans {m : Nat} {d e f : Dev} (a : RingOnly m d e) (b : RingOnly m e f) : RingOnly m d f where
  mem x h := (b.mem x (by rw [a.ring]; exact h)).trans (a.mem x h)
  ring := b.ring.trans a.ring
  owners := b.owners.trans a.owners
  settings := b.settings.trans a.settings

theorem stew {m : Nat} {d : Dev} {x : StewSt} (ho : x.owners = d.stew.owners) (hs : x.settings = d.stew.settings) : RingOnly m d { d with stew := x } := ⟨fun _ _ => rfl, rfl, ho, hs⟩

end RingOnly

theorem Dev.cplEntry_ringOnly (d : Dev) (now m w tag ctx st de : Nat) {b : List Byte} (hb : b.length ≤ 480) : RingOnly m d (d.cplEntry now m w tag ctx st de b) where
  mem a ha := by
    unfold Dev.cplEntry
    rw [Dev.raise_mem, Dev.sf_mem]
    refine Memory.get_write_outside ?_
    show a < d.ring m + 0x4000 + 512 * _ ∨ d.ring m + 0x4000 + 512 * _ + _ ≤ a
    simp only [List.length_append, leBytes_length]
    omega
  ring := Dev.f_of_rd (Dev.cplEntry_rd (by simp)) _ |> congrArg (· * 2 ^ 15)
  owners := by unfold Dev.cplEntry; simp
  settings := by unfold Dev.cplEntry; simp

theorem Key.bytes_length (k : Key) : k.bytes.length = 16 := by simp [Key.bytes]

theorem Dev.flushNotice_ringOnly (d : Dev) (now m : Nat) : RingOnly m d (d.flushNotice now m) := by
  unfold Dev.flushNotice
  split
  · exact .refl m d
  · split
    · extract_lets stew d1
      have h1 : RingOnly m d d1 := .stew rfl rfl
      clear_value d1
      exact h1.trans (Dev.cplEntry_ringOnly _ _ _ _ _ _ _ _ (by simp [Key.bytes_length, leBytes_length]))
    · exact .refl m d

theorem Dev.flushNotices_ringOnly (d : Dev) (now m k : Nat) : RingOnly m d (d.flushNotices now m k) := by
  induction k generalizing d with
  | zero => exact .refl m d
  | succ k ih => exact (d.flushNotice_ringOnly now m).trans (ih _)

theorem Dev.syncInflight_ringOnly (d : Dev) (m : Nat) : RingOnly m d (d.syncInflight m) :=
  ⟨fun _ _ => by rw [Dev.syncInflight_mem], congrArg (· * 2 ^ 15) (Dev.f_of_rd (Dev.syncInflight_rd (by simp)) _), by rw [Dev.syncInflight_stew], by rw [Dev.syncInflight_stew]⟩

/-- A completion writes the mailbox's ring alone (R344, R347). -/
theorem Dev.finish_ringOnly (d : Dev) (now : Nat) (r : Req) (st : Status) (de : Nat) {b : List Byte} (hb : b.length ≤ 480) : RingOnly r.mbx d (d.finish now r st de b) := by
  unfold Dev.finish
  extract_lets stew d1
  have h1 : RingOnly r.mbx d d1 := .stew rfl rfl
  exact h1.trans (((Dev.cplEntry_ringOnly d1 _ _ _ _ _ _ _ hb).trans (Dev.syncInflight_ringOnly ..)).trans (Dev.flushNotices_ringOnly ..))

/-! ### Effects beside the mailboxes -/

/-- The ring base of a mailbox. -/
def RegName.isMbxBase (x : RegName) : Bool := x == .mbxBase

/-- An effect that writes no memory, no completion and no ring base. -/
structure Quiet (d e : Dev) : Prop where
  mem : e.mem = d.mem
  cpls : e.stew.cpls = d.stew.cpls
  base : KeepsRegs RegName.isMbxBase d e

namespace Quiet

variable {d e f : Dev}

theorem refl (d : Dev) : Quiet d d := ⟨rfl, rfl, .refl _ d⟩

theorem trans (a : Quiet d e) (b : Quiet e f) : Quiet d f := ⟨b.mem.trans a.mem, b.cpls.trans a.cpls, a.base.trans b.base⟩

theorem wr {r : Reg} (v : Word) (h : r.name.isMbxBase = false) : Quiet d (d.wr r v) := ⟨rfl, rfl, .wr v h⟩

theorem wn {r : Reg} (n : Nat) (h : r.name.isMbxBase = false) : Quiet d (d.wn r n) := wr _ h

theorem sf {r : Reg} (x : Fld) (n : Nat) (h : r.name.isMbxBase = false) : Quiet d (d.sf r x n) := wr _ h

theorem ite {c : Prop} [Decidable c] (h : Quiet d e) (h' : Quiet d f) : Quiet d (if c then e else f) := by
  split <;> assumption

theorem foldl_of_mem {α : Type} {g : Dev → α → Dev} {l : List α} (h : ∀ a ∈ l, ∀ d, Quiet d (g d a)) (d : Dev) : Quiet d (l.foldl g d) := by
  induction l generalizing d with
  | nil => exact refl d
  | cons a l ih => exact (h a (by simp) d).trans (ih (fun b hb => h b (by simp [hb])) _)

theorem foldl {α : Type} {g : Dev → α → Dev} (h : ∀ d a, Quiet d (g d a)) (l : List α) (d : Dev) : Quiet d (l.foldl g d) := foldl_of_mem (fun a _ d => h d a) d

theorem ring (h : Quiet d e) (m : Nat) : e.ring m = d.ring m := congrArg (· * 2 ^ 15) (Dev.f_of_rd (h.base.rd (r1 .mbxBase m) rfl) _)

end Quiet

/-- After a quiet effect a request is served, and memory outside the ring is as before (R344, R347). -/
theorem Quiet.finish {old d : Dev} (h : Quiet old d) (now : Nat) (r : Req) (st : Status) (de : Nat) {b : List Byte} (hb : b.length ≤ 480) :
    served old (d.finish now r st de b) r st de b ∧ ringKept old (d.finish now r st de b) r.mbx := by
  refine ⟨Dev.finish_served h.cpls .., fun a ha => ?_⟩
  rw [(Dev.finish_ringOnly d now r st de hb).mem a (by rwa [h.ring]), h.mem]

/-- A row of the steward whose request is ready and passes its checks has its effect (R352, R353). -/
theorem command_answers {i : Instr} {s : State} {t m seq code : Nat} {r : Req} {f : Nat → Dev → Dev} {form : Req → Bool} {check : Req → Option Fail} {effect : Req → Dev}
    {P : State → Prop} (hi : exec i s = s.run t f) (hf : f (s.now t) s.dev = s.dev.command (s.now t) m seq code form check effect) (hr : ready s t m seq code r = true)
    (hform : form r = true) (hk : check r = none) (hP : r.mbx = m → r.seq = seq → s.dev.req? m seq = some r → P { s with dt := s.now t, dev := effect r }) : Answers i s P := by
  unfold ready at hr
  simp only [Bool.and_eq_true, beq_iff_eq] at hr
  obtain ⟨⟨⟨⟨⟨hreq, hm⟩, hs⟩, hc⟩, hrun⟩, hmay⟩ := hr
  refine ⟨_, ?_, hP hm hs hreq⟩
  rw [hi, State.run_eq, hf, Dev.command_passes hreq hrun hc hform hmay hk]

end Sys2Proof.Machine

/-! ## O40: claims, releases, cues, captures and settings -/

namespace Sys2Proof.Machine

/-! ### Owners -/

theorem tget_tset_of_tget {α : Type} {t : Tbl α} {j k : Nat} {v : α} (h : tget t j = some v) : tget (tset t k v) j = some v := by
  by_cases hj : j = k
  · rw [hj]
    exact tget_tset ..
  · exact (tget_tset_ne hj).trans h

theorem tget_tdel_of_none {α : Type} {t : Tbl α} {j k : Nat} (h : tget t j = none) : tget (tdel t k) j = none := by
  by_cases hj : j = k
  · rw [hj]
    exact tget_tdel ..
  · exact (tget_tdel_ne hj).trans h

/-- The owner table after an owner field is written. -/
def ownersWith (t : Tbl Owner) (k : Nat) (o : Option Owner) : Tbl Owner :=
  match o with
  | some x => tset t k x
  | none => tdel t k

theorem Dev.setOwner_stew (d : Dev) (type index : Nat) (o : Option Owner) :
    (d.setOwner type index o).stew = { d.stew with owners := ownersWith d.stew.owners (resKey type index) o } := by
  unfold Dev.setOwner
  extract_lets st d1 c
  have h1 : d1.stew = { d.stew with owners := ownersWith d.stew.owners (resKey type index) o } := by cases o <;> rfl
  clear_value d1
  rw [← h1]
  split
  · rfl
  · split <;> rfl

theorem Dev.setOwner_quiet (d : Dev) (type index : Nat) (o : Option Owner) : Quiet d (d.setOwner type index o) := by
  unfold Dev.setOwner
  extract_lets st d1 c
  have h1 : Quiet d d1 := ⟨rfl, rfl, .of_regs rfl⟩
  exact h1.trans (.ite (.trans (.sf _ _ rfl) (.sf _ _ rfl)) (.ite (.trans (.sf _ _ rfl) (.sf _ _ rfl)) (.refl d1)))

theorem Dev.owner_of_owners {d e : Dev} (h : e.stew.owners = d.stew.owners) (type index : Nat) : e.owner type index = d.owner type index := by
  unfold Dev.owner
  rw [h]

theorem Dev.owner_setOwner (d : Dev) (type index : Nat) (o : Option Owner) : (d.setOwner type index o).owner type index = o := by
  unfold Dev.owner
  rw [Dev.setOwner_stew]
  cases o with
  | some x => exact tget_tset ..
  | none => exact tget_tdel ..

/-- Giving another field the owner that a resource has leaves the resource's. -/
theorem Dev.owner_setOwner_of_owner {d : Dev} {type index : Nat} {o : Option Owner} (h : d.owner type index = o) (type' index' : Nat) :
    (d.setOwner type' index' o).owner type index = o := by
  unfold Dev.owner at h ⊢
  rw [Dev.setOwner_stew]
  cases o with
  | some x => exact tget_tset_of_tget h
  | none => exact tget_tdel_of_none h

/-! ### Window pages -/

theorem Dev.grant_stew (d : Dev) (now w page cls acc : Nat) : (d.grant now w page cls acc).stew = d.stew := by
  unfold Dev.grant
  dsimp only
  split
  · rfl
  · simp

theorem Dev.grant_quiet (d : Dev) (now w page cls acc : Nat) : Quiet d (d.grant now w page cls acc) := by
  refine ⟨?_, by rw [Dev.grant_stew], ?_⟩
  · unfold Dev.grant
    dsimp only
    split
    · rfl
    · simp
  · unfold Dev.grant
    extract_lets r base
    refine .ite ?_ (.trans (.sf _ _ rfl) (.of_regs (Dev.almMc_regs ..)))
    exact .trans (d' := { d with grants := if acc = 0 then tdel d.grants (base + page) else tset d.grants (base + page) (cls, acc) }) (.of_regs rfl) (.sf _ _ rfl)

theorem Dev.grantPage_stew (d : Dev) (now page cls acc : Nat) : (d.grantPage now page cls acc).stew = d.stew := by
  unfold Dev.grantPage
  split
  · exact Dev.grant_stew ..
  · rfl

theorem Dev.grantPage_quiet (d : Dev) (now page cls acc : Nat) : Quiet d (d.grantPage now page cls acc) := by
  unfold Dev.grantPage
  split
  · exact Dev.grant_quiet ..
  · exact .refl d

/-! ### CLAIM -/

/-- A claim gives the resource, and whatever goes with it, to its context (R365, R366). -/
theorem Dev.claimRes_claims (d : Dev) (now : Nat) (r : Req) : Quiet d (d.claimRes now r) ∧ (d.claimRes now r).owner r.resType r.resIndex = some (.ctx r.ctx) := by
  unfold Dev.claimRes
  extract_lets d1 d2
  have hq1 : Quiet d d1 := Dev.setOwner_quiet ..
  have ho1 : d1.owner r.resType r.resIndex = some (.ctx r.ctx) := Dev.owner_setOwner ..
  have h2 : Quiet d d2 ∧ d2.owner r.resType r.resIndex = some (.ctx r.ctx) := by
    dsimp only [d2]
    split
    · next m _ =>
      have ho := Dev.owner_setOwner_of_owner ho1 0x0E m.1
      have hq := hq1.trans (Dev.setOwner_quiet d1 0x0E m.1 (some (.ctx r.ctx)))
      generalize d1.setOwner 0x0E m.1 (some (.ctx r.ctx)) = e at ho hq ⊢
      split
      · exact ⟨hq.trans ⟨rfl, rfl, .of_regs rfl⟩, ho⟩
      · exact ⟨hq, ho⟩
    · exact ⟨hq1, ho1⟩
  obtain ⟨hq2, ho2⟩ := h2
  split
  · exact ⟨hq2.trans (Dev.grantPage_quiet ..), (Dev.owner_of_owners (by rw [Dev.grantPage_stew]) ..).trans ho2⟩
  · exact ⟨hq2, ho2⟩

theorem Dev.owner_finish (d : Dev) (now : Nat) (r : Req) (st : Status) (de type index : Nat) : (d.finish now r st de []).owner type index = d.owner type index :=
  Dev.owner_of_owners (Dev.finish_ringOnly d now r st de (by simp)).owners ..

theorem claim_claims {s : State} {t m seq : Nat} {r : Req} (hr : ready s t m seq 0x0601 r = true) (hk : s.dev.claimCmdCheck r = none) :
    Answers (.claim t m seq) s fun s' => s'.dev.owner r.resType r.resIndex = some (.ctx r.ctx) ∧ served s.dev s'.dev r .ok 0 [] ∧ ringKept s.dev s'.dev m := by
  refine command_answers (f := fun now d => d.claimCmd now m seq) (form := fun _ => true) rfl rfl hr rfl hk fun hm _ _ => ?_
  have h : ∀ d1, (if s.dev.owner r.resType r.resIndex = some (.ctx r.ctx) then s.dev else s.dev.claimRes (s.now t) r) = d1 →
      Quiet s.dev d1 ∧ d1.owner r.resType r.resIndex = some (.ctx r.ctx) := by
    rintro d1 rfl
    split
    · next h => exact ⟨.refl _, h⟩
    · exact Dev.claimRes_claims ..
  dsimp only
  generalize hd1 : (if s.dev.owner r.resType r.resIndex = some (.ctx r.ctx) then s.dev else s.dev.claimRes (s.now t) r) = d1
  obtain ⟨hq, ho⟩ := h d1 hd1
  rw [← hm]
  exact ⟨(Dev.owner_finish ..).trans ho, hq.finish _ _ _ _ (by simp)⟩

/-! ### RELEASE -/

theorem Dev.endCarry_quiet (d : Dev) (p : Carry → Bool) : Quiet d (d.endCarry p) := by
  unfold Dev.endCarry
  extract_lets gone fab d1
  have h1 : Quiet d d1 := ⟨rfl, rfl, .of_regs rfl⟩
  exact h1.trans (.foldl (fun d x => .ite (.refl d) (.sf _ _ rfl)) _ d1)

theorem Dev.unqueue_quiet (d : Dev) (n : Nat) (w : Waiter) : Quiet d (d.unqueue n w) := by
  unfold Dev.unqueue
  have h1 (x : Tbl Cell) : Quiet d { d with cells := x } := ⟨rfl, rfl, .of_regs rfl⟩
  exact (h1 _).trans (Dev.endCarry_quiet ..)

theorem Dev.dropWaitId_quiet (d : Dev) (id : Option Nat) : Quiet d (d.dropWaitId id) := by
  unfold Dev.dropWaitId
  split
  · exact ⟨rfl, rfl, .of_regs rfl⟩
  · exact .refl d

theorem Dev.releasePort_quiet (d : Dev) (n : Nat) : Quiet d (d.releasePort n) := by
  unfold Dev.releasePort
  dsimp only
  refine .trans (.foldl (fun d e => .foldl (fun d w => ?_) _ d) _ d) (.trans (.trans (.wn _ rfl) (.wn _ rfl)) (.wn _ rfl))
  split
  · exact (Dev.unqueue_quiet ..).trans (Dev.dropWaitId_quiet ..)
  · exact .refl d

theorem Dev.resetCue_quiet (d : Dev) (n : Nat) : Quiet d (d.resetCue n) := by
  unfold Dev.resetCue
  extract_lets d1 c
  have h1 : Quiet d d1 := .trans (.trans (.wn _ rfl) (.wn _ rfl)) (.wn _ rfl)
  exact h1.trans ⟨rfl, rfl, .of_regs rfl⟩

/-- The registers of a camera port that its release resets (R261). -/
theorem Dev.resetCamera_quiet (d : Dev) (n : Nat) : Quiet d (d.resetCamera n) := by
  unfold Dev.resetCamera Dev.syncCamLoad
  refine .trans (.foldl_of_mem (fun r hr d => .wr _ ?_) d) (.wn _ rfl)
  simp only [List.mem_cons, List.not_mem_nil, or_false] at hr
  rcases hr with rfl | rfl | rfl | rfl | rfl | rfl | rfl | rfl | rfl | rfl | rfl <;> rfl

theorem Dev.resetResource_quiet (d : Dev) (now type index : Nat) : Quiet d (d.resetResource now type index) := by
  unfold Dev.resetResource
  extract_lets d1
  have h1 : Quiet d d1 := by
    refine .ite ⟨rfl, rfl, .of_regs rfl⟩ (.ite ?_ (.ite (Dev.resetCue_quiet ..) (.ite (.wn _ rfl) (.ite (Dev.releasePort_quiet ..) (.ite (.wn _ rfl) (.ite (Dev.resetCamera_quiet ..) (.refl d)))))))
    exact .trans (.wn _ rfl) (.foldl (fun d _ => .wn _ rfl) _ _)
  split
  · exact h1.trans (Dev.grantPage_quiet ..)
  · exact h1

/-- A pin-mux group without an owner serves function A (R409). -/
def Dev.freeMux (d : Dev) (g : Nat) : Dev :=
  { d.setOwner 0x0E g none with stew := { (d.setOwner 0x0E g none).stew with muxB := (d.setOwner 0x0E g none).stew.muxB.filter (· != g) } }

theorem Dev.freeMux_quiet (d : Dev) (g : Nat) : Quiet d (d.freeMux g) := (Dev.setOwner_quiet d 0x0E g none).trans ⟨rfl, rfl, .of_regs rfl⟩

theorem Dev.freeMux_owner {d : Dev} {type index : Nat} (h : d.owner type index = none) (g : Nat) : (d.freeMux g).owner type index = none :=
  Dev.owner_setOwner_of_owner h 0x0E g

/-- A released resource has no owner (R366). -/
theorem Dev.releaseResource_releases (d : Dev) (now type index : Nat) : Quiet d (d.releaseResource now type index) ∧ (d.releaseResource now type index).owner type index = none := by
  unfold Dev.releaseResource
  extract_lets d1 free
  have hfree (d : Dev) (g : Nat) : free d g = d.freeMux g := rfl
  have hq : Quiet d d1 := (Dev.resetResource_quiet ..).trans (Dev.setOwner_quiet ..)
  have ho : d1.owner type index = none := Dev.owner_setOwner ..
  have hmux (g : Nat) : Quiet d (d1.freeMux g) ∧ (d1.freeMux g).owner type index = none := ⟨hq.trans (Dev.freeMux_quiet ..), Dev.freeMux_owner ho g⟩
  simp only [hfree]
  clear_value d1
  split
  · exact hmux index
  · split
    · next m _ =>
      split
      · exact ⟨hq, ho⟩
      · exact hmux m.1
    · exact ⟨hq, ho⟩

theorem release_releases {s : State} {t m seq : Nat} {r : Req} (hr : ready s t m seq 0x0602 r = true) (hk : s.dev.releaseCheck r = none) :
    Answers (.release t m seq) s fun s' => s'.dev.owner r.resType r.resIndex = none ∧ served s.dev s'.dev r .ok 0 [] ∧ ringKept s.dev s'.dev m := by
  refine command_answers (f := fun now d => d.release now m seq) (form := fun _ => true) rfl rfl hr rfl hk fun hm _ _ => ?_
  obtain ⟨hq, ho⟩ := s.dev.releaseResource_releases (s.now t) r.resType r.resIndex
  dsimp only
  generalize s.dev.releaseResource (s.now t) r.resType r.resIndex = e at hq ho ⊢
  rw [← hm]
  exact ⟨(Dev.owner_finish ..).trans ho, hq.finish _ _ _ _ (by simp)⟩

/-! ### CUE_SET and CAPTURE_SET -/

/-- A field that is written what it holds leaves its register. -/
theorem Dev.rd_sf_same {d : Dev} {r : Reg} {x : Fld} {n : Nat} (hx : x.ok) (h : d.f r x = n % 2 ^ x.w) : (d.sf r x n).rd r = d.rd r := by
  have hf : fget (d.rd r) x = n % 2 ^ x.w := h
  have hle : fget (d.rd r) x * 2 ^ x.lo ≤ (d.rd r).toNat := (Nat.mul_le_mul_right _ (Nat.mod_le ..)).trans (Nat.div_mul_le_self ..)
  refine (Dev.rd_wr ..).trans (BitVec.eq_of_toNat_eq ?_)
  rw [fput_toNat n hx, ← hf]
  omega

/-- The low 21 bits of a channel's configuration, with its OWNER and OWNED as they were. -/
def cfgOver (old new : Nat) : Nat := (old - old % 2 ^ 21) + new % 2 ^ 21

theorem cfgOver_low (old new : Nat) : cfgOver old new % 2 ^ 21 = new % 2 ^ 21 := by unfold cfgOver; omega
theorem cfgOver_high (old new : Nat) : cfgOver old new / 2 ^ 21 = old / 2 ^ 21 := by unfold cfgOver; omega
theorem cfgOver_lt {old new : Nat} (h : old < 2 ^ 64) : cfgOver old new < 2 ^ 64 := by unfold cfgOver; omega

theorem Dev.rn_lt (d : Dev) (r : Reg) : d.rn r < 2 ^ 64 := BitVec.isLt ..

theorem Dev.rn_wn_of_lt {d : Dev} {r : Reg} {n : Nat} (h : n < 2 ^ 64) : (d.wn r n).rn r = n := (Dev.rn_wn ..).trans (Nat.mod_eq_of_lt h)

/-- A channel set as a CUE_SET says (R49). -/
structure ChannelSet (d e : Dev) (n : Nat) (r : Req) : Prop where
  quiet : Quiet d e
  out : e.cue.out = d.cue.out
  time : e.rn (r1 .cueChTime n) = r.w64 8
  period : e.chanPeriod n = r.fld 16 0 40
  cfg : e.rn (r1 .cueChCfg n) % 2 ^ 21 = r.w32 4 % 2 ^ 21

/-- A channel's registers set as a CUE_SET says, before it is armed. -/
def Dev.cueWritten (d : Dev) (n : Nat) (r : Req) : Dev :=
  ((d.wn (r1 .cueChCfg n) (cfgOver (d.rn (r1 .cueChCfg n)) (r.w32 4))).wn (r1 .cueChTime n) (r.w64 8)).sf (r1 .cueChPeriod n) F.cueChPeriod.PERIOD (r.fld 16 0 40)

theorem Dev.cueWritten_set (d : Dev) (n : Nat) (r : Req) : ChannelSet d (d.cueWritten n r) n r where
  quiet := .trans (.trans (.wn _ rfl) (.wn _ rfl)) (.sf _ _ rfl)
  out := rfl
  time := (Dev.rn_of_rd (Dev.rd_sf_ne (Reg.ne_of_name (by simp)))).trans (Dev.rn_wn_of_lt (bytesAt_lt ..))
  period := (Dev.f_sf _ _ _ (by unfold Fld.ok; decide)).trans (Nat.mod_mod ..)
  cfg := by
    unfold Dev.cueWritten
    rw [Dev.rn_of_rd (Dev.rd_sf_ne (Reg.ne_of_name (by simp))), Dev.rn_of_rd (Dev.rd_wn_ne (Reg.ne_of_name (by simp))), Dev.rn_wn_of_lt (cfgOver_lt (Dev.rn_lt ..)), cfgOver_low]

theorem Dev.armCue_quiet {d : Dev} {now n : Nat} (h : now + 16 ≤ d.rn (r1 .cueChTime n)) : Quiet d (d.armCue now n) ∧ (d.armCue now n).cue.out = d.cue.out := by
  rw [Dev.armCue_ahead h]
  have h1 : Quiet d (d.timeSince now n) := ⟨rfl, rfl, .of_regs rfl⟩
  exact ⟨((h1.trans (.sf _ _ rfl)).trans (.sf _ _ rfl)).trans (.sf _ _ rfl), rfl⟩

/-- Arming a channel whose CFG has ARM changes no register but its status. -/
theorem Dev.armCue_rd_armed {d : Dev} {now n : Nat} (h : now + 16 ≤ d.rn (r1 .cueChTime n)) (harm : d.f (r1 .cueChCfg n) F.cueChCfg.ARM = 1) {r : Reg} (hs : r ≠ r1 .cueChStat n) :
    (d.armCue now n).rd r = d.rd r := by
  by_cases hc : r = r1 .cueChCfg n
  · rw [Dev.armCue_ahead h, Dev.rd_sf_ne hs, Dev.rd_sf_ne hs, hc]
    exact Dev.rd_sf_same (by unfold Fld.ok; decide) harm
  · exact Dev.armCue_rd h hc hs

theorem Dev.setChannel_set {d : Dev} {now n : Nat} {r : Req} (hdue : d.cueDue now n = false) (hfix : d.fixedChannel n = false)
    (harm : r.cueCfg F.cueChCfg.ARM = 1 → now + 16 ≤ r.w64 8) : ChannelSet d (d.setChannel now n r) n r := by
  have h1 := d.cueWritten_set n r
  have heq : d.setChannel now n r = if r.cueCfg F.cueChCfg.ARM = 1 then
      (if ((d.cueWritten n r).armCue now n).firesAtOnce now n then ((d.cueWritten n r).armCue now n).cueFired now now n else (d.cueWritten n r).armCue now n) else d.cueWritten n r := by
    unfold Dev.setChannel
    rw [Dev.fireDue_of_notDue hdue]
    dsimp only
    rw [hfix, if_neg (by simp)]
    rfl
  rw [heq]
  split
  · next ha =>
    have htime : now + 16 ≤ (d.cueWritten n r).rn (r1 .cueChTime n) := h1.time ▸ harm ha
    have hbit : (d.cueWritten n r).f (r1 .cueChCfg n) F.cueChCfg.ARM = 1 := by
      have hcfg := h1.cfg
      unfold Req.cueCfg bits at ha
      show (d.cueWritten n r).rn (r1 .cueChCfg n) / 2 ^ 0 % 2 ^ 1 = 1
      dsimp only at ha
      omega
    have hrd {q : Reg} (hs : q ≠ r1 .cueChStat n) : ((d.cueWritten n r).armCue now n).rd q = (d.cueWritten n r).rd q := Dev.armCue_rd_armed htime hbit hs
    have hts : ((d.cueWritten n r).armCue now n).rn (r1 .cueChTime n) = (d.cueWritten n r).rn (r1 .cueChTime n) := Dev.rn_of_rd (hrd (Reg.ne_of_name (by simp)))
    rw [Dev.firesAtOnce_ahead (hts.symm ▸ htime), if_neg (by simp)]
    obtain ⟨hq, hout⟩ := Dev.armCue_quiet htime
    exact ⟨h1.quiet.trans hq, hout.trans h1.out, hts.trans h1.time, (Dev.f_of_rd (hrd (Reg.ne_of_name (by simp))) _).trans h1.period,
      (congrArg (· % 2 ^ 21) (Dev.rn_of_rd (hrd (Reg.ne_of_name (by simp))))).trans h1.cfg⟩
  · exact h1

/-- A completion leaves the registers beside the mailboxes. -/
theorem Dev.finish_rn {d : Dev} {now de : Nat} {q : Req} {st : Status} {b : List Byte} {r : Reg} (h : r.name ≠ .mbxCpl) (h' : r.name ≠ .mbxStat) :
    (d.finish now q st de b).rn r = d.rn r := Dev.rn_of_rd (Dev.finish_rd h h')

theorem cueSet_sets {s : State} {t m seq : Nat} {r : Req} (hr : ready s t m seq 0x0701 r = true) (hk : s.dev.cueSetCheck r = none) (hout : s.dev.cue.out = [])
    (hdue : s.dev.cueDue (s.now t) (r.fld 0 0 6) = false) (hfix : s.dev.fixedChannel (r.fld 0 0 6) = false) (harm : r.cueCfg F.cueChCfg.ARM = 1 → s.now t + 16 ≤ r.w64 8) :
    Answers (.cueSet t m seq) s fun s' => s'.dev.rn (r1 .cueChTime (r.fld 0 0 6)) = r.w64 8 ∧ s'.dev.chanPeriod (r.fld 0 0 6) = r.fld 16 0 40 ∧
      s'.dev.rn (r1 .cueChCfg (r.fld 0 0 6)) % 2 ^ 21 = r.w32 4 % 2 ^ 21 ∧ served s.dev s'.dev r .ok 0 [] ∧ ringKept s.dev s'.dev m := by
  refine command_answers (f := fun now d => d.cueSet now m seq) (form := fun _ => true) rfl rfl hr rfl hk fun hm _ _ => ?_
  have h := Dev.setChannel_set hdue hfix harm
  dsimp only
  rw [Dev.feedCaptures_of_none (h.out.trans hout), ← hm]
  refine ⟨(Dev.finish_rn (by simp) (by simp)).trans h.time, ?_, ?_, h.quiet.finish _ _ _ _ (by simp)⟩
  · exact (Dev.f_of_rd (Dev.finish_rd (by simp) (by simp)) _).trans h.period
  · rw [Dev.finish_rn (by simp) (by simp), h.cfg]

theorem captureSet_sets {s : State} {t m seq : Nat} {r : Req} (hr : ready s t m seq 0x0702 r = true) (hk : s.dev.captureSetCheck r = none) :
    Answers (.captureSet t m seq) s fun s' => s'.dev.rn (r1 .capChCfg (r.fld 0 0 5)) % 2 ^ 21 = r.w32 4 % 2 ^ 21 ∧
      s'.dev.rn (r1 .capChCfg (r.fld 0 0 5)) / 2 ^ 21 = s.dev.rn (r1 .capChCfg (r.fld 0 0 5)) / 2 ^ 21 ∧ served s.dev s'.dev r .ok 0 [] ∧ ringKept s.dev s'.dev m := by
  refine command_answers (f := fun now d => d.captureSet now m seq) (form := fun _ => true) rfl rfl hr rfl hk fun hm _ _ => ?_
  have hq : Quiet s.dev (s.dev.wn (r1 .capChCfg (r.fld 0 0 5)) (cfgOver (s.dev.rn (r1 .capChCfg (r.fld 0 0 5))) (r.w32 4))) := .wn _ rfl
  have hcfg := Dev.rn_wn_of_lt (d := s.dev) (r := r1 .capChCfg (r.fld 0 0 5)) (cfgOver_lt (new := r.w32 4) (s.dev.rn_lt (r1 .capChCfg (r.fld 0 0 5))))
  dsimp only
  rw [← cfgOver]
  generalize s.dev.wn (r1 .capChCfg (r.fld 0 0 5)) (cfgOver (s.dev.rn (r1 .capChCfg (r.fld 0 0 5))) (r.w32 4)) = e at hq hcfg ⊢
  rw [Dev.finish_rn (by simp) (by simp), hcfg, ← hm]
  exact ⟨cfgOver_low .., cfgOver_high .., hq.finish _ _ _ _ (by simp)⟩

/-! ### CONFIG_SET -/

/-- A CONFIG_SET of a row (R364). -/
def Dev.setConfig (d : Dev) (now m seq : Nat) (r : Req) (w : SetRow) : Dev :=
  let code := r.fld 0 0 16
  let index := r.fld 4 0 16
  let new := d.setNew code index (r.w64 8) (r.w64 16)
  let old := d.setOld code index
  if new = old then d.finish now r .ok 0 []
  else
    let at_ := nowMask code (r.w64 8) w
    let v := if w.atOnce then new else mergeBits old at_ new
    let d1 := if at_ = 0 ∧ w.atOnce = false then d else match d.setReg code index with
      | some g => if code = 0x0001 then d.writeTimeCtrl now v else d.wn g v
      | none => d
    let rest := r.w64 8 - (r.w64 8 &&& at_)
    if rest = 0 then d1.finish now r .ok 0 []
    else { d1.decide' r with stew := { (d1.decide' r).stew with settings := (d1.decide' r).stew.settings ++ [⟨code, index, rest, r.w64 16, m, seq⟩] } }

theorem Dev.configSet_answers {s : State} {t m seq : Nat} {r : Req} {w : SetRow} {P : State → Prop} (hr : ready s t m seq 0x0603 r = true)
    (hk : s.dev.configSetCheck (s.now t) m r = none) (hw : setRow (r.fld 0 0 16) = some w)
    (hP : s.dev.req? m seq = some r → P { s with dt := s.now t, dev := s.dev.setConfig (s.now t) m seq r w }) : Answers (.configSet t m seq) s P := by
  refine command_answers (f := fun now d => d.configSet now m seq) (form := fun _ => true) rfl rfl hr rfl hk fun _ _ hreq => ?_
  dsimp only
  rw [hw]
  exact hP hreq

section
variable {d : Dev} {now m seq : Nat} {r : Req} {w : SetRow}

/-- A CONFIG_SET that changes nothing completes. -/
theorem Dev.setConfig_same (h : d.setNew (r.fld 0 0 16) (r.fld 4 0 16) (r.w64 8) (r.w64 16) = d.setOld (r.fld 0 0 16) (r.fld 4 0 16)) :
    d.setConfig now m seq r w = d.finish now r .ok 0 [] := if_pos h

variable (h : d.setNew (r.fld 0 0 16) (r.fld 4 0 16) (r.w64 8) (r.w64 16) ≠ d.setOld (r.fld 0 0 16) (r.fld 4 0 16))
include h

/-- A setting written at once stands in its register when the command completes. -/
theorem Dev.setConfig_atOnce {g : Reg} (hw : w.atOnce = true) (hcode : r.fld 0 0 16 ≠ 0x0001) (hg : d.setReg (r.fld 0 0 16) (r.fld 4 0 16) = some g) :
    d.setConfig now m seq r w = (d.wn g (d.setNew (r.fld 0 0 16) (r.fld 4 0 16) (r.w64 8) (r.w64 16))).finish now r .ok 0 [] := by
  have hmask : nowMask (r.fld 0 0 16) (r.w64 8) w = r.w64 8 := if_pos hw
  unfold Dev.setConfig
  dsimp only
  rw [if_neg h, hmask, Nat.and_self, Nat.sub_self, if_pos rfl, if_pos hw, hw, if_neg (by simp), hg]
  dsimp only
  rw [if_neg hcode]

omit h in
/-- A row that is not written at once takes the masked bits from the value. -/
theorem Dev.setNew_of_later (hrow : setRow (r.fld 0 0 16) = some w) (hw : w.atOnce = false) :
    d.setNew (r.fld 0 0 16) (r.fld 4 0 16) (r.w64 8) (r.w64 16) = mergeBits (d.setOld (r.fld 0 0 16) (r.fld 4 0 16)) (r.w64 8) (r.w64 16) := by
  refine if_neg fun h4 => ?_
  rw [h4] at hrow
  cases hrow
  cases hw

/-- A setting for later waits with its request (R364). -/
theorem Dev.setConfig_later (hrow : setRow (r.fld 0 0 16) = some w) (hw : w.atOnce = false) (hcode : r.fld 0 0 16 ≠ 0x0010) :
    d.setConfig now m seq r w = { d.decide' r with stew := { (d.decide' r).stew with settings := (d.decide' r).stew.settings ++ [⟨r.fld 0 0 16, r.fld 4 0 16, r.w64 8, r.w64 16, m, seq⟩] } } := by
  have hmask : nowMask (r.fld 0 0 16) (r.w64 8) w = 0 := (if_neg (by simp [hw])).trans (if_neg hcode)
  have hsome : r.w64 8 ≠ 0 := fun h0 => h (by rw [Dev.setNew_of_later hrow hw, h0]; simp [mergeBits])
  unfold Dev.setConfig
  dsimp only
  rw [if_neg h, hmask, Nat.and_zero, Nat.sub_zero, if_neg hsome, if_pos ⟨rfl, hw⟩]

end

/-- The settable registers are none of a mailbox. -/
theorem Dev.setReg_name {d : Dev} {code index : Nat} {g : Reg} (h : d.setReg code index = some g) : g.name.isMbxBase = false ∧ g.name ≠ .mbxCpl ∧ g.name ≠ .mbxStat := by
  unfold Dev.setReg settingReg at h
  split at h
  · cases h
    exact ⟨rfl, by simp, by simp⟩
  · split at h <;> simp only [Option.some.injEq, reduceCtorEq] at h <;> subst h <;> exact ⟨rfl, by simp, by simp⟩

theorem awaits_of_inflight {d e : Dev} {m seq : Nat} (h : e.stew.inflight = d.stew.inflight) (ha : awaits d m seq) : awaits e m seq := by
  unfold awaits Dev.req? at ha ⊢
  rwa [h]

/-- A decided request waits for the event that completes it. -/
theorem Dev.decide'_awaits {d : Dev} {m seq : Nat} {r : Req} (hreq : d.req? m seq = some r) : awaits (d.decide' r) m seq := by
  have hkeeps : ((fun x : Req => x.mbx == m && x.seq == seq) ∘ fun x => if x.mbx = r.mbx ∧ x.seq = r.seq then { x with decided := true } else x) = fun x => x.mbx == m && x.seq == seq := by
    funext x
    dsimp only [Function.comp]
    split <;> rfl
  refine ⟨{ r with decided := true }, ?_, rfl⟩
  unfold Dev.req? at hreq ⊢
  unfold Dev.decide'
  rw [List.find?_map, hkeeps, hreq]
  simp

theorem configSet_sets {s : State} {t m seq : Nat} {r : Req} {w : SetRow} (hr : ready s t m seq 0x0603 r = true) (hk : s.dev.configSetCheck (s.now t) m r = none)
    (hw : setRow (r.fld 0 0 16) = some w) :
    let code := r.fld 0 0 16
    let index := r.fld 4 0 16
    let old := s.dev.setOld code index
    let new := s.dev.setNew code index (r.w64 8) (r.w64 16)
    Answers (.configSet t m seq) s fun s' =>
      (new = old → served s.dev s'.dev r .ok 0 [] ∧ s'.dev.stew.settings = s.dev.stew.settings) ∧
      (new ≠ old → w.atOnce = true → code ≠ 0x0001 → ∀ g, s.dev.setReg code index = some g →
        s'.dev.rd g = BitVec.ofNat 64 new ∧ served s.dev s'.dev r .ok 0 []) ∧
      (new ≠ old → w.atOnce = false → code ≠ 0x0010 →
        s'.dev.stew.settings = s.dev.stew.settings ++ [⟨code, index, r.w64 8, r.w64 16, m, seq⟩] ∧ s'.dev.regs = s.dev.regs ∧ s'.dev.mem = s.dev.mem ∧ awaits s'.dev m seq) := by
  intro code index old new
  refine Dev.configSet_answers hr hk hw fun hreq => ⟨fun h => ?_, fun h ho hc g hg => ?_, fun h ho hc => ?_⟩
  · dsimp only
    rw [Dev.setConfig_same h]
    exact ⟨Dev.finish_served rfl .., (Dev.finish_ringOnly _ _ _ _ _ (by simp)).settings⟩
  · obtain ⟨-, hcpl, hstat⟩ := Dev.setReg_name hg
    dsimp only
    rw [Dev.setConfig_atOnce h ho hc hg]
    have hrd : (s.dev.wn g new).rd g = BitVec.ofNat 64 new := Dev.rd_wr ..
    have hcpls : (s.dev.wn g new).stew.cpls = s.dev.stew.cpls := rfl
    generalize s.dev.wn g new = e at hrd hcpls ⊢
    exact ⟨(Dev.finish_rd hcpl hstat).trans hrd, Dev.finish_served hcpls ..⟩
  · dsimp only
    rw [Dev.setConfig_later h hw ho hc]
    have hawaits := Dev.decide'_awaits hreq
    have hset : (s.dev.decide' r).stew.settings = s.dev.stew.settings := rfl
    have hregs := Dev.decide'_regs s.dev r
    have hmem := Dev.decide'_mem s.dev r
    generalize s.dev.decide' r = e at hawaits hset hregs hmem ⊢
    exact ⟨congrArg (· ++ _) hset, hregs, hmem, awaits_of_inflight (d := e) rfl hawaits⟩

/-- Settles O40: a clause each for CLAIM, RELEASE, CUE_SET, CAPTURE_SET and CONFIG_SET. -/
theorem configuringCommands : Obligations.ConfiguringCommands := by
  unfold Obligations.ConfiguringCommands
  exact ⟨fun _ _ _ _ _ => claim_claims, fun _ _ _ _ _ => release_releases, fun _ _ _ _ _ => cueSet_sets, fun _ _ _ _ _ => captureSet_sets, fun _ _ _ _ _ _ => configSet_sets⟩

end Sys2Proof.Machine

/-! ## O19: crossings between clock domains -/

namespace Sys2Proof.Machine

/-- A bit that is set in a field reads 1. -/
theorem Dev.testBit_setBit (d : Dev) (r : Reg) {x : Fld} {i : Nat} (hx : x.ok) (hi : i < x.w) : ((d.setBit r x i).f r x).testBit i = true := by
  unfold Dev.setBit
  rw [Dev.f_sf d r _ hx, Nat.testBit_mod_two_pow, Nat.testBit_or, Nat.testBit_two_pow_self]
  simp [hi]

/-- A number without one of its bits does not have it. -/
theorem testBit_sub_and_two_pow (n i : Nat) : (n - (n &&& 2 ^ i)).testBit i = false := by
  rw [Nat.and_two_pow]
  cases h : n.testBit i with
  | false => simpa using h
  | true =>
    have hsplit : n = 2 ^ i + (n - 2 ^ i) := (Nat.add_sub_of_le (Nat.ge_two_pow_of_testBit h)).symm
    rw [hsplit, Nat.testBit_two_pow_add_eq] at h
    simpa using h

/-- A bit that is cleared in a field reads 0. -/
theorem Dev.testBit_clrBit (d : Dev) (r : Reg) {x : Fld} (i : Nat) (hx : x.ok) : ((d.clrBit r x i).f r x).testBit i = false := by
  unfold Dev.clrBit
  rw [Dev.f_sf d r _ hx, Nat.testBit_mod_two_pow, testBit_sub_and_two_pow, Bool.and_false]

/-- The bits of CDC_STATUS reach over every queue and every double-sample crossing of a block (R64, R65). -/
theorem cdcQueues_le (block : Nat) : cdcQueues block ≤ 8 := by unfold cdcQueues; split <;> omega
theorem cdcSamples_le (block : Nat) : cdcSamples block ≤ 8 := by unfold cdcSamples; split <;> omega

theorem queueEnterElastic_flags {s : State} {t block q : Nat} (hq : q < cdcQueues block) :
    Answers (.queueEnterElastic t block q) s fun s' => s'.dev.elastic block q = true ∧
      (s'.dev.f (r1 .cdcStatus block) F.cdcStatus.WAS_ELASTIC).testBit q = true ∧ (∀ r, r ≠ r1 .cdcStatus block → s'.dev.rd r = s.dev.rd r) ∧
      s' = { s with dt := s.now t, dev := { s.dev with regs := s'.dev.regs } } := by
  have hexec : exec (.queueEnterElastic t block q) s =
      .next { s with dt := s.now t, dev := (s.dev.setBit (r1 .cdcStatus block) F.cdcStatus.ELASTIC q).setBit (r1 .cdcStatus block) F.cdcStatus.WAS_ELASTIC q } := by
    show execQueueEnterElastic t block q s = _
    unfold execQueueEnterElastic
    rw [State.run_eq, if_pos hq]
  have h8 : q < 8 := hq.trans_le (cdcQueues_le block)
  refine ⟨_, hexec, ?_, Dev.testBit_setBit _ _ (by unfold Fld.ok; decide) h8, fun r hr => (Dev.rd_sf_ne hr).trans (Dev.rd_sf_ne hr), rfl⟩
  refine (congrArg (Nat.testBit · q) (Dev.f_sf_ne _ (by unfold Fld.ok; decide) (by decide))).trans ?_
  exact Dev.testBit_setBit _ _ (by unfold Fld.ok; decide) h8

theorem queueReturnFixed_clears {s : State} {t block q : Nat} (hq : q < cdcQueues block) :
    Answers (.queueReturnFixed t block q) s fun s' => s'.dev.elastic block q = false ∧
      s'.dev.f (r1 .cdcStatus block) F.cdcStatus.WAS_ELASTIC = s.dev.f (r1 .cdcStatus block) F.cdcStatus.WAS_ELASTIC ∧ (∀ r, r ≠ r1 .cdcStatus block → s'.dev.rd r = s.dev.rd r) ∧
      s' = { s with dt := s.now t, dev := { s.dev with regs := s'.dev.regs } } := by
  have hexec : exec (.queueReturnFixed t block q) s = .next { s with dt := s.now t, dev := s.dev.clrBit (r1 .cdcStatus block) F.cdcStatus.ELASTIC q } := by
    show execQueueReturnFixed t block q s = _
    unfold execQueueReturnFixed
    rw [State.run_eq, if_pos hq]
  exact ⟨_, hexec, Dev.testBit_clrBit _ _ _ (by unfold Fld.ok; decide), Dev.f_sf_ne _ (by unfold Fld.ok; decide) (by decide), fun r hr => Dev.rd_sf_ne hr, rfl⟩

theorem crossingStale_flags {s : State} {t block n : Nat} (hn : n < cdcSamples block) :
    Answers (.crossingStale t block n) s fun s' => (s'.dev.f (r1 .cdcStatus block) F.cdcStatus.STALE).testBit n = true ∧ (∀ r, r ≠ r1 .cdcStatus block → s'.dev.rd r = s.dev.rd r) ∧
      s' = { s with dt := s.now t, dev := { s.dev with regs := s'.dev.regs } } := by
  have hexec : exec (.crossingStale t block n) s = .next { s with dt := s.now t, dev := s.dev.setBit (r1 .cdcStatus block) F.cdcStatus.STALE n } := by
    show execCrossingStale t block n s = _
    unfold execCrossingStale
    rw [State.run_eq, if_pos hn]
  exact ⟨_, hexec, Dev.testBit_setBit _ _ (by unfold Fld.ok; decide) (hn.trans_le (cdcSamples_le block)), fun r hr => Dev.rd_sf_ne hr, rfl⟩

/-- Settles O19: a clause each for a queue's entry into its elastic state, its return and a stale double sample. -/
theorem crossingFlags : Obligations.CrossingFlags := by
  unfold Obligations.CrossingFlags
  exact ⟨fun _ _ _ _ => queueEnterElastic_flags, fun _ _ _ _ => queueReturnFixed_clears, fun _ _ _ _ => crossingStale_flags⟩

end Sys2Proof.Machine

/-! ## O42: how a retraining window closes -/

namespace Sys2Proof.Machine

/-- The registers that tell the far store's rate and a window's end. -/
def RegName.isWindow (x : RegName) : Bool := x == .cpcMode || x == .cpcWindowEnd

/-- What comes after a window's close keeps: whether a window is open, and the registers that tell how the last one closed. -/
structure KeepsWindow (d d' : Dev) : Prop where
  windowFrom : d'.pbu.windowFrom = d.pbu.windowFrom
  regs : KeepsRegs RegName.isWindow d d'

namespace KeepsWindow

variable {d d' d'' : Dev}

theorem refl (d : Dev) : KeepsWindow d d := ⟨rfl, .refl _ d⟩

theorem trans (a : KeepsWindow d d') (b : KeepsWindow d' d'') : KeepsWindow d d'' := ⟨b.windowFrom.trans a.windowFrom, a.regs.trans b.regs⟩

theorem of_regs (hp : d'.pbu.windowFrom = d.pbu.windowFrom) (hr : d'.regs = d.regs) : KeepsWindow d d' := ⟨hp, .of_regs hr⟩

theorem sf {r : Reg} (x : Fld) (n : Nat) (h : r.name.isWindow = false) : KeepsWindow d (d.sf r x n) := ⟨rfl, .sf x n h⟩

theorem foldl {α : Type} {f : Dev → α → Dev} (h : ∀ d a, KeepsWindow d (f d a)) (l : List α) (d : Dev) : KeepsWindow d (l.foldl f d) :=
  List.foldlRecOn l f (motive := KeepsWindow d) (refl d) fun _ hd a _ => hd.trans (h _ a)

theorem raise (x : Nat) : KeepsWindow d (d.raise x) := of_regs (by simp) (by simp)
theorem almMc (kind sev now : Nat) (b : List Nat) : KeepsWindow d (d.almMc kind sev now b) := of_regs (by simp) (by simp)

theorem finishAt (now : Nat) (ms : Nat × Nat) (st : Status) (de : Nat) (b : List Byte) : KeepsWindow d (d.finishAt now ms st de b) := by
  refine ⟨by simp, ⟨fun r hr => Dev.finishAt_rd ?_ ?_⟩⟩ <;> rintro h <;> simp [h, RegName.isWindow] at hr

/-! ### Parked descriptors -/

theorem syncEngine (n : Nat) : KeepsWindow d (d.syncEngine n) := by
  unfold Dev.syncEngine
  extract_lets r
  have hr : r.name.isWindow = false := rfl
  exact ((sf _ _ hr).trans (sf _ _ hr)).trans (sf _ _ hr)

theorem resumeParked (now n : Nat) : KeepsWindow d (d.resumeParked now n) := by
  unfold Dev.resumeParked
  split
  · exact refl d
  · split
    · refine .trans ?_ (syncEngine n)
      exact of_regs rfl rfl
    · exact refl d

/-! ### The accesses that the window held -/

theorem incSat {r : Reg} (x : Fld) (h : r.name.isWindow = false) : KeepsWindow d (d.incSat r x) := sf x _ h

theorem violate (now c a : Nat) (x : Acc) : KeepsWindow d (d.violate now c a x) := by
  unfold Dev.violate
  extract_lets r d1 e e' mc d2
  have hflags : KeepsWindow d d1 := (((sf _ _ rfl).trans (sf _ _ rfl)).trans (incSat _ rfl)).trans (sf _ _ rfl)
  have hmc : KeepsWindow d d2 := hflags.trans (of_regs rfl rfl)
  split
  · exact hmc.trans (almMc ..)
  · exact hmc

theorem faulted (latch : Bool) (now c a n : Nat) (x : Acc) : KeepsWindow d (d.faulted latch now c a n x) := by
  unfold Dev.faulted
  split
  · exact of_regs rfl rfl
  · exact violate ..

theorem memWrite (a : Nat) (bs : List Byte) : KeepsWindow d (d.memWrite a bs) := by
  unfold Dev.memWrite
  split
  · exact of_regs rfl rfl
  · exact of_regs rfl rfl
  · refine foldl (fun d p => ?_) _ d
    split
    · exact of_regs rfl rfl
    · exact refl d
  · exact refl d

theorem eccUncorrectable (now tier a : Nat) : KeepsWindow d (d.eccUncorrectable now tier a) := by
  unfold Dev.eccUncorrectable
  split
  · exact ((((incSat _ rfl).trans (sf _ _ rfl)).trans (sf _ _ rfl)).trans (raise 224)).trans (almMc ..)
  · exact ((sf _ _ rfl).trans (raise 225)).trans (almMc ..)

theorem eccLoad (now a ecc : Nat) : KeepsWindow d (d.eccLoad now a ecc) := by
  unfold Dev.eccLoad
  split
  · exact refl d
  · split
    · split
      · split
        · exact incSat _ rfl
        · exact incSat _ rfl
      · exact (eccUncorrectable now (storeTier a) (a / 64 * 64)).trans (of_regs rfl rfl)
    · exact refl d

theorem memEffect (latch : Bool) (now c a n : Nat) (x : Acc) (bs : List Byte) (ecc : Nat) : KeepsWindow d (d.memEffect latch now c a n x bs ecc) := by
  unfold Dev.memEffect
  split
  · refine .trans ?_ (eccLoad ..)
    split
    · exact (memWrite a bs).trans (of_regs rfl rfl)
    · exact of_regs rfl rfl
  · exact faulted ..

theorem accessAnswer (now : Nat) (allowed : Bool) (n : Nat) : KeepsWindow d (d.accessAnswer now allowed n) := by
  unfold Dev.accessAnswer
  split <;> exact of_regs rfl rfl

theorem answered (now c n : Nat) : KeepsWindow d (d.answered now c n) := by
  unfold Dev.answered
  split
  · exact accessAnswer ..
  · exact refl d

theorem cnlPump (now p : Nat) : KeepsWindow d (d.cnlPump now p) := by
  unfold Dev.cnlPump
  split
  · exact refl d
  · exact of_regs rfl rfl

theorem memAnswer (now src tag : Nat) (ok : Bool) (bs : List Byte) : KeepsWindow d (d.memAnswer now src tag ok bs) := by
  unfold Dev.memAnswer Dev.cnlSend Dev.cnlOn
  split
  · refine .trans ?_ (cnlPump now _)
    exact of_regs rfl rfl
  · exact refl d

theorem farServe (latch : Bool) (now : Nat) (x : FarAccess) : KeepsWindow d (d.farServe latch now x) := by
  unfold Dev.farServe
  split
  · exact (memEffect ..).trans (answered ..)
  · split
    · split
      · exact (memWrite ..).trans (memAnswer ..)
      · exact memAnswer ..
    · exact ((faulted ..).trans (memAnswer ..)).trans (of_regs rfl rfl)

theorem farServeAll (latch : Bool) (now : Nat) : KeepsWindow d (d.farServeAll latch now) := by
  unfold Dev.farServeAll
  split
  · exact refl d
  · refine .trans ?_ (foldl (f := fun d x => d.farServe latch now x) (fun _ x => farServe latch now x) _ _)
    exact of_regs rfl rfl

end KeepsWindow

/-- A retraining window has closed: with FAR_LOW or without it, at its end (R73, R75). -/
structure WindowClosed (d : Dev) (low : Bool) (end_ : Nat) : Prop where
  windowFrom : d.pbu.windowFrom = none
  farLow : d.fb (r0 .cpcMode) F.cpcMode.FAR_LOW = low
  windowEnd : d.rn (r0 .cpcWindowEnd) = end_

theorem WindowClosed.of_keeps {d d' : Dev} {low : Bool} {end_ : Nat} (h : WindowClosed d low end_) (k : KeepsWindow d d') : WindowClosed d' low end_ :=
  ⟨k.windowFrom.trans h.windowFrom, (Dev.fb_of_rd (k.regs.rd (r0 .cpcMode) rfl) _).trans h.farLow, (Dev.rn_of_rd (k.regs.rd (r0 .cpcWindowEnd) rfl)).trans h.windowEnd⟩

/-- CPC_MODE.STATE is written beside FAR_LOW and CPC_WINDOW_END. -/
theorem WindowClosed.syncCpc {d : Dev} {low : Bool} {end_ : Nat} (h : WindowClosed d low end_) : WindowClosed d.syncCpc low end_ :=
  ⟨h.windowFrom, (Dev.fb_sf_ne _ (by decide) (by decide)).trans h.farLow, (Dev.rn_of_rd (Dev.rd_sf_ne (by decide))).trans h.windowEnd⟩

/-- The registers as a close writes them, and no window open. -/
theorem WindowClosed.of_written {d : Dev} {p : PbuSt} {low : Bool} {end_ : Nat} (hp : p.windowFrom = none) (hlow : d.fb (r0 .cpcMode) F.cpcMode.FAR_LOW = low)
    (hend : d.rn (r0 .cpcWindowEnd) = end_) : WindowClosed ({ d with pbu := p } : Dev).syncCpc low end_ := by
  have hregs : ({ d with pbu := p } : Dev).regs = d.regs := rfl
  exact WindowClosed.syncCpc ⟨hp, (Dev.fb_of_rd (Dev.rd_of_regs hregs _) _).trans hlow, (Dev.rn_of_rd (Dev.rd_of_regs hregs _)).trans hend⟩

theorem Dev.closeWindow_closes (d : Dev) (now : Nat) {end_ : Nat} (low : Bool) (h : end_ < 2 ^ 64) : WindowClosed (d.closeWindow now end_ low) low end_ := by
  unfold Dev.closeWindow
  extract_lets d1 req pbu d2 d3 d4
  have hlow : d1.fb (r0 .cpcMode) F.cpcMode.FAR_LOW = low := (Dev.fb_of_rd (Dev.rd_wn_ne (by decide)) _).trans (Dev.fb_sf _ _ low (by decide) rfl)
  have hend : d1.rn (r0 .cpcWindowEnd) = end_ := Dev.rn_wn_of_lt h
  have hwritten : WindowClosed d2 low end_ := .of_written rfl hlow hend
  have hnoted : WindowClosed d3 low end_ := hwritten.of_keeps (by
    unfold d3
    split
    · exact (KeepsWindow.almMc ..).trans (.raise 2)
    · exact .refl d2)
  have hserved : WindowClosed d4 low end_ := by
    unfold d4
    clear_value req
    cases req with
    | none => exact hnoted
    | some ms => exact hnoted.of_keeps (.finishAt ..)
  exact hserved.of_keeps (.foldl (fun _ n => .resumeParked now n) _ d4)

/-- A window whose 2 ms are over closes at their end with FAR_LOW (R75). -/
theorem Dev.windowTimeout_closes {d : Dev} {now b : Nat} (hb : d.pbu.windowFrom = some b) (hdue : d.dueAfter b 2000000 ≤ now) (hnow : now ≤ dtMax) :
    WindowClosed (d.windowTimeout now) true (d.dueAfter b 2000000) := by
  unfold Dev.windowTimeout
  simp only [hb, if_pos hdue]
  exact d.closeWindow_closes now true (Nat.lt_of_le_of_lt (hdue.trans hnow) (by decide))

theorem retrainWindowTimeout_closes {s : State} {t b : Nat} (hdt : s.dt ≤ dtMax) (hb : s.dev.pbu.windowFrom = some b) (hdue : s.dev.dueAfter b 2000000 ≤ s.now t) :
    Answers (.retrainWindowTimeout t) s fun s' => s'.dev.pbu.windowFrom = none ∧ s'.dev.fb (r0 .cpcMode) F.cpcMode.FAR_LOW = true ∧
      s'.dev.rn (r0 .cpcWindowEnd) = s.dev.dueAfter b 2000000 := by
  obtain ⟨hwindow, hlow, hend⟩ := (Dev.windowTimeout_closes hb hdue (s.now_le t hdt)).of_keeps (.farServeAll s.latchClosed (s.now t))
  exact ⟨_, rfl, hwindow, hlow, hend⟩

/-- A training that completes inside the 2 ms closes the window there; one that completes later finds it closed by the time limit (R73, R75). -/
theorem Dev.windowTrained_closes {d : Dev} {now b : Nat} (vals : List Nat) (hb : d.pbu.windowFrom = some b) (hnow : now ≤ dtMax) :
    WindowClosed (d.windowTrained now b vals) (decide (d.dueAfter b 2000000 < now)) (min now (d.dueAfter b 2000000)) := by
  unfold Dev.windowTrained
  split
  · next hin =>
    rw [decide_eq_false (Nat.not_lt.mpr hin), Nat.min_eq_left hin]
    exact Dev.closeWindow_closes _ now false (Nat.lt_of_le_of_lt hnow (by decide))
  · next hlate =>
    have hlt := Nat.lt_of_not_le hlate
    rw [decide_eq_true hlt, Nat.min_eq_right hlt.le]
    exact Dev.windowTimeout_closes hb hlt.le hnow

theorem farStoreTraining_closes {s : State} {t b : Nat} (vals : List Nat) (hdt : s.dt ≤ dtMax) (hb : s.dev.pbu.windowFrom = some b) :
    Answers (.farStoreTraining t vals) s fun s' => s'.dev.pbu.windowFrom = none ∧
      (s.now t ≤ s.dev.dueAfter b 2000000 → s'.dev.fb (r0 .cpcMode) F.cpcMode.FAR_LOW = false ∧ s'.dev.rn (r0 .cpcWindowEnd) = s.now t) ∧
      (s.dev.dueAfter b 2000000 < s.now t → s'.dev.fb (r0 .cpcMode) F.cpcMode.FAR_LOW = true ∧ s'.dev.rn (r0 .cpcWindowEnd) = s.dev.dueAfter b 2000000) := by
  have hexec : exec (.farStoreTraining t vals) s = .next { s with dt := s.now t, dev := (s.dev.windowTrained (s.now t) b vals).farServeAll s.latchClosed (s.now t) } := by
    show execFarStoreTraining t vals s = _
    unfold execFarStoreTraining
    rw [State.run_eq]
    simp only [hb]
  obtain ⟨hwindow, hlow, hend⟩ := (Dev.windowTrained_closes vals hb (s.now_le t hdt)).of_keeps (.farServeAll s.latchClosed (s.now t))
  refine ⟨_, hexec, hwindow, fun hin => ?_, fun hlate => ?_⟩
  · exact ⟨hlow.trans (decide_eq_false (Nat.not_lt.mpr hin)), hend.trans (Nat.min_eq_left hin)⟩
  · exact ⟨hlow.trans (decide_eq_true hlate), hend.trans (Nat.min_eq_right hlate.le)⟩

/-- Settles O42: after its close nothing touches the window or its registers, by a frame over the accesses served and the descriptors resumed. -/
theorem retrainingWindowCloses : Obligations.RetrainingWindowCloses := by
  unfold Obligations.RetrainingWindowCloses
  exact ⟨fun _ _ _ => retrainWindowTimeout_closes, fun _ _ _ vals => farStoreTraining_closes vals⟩

end Sys2Proof.Machine

/-! ## O41: budgets, envelopes and profiles -/

namespace Sys2Proof.Machine

/-! ### Budgets written into the shadow bank -/

/-- The registers that the steward's writing of budgets leaves: all but the shadow bank and PBU_CTRL. -/
def RegName.isBeyondShadow (x : RegName) : Bool := x != .pbuClassShadow && x != .pbuCtrl

/-- What any writing of budgets keeps: the steward's requests, memory, and the other registers. -/
structure BudgetFrame (d d' : Dev) : Prop where
  stew : d'.stew = d.stew
  mem : d'.mem = d.mem
  regs : KeepsRegs RegName.isBeyondShadow d d'

namespace BudgetFrame

variable {d d' d'' : Dev}

theorem trans (a : BudgetFrame d d') (b : BudgetFrame d' d'') : BudgetFrame d d'' := ⟨b.stew.trans a.stew, b.mem.trans a.mem, a.regs.trans b.regs⟩

theorem with_pbu (d : Dev) (p : PbuSt) : BudgetFrame d { d with pbu := p } := ⟨rfl, rfl, .of_regs rfl⟩

theorem sf_ctrl (x : Fld) (n : Nat) : BudgetFrame d (d.sf (r0 .pbuCtrl) x n) := ⟨rfl, rfl, .sf x n rfl⟩

theorem quiet (h : BudgetFrame d d') : Quiet d d' :=
  ⟨h.mem, by rw [h.stew], ⟨fun r hr => h.regs.rd r (by unfold RegName.isMbxBase at hr; simp [beq_iff_eq.mp hr, RegName.isBeyondShadow])⟩⟩

end BudgetFrame

/-- What the writing of budgets and of the floors that wait keeps beside: the pending change; a swap that is asked for stays asked for (R90, R104). -/
structure ShadowFrame (d d' : Dev) : Prop extends BudgetFrame d d' where
  pend : d'.pbu.pend = d.pbu.pend
  swapSet : d'.pbu.swapSet = d.pbu.swapSet
  swap : d.pbu.swapSet = true → d.fb (r0 .pbuCtrl) F.pbuCtrl.SWAP = true → d'.fb (r0 .pbuCtrl) F.pbuCtrl.SWAP = true

namespace ShadowFrame

variable {d d' d'' : Dev}

theorem refl (d : Dev) : ShadowFrame d d := ⟨⟨rfl, rfl, .refl _ d⟩, rfl, rfl, fun _ h => h⟩

theorem trans (a : ShadowFrame d d') (b : ShadowFrame d' d'') : ShadowFrame d d'' :=
  ⟨a.toBudgetFrame.trans b.toBudgetFrame, b.pend.trans a.pend, b.swapSet.trans a.swapSet, fun h h' => b.swap (a.swapSet.trans h) (a.swap h h')⟩

theorem wn_shadow (c k n : Nat) : ShadowFrame d (d.wn (r2 .pbuClassShadow c k) n) :=
  ⟨⟨rfl, rfl, .wn n rfl⟩, rfl, rfl, fun _ h => (Dev.fb_of_rd (Dev.rd_wn_ne (Reg.ne_of_name (show RegName.pbuCtrl ≠ .pbuClassShadow by decide))) _).trans h⟩

theorem foldl {α : Type} {f : Dev → α → Dev} (h : ∀ d a, ShadowFrame d (f d a)) (l : List α) (d : Dev) : ShadowFrame d (l.foldl f d) :=
  List.foldlRecOn l f (motive := ShadowFrame d) (refl d) fun _ hd a _ => hd.trans (h _ a)

theorem reshadow (src : FloorSrc) (forced : Bool) (env profile len : Nat) : ShadowFrame d (d.reshadow src forced env profile len) := by
  unfold Dev.reshadow
  split
  · exact foldl (fun _ e => wn_shadow ..) _ d
  · exact refl d

theorem sf_swap {b : Bool} (h : d.pbu.swapSet = true → b = true) : ShadowFrame d (d.sf (r0 .pbuCtrl) F.pbuCtrl.SWAP (b2n b)) :=
  ⟨.sf_ctrl .., rfl, rfl, fun hs _ => (Dev.fb_sf _ _ b (by decide) rfl).trans (h hs)⟩

theorem shadowFloors : ShadowFrame d d.shadowFloors := by
  unfold Dev.shadowFloors
  split
  · split
    · exact refl d
    · exact reshadow ..
  · have hbank := reshadow (d := d) (.inForce true) true d.envelope d.profile d.periodLen
    exact hbank.trans (sf_swap fun hs => by simp [← hbank.swapSet, hs])

theorem watchFloors (now : Nat) : ShadowFrame d (d.watchFloors now) := by
  unfold Dev.watchFloors
  split
  · exact refl d
  · have hdue (l : List (Nat × Nat)) : ShadowFrame d { d with pbu := { d.pbu with floorDue := l } } := ⟨.with_pbu .., rfl, rfl, fun _ h => h⟩
    dsimp only
    split
    · exact hdue _
    · exact (hdue _).trans shadowFloors

end ShadowFrame

/-! ### BUDGET_SET -/

/-- The settings of a class as a BUDGET_SET gives them (R88, R360). -/
structure ClassSet (d : Dev) (r : Req) : Prop where
  prio : d.f (r1 .pbuClassCfg r.bsClass) F.pbuClassCfg.PRIO = r.fld 0 12 4
  group : d.group r.bsClass = r.bsGroup
  weight : d.f (r1 .pbuClassCfg r.bsClass) F.pbuClassCfg.WEIGHT = r.fld 0 16 16
  crit : d.crit r.bsClass = r.bsCrit

theorem ClassSet.of_rd {d d' : Dev} {r : Req} (h : ClassSet d r) (hr : d'.rd (r1 .pbuClassCfg r.bsClass) = d.rd (r1 .pbuClassCfg r.bsClass)) : ClassSet d' r :=
  ⟨(Dev.f_of_rd hr _).trans h.prio, (Dev.f_of_rd hr _).trans h.group, (Dev.f_of_rd hr _).trans h.weight, (Dev.fb_of_rd hr _).trans h.crit⟩

theorem Req.fld_lt (r : Req) (off lo w : Nat) : r.fld off lo w < 2 ^ w := Nat.mod_lt _ (Nat.two_pow_pos w)

/-- The fields of PBU_CLASSc_CFG that a BUDGET_SET writes, in the order it writes them. -/
def Dev.setClassCfg (d : Dev) (r : Req) : Dev :=
  let g := r1 .pbuClassCfg r.bsClass
  (((((d.sf g F.pbuClassCfg.PRIO (r.fld 0 12 4)).sf g F.pbuClassCfg.DONOR r.bsDonor).sf g F.pbuClassCfg.DONOR_EN (b2n r.bsDonorEn)).sf g F.pbuClassCfg.CRIT (b2n r.bsCrit)).sf g
    F.pbuClassCfg.GROUP r.bsGroup).sf g F.pbuClassCfg.WEIGHT (r.fld 0 16 16)

theorem Dev.setClassCfg_sets (d : Dev) (r : Req) : ClassSet (d.setClassCfg r) r := by
  unfold Dev.setClassCfg
  extract_lets g
  have hok : F.pbuClassCfg.WEIGHT.ok ∧ F.pbuClassCfg.GROUP.ok ∧ F.pbuClassCfg.CRIT.ok ∧ F.pbuClassCfg.DONOR_EN.ok ∧ F.pbuClassCfg.DONOR.ok ∧ F.pbuClassCfg.PRIO.ok := by
    unfold Fld.ok; decide
  obtain ⟨hweight, hgroup, hcrit, hen, hdonor, hprio⟩ := hok
  constructor
  · rw [Dev.f_sf_ne _ hweight (by decide), Dev.f_sf_ne _ hgroup (by decide), Dev.f_sf_ne _ hcrit (by decide), Dev.f_sf_ne _ hen (by decide), Dev.f_sf_ne _ hdonor (by decide),
      Dev.f_sf _ _ _ hprio]
    exact Nat.mod_eq_of_lt (r.fld_lt ..)
  · unfold Dev.group
    rw [Dev.f_sf_ne _ hweight (by decide), Dev.f_sf _ _ _ hgroup]
    exact Nat.mod_eq_of_lt (r.fld_lt ..)
  · rw [Dev.f_sf _ _ _ hweight]
    exact Nat.mod_eq_of_lt (r.fld_lt ..)
  · unfold Dev.crit
    rw [Dev.fb_sf_ne _ hweight (by decide), Dev.fb_sf_ne _ hgroup (by decide)]
    exact Dev.fb_sf _ _ _ hcrit rfl

theorem Dev.setClassCfg_quiet (d : Dev) (r : Req) : Quiet d (d.setClassCfg r) := by
  unfold Dev.setClassCfg
  extract_lets g
  have hg : g.name.isMbxBase = false := rfl
  exact (((((Quiet.sf _ _ hg).trans (.sf _ _ hg)).trans (.sf _ _ hg)).trans (.sf _ _ hg)).trans (.sf _ _ hg)).trans (.sf _ _ hg)

/-- A BUDGET_SET writes its class settings; its fixed and shadow budgets follow. -/
theorem Dev.setBudget_frame (d : Dev) (r : Req) : BudgetFrame (d.setClassCfg r) (d.setBudget r) :=
  .trans (.with_pbu ..) (ShadowFrame.foldl (f := fun (d : Dev) k => d.wn (r2 .pbuClassShadow r.bsClass (4 + k)) (r.bsBudget (4 + k))) (fun _ _ => .wn_shadow ..) (List.range 4) _).toBudgetFrame

/-- A swap is asked for (R90). -/
def Dev.askSwap (d : Dev) : Dev :=
  let e := d.sf (r0 .pbuCtrl) F.pbuCtrl.SWAP 1
  { e with pbu := { e.pbu with swapSet := true } }

theorem Dev.askSwap_frame (d : Dev) : BudgetFrame d d.askSwap := .trans (.sf_ctrl F.pbuCtrl.SWAP 1) (.with_pbu ..)

theorem Dev.askSwap_asks (d : Dev) : d.askSwap.fb (r0 .pbuCtrl) F.pbuCtrl.SWAP = true :=
  (Dev.fb_of_rd (Dev.rd_of_regs rfl _) _).trans (Dev.fb_sf d _ true (by decide) rfl)

/-- The parts of a BUDGET_SET up to its completion: settings, record, shadow bank, swap and floors (R88 to R90, R102 to R104). -/
def Dev.budgetWritten (d : Dev) (now : Nat) (r : Req) (cal : Tbl CalRec) : Dev :=
  let d1 := d.setBudget r
  let d2 : Dev := { d1 with pbu := { d1.pbu with cal := cal } }
  (d2.reshadow (.inForce false) false d.envelope d.profile d.periodLen).askSwap.watchFloors now

/-- What a BUDGET_SET has written before it completes or its calibration run begins: the class settings and the swap that is asked for, no memory, no
completion and no request. -/
structure BudgetWritten (old d : Dev) (r : Req) : Prop where
  cfg : ClassSet d r
  swap : d.fb (r0 .pbuCtrl) F.pbuCtrl.SWAP = true
  quiet : Quiet old d
  stew : d.stew = old.stew

theorem Dev.budgetWritten_writes (d : Dev) (now : Nat) (r : Req) (cal : Tbl CalRec) : BudgetWritten d (d.budgetWritten now r cal) r := by
  unfold Dev.budgetWritten
  extract_lets d1 p1 d2
  have hbank : BudgetFrame d1 (d2.reshadow (.inForce false) false d.envelope d.profile d.periodLen) := (BudgetFrame.with_pbu ..).trans (ShadowFrame.reshadow ..).toBudgetFrame
  generalize d2.reshadow (.inForce false) false d.envelope d.profile d.periodLen = e at hbank
  have hfloors : ShadowFrame e.askSwap (e.askSwap.watchFloors now) := .watchFloors now
  have hall : BudgetFrame (d.setClassCfg r) (e.askSwap.watchFloors now) := ((d.setBudget_frame r).trans hbank).trans (e.askSwap_frame.trans hfloors.toBudgetFrame)
  exact ⟨(d.setClassCfg_sets r).of_rd (hall.regs.rd (r1 .pbuClassCfg r.bsClass) rfl), hfloors.swap rfl e.askSwap_asks, (d.setClassCfg_quiet r).trans hall.quiet, hall.stew⟩

theorem Dev.setSquall_rd {d : Dev} {now v : Nat} {r : Reg} (h : r.name ≠ .pbuSquallCfg) : (d.setSquall now v).rd r = d.rd r :=
  (Dev.rd_of_regs (d := d.wn (r0 .pbuSquallCfg) v) rfl r).trans (Dev.rd_wn_ne (Reg.ne_of_name h))

/-- Whether a BUDGET_SET's record is accepted, and the records the steward keeps then (R103, R104). -/
def Dev.recAccepted (d : Dev) (r : Req) : Bool := d.budgetAccepted r.bsClass r.bsCrit (d.calBytes r)
def Dev.recsAfter (d : Dev) (r : Req) : Tbl CalRec :=
  if r.flag 1 then
    (if d.recAccepted r then tset (d.setBudget r).pbu.cal (r.bsClass * 4 + bits (bytesAt (d.calBytes r) 16 1) 2 2) (calRecOf (d.calBytes r))
     else tdel (d.setBudget r).pbu.cal (r.bsClass * 4 + d.envelope))
  else (d.setBudget r).pbu.cal

/-- The calibration run that a BUDGET_SET begins (R102). -/
def Dev.newCalRun (d : Dev) (m seq : Nat) (r : Req) : CalRun :=
  { mbx := m, seq := seq, cls := r.bsClass, object := r.bsCal, periodsLeft := r.bsPeriods, periods := r.bsPeriods, worst := [], squall := d.rn (r0 .pbuSquallCfg) }

/-- The effect of a BUDGET_SET from what it has written: its calibration run begins, or it completes. -/
def Dev.budgetEffect (d : Dev) (now m seq : Nat) (r : Req) : Dev :=
  let w := d.budgetWritten now r (d.recsAfter r)
  if r.flag 0 then
    ({ w.decide' r with pbu := { (w.decide' r).pbu with calRun := some (d.newCalRun m seq r) } } : Dev).setSquall now (2 ^ 31 + 100 * 2 ^ 24 + 100 * 2 ^ 16 + 100 * 2 ^ 8)
  else w.finish now r (if r.flag 1 && !d.recAccepted r then .calEnvelope else .ok) 0 []

section
variable {d : Dev} {now m seq : Nat} {r : Req}

theorem Dev.budgetEffect_rd {q : Reg} (h : q.name ≠ .pbuSquallCfg) (hc : q.name ≠ .mbxCpl) (hs : q.name ≠ .mbxStat) :
    (d.budgetEffect now m seq r).rd q = (d.budgetWritten now r (d.recsAfter r)).rd q := by
  unfold Dev.budgetEffect
  generalize d.budgetWritten now r (d.recsAfter r) = w
  dsimp only
  split
  · exact (Dev.setSquall_rd h).trans (Dev.rd_of_regs (d := w) rfl q)
  · exact Dev.finish_rd hc hs

theorem Dev.budgetEffect_cfg : ClassSet (d.budgetEffect now m seq r) r :=
  (d.budgetWritten_writes now r _).cfg.of_rd (Dev.budgetEffect_rd (by simp) (by simp) (by simp))

theorem Dev.budgetEffect_swap : (d.budgetEffect now m seq r).fb (r0 .pbuCtrl) F.pbuCtrl.SWAP = true :=
  (Dev.fb_of_rd (Dev.budgetEffect_rd (by simp) (by simp) (by simp)) _).trans (d.budgetWritten_writes now r _).swap

/-- Without a calibration run BUDGET_SET completes at once. -/
theorem Dev.budgetEffect_completes (h : r.flag 0 = false) : gone (d.budgetEffect now m seq r) r ∧ ringKept d (d.budgetEffect now m seq r) r.mbx := by
  unfold Dev.budgetEffect
  simp only [h, Bool.false_eq_true, if_false]
  obtain ⟨⟨hgone, -⟩, hring⟩ := (d.budgetWritten_writes now r (d.recsAfter r)).quiet.finish now r (if r.flag 1 && !d.recAccepted r then .calEnvelope else .ok) 0 (b := []) (Nat.zero_le _)
  exact ⟨hgone, hring⟩

/-- With one it waits for the run's end (R102). -/
theorem Dev.budgetEffect_awaits (h : r.flag 0 = true) (hreq : d.req? m seq = some r) :
    awaits (d.budgetEffect now m seq r) m seq ∧ (d.budgetEffect now m seq r).pbu.calRun = some (d.newCalRun m seq r) := by
  have hw := (d.budgetWritten_writes now r (d.recsAfter r)).stew
  unfold Dev.budgetEffect
  simp only [h, if_true]
  have hreq' : (d.budgetWritten now r (d.recsAfter r)).req? m seq = some r := by unfold Dev.req? at hreq ⊢; rwa [hw]
  exact ⟨awaits_of_inflight rfl (Dev.decide'_awaits hreq'), rfl⟩

end

theorem budgetSet_sets {s : State} {t m seq : Nat} {r : Req} (hr : ready s t m seq 0x0501 r = true) (hk : s.dev.budgetFail r = none) :
    Answers (.budgetSet t m seq) s fun s' =>
      let g := r1 .pbuClassCfg r.bsClass
      s'.dev.f g F.pbuClassCfg.PRIO = r.fld 0 12 4 ∧ s'.dev.group r.bsClass = r.bsGroup ∧ s'.dev.f g F.pbuClassCfg.WEIGHT = r.fld 0 16 16 ∧ s'.dev.crit r.bsClass = r.bsCrit ∧
      s'.dev.fb (r0 .pbuCtrl) F.pbuCtrl.SWAP = true ∧
      (r.flag 0 = false → gone s'.dev r ∧ ringKept s.dev s'.dev m) ∧
      (r.flag 0 = true → awaits s'.dev m seq ∧ ∃ x, s'.dev.pbu.calRun = some x ∧ x.cls = r.bsClass ∧ x.periodsLeft = r.bsPeriods ∧ x.mbx = m ∧ x.seq = seq) := by
  refine command_answers (f := fun now d => d.budgetSet now m seq) (form := fun _ => true) (effect := s.dev.budgetEffect (s.now t) m seq) rfl rfl hr rfl hk fun hm hs hreq => ?_
  have hc : ClassSet (s.dev.budgetEffect (s.now t) m seq r) r := Dev.budgetEffect_cfg
  refine ⟨hc.prio, hc.group, hc.weight, hc.crit, Dev.budgetEffect_swap, fun h => hm ▸ Dev.budgetEffect_completes h, fun h => ?_⟩
  obtain ⟨hawaits, hrun⟩ := Dev.budgetEffect_awaits (now := s.now t) h hreq
  exact ⟨hawaits, _, hrun, rfl, rfl, rfl, rfl⟩

/-! ### MODE_SET, PROFILE_SET and the forced step -/

/-- The completion of one request leaves another in flight. -/
theorem Dev.finishAt_awaits {d : Dev} {now de m seq : Nat} {ms : Nat × Nat} {st : Status} {b : List Byte} (h : ms ≠ (m, seq)) (ha : awaits d m seq) : awaits (d.finishAt now ms st de b) m seq := by
  unfold Dev.finishAt
  split
  · next r hr =>
    have hms := List.find?_some (p := fun x : Req => x.mbx == ms.1 && x.seq == ms.2) hr
    simp only [Bool.and_eq_true, beq_iff_eq] at hms
    obtain ⟨hm, hs⟩ := hms
    obtain ⟨x, hx, hdecided⟩ := ha
    refine ⟨x, ?_, hdecided⟩
    unfold Dev.req? Dev.finish at *
    rw [(Dev.flushNotices_notices _ now r.mbx 64).inflight, Dev.syncInflight_stew, Dev.cplEntry_inflight, List.find?_filter, ← hx]
    refine congrArg (List.find? · d.stew.inflight) (funext fun y => ?_)
    cases hy : y.mbx == m && y.seq == seq with
    | false => simp
    | true =>
      simp only [Bool.and_eq_true, beq_iff_eq] at hy
      have hne : ¬(m = ms.1 ∧ seq = ms.2) := fun e => h (Prod.ext e.1.symm e.2.symm)
      simpa [hy, hm, hs] using not_and_or.mp hne
  · exact ha

/-- A change is the pending one: CPC_MODE shows it beside what is in force, and every request waits on but the one of the change it replaces (R78). -/
structure Pending (d e : Dev) (p : PendMode) : Prop where
  pend : e.pbu.pend = some p
  pendEnvelope : e.f (r0 .cpcMode) F.cpcMode.PEND_ENVELOPE = p.envelope % 4
  pendProfile : e.f (r0 .cpcMode) F.cpcMode.PEND_PROFILE = p.profile % 4
  envelope : e.envelope = d.envelope
  profile : e.profile = d.profile
  awaits : ∀ m seq, d.pbu.pend.bind PendMode.req ≠ some (m, seq) → awaits d m seq → awaits e m seq

namespace Pending

variable {d e e' : Dev} {p : PendMode}

theorem of_rd (h : Pending d e p) (hp : e'.pbu.pend = e.pbu.pend) (hr : e'.rd (r0 .cpcMode) = e.rd (r0 .cpcMode)) (hs : e'.stew.inflight = e.stew.inflight) : Pending d e' p :=
  ⟨hp.trans h.pend, (Dev.f_of_rd hr _).trans h.pendEnvelope, (Dev.f_of_rd hr _).trans h.pendProfile, (Dev.f_of_rd hr _).trans h.envelope, (Dev.f_of_rd hr _).trans h.profile,
    fun m seq hne ha => awaits_of_inflight hs (h.awaits m seq hne ha)⟩

theorem of_frame (h : Pending d e p) (k : BudgetFrame e e') (hp : e'.pbu.pend = e.pbu.pend) : Pending d e' p := h.of_rd hp (k.regs.rd (r0 .cpcMode) rfl) (by rw [k.stew])

/-- CPC_MODE as a change that becomes the pending one writes it. -/
theorem of_written {p' : PbuSt} (hp : p'.pend = some p) (henv : e.envelope = d.envelope) (hprof : e.profile = d.profile)
    (ha : ∀ m seq, d.pbu.pend.bind PendMode.req ≠ some (m, seq) → Machine.awaits d m seq → Machine.awaits e m seq) :
    Pending d ((({ e with pbu := p' } : Dev).sf (r0 .cpcMode) F.cpcMode.PEND_ENVELOPE p.envelope).sf (r0 .cpcMode) F.cpcMode.PEND_PROFILE p.profile).syncCpc p := by
  have hok : F.cpcMode.STATE.ok ∧ F.cpcMode.PEND_PROFILE.ok ∧ F.cpcMode.PEND_ENVELOPE.ok := by unfold Fld.ok; decide
  obtain ⟨hstate, hpp, hpe⟩ := hok
  have hregs : ({ e with pbu := p' } : Dev).rd (r0 .cpcMode) = e.rd (r0 .cpcMode) := Dev.rd_of_regs rfl _
  unfold Dev.syncCpc
  refine ⟨hp, ?_, ?_, ?_, ?_, ha⟩
  · rw [Dev.f_sf_ne _ hstate (by decide), Dev.f_sf_ne _ hpp (by decide), Dev.f_sf _ _ _ hpe]; rfl
  · rw [Dev.f_sf_ne _ hstate (by decide), Dev.f_sf _ _ _ hpp]; rfl
  · unfold Dev.envelope at *
    rw [Dev.f_sf_ne _ hstate (by decide), Dev.f_sf_ne _ hpp (by decide), Dev.f_sf_ne _ hpe (by decide), ← henv]
    exact Dev.f_of_rd hregs _
  · unfold Dev.profile at *
    rw [Dev.f_sf_ne _ hstate (by decide), Dev.f_sf_ne _ hpp (by decide), Dev.f_sf_ne _ hpe (by decide), ← hprof]
    exact Dev.f_of_rd hregs _

end Pending

theorem Dev.setPend_pending (d : Dev) (now : Nat) (p : PendMode) (by_ : Nat) : Pending d (d.setPend now p by_) p := by
  have hfinish (ms : Nat × Nat) : (d.finishAt now ms .superseded by_ []).rd (r0 .cpcMode) = d.rd (r0 .cpcMode) := Dev.finishAt_rd (by simp) (by simp)
  unfold Dev.setPend
  extract_lets d1 r q d2 d3
  have hwritten : Pending d d3 p := by
    unfold d3 d2 q d1
    cases hms : d.pbu.pend.bind PendMode.req with
    | none => exact .of_written rfl rfl rfl fun _ _ _ ha => ha
    | some ms => exact .of_written rfl (Dev.f_of_rd (hfinish ms) _) (Dev.f_of_rd (hfinish ms) _) fun m seq hne ha => Dev.finishAt_awaits (fun h => hne (by rw [hms, h])) ha
  split
  · exact hwritten
  · have hfloors : ShadowFrame (d3.sf (r0 .pbuCtrl) F.pbuCtrl.SWAP 0) (d3.sf (r0 .pbuCtrl) F.pbuCtrl.SWAP 0).shadowFloors := .shadowFloors
    exact (hwritten.of_frame (.sf_ctrl ..) rfl).of_frame hfloors.toBudgetFrame hfloors.pend

/-- The change that a command makes the pending one is not replaced by its own request: the command waits for it. -/
theorem Dev.setPend_decided_awaits {d : Dev} {now m seq by_ : Nat} {r : Req} {p : PendMode} (hreq : d.req? m seq = some r) (hne : d.pbu.pend.bind PendMode.req ≠ some (m, seq)) :
    awaits ((d.decide' r).setPend now p by_) m seq :=
  (Dev.setPend_pending (d.decide' r) now p by_).awaits m seq hne (Dev.decide'_awaits hreq)

theorem modeSet_pends {s : State} {t m seq : Nat} {r : Req} (hr : ready s t m seq 0x0502 r = true) (hk : s.dev.modeSetCheck (s.now t) r = none)
    (hne : s.dev.pbu.pend.bind PendMode.req ≠ some (m, seq)) :
    Answers (.modeSet t m seq) s fun s' => s'.dev.pbu.pend = some (r.modePend (s.now t)) ∧ awaits s'.dev m seq ∧ s'.dev.f (r0 .cpcMode) F.cpcMode.PEND_ENVELOPE = r.fld 0 0 2 ∧
      s'.dev.envelope = s.dev.envelope ∧ s'.dev.profile = s.dev.profile := by
  refine command_answers (f := fun now d => d.modeSet now m seq) (form := fun _ => true) rfl rfl hr rfl hk fun _ _ hreq => ?_
  have h := Dev.setPend_pending (s.dev.decide' r) (s.now t) (r.modePend (s.now t)) (overtaker m seq)
  exact ⟨h.pend, Dev.setPend_decided_awaits hreq hne, h.pendEnvelope.trans (Nat.mod_eq_of_lt (r.fld_lt 0 0 2)), h.envelope, h.profile⟩

theorem profileSet_pends {s : State} {t m seq : Nat} {r : Req} (hr : ready s t m seq 0x0503 r = true) (hk : s.dev.profileSetCheck r = none)
    (hne : s.dev.pbu.pend.bind PendMode.req ≠ some (m, seq)) :
    Answers (.profileSet t m seq) s fun s' => s'.dev.pbu.pend = some (s.dev.profilePend r (s.now t)) ∧ awaits s'.dev m seq ∧
      s'.dev.f (r0 .cpcMode) F.cpcMode.PEND_PROFILE = r.fld 0 0 2 ∧ s'.dev.envelope = s.dev.envelope ∧ s'.dev.profile = s.dev.profile := by
  refine command_answers (f := fun now d => d.profileSet now m seq) (form := fun _ => true) rfl rfl hr rfl hk fun _ _ hreq => ?_
  have h := Dev.setPend_pending (s.dev.decide' r) (s.now t) (s.dev.profilePend r (s.now t)) (overtaker m seq)
  exact ⟨h.pend, Dev.setPend_decided_awaits hreq hne, h.pendProfile.trans (Nat.mod_eq_of_lt (r.fld_lt 0 0 2)), h.envelope, h.profile⟩

/-- The change that a forced step makes the pending one (R79). -/
def Dev.forcedPend (d : Dev) (now : Nat) : PendMode :=
  { writtenAt := now, envelope := d.envelope - 1, profile := d.profile, forced := true, isMode := true, req := none, rpl := false, pbuLen := 0, loops := [], replan := 0, camStop := 0 }

theorem Dev.forceStep_pending {d : Dev} (now : Nat) (henv : d.envelope ≠ 0) (hon : d.on 156 = true) (hpend : ∀ p, d.pbu.pend = some p → p.forced = false) :
    Pending d (d.forceStep now) (d.forcedPend now) := by
  have hfirst : (d.pbu.pend.elim false fun p => p.forced) = false := by
    cases h : d.pbu.pend with
    | none => rfl
    | some p => exact hpend p h
  have hstep : d.forceStep now = (d.setPend now (d.forcedPend now) (2 ^ 23 + 1)).almMc 0x030 1 now [d.envelope, d.envelope - 1] := by
    unfold Dev.forceStep
    exact if_neg (by simp [henv, hon, hfirst])
  rw [hstep]
  exact (d.setPend_pending now (d.forcedPend now) (2 ^ 23 + 1)).of_rd (by simp) (Dev.rd_of_regs (by simp) _) (by simp)

theorem forcedStep_pends {s : State} {t : Nat} (hmc : s.dev.mc.running = true) (henv : s.dev.envelope ≠ 0) (hon : s.dev.on 156 = true)
    (hpend : ∀ p, s.dev.pbu.pend = some p → p.forced = false) :
    Answers (.forcedStep t) s fun s' => (∃ p, s'.dev.pbu.pend = some p ∧ p.forced = true ∧ p.envelope + 1 = s.dev.envelope ∧ p.profile = s.dev.profile ∧ p.req = none ∧ p.writtenAt = s.now t) ∧
      s'.dev.envelope = s.dev.envelope := by
  have hexec : exec (.forcedStep t) s = .next { s with dt := s.now t, dev := s.dev.forceStep (s.now t) } := by
    show execForcedStep t s = _
    unfold execForcedStep
    rw [State.run_eq, if_pos hmc]
  have h := Dev.forceStep_pending (s.now t) henv hon hpend
  exact ⟨_, hexec, ⟨_, h.pend, rfl, Nat.succ_pred_eq_of_ne_zero henv, rfl, rfl, rfl⟩, h.envelope⟩

/-! ### The power limit and the end of a calibration run -/

theorem powerLimitBroken_scales {s : State} {t overMs : Nat} {avg : F32} (hon : s.dev.on 156 = true) (hscaled : s.dev.fb (r0 .pbuStat) F.pbuStat.POWER_SCALED = false)
    (hover : f32Lt (powerLimit s.dev.envelope) avg = true ∨ (s.dev.envelope = 2 ∧ f32Lt (powerCap 2) avg = true ∧ 2000 < overMs)) :
    Answers (.powerLimitBroken t avg overMs) s fun s' => s'.dev.fb (r0 .pbuStat) F.pbuStat.POWER_SCALED = true ∧ s'.dev.eic.pend.contains 3 = true ∧
      (∀ g, g ≠ r0 .pbuStat → s'.dev.rd g = s.dev.rd g) ∧ s'.dev.mem = s.dev.mem := by
  have hexec : exec (.powerLimitBroken t avg overMs) s =
      .next { s with dt := s.now t, dev := ((s.dev.sf (r0 .pbuStat) F.pbuStat.POWER_SCALED 1).almMc 0x030 2 (s.now t) [avg.toNat]).raise 3 } := by
    show execPowerLimitBroken t avg overMs s = _
    unfold execPowerLimitBroken
    rw [State.run_eq]
    have hbroken : (f32Lt (powerLimit s.dev.envelope) avg || (s.dev.envelope == 2 && f32Lt (powerCap 2) avg && decide (2000 < overMs))) = true := by simpa [and_assoc] using hover
    simp only [hbroken, hon, hscaled, Bool.not_false, Bool.and_self, if_true]
  have hregs : (((s.dev.sf (r0 .pbuStat) F.pbuStat.POWER_SCALED 1).almMc 0x030 2 (s.now t) [avg.toNat]).raise 3).regs = (s.dev.sf (r0 .pbuStat) F.pbuStat.POWER_SCALED 1).regs := by simp
  refine ⟨_, hexec, ?_, ?_, fun g hg => (Dev.rd_of_regs hregs g).trans (Dev.rd_sf_ne hg), by simp⟩
  · exact (Dev.fb_of_rd (Dev.rd_of_regs hregs _) _).trans (Dev.fb_sf s.dev _ true (by decide) rfl)
  · exact Dev.raise_pend rfl (by simpa [Dev.on] using hon)

/-- No calibration run is under way, and the squall generator has its loads back (R102). -/
def Dev.leaveCalRun (d : Dev) (now : Nat) (x : CalRun) : Dev := ({ d with pbu := { d.pbu with calRun := none } } : Dev).setSquall now x.squall

theorem Dev.leaveCalRun_pbu (d : Dev) (now : Nat) (x : CalRun) : (d.leaveCalRun now x).pbu.calRun = none := rfl
theorem Dev.leaveCalRun_stew (d : Dev) (now : Nat) (x : CalRun) : (d.leaveCalRun now x).stew = d.stew := rfl
theorem Dev.leaveCalRun_squall (d : Dev) (now : Nat) (x : CalRun) : (d.leaveCalRun now x).rn (r0 .pbuSquallCfg) = x.squall % 2 ^ 64 :=
  (Dev.rn_of_rd (Dev.rd_of_regs rfl _)).trans (Dev.rn_wn ({ d with pbu := { d.pbu with calRun := none } } : Dev) _ _)

/-- The steward writes the run's record and completes its BUDGET_SET. -/
theorem execCalibrationRunDone_eq {s : State} {t : Nat} {x : CalRun} (hrun : s.dev.pbu.calRun = some x) (hleft : x.periodsLeft = 0) (hon : s.dev.stewardRuns = true) :
    ∃ d : Dev, d.stew = s.dev.stew ∧ exec (.calibrationRunDone t) s = .next { s with dt := s.now t, dev := (d.leaveCalRun (s.now t) x).finishAt (s.now t) (x.mbx, x.seq) .ok 0 [] } := by
  have hexec : exec (.calibrationRunDone t) s = execCalibrationRunDone t s := rfl
  unfold execCalibrationRunDone at hexec
  rw [State.run_eq] at hexec
  simp only [hrun, hleft, hon, and_self, if_true] at hexec
  refine ⟨_, ?_, hexec⟩
  split
  · exact Dev.locPut_stew ..
  · rfl

theorem calibrationRunDone_completes {s : State} {t : Nat} {x : CalRun} {r : Req} (hrun : s.dev.pbu.calRun = some x) (hleft : x.periodsLeft = 0) (hon : s.dev.stewardRuns = true)
    (hreq : s.dev.req? x.mbx x.seq = some r) :
    Answers (.calibrationRunDone t) s fun s' => s'.dev.pbu.calRun = none ∧ s'.dev.rn (r0 .pbuSquallCfg) = x.squall % 2 ^ 64 ∧ served s.dev s'.dev r .ok 0 [] := by
  obtain ⟨d, hstew, hexec⟩ := execCalibrationRunDone_eq (t := t) hrun hleft hon
  have hleave := (d.leaveCalRun_stew (s.now t) x).trans hstew
  have hpbu := d.leaveCalRun_pbu (s.now t) x
  have hsquall := d.leaveCalRun_squall (s.now t) x
  refine ⟨_, hexec, ?_⟩
  generalize d.leaveCalRun (s.now t) x = e at *
  exact ⟨by simpa using hpbu, (Dev.rn_of_rd (Dev.finishAt_rd (by simp) (by simp))).trans hsquall, Dev.finishAt_served hleave hreq ..⟩

/-- Settles O41: a clause each for BUDGET_SET, MODE_SET, PROFILE_SET, the forced step, the power limit and the end of a calibration run. -/
theorem budgetAndModeCommands : Obligations.BudgetAndModeCommands := by
  unfold Obligations.BudgetAndModeCommands
  exact ⟨fun _ _ _ _ _ => budgetSet_sets, fun _ _ _ _ _ => modeSet_pends, fun _ _ _ _ _ => profileSet_pends, fun _ _ => forcedStep_pends, fun _ _ _ _ => powerLimitBroken_scales,
    fun _ _ _ _ => calibrationRunDone_completes⟩

end Sys2Proof.Machine

/-! ## O35: a ready pair lets a staged bind complete -/

namespace Sys2Proof.Machine

/-! ### What the sluice's lists leave of the fabric -/

@[simp] theorem Dev.modObj_fab (d : Dev) (i : Nat) (f : Obj → Obj) : (d.modObj i f).fab = d.fab := by unfold Dev.modObj; split <;> rfl
@[simp] theorem Dev.addReq_fab (d : Dev) (r : SluReq) : (d.addReq r).2.fab = d.fab := rfl
@[simp] theorem Dev.addWait_fab (d : Dev) (w : Wait) : (d.addWait w).2.fab = d.fab := rfl
@[simp] theorem Dev.dropWait_fab (d : Dev) (o : WaitOwner) : (d.dropWait o).fab = d.fab := rfl
@[simp] theorem Dev.syncEngine_fab (d : Dev) (n : Nat) : (d.syncEngine n).fab = d.fab := rfl
@[simp] theorem Dev.queuePart_fab (d : Dev) (now r eng index : Nat) (x : Desc) (st : PartState) (area : Option (Loc × Nat)) : (d.queuePart now r eng index x st area).fab = d.fab := rfl

/-- Steps that each leave the fabric leave it together. -/
theorem foldl_fab {α : Type} {f : Dev → α → Dev} (h : ∀ d a, (f d a).fab = d.fab) (l : List α) (d : Dev) : (l.foldl f d).fab = d.fab :=
  List.foldlRecOn l f (motive := fun e => e.fab = d.fab) rfl fun _ he a _ => (h _ a).trans he

@[simp] theorem Dev.syncEngines_fab (d : Dev) : d.syncEngines.fab = d.fab := by
  unfold Dev.syncEngines
  exact foldl_fab syncEngine_fab (List.range 12) d
@[simp] theorem Dev.dropReq_fab (d : Dev) (r : Nat) : (d.dropReq r).fab = d.fab := by unfold Dev.dropReq; simp
@[simp] theorem Dev.cutReq_fab (d : Dev) (r : Nat) (st : Status) : (d.cutReq r st).fab = d.fab := by unfold Dev.cutReq; simp
@[simp] theorem Dev.openDeadline_fab (d : Dev) (r dl eng : Nat) : (d.openDeadline r dl eng).fab = d.fab := by unfold Dev.openDeadline; split <;> simp
@[simp] theorem Dev.finishPurpose_fab (d : Dev) (now : Nat) (p : Purpose) (st : Status) (de : Nat) : (d.finishPurpose now p st de).fab = d.fab := by
  unfold Dev.finishPurpose; split <;> simp
@[simp] theorem Dev.dropCopy_fab (d : Dev) (i t : Nat) : (d.dropCopy i t).fab = d.fab := by unfold Dev.dropCopy; simp

theorem Dev.startMove_fab {d : Dev} {now i cls ctx : Nat} {o : Obj} {src dst : Loc} {key : Key} {p : Purpose} {making : Option (Nat × Nat)} {x : Nat × Dev}
    (h : d.startMove now i o src dst cls ctx key p making = some x) : x.2.fab = d.fab := by
  unfold Dev.startMove at h
  split at h
  · cases h
  · cases h
    simp

theorem Dev.tryPromote_fab (d : Dev) (now i : Nat) (q : LockReq) : (d.tryPromote now i q).fab = d.fab := by
  unfold Dev.tryPromote
  split
  · simp
  · dsimp only
    split
    · simp
    · split
      · split
        · next h => exact Dev.startMove_fab h
        · simp
      · simp

theorem Dev.tryEvict_fab (d : Dev) (now i : Nat) (q : LockReq) : (d.tryEvict now i q).fab = d.fab := by
  unfold Dev.tryEvict
  split
  · simp
  · dsimp only
    split
    · simp
    · split
      · simp
      · split
        · split
          · split
            · split
              · next h => exact Dev.startMove_fab h
              · simp
            · simp
          · rfl
        · simp

@[simp] theorem Dev.serveLock_fab (d : Dev) (now i : Nat) (q : LockReq) : (d.serveLock now i q).fab = d.fab := by
  unfold Dev.serveLock
  split
  · exact tryPromote_fab ..
  · exact tryPromote_fab ..
  · exact tryEvict_fab ..
  · exact tryEvict_fab ..
  · split <;> simp

@[simp] theorem Dev.unlock_fab (d : Dev) (now i k : Nat) : (d.unlock now i k).fab = d.fab := by
  induction k generalizing d with
  | zero => exact modObj_fab ..
  | succ k ih =>
    unfold Dev.unlock
    dsimp only
    split
    · simp
    · split
      · simp
      · split
        · split
          · simp [ih]
          · simp
        · simp

@[simp] theorem Dev.unlockOf_fab (d : Dev) (now r : Nat) (m : Option (Nat × Nat)) : (d.unlockOf now r m).fab = d.fab := by
  unfold Dev.unlockOf
  split
  · split <;> simp
  · rfl

@[simp] theorem Dev.cancelMove_fab (d : Dev) (now r by_ : Nat) : (d.cancelMove now r by_).fab = d.fab := by
  unfold Dev.cancelMove
  split
  · rfl
  · dsimp only
    split <;> simp

@[simp] theorem Dev.turnAway_fab (d : Dev) (now : Nat) (q : LockReq) (st : Status) (de : Nat) : (d.turnAway now q st de).fab = d.fab := by
  unfold Dev.turnAway
  split <;> simp

@[simp] theorem Dev.requestLock_fab (d : Dev) (now i : Nat) (q : LockReq) : (d.requestLock now i q).fab = d.fab := by
  unfold Dev.requestLock
  split
  · exact turnAway_fab ..
  · extract_lets against holder hit foes later winner d1 d2
    have hfoes : d1.fab = d.fab := (foldl_fab (fun _ _ => turnAway_fab ..) _ _).trans (modObj_fab ..)
    have hcancel : d2.fab = d.fab := by
      unfold d2
      clear_value d1 hit holder
      cases holder with
      | none => exact hfoes
      | some x =>
        dsimp only
        split
        · exact (cancelMove_fab ..).trans hfoes
        · exact hfoes
    split
    · exact turnAway_fab ..
    · split
      · exact (turnAway_fab ..).trans hcancel
      · split
        · exact (serveLock_fab ..).trans hcancel
        · split
          · exact (modObj_fab ..).trans hcancel
          · exact (turnAway_fab ..).trans hcancel

@[simp] theorem Dev.addListPart_fab (d : Dev) (now r : Nat) (x : Desc) : (d.addListPart now r x).fab = d.fab := by
  unfold Dev.addListPart
  extract_lets q s area eng mine
  clear_value area eng q
  split
  · extract_lets d1 d2
    have hpart : d1.fab = d.fab := queuePart_fab ..
    have hdeadline : d2.fab = d.fab := by
      unfold d2
      clear_value d1
      split
      · exact (openDeadline_fab ..).trans hpart
      · exact hpart
    split
    · split
      · exact hdeadline
      · exact (requestLock_fab ..).trans hdeadline
    · exact hdeadline
  · exact cutReq_fab ..

@[simp] theorem Dev.queueDesc_fab (d : Dev) (now h li : Nat) (x : Desc) : (d.queueDesc now h li x).fab = d.fab := by
  unfold Dev.queueDesc
  extract_lets p d0 mk q0 whole s q
  have hdrawn : d0.fab = d.fab := draw_2_fab ..
  clear_value d0
  have hreq (y : SluReq) : (d0.addReq y).2.fab = d.fab := hdrawn
  have hwhole (i t : Nat) (o : Obj) (b : Bool) : (whole i t o b).fab = d.fab := by
    unfold whole
    split
    · exact hreq _
    · exact (addListPart_fab ..).trans (hreq _)
  split
  · exact hreq _
  · split
    · exact (addListPart_fab ..).trans hdrawn
    · split
      · split
        · exact hreq _
        · split
          · split
            · exact hdrawn
            · exact hreq _
          · exact hwhole ..
      · split
        · split
          · exact hwhole ..
          · exact (addListPart_fab ..).trans (hreq _)
        · exact (addListPart_fab ..).trans (hreq _)

@[simp] theorem Dev.listQueue_fab (d : Dev) (now h li : Nat) : (d.listQueue now h li).fab = d.fab := by
  unfold Dev.listQueue
  split
  · split
    · exact queueDesc_fab ..
    · rfl
  · rfl

@[simp] theorem Dev.listStart_fab (d : Dev) (now h li : Nat) : (d.listStart now h li).fab = d.fab := by
  unfold Dev.listStart
  split
  · rfl
  · dsimp only
    split
    · split
      · exact listQueue_fab ..
      · rfl
    · rfl

@[simp] theorem Dev.mainList_fab (d : Dev) (now r : Nat) : (d.mainList now r).fab = d.fab := by
  unfold Dev.mainList
  split
  · split
    · split
      · split
        · exact listStart_fab ..
        · rfl
      · rfl
    · rfl
  · rfl

@[simp] theorem Dev.listBegin_fab (d : Dev) (now h li : Nat) : (d.listBegin now h li).fab = d.fab := by
  unfold Dev.listBegin
  dsimp only
  split
  · split <;> simp
  · simp

/-- An invocation begins with its lists alone (R193). -/
@[simp] theorem Dev.beginInvocation_fab (d : Dev) (now h : Nat) : (d.beginInvocation now h).fab = d.fab := by
  unfold Dev.beginInvocation
  split
  · exact foldl_fab (fun d i => d.listBegin_fab now h i) _ d
  · rfl

/-! ### A bind comes into force -/

theorem Dev.setOwner_fab (d : Dev) (type index : Nat) (o : Option Owner) : (d.setOwner type index o).fab = d.fab := by
  unfold Dev.setOwner
  dsimp only
  split
  · rfl
  · split <;> rfl

/-- Steps that each leave the loaded cascades leave them together. -/
theorem foldl_cascades {α : Type} {f : Dev → α → Dev} (h : ∀ d a, (f d a).fab.cascades = d.fab.cascades) (l : List α) (d : Dev) : (l.foldl f d).fab.cascades = d.fab.cascades :=
  List.foldlRecOn l f (motive := fun e => e.fab.cascades = d.fab.cascades) rfl fun _ he a _ => (h _ a).trans he

theorem Dev.joinShares_cascades (d : Dev) (now c region : Nat) : (d.joinShares now c region).fab.cascades = d.fab.cascades := by
  unfold Dev.joinShares
  split
  · dsimp only
    split
    · split <;> rfl
    · rfl
  · rfl

theorem Dev.weirChoose_cascades (d : Dev) (now l : Nat) : (d.weirChoose now l).fab.cascades = d.fab.cascades := by
  unfold Dev.weirChoose
  extract_lets region cands e
  have hjoin : e.fab.cascades = d.fab.cascades := foldl_cascades (fun d c => d.joinShares_cascades now c region) _ d
  clear_value e
  split
  · exact hjoin
  · split
    · split
      · split
        · exact hjoin
        · exact hjoin
      · split
        · exact hjoin
        · exact hjoin
    · split
      · exact hjoin
      · exact hjoin

/-- A loaded cascade as the completion of its bind leaves it (R91). -/
def Cascade.inForce (c : Cascade) : Cascade := { c with bound := true, staged := false, binding := none, begun := false }

theorem Dev.cascade?_of_cascades {d d' : Dev} (h : d'.fab.cascades = d.fab.cascades) (k : Nat) : d'.cascade? k = d.cascade? k := by unfold Dev.cascade?; rw [h]

theorem Dev.cascade?_modCascade {d : Dev} {h : Nat} {f : Cascade → Cascade} {c : Cascade} (hc : d.cascade? h = some c) : (d.modCascade h f).cascade? h = some (f c) := by
  unfold Dev.cascade? Dev.modCascade at *
  dsimp only
  rw [tget_tmod, if_pos rfl, hc]
  rfl

theorem Dev.completeBind_cascade {d : Dev} {now h : Nat} {c : Cascade} (hc : d.cascade? h = some c) : (d.completeBind now h).cascade? h = some c.inForce := by
  unfold Dev.completeBind
  split
  · next hnone => exact absurd (hnone.symm.trans hc) nofun
  · next x hx =>
    cases hx.symm.trans hc
    extract_lets d1 r resident d2 e stew fab e1 d3
    have hbound : d1.cascade? h = some c.inForce := Dev.cascade?_modCascade hc
    have hstate : d2.fab.cascades = d1.fab.cascades := by
      unfold d2
      clear_value d1
      split <;> rfl
    have howned : e.fab.cascades = d2.fab.cascades := congrArg FabSt.cascades (foldl_fab (fun d n => d.setOwner_fab 0x09 n (some (.ctx c.ctx))) _ d2)
    have hbegun : d3.fab.cascades = d2.fab.cascades := by
      unfold d3
      clear_value d2 e
      split
      · exact (congrArg FabSt.cascades (Dev.beginInvocation_fab ..)).trans howned
      · rfl
    have hchosen := foldl_cascades (fun d l => d.weirChoose_cascades now l) c.ls d3
    exact (Dev.cascade?_of_cascades (hchosen.trans (hbegun.trans hstate)) h).trans hbound

/-! ### BASIN_PAIR_READY -/

/-- A bind of the only cascade that its pairs have waited for comes into force with its command (R67). -/
theorem Dev.bindsReady_single {d : Dev} {now h : Nat} {c : Cascade} {q : Nat × Nat} (hlist : d.fab.cascades = [(h, c)]) (hstaged : c.staged = true) (husable : d.usable now c = true)
    (hq : c.binding = some q) : d.bindsReady now = (d.completeBind now h).finishAt now q .ok 0 [] := by
  unfold Dev.bindsReady
  simp only [hlist, List.foldl_cons, List.foldl_nil, hstaged, husable, Bool.and_self, if_true, hq]

/-- Where no loaded cascade waits for its pairs nothing happens. -/
theorem Dev.bindsReady_unstaged {d : Dev} {now : Nat} (h : ∀ e ∈ d.fab.cascades, e.2.staged = true → d.usable now e.2 = false) : d.bindsReady now = d := by
  unfold Dev.bindsReady
  refine foldl_of_fixed fun e he => if_neg fun hready => ?_
  obtain ⟨hs, hu⟩ := (Bool.and_eq_true ..).mp hready
  exact Bool.noConfusion (hu.symm.trans (h e he hs))

theorem basinPairReady_binds {s : State} {t pd h : Nat} {c : Cascade} {q : Nat × Nat} (hpd : pd < 136) (hon : s.dev.on pd = true) (hat : tgetD s.dev.pow.pairs pd 0 ≤ s.now t)
    (hlist : s.dev.fab.cascades = [(h, c)]) (hstaged : c.staged = true) (husable : s.dev.usable (s.now t) c = true) (hq : c.binding = some q) :
    Answers (.basinPairReady t pd) s fun s' => ∃ d1 : Dev, s'.dev = d1.finishAt (s.now t) q .ok 0 [] ∧ ∃ c', d1.cascade? h = some c' ∧ c'.bound = true ∧ c'.staged = false := by
  have hexec : exec (.basinPairReady t pd) s = .next { s with dt := s.now t, dev := s.dev.bindsReady (s.now t) } := by
    show execBasinPairReady t pd s = _
    unfold execBasinPairReady
    rw [State.run_eq, if_pos ⟨hpd, hon, hat⟩]
  have hc : s.dev.cascade? h = some c := by unfold Dev.cascade?; rw [hlist]; simp [tget]
  exact ⟨_, hexec, _, Dev.bindsReady_single hlist hstaged husable hq, _, Dev.completeBind_cascade hc, rfl, rfl⟩

theorem basinPairReady_unstaged {s : State} (t pd : Nat) (h : ∀ e ∈ s.dev.fab.cascades, e.2.staged = false) : exec (.basinPairReady t pd) s = .next { s with dt := s.now t } := by
  show execBasinPairReady t pd s = _
  unfold execBasinPairReady
  rw [State.run_eq, Dev.bindsReady_unstaged fun e he hs => absurd (h e he) (by simp [hs]), ite_self]

/-- Settles O35: the bind comes into force by a frame over the lists it starts and the weirs' choices; without one that waits the step is the identity. -/
theorem pairReadyBinds : Obligations.PairReadyBinds := by
  unfold Obligations.PairReadyBinds
  exact ⟨fun _ _ _ _ _ _ => basinPairReady_binds, fun _ t pd => basinPairReady_unstaged t pd⟩

end Sys2Proof.Machine

/-! ## O48: cascades are loaded, bound, run and unloaded -/

namespace Sys2Proof.Machine

/-! ### CASCADE_LOAD -/

theorem Dev.takeCells_stew {d d' : Dev} {cs : List Cell} {ns : List Nat} (h : d.takeCells cs = some (ns, d')) : d'.stew = d.stew := by
  induction cs generalizing d ns with
  | nil => cases h; rfl
  | cons c rest ih =>
    unfold Dev.takeCells at h
    split at h
    · cases h
    · next n d1 hn =>
      obtain ⟨p, hp, hpair⟩ := Option.map_eq_some_iff.mp h
      cases hpair
      have hcell : d1.stew = d.stew := by
        unfold Dev.newCell at hn
        split at hn
        · cases hn; rfl
        · cases hn
      exact (ih hp).trans hcell

theorem Dev.takeArea_eq {d : Dev} {t n : Nat} {p : Nat × Dev} (h : d.takeArea t n = some p) : ∃ areas, p.2 = { d with slu := { d.slu with areas := areas } } := by
  unfold Dev.takeArea at h
  split at h
  · cases h; exact ⟨_, rfl⟩
  · cases h

theorem Dev.installBytes_stew {d d' : Dev} {bs : List Byte} {a : List (Nat × Nat)} (h : d.installBytes bs = some (a, d')) : d'.stew = d.stew := by
  unfold Dev.installBytes at h
  split at h
  · cases h; rfl
  · obtain ⟨p, hp, hpair⟩ := Option.map_eq_some_iff.mp h
    obtain ⟨areas, harea⟩ := Dev.takeArea_eq hp
    cases hpair
    rw [harea]

/-- An image is installed under a handle that was free, unbound and at rest (R121, R361). -/
theorem Dev.install_loads {d d' : Dev} {r : Req} {x : Img} {h : Nat} (hi : d.install r x = some (h, d')) :
    d.cascade? h = none ∧ d'.stew = d.stew ∧ ∃ c, d'.cascade? h = some c ∧ c.ctx = r.ctx ∧ c.bound = false ∧ c.armed = false ∧ c.run = none := by
  unfold Dev.install at hi
  split at hi
  · next i cells d1 hfree hcells =>
    dsimp only at hi
    split at hi
    · cases hi
    · next a d2 ha =>
      split at hi
      · cases hi
      · next b d3 hb =>
        obtain ⟨-, hnew, -⟩ := lowest_spec hfree
        cases hi
        refine ⟨?_, (Dev.installBytes_stew hb).trans ((Dev.installBytes_stew ha).trans (Dev.takeCells_stew hcells)), _, tget_tset .., rfl, rfl, rfl, rfl⟩
        unfold Dev.cascade?
        simpa [thas_eq] using hnew
  · cases hi

theorem cascadeLoad_loads {s : State} {t m seq : Nat} {r : Req} (hr : ready s t m seq 0x0201 r = true) (hk : s.dev.cascadeLoadCheck r = none) :
    Answers (.cascadeLoad t m seq) s fun s' => ∃ h c, s.dev.cascade? h = none ∧ s'.dev.cascade? h = some c ∧ c.ctx = r.ctx ∧ c.bound = false ∧ c.armed = false ∧ c.run = none ∧
      served s.dev s'.dev r .ok h [] := by
  refine command_answers (f := fun now d => d.cascadeLoad now m seq) (form := fun _ => true) rfl rfl hr rfl hk fun _ _ _ => ?_
  have hroom : ((s.dev.imgOf r).bind (s.dev.install r)).isSome = true := need_none (st := .busy) (n := 0).mp (firstFail_none.mp hk _ (by simp))
  obtain ⟨⟨h, d1⟩, hinst⟩ := Option.isSome_iff_exists.mp hroom
  obtain ⟨x, -, hx⟩ := Option.bind_eq_some_iff.mp hinst
  obtain ⟨hfree, hstew, c, hc, hctx, hbound, harmed, hrun⟩ := Dev.install_loads hx
  simp only [hinst]
  exact ⟨h, c, hfree, (Dev.cascade?_of_cascades (by simp) h).trans hc, hctx, hbound, harmed, hrun, Dev.finish_served (by rw [hstew]) ..⟩

/-! ### CASCADE_RUN -/

theorem Dev.beginInvocation_noLists {d : Dev} {now h : Nat} {c : Cascade} (hc : d.cascade? h = some c) (hl : c.openLists = []) : d.beginInvocation now h = d := by
  unfold Dev.beginInvocation
  simp only [hc, hl, List.foldl_nil]

theorem Dev.startRun_noLists {d : Dev} {now h iter : Nat} {ms : Nat × Nat} {c : Cascade} (hc : d.cascade? h = some c) (hl : c.openLists = []) (hiter : iter ≠ 0) :
    d.startRun now h iter ms =
      d.modCascade h fun c => { c with begun := true, run := some { mbx := ms.1, seq := ms.2, left := iter, done := 0, spilled := 0, stalled := 0 } } := by
  unfold Dev.startRun
  rw [if_neg hiter]
  exact Dev.beginInvocation_noLists (Dev.cascade?_modCascade hc) hl

/-- A run of ITER 0 arms the cascade and completes at once. -/
theorem Dev.startRun_arms {d : Dev} {now h : Nat} {r : Req} {c : Cascade} (hc : d.cascade? h = some c) :
    served d ((d.startRun now h 0 noCmd).finish now r .ok 0 []) r .ok 0 [] ∧
      ∃ c', ((d.startRun now h 0 noCmd).finish now r .ok 0 []).cascade? h = some c' ∧ c' = { c with armed := true, begun := true } := by
  have harmed : d.startRun now h 0 noCmd = d.modCascade h fun c => { c with armed := true, begun := true } := if_pos rfl
  rw [harmed]
  exact ⟨Dev.finish_served (congrArg StewSt.cpls (Dev.modCascade_stew ..)) .., _, (Dev.cascade?_of_cascades (congrArg FabSt.cascades (Dev.finish_fab ..)) _).trans (Dev.cascade?_modCascade hc), rfl⟩

section
variable {s : State} {t m seq : Nat} {r : Req} {c : Cascade}

/-- What a CASCADE_RUN of a cascade on this module alone leaves of the device: it is armed and the command complete, or a run begins and the
command waits for it (R362). -/
theorem cascadeRun_answers {P : State → Prop} (hr : ready s t m seq 0x0203 r = true) (hk : s.dev.cascadeRunCheck r = none) (hc : s.dev.cascade? (r.fld 0 0 16) = some c)
    (hsole : s.dev.coordinates c = false) (harm : r.w32 4 = 0 → P { s with dt := s.now t, dev := (s.dev.startRun (s.now t) (r.fld 0 0 16) 0 noCmd).finish (s.now t) r .ok 0 [] })
    (hrun : r.w32 4 ≠ 0 → ∀ d : Dev, s.dev.req? m seq = some r → d.fab = s.dev.fab → d.stew = (s.dev.decide' r).stew →
      P { s with dt := s.now t, dev := d.startRun (s.now t) (r.fld 0 0 16) (r.w32 4) (m, seq) }) : Answers (.cascadeRun t m seq) s P := by
  refine command_answers (f := fun now d => d.cascadeRun now m seq) (form := fun _ => true) rfl rfl hr rfl hk fun hm hs hreq => ?_
  simp only [hc, hsole, Bool.false_eq_true, if_false]
  by_cases hiter : r.w32 4 = 0
  · simp only [hiter, true_or, if_true]
    exact harm hiter
  · simp only [hiter, if_false, false_or, hm, hs]
    refine hrun hiter _ hreq ?_ ?_
    · split <;> simp
    · split <;> rfl

theorem cascadeRun_runs (hr : ready s t m seq 0x0203 r = true) (hk : s.dev.cascadeRunCheck r = none) (hc : s.dev.cascade? (r.fld 0 0 16) = some c) (hsole : s.dev.coordinates c = false) :
    Answers (.cascadeRun t m seq) s fun s' =>
      (r.w32 4 = 0 → served s.dev s'.dev r .ok 0 [] ∧ ∃ c', s'.dev.cascade? (r.fld 0 0 16) = some c' ∧ c' = { c with armed := true, begun := true }) ∧
      (r.w32 4 ≠ 0 → c.openLists = [] → awaits s'.dev m seq ∧ ∃ c' x, s'.dev.cascade? (r.fld 0 0 16) = some c' ∧ c'.run = some x ∧ x.mbx = m ∧ x.seq = seq ∧ x.left = r.w32 4 ∧ x.done = 0) := by
  refine cascadeRun_answers hr hk hc hsole (fun h0 => ⟨fun _ => ?_, fun h => absurd h0 h⟩) fun h d hreq hfab hstew => ⟨fun h0 => absurd h0 h, fun _ hlists => ?_⟩
  · dsimp only
    exact Dev.startRun_arms (now := s.now t) (r := r) hc
  · have hd : d.cascade? (r.fld 0 0 16) = some c := (Dev.cascade?_of_cascades (by rw [hfab]) _).trans hc
    rw [Dev.startRun_noLists hd hlists h]
    refine ⟨awaits_of_inflight (d := s.dev.decide' r) ?_ (Dev.decide'_awaits hreq), _, _, Dev.cascade?_modCascade hd, rfl, rfl, rfl, rfl, rfl⟩
    rw [Dev.modCascade_stew, hstew]

end

/-! ### CASCADE_UNLOAD -/

@[simp] theorem Dev.releaseIdle_fab (d : Dev) (now c i : Nat) (key : Key) : (d.releaseIdle now c i key).fab = d.fab := by
  refine foldl_fab (fun d t => ?_) (List.range 3) d
  split
  · split <;> simp
  · rfl

theorem Dev.dropT0Needs_fab (d : Dev) (now c : Nat) (key : Key) : (d.dropT0Needs now c key).fab = d.fab := by
  refine foldl_fab (fun d e => ?_) d.slu.objs d
  split <;> simp

theorem Dev.overtakeHandle_fab (d : Dev) (now h : Nat) (r : Req) : (d.overtakeHandle now h r).fab = d.fab := foldl_fab (fun _ _ => Dev.finishAt_fab ..) _ d

/-- The end of a run leaves its cascade loaded. -/
theorem Dev.finishRun_loaded {d : Dev} {now h : Nat} {st : Status} {c : Cascade} (hc : d.cascade? h = some c) : ∃ c', (d.finishRun now h st).cascade? h = some c' := by
  unfold Dev.finishRun
  split
  · exact ⟨_, (Dev.cascade?_of_cascades (congrArg FabSt.cascades (Dev.finishAt_fab ..)) h).trans (Dev.cascade?_modCascade hc)⟩
  · exact ⟨c, hc⟩

theorem Dev.startUnload_cascade {d : Dev} {now h by_ : Nat} {ms : Nat × Nat} {c : Cascade} (hc : d.cascade? h = some c) :
    ∃ c', (d.startUnload now h ms by_).cascade? h = some c' ∧ c'.unloading = some ms ∧ c'.armed = false ∧ c'.run = none ∧ c'.binding = none := by
  unfold Dev.startUnload
  split
  · next hnone => exact absurd (hnone.symm.trans hc) nofun
  · next x hx =>
    extract_lets d1 d2 k
    have hended : ∃ c', d1.cascade? h = some c' := by
      unfold d1
      split
      · exact Dev.finishRun_loaded hx
      · exact ⟨x, hx⟩
    have hovertaken : d2.fab = d1.fab := by
      unfold d2
      clear_value d1
      split
      · exact Dev.finishAt_fab ..
      · rfl
    obtain ⟨c', hc'⟩ := hended
    have hdrawn : k.2.cascade? h = some c' := (Dev.cascade?_of_cascades (congrArg FabSt.cascades hovertaken) h).trans hc'
    exact ⟨_, (Dev.cascade?_of_cascades (congrArg FabSt.cascades (Dev.dropT0Needs_fab ..)) h).trans (Dev.cascade?_modCascade hdrawn), rfl, rfl, rfl, rfl⟩

theorem cascadeUnload_unloads {s : State} {t m seq : Nat} {r : Req} {c : Cascade} (hr : ready s t m seq 0x0204 r = true) (hk : s.dev.cascadeUnloadCheck r = none)
    (hc : s.dev.cascade? (r.fld 0 0 16) = some c) (hsole : s.dev.coordinates c = false) :
    Answers (.cascadeUnload t m seq) s fun s' => ∃ d1 : Dev, s'.dev = d1.settleEnds (s.now t) ∧
      ∃ c', d1.cascade? (r.fld 0 0 16) = some c' ∧ c'.unloading = some (m, seq) ∧ c'.armed = false ∧ c'.run = none ∧ c'.binding = none := by
  refine command_answers (f := fun now d => d.cascadeUnload now m seq) (form := fun _ => true) rfl rfl hr rfl hk fun hm hs _ => ?_
  have hkept : ((s.dev.decide' r).overtakeHandle (s.now t) (r.fld 0 0 16) r).cascade? (r.fld 0 0 16) = some c :=
    (Dev.cascade?_of_cascades (congrArg FabSt.cascades (Dev.overtakeHandle_fab ..)) _).trans hc
  simp only [hc, hsole, Bool.false_eq_true, if_false, hm, hs]
  exact ⟨_, rfl, Dev.startUnload_cascade hkept⟩

/-! ### CASCADE_BIND: the pairs of a bind power on -/

/-- The powering of one basin's pair. -/
def Dev.powerPair (d : Dev) (now l : Nat) : Dev :=
  if d.on (pairOf (d.physical l)) then d
  else { d with pow := { d.pow with on := pairOf (d.physical l) :: d.pow.on, pairs := tset d.pow.pairs (pairOf (d.physical l)) (now + 20000) } }

theorem Dev.powerPairs_cons (d : Dev) (now l : Nat) (ls : List Nat) : d.powerPairs now (l :: ls) = (d.powerPair now l).powerPairs now ls := rfl

/-- What powering the pairs of some basins does (R67): only power changes; what was on stays as it was, every basin's pair is on, and one that was off is
usable 20 µs later. -/
structure PairsOn (d d' : Dev) (now : Nat) (ls : List Nat) : Prop where
  same : d' = { d with pow := d'.pow }
  kept : ∀ p, d.on p = true → d'.on p = true ∧ tgetD d'.pow.pairs p 0 = tgetD d.pow.pairs p 0
  on : ∀ l ∈ ls, d'.on (pairOf (d.physical l)) = true
  waits : ∀ p, d.on p = false → d'.on p = true → tgetD d'.pow.pairs p 0 = now + 20000

theorem Dev.physical_of_regs {d d' : Dev} (h : d'.regs = d.regs) (l : Nat) : d'.physical l = d.physical l := by
  unfold Dev.physical Dev.repairByte
  rw [Dev.rn_of_rd (Dev.rd_of_regs h _), Dev.rn_of_rd (Dev.rd_of_regs h _)]

theorem PairsOn.nil (d : Dev) (now : Nat) : PairsOn d d now [] := ⟨rfl, fun _ h => ⟨h, rfl⟩, by simp, fun p hoff hon => Bool.noConfusion (hoff.symm.trans hon)⟩

theorem Dev.powerPair_on (d : Dev) (now l : Nat) : PairsOn d (d.powerPair now l) now [l] := by
  unfold Dev.powerPair
  split
  · next hon => exact ⟨rfl, fun _ h => ⟨h, rfl⟩, by simpa using hon, fun p hoff hon => Bool.noConfusion (hoff.symm.trans hon)⟩
  · next hoff =>
    unfold Dev.on at *
    refine ⟨rfl, fun p hp => ?_, by simp [Dev.on], fun p hp hp' => ?_⟩
    · have hne : p ≠ pairOf (d.physical l) := fun e => hoff (e ▸ hp)
      exact ⟨by simpa [Dev.on] using Or.inr (by simpa [Dev.on] using hp), tgetD_tset_ne hne⟩
    · have heq : p = pairOf (d.physical l) := by simpa [Dev.on] using (List.mem_cons.mp (by simpa [Dev.on] using hp')).resolve_right (by simpa [Dev.on] using hp)
      rw [heq]
      exact tgetD_tset ..

theorem PairsOn.cons {d d' d'' : Dev} {now l : Nat} {ls : List Nat} (a : PairsOn d d' now [l]) (b : PairsOn d' d'' now ls) : PairsOn d d'' now (l :: ls) := by
  have hphys (k : Nat) : d'.physical k = d.physical k := Dev.physical_of_regs (by rw [a.same]) k
  refine ⟨by rw [b.same, a.same], fun p hp => ?_, fun k hk => ?_, fun p hoff hon => ?_⟩
  · obtain ⟨hp', hat⟩ := a.kept p hp
    obtain ⟨hp'', hat'⟩ := b.kept p hp'
    exact ⟨hp'', hat'.trans hat⟩
  · rcases List.mem_cons.mp hk with rfl | hk
    · exact (b.kept _ (a.on k (by simp))).1
    · rw [← hphys]; exact b.on k hk
  · cases hp' : d'.on p with
    | true => exact (b.kept p hp').2.trans (a.waits p hoff hp')
    | false => exact b.waits p hp' hon

theorem Dev.powerPairs_on (d : Dev) (now : Nat) (ls : List Nat) : PairsOn d (d.powerPairs now ls) now ls := by
  induction ls generalizing d with
  | nil => exact .nil d now
  | cons l ls ih => exact (d.powerPair_on now l).cons (ih _)

/-! ### CASCADE_BIND: a cascade is staged -/

theorem tmod_tmod {α : Type} (t : Tbl α) (k : Nat) (f g : α → α) : tmod (tmod t k f) k g = tmod t k (g ∘ f) := by
  unfold tmod
  rw [List.map_map]
  refine List.map_congr_left fun e _ => ?_
  by_cases h : e.1 = k <;> simp [h]

theorem tmod_id {α : Type} (t : Tbl α) (k : Nat) : tmod t k id = t := by
  unfold tmod
  simp

/-- What the parts of a staging keep: the steward's requests, power, where the basins are, and the cascades but for entries of the one staged, whose
basins and binding stay. -/
structure Staging (h : Nat) (d d' : Dev) : Prop where
  stew : d'.stew = d.stew
  pow : d'.pow = d.pow
  physical : ∀ l, d'.physical l = d.physical l
  cascades : ∃ g, d'.fab.cascades = tmod d.fab.cascades h g ∧ ∀ x : Cascade, (g x).bound = x.bound ∧ (g x).basins = x.basins

namespace Staging

variable {h : Nat} {d d' d'' : Dev}

theorem of_eq (hs : d'.stew = d.stew) (hp : d'.pow = d.pow) (hr : d'.regs = d.regs) (hc : d'.fab.cascades = d.fab.cascades) : Staging h d d' :=
  ⟨hs, hp, Dev.physical_of_regs hr, id, by rw [tmod_id]; exact hc, fun _ => ⟨rfl, rfl⟩⟩

theorem refl (d : Dev) : Staging h d d := of_eq rfl rfl rfl rfl

theorem trans (a : Staging h d d') (b : Staging h d' d'') : Staging h d d'' := by
  obtain ⟨f, hf, hfk⟩ := a.cascades
  obtain ⟨g, hg, hgk⟩ := b.cascades
  refine ⟨b.stew.trans a.stew, b.pow.trans a.pow, fun l => (b.physical l).trans (a.physical l), g ∘ f, by rw [hg, hf, tmod_tmod], fun x => ?_⟩
  exact ⟨(hgk _).1.trans (hfk x).1, (hgk _).2.trans (hfk x).2⟩

theorem modCascade {f : Cascade → Cascade} (hf : ∀ x, (f x).bound = x.bound ∧ (f x).basins = x.basins) : Staging h d (d.modCascade h f) :=
  ⟨rfl, rfl, fun _ => rfl, f, rfl, hf⟩

theorem sf {r : Reg} (x : Fld) (n : Nat) (hlo : r0 .pbuFabRepairLo ≠ r) (hhi : r0 .pbuFabRepairHi ≠ r) : Staging h d (d.sf r x n) := by
  refine ⟨rfl, rfl, fun l => ?_, id, by rw [tmod_id]; rfl, fun _ => ⟨rfl, rfl⟩⟩
  unfold Dev.physical Dev.repairByte
  rw [Dev.rn_of_rd (Dev.rd_sf_ne hlo), Dev.rn_of_rd (Dev.rd_sf_ne hhi)]

theorem foldl {α : Type} {f : Dev → α → Dev} (hf : ∀ d a, Staging h d (f d a)) (l : List α) (d : Dev) : Staging h d (l.foldl f d) :=
  List.foldlRecOn l f (motive := Staging h d) (refl d) fun _ hd a _ => hd.trans (hf _ a)

theorem syncWeirs : Staging h d d.syncWeirs := by
  unfold Dev.syncWeirs
  exact foldl (fun d r => (sf _ _ (Reg.ne_of_name (by simp)) (Reg.ne_of_name (by simp))).trans (sf _ _ (Reg.ne_of_name (by simp)) (Reg.ne_of_name (by simp)))) _ d

theorem takeArea {t n : Nat} {p : Nat × Dev} (ha : d.takeArea t n = some p) : Staging h d p.2 := by
  obtain ⟨areas, hp⟩ := Dev.takeArea_eq ha
  rw [hp]
  exact of_eq rfl rfl rfl rfl

theorem takeSpill {c : Cascade} (ht : d.takeSpill h c = some d') : Staging h d d' := by
  unfold Dev.takeSpill at ht
  split at ht
  · cases ht; exact refl d
  · obtain ⟨p, hp, rfl⟩ := Option.map_eq_some_iff.mp ht
    exact (takeArea hp).trans (modCascade fun _ => ⟨rfl, rfl⟩)

theorem takeSave {c n : Nat} (ht : d.takeSave c n = some d') : Staging h d d' := by
  unfold Dev.takeSave at ht
  split at ht
  · cases ht
  · obtain ⟨p, hp, rfl⟩ := Option.map_eq_some_iff.mp ht
    refine (takeArea hp).trans ?_
    dsimp only
    split
    · exact of_eq rfl rfl rfl rfl
    · exact of_eq rfl rfl rfl rfl

end Staging

/-- A staged cascade (R67, R98, R405): its pairs are on, those that were off to be usable in 20 µs; its entries are staged, and no request is touched. -/
structure Staged (d d' : Dev) (now h : Nat) (c : Cascade) : Prop where
  stew : d'.stew = d.stew
  physical : ∀ l, d'.physical l = d.physical l
  kept : ∀ p, d.on p = true → d'.on p = true ∧ tgetD d'.pow.pairs p 0 = tgetD d.pow.pairs p 0
  on : ∀ l ∈ c.ls, d'.on (pairOf (d.physical l)) = true
  waits : ∀ p, d.on p = false → d'.on p = true → tgetD d'.pow.pairs p 0 = now + 20000
  cascades : ∃ g, d'.fab.cascades = tmod d.fab.cascades h g ∧ ∀ x : Cascade, (g x).bound = x.bound ∧ (g x).basins = x.basins ∧ (g x).staged = true

namespace Staged

variable {d d' d'' : Dev} {now h : Nat} {c : Cascade}

theorem of_before (a : Staging h d d') (b : Staged d' d'' now h c) : Staged d d'' now h c := by
  have hon (p : Nat) : d'.on p = d.on p := by unfold Dev.on; rw [a.pow]
  obtain ⟨f, hf, hfk⟩ := a.cascades
  obtain ⟨g, hg, hgk⟩ := b.cascades
  refine ⟨b.stew.trans a.stew, fun l => (b.physical l).trans (a.physical l), fun p hp => ?_, fun l hl => ?_, fun p hp => b.waits p ((hon p).trans hp), g ∘ f, by rw [hg, hf, tmod_tmod], fun x => ?_⟩
  · rw [← a.pow]; exact b.kept p ((hon p).trans hp)
  · rw [← a.physical]; exact b.on l hl
  · obtain ⟨hb, hl, hs⟩ := hgk (f x)
    exact ⟨hb.trans (hfk x).1, hl.trans (hfk x).2, hs⟩

theorem sf (a : Staged d d' now h c) {r : Reg} (x : Fld) (n : Nat) (hlo : r0 .pbuFabRepairLo ≠ r) (hhi : r0 .pbuFabRepairHi ≠ r) : Staged d (d'.sf r x n) now h c :=
  ⟨a.stew, fun l => ((Staging.sf (h := h) x n hlo hhi).physical l).trans (a.physical l), a.kept, a.on, a.waits, a.cascades⟩

end Staged

theorem Dev.syncWeirs_fab (d : Dev) : d.syncWeirs.fab = d.fab := by
  unfold Dev.syncWeirs
  refine foldl_fab (fun d r => ?_) _ d
  rfl

/-- A cascade is marked as staged, and its pairs power on. -/
theorem Dev.markStaged_stages (d : Dev) (now h : Nat) (c : Cascade) : Staged d (((d.modCascade h fun c => { c with staged := true }).powerPairs now c.ls).syncWeirs) now h c := by
  have hpairs := (d.modCascade h fun c => { c with staged := true }).powerPairs_on now c.ls
  generalize he : (d.modCascade h fun c => { c with staged := true }).powerPairs now c.ls = e at hpairs
  obtain ⟨hsame, hkept, hon, hwaits⟩ := hpairs
  have hweirs : Staging h e e.syncWeirs := .syncWeirs
  have hpow := hweirs.pow
  refine ⟨hweirs.stew.trans (by rw [hsame]; rfl), fun l => (hweirs.physical l).trans (Dev.physical_of_regs (by rw [hsame]; rfl) l), ?_, ?_, ?_, fun c => { c with staged := true }, ?_, fun x => ⟨rfl, rfl, rfl⟩⟩
  · unfold Dev.on at *; rw [hpow]; exact hkept
  · unfold Dev.on at *; rw [hpow]; exact hon
  · unfold Dev.on at *; rw [hpow]; exact hwaits
  · rw [Dev.syncWeirs_fab, hsame]; rfl

theorem Dev.installBasins_stages (d : Dev) (now h : Nat) (c : Cascade) (here : Bool) : Staged d (d.installBasins now h c here) now h c := by
  unfold Dev.installBasins
  extract_lets seed bs fab old area d1 fab' d2
  have hbasins : Staging h d d1 := by
    unfold d1
    split
    · exact .of_eq rfl rfl rfl rfl
    · exact .of_eq rfl rfl rfl rfl
  have hctx : Staging h d1 d2 := .of_eq rfl rfl rfl rfl
  exact (d2.markStaged_stages now h c).of_before (hbasins.trans hctx)

theorem Dev.stageBind_stages {d d' : Dev} {now h : Nat} {pin : Bool} {c : Cascade} (hb : d.stageBind now h pin = some d') (hc : d.cascade? h = some c) : Staged d d' now h c := by
  unfold Dev.stageBind at hb
  split at hb
  · cases hb
  · next x hx =>
    cases hx.symm.trans hc
    dsimp only at hb
    split at hb
    · cases hb
    · obtain ⟨d1, hspill, hb⟩ := Option.bind_eq_some_iff.mp hb
      obtain ⟨d2, hsave, hb⟩ := Option.map_eq_some_iff.mp hb
      have hsaved : Staging h d1 d2 := by
        split at hsave
        · cases hsave; exact .refl d1
        · exact .takeSave hsave
      have hareas : Staging h d (d2.modCascade h fun c => { c with pin := pin }) := ((Staging.takeSpill hspill).trans hsaved).trans (.modCascade fun _ => ⟨rfl, rfl⟩)
      have hinst (here : Bool) := ((d2.modCascade h fun c => { c with pin := pin }).installBasins_stages now h c here).of_before hareas
      subst hb
      split
      · exact (hinst _).sf _ _ (Reg.ne_of_name (by simp)) (Reg.ne_of_name (by simp))
      · exact hinst _

/-! ### CASCADE_BIND: the staged cascade waits or comes into force -/

theorem mem_tmod {α : Type} {t : Tbl α} {k : Nat} {f : α → α} {e : Nat × α} (h : e ∈ tmod t k f) : ∃ x ∈ t, e.1 = x.1 ∧ (x.1 ≠ k → e.2 = x.2) ∧ (x.1 = k → e.2 = f x.2) := by
  obtain ⟨x, hx, rfl⟩ := List.mem_map.mp h
  refine ⟨x, hx, ?_⟩
  by_cases hk : x.1 = k <;> simp [hk]

/-- A cascade whose bind has been staged for a request, before its pairs are looked at. -/
def Dev.bindFor (d : Dev) (h : Nat) (r : Req) : Dev := (d.decide' r).modCascade h fun c => { c with binding := some (r.mbx, r.seq) }

/-- The entries after a staging for a request (R405): every one but the handle's is as before, the handle's are staged with their basins, and the bind is the request's. -/
structure BindStaged (d e : Dev) (h : Nat) (q : Nat × Nat) : Prop where
  other : ∀ x ∈ e.fab.cascades, x.1 ≠ h → ∃ y ∈ d.fab.cascades, x = y
  mine : ∀ x ∈ e.fab.cascades, x.1 = h → x.2.binding = some q ∧ ∃ y ∈ d.fab.cascades, y.1 = h ∧ x.2.basins = y.2.basins
  handle : ∀ c, d.cascade? h = some c → ∃ c', e.cascade? h = some c' ∧ c'.staged = true ∧ c'.bound = c.bound ∧ c'.basins = c.basins ∧ c'.binding = some q

theorem Staged.bindStaged {d d1 : Dev} {now h : Nat} {c : Cascade} (s : Staged d d1 now h c) (r : Req) : BindStaged d (d1.bindFor h r) h (r.mbx, r.seq) := by
  obtain ⟨g, hg, hkeeps⟩ := s.cascades
  have hall : (d1.bindFor h r).fab.cascades = tmod d.fab.cascades h fun c => { g c with binding := some (r.mbx, r.seq) } := by
    have hset : (d1.bindFor h r).fab.cascades = tmod d1.fab.cascades h fun c => { c with binding := some (r.mbx, r.seq) } := rfl
    rw [hset, hg, tmod_tmod]
    rfl
  refine ⟨fun x hx hne => ?_, fun x hx heq => ?_, fun c0 hc0 => ?_⟩
  · obtain ⟨y, hy, hkey, hother, -⟩ := mem_tmod (hall ▸ hx)
    exact ⟨y, hy, Prod.ext hkey (hother (hkey ▸ hne))⟩
  · obtain ⟨y, hy, hkey, -, hmine⟩ := mem_tmod (hall ▸ hx)
    have hval := hmine (hkey.symm.trans heq)
    exact ⟨by rw [hval], y, hy, hkey.symm.trans heq, by rw [hval]; exact (hkeeps _).2.1⟩
  · obtain ⟨hbound, hbasins, hstaged⟩ := hkeeps c0
    refine ⟨{ g c0 with binding := some (r.mbx, r.seq) }, ?_, hstaged, hbound, hbasins, rfl⟩
    unfold Dev.cascade? at *
    rw [hall, tget_tmod, if_pos rfl, hc0]
    rfl

/-- A bind that is to come into force, and one that has. -/
def Dev.InForce (d : Dev) (h : Nat) (q : Nat × Nat) : Prop := d.req? q.1 q.2 = none ∧ ∃ c, d.cascade? h = some c ∧ c.bound = true ∧ c.staged = false ∧ c.binding = none

theorem Dev.finishAt_gone (d : Dev) (now de : Nat) (q : Nat × Nat) (st : Status) (b : List Byte) : (d.finishAt now q st de b).req? q.1 q.2 = none := by
  unfold Dev.finishAt
  split
  · next r hr =>
    have hq := List.find?_some (p := fun x : Req => x.mbx == q.1 && x.seq == q.2) hr
    simp only [Bool.and_eq_true, beq_iff_eq] at hq
    obtain ⟨hm, hs⟩ := hq
    obtain ⟨hgone, -⟩ := Dev.finish_served (old := d) rfl now r st de b
    unfold gone at hgone
    rwa [hm, hs] at hgone
  · next hr => exact hr

theorem Dev.completeBind_inForce {d : Dev} {now h : Nat} {q : Nat × Nat} {c : Cascade} (hc : d.cascade? h = some c) : ((d.completeBind now h).finishAt now q .ok 0 []).InForce h q :=
  ⟨Dev.finishAt_gone .., _, (Dev.cascade?_of_cascades (congrArg FabSt.cascades (Dev.finishAt_fab ..)) h).trans (Dev.completeBind_cascade hc), rfl, rfl, rfl⟩

/-- What a usable staged bind does when its turn comes. -/
def Dev.bindReady (d : Dev) (now : Nat) (e : Nat × Cascade) : Dev :=
  if e.2.staged && d.usable now e.2 then
    (match e.2.binding with
     | some q => (d.completeBind now e.1).finishAt now q .ok 0 []
     | none =>
       match d.cnl.coords.find? fun x => x.kind == 0 && x.subject == e.1 && x.outcome.isNone with
       | some x => d.tpcVote now x.id d.own 0
       | none => match d.cnl.parts.find? fun p => p.kind == 0 && p.subject == e.2.split.id && p.vote.isNone with
         | some p => d.castVote now p.id .ok
         | none => d)
  else d

theorem Dev.bindsReady_eq (d : Dev) (now : Nat) : d.bindsReady now = d.fab.cascades.foldl (fun d e => d.bindReady now e) d := rfl

section
variable {d : Dev} {now h : Nat} {q : Nat × Nat} {c : Cascade}

theorem Dev.bindReady_unstaged {e : Nat × Cascade} (h : e.2.staged = false) : d.bindReady now e = d := by
  unfold Dev.bindReady
  simp [h]

/-- An entry of the handle for this request, looked at once the bind is in force, leaves it in force. -/
theorem Dev.bindReady_inForce {e : Nat × Cascade} (hd : d.InForce h q) (hother : e.1 ≠ h → e.2.staged = false) (hmine : e.1 = h → e.2.binding = some q) : (d.bindReady now e).InForce h q := by
  by_cases heq : e.1 = h
  · obtain ⟨-, c, hc, -⟩ := id hd
    unfold Dev.bindReady
    split
    · simp only [hmine heq, heq]
      exact Dev.completeBind_inForce hc
    · exact hd
  · rw [Dev.bindReady_unstaged (hother heq)]
    exact hd

theorem Dev.bindReady_binds (hc : d.cascade? h = some c) (hs : c.staged = true) (hu : d.usable now c = true) (hq : c.binding = some q) : (d.bindReady now (h, c)).InForce h q := by
  unfold Dev.bindReady
  simp only [hs, hu, hq, Bool.and_self, if_true]
  exact Dev.completeBind_inForce hc

/-- A usable bind of the only staged handle comes into force. -/
theorem Dev.foldl_bindReady_inForce {l : List (Nat × Cascade)} (hother : ∀ e ∈ l, e.1 ≠ h → e.2.staged = false) (hmine : ∀ e ∈ l, e.1 = h → e.2.binding = some q) (hget : tget l h = some c)
    (hc : d.cascade? h = some c) (hs : c.staged = true) (hu : d.usable now c = true) : (l.foldl (fun d e => d.bindReady now e) d).InForce h q := by
  induction l with
  | nil => cases hget
  | cons e l ih =>
    rw [List.foldl_cons]
    by_cases heq : e.1 = h
    · have hval : e = (h, c) := by
        unfold tget at hget
        simp only [heq, if_true] at hget
        cases hget
        exact Prod.ext heq rfl
      have hfirst : (d.bindReady now e).InForce h q := by
        rw [hval]
        exact Dev.bindReady_binds hc hs hu (by simpa [hval] using hmine e (by simp) heq)
      exact List.foldlRecOn l _ (motive := fun x : Dev => x.InForce h q) hfirst fun _ hx a ha => Dev.bindReady_inForce hx (hother a (by simp [ha])) (hmine a (by simp [ha]))
    · rw [Dev.bindReady_unstaged (hother e (by simp) heq)]
      refine ih (fun a ha => hother a (by simp [ha])) (fun a ha => hmine a (by simp [ha])) ?_
      unfold tget at hget
      simpa [heq] using hget

end

section
variable {s : State} {t m seq : Nat} {r : Req} {c : Cascade}

theorem Dev.cascadeBindCheck_handle {d : Dev} {now : Nat} (hk : d.cascadeBindCheck now r = none) (hc : d.cascade? (r.fld 0 0 16) = some c) : d.handleOf r = some c := by
  have hsome : (d.handleOf r).isSome = true := need_none (st := .badConfig) (n := 32 + 0).mp (firstFail_none.mp hk _ (by simp [needCfg]))
  obtain ⟨x, hx⟩ := Option.isSome_iff_exists.mp hsome
  rw [hx]
  unfold Dev.handleOf at hx
  rw [hc] at hx
  simp only [Option.bind_some] at hx
  split at hx
  · exact hx.symm
  · cases hx

/-- A bind that passes its checks can be staged, unless it stands already. -/
theorem Dev.cascadeBindCheck_stages {d : Dev} {now : Nat} (hk : d.cascadeBindCheck now r = none) (hc : d.cascade? (r.fld 0 0 16) = some c) (hb : c.bound = false) :
    ∃ d1, d.stageBind now (r.fld 0 0 16) (r.flag 0) = some d1 := by
  have hroom : ((d.handleOf r).elim false Cascade.bound || (!(d.handleOf r).elim false Cascade.staged && (d.stageBind now (r.fld 0 0 16) (r.flag 0)).isSome)) = true :=
    need_none (st := .busy) (n := 0).mp (firstFail_none.mp hk _ (by simp))
  simp only [Dev.cascadeBindCheck_handle hk hc, Option.elim_some, hb, Bool.false_or, Bool.and_eq_true] at hroom
  exact Option.isSome_iff_exists.mp hroom.2

theorem cascadeBind_again (hr : ready s t m seq 0x0202 r = true) (hk : s.dev.cascadeBindCheck (s.now t) r = none) (hc : s.dev.cascade? (r.fld 0 0 16) = some c) (hb : c.bound = true) :
    Answers (.cascadeBind t m seq) s fun s' => served s.dev s'.dev r .ok 0 [] ∧ s'.dev.fab = s.dev.fab := by
  refine command_answers (f := fun now d => d.cascadeBind now m seq) (form := fun _ => true) rfl rfl hr rfl hk fun hm hs _ => ?_
  have hserved : served s.dev (s.dev.finish (s.now t) r .ok 0 []) r .ok 0 [] ∧ (s.dev.finish (s.now t) r .ok 0 []).fab = s.dev.fab := ⟨Dev.finish_served rfl .., by simp⟩
  dsimp only
  rw [hc]
  split
  · next x d1 hx _ =>
    cases hx
    rw [if_pos hb]
    exact hserved
  · exact hserved

/-- The effect of a bind of this module's own that has to be made. -/
theorem cascadeBind_stages {P : State → Prop} (hr : ready s t m seq 0x0202 r = true) (hk : s.dev.cascadeBindCheck (s.now t) r = none) (hc : s.dev.cascade? (r.fld 0 0 16) = some c)
    (hb : c.bound = false) (hsole : s.dev.coordinates c = false)
    (hP : ∀ d1, r.mbx = m → r.seq = seq → s.dev.req? m seq = some r → s.dev.stageBind (s.now t) (r.fld 0 0 16) (r.flag 0) = some d1 →
      P { s with dt := s.now t, dev := (d1.bindFor (r.fld 0 0 16) r).bindsReady (s.now t) }) : Answers (.cascadeBind t m seq) s P := by
  refine command_answers (f := fun now d => d.cascadeBind now m seq) (form := fun _ => true) rfl rfl hr rfl hk fun hm hs hreq => ?_
  obtain ⟨d1, hd1⟩ := Dev.cascadeBindCheck_stages hk hc hb
  simp only [hc, hd1, hb, hsole, Bool.false_eq_true, if_false]
  exact hP d1 hm hs hreq hd1

/-- The staged cascade's pairs stand as the staging left them. -/
theorem Dev.usable_of {d d' : Dev} (hp : d'.pow = d.pow) (hl : ∀ l, d'.physical l = d.physical l) (now : Nat) (c : Cascade) : d'.usable now c = d.usable now c := by
  unfold Dev.usable Dev.on
  simp only [hp, hl]

theorem Staged.not_usable {d d' : Dev} {now h l : Nat} {x : Cascade} (k : Staged d d' now h c) (hx : x.ls = c.ls) (hl : l ∈ c.ls) (hoff : d.on (pairOf (d.physical l)) = false) :
    d'.usable now x = false := by
  refine List.all_eq_false.mpr ⟨l, by rwa [hx], ?_⟩
  have hwait := k.waits _ hoff (k.on l hl)
  rw [k.physical, hwait]
  simp

theorem Staged.usable {d d' : Dev} {now h : Nat} {x : Cascade} (k : Staged d d' now h c) (hx : x.ls = c.ls) (hu : d.usable now c = true) : d'.usable now x = true := by
  unfold Dev.usable at *
  rw [hx]
  refine List.all_eq_true.mpr fun l hl => ?_
  have hold := List.all_eq_true.mp hu l hl
  simp only [Bool.and_eq_true, decide_eq_true_eq] at hold ⊢
  obtain ⟨hon, hat⟩ := hold
  obtain ⟨hon', hat'⟩ := k.kept _ hon
  rw [k.physical, hat']
  exact ⟨hon', hat⟩

theorem cascadeBind_waits (hr : ready s t m seq 0x0202 r = true) (hk : s.dev.cascadeBindCheck (s.now t) r = none) (hc : s.dev.cascade? (r.fld 0 0 16) = some c) (hb : c.bound = false)
    (hsole : s.dev.coordinates c = false) (hidle : ∀ e ∈ s.dev.fab.cascades, e.2.staged = false ∧ (e.1 = r.fld 0 0 16 → e.2 = c))
    (hoff : ∃ l ∈ c.ls, s.dev.on (pairOf (s.dev.physical l)) = false) :
    Answers (.cascadeBind t m seq) s fun s' => awaits s'.dev m seq ∧ (∀ l ∈ c.ls, s'.dev.on (pairOf (s.dev.physical l)) = true) ∧
      ∃ c', s'.dev.cascade? (r.fld 0 0 16) = some c' ∧ c'.staged = true ∧ c'.bound = false ∧ c'.binding = some (m, seq) := by
  refine cascadeBind_stages hr hk hc hb hsole fun d1 hm hs hreq hd1 => ?_
  obtain ⟨l, hl, hoff⟩ := hoff
  have hstaged := Dev.stageBind_stages hd1 hc
  have hentries := hstaged.bindStaged r
  have hready : (d1.bindFor (r.fld 0 0 16) r).bindsReady (s.now t) = d1.bindFor (r.fld 0 0 16) r := by
    refine Dev.bindsReady_unstaged fun e he hse => ?_
    by_cases heq : e.1 = r.fld 0 0 16
    · obtain ⟨-, y, hy, hkey, hbasins⟩ := hentries.mine e he heq
      have hls : e.2.ls = c.ls := by unfold Cascade.ls; rw [hbasins, (hidle y hy).2 hkey]
      exact (Dev.usable_of rfl (fun _ => rfl) ..).trans (hstaged.not_usable hls hl hoff)
    · obtain ⟨y, hy, rfl⟩ := hentries.other e he heq
      exact absurd hse (by simp [(hidle e hy).1])
  obtain ⟨c', hc', hs', hb', -, hq⟩ := hentries.handle c hc
  have hreq1 : d1.req? m seq = some r := by unfold Dev.req? at hreq ⊢; rwa [hstaged.stew]
  rw [hready]
  exact ⟨awaits_of_inflight rfl (Dev.decide'_awaits hreq1), hstaged.on, c', hc', hs', hb'.trans hb, by rw [hq, hm, hs]⟩

theorem cascadeBind_binds (hr : ready s t m seq 0x0202 r = true) (hk : s.dev.cascadeBindCheck (s.now t) r = none) (hc : s.dev.cascade? (r.fld 0 0 16) = some c) (hb : c.bound = false)
    (hsole : s.dev.coordinates c = false) (hidle : ∀ e ∈ s.dev.fab.cascades, e.2.staged = false) (husable : s.dev.usable (s.now t) c = true) :
    Answers (.cascadeBind t m seq) s fun s' => gone s'.dev r ∧ ∃ c', s'.dev.cascade? (r.fld 0 0 16) = some c' ∧ c'.bound = true ∧ c'.staged = false ∧ c'.binding = none := by
  refine cascadeBind_stages hr hk hc hb hsole fun d1 _ _ _ hd1 => ?_
  have hstaged := Dev.stageBind_stages hd1 hc
  have hentries := hstaged.bindStaged r
  obtain ⟨c', hc', hs', -, hbasins, -⟩ := hentries.handle c hc
  have hu : (d1.bindFor (r.fld 0 0 16) r).usable (s.now t) c' = true :=
    (Dev.usable_of rfl (fun _ => rfl) ..).trans (hstaged.usable (by unfold Cascade.ls; rw [hbasins]) husable)
  have hother (e : Nat × Cascade) (he : e ∈ (d1.bindFor (r.fld 0 0 16) r).fab.cascades) (hne : e.1 ≠ r.fld 0 0 16) : e.2.staged = false := by
    obtain ⟨y, hy, rfl⟩ := hentries.other e he hne
    exact hidle e hy
  exact Dev.foldl_bindReady_inForce hother (fun e he heq => (hentries.mine e he heq).1) hc' hc' hs' hu

end

/-- Settles O48: a clause each for CASCADE_LOAD, the three ways of CASCADE_BIND, CASCADE_RUN and CASCADE_UNLOAD. -/
theorem cascadeCommands : Obligations.CascadeCommands := by
  unfold Obligations.CascadeCommands
  exact ⟨fun _ _ _ _ _ => cascadeLoad_loads,
    fun _ _ _ _ _ _ hr hk hc => ⟨cascadeBind_again hr hk hc, cascadeBind_waits hr hk hc, fun hb hsole _ => cascadeBind_binds hr hk hc hb hsole⟩,
    fun _ _ _ _ _ _ => cascadeRun_runs, fun _ _ _ _ _ _ => cascadeUnload_unloads⟩

end Sys2Proof.Machine

/-! ## O22 to O26: operations on rendezvous cells -/

namespace Sys2Proof.Machine

/-! ### Updates that write the fabric and registers alone -/

/-- Between two states of a device only the fabric and registers differ. -/
def FabRegs (d e : Dev) : Prop := e = { d with regs := e.regs, fab := e.fab }

namespace FabRegs

variable {d e f : Dev}

theorem refl (d : Dev) : FabRegs d d := rfl

theorem trans (a : FabRegs d e) (b : FabRegs e f) : FabRegs d f := by
  unfold FabRegs at a b ⊢
  rw [b, a]

theorem sf (r : Reg) (x : Fld) (n : Nat) : FabRegs d (d.sf r x n) := rfl

theorem with_fab (x : FabSt) : FabRegs d { d with fab := x } := rfl

theorem foldl {α : Type} {g : Dev → α → Dev} (h : ∀ d a, FabRegs d (g d a)) (l : List α) (d : Dev) : FabRegs d (l.foldl g d) := by
  induction l generalizing d with
  | nil => exact refl d
  | cons a l ih => exact (h d a).trans (ih _)

theorem cells (h : FabRegs d e) : e.cells = d.cells := by rw [h]
theorem mem (h : FabRegs d e) : e.mem = d.mem := by rw [h]

end FabRegs

theorem Dev.joinShares_fabRegs (d : Dev) (now c region : Nat) : FabRegs d (d.joinShares now c region) := by
  unfold Dev.joinShares
  split
  · dsimp only
    split
    · split <;> rfl
    · rfl
  · exact .refl d

theorem Dev.startSwitch_fabRegs (d : Dev) (now out inn region : Nat) : FabRegs d (d.startSwitch now out inn region) := rfl

theorem Dev.carrySwitch_fabRegs (d : Dev) (now by_ holder : Nat) : FabRegs d (d.carrySwitch now by_ holder) := by
  unfold Dev.carrySwitch
  extract_lets region d1 resident
  have h1 : FabRegs d d1 := Dev.joinShares_fabRegs ..
  clear_value d1 region resident
  split
  · exact .refl d
  · split
    · exact h1.trans (Dev.startSwitch_fabRegs ..)
    · split
      · exact h1
      · split
        · split
          · exact h1.trans (Dev.startSwitch_fabRegs ..)
          · exact h1
        · exact h1.trans (Dev.startSwitch_fabRegs ..)

theorem Dev.syncCarries_fabRegs (d : Dev) (now : Nat) : FabRegs d (d.syncCarries now) := rfl

theorem Dev.addCarry_fabRegs (d : Dev) (now root payer by_ n holder : Nat) : FabRegs d (d.addCarry now root payer by_ n holder) := by
  unfold Dev.addCarry
  split
  · exact .refl d
  · extract_lets fab d1
    have h1 : FabRegs d (d1.sf (r1 .pbuCtxCfg holder) F.pbuCtxCfg.CARRY 1) := rfl
    exact (h1.trans (Dev.carrySwitch_fabRegs ..)).trans (Dev.syncCarries_fabRegs ..)

/-- Carry that starts writes the fabric and the registers of contexts alone (R113). -/
theorem Dev.startCarry_fabRegs (d : Dev) (now n ctx : Nat) : FabRegs d (d.startCarry now n ctx) := by
  unfold Dev.startCarry
  extract_lets up root payer depth chain d1
  have h1 : FabRegs d d1 := .foldl (fun d _ => Dev.addCarry_fabRegs d ..) _ d
  clear_value d1
  split
  · exact h1
  · exact h1.trans (.with_fab _)

theorem Dev.endCarry_fabRegs (d : Dev) (p : Carry → Bool) : FabRegs d (d.endCarry p) := by
  unfold Dev.endCarry
  extract_lets gone fab d1
  have h1 : FabRegs d d1 := rfl
  refine h1.trans (.foldl (fun d x => ?_) _ d1)
  split
  · exact .refl d
  · exact .sf ..

/-! ### Hold tables -/

theorem Dev.holds_of_ctxs {d e : Dev} (h : e.fab.ctxs = d.fab.ctxs) (c : Nat) : e.holds c = d.holds c := by
  unfold Dev.holds Dev.ctx?
  rw [h]

/-- A change of contexts that leaves every hold table. -/
theorem Dev.holds_of_tmod {d e : Dev} {k : Nat} {f : Ctx → Ctx} (h : e.fab.ctxs = tmod d.fab.ctxs k f) (hf : ∀ x, (f x).held = x.held) (c : Nat) : e.holds c = d.holds c := by
  unfold Dev.holds Dev.ctx?
  rw [h, tget_tmod]
  cases tget d.fab.ctxs c with
  | none => simp
  | some x =>
    by_cases hk : c = k
    · simp [hk, hf]
    · simp [hk]

theorem Dev.holds_setHolds {d : Dev} {c : Nat} (hc : (d.ctx? c).isSome = true) (h : List (Nat × Key)) : (d.setHolds c h).holds c = h := by
  obtain ⟨x, hx⟩ := Option.isSome_iff_exists.mp hc
  unfold Dev.holds Dev.setHolds Dev.ctx? at *
  simp [tget_tmod, hx]

theorem Dev.holds_setHolds_ne {d : Dev} {c k : Nat} (hk : k ≠ c) (h : List (Nat × Key)) : (d.setHolds c h).holds k = d.holds k := by
  unfold Dev.holds Dev.setHolds Dev.ctx?
  simp [tget_tmod, hk]

theorem Dev.ctx?_setHolds_isSome (d : Dev) (c k : Nat) (h : List (Nat × Key)) : ((d.setHolds c h).ctx? k).isSome = (d.ctx? k).isSome := by
  unfold Dev.setHolds Dev.ctx?
  simp only [tget_tmod]
  split <;> simp

theorem Dev.ctx?_isSome_of_holds {d : Dev} {c : Nat} {e : Nat × Key} (h : e ∈ d.holds c) : (d.ctx? c).isSome = true := by
  unfold Dev.holds at h
  split at h
  · next hx => rw [hx]; rfl
  · cases h

/-- Links of carry that end leave the contexts (R113 to R115). -/
theorem Dev.endCarry_ctxs (d : Dev) (p : Carry → Bool) : (d.endCarry p).fab.ctxs = d.fab.ctxs := by
  unfold Dev.endCarry
  extract_lets gone fab d1
  have hfab : ∀ (d : Dev) (x : Carry), (if d.fab.carries.any fun y => y.holder == x.holder then d else d.sf (r1 .pbuCtxCfg x.holder) F.pbuCtxCfg.CARRY 0).fab = d.fab := by
    intro d x
    split <;> rfl
  rw [foldl_fab hfab]

/-! ### The completion of an operation -/

@[simp] theorem Dev.cellDone_cells (d : Dev) (who : CellWho) (st : Status) (v : Nat) : (d.cellDone who st v).cells = d.cells := by cases who <;> rfl
@[simp] theorem Dev.cellDone_fab (d : Dev) (who : CellWho) (st : Status) (v : Nat) : (d.cellDone who st v).fab = d.fab := by cases who <;> rfl
@[simp] theorem Dev.cellDone_mem (d : Dev) (who : CellWho) (st : Status) (v : Nat) : (d.cellDone who st v).mem = d.mem := by cases who <;> rfl
@[simp] theorem Dev.cellDone_stew (d : Dev) (who : CellWho) (st : Status) (v : Nat) : (d.cellDone who st v).stew = d.stew := by cases who <;> rfl
@[simp] theorem Dev.cellDone_pbu (d : Dev) (who : CellWho) (st : Status) (v : Nat) : (d.cellDone who st v).pbu = d.pbu := by cases who <;> rfl

theorem Dev.holds_cellDone (d : Dev) (who : CellWho) (st : Status) (v c : Nat) : (d.cellDone who st v).holds c = d.holds c := Dev.holds_of_ctxs (by rw [Dev.cellDone_fab]) c

/-- Who operates a cell, as its waiters name it. -/
def CellVia.who : CellVia → CellWho
  | .port _ n => .port n
  | .stage c _ => .stage c

theorem Dev.portCtx_of_stew {d e : Dev} (h : e.stew = d.stew) (n : Nat) : e.portCtx n = d.portCtx n := by
  unfold Dev.portCtx
  rw [h]

theorem Status.code_lt (st : Status) : st.code < 2 ^ 16 := by cases st <;> decide

/-- An operation that completes answers its status and value (R108, R110). -/
theorem Dev.cellDone_answers (d : Dev) (via : CellVia) (st : Status) {v : Nat} (hv : v < 2 ^ 32) : cellAnswer (d.cellDone (CellVia.who via) st v) via st v := by
  cases via with
  | port c n =>
    have hstatus : ((d.cellDone (.port n) st v).portCtx n).elim st (fun c => (d.cellDone (.port n) st v).windowStatus c st) =
        (d.portCtx n).elim st fun c => d.windowStatus c st := by
      rw [Dev.portCtx_of_stew (Dev.cellDone_stew ..)]
      simp only [Dev.windowStatus_of_eq (Dev.cellDone_fab d (.port n) st v) (Dev.cellDone_pbu d (.port n) st v)]
    unfold cellAnswer
    dsimp only [CellVia.who]
    rw [hstatus]
    unfold Dev.cellDone
    dsimp only
    generalize (d.portCtx n).elim st (fun c => d.windowStatus c st) = st'
    have hstatus : F.rdvPortRes.STATUS.ok := by unfold Fld.ok; decide
    have hstate : F.rdvPortRes.STATE.ok := by unfold Fld.ok; decide
    have hvalue : F.rdvPortRes.VALUE.ok := by unfold Fld.ok; decide
    refine ⟨?_, ?_, ?_⟩
    · rw [Dev.f_sf_ne _ hvalue (by decide), Dev.f_sf_ne _ hstate (by decide), Dev.f_sf _ _ _ hstatus]
      exact Nat.mod_eq_of_lt st'.code_lt
    · rw [Dev.f_sf _ _ _ hvalue]
      exact Nat.mod_eq_of_lt hv
    · rw [Dev.f_sf_ne _ hvalue (by decide), Dev.f_sf _ _ _ hstate]
      rfl
  | stage c dl =>
    unfold cellAnswer
    dsimp only
    rw [Dev.windowStatus_of_eq (Dev.cellDone_fab ..) (Dev.cellDone_pbu ..)]
    exact tget_tset ..

theorem Dev.cellCount_of_cells {d e : Dev} (h : e.cells = d.cells) (n : Nat) : e.cellCount n = d.cellCount n := by
  unfold Dev.cellCount
  rw [h]

/-! ### The start of an operation -/

/-- What an operation finds (R108, R110): its order key drawn, the port's result register pending, all else as before. -/
structure OpStart (d d0 : Dev) : Prop where
  cells : d0.cells = d.cells
  fab : d0.fab = d.fab
  mem : d0.mem = d.mem
  waits : d0.waits = d.waits
  regs : KeepsRegs (· != .rdvPortRes) d d0

theorem OpStart.trans {d e f : Dev} (a : OpStart d e) (b : OpStart e f) : OpStart d f :=
  ⟨b.cells.trans a.cells, b.fab.trans a.fab, b.mem.trans a.mem, b.waits.trans a.waits, a.regs.trans b.regs⟩

theorem OpStart.draw (d : Dev) (x dt : Nat) : OpStart d (d.draw x dt).2 := ⟨rfl, rfl, rfl, rfl, .of_regs rfl⟩

/-- The rsvd field of an operation: a port's write carries one (R110). -/
def CellVia.rsvd (via : CellVia) (rsvd : Nat) : Nat :=
  match via with
  | .port _ _ => rsvd
  | .stage _ _ => 0

/-- A port with its operation pending (R110). -/
def Dev.portPending (d : Dev) (now n : Nat) : Dev :=
  (((d.draw (0x0700 + n) now).2.sf (r1 .rdvPortRes n) F.rdvPortRes.STATE 1).sf (r1 .rdvPortRes n) F.rdvPortRes.STATUS 0).sf (r1 .rdvPortRes n) F.rdvPortRes.VALUE 0

theorem Dev.portPending_start (d : Dev) (now n : Nat) : OpStart d (d.portPending now n) :=
  ⟨rfl, rfl, rfl, rfl, .trans (d' := (d.draw (0x0700 + n) now).2) (.of_regs rfl) (.trans (.sf _ _ rfl) (.trans (.sf _ _ rfl) (.sf _ _ rfl)))⟩

theorem Dev.portOp_operates {d : Dev} {now n ctx op cell arg rsvd : Nat} (hport : d.portCtx n = some ctx) (hidle : d.f (r1 .rdvPortRes n) F.rdvPortRes.STATE ≠ 1) :
    d.portOp now n op cell arg rsvd =
      (d.portPending now n).cellOp now (.port n) ctx op cell arg rsvd ((d.portPending now n).rn (r1 .rdvPortDl n)) (d.draw (0x0700 + n) now).1 := by
  unfold Dev.portOp
  rw [hport]
  dsimp only
  rw [if_neg hidle]
  rfl

/-- A command on a cell by a context is one operation of it, with an order key of the command's instant (R108, R109). -/
theorem cellCommand_operates {s : State} {t ctx op cell arg : Nat} {via : CellVia} (rsvd : Nat) (hvia : viaCtx s t via = some ctx) (hcell : cell < 2 ^ 17) (harg : arg < 2 ^ 32) :
    ∃ (d0 : Dev) (k : Key) (dl : Nat), OpStart s.dev d0 ∧ k.dt = s.now t ∧ cellCommand t via op cell arg rsvd s =
      .next { s with dt := s.now t, dev := d0.cellOp (s.now t) (CellVia.who via) ctx op cell arg (CellVia.rsvd via rsvd) dl k } := by
  cases via with
  | port c n =>
    simp only [viaCtx, Option.ite_none_right_eq_some] at hvia
    obtain ⟨⟨hn, hhit, hidle⟩, hport⟩ := hvia
    have hd : OpStart s.dev { s.dev with bus := .ok } := ⟨rfl, rfl, rfl, rfl, .of_regs rfl⟩
    have hop := Dev.portOp_operates (d := { s.dev with bus := .ok }) (now := s.now t) (op := op) (cell := cell) (arg := arg) (rsvd := rsvd) hport hidle
    refine ⟨_, _, _, hd.trans (Dev.portPending_start _ (s.now t) n), rfl, Eq.trans ?_ (congrArg (fun e => Host.Outcome.next { s with dt := s.now t, dev := e }) hop)⟩
    unfold cellCommand
    dsimp only
    rw [State.regAccess_reaches hhit, if_pos hn, Nat.mod_eq_of_lt hcell, Nat.mod_eq_of_lt harg]
  | stage c dl =>
    simp only [viaCtx, Option.ite_none_right_eq_some] at hvia
    obtain ⟨hruns, hc⟩ := hvia
    cases hc
    refine ⟨(s.dev.draw (0x1000 + ctx) (s.now t)).2, (s.dev.draw (0x1000 + ctx) (s.now t)).1, dl, .draw .., rfl, ?_⟩
    unfold cellCommand
    dsimp only
    rw [State.run_eq, if_pos hruns, Nat.mod_eq_of_lt harg]
    rfl

section

variable {d d0 : Dev} (h : OpStart d d0)

include h

theorem OpStart.ctx? (c : Nat) : d0.ctx? c = d.ctx? c := by
  unfold Dev.ctx?
  rw [h.fab]

theorem OpStart.holds (c : Nat) : d0.holds c = d.holds c := Dev.holds_of_ctxs (by rw [h.fab]) c

theorem OpStart.cellCount (n : Nat) : d0.cellCount n = d.cellCount n := Dev.cellCount_of_cells h.cells n

theorem OpStart.ctxClass (c : Nat) : d0.ctxClass c = d.ctxClass c := Dev.f_of_rd (h.regs.rd _ (by simp)) _

theorem OpStart.lapsed (now : Nat) (w : Waiter) : d0.lapsed now w = d.lapsed now w := by
  unfold Dev.lapsed
  rw [h.waits]

/-- The checks of an operation do not see its start (R110). -/
theorem OpStart.cellFail (ctx op n arg rsvd : Nat) : d0.cellFail ctx op n arg rsvd = d.cellFail ctx op n arg rsvd := by
  unfold Dev.cellFail Dev.mayOperate
  simp only [h.ctx?, h.ctxClass, h.cells]

end

/-! ### O22: a refused operation -/

theorem exec_cellInstr {op : Nat} (h1 : 1 ≤ op) (h2 : op ≤ 10) (t : Nat) (via : CellVia) (cell arg rsvd : Nat) (s : State) :
    exec (cellInstr op t via cell arg rsvd) s = cellCommand t via op cell arg rsvd s := by
  interval_cases op <;> rfl

theorem Dev.cellOp_refused {d : Dev} {now : Nat} {who : CellWho} {ctx op n arg rsvd dl : Nat} {k : Key} {st : Status} (h : d.cellFail ctx op n arg rsvd = some st) :
    d.cellOp now who ctx op n arg rsvd dl k = d.cellDone who st (d.cellCount n) := by
  unfold Dev.cellOp
  rw [h]

/-- Settles O22: the operation is refused at its start, which changes no cell. -/
theorem refusedCellOperations : Obligations.RefusedCellOperations := by
  intro s t op ctx cell arg rsvd via st h1 h2 hvia hcell harg hcount hfail
  obtain ⟨d0, k, dl, h0, -, hexec⟩ := cellCommand_operates (op := op) rsvd hvia hcell harg
  have hfail' : d0.cellFail ctx op cell arg (CellVia.rsvd via rsvd) = some st := by
    rw [h0.cellFail, ← hfail]
    cases via <;> rfl
  refine ⟨_, (exec_cellInstr h1 h2 ..).trans hexec, ?_⟩
  dsimp only
  rw [Dev.cellOp_refused hfail', h0.cellCount]
  exact ⟨Dev.cellDone_answers _ _ _ hcount, by simp [h0.cells], by simp [h0.fab], by simp [h0.mem]⟩

/-! ### An operation whose checks pass -/

/-- The checks of an operation on a cell that its context may use: its type fits, it may wait where it waits, and there is an ARG only where it takes one (R107, R108). -/
theorem Dev.cellFail_none {d : Dev} {ctx op n arg : Nat} {x : Cell} (hx : tget d.cells n = some x) (huse : d.mayOperate x ctx = true) (hb : x.broken = false) (h1 : 1 ≤ op)
    (h2 : op ≤ 10) (harg : arg = 0 ∨ opHasArg op = true) (hwait : opWaits op = false ∨ d.ctxClass ctx ≠ 0 ∨ d.ctxClass x.owner < 2)
    (htype : opType op = none ∨ opType op = some x.type) : d.cellFail ctx op n arg 0 = none := by
  unfold Dev.cellFail
  have hclass : (opWaits op && d.ctxClass ctx == 0 && decide (2 ≤ d.ctxClass x.owner)) = false := by
    rcases hwait with h | h | h <;> simp [h]
  have hno : ¬ (op = 0 ∨ 10 < op) := by omega
  have hrsvd : ¬ ((0 : Nat) ≠ 0 ∨ (arg ≠ 0 ∧ opHasArg op = false)) := by
    rcases harg with h | h <;> simp [h]
  simp only [hx, Option.elim, huse, hb, hclass, htype, hno, hrsvd]
  simp

theorem Dev.cellOp_runs {d : Dev} {now : Nat} {who : CellWho} {ctx op n arg rsvd dl : Nat} {k : Key} {x : Cell} (h : d.cellFail ctx op n arg rsvd = none)
    (hx : tget d.cells n = some x) : d.cellOp now who ctx op n arg rsvd dl k = d.cellRun now who ctx op n arg dl k x := by
  unfold Dev.cellOp
  rw [h, hx]

/-- A context's operation on a cell it uses answers with the effect of the operation (R108). -/
theorem cell_answers {s : State} {t ctx op cell arg : Nat} {via : CellVia} {x : Cell} {P : State → Prop} (hu : uses s t via ctx cell x) (h1 : 1 ≤ op) (h2 : op ≤ 10)
    (harg : arg < 2 ^ 32) (hhas : arg = 0 ∨ opHasArg op = true) (hwait : opWaits op = false ∨ waitsOk s ctx x) (htype : opType op = none ∨ opType op = some x.type)
    (hP : ∀ (d0 : Dev) (k : Key) (dl : Nat), OpStart s.dev d0 → k.dt = s.now t → tget d0.cells cell = some x →
      P { s with dt := s.now t, dev := d0.cellRun (s.now t) (CellVia.who via) ctx op cell arg dl k x }) : Answers (cellInstr op t via cell arg 0) s P := by
  obtain ⟨hvia, hcell, hx, hmay, hb⟩ := hu
  obtain ⟨d0, k, dl, h0, hk, hexec⟩ := cellCommand_operates (op := op) 0 hvia hcell harg
  have hx0 : tget d0.cells cell = some x := by rw [h0.cells, hx]
  have hrsvd : CellVia.rsvd via 0 = 0 := by cases via <;> rfl
  have hpass : d0.cellFail ctx op cell arg (CellVia.rsvd via 0) = none := by
    rw [hrsvd, h0.cellFail]
    exact Dev.cellFail_none hx hmay hb h1 h2 hhas hwait htype
  rw [Dev.cellOp_runs hpass hx0] at hexec
  exact ⟨_, (exec_cellInstr h1 h2 ..).trans hexec, hP d0 k dl h0 hk hx0⟩

/-! ### What an operation leaves of the other cells -/

/-- Between two states of a device only one cell is written, and no memory. -/
structure OneCell (n : Nat) (d e : Dev) : Prop where
  cells : ∀ j, j ≠ n → tget e.cells j = tget d.cells j
  mem : e.mem = d.mem

namespace OneCell

variable {n : Nat} {d e f : Dev}

theorem trans (a : OneCell n d e) (b : OneCell n e f) : OneCell n d f := ⟨fun j h => (b.cells j h).trans (a.cells j h), b.mem.trans a.mem⟩

theorem of_eq (hc : e.cells = d.cells) (hm : e.mem = d.mem) : OneCell n d e := ⟨fun j _ => by rw [hc], hm⟩

theorem of_start (h : OpStart d e) : OneCell n d e := of_eq h.cells h.mem

theorem of_tmod {g : Cell → Cell} (hc : e.cells = tmod d.cells n g) (hm : e.mem = d.mem) : OneCell n d e :=
  ⟨fun j h => by rw [hc, tget_tmod, if_neg h], hm⟩

theorem setCell (x : Cell) : OneCell n d (d.setCell n x) := ⟨fun _ h => tget_tset_ne h, rfl⟩

theorem of_fabRegs (h : FabRegs d e) : OneCell n d e := of_eq h.cells h.mem

theorem cellDone (who : CellWho) (st : Status) (v : Nat) : OneCell n d (d.cellDone who st v) := of_eq (by simp) (by simp)

theorem foldl {α : Type} {g : Dev → α → Dev} (h : ∀ d a, OneCell n d (g d a)) (l : List α) (d : Dev) : OneCell n d (l.foldl g d) := by
  induction l generalizing d with
  | nil => exact of_eq rfl rfl
  | cons a l ih => exact (h d a).trans (ih _)

theorem kept (h : OneCell n d e) : otherCellsKept d e n := ⟨h.cells, fun a => by rw [h.mem]⟩

end OneCell

theorem Dev.cellCount_of_tget {d : Dev} {n : Nat} {x : Cell} (h : tget d.cells n = some x) : d.cellCount n = x.count := by
  unfold Dev.cellCount
  rw [h]

/-- An operation that completes with OK and the count of its cell, after an effect that writes this cell alone. -/
theorem Dev.done_ok {old d : Dev} {n : Nat} {x : Cell} (via : CellVia) (hx : tget d.cells n = some x) (hlt : x.count < 2 ^ 32) (hone : OneCell n old d) :
    cellAnswer (d.cellDone (CellVia.who via) .ok (d.cellCount n)) via .ok x.count ∧ tget (d.cellDone (CellVia.who via) .ok (d.cellCount n)).cells n = some x ∧
      otherCellsKept old (d.cellDone (CellVia.who via) .ok (d.cellCount n)) n := by
  rw [Dev.cellCount_of_tget hx]
  exact ⟨Dev.cellDone_answers _ _ _ hlt, by rw [Dev.cellDone_cells, hx], (hone.trans (.cellDone ..)).kept⟩

/-! ### Taking a unit -/

theorem Dev.takeUnit_cell {d : Dev} {n c : Nat} {k : Key} {x : Cell} (h : tget d.cells n = some x) : tget (d.takeUnit n c k).cells n = some { x with count := x.count - 1 } := by
  unfold Dev.takeUnit
  rw [Dev.setHolds_cells, tget_tmod, if_pos rfl, h]
  rfl

theorem Dev.takeUnit_oneCell (d : Dev) (n c : Nat) (k : Key) : OneCell n d (d.takeUnit n c k) :=
  .of_tmod (g := fun x => { x with count := x.count - 1 }) rfl rfl

/-- The unit's key goes to the end of the context's hold table (R111). -/
theorem Dev.takeUnit_holds {d : Dev} {c : Nat} (h : (d.ctx? c).isSome = true) (n : Nat) (k : Key) : (d.takeUnit n c k).holds c = d.holds c ++ [(n, k)] := by
  unfold Dev.takeUnit
  exact Dev.holds_setHolds (d := { d with cells := tmod d.cells n fun x => { x with count := x.count - 1 } }) h _

theorem Dev.cellRun_takes {d : Dev} {now : Nat} {who : CellWho} {ctx op n arg dl : Nat} {k : Key} {x : Cell} (hop : op = 1 ∨ op = 2) (hroom : (d.holds ctx).length < 16)
    (hfree : 0 < x.count) : d.cellRun now who ctx op n arg dl k x = (d.takeUnit n ctx k).cellDone who .ok ((d.takeUnit n ctx k).cellCount n) := by
  unfold Dev.cellRun
  rw [if_pos hop, if_neg (by omega), if_pos hfree]

/-- ACQUIRE and TRY_ACQUIRE of a free unit take it (R108, R111). -/
theorem acquire_takes {s : State} {t ctx op cell : Nat} {via : CellVia} {x : Cell} (hop : op = 1 ∨ op = 2) (hu : uses s t via ctx cell x) (hwait : opWaits op = false ∨ waitsOk s ctx x)
    (htype : x.type = 0) (hcount : x.count < 2 ^ 32) (hctx : (s.dev.ctx? ctx).isSome = true) (hroom : (s.dev.holds ctx).length < 16) (hfree : 0 < x.count) :
    Answers (cellInstr op t via cell 0 0) s fun s' => cellAnswer s'.dev via .ok (x.count - 1) ∧ tget s'.dev.cells cell = some { x with count := x.count - 1 } ∧
      (∃ k : Key, k.dt = s.now t ∧ s'.dev.holds ctx = s.dev.holds ctx ++ [(cell, k)]) ∧ otherCellsKept s.dev s'.dev cell := by
  have htype' : opType op = some x.type := by rcases hop with rfl | rfl <;> rw [htype] <;> rfl
  refine cell_answers hu (by omega) (by omega) (by decide) (.inl rfl) hwait (.inr htype') fun d0 k dl h0 hk hx => ?_
  dsimp only
  rw [Dev.cellRun_takes hop (by rwa [h0.holds]) hfree]
  obtain ⟨hans, hcell, hkept⟩ := Dev.done_ok via (Dev.takeUnit_cell (c := ctx) (k := k) hx) (by dsimp only; omega) ((OneCell.of_start h0).trans (Dev.takeUnit_oneCell ..))
  refine ⟨hans, hcell, ⟨k, hk, ?_⟩, hkept⟩
  rw [Dev.holds_cellDone, Dev.takeUnit_holds (by rwa [h0.ctx?]), h0.holds]

theorem tryAcquire_busy {s : State} {t ctx cell : Nat} {via : CellVia} {x : Cell} (hu : uses s t via ctx cell x) (htype : x.type = 0) (hroom : (s.dev.holds ctx).length < 16)
    (hnone : x.count = 0) : Answers (.tryAcquire t via cell 0 0) s fun s' =>
      cellAnswer s'.dev via .busy 0 ∧ s'.dev.cells = s.dev.cells ∧ s'.dev.fab = s.dev.fab ∧ s'.dev.mem = s.dev.mem := by
  refine cell_answers (op := 2) hu (by decide) (by decide) (by decide) (.inl rfl) (.inl rfl) (.inr (by rw [htype]; rfl)) fun d0 k dl h0 _ _ => ?_
  have hrun : d0.cellRun (s.now t) (CellVia.who via) ctx 2 cell 0 dl k x = d0.cellDone (CellVia.who via) .busy 0 := by
    unfold Dev.cellRun
    rw [if_pos (.inr rfl), if_neg (by rw [h0.holds]; omega), hnone]
    rfl
  dsimp only
  rw [hrun]
  exact ⟨Dev.cellDone_answers _ _ _ (by decide), by simp [h0.cells], by simp [h0.fab], by simp [h0.mem]⟩

/-! ### Waiting -/

theorem mem_insertWaiter (w : Waiter) (l : List Waiter) : w ∈ insertWaiter w l := by
  induction l with
  | nil => simp [insertWaiter]
  | cons x rest ih =>
    unfold insertWaiter
    split
    · simp
    · simp [ih]

/-- An operation that waits is in the cell's queue, with its context and operation (R109). -/
theorem Dev.enqueue_cells (d : Dev) (now n : Nat) (who : CellWho) (ctx op arg dl : Nat) (k : Key) :
    ∃ w : Waiter, w.ctx = ctx ∧ w.op = op ∧ (d.enqueue now n who ctx op arg dl k).cells = tmod d.cells n fun x => { x with waiters := insertWaiter w x.waiters } := by
  unfold Dev.enqueue
  extract_lets q p w
  have hp : p.2.cells = d.cells := by
    dsimp only [p]
    split <;> rfl
  exact ⟨w, rfl, rfl, congrArg (fun l : Tbl Cell => tmod l n fun x => { x with waiters := insertWaiter w x.waiters }) hp⟩

theorem Dev.enqueue_mem (d : Dev) (now n : Nat) (who : CellWho) (ctx op arg dl : Nat) (k : Key) : (d.enqueue now n who ctx op arg dl k).mem = d.mem := by
  unfold Dev.enqueue
  extract_lets q p w
  show p.2.mem = d.mem
  dsimp only [p]
  split <;> rfl

theorem Dev.enqueue_oneCell (d : Dev) (now n : Nat) (who : CellWho) (ctx op arg dl : Nat) (k : Key) : OneCell n d (d.enqueue now n who ctx op arg dl k) := by
  obtain ⟨w, -, -, hc⟩ := d.enqueue_cells now n who ctx op arg dl k
  exact .of_tmod hc (d.enqueue_mem ..)

/-- What waiting leaves of the cell it waits on: its count, and the waiter in its queue. -/
theorem Dev.enqueue_waits {d : Dev} {n : Nat} {x : Cell} (hx : tget d.cells n = some x) (now : Nat) (who : CellWho) (ctx op arg dl : Nat) (k : Key) :
    waitsIn (d.enqueue now n who ctx op arg dl k) n ctx op ∧ (d.enqueue now n who ctx op arg dl k).cellCount n = x.count := by
  obtain ⟨w, hctx, hop, hc⟩ := d.enqueue_cells now n who ctx op arg dl k
  have hcell : tget (d.enqueue now n who ctx op arg dl k).cells n = some { x with waiters := insertWaiter w x.waiters } := by
    rw [hc, tget_tmod, if_pos rfl, hx]
    rfl
  exact ⟨⟨_, w, hcell, mem_insertWaiter .., hctx, hop⟩, (Dev.cellCount_of_tget hcell).trans rfl⟩

theorem waitsIn_of_cells {d e : Dev} (h : e.cells = d.cells) {n ctx op : Nat} (hw : waitsIn d n ctx op) : waitsIn e n ctx op := by
  unfold waitsIn at hw ⊢
  rwa [h]

theorem acquire_waits {s : State} {t ctx cell : Nat} {via : CellVia} {x : Cell} (hu : uses s t via ctx cell x) (hwait : waitsOk s ctx x) (htype : x.type = 0)
    (hroom : (s.dev.holds ctx).length < 16) (hnone : x.count = 0) : Answers (.acquire t via cell 0 0) s fun s' =>
      waitsIn s'.dev cell ctx 1 ∧ s'.dev.cellCount cell = 0 ∧ otherCellsKept s.dev s'.dev cell := by
  refine cell_answers (op := 1) hu (by decide) (by decide) (by decide) (.inl rfl) (.inr hwait) (.inr (by rw [htype]; rfl)) fun d0 k dl h0 _ hx => ?_
  have hrun : d0.cellRun (s.now t) (CellVia.who via) ctx 1 cell 0 dl k x = (d0.enqueue (s.now t) cell (CellVia.who via) ctx 1 0 dl k).startCarry (s.now t) cell ctx := by
    unfold Dev.cellRun
    rw [if_pos (.inl rfl), if_neg (by rw [h0.holds]; omega), hnone]
    rfl
  dsimp only
  rw [hrun]
  obtain ⟨hin, hcount⟩ := Dev.enqueue_waits hx (s.now t) (CellVia.who via) ctx 1 0 dl k
  have hcarry := Dev.startCarry_fabRegs (d0.enqueue (s.now t) cell (CellVia.who via) ctx 1 0 dl k) (s.now t) cell ctx
  exact ⟨waitsIn_of_cells hcarry.cells hin, ((Dev.cellCount_of_cells hcarry.cells cell).trans hcount).trans hnone,
    (((OneCell.of_start h0).trans (Dev.enqueue_oneCell ..)).trans (.of_fabRegs hcarry)).kept⟩


/-! ### A waiter completes -/

theorem Dev.endCellWait_eq (d : Dev) (id : Option Nat) (arrived : Bool) : ∃ cnt waits, d.endCellWait id arrived = { d with cnt := cnt, waits := waits } := by
  unfold Dev.endCellWait
  split
  · exact ⟨d.cnt, d.waits, rfl⟩
  · split
    · split
      · exact ⟨_, _, rfl⟩
      · exact ⟨_, _, rfl⟩
    · exact ⟨d.cnt, d.waits, rfl⟩

theorem Dev.holds_syncBlocked (d : Dev) (now c k : Nat) : (d.syncBlocked now c).holds k = d.holds k :=
  Dev.holds_of_tmod (k := c) (f := fun x => { x with blocked := d.stageWaits c, lastChange := if x.blocked && !d.stageWaits c then now else x.lastChange }) rfl (fun _ => rfl) k

/-- A waiter that completes leaves the cells, memory and the hold tables (R48, R110). -/
structure WaiterKeeps (d e : Dev) : Prop where
  cells : e.cells = d.cells
  mem : e.mem = d.mem
  holds : ∀ c, e.holds c = d.holds c

theorem Dev.waiterDone_keeps (d : Dev) (now : Nat) (w : Waiter) (st : Status) (v : Nat) : WaiterKeeps d (d.waiterDone now w st v) := by
  obtain ⟨cnt, waits, hend⟩ := d.endCellWait_eq w.wait (st != .expired)
  unfold Dev.waiterDone
  rw [hend]
  extract_lets d1
  have h1 : WaiterKeeps d d1 := by
    exact ⟨Dev.cellDone_cells .., Dev.cellDone_mem .., fun c => (Dev.holds_syncBlocked ..).trans (Dev.holds_cellDone ..)⟩
  clear_value d1
  split
  · exact ⟨(Dev.raise_cells ..).trans h1.cells, (Dev.raise_mem ..).trans h1.mem, fun c => (Dev.holds_of_ctxs (by rw [Dev.raise_fab]) c).trans (h1.holds c)⟩
  · exact h1

theorem Dev.unqueue_cells (d : Dev) (n : Nat) (w : Waiter) : (d.unqueue n w).cells = tmod d.cells n fun x => { x with waiters := x.waiters.filter (· != w) } :=
  (Dev.endCarry_fabRegs ..).cells

theorem Dev.unqueue_mem (d : Dev) (n : Nat) (w : Waiter) : (d.unqueue n w).mem = d.mem := (d.unqueue_quiet n w).mem

theorem Dev.unqueue_ctxs (d : Dev) (n : Nat) (w : Waiter) : (d.unqueue n w).fab.ctxs = d.fab.ctxs := Dev.endCarry_ctxs ..

/-- A waiter leaves its queue and completes. -/
theorem Dev.unqueue_done_oneCell (d : Dev) (now n : Nat) (w : Waiter) (st : Status) (v : Nat) : OneCell n d ((d.unqueue n w).waiterDone now w st v) := by
  have hk := (d.unqueue n w).waiterDone_keeps now w st v
  exact .of_tmod (hk.cells.trans (d.unqueue_cells n w)) (hk.mem.trans (d.unqueue_mem n w))

theorem Dev.unqueue_done_cell {d : Dev} {n : Nat} {x : Cell} (hx : tget d.cells n = some x) (now : Nat) (w : Waiter) (st : Status) (v : Nat) :
    tget ((d.unqueue n w).waiterDone now w st v).cells n = some { x with waiters := x.waiters.filter (· != w) } := by
  rw [((d.unqueue n w).waiterDone_keeps now w st v).cells, Dev.unqueue_cells, tget_tmod, if_pos rfl, hx]
  rfl

/-- One waiter of a list of waiters that complete (R108, R109). -/
def Dev.completeOne (now n : Nat) (st : Status) (d : Dev) (w : Waiter) : Dev := (d.unqueue n w).waiterDone now w (if d.lapsed now w then .expired else st) (d.cellCount n)

/-- The waiters that complete are those out of the queue. -/
theorem Dev.foldl_completeOne_cell (now n : Nat) (st : Status) (ws : List Waiter) {d : Dev} {x : Cell} (hx : tget d.cells n = some x) :
    tget (ws.foldl (Dev.completeOne now n st) d).cells n = some { x with waiters := x.waiters.filter fun w => !ws.contains w } := by
  induction ws generalizing d x with
  | nil => simp [hx]
  | cons w ws ih =>
    have hw : tget (Dev.completeOne now n st d w).cells n = some { x with waiters := x.waiters.filter (· != w) } := Dev.unqueue_done_cell hx ..
    rw [List.foldl_cons, ih hw]
    dsimp only
    rw [List.filter_filter]
    congr 2
    refine List.filter_congr fun y _ => ?_
    rw [List.contains_cons, Bool.not_or, Bool.and_comm]
    rfl

theorem Dev.completeWaiters_eq {d : Dev} {n : Nat} {x : Cell} (hx : tget d.cells n = some x) (now : Nat) (p : Waiter → Bool) (st : Status) :
    d.completeWaiters now n p st = (x.waiters.filter p).foldl (Dev.completeOne now n st) d := by
  unfold Dev.completeWaiters
  rw [hx]
  rfl

/-- Completing the waiters that pass a test takes just these out of the queue (R108, R109). -/
theorem Dev.completeWaiters_cell {d : Dev} {n : Nat} {x : Cell} (hx : tget d.cells n = some x) (now : Nat) (p : Waiter → Bool) (st : Status) :
    tget (d.completeWaiters now n p st).cells n = some { x with waiters := x.waiters.filter fun w => !p w } := by
  rw [Dev.completeWaiters_eq hx, Dev.foldl_completeOne_cell now n st _ hx]
  congr 2
  refine List.filter_congr fun w hw => ?_
  cases hp : p w <;> simp [hp, hw]

theorem Dev.completeWaiters_oneCell (d : Dev) (now n : Nat) (p : Waiter → Bool) (st : Status) : OneCell n d (d.completeWaiters now n p st) := by
  cases hx : tget d.cells n with
  | none => unfold Dev.completeWaiters; rw [hx]; exact .of_eq rfl rfl
  | some x =>
    rw [Dev.completeWaiters_eq hx]
    exact .foldl (fun d w => d.unqueue_done_oneCell ..) _ d

/-! ### Releasing a unit -/

theorem FabRegs.waits {d e : Dev} (h : FabRegs d e) : e.waits = d.waits := by rw [h]

/-- A unit returned to its semaphore, carry on the cell ended, before it goes to a waiter (R108, R114). -/
def Dev.returnUnit (d : Dev) (n ctx : Nat) (x : Cell) (e : Nat × Key) : Dev :=
  ((d.setHolds ctx ((d.holds ctx).erase e)).setCell n { x with count := min x.target (x.count + 1) }).endCarry fun y => y.cell == n && y.holder == ctx

theorem Dev.returnUnit_cells (d : Dev) (n ctx : Nat) (x : Cell) (e : Nat × Key) : (d.returnUnit n ctx x e).cells = tset d.cells n { x with count := min x.target (x.count + 1) } :=
  (Dev.endCarry_fabRegs ..).cells

theorem Dev.returnUnit_oneCell (d : Dev) (n ctx : Nat) (x : Cell) (e : Nat × Key) : OneCell n d (d.returnUnit n ctx x e) :=
  ⟨fun j h => by rw [Dev.returnUnit_cells, tget_tset_ne h], (Dev.endCarry_fabRegs ..).mem⟩

theorem Dev.returnUnit_ctxs (d : Dev) (n ctx : Nat) (x : Cell) (e : Nat × Key) : (d.returnUnit n ctx x e).fab.ctxs = (d.setHolds ctx ((d.holds ctx).erase e)).fab.ctxs :=
  Dev.endCarry_ctxs ..

/-- RELEASE by a holder gives its earliest unit back and then to the waiters (R108, R109). -/
theorem Dev.cellRun_releases {d : Dev} {n ctx : Nat} (hk : ∃ k, (n, k) ∈ d.holds ctx) (now : Nat) (who : CellWho) (arg dl : Nat) (k : Key) (x : Cell) :
    ∃ e ∈ d.holds ctx, d.cellRun now who ctx 3 n arg dl k x =
      ((d.returnUnit n ctx x e).grantUnits now n x.waiters.length).cellDone who .ok (((d.returnUnit n ctx x e).grantUnits now n x.waiters.length).cellCount n) := by
  obtain ⟨key, hmem⟩ := hk
  have hany : ((d.holds ctx).any fun e => e.1 == n) = true := List.any_eq_true.mpr ⟨_, hmem, by simp⟩
  cases hfind : (d.holds ctx).find? fun e => e.1 == n with
  | none => exact absurd (List.find?_eq_none.mp hfind _ hmem) (by simp)
  | some e =>
    have hunit : d.releaseUnit now n ctx x = (d.returnUnit n ctx x e).grantUnits now n x.waiters.length := by
      unfold Dev.releaseUnit
      dsimp only
      rw [hfind]
      rfl
    refine ⟨e, List.mem_of_find?_eq_some hfind, ?_⟩
    rw [← hunit]
    unfold Dev.cellRun
    rw [if_neg (by decide), if_pos rfl, if_pos hany]

theorem cellRelease_returns {s : State} {t ctx cell : Nat} {via : CellVia} {x : Cell} (hu : uses s t via ctx cell x) (htype : x.type = 0) (hcount : x.count < x.target)
    (htarget : x.target < 2 ^ 32) (hw : x.waiters = []) (hk : ∃ k, (cell, k) ∈ s.dev.holds ctx) : Answers (.cellRelease t via cell 0 0) s fun s' =>
      cellAnswer s'.dev via .ok (x.count + 1) ∧ tget s'.dev.cells cell = some { x with count := x.count + 1 } ∧ (s'.dev.holds ctx).length + 1 = (s.dev.holds ctx).length ∧
      otherCellsKept s.dev s'.dev cell := by
  refine cell_answers (op := 3) hu (by decide) (by decide) (by decide) (.inl rfl) (.inl rfl) (.inr (by rw [htype]; rfl)) fun d0 k dl h0 _ _ => ?_
  obtain ⟨e, he, hrun⟩ := Dev.cellRun_releases (d := d0) (by rwa [h0.holds]) (s.now t) (CellVia.who via) 0 dl k x
  have hcell : tget (d0.returnUnit cell ctx x e).cells cell = some { x with count := x.count + 1 } := by
    rw [Dev.returnUnit_cells, tget_tset, min_eq_right (by omega)]
  have hholds : (d0.returnUnit cell ctx x e).holds ctx = (d0.holds ctx).erase e :=
    (Dev.holds_of_ctxs (Dev.returnUnit_ctxs ..) ctx).trans (Dev.holds_setHolds (Dev.ctx?_isSome_of_holds he) _)
  have hone := (OneCell.of_start h0).trans (Dev.returnUnit_oneCell d0 cell ctx x e)
  rw [hw] at hrun
  rw [hrun]
  change cellAnswer ((d0.returnUnit cell ctx x e).cellDone _ _ ((d0.returnUnit cell ctx x e).cellCount cell)) _ _ _ ∧ _
  obtain ⟨hans, hcell', hkept⟩ := Dev.done_ok via hcell (by dsimp only; omega) hone
  refine ⟨hans, hcell', ?_, hkept⟩
  have hlen : (d0.holds ctx).length ≠ 0 := by simpa using List.ne_nil_of_mem he
  refine (congrArg (·.length + 1) ((Dev.holds_cellDone ..).trans hholds)).trans ?_
  rw [List.length_erase_of_mem he, ← h0.holds]
  omega

/-- What a free unit leaves that went to the only waiter, which is in time and has room in its hold table (R109, R111). -/
structure Granted (d e : Dev) (n : Nat) (x : Cell) (w : Waiter) : Prop where
  cell : tget e.cells n = some { x with count := x.count - 1, waiters := [] }
  holds : e.holds w.ctx = d.holds w.ctx ++ [(n, w.key)]
  one : OneCell n d e

theorem Dev.grantUnits_one {d : Dev} {now n : Nat} {x : Cell} {w : Waiter} (hx : tget d.cells n = some x) (hw : x.waiters = [w]) (hc : x.count ≠ 0) (hl : d.lapsed now w = false)
    (hctx : (d.ctx? w.ctx).isSome = true) (hh : (d.holds w.ctx).length < 16) : Granted d (d.grantUnits now n 1) n x w := by
  have hgrant : d.grantUnits now n 1 = ((d.unqueue n w).takeUnit n w.ctx w.key).waiterDone now w .ok (((d.unqueue n w).takeUnit n w.ctx w.key).cellCount n) := by
    simp only [Dev.grantUnits, hx, hw, hl]
    rw [if_neg hc, if_neg (by simp), if_neg (by omega)]
  have hq : tget (d.unqueue n w).cells n = some { x with waiters := [] } := by
    rw [Dev.unqueue_cells, tget_tmod, if_pos rfl, hx]
    simp [hw]
  have hqSome : ((d.unqueue n w).ctx? w.ctx).isSome = true := by
    unfold Dev.ctx? at hctx ⊢
    rwa [Dev.unqueue_ctxs]
  have hdone := Dev.waiterDone_keeps ((d.unqueue n w).takeUnit n w.ctx w.key) now w .ok (((d.unqueue n w).takeUnit n w.ctx w.key).cellCount n)
  rw [← hgrant] at hdone
  refine ⟨hdone.cells ▸ Dev.takeUnit_cell hq, ?_, ?_⟩
  · rw [hdone.holds, Dev.takeUnit_holds hqSome, Dev.holds_of_ctxs (Dev.unqueue_ctxs ..)]
  · exact (OneCell.of_tmod (d.unqueue_cells n w) (d.unqueue_mem n w)).trans ((Dev.takeUnit_oneCell ..).trans (.of_eq hdone.cells hdone.mem))

theorem Dev.returnUnit_lapsed (d : Dev) (n ctx : Nat) (x : Cell) (e : Nat × Key) (now : Nat) (w : Waiter) : (d.returnUnit n ctx x e).lapsed now w = d.lapsed now w := by
  unfold Dev.lapsed
  rw [show (d.returnUnit n ctx x e).waits = d.waits from (Dev.endCarry_fabRegs ..).waits]

theorem cellRelease_passes {s : State} {t ctx cell : Nat} {via : CellVia} {x : Cell} {w : Waiter} (hu : uses s t via ctx cell x) (htype : x.type = 0) (hcount : x.count = 0)
    (htarget : 0 < x.target) (hw : x.waiters = [w]) (hk : ∃ k, (cell, k) ∈ s.dev.holds ctx) (hne : w.ctx ≠ ctx) (hctx : (s.dev.ctx? w.ctx).isSome = true)
    (hroom : (s.dev.holds w.ctx).length < 16) (hl : s.dev.lapsed (s.now t) w = false) : Answers (.cellRelease t via cell 0 0) s fun s' =>
      cellAnswer s'.dev via .ok 0 ∧ tget s'.dev.cells cell = some { x with waiters := [] } ∧ s'.dev.holds w.ctx = s.dev.holds w.ctx ++ [(cell, w.key)] ∧
      otherCellsKept s.dev s'.dev cell := by
  refine cell_answers (op := 3) hu (by decide) (by decide) (by decide) (.inl rfl) (.inl rfl) (.inr (by rw [htype]; rfl)) fun d0 k dl h0 _ _ => ?_
  obtain ⟨e, he, hrun⟩ := Dev.cellRun_releases (d := d0) (by rwa [h0.holds]) (s.now t) (CellVia.who via) 0 dl k x
  have hcell : tget (d0.returnUnit cell ctx x e).cells cell = some { x with count := 1 } := by
    rw [Dev.returnUnit_cells, tget_tset, hcount, min_eq_right (by omega)]
  have hholds : (d0.returnUnit cell ctx x e).holds w.ctx = s.dev.holds w.ctx :=
    (Dev.holds_of_ctxs (Dev.returnUnit_ctxs ..) _).trans ((Dev.holds_setHolds_ne hne _).trans (h0.holds _))
  have hsome : ((d0.returnUnit cell ctx x e).ctx? w.ctx).isSome = true := by
    unfold Dev.ctx?
    rw [Dev.returnUnit_ctxs]
    exact (Dev.ctx?_setHolds_isSome ..).trans (by rwa [h0.ctx?])
  have hgrant := Dev.grantUnits_one hcell hw (by simp) (by rw [Dev.returnUnit_lapsed, h0.lapsed, hl]) hsome (by rwa [hholds])
  have hone := (OneCell.of_start h0).trans (Dev.returnUnit_oneCell d0 cell ctx x e)
  generalize d0.returnUnit cell ctx x e = d1 at hrun hcell hholds hgrant hone
  rw [hw] at hrun
  change d0.cellRun _ _ _ _ _ _ _ _ _ = (d1.grantUnits (s.now t) cell 1).cellDone _ _ ((d1.grantUnits (s.now t) cell 1).cellCount cell) at hrun
  have hfree : tget (d1.grantUnits (s.now t) cell 1).cells cell = some { x with waiters := [] } := by
    obtain ⟨type, broken, owner, ceiling, count, target, hold, phase, users, session, waiters, creator, flagKey⟩ := x
    cases hcount
    exact hgrant.cell
  obtain ⟨hans, hcell', hkept⟩ := Dev.done_ok via hfree (by dsimp only; omega) (hone.trans hgrant.one)
  rw [hrun]
  refine ⟨?_, hcell', ?_, hkept⟩
  · rw [← hcount]
    exact hans
  · rw [Dev.holds_cellDone, hgrant.holds, hholds]

theorem cellRelease_denied {s : State} {t ctx cell : Nat} {via : CellVia} {x : Cell} (hu : uses s t via ctx cell x) (htype : x.type = 0) (hcount : x.count < 2 ^ 32)
    (hk : ∀ k, (cell, k) ∉ s.dev.holds ctx) : Answers (.cellRelease t via cell 0 0) s fun s' =>
      cellAnswer s'.dev via .denied x.count ∧ s'.dev.cells = s.dev.cells ∧ s'.dev.fab = s.dev.fab ∧ s'.dev.mem = s.dev.mem := by
  refine cell_answers (op := 3) hu (by decide) (by decide) (by decide) (.inl rfl) (.inl rfl) (.inr (by rw [htype]; rfl)) fun d0 k dl h0 _ _ => ?_
  have hany : ¬ ((d0.holds ctx).any fun e => e.1 == cell) = true := by
    rw [h0.holds, List.any_eq_true]
    rintro ⟨⟨n, key⟩, hmem, hn⟩
    simp only [beq_iff_eq] at hn
    exact hk key (hn ▸ hmem)
  have hrun : d0.cellRun (s.now t) (CellVia.who via) ctx 3 cell 0 dl k x = d0.cellDone (CellVia.who via) .denied x.count := by
    unfold Dev.cellRun
    rw [if_neg (by decide), if_pos rfl, if_neg hany]
  dsimp only
  rw [hrun]
  exact ⟨Dev.cellDone_answers _ _ _ hcount, by simp [h0.cells], by simp [h0.fab], by simp [h0.mem]⟩

/-- Settles O23: a clause each for a free and for no unit at ACQUIRE and TRY_ACQUIRE, for a RELEASE without and with a waiter, and for one by no holder. -/
theorem semaphoreOperations : Obligations.SemaphoreOperations := by
  unfold Obligations.SemaphoreOperations
  refine ⟨?_, ?_, ?_, ?_, ?_, ?_, ?_⟩
  · intro s t ctx cell via x hu hwait
    exact acquire_takes (op := 1) (.inl rfl) hu (.inr hwait)
  · intro s t ctx cell via x
    exact acquire_waits
  · intro s t ctx cell via x hu
    exact acquire_takes (op := 2) (.inr rfl) hu (.inl rfl)
  · intro s t ctx cell via x
    exact tryAcquire_busy
  · intro s t ctx cell via x
    exact cellRelease_returns
  · intro s t ctx cell via x w
    exact cellRelease_passes
  · intro s t ctx cell via x
    exact cellRelease_denied


/-! ### O24: barriers -/

theorem Dev.arriveAt_counts {d : Dev} {n : Nat} {x : Cell} (h : x.count + 1 < x.target) (now : Nat) : d.arriveAt now n x = d.setCell n { x with count := x.count + 1 } := by
  unfold Dev.arriveAt
  rw [if_neg (by omega)]

theorem Dev.arriveAt_completes {d : Dev} {n : Nat} {x : Cell} (h : x.target ≤ x.count + 1) (now : Nat) :
    d.arriveAt now n x = (d.setCell n { x with count := 0, phase := !x.phase }).completeWaiters now n (fun _ => true) .ok := by
  unfold Dev.arriveAt
  rw [if_pos h]

/-- The arrival that reaches TARGET releases every waiter and toggles PHASE (R108). -/
theorem Dev.arriveAt_cell {d : Dev} {n : Nat} {x : Cell} (h : x.target ≤ x.count + 1) (now : Nat) :
    tget (d.arriveAt now n x).cells n = some { x with count := 0, phase := !x.phase, waiters := [] } ∧ OneCell n d (d.arriveAt now n x) := by
  rw [Dev.arriveAt_completes h]
  refine ⟨?_, (OneCell.setCell _).trans (Dev.completeWaiters_oneCell ..)⟩
  rw [Dev.completeWaiters_cell (tget_tset ..)]
  simp

theorem Dev.cellRun_arrive (d : Dev) (now : Nat) (who : CellWho) (ctx n arg dl : Nat) (k : Key) (x : Cell) :
    d.cellRun now who ctx 4 n arg dl k x = (d.arriveAt now n x).cellDone who .ok ((d.arriveAt now n x).cellCount n) := rfl

theorem Dev.cellRun_arriveWait (d : Dev) (now : Nat) (who : CellWho) (ctx n arg dl : Nat) (k : Key) (x : Cell) :
    d.cellRun now who ctx 5 n arg dl k x =
      if x.target ≤ x.count + 1 then (d.arriveAt now n x).cellDone who .ok ((d.arriveAt now n x).cellCount n) else (d.arriveAt now n x).enqueue now n who ctx 5 arg dl k := rfl

/-- ARRIVE and ARRIVE_WAIT that reach TARGET (R108). -/
theorem arrive_completes {s : State} {t ctx op cell : Nat} {via : CellVia} {x : Cell} (hop : op = 4 ∨ op = 5) (hu : uses s t via ctx cell x) (hwait : opWaits op = false ∨ waitsOk s ctx x)
    (htype : x.type = 1) (htarget : x.target ≤ x.count + 1) : Answers (cellInstr op t via cell 0 0) s fun s' =>
      cellAnswer s'.dev via .ok 0 ∧ tget s'.dev.cells cell = some { x with count := 0, phase := !x.phase, waiters := [] } ∧ otherCellsKept s.dev s'.dev cell := by
  have htype' : opType op = some x.type := by rcases hop with rfl | rfl <;> rw [htype] <;> rfl
  refine cell_answers hu (by omega) (by omega) (by decide) (.inl rfl) hwait (.inr htype') fun d0 k dl h0 _ _ => ?_
  have hrun : d0.cellRun (s.now t) (CellVia.who via) ctx op cell 0 dl k x =
      (d0.arriveAt (s.now t) cell x).cellDone (CellVia.who via) .ok ((d0.arriveAt (s.now t) cell x).cellCount cell) := by
    rcases hop with rfl | rfl
    · rfl
    · rw [Dev.cellRun_arriveWait, if_pos htarget]
  obtain ⟨hcell, hone⟩ := d0.arriveAt_cell htarget (s.now t)
  rw [hrun]
  exact Dev.done_ok via hcell (Nat.two_pow_pos 32) ((OneCell.of_start h0).trans hone)

theorem arrive_counts {s : State} {t ctx cell : Nat} {via : CellVia} {x : Cell} (hu : uses s t via ctx cell x) (htype : x.type = 1) (hcount : x.count + 1 < x.target)
    (htarget : x.target < 2 ^ 32) : Answers (.arrive t via cell 0 0) s fun s' =>
      cellAnswer s'.dev via .ok (x.count + 1) ∧ tget s'.dev.cells cell = some { x with count := x.count + 1 } ∧ otherCellsKept s.dev s'.dev cell := by
  refine cell_answers (op := 4) hu (by decide) (by decide) (by decide) (.inl rfl) (.inl rfl) (.inr (by rw [htype]; rfl)) fun d0 k dl h0 _ _ => ?_
  rw [Dev.cellRun_arrive, Dev.arriveAt_counts hcount]
  exact Dev.done_ok (x := { x with count := x.count + 1 }) via (tget_tset ..) (hcount.trans htarget) ((OneCell.of_start h0).trans (.setCell _))

theorem arriveWait_waits {s : State} {t ctx cell : Nat} {via : CellVia} {x : Cell} (hu : uses s t via ctx cell x) (hwait : waitsOk s ctx x) (htype : x.type = 1)
    (hcount : x.count + 1 < x.target) : Answers (.arriveWait t via cell 0 0) s fun s' =>
      waitsIn s'.dev cell ctx 5 ∧ s'.dev.cellCount cell = x.count + 1 ∧ otherCellsKept s.dev s'.dev cell := by
  refine cell_answers (op := 5) hu (by decide) (by decide) (by decide) (.inl rfl) (.inr hwait) (.inr (by rw [htype]; rfl)) fun d0 k dl h0 _ _ => ?_
  rw [Dev.cellRun_arriveWait, if_neg (by omega), Dev.arriveAt_counts hcount]
  obtain ⟨hin, hin_count⟩ := Dev.enqueue_waits (d := d0.setCell cell { x with count := x.count + 1 }) (tget_tset ..) (s.now t) (CellVia.who via) ctx 5 0 dl k
  exact ⟨hin, hin_count, (((OneCell.of_start h0).trans (.setCell _)).trans (Dev.enqueue_oneCell ..)).kept⟩

/-- Settles O24: ARRIVE and ARRIVE_WAIT, each before TARGET and at it. -/
theorem barrierOperations : Obligations.BarrierOperations := by
  unfold Obligations.BarrierOperations
  refine ⟨?_, ?_, ?_, ?_⟩
  · intro s t ctx cell via x
    exact arrive_counts
  · intro s t ctx cell via x hu
    exact arrive_completes (op := 4) (.inl rfl) hu (.inl rfl)
  · intro s t ctx cell via x
    exact arriveWait_waits
  · intro s t ctx cell via x hu hwait
    exact arrive_completes (op := 5) (.inr rfl) hu (.inr hwait)

/-! ### O25: flags, and READ -/

/-- Flags set on a cell: what they satisfy leaves the queue (R108). -/
theorem Dev.flagSet_cell {d : Dev} {n arg : Nat} {x : Cell} (hx : tget d.cells n = some x) (htype : x.type = 2) (hb : x.broken = false) (harg : arg < 2 ^ 32) (now : Nat) :
    tget (d.flagSet now n arg).cells n = some { x with count := x.count ||| arg, waiters := x.waiters.filter fun w => !flagMet w.op (x.count ||| arg) w.arg } ∧
      OneCell n d (d.flagSet now n arg) := by
  have hset : d.flagSet now n arg =
      (d.setCell n { x with count := x.count ||| arg }).completeWaiters now n ((d.setCell n { x with count := x.count ||| arg }).flagsMet n) .ok := by
    unfold Dev.flagSet
    rw [hx]
    dsimp only
    rw [if_pos ⟨htype, hb⟩, Nat.mod_eq_of_lt harg]
  rw [hset]
  refine ⟨?_, (OneCell.setCell _).trans (Dev.completeWaiters_oneCell ..)⟩
  rw [Dev.completeWaiters_cell (tget_tset ..)]
  have hcount : (d.setCell n { x with count := x.count ||| arg }).cellCount n = x.count ||| arg := (Dev.cellCount_of_tget (tget_tset ..)).trans rfl
  unfold Dev.flagsMet
  rw [hcount]

/-- The order key of a FLAG_SET stays with the cell. -/
def Dev.keyFlags (d : Dev) (n : Nat) (k : Key) : Dev := { d with cells := tmod d.cells n fun y => { y with flagKey := some k } }

theorem Dev.cellRun_flagSet (d : Dev) (now : Nat) (who : CellWho) (ctx n arg dl : Nat) (k : Key) (x : Cell) :
    d.cellRun now who ctx 6 n arg dl k x = ((d.keyFlags n k).flagSet now n arg).cellDone who .ok (((d.keyFlags n k).flagSet now n arg).cellCount n) := rfl

theorem flagSet_sets {s : State} {t ctx cell arg : Nat} {via : CellVia} {x : Cell} (hu : uses s t via ctx cell x) (htype : x.type = 2) (hcount : x.count < 2 ^ 32) (harg : arg < 2 ^ 32) :
    Answers (.flagSet t via cell arg 0) s fun s' => cellAnswer s'.dev via .ok (x.count ||| arg) ∧
      (∃ k : Key, k.dt = s.now t ∧
        tget s'.dev.cells cell = some { x with count := x.count ||| arg, waiters := x.waiters.filter fun w => !flagMet w.op (x.count ||| arg) w.arg, flagKey := some k }) ∧
      otherCellsKept s.dev s'.dev cell := by
  refine cell_answers (op := 6) hu (by decide) (by decide) harg (.inr rfl) (.inl rfl) (.inr (by rw [htype]; rfl)) fun d0 k dl h0 hk hx => ?_
  obtain ⟨-, -, -, -, hb⟩ := hu
  have hkey : tget (d0.keyFlags cell k).cells cell = some { x with flagKey := some k } := by
    unfold Dev.keyFlags
    rw [tget_tmod, if_pos rfl, hx]
    rfl
  have hkeyOne : OneCell cell d0 (d0.keyFlags cell k) := .of_tmod (g := fun y => { y with flagKey := some k }) rfl rfl
  obtain ⟨hcell, hone⟩ := Dev.flagSet_cell hkey htype hb harg (s.now t)
  rw [Dev.cellRun_flagSet]
  obtain ⟨hans, hcell', hkept⟩ := Dev.done_ok via hcell (Nat.or_lt_two_pow hcount harg) (((OneCell.of_start h0).trans hkeyOne).trans hone)
  exact ⟨hans, ⟨k, hk, hcell'⟩, hkept⟩

theorem Dev.cellRun_flagClear (d : Dev) (now : Nat) (who : CellWho) (ctx n arg dl : Nat) (k : Key) (x : Cell) :
    d.cellRun now who ctx 7 n arg dl k x = (d.setCell n { x with count := x.count - (x.count &&& arg) }).cellDone who .ok
      ((d.setCell n { x with count := x.count - (x.count &&& arg) }).cellCount n) := rfl

theorem flagClear_clears {s : State} {t ctx cell arg : Nat} {via : CellVia} {x : Cell} (hu : uses s t via ctx cell x) (htype : x.type = 2) (hcount : x.count < 2 ^ 32) (harg : arg < 2 ^ 32) :
    Answers (.flagClear t via cell arg 0) s fun s' => cellAnswer s'.dev via .ok (x.count - (x.count &&& arg)) ∧
      tget s'.dev.cells cell = some { x with count := x.count - (x.count &&& arg) } ∧ otherCellsKept s.dev s'.dev cell ∧ s'.dev.fab = s.dev.fab := by
  refine cell_answers (op := 7) hu (by decide) (by decide) harg (.inr rfl) (.inl rfl) (.inr (by rw [htype]; rfl)) fun d0 k dl h0 _ _ => ?_
  rw [Dev.cellRun_flagClear]
  obtain ⟨hans, hcell, hkept⟩ := Dev.done_ok (d := d0.setCell cell { x with count := x.count - (x.count &&& arg) }) via (tget_tset ..) (by dsimp only; omega)
    ((OneCell.of_start h0).trans (.setCell _))
  exact ⟨hans, hcell, hkept, (Dev.cellDone_fab ..).trans h0.fab⟩

theorem Dev.cellRun_wait {op : Nat} (hop : op = 8 ∨ op = 9) (d : Dev) (now : Nat) (who : CellWho) (ctx n arg dl : Nat) (k : Key) (x : Cell) :
    d.cellRun now who ctx op n arg dl k x = if flagMet op x.count arg then d.cellDone who .ok x.count else d.enqueue now n who ctx op arg dl k := by
  rcases hop with rfl | rfl <;> rfl

/-- WAIT_ANY and WAIT_ALL wait just where the flags do not satisfy them (R108). -/
theorem wait_waits {s : State} {t ctx op cell arg : Nat} {via : CellVia} {x : Cell} (hop : op = 8 ∨ op = 9) (hu : uses s t via ctx cell x) (hwait : waitsOk s ctx x) (htype : x.type = 2)
    (hcount : x.count < 2 ^ 32) (harg : arg < 2 ^ 32) : Answers (cellInstr op t via cell arg 0) s fun s' => otherCellsKept s.dev s'.dev cell ∧
      (flagMet op x.count arg = true → cellAnswer s'.dev via .ok x.count ∧ s'.dev.cells = s.dev.cells) ∧ (flagMet op x.count arg = false → waitsIn s'.dev cell ctx op) := by
  have htype' : opType op = some x.type := by rcases hop with rfl | rfl <;> rw [htype] <;> rfl
  have hhas : opHasArg op = true := by rcases hop with rfl | rfl <;> rfl
  refine cell_answers hu (by omega) (by omega) harg (.inr hhas) (.inr hwait) (.inr htype') fun d0 k dl h0 _ hx => ?_
  rw [Dev.cellRun_wait hop]
  split
  · next hmet =>
    refine ⟨((OneCell.of_start h0).trans (.cellDone ..)).kept, fun _ => ⟨Dev.cellDone_answers _ _ _ hcount, (Dev.cellDone_cells ..).trans h0.cells⟩, fun h => ?_⟩
    simp [hmet] at h
  · next hmet =>
    exact ⟨((OneCell.of_start h0).trans (Dev.enqueue_oneCell ..)).kept, fun h => absurd h hmet, fun _ => (Dev.enqueue_waits hx ..).1⟩

theorem Answers.mono {i : Instr} {s : State} {P Q : State → Prop} (h : Answers i s P) (hPQ : ∀ s', P s' → Q s') : Answers i s Q := by
  obtain ⟨s', hs, hp⟩ := h
  exact ⟨s', hs, hPQ s' hp⟩

theorem read_reads {s : State} {t ctx cell : Nat} {via : CellVia} {x : Cell} (hu : uses s t via ctx cell x) (hcount : x.count < 2 ^ 32) : Answers (.read t via cell 0 0) s fun s' =>
      cellAnswer s'.dev via .ok x.count ∧ s'.dev.cells = s.dev.cells ∧ s'.dev.fab = s.dev.fab ∧ s'.dev.mem = s.dev.mem := by
  refine cell_answers (op := 10) hu (by decide) (by decide) (by decide) (.inl rfl) (.inl rfl) (.inl rfl) fun d0 k dl h0 _ _ => ?_
  show cellAnswer (d0.cellDone _ .ok x.count) _ _ _ ∧ _
  exact ⟨Dev.cellDone_answers _ _ _ hcount, (Dev.cellDone_cells ..).trans h0.cells, (Dev.cellDone_fab ..).trans h0.fab, (Dev.cellDone_mem ..).trans h0.mem⟩

/-- Settles O25: a clause each for FLAG_SET, FLAG_CLEAR, WAIT_ANY, WAIT_ALL and READ. -/
theorem flagOperations : Obligations.FlagOperations := by
  unfold Obligations.FlagOperations
  refine ⟨?_, ?_, ?_, ?_, ?_⟩
  · intro s t ctx cell arg via x
    exact flagSet_sets
  · intro s t ctx cell arg via x
    exact flagClear_clears
  · intro s t ctx cell arg via x hu hwait htype hcount harg
    refine (wait_waits (op := 8) (.inl rfl) hu hwait htype hcount harg).mono fun s' ⟨hkept, hmet, hunmet⟩ => ⟨hkept, fun h => hmet ?_, fun h => hunmet ?_⟩ <;>
      simp [flagMet, h]
  · intro s t ctx cell arg via x hu hwait htype hcount harg
    refine (wait_waits (op := 9) (.inr rfl) hu hwait htype hcount harg).mono fun s' ⟨hkept, hmet, hunmet⟩ => ⟨hkept, fun h => hmet ?_, fun h => hunmet ?_⟩ <;>
      simp [flagMet, h]
  · intro s t ctx cell via x
    exact read_reads

/-! ### O26: the result of a software port -/

/-- The device after a read of a claimed port's result (R110). -/
def Dev.portRead (d : Dev) (n : Nat) : Dev :=
  if d.f (r1 .rdvPortRes n) F.rdvPortRes.STATE = 2 then
    (({ d with bus := .data (d.rn (r1 .rdvPortRes n)) }).sf (r1 .rdvPortRes n) F.rdvPortRes.REFUSED 0).sf (r1 .rdvPortRes n) F.rdvPortRes.STATE 0
  else ({ d with bus := .data (d.rn (r1 .rdvPortRes n)) }).sf (r1 .rdvPortRes n) F.rdvPortRes.REFUSED 0

theorem Dev.readPortRes_claimed {d : Dev} {n : Nat} (h : (d.portCtx n).isSome = true) : d.readPortRes n = d.portRead n := by
  obtain ⟨c, hc⟩ := Option.isSome_iff_exists.mp h
  unfold Dev.readPortRes
  rw [hc]
  rfl

/-- Settles O26: REFUSED is cleared, and STATE too where it was done. -/
theorem portResultRead : Obligations.PortResultRead := by
  intro s t c n hn hhit hport
  have hexec : exec (.rdvResultRead t c n) s = .next { s with dt := s.now t, dev := Dev.portRead { s.dev with bus := .ok } n } := by
    show execRdvResultRead t c n s = _
    unfold execRdvResultRead
    rw [State.regAccess_reaches hhit, if_pos hn, Dev.readPortRes_claimed (d := { s.dev with bus := .ok }) hport]
  have hstate : F.rdvPortRes.STATE.ok := by unfold Fld.ok; decide
  have hrefused : F.rdvPortRes.REFUSED.ok := by unfold Fld.ok; decide
  refine ⟨_, hexec, ?_⟩
  unfold Dev.portRead
  by_cases hdone : s.dev.f (r1 .rdvPortRes n) F.rdvPortRes.STATE = 2
  · rw [if_pos (show Dev.f { s.dev with bus := .ok } _ _ = 2 from hdone)]
    exact ⟨rfl, (Dev.fb_sf_ne _ hstate (by decide)).trans (Dev.fb_sf _ _ false hrefused rfl), fun _ => Dev.f_sf _ _ _ hstate, fun h => absurd hdone h,
      fun r hr => (Dev.rd_sf_ne hr).trans (Dev.rd_sf_ne hr), rfl⟩
  · rw [if_neg (show ¬ Dev.f { s.dev with bus := .ok } _ _ = 2 from hdone)]
    exact ⟨rfl, Dev.fb_sf _ _ false hrefused rfl, fun h => absurd h hdone, fun _ => Dev.f_sf_ne _ hrefused (by decide), fun r hr => Dev.rd_sf_ne hr, rfl⟩


end Sys2Proof.Machine

/-! ## What an update leaves of contexts and basins -/

namespace Sys2Proof.Machine

/-- What ends a context: a teardown, a close that was asked for. -/
def Ctx.life (x : Ctx) : Bool × Option Nat := (x.torn, x.closing)

theorem tget_tmap {α : Type} {t : Tbl α} {f : Nat → α → α} {k : Nat} : tget (tmap t f) k = (tget t k).map (f k) := by
  induction t with
  | nil => rfl
  | cons e t ih =>
    simp only [tmap, List.map_cons, tget]
    by_cases h : e.1 = k
    · subst h; simp
    · simpa only [h, if_false, tmap] using ih

theorem mem_of_tget {α : Type} {t : Tbl α} {k : Nat} {v : α} (h : tget t k = some v) : (k, v) ∈ t := by
  induction t with
  | nil => cases h
  | cons e t ih =>
    simp only [tget] at h
    split at h
    · next hk =>
      cases h
      exact hk ▸ List.mem_cons_self
    · exact List.mem_cons_of_mem _ (ih h)

theorem mem_tset {α : Type} {t : Tbl α} {k : Nat} {v : α} {p : Nat × α} (h : p ∈ tset t k v) : p ∈ t ∨ p = (k, v) := by
  induction t with
  | nil => exact .inr (by simpa [tset] using h)
  | cons e t ih =>
    simp only [tset] at h
    split at h <;> simp only [List.mem_cons] at h ⊢ <;> grind

/-- Contexts stand, torn or closing as before; every basin belongs to a context that held one, and no stage runs in it that did not. -/
structure CtxFrame (d e : Dev) : Prop where
  life : ∀ c, (e.ctx? c).map Ctx.life = (d.ctx? c).map Ctx.life
  owners : ∀ p ∈ e.fab.basins, ∃ q ∈ d.fab.basins, q.2.ctx = p.2.ctx
  idle : ∀ l b', e.basin? l = some b' → ∃ b, d.basin? l = some b ∧ ∀ st, tget b.running st = none → tget b'.running st = none

namespace CtxFrame

variable {d e f : Dev}

theorem refl (d : Dev) : CtxFrame d d := ⟨fun _ => rfl, fun p hp => ⟨p, hp, rfl⟩, fun _ b hb => ⟨b, hb, fun _ h => h⟩⟩

theorem trans (a : CtxFrame d e) (b : CtxFrame e f) : CtxFrame d f := by
  refine ⟨fun c => (b.life c).trans (a.life c), fun p hp => ?_, fun l y hy => ?_⟩
  · obtain ⟨q, hq, hqp⟩ := b.owners p hp
    obtain ⟨r, hr, hrq⟩ := a.owners q hq
    exact ⟨r, hr, hrq.trans hqp⟩
  · obtain ⟨x, hx, hxy⟩ := b.idle l y hy
    obtain ⟨w, hw, hwx⟩ := a.idle l x hx
    exact ⟨w, hw, fun st h => hxy st (hwx st h)⟩

/-- The same basins, and contexts of the same lives. -/
theorem of_life (hb : e.fab.basins = d.fab.basins) (h : ∀ c, (e.ctx? c).map Ctx.life = (d.ctx? c).map Ctx.life) : CtxFrame d e :=
  ⟨h, fun p hp => ⟨p, hb ▸ hp, rfl⟩, fun l b' h' => ⟨b', by unfold Dev.basin? at *; rwa [← hb], fun _ h => h⟩⟩

theorem of_ctxs (hc : e.fab.ctxs = d.fab.ctxs) (hb : e.fab.basins = d.fab.basins) : CtxFrame d e :=
  of_life hb fun c => by unfold Dev.ctx?; rw [hc]

theorem of_fab (h : e.fab = d.fab) : CtxFrame d e := of_ctxs (by rw [h]) (by rw [h])

theorem of_tmod {k : Nat} {g : Ctx → Ctx} (hc : e.fab.ctxs = tmod d.fab.ctxs k g) (hb : e.fab.basins = d.fab.basins) (hg : ∀ x, (g x).life = x.life) : CtxFrame d e := by
  refine of_life hb fun c => ?_
  unfold Dev.ctx?
  rw [hc, tget_tmod]
  split
  · rw [Option.map_map]
    exact congrArg (Option.map · _) (funext hg)
  · rfl

theorem of_tmap {g : Nat → Ctx → Ctx} (hc : e.fab.ctxs = tmap d.fab.ctxs g) (hb : e.fab.basins = d.fab.basins) (hg : ∀ k x, (g k x).life = x.life) : CtxFrame d e := by
  refine of_life hb fun c => ?_
  unfold Dev.ctx?
  rw [hc, tget_tmap, Option.map_map]
  exact congrArg (Option.map · _) (funext (hg c))

theorem modCtx (d : Dev) (k : Nat) (g : Ctx → Ctx) (hg : ∀ x, (g x).life = x.life) : CtxFrame d { d with fab := { d.fab with ctxs := tmod d.fab.ctxs k g } } :=
  of_tmod rfl rfl hg

theorem ite {c : Prop} [Decidable c] {e e' : Dev} (h : CtxFrame d e) (h' : CtxFrame d e') : CtxFrame d (if c then e else e') := by
  split <;> assumption

theorem foldl {α : Type} {g : Dev → α → Dev} (h : ∀ d a, CtxFrame d (g d a)) (l : List α) (d : Dev) : CtxFrame d (l.foldl g d) :=
  List.foldlRecOn l g (motive := CtxFrame d) (refl d) fun _ hd a _ => hd.trans (h _ a)

theorem setBasin {l : Nat} {b b' : Basin} (hb : d.basin? l = some b) (hc : b'.ctx = b.ctx) (hr : ∀ st, tget b.running st = none → tget b'.running st = none) :
    CtxFrame d (d.setBasin l b') := by
  refine ⟨fun _ => rfl, fun p hp => ?_, fun k y hy => ?_⟩
  · rcases mem_tset hp with hp | rfl
    · exact ⟨p, hp, rfl⟩
    · exact ⟨_, mem_of_tget hb, hc.symm⟩
  · by_cases hk : k = l
    · subst hk
      unfold Dev.setBasin Dev.basin? at hy
      simp only [tget_tset, Option.some.injEq] at hy
      exact ⟨b, hb, hy ▸ hr⟩
    · unfold Dev.setBasin Dev.basin? at hy
      rw [tget_tset_ne hk] at hy
      exact ⟨y, hy, fun _ h => h⟩

end CtxFrame

/-! ### Weirs, switches and carry -/

theorem Dev.joinShares_frame (d : Dev) (now c region : Nat) : CtxFrame d (d.joinShares now c region) := by
  unfold Dev.joinShares
  split
  · extract_lets fab d0 others
    have h0 : CtxFrame d d0 := .modCtx _ _ _ fun _ => rfl
    clear_value d0
    split
    · split
      · exact h0.trans (.of_fab rfl)
      · exact h0
    · exact h0
  · exact .refl d

theorem Dev.startSwitch_frame (d : Dev) (now out inn region : Nat) : CtxFrame d (d.startSwitch now out inn region) := .of_ctxs rfl rfl

theorem Dev.weirChoose_frame (d : Dev) (now l : Nat) : CtxFrame d (d.weirChoose now l) := by
  unfold Dev.weirChoose
  extract_lets region cands d1
  have h1 : CtxFrame d d1 := .foldl (fun d c => d.joinShares_frame ..) cands d
  clear_value d1 cands
  split
  · exact h1
  · split
    · split
      · split
        · extract_lets d2
          have h2 : CtxFrame d1 d2 := .of_fab rfl
          exact (h1.trans h2).trans (.modCtx _ _ _ fun _ => rfl)
        · exact h1
      · exact .ite (h1.trans (Dev.startSwitch_frame ..)) h1
    · exact .ite (h1.trans (Dev.startSwitch_frame ..)) h1

theorem Dev.carrySwitch_frame (d : Dev) (now by_ holder : Nat) : CtxFrame d (d.carrySwitch now by_ holder) := by
  unfold Dev.carrySwitch
  extract_lets region d1 resident
  have h1 : CtxFrame d d1 := d.joinShares_frame ..
  clear_value d1 region resident
  have hswitch (out : Nat) : CtxFrame d (d1.startSwitch now out holder region) := h1.trans (Dev.startSwitch_frame ..)
  split
  · exact .refl d
  · split
    · exact hswitch _
    · split
      · exact h1
      · split
        · exact .ite (hswitch _) h1
        · exact hswitch _

theorem Dev.syncCarries_frame (d : Dev) (now : Nat) : CtxFrame d (d.syncCarries now) := .of_ctxs rfl rfl

theorem Dev.addCarry_frame (d : Dev) (now root payer by_ n holder : Nat) : CtxFrame d (d.addCarry now root payer by_ n holder) := by
  unfold Dev.addCarry
  split
  · exact .refl d
  · extract_lets fab d1
    have h1 : CtxFrame d (d1.sf (r1 .pbuCtxCfg holder) F.pbuCtxCfg.CARRY 1) := .of_ctxs rfl rfl
    exact (h1.trans (Dev.carrySwitch_frame ..)).trans (Dev.syncCarries_frame ..)

theorem Dev.startCarry_frame (d : Dev) (now n ctx : Nat) : CtxFrame d (d.startCarry now n ctx) := by
  unfold Dev.startCarry
  extract_lets up root payer depth chain d1
  have h1 : CtxFrame d d1 := .foldl (fun d _ => d.addCarry_frame ..) _ d
  clear_value d1
  exact .ite h1 (h1.trans (.of_ctxs rfl rfl))

theorem Dev.endCarry_frame (d : Dev) (p : Carry → Bool) : CtxFrame d (d.endCarry p) := by
  unfold Dev.endCarry
  extract_lets gone fab d1
  have h1 : CtxFrame d d1 := .of_ctxs rfl rfl
  exact h1.trans (.foldl (fun d x => .ite (.refl d) (.of_fab (Dev.sf_fab ..))) _ d1)

theorem Dev.carryResume_frame (d : Dev) (now : Nat) : CtxFrame d (d.carryResume now) := .foldl (fun d _ => d.carrySwitch_frame ..) _ d

theorem Dev.carrySaved_frame (d : Dev) (now c : Nat) : CtxFrame d (d.carrySaved now c) := by
  unfold Dev.carrySaved
  refine .ite (.refl d) (.foldl (fun d e => ?_) _ d)
  split
  · exact .ite (d.startCarry_frame ..) (.refl d)
  · exact .refl d

/-! ### Cells -/

theorem Dev.syncBlocked_frame (d : Dev) (now c : Nat) : CtxFrame d (d.syncBlocked now c) := .modCtx _ _ _ fun _ => rfl

theorem Dev.setHolds_frame (d : Dev) (c : Nat) (h : List (Nat × Key)) : CtxFrame d (d.setHolds c h) := .modCtx _ _ _ fun _ => rfl

theorem Dev.takeUnit_frame (d : Dev) (n c : Nat) (k : Key) : CtxFrame d (d.takeUnit n c k) :=
  .trans (e := { d with cells := tmod d.cells n fun x => { x with count := x.count - 1 } }) (.of_fab rfl) (Dev.setHolds_frame ..)

theorem Dev.unqueue_frame (d : Dev) (n : Nat) (w : Waiter) : CtxFrame d (d.unqueue n w) :=
  .trans (e := { d with cells := tmod d.cells n fun x => { x with waiters := x.waiters.filter (· != w) } }) (.of_fab rfl) (Dev.endCarry_frame ..)

@[simp] theorem Dev.dropWaitId_fab (d : Dev) (id : Option Nat) : (d.dropWaitId id).fab = d.fab := by
  unfold Dev.dropWaitId
  split <;> rfl

@[simp] theorem Dev.commitWait_fab (d : Dev) (id : Nat) (w : Wait) (b : Bool) : (d.commitWait id w b).2.fab = d.fab := by
  unfold Dev.commitWait
  simp

@[simp] theorem Dev.endCellWait_fab (d : Dev) (id : Option Nat) (b : Bool) : (d.endCellWait id b).fab = d.fab := by
  unfold Dev.endCellWait
  split
  · rfl
  · split
    · rw [Dev.dropWaitId_fab]
      split
      · exact Dev.commitWait_fab ..
      · rfl
    · rfl

theorem Dev.waiterDone_frame (d : Dev) (now : Nat) (w : Waiter) (st : Status) (v : Nat) : CtxFrame d (d.waiterDone now w st v) := by
  unfold Dev.waiterDone
  extract_lets d1
  have h1 : CtxFrame d d1 := .trans (.of_fab ((Dev.cellDone_fab ..).trans (Dev.endCellWait_fab ..))) (Dev.syncBlocked_frame ..)
  clear_value d1
  split
  · exact h1.trans (.of_fab (Dev.raise_fab ..))
  · exact h1

theorem Dev.completeOne_frame (d : Dev) (now n : Nat) (w : Waiter) (st : Status) (v : Nat) : CtxFrame d ((d.unqueue n w).waiterDone now w st v) :=
  (d.unqueue_frame n w).trans (Dev.waiterDone_frame ..)

theorem Dev.completeWaiters_frame (d : Dev) (now n : Nat) (p : Waiter → Bool) (st : Status) : CtxFrame d (d.completeWaiters now n p st) := by
  unfold Dev.completeWaiters
  split
  · exact .refl d
  · exact .foldl (fun d w => d.completeOne_frame ..) _ d

theorem Dev.setCell_frame (d : Dev) (n : Nat) (x : Cell) : CtxFrame d (d.setCell n x) := .of_fab rfl

theorem Dev.breakCell_frame (d : Dev) (now n : Nat) : CtxFrame d (d.breakCell now n) := by
  unfold Dev.breakCell
  split
  · exact .refl d
  · extract_lets d1 fab d2
    have h1 : CtxFrame d d1 := (Dev.setCell_frame ..).trans (Dev.completeWaiters_frame ..)
    have h2 : CtxFrame d1 d2 := .of_tmap (g := fun _ c => { c with held := c.held.filter fun h => h.1 != n }) rfl rfl fun _ _ => rfl
    exact (h1.trans h2).trans (Dev.endCarry_frame ..)

theorem Dev.flagSet_frame (d : Dev) (now n arg : Nat) : CtxFrame d (d.flagSet now n arg) := by
  unfold Dev.flagSet
  split
  · exact .ite ((Dev.setCell_frame ..).trans (Dev.completeWaiters_frame ..)) (.refl d)
  · exact .refl d

theorem Dev.arriveAt_frame (d : Dev) (now n : Nat) (x : Cell) : CtxFrame d (d.arriveAt now n x) := by
  unfold Dev.arriveAt
  exact .ite ((Dev.setCell_frame ..).trans (Dev.completeWaiters_frame ..)) (Dev.setCell_frame ..)

theorem Dev.enqueue_frame (d : Dev) (now n : Nat) (who : CellWho) (ctx op arg dl : Nat) (k : Key) : CtxFrame d (d.enqueue now n who ctx op arg dl k) := by
  unfold Dev.enqueue
  extract_lets wait p
  have hp : CtxFrame d p.2 := by
    unfold p
    split
    · exact .refl d
    · exact .of_fab (Dev.addWait_fab ..)
  refine hp.trans (.trans ?_ (Dev.syncBlocked_frame ..))
  exact .of_fab rfl

theorem Dev.grantUnits_frame (d : Dev) (now n k : Nat) : CtxFrame d (d.grantUnits now n k) := by
  induction k generalizing d with
  | zero => exact .refl d
  | succ k ih =>
    unfold Dev.grantUnits
    split
    · exact .refl d
    · split
      · exact .refl d
      · exact .ite (.refl d) (.ite ((d.completeOne_frame ..).trans (ih _)) (.ite ((d.completeOne_frame ..).trans (ih _))
          (((d.unqueue_frame ..).trans ((Dev.takeUnit_frame ..).trans (Dev.waiterDone_frame ..))).trans (ih _))))

theorem Dev.releaseUnit_frame (d : Dev) (now n ctx : Nat) (x : Cell) : CtxFrame d (d.releaseUnit now n ctx x) := by
  unfold Dev.releaseUnit
  extract_lets h
  split
  · exact .refl d
  · exact (((d.setHolds_frame ..).trans (Dev.setCell_frame ..)).trans (Dev.endCarry_frame ..)).trans (Dev.grantUnits_frame ..)

theorem Dev.cellDone_frame (d : Dev) (who : CellWho) (st : Status) (v : Nat) : CtxFrame d (d.cellDone who st v) := .of_fab (Dev.cellDone_fab ..)

theorem Dev.cellRun_frame (d : Dev) (now : Nat) (who : CellWho) (ctx op n arg dl : Nat) (k : Key) (x : Cell) : CtxFrame d (d.cellRun now who ctx op n arg dl k x) := by
  have hdone (st : Status) : CtxFrame d (d.cellDone who st x.count) := d.cellDone_frame ..
  have hwait : CtxFrame d (d.enqueue now n who ctx op arg dl k) := d.enqueue_frame ..
  have hflag : CtxFrame d (({ d with cells := tmod d.cells n fun y => { y with flagKey := some k } } : Dev).flagSet now n arg) := by
    refine .trans ?_ (Dev.flagSet_frame ..)
    exact .of_fab rfl
  unfold Dev.cellRun
  refine .ite (.ite (hdone _) (.ite ((d.takeUnit_frame ..).trans (Dev.cellDone_frame ..)) (.ite (hdone _) (hwait.trans (Dev.startCarry_frame ..))))) ?_
  refine .ite (.ite ((d.releaseUnit_frame ..).trans (Dev.cellDone_frame ..)) (hdone _)) ?_
  refine .ite ((d.arriveAt_frame ..).trans (Dev.cellDone_frame ..)) ?_
  refine .ite (.ite ((d.arriveAt_frame ..).trans (Dev.cellDone_frame ..)) ((d.arriveAt_frame ..).trans (Dev.enqueue_frame ..))) ?_
  refine .ite (hflag.trans (Dev.cellDone_frame ..)) ?_
  exact .ite ((d.setCell_frame ..).trans (Dev.cellDone_frame ..)) (.ite (.ite (hdone _) hwait) (hdone _))

/-- An operation on a cell (R108). -/
theorem Dev.cellOp_frame (d : Dev) (now : Nat) (who : CellWho) (ctx op n arg rsvd dl : Nat) (k : Key) : CtxFrame d (d.cellOp now who ctx op n arg rsvd dl k) := by
  unfold Dev.cellOp
  split
  · exact d.cellDone_frame ..
  · split
    · exact d.cellRun_frame ..
    · exact .refl d

end Sys2Proof.Machine

/-! ## O43: how a budget period starts -/

namespace Sys2Proof.Machine

/-! ### What charges and gates write -/

/-- The registers that charges write: USED, the class status and overrun counters, CONSUMED (R83 to R87, R92). -/
def RegName.isBeyondCharge (x : RegName) : Bool := !(x == .pbuClassUsed || x == .pbuClassStat || x == .pbuClassOvr || x == .pbuCtxConsumed)

/-- The registers that gates and exhaustions leave (R84, R85). -/
def RegName.isBeyondGate (x : RegName) : Bool := !(x == .pbuClassStat || x == .pbuClassOvr)

/-- The charge registers are written; the steward's state and the calibration run are as before. -/
structure Charges (d e : Dev) : Prop where
  regs : KeepsRegs RegName.isBeyondCharge d e
  stew : e.stew = d.stew
  calRun : e.pbu.calRun = d.pbu.calRun

namespace Charges

variable {d e f : Dev}

theorem refl (d : Dev) : Charges d d := ⟨.refl _ d, rfl, rfl⟩

theorem trans (a : Charges d e) (b : Charges e f) : Charges d f := ⟨a.regs.trans b.regs, b.stew.trans a.stew, b.calRun.trans a.calRun⟩

theorem ite {c : Prop} [Decidable c] {e e' : Dev} (h : Charges d e) (h' : Charges d e') : Charges d (if c then e else e') := by
  split <;> assumption

theorem foldl {α : Type} {g : Dev → α → Dev} (h : ∀ d a, Charges d (g d a)) (l : List α) (d : Dev) : Charges d (l.foldl g d) :=
  List.foldlRecOn l g (motive := Charges d) (refl d) fun _ hd a _ => hd.trans (h _ a)

end Charges

/-- A charge beside its registers: basins, saved states, switches and memory are as before, and contexts stand. -/
structure Paid (d e : Dev) : Prop extends Charges d e where
  mem : e.mem = d.mem
  frame : CtxFrame d e
  basins : e.fab.basins = d.fab.basins
  saved : e.fab.saved = d.fab.saved
  switches : e.fab.switches = d.fab.switches

namespace Paid

variable {d e f : Dev}

theorem refl (d : Dev) : Paid d d := ⟨.refl d, rfl, .refl d, rfl, rfl, rfl⟩

theorem trans (a : Paid d e) (b : Paid e f) : Paid d f :=
  ⟨a.toCharges.trans b.toCharges, b.mem.trans a.mem, a.frame.trans b.frame, b.basins.trans a.basins, b.saved.trans a.saved, b.switches.trans a.switches⟩

/-- An update that leaves the fabric. -/
theorem of_fab (h : Charges d e) (hm : e.mem = d.mem) (hf : e.fab = d.fab) : Paid d e := ⟨h, hm, .of_fab hf, by rw [hf], by rw [hf], by rw [hf]⟩

theorem wn {r : Reg} (n : Nat) (h : r.name.isBeyondCharge = false) : Paid d (d.wn r n) := of_fab ⟨.wn n h, rfl, rfl⟩ rfl rfl

theorem sf {r : Reg} (x : Fld) (n : Nat) (h : r.name.isBeyondCharge = false) : Paid d (d.sf r x n) := of_fab ⟨.sf x n h, rfl, rfl⟩ rfl rfl

theorem ite {c : Prop} [Decidable c] {e e' : Dev} (h : Paid d e) (h' : Paid d e') : Paid d (if c then e else e') := by
  split <;> assumption

theorem foldl {α : Type} {g : Dev → α → Dev} (h : ∀ d a, Paid d (g d a)) (l : List α) (d : Dev) : Paid d (l.foldl g d) :=
  List.foldlRecOn l g (motive := Paid d) (refl d) fun _ hd a _ => hd.trans (h _ a)

end Paid

theorem Dev.gate_keepsRegs (d : Dev) (now c k : Nat) : KeepsRegs RegName.isBeyondGate d (d.gate now c k) := by
  unfold Dev.gate
  extract_lets r fab d1
  have h1 : KeepsRegs RegName.isBeyondGate d d1 := .of_regs rfl
  exact h1.trans (((KeepsRegs.sf _ _ rfl).trans (.sf _ _ rfl)).trans (.of_regs rfl))

theorem Dev.overrunClass_keepsRegs (d : Dev) (c : Nat) : KeepsRegs RegName.isBeyondGate d (d.overrunClass c) := by
  unfold Dev.overrunClass
  extract_lets pbu d1
  have h1 : KeepsRegs RegName.isBeyondGate d d1 := .ite (.of_regs rfl) (.refl _ d)
  exact h1.trans ((KeepsRegs.sf _ _ rfl).trans (.raise _))

theorem KeepsRegs.beyondCharge {d e : Dev} (h : KeepsRegs RegName.isBeyondGate d e) : KeepsRegs RegName.isBeyondCharge d e := by
  refine ⟨fun r hr => h.rd r ?_⟩
  unfold RegName.isBeyondCharge at hr
  unfold RegName.isBeyondGate
  grind

theorem Dev.gate_paid (d : Dev) (now c k : Nat) : Paid d (d.gate now c k) := by
  refine ⟨⟨(d.gate_keepsRegs now c k).beyondCharge, rfl, rfl⟩, rfl, ?_, rfl, rfl, rfl⟩
  refine .of_tmap (g := fun e x => if d.ctxState e == 3 && d.paidIn c k e x then { x with away := true } else x) rfl rfl fun e x => ?_
  split <;> rfl

theorem Dev.overrunClass_paid (d : Dev) (c : Nat) : Paid d (d.overrunClass c) := by
  have hreg := (d.overrunClass_keepsRegs c).beyondCharge
  unfold Dev.overrunClass at hreg ⊢
  extract_lets pbu d1
  have h1 : Paid d d1 := by
    unfold d1
    split
    · exact .of_fab ⟨.of_regs rfl, rfl, rfl⟩ rfl rfl
    · exact .refl d
  exact .of_fab ⟨hreg, (Dev.raise_stew ..).trans h1.stew, (congrArg PbuSt.calRun (Dev.raise_pbu ..)).trans h1.calRun⟩
    ((Dev.raise_mem ..).trans h1.mem) ((Dev.raise_fab ..).trans (by unfold d1; split <;> rfl))

theorem Dev.addUsed_paid (d : Dev) (c k n : Nat) : Paid d (d.addUsed c k n) := .wn _ rfl

theorem Dev.donorExhausted_paid (d : Dev) (now dn k : Nat) : Paid d (d.donorExhausted now dn k) := by
  unfold Dev.donorExhausted
  exact ((d.overrunClass_paid dn).trans (Dev.gate_paid ..)).trans (.foldl (fun d c => .ite (d.gate_paid ..) (.refl d)) _ _)

theorem Dev.drawDonor_paid (d : Dev) (now c k rest : Nat) : Paid d (d.drawDonor now c k rest) := by
  unfold Dev.drawDonor
  extract_lets dn r fresh mine others given left next d0 d1 d2
  have h0 : Paid d d0 := .foldl (fun d _ => .wn _ rfl) _ d
  have h1 : Paid d0 d1 := .wn _ rfl
  have h2 : Paid d1 d2 := by
    refine .foldl (fun d x => ?_) _ d1
    exact (d.addUsed_paid ..).trans (.ite (.ite (.refl _) (.sf _ _ rfl)) (.sf _ _ rfl))
  exact ((h0.trans h1).trans h2).trans (.of_fab ⟨.of_regs rfl, rfl, rfl⟩ rfl rfl)

/-- A charge in the period in force writes the charge registers alone (R83 to R87). -/
theorem Dev.chargeNow_paid (d : Dev) (now c k n : Nat) : Paid d (d.chargeNow now c k n) := by
  unfold Dev.chargeNow
  extract_lets was
  split
  · exact (d.addUsed_paid c k n).trans (.ite (Dev.overrunClass_paid ..) (.refl _))
  · split
    · next own rest d1 dOver d2 dn dnWas d3 _ _ =>
      have h1 : Paid d d1 := d.addUsed_paid ..
      have h2 : Paid d d2 := h1.trans (.ite ((d1.overrunClass_paid c).trans (.ite (Dev.gate_paid ..) (.refl _))) (.refl _))
      have h3 : Paid d2 d3 := d2.drawDonor_paid ..
      exact .ite h2 ((h2.trans h3).trans (.ite (Dev.donorExhausted_paid ..) (.refl _)))
    · exact (d.addUsed_paid c k n).trans (.ite (Dev.donorExhausted_paid ..) (.refl _))

theorem Dev.addConsumed_paid (d : Dev) (c n : Nat) : Paid d (d.addConsumed c n) := by
  unfold Dev.addConsumed
  extract_lets v d1 pbu
  have h1 : Paid d d1 := .wn _ rfl
  exact h1.trans (.ite (.of_fab ⟨.of_regs rfl, rfl, rfl⟩ rfl rfl) (.refl d1))

/-- A charge is made now, or where a period start is due in the new period (R82). -/
theorem Dev.charge_paid (d : Dev) (now c k n : Nat) : Paid d (d.charge now c k n) := by
  unfold Dev.charge
  exact .ite (.of_fab ⟨.of_regs rfl, rfl, rfl⟩ rfl rfl) (d.chargeNow_paid ..)

theorem Dev.chargeBasin_paid (d : Dev) (now ctx region n : Nat) : Paid d (d.chargeBasin now ctx region n) := (d.charge_paid ..).trans (Dev.addConsumed_paid ..)

/-! ### The close of the period that ends -/

theorem Dev.closePeriod_charges (d : Dev) (now b : Nat) : Charges d (d.closePeriod now b) := by
  unfold Dev.closePeriod
  refine .foldl (fun d e => ?_) _ d
  exact .ite (.refl d) (((d.chargeNow_paid ..).trans (Dev.addConsumed_paid ..)).toCharges.trans ⟨.of_regs rfl, rfl, rfl⟩)

theorem Dev.openCycles_of_idle {d : Dev} {b : Nat} {x : Basin} (h : x.running = []) : d.openCycles b x = 0 := by
  unfold Dev.openCycles
  rw [h]

/-- Where no stage runs the period closes without a charge. -/
theorem Dev.closePeriod_of_idle {d : Dev} {now b : Nat} (h : ∀ e ∈ d.fab.basins, e.2.running = []) : d.closePeriod now b = d :=
  foldl_of_fixed fun e he => if_pos (Dev.openCycles_of_idle (h e he))

theorem Dev.closePeriod_enforced (d : Dev) (now b : Nat) : (d.closePeriod now b).enforced = d.enforced :=
  Dev.fb_of_rd ((d.closePeriod_charges now b).regs.rd _ rfl) _

theorem Dev.closePeriod_debt (d : Dev) (now b c k : Nat) :
    (d.closePeriod now b).debt c k = if d.enforced then (d.closePeriod now b).used c k - d.budget c k else 0 := by
  unfold Dev.debt
  rw [Dev.closePeriod_enforced, show (d.closePeriod now b).budget c k = d.budget c k from Dev.rn_of_rd ((d.closePeriod_charges now b).regs.rd _ rfl)]

/-! ### The renewal -/

/-- USED as the debts leave it (R81, R85). -/
def Dev.writeUsed (d : Dev) (debts : List Nat) (l : List Nat) : Dev := l.foldl (fun d i => d.wn (r2 .pbuClassUsed (i / 8) (i % 8)) (debts.getD i 0)) d

theorem Dev.writeUsed_notMem {d : Dev} {debts l : List Nat} {c k : Nat} (h : 8 * c + k ∉ l) (_ : k < 8) : (d.writeUsed debts l).used c k = d.used c k := by
  induction l generalizing d with
  | nil => rfl
  | cons i l ih =>
    obtain ⟨hi, hl⟩ := not_or.mp (List.mem_cons.not.mp h)
    refine (ih (d := d.wn _ _) hl).trans (Dev.rn_of_rd (Dev.rd_wn_ne ?_))
    simp only [r2, ne_eq, Reg.mk.injEq, true_and, not_and]
    omega

/-- Each class starts with its debt. -/
theorem Dev.writeUsed_used {d : Dev} {debts l : List Nat} {c k : Nat} (h : 8 * c + k ∈ l) (hk : k < 8) : (d.writeUsed debts l).used c k = debts.getD (8 * c + k) 0 % 2 ^ 64 := by
  induction l generalizing d with
  | nil => simp at h
  | cons i l ih =>
    by_cases hl : 8 * c + k ∈ l
    · exact ih hl
    · obtain rfl : 8 * c + k = i := (List.mem_cons.mp h).resolve_right hl
      refine (Dev.writeUsed_notMem hl hk).trans ?_
      dsimp only
      rw [show (8 * c + k) / 8 = c by omega, show (8 * c + k) % 8 = k by omega]
      exact Dev.rn_wn ..

/-- What a renewal does after it wrote USED: gates lift, and classes whose debt reaches the new budget are exhausted at once (R81, R85). -/
def Dev.regate (d : Dev) (now : Nat) : Dev :=
  ((List.range 128).foldl (fun d i =>
    if d.exhausted (i / 8) (i % 8) then
      (let d' := d.overrunClass (i / 8)
       if !d.enforced then d'
       else if d.borrows (i / 8) && !(d.exhausted (d.donor (i / 8)) (i % 8)) then d' else d'.gate now (i / 8) (i % 8))
    else d) ((List.range 16).foldl (fun (d : Dev) c => d.sf (r1 .pbuClassStat c) F.pbuClassStat.GATED 0) (d.letGo now))).syncCarries now

theorem Dev.renew_eq (d : Dev) (now : Nat) (debts : List Nat) : d.renew now debts = (d.writeUsed debts (List.range 128)).regate now := rfl

theorem Dev.regate_keepsRegs (d : Dev) (now : Nat) : KeepsRegs RegName.isBeyondGate d (d.regate now) := by
  have hlift : KeepsRegs RegName.isBeyondGate d (d.letGo now) := .of_regs rfl
  have hstat (e : Dev) : KeepsRegs RegName.isBeyondGate e ((List.range 16).foldl (fun (d : Dev) c => d.sf (r1 .pbuClassStat c) F.pbuClassStat.GATED 0) e) :=
    .foldl (fun _ _ => .sf _ _ rfl) _ e
  have hcarry (e : Dev) : KeepsRegs RegName.isBeyondGate e (e.syncCarries now) := .of_regs rfl
  unfold Dev.regate
  refine ((hlift.trans (hstat _)).trans (.foldl (fun d i => ?_) _ _)).trans (hcarry _)
  exact .ite ((d.overrunClass_keepsRegs _).trans (.ite (.refl _ _) (.ite (.refl _ _) (Dev.gate_keepsRegs ..)))) (.refl _ d)

theorem Dev.writeUsed_keepsRegs (d : Dev) (debts l : List Nat) : KeepsRegs (· != .pbuClassUsed) d (d.writeUsed debts l) := .foldl (fun _ _ => .wn _ rfl) l d

/-- A renewal leaves PBU_PERIOD_AT as it was written. -/
theorem Dev.renew_periodAt (d : Dev) (now : Nat) (debts : List Nat) : (d.renew now debts).rd (r0 .pbuPeriodAt) = d.rd (r0 .pbuPeriodAt) :=
  ((Dev.regate_keepsRegs _ now).rd _ rfl).trans ((d.writeUsed_keepsRegs debts _).rd _ rfl)

theorem Dev.renew_used (d : Dev) (now : Nat) (debts : List Nat) {c k : Nat} (hc : c < 16) (hk : k < 8) : (d.renew now debts).used c k = debts.getD (8 * c + k) 0 % 2 ^ 64 :=
  (Dev.rn_of_rd ((Dev.regate_keepsRegs _ now).rd (r2 .pbuClassUsed c k) rfl)).trans (Dev.writeUsed_used (List.mem_range.mpr (by omega)) hk)

/-- The debts that a renewal carries, in the order of the classes and resources. -/
def Dev.debts (e : Dev) (on : Bool) : List Nat := (List.range 128).map fun i => if on then e.debt (i / 8) (i % 8) else 0

theorem Dev.debts_getD {e : Dev} {on : Bool} {c k : Nat} (hc : c < 16) (hk : k < 8) : (e.debts on).getD (8 * c + k) 0 = if on then e.debt c k else 0 := by
  unfold Dev.debts
  rw [List.getD_eq_getElem?_getD, List.getElem?_map, List.getElem?_range (by omega), Option.map_some, Option.getD_some, show (8 * c + k) / 8 = c by omega,
    show (8 * c + k) % 8 = k by omega]

theorem Dev.calPeriod_of_none {d : Dev} (h : d.pbu.calRun = none) : d.calPeriod = d := by
  unfold Dev.calPeriod
  rw [h]

/-- Without a calibration run, late charges or settings that wait, the renewal is the close of the old period and the renewal of the budgets. -/
theorem Dev.periodRenew_renews {d : Dev} {now b : Nat} {avg : F32} {cue : Bool} (hrun : d.pbu.calRun = none) (hlate : d.pbu.late = []) (hset : d.stew.settings = []) :
    ∃ d1 : Dev, (d.periodRenew now b avg cue).regs = ((d1.wn (r0 .pbuPeriodAt) b).renew now ((d.closePeriod now b).debts d.enforced)).regs := by
  have hc := d.closePeriod_charges now b
  unfold Dev.periodRenew
  extract_lets e p0 d' debts p1 d1 d2 d3
  have hd' : d' = { e with pbu := { e.pbu with late := [], draws := [] } } :=
    (congrArg (Dev.settle · now 0x0060 0) (Dev.calPeriod_of_none (d := { e with pbu := { e.pbu with late := [], draws := [] } }) (hc.calRun.trans hrun))).trans
      (Dev.settle_of_noSettings (d := { e with pbu := { e.pbu with late := [], draws := [] } }) _ _ _ ((congrArg StewSt.settings hc.stew).trans hset))
  have hdebts : debts = e.debts d.enforced := by
    unfold debts Dev.debts
    rw [show d'.enforced = d.enforced by rw [hd']; exact d.closePeriod_enforced now b]
  have hd3 : d3 = d2 := by
    unfold d3
    rw [hlate]
    rfl
  refine ⟨((d1.periodBanks now b cue).powerScale avg).showBank, ?_⟩
  show d3.regs = _
  rw [hd3, ← hdebts]

/-- What the renewal at b leaves in PBU_PERIOD_AT and USED (R81, R82, R85). -/
theorem periodRenew_writes {d : Dev} {now b c k : Nat} {avg : F32} {cue : Bool} (hc : c < 16) (hk : k < 8) (hrun : d.pbu.calRun = none) (hlate : d.pbu.late = [])
    (hset : d.stew.settings = []) (hb : b < 2 ^ 64) :
    (d.periodRenew now b avg cue).rn (r0 .pbuPeriodAt) = b ∧
      (d.periodRenew now b avg cue).used c k = if d.enforced then (d.closePeriod now b).used c k - d.budget c k else 0 := by
  obtain ⟨d1, hregs⟩ := Dev.periodRenew_renews (now := now) (b := b) (avg := avg) (cue := cue) hrun hlate hset
  have hrn (r : Reg) := Dev.rn_of_rd (Dev.rd_of_regs hregs r)
  constructor
  · rw [hrn, Dev.rn_of_rd (Dev.renew_periodAt ..)]
    exact Dev.rn_wn_of_lt hb
  · have hlt : (d.closePeriod now b).used c k < 2 ^ 64 := Dev.rn_lt ..
    unfold Dev.used at *
    rw [hrn]
    refine (Dev.renew_used _ now _ hc hk).trans ?_
    rw [Dev.debts_getD hc hk, Dev.closePeriod_debt]
    unfold Dev.used
    split
    · exact Nat.mod_eq_of_lt (by omega)
    · rfl

/-! ### The trigger, and a period without one -/

theorem periodStart_renews {s : State} {t b : Nat} {avg : F32} (htrig : tget s.dev.cue.trig 1 = some b) (hon : s.dev.on 155 = true) :
    Answers (.periodStart t avg) s fun s' => ∃ d0 : Dev, s'.dev = ((d0.periodRenew (s.now t) b avg true).periodBegins (s.now t) b).settleEnds (s.now t) ∧
      tget d0.cue.trig 1 = none ∧ d0.regs = s.dev.regs ∧ d0.mem = s.dev.mem := by
  refine ⟨_, rfl, { s.dev with cue := { s.dev.cue with trig := tdel s.dev.cue.trig 1 }, pbu := { s.dev.pbu with selfAt := 0 } }, ?_, ?_, rfl, rfl⟩
  · dsimp only
    rw [htrig]
    exact if_pos hon
  · simp [tget_tdel]

theorem pbuMissedPeriod_starts {s : State} {t b : Nat} {avg : F32} (hpbu : s.dev.on 155 = true) (heic : s.dev.on 156 = true) (htriggered : s.dev.pbu.triggered = true)
    (htrig : tget s.dev.cue.trig 1 = none)
    (hb : b = s.dev.dueAfter (s.dev.rn (r0 .pbuPeriodAt)) (if s.dev.pbu.selfAt = 0 then 2 * s.dev.periodLen else s.dev.periodLen)) (hdue : b ≤ s.now t) :
    Answers (.pbuMissedPeriod t avg) s fun s' => ∃ d0 : Dev, s'.dev = ((d0.periodRenew (s.now t) b avg false).periodBegins (s.now t) b).settleEnds (s.now t) ∧
      d0.fb (r0 .pbuStat) F.pbuStat.MISSED = true ∧ d0.eic.pend.contains 4 = true ∧ d0.pbu.selfAt = b := by
  let d1 : Dev := { s.dev with pbu := { s.dev.pbu with selfAt := b } }
  refine ⟨_, rfl, ((d1.sf (r0 .pbuStat) F.pbuStat.MISSED 1).raise 4).almMc 0x030 1 (s.now t) [b], ?_, ?_, ?_, ?_⟩
  · dsimp only
    rw [← hb]
    exact if_pos ⟨hpbu, htriggered, Option.isNone_iff_eq_none.mpr htrig, hdue⟩
  · rw [Dev.fb_of_rd (Dev.rd_of_regs (Dev.almMc_regs ..) _), Dev.fb_of_rd (Dev.rd_of_regs (Dev.raise_regs ..) _)]
    exact Dev.fb_sf d1 _ true (by decide) rfl
  · rw [Dev.almMc_eic]
    exact Dev.raise_pend rfl heic
  · rw [Dev.almMc_pbu, Dev.raise_pbu]
    rfl

/-- Settles O43: a clause each for the trigger, the missed trigger and the renewal, whose charges and gates write no register that it reads of the old period. -/
theorem periodsStart : Obligations.PeriodsStart := by
  unfold Obligations.PeriodsStart
  refine ⟨fun _ _ _ _ => periodStart_renews, fun _ _ _ hpbu heic htriggered htrig hdue => pbuMissedPeriod_starts hpbu heic htriggered htrig rfl hdue, ?_⟩
  intro d now b avg cue c k hc hk hrun hlate hset hb
  obtain ⟨hat, hused⟩ := periodRenew_writes (now := now) (avg := avg) (cue := cue) hc hk hrun hlate hset hb
  exact ⟨hat, hused, Dev.closePeriod_of_idle⟩

end Sys2Proof.Machine

/-! ## O33, O34: faults and what a teardown leaves -/

namespace Sys2Proof.Machine

/-! ### Objects, requests and the page table leave the fabric -/

@[simp] theorem Dev.locPut_fab (d : Dev) (l : Loc) (off n : Nat) (rel : Memory) : (d.locPut l off n rel).fab = d.fab := by
  obtain ⟨_, _, h⟩ := d.locPut_eq l off n rel
  rw [h]

@[simp] theorem Dev.dropArea_fab (d : Dev) (t a : Nat) : (d.dropArea t a).fab = d.fab := rfl
@[simp] theorem Dev.freeObj_fab (d : Dev) (i : Nat) : (d.freeObj i).fab = d.fab := rfl

@[simp] theorem Dev.putRaw_fab (d : Dev) (x : Desc) (off n : Nat) (data : Memory) : (d.putRaw x off n data).fab = d.fab := by
  unfold Dev.putRaw
  exact (foldl_fab (fun _ _ => Dev.modObj_fab ..) _ _).trans (Dev.locPut_fab ..)

@[simp] theorem Dev.commitAreas_fab (d : Dev) (x : SluReq) : (d.commitAreas x).fab = d.fab := by
  unfold Dev.commitAreas
  refine foldl_fab (fun d p => ?_) _ d
  split
  · exact Dev.putRaw_fab ..
  · rfl

@[simp] theorem Dev.commitMove_fab (d : Dev) (now r : Nat) : (d.commitMove now r).fab = d.fab := by
  unfold Dev.commitMove
  split
  · rfl
  · dsimp only
    split <;> try split
    all_goals simp

@[simp] theorem Dev.cancelMoves_fab (d : Dev) (now : Nat) (l : List Nat) : (l.foldl (fun d r => d.cancelMove now r 0) d).fab = d.fab :=
  foldl_fab (fun _ _ => Dev.cancelMove_fab ..) l d

@[simp] theorem Dev.removeObj_fab (d : Dev) (now i : Nat) : (d.removeObj now i).fab = d.fab := by
  unfold Dev.removeObj
  extract_lets moves d1 d2 isPool kv d3
  have h1 : d1.fab = d.fab := Dev.cancelMoves_fab ..
  have h2 : d2.fab = d1.fab := by
    unfold d2
    split
    · exact foldl_fab (fun _ _ => Dev.turnAway_fab ..) _ _
    · rfl
  have h3 : d3.fab = d2.fab := by
    unfold d3
    split <;> rfl
  exact h3.trans (h2.trans h1)

@[simp] theorem Dev.dropT0_fab (d : Dev) (c : Nat) : (d.dropT0 c).fab = d.fab := by
  unfold Dev.dropT0
  refine foldl_fab (fun d e => ?_) _ d
  split
  · exact Dev.modObj_fab ..
  · rfl

theorem Dev.leaveObjects_fab (d : Dev) (now c : Nat) (key : Key) : (d.leaveObjects now c key).fab = d.fab := by
  unfold Dev.leaveObjects
  refine (foldl_fab (fun d e => ?_) _ _).trans (Dev.dropT0_fab ..)
  dsimp only
  split
  · exact Dev.modObj_fab ..
  · split <;> simp

@[simp] theorem Dev.syncKv_fab (d : Dev) : d.syncKv.fab = d.fab := rfl

@[simp] theorem Dev.sealPage_fab (d : Dev) (i : Nat) : (d.sealPage i).fab = d.fab := by
  unfold Dev.sealPage
  split
  · split <;> rfl
  · rfl

theorem Dev.derefAll_fab (d : Dev) (l : List Nat) : (d.derefAll l).fab = d.fab := by
  unfold Dev.derefAll
  exact foldl_fab (fun _ _ => Dev.modPage_fab ..) l d

theorem Dev.unpinSeq_fab (d : Dev) (slot : Nat) : (d.unpinSeq slot).fab = d.fab := by
  unfold Dev.unpinSeq
  split
  · refine (Dev.modSeq_fab ..).trans (foldl_fab (fun d p => ?_) _ d)
    exact Dev.modPage_fab ..
  · rfl

@[simp] theorem Dev.suspend_fab (d : Dev) (slot : Nat) : (d.suspend slot).fab = d.fab := Dev.raise_fab ..

@[simp] theorem Dev.endStep_fab (d : Dev) (now ctx : Nat) : (d.endStep now ctx).fab = d.fab := by
  unfold Dev.endStep
  split
  · rfl
  · split
    · rfl
    · extract_lets bs bad d1 d2 kv d3
      have h1 : d1.fab = d.fab := by
        unfold d1
        split <;> simp
      have h2 : d2.fab = d1.fab := foldl_fab (fun _ _ => Dev.modSeq_fab ..) _ d1
      exact (Dev.finishAt_fab ..).trans (h2.trans h1)

@[simp] theorem Dev.uncopy_fab (d : Dev) (slot src dst : Nat) : (d.uncopy slot src dst).fab = d.fab := by
  unfold Dev.uncopy
  dsimp only
  split <;> rfl

@[simp] theorem Dev.giveWay_fab (d : Dev) (page : Nat) : (d.giveWay page).fab = d.fab := by
  unfold Dev.giveWay
  refine foldl_fab (fun d e => ?_) _ d
  split <;> rfl

@[simp] theorem Dev.moveFailed_fab (d : Dev) (now slot : Nat) (m : KvMove) (items : List (Nat × Nat)) : (d.moveFailed now slot m items).fab = d.fab := by
  unfold Dev.moveFailed
  extract_lets d1
  have h1 : d1.fab = d.fab := by
    unfold d1
    split
    · exact foldl_fab (fun _ _ => Dev.uncopy_fab ..) _ d
    · refine foldl_fab (fun d i => ?_) _ d
      exact (Dev.giveWay_fab ..).trans (Dev.modPage_fab ..)
  exact (Dev.almMc_fab ..).trans ((Dev.suspend_fab ..).trans h1)

theorem Dev.kvRequestDone_fab (d : Dev) (now r : Nat) (p : Purpose) (failed : Bool) : (d.kvRequestDone now r p failed).fab = d.fab := by
  unfold Dev.kvRequestDone
  split
  · extract_lets d1 mine kv d2
    have h1 : d1.fab = d.fab := by
      unfold d1
      split
      · split
        · rfl
        · rfl
        · split
          · exact Dev.moveFailed_fab ..
          · rfl
      · split
        · split
          · refine foldl_fab (fun d i => ?_) _ d
            exact (Dev.sealPage_fab ..).trans (Dev.modPage_fab ..)
          · rfl
        · exact foldl_fab (fun _ _ => Dev.sealPage_fab ..) _ d
        · rfl
    exact (foldl_fab (fun _ _ => Dev.endStep_fab ..) mine d2).trans h1
  · rfl

theorem Dev.endTornSteps_fab (d : Dev) (now ctx : Nat) : (d.endTornSteps now ctx).fab = d.fab := by
  unfold Dev.endTornSteps
  refine foldl_fab (fun d st => ?_) _ _
  split
  · exact Dev.finishAt_fab ..
  · dsimp only
    refine (Dev.finishAt_fab ..).trans ?_
    split <;> simp

theorem Dev.kvTeardown_fab (d : Dev) (now ctx : Nat) : (d.kvTeardown now ctx).fab = d.fab := by
  unfold Dev.kvTeardown
  extract_lets d0 mine d1
  have hseq (d : Dev) (slot : Nat) (l : List Nat) : ((d.unpinSeq slot).derefAll l).fab = d.fab := (Dev.derefAll_fab ..).trans (Dev.unpinSeq_fab ..)
  have h1 : d1.fab = d0.fab := by
    refine foldl_fab (fun d e => ?_) mine d0
    extract_lets e1 kv e2 e3
    have he1 : e1.fab = d.fab := by
      unfold e1
      cases e.2.listAt with
      | none => exact hseq ..
      | some a => exact (Dev.dropArea_fab ..).trans (hseq ..)
    have he3 : e3.fab = d.fab := by
      unfold e3
      split
      · exact (Dev.finishAt_fab ..).trans ((Dev.dropWait_fab ..).trans he1)
      · exact he1
    clear_value e3
    split
    · exact (Dev.finishAt_fab ..).trans he3
    · exact he3
  exact h1.trans (Dev.endTornSteps_fab ..)

/-! ### Resources -/

@[simp] theorem Dev.grant_fab (d : Dev) (now w page cls acc : Nat) : (d.grant now w page cls acc).fab = d.fab := by
  unfold Dev.grant
  dsimp only
  split
  · rfl
  · exact Dev.almMc_fab ..

@[simp] theorem Dev.grantPage_fab (d : Dev) (now page cls acc : Nat) : (d.grantPage now page cls acc).fab = d.fab := by
  unfold Dev.grantPage
  split
  · exact Dev.grant_fab ..
  · rfl

@[simp] theorem Dev.resetCamera_fab (d : Dev) (n : Nat) : (d.resetCamera n).fab = d.fab := by
  unfold Dev.resetCamera
  exact (Dev.wn_fab ..).trans (foldl_fab (fun _ _ => Dev.wr_fab ..) _ d)

@[simp] theorem Dev.resetCue_fab (d : Dev) (n : Nat) : (d.resetCue n).fab = d.fab := rfl
@[simp] theorem Dev.resetCap_fab (d : Dev) (n : Nat) : (d.resetCap n).fab = d.fab := rfl
@[simp] theorem Dev.resetPin_fab (d : Dev) (p : Nat) : (d.resetPin p).fab = d.fab := rfl

theorem Dev.clearSpi_fab (d : Dev) (n : Nat) (l : List Nat) : (l.foldl (fun d s => d.wn (r2 .spiSlot n s) 0) (d.wn (r1 .spiCfg n) 0)).fab = d.fab :=
  foldl_fab (fun _ _ => Dev.wn_fab ..) l _

theorem Dev.releasePort_frame (d : Dev) (n : Nat) : CtxFrame d (d.releasePort n) := by
  unfold Dev.releasePort
  extract_lets d1
  have h1 : CtxFrame d d1 := by
    refine .foldl (fun d e => .foldl (fun d w => .ite ?_ (.refl d)) _ d) _ d
    exact (d.unqueue_frame ..).trans (.of_fab (Dev.dropWaitId_fab ..))
  exact h1.trans (.of_fab rfl)

theorem Dev.resetResource_frame (d : Dev) (now type index : Nat) : CtxFrame d (d.resetResource now type index) := by
  unfold Dev.resetResource
  extract_lets d1
  have h1 : CtxFrame d d1 := by
    refine .ite (.of_fab (d.resetPin_fab index)) (.ite (.of_fab (d.clearSpi_fab index _)) (.ite (.of_fab (d.resetCue_fab index)) (.ite (.of_fab (d.resetCap_fab index)) ?_)))
    exact .ite (d.releasePort_frame index) (.ite (.of_fab (Dev.wn_fab ..)) (.ite (.of_fab (d.resetCamera_fab index)) (.refl d)))
  clear_value d1
  split
  · exact h1.trans (.of_fab (Dev.grantPage_fab ..))
  · exact h1

theorem Dev.setOwner_frame (d : Dev) (type index : Nat) (o : Option Owner) : CtxFrame d (d.setOwner type index o) := .of_fab (Dev.setOwner_fab ..)

theorem Dev.releaseResource_frame (d : Dev) (now type index : Nat) : CtxFrame d (d.releaseResource now type index) := by
  unfold Dev.releaseResource
  extract_lets d1 free
  have hfree (d : Dev) (g : Nat) : CtxFrame d (free d g) := by
    refine (d.setOwner_frame 0x0E g none).trans ?_
    exact .of_fab rfl
  have h1 : CtxFrame d d1 := (d.resetResource_frame ..).trans (Dev.setOwner_frame ..)
  clear_value d1 free
  split
  · exact h1.trans (hfree ..)
  · split
    · exact .ite h1 (h1.trans (hfree ..))
    · exact h1

theorem Dev.releaseClaims_frame (d : Dev) (now c : Nat) (fixed : List Nat) (cause : Key) : CtxFrame d (d.releaseClaims now c fixed cause) := by
  unfold Dev.releaseClaims
  refine .foldl (fun d r => .ite ?_ (d.releaseResource_frame ..)) _ d
  split
  · refine .of_fab ((Dev.notice_fab ..).trans ?_)
    exact Dev.setOwner_fab ..
  · exact d.setOwner_frame ..

/-! ### Requests and commands of a context -/

theorem Dev.completeReq_frame (d : Dev) (now r : Nat) : CtxFrame d (d.completeReq now r) := by
  unfold Dev.completeReq
  split
  · exact .refl d
  · extract_lets unstaged d0 k st record drawn d1 op d2 e d3 d4
    have h0 : CtxFrame d d0 := .ite (.of_fab (Dev.commitMove_fab ..)) (.refl d)
    have hk : k.2.fab = d0.fab := Dev.draw_2_fab ..
    have h1 : CtxFrame d0 d1 := by
      unfold d1
      split
      · exact .of_fab hk
      · exact .of_fab hk
    clear_value d1 d0 k
    have h2 : CtxFrame d1 d2 := .ite (.refl d1) (d1.cellOp_frame ..)
    have he : CtxFrame d2 e := .of_fab (Dev.finishPurpose_fab ..)
    have h3 : CtxFrame d2 d3 := by
      unfold d3
      refine .ite (.refl d2) ?_
      split
      · exact he.trans (.of_fab ((Dev.alm_fab ..).trans (Dev.modObj_fab ..)))
      · exact he.trans (.of_fab (Dev.freeObj_fab ..))
      · exact he
    have h4 : CtxFrame d3 d4 := .ite (.of_fab (by simp)) (.of_fab (Dev.dropReq_fab ..))
    exact ((((h0.trans h1).trans h2).trans h3).trans h4).trans (.of_fab (Dev.unlockOf_fab ..))

theorem Dev.endReqs_frame (d : Dev) (now c : Nat) (st : Status) : CtxFrame d (d.endReqs now c st) := by
  unfold Dev.endReqs
  extract_lets mine d1 mc
  have h1 : CtxFrame d d1 := by
    refine .foldl (fun d r => ?_) mine d
    extract_lets p making e
    have he : CtxFrame d e := by
      refine .trans (.trans (.of_fab ?_) (Dev.completeReq_frame ..)) (.of_fab (Dev.unlockOf_fab ..))
      simp
    clear_value e p
    cases p with
    | none => exact he
    | some q => exact he.trans (.of_fab (Dev.kvRequestDone_fab ..))
  exact .ite h1 (h1.trans (.of_fab rfl))

theorem Dev.tearSteps_frame (d : Dev) (c : Nat) : CtxFrame d (d.tearSteps c) := .of_fab rfl

theorem Dev.dropCascades_frame (d : Dev) (t : Tbl Cascade) : CtxFrame d { d with fab := { d.fab with cascades := t } } := .of_ctxs rfl rfl

theorem Dev.dropStageWaits_frame (d : Dev) (c : Nat) : CtxFrame d (d.dropStageWaits c) := by
  unfold Dev.dropStageWaits
  refine .foldl (fun d e => .foldl (fun d w => .ite ?_ (.refl d)) _ d) _ d
  exact (d.unqueue_frame ..).trans (.of_fab (Dev.dropWaitId_fab ..))

theorem Dev.modCascade_frame (d : Dev) (h : Nat) (f : Cascade → Cascade) : CtxFrame d (d.modCascade h f) := .of_ctxs rfl rfl

theorem Dev.finishRun_frame (d : Dev) (now h : Nat) (st : Status) : CtxFrame d (d.finishRun now h st) := by
  unfold Dev.finishRun
  split
  · exact (d.modCascade_frame ..).trans (.of_fab (Dev.finishAt_fab ..))
  · exact .refl d

theorem Dev.endCommands_frame (d : Dev) (now c : Nat) (st : Status) (detail : Nat) (keep : Option Nat) : CtxFrame d (d.endCommands now c st detail keep) := by
  unfold Dev.endCommands
  extract_lets runs d1 mine
  have h1 : CtxFrame d d1 := .foldl (fun d h => d.finishRun_frame ..) runs d
  exact h1.trans (.foldl (fun d r => .of_fab (Dev.finishAt_fab ..)) mine d1)

/-! ### The teardown -/

/-- A context is marked torn, where it still stands. -/
def Dev.tornAt (d : Dev) (c : Nat) : Prop := ∀ y, d.ctx? c = some y → y.torn = true

/-- No basin of the fabric belongs to a context. -/
def Dev.unowned (d : Dev) (c : Nat) : Prop := ∀ e ∈ d.fab.basins, e.2.ctx ≠ c

theorem CtxFrame.tornAt {d e : Dev} {c : Nat} (h : CtxFrame d e) (ht : d.tornAt c) : e.tornAt c := by
  intro y hy
  have hlife := h.life c
  rw [hy] at hlife
  obtain ⟨x, hx, hxy⟩ := Option.map_eq_some_iff.mp hlife.symm
  exact (congrArg Prod.fst hxy).symm.trans (ht x hx)

theorem CtxFrame.unowned {d e : Dev} {c : Nat} (h : CtxFrame d e) (hd : d.unowned c) : e.unowned c := by
  intro p hp
  obtain ⟨q, hq, hqp⟩ := h.owners p hp
  exact hqp ▸ hd q hq

theorem Dev.powerIdlePairs_frame (d : Dev) : CtxFrame d d.powerIdlePairs := .of_fab rfl

theorem Dev.syncWeirs_frame (d : Dev) : CtxFrame d d.syncWeirs := .of_fab (Dev.syncWeirs_fab ..)

/-- Scrubbing takes every basin of a context (R101, R131). -/
theorem Dev.freeBasins_unowned (d : Dev) (now c : Nat) : (d.freeBasins now c).unowned c := by
  unfold Dev.freeBasins
  extract_lets mine area fab d1 d2
  have h1 : d1.unowned c := fun e he => by simpa using (List.mem_filter.mp he).2
  have h2 : CtxFrame d1 d2 := .ite (.refl d1) (.of_fab rfl)
  have hweir : CtxFrame d2 d2.powerIdlePairs.syncWeirs := d2.powerIdlePairs_frame.trans (Dev.syncWeirs_frame _)
  exact ((h2.trans hweir).trans (.foldl (fun d l => d.weirChoose_frame ..) mine _)).unowned h1

theorem Dev.freeBasins_tornAt {d : Dev} {c : Nat} (now : Nat) (h : d.tornAt c) : (d.freeBasins now c).tornAt c := by
  unfold Dev.freeBasins
  extract_lets mine area fab d1 d2
  have h1 : d1.tornAt c := by
    intro y hy
    unfold d1 Dev.ctx? at hy
    rw [tget_tmod, if_pos rfl] at hy
    obtain ⟨x, hx, rfl⟩ := Option.map_eq_some_iff.mp hy
    exact h x hx
  have h2 : CtxFrame d1 d2 := .ite (.refl d1) (.of_fab rfl)
  have hweir : CtxFrame d2 d2.powerIdlePairs.syncWeirs := d2.powerIdlePairs_frame.trans (Dev.syncWeirs_frame _)
  exact ((h2.trans hweir).trans (.foldl (fun d l => d.weirChoose_frame ..) mine _)).tornAt h1

theorem Dev.ctxState_of_rd {d e : Dev} {c : Nat} (h : e.rd (r1 .pbuCtxCfg c) = d.rd (r1 .pbuCtxCfg c)) : e.ctxState c = d.ctxState c := Dev.f_of_rd h _

theorem Dev.ctxState_sf (d : Dev) (c n : Nat) (h : n < 4) : (d.sf (r1 .pbuCtxCfg c) F.pbuCtxCfg.STATE n).ctxState c = n :=
  (Dev.f_sf d _ n (by unfold Fld.ok; decide)).trans (Nat.mod_eq_of_lt h)

/-- What stands of a torn-down context once its basins are scrubbed: from then on its register is written, and the fabric keeps its contexts and basins (R101). -/
theorem Dev.teardown_frees {d : Dev} {c : Nat} {x : Ctx} (now : Nat) (fault : CtxFault) (hx : d.ctx? c = some x) (ht : x.torn = false) :
    ∃ d4 d6 : Dev, d4.tornAt c ∧ d4.unowned c ∧ CtxFrame d4 d6 ∧ ∃ key : Key,
      d.teardown now c fault = ((d6.sf (r1 .pbuCtxCfg c) F.pbuCtxCfg.STATE 0).alm 0x040 2 key now [c, fault.code]).notice now x.mbx 2 c .faultTorndown key := by
  unfold Dev.teardown
  split
  · next hnone => exact absurd (hx.symm.trans hnone) (by simp)
  · next y hy =>
    obtain rfl : x = y := Option.some.inj (hx.symm.trans hy)
    split
    · next htorn => exact absurd htorn (by simp [ht])
    · extract_lets k fixed drawn fab slu d1 d2 mine d3 d4 d5 kept d6 d7
      have h1 : d1.tornAt c := by
        intro y hy
        unfold d1 Dev.ctx? at hy
        rw [tget_tmod, if_pos rfl] at hy
        obtain ⟨_, _, rfl⟩ := Option.map_eq_some_iff.mp hy
        rfl
      have h2 : CtxFrame d1 d2 := (Dev.tearSteps_frame d1 c).trans ((Dev.endReqs_frame ..).trans (Dev.dropStageWaits_frame ..))
      have h3 : CtxFrame d2 d3 := .trans (.foldl (fun d n => d.breakCell_frame ..) mine d2) (.of_fab (Dev.kvTeardown_fab ..))
      have h5 : CtxFrame d4 d5 := d4.endCommands_frame ..
      have h6 : CtxFrame d5 d6 := .trans (.trans (Dev.dropCascades_frame d5 _) (.of_fab (Dev.leaveObjects_fab ..))) (Dev.releaseClaims_frame ..)
      exact ⟨d4, d6, Dev.freeBasins_tornAt now ((h2.trans h3).tornAt h1), d3.freeBasins_unowned now c, h5.trans h6, k.1, rfl⟩

theorem Dev.notice_rd {d : Dev} {now m kind subject : Nat} {st : Status} {cause : Key} {r : Reg} (h : r.name ≠ .mbxCpl) :
    (d.notice now m kind subject st cause).rd r = d.rd r := by
  unfold Dev.notice
  dsimp only
  split
  · exact (Dev.flushNotices_notices _ now m 64).rd r h
  · rfl

/-- R101: a torn-down context is unbound and marked, and holds no basin. -/
theorem Dev.teardown_tears {d : Dev} {c : Nat} {x : Ctx} (now : Nat) (fault : CtxFault) (hx : d.ctx? c = some x) (ht : x.torn = false) :
    (d.teardown now c fault).ctxState c = 0 ∧ (d.teardown now c fault).unowned c ∧ (d.teardown now c fault).tornAt c := by
  obtain ⟨d4, d6, htorn, hfree, h6, key, heq⟩ := Dev.teardown_frees now fault hx ht
  rw [heq]
  have hend : CtxFrame d6 (((d6.sf (r1 .pbuCtxCfg c) F.pbuCtxCfg.STATE 0).alm 0x040 2 key now [c, fault.code]).notice now x.mbx 2 c .faultTorndown key) :=
    .of_fab ((Dev.notice_fab ..).trans ((Dev.alm_fab ..).trans (Dev.sf_fab ..)))
  refine ⟨?_, (h6.trans hend).unowned hfree, (h6.trans hend).tornAt htorn⟩
  refine (Dev.ctxState_of_rd ?_).trans (d6.ctxState_sf c 0 (by decide))
  exact (Dev.notice_rd (by simp)).trans (Dev.rd_of_regs (Dev.alm_regs ..) _)

/-- Settles O34: the basins go when they are scrubbed and the mark stands from the start; what follows keeps both. -/
theorem tornContextHoldsNothing : Obligations.TornContextHoldsNothing := by
  unfold Obligations.TornContextHoldsNothing
  intro d now c fault x hx ht
  exact d.teardown_tears now fault hx ht

/-! ### The faults -/

/-- A context stands and is not torn. -/
def Dev.standing (d : Dev) (c : Nat) : Prop := ∃ x, d.ctx? c = some x ∧ x.torn = false

theorem Dev.teardown_unbinds {d : Dev} {c : Nat} (now : Nat) (fault : CtxFault) (h : d.standing c) : (d.teardown now c fault).ctxState c = 0 := by
  obtain ⟨x, hx, ht⟩ := h
  exact (Dev.teardown_tears now fault hx ht).1

theorem CtxFrame.standing {d e : Dev} {c : Nat} (h : CtxFrame d e) (hd : d.standing c) : e.standing c := by
  obtain ⟨x, hx, ht⟩ := hd
  have hlife := h.life c
  rw [hx] at hlife
  obtain ⟨y, hy, hyx⟩ := Option.map_eq_some_iff.mp hlife
  exact ⟨y, hy, (congrArg Prod.fst hyx).trans ht⟩

/-- An error is counted for its basin, and the health record takes it (R100, R136). -/
def Dev.uncorrCounted (d : Dev) (now l a : Nat) : Dev :=
  ({ d with fab := { d.fab with uncorr := (d.physical l, d.opTime now) :: d.fab.uncorr } }).almMc 0x050 2 now [d.physical l, a]

theorem Dev.uncorrCounted_frame (d : Dev) (now l a : Nat) : CtxFrame d (d.uncorrCounted now l a) := by
  have h : (d.uncorrCounted now l a).fab = { d.fab with uncorr := (d.physical l, d.opTime now) :: d.fab.uncorr } := Dev.almMc_fab ..
  exact .of_ctxs (by rw [h]) (by rw [h])

theorem execBasinStoreUncorrectable_eq {s : State} {l : Nat} (t a : Nat) (hl : l < 256) (hon : s.dev.on (pairOf (s.dev.physical l)) = true) :
    exec (.basinStoreUncorrectable t l a) s = .next { s with dt := s.now t, dev := s.dev.basinUncorrectable (s.now t) l a } := by
  show execBasinStoreUncorrectable t l a s = _
  unfold execBasinStoreUncorrectable
  rw [State.run_eq, if_pos ⟨hl, hon⟩]

theorem basinUncorrectable_unbinds {s : State} {t l a : Nat} {b : Basin} {x : Ctx} (hl : l < 256) (hon : s.dev.on (pairOf (s.dev.physical l)) = true)
    (hb : s.dev.basin? l = some b) (hx : s.dev.ctx? b.ctx = some x) (ht : x.torn = false) :
    Answers (.basinStoreUncorrectable t l a) s fun s' => s'.dev.ctxState b.ctx = 0 := by
  refine ⟨_, execBasinStoreUncorrectable_eq t a hl hon, ?_⟩
  have h : s.dev.basinUncorrectable (s.now t) l a = (s.dev.uncorrCounted (s.now t) l a).teardown (s.now t) b.ctx .uncorrectable := by
    unfold Dev.basinUncorrectable
    rw [hb]
    rfl
  dsimp only
  rw [h]
  exact Dev.teardown_unbinds _ _ ((s.dev.uncorrCounted_frame ..).standing ⟨x, hx, ht⟩)

theorem basinUncorrectable_unbound {s : State} {t l a : Nat} (hl : l < 256) (hon : s.dev.on (pairOf (s.dev.physical l)) = true) (hb : s.dev.basin? l = none) :
    Answers (.basinStoreUncorrectable t l a) s fun s' => s'.dev.fab.uncorr = (s.dev.physical l, s.dev.opTime (s.now t)) :: s.dev.fab.uncorr ∧
      s'.dev.regs = s.dev.regs ∧ s'.dev.mem = s.dev.mem := by
  refine ⟨_, execBasinStoreUncorrectable_eq t a hl hon, ?_⟩
  have h : s.dev.basinUncorrectable (s.now t) l a = s.dev.uncorrCounted (s.now t) l a := by
    unfold Dev.basinUncorrectable
    rw [hb]
    rfl
  dsimp only
  rw [h]
  unfold Dev.uncorrCounted
  exact ⟨by rw [Dev.almMc_fab], Dev.almMc_regs .., Dev.almMc_mem ..⟩

/-- A watched context is not torn. -/
theorem Dev.standing_of_watched {d : Dev} {c : Nat} {x : Ctx} (hx : d.ctx? c = some x) (h : d.watched c = true) : d.standing c := by
  unfold Dev.watched at h
  rw [hx] at h
  simp only [Bool.and_eq_true, Bool.not_eq_true'] at h
  obtain ⟨⟨⟨⟨_, ht⟩, _⟩, _⟩, _⟩ := h
  exact ⟨x, hx, ht⟩

theorem deadlockWatchdog_unbinds {s : State} {t c : Nat} {x : Ctx} (hx : s.dev.ctx? c = some x) (hw : s.dev.watched c = true)
    (hdue : s.dev.f (r0 .pbuCtrl) F.pbuCtrl.WDOG_MS * 1000000 ≤ s.dev.elapsed x.lastChange (s.now t)) :
    Answers (.deadlockWatchdog t c) s fun s' => s'.dev.ctxState c = 0 := by
  refine ⟨_, rfl, ?_⟩
  dsimp only
  rw [hx]
  dsimp only
  rw [if_pos ⟨hw, hdue⟩]
  exact Dev.teardown_unbinds _ _ (Dev.standing_of_watched hx hw)

/-- No waiter whose wait carries a chain had expired before the hold limit: the chain stands (R115). -/
theorem Dev.chainExpired_of_none {d : Dev} {now at_ : Nat} {y : Carry} (hone : d.fab.carries = [y])
    (h : ∀ c w, tget d.cells y.cell = some c → w ∈ c.waiters → w.ctx = y.by_ → d.lapsed at_ w = false) : d.chainExpired now at_ y = d := by
  unfold Dev.chainExpired
  refine foldl_of_fixed fun z hz => ?_
  rw [hone] at hz
  obtain rfl : z = y := List.mem_singleton.mp (List.mem_filter.mp hz).1
  split
  · next c hc =>
    rw [List.filter_eq_nil_iff.mpr fun w hw hcond => ?_]
    · rfl
    · simp only [Bool.and_eq_true, beq_iff_eq] at hcond
      simp [h c w hc hw hcond.1] at hcond
  · rfl

theorem holdLimitExpire_unbinds {s : State} {t e : Nat} {y : Carry} {x : Ctx} (hone : (s.dev.syncCarries (s.now t)).fab.carries = [y])
    (hend : (s.dev.syncCarries (s.now t)).holdEnd y = some e) (he : e < s.now t)
    (hw : ∀ c w, tget s.dev.cells y.cell = some c → w ∈ c.waiters → w.ctx = y.by_ → s.dev.lapsed e w = false) (hx : s.dev.ctx? y.holder = some x) (ht : x.torn = false) :
    Answers (.holdLimitExpire t) s fun s' => s'.dev.ctxState y.holder = 0 := by
  refine ⟨_, rfl, ?_⟩
  dsimp only
  have hd0 : (s.dev.syncCarries (s.now t)).standing y.holder := ⟨x, hx, ht⟩
  have hchain : (s.dev.syncCarries (s.now t)).chainExpired (s.now t) e y = s.dev.syncCarries (s.now t) := Dev.chainExpired_of_none hone hw
  unfold Dev.holdExpire
  dsimp only
  generalize s.dev.syncCarries (s.now t) = d0 at *
  have hfind : d0.fab.carries.find? (fun x => (d0.holdEnd x).elim false fun e => decide (e < s.now t)) = some y := by
    rw [hone, List.find?_cons_of_pos (by simp [hend, he])]
  rw [hfind]
  dsimp only
  rw [hend, Option.getD_some, hchain, hone, if_pos (by simp)]
  exact Dev.teardown_unbinds _ _ ((d0.breakCell_frame ..).standing hd0)

/-- Settles O33: each fault finds its context standing, and the teardown unbinds it. -/
theorem faultsTearDown : Obligations.FaultsTearDown := by
  unfold Obligations.FaultsTearDown
  exact ⟨fun _ _ _ _ _ _ => basinUncorrectable_unbinds, fun _ _ _ _ => basinUncorrectable_unbound, fun _ _ _ _ => deadlockWatchdog_unbinds,
    fun _ _ _ _ _ => holdLimitExpire_unbinds⟩

end Sys2Proof.Machine

/-! ## O32: the end of a tile and of a context switch -/

namespace Sys2Proof.Machine

/-! ### Runs and lists -/

@[simp] theorem Dev.listNext_fab (d : Dev) (now h li : Nat) : (d.listNext now h li).fab = d.fab := by
  unfold Dev.listNext
  dsimp only
  split
  · split <;> simp
  · simp

@[simp] theorem Dev.listAdvance_fab (d : Dev) (now l e : Nat) : (d.listAdvance now l e).fab = d.fab := by
  unfold Dev.listAdvance
  refine foldl_fab (fun d x => ?_) _ d
  split
  · split
    · exact Dev.listNext_fab ..
    · rfl
  · rfl

@[simp] theorem Dev.endWait_fab (d : Dev) (o : WaitOwner) (b : Bool) : (d.endWait o b).fab = d.fab := by
  unfold Dev.endWait
  split
  · exact (Dev.dropWait_fab ..).trans (Dev.commitWait_fab ..)
  · exact Dev.dropWait_fab ..

theorem Dev.stopLists_fab (d : Dev) (h : Nat) : (d.stopLists h).fab = d.fab := by
  unfold Dev.stopLists
  refine foldl_fab (fun d e => ?_) _ _
  split
  · exact Dev.dropReq_fab ..
  · split
    · exact Dev.cutReq_fab ..
    · exact (Dev.modReq_fab ..).trans (Dev.dropWait_fab ..)

theorem Dev.resetBasin_frame (d : Dev) (c : Cascade) (b : ImgBasin) : CtxFrame d (d.resetBasin c b) := by
  unfold Dev.resetBasin
  split
  · next x hx =>
    split
    · next hc => exact .setBasin hx hc.symm fun _ _ => rfl
    · exact .refl d
  · exact .of_ctxs rfl rfl

theorem Dev.settleRuns_frame (d : Dev) (now : Nat) : CtxFrame d (d.settleRuns now) := by
  unfold Dev.settleRuns
  refine .foldl (fun d e => ?_) _ d
  split
  · refine .ite ?_ (.refl d)
    have hreset : CtxFrame d (e.2.basins.foldl (fun (d : Dev) b => d.resetBasin e.2 b) d) := .foldl (fun d b => d.resetBasin_frame ..) _ d
    exact ((hreset.trans (Dev.modCascade_frame ..)).trans (Dev.syncWeirs_frame _)).trans (Dev.finishRun_frame ..)
  · exact .refl d

theorem Dev.endRun_frame (d : Dev) (now h : Nat) (late : Bool) : CtxFrame d (d.endRun now h late) :=
  ((d.modCascade_frame ..).trans (.of_fab (Dev.stopLists_fab ..))).trans (Dev.settleRuns_frame ..)

theorem Dev.endInvocation_frame (d : Dev) (now h : Nat) : CtxFrame d (d.endInvocation now h) := by
  unfold Dev.endInvocation
  split
  · exact .refl d
  · extract_lets d1 late
    have h1 : CtxFrame d d1 := d.modCascade_frame ..
    refine .ite (h1.trans (.of_fab (Dev.beginInvocation_fab ..))) (.ite ?_ ?_)
    · exact .trans (.of_fab (Dev.endWait_fab ..)) (Dev.endRun_frame ..)
    · exact (h1.trans (.of_fab (Dev.endWait_fab ..))).trans (Dev.finishRun_frame ..)

theorem Dev.checkRuns_frame (d : Dev) (now ctx : Nat) : CtxFrame d (d.checkRuns now ctx) :=
  .foldl (fun d _ => .ite (.ite (d.endInvocation_frame ..) (.refl d)) (.refl d)) _ d

/-! ### Scoreboards -/

theorem Dev.modEntry_frame (d : Dev) (now l e : Nat) (f : SbEntry → SbEntry) : CtxFrame d (d.modEntry now l e f) := by
  unfold Dev.modEntry
  split
  · next b hb =>
    extract_lets d1
    have h1 : CtxFrame d d1 := .setBasin hb rfl fun _ h => h
    exact h1.trans (.modCtx _ _ _ fun _ => rfl)
  · exact .refl d

theorem Dev.setMask_frame (d : Dev) (l e slot : Nat) (m : List Nat) : CtxFrame d (d.setMask l e slot m) := by
  unfold Dev.setMask
  split
  · next b hb => exact .setBasin hb rfl fun _ h => h
  · exact .refl d

theorem Dev.sheetBack_frame (d : Dev) (now l e : Nat) : CtxFrame d (d.sheetBack now l e) := by
  unfold Dev.sheetBack
  split
  · exact .refl d
  · next b hb =>
    split
    · extract_lets x d1 d2
      have h1 : CtxFrame d d1 := .of_fab rfl
      have h2 : CtxFrame d1 d2 := .setBasin (b := b) hb rfl fun _ h => h
      exact (h1.trans h2).trans ((Dev.charge_paid ..).trans (Dev.charge_paid ..)).frame
    · exact .refl d

theorem Dev.freeSlot_frame (d : Dev) (now l e : Nat) (slot : Option Nat) : CtxFrame d (d.freeSlot now l e slot) := by
  unfold Dev.freeSlot
  split
  · extract_lets x d1 producer
    have h1 : CtxFrame d d1 := ((d.modEntry_frame ..).trans (Dev.setMask_frame ..)).trans (Dev.sheetBack_frame ..)
    exact .ite (h1.trans (.of_ctxs rfl rfl)) (.ite (h1.trans (.of_fab (Dev.listAdvance_fab ..))) h1)
  · exact .refl d

theorem Dev.postResult_frame (d : Dev) (now l w : Nat) (r : Running) : CtxFrame d (d.postResult now l w r) := by
  unfold Dev.postResult
  split
  · exact .refl d
  · extract_lets x d1
    have h1 : CtxFrame d d1 := d.modEntry_frame ..
    exact .ite (.refl d) (.ite (d.modEntry_frame ..) (.ite (h1.trans (.of_fab (Dev.listAdvance_fab ..))) h1))

/-! ### A tile that ends -/

/-- A stage of a basin does not run. -/
def Dev.stageIdle (d : Dev) (l st : Nat) : Prop := ∀ b, d.basin? l = some b → tget b.running st = none

theorem CtxFrame.stageIdle {d e : Dev} {l st : Nat} (h : CtxFrame d e) (hd : d.stageIdle l st) : e.stageIdle l st := by
  intro b' hb'
  obtain ⟨b, hb, hr⟩ := h.idle l b' hb'
  exact hr st (hd b hb)

/-- The basin of a tile that ends: its stage stops, its cycles are charged, STALLS counts (R83, R130). -/
def Dev.tileStopped (d : Dev) (now l i cycles stalls : Nat) (b : Basin) (r : Running) : Dev :=
  let d2 := (d.setBasin l { b with running := tdel b.running i, chargedTo := max b.chargedTo now }).chargeBasin now b.ctx (l / 64) (d.tileCycles now cycles b r)
  d2.wn (r1 .pbuWeirStalls (l / 64)) ((d2.rn (r1 .pbuWeirStalls (l / 64)) + min (min 2048 cycles) stalls) % 2 ^ 64)

/-- Its operand slots are free, its result slot is ready (R124). -/
def Dev.slotsMoved (d : Dev) (now l w : Nat) (r : Running) : Dev :=
  let d4 := (d.freeSlot now l (stInA w) (some r.slotA)).freeSlot now l (stInB w) (if stInB w = stInA w then none else r.slotB)
  let own := if stParam w = stInA w ∨ stParam w = stInB w then none else r.slotParam
  (d4.freeSlot now l (stParam w) own).postResult now l w r

/-- The weir of a basin where no stage runs chooses (R93). -/
def Dev.weirsAfter (d : Dev) (now l : Nat) : Dev :=
  let idle := match d.basin? l with
    | some y => y.running.isEmpty
    | none => true
  if idle then (d.syncWeirs).weirChoose now l else d.syncWeirs

theorem Dev.tileEnd_eq {d : Dev} {l i : Nat} {b : Basin} {r : Running} (now cycles stalls : Nat) (hb : d.basin? l = some b) (hr : tget b.running i = some r) (hw : r.worked = true) :
    d.tileEnd now l i cycles stalls = (let d5 := (d.tileStopped now l i cycles stalls b r).slotsMoved now l (b.stages.getD i 0) r
      (if stLast (b.stages.getD i 0) then d5.checkRuns now b.ctx else d5).weirsAfter now l) := by
  unfold Dev.tileEnd
  simp only [hb, hr]
  rw [if_neg (by simp [hw])]
  rfl

theorem Dev.tileStopped_idle (d : Dev) (now l i cycles stalls : Nat) (b : Basin) (r : Running) : (d.tileStopped now l i cycles stalls b r).stageIdle l i := by
  unfold Dev.tileStopped
  extract_lets d2
  have h1 : (d.setBasin l { b with running := tdel b.running i, chargedTo := max b.chargedTo now }).stageIdle l i := by
    intro b' hb'
    unfold Dev.setBasin Dev.basin? at hb'
    rw [tget_tset] at hb'
    rw [← Option.some.inj hb']
    exact tget_tdel ..
  have h2 : d2.stageIdle l i := (Dev.chargeBasin_paid ..).frame.stageIdle h1
  exact h2

theorem Dev.slotsMoved_frame (d : Dev) (now l w : Nat) (r : Running) : CtxFrame d (d.slotsMoved now l w r) :=
  (((d.freeSlot_frame ..).trans (Dev.freeSlot_frame ..)).trans (Dev.freeSlot_frame ..)).trans (Dev.postResult_frame ..)

theorem Dev.weirsAfter_frame (d : Dev) (now l : Nat) : CtxFrame d (d.weirsAfter now l) := by
  unfold Dev.weirsAfter
  exact .ite ((d.syncWeirs_frame).trans (Dev.weirChoose_frame ..)) d.syncWeirs_frame

theorem Dev.tileEnd_idle {d : Dev} {l i : Nat} {b : Basin} {r : Running} (now cycles stalls : Nat) (hb : d.basin? l = some b) (hr : tget b.running i = some r) (hw : r.worked = true) :
    (d.tileEnd now l i cycles stalls).stageIdle l i := by
  rw [Dev.tileEnd_eq now cycles stalls hb hr hw]
  extract_lets d5
  have h5 : d5.stageIdle l i := (Dev.slotsMoved_frame ..).stageIdle (d.tileStopped_idle now l i cycles stalls b r)
  exact ((CtxFrame.ite (d5.checkRuns_frame now b.ctx) (.refl d5)).trans (Dev.weirsAfter_frame ..)).stageIdle h5

/-! ### A tile with local entries -/

/-- Between two states the basins, the memory and the registers beside those of contexts and weirs' states are as before (R93). -/
structure WeirFrame (d e : Dev) : Prop where
  basins : e.fab.basins = d.fab.basins
  mem : e.mem = d.mem
  regs : KeepsRegs (· == .pbuWeirStalls) d e

namespace WeirFrame

variable {d e f : Dev}

theorem refl (d : Dev) : WeirFrame d d := ⟨rfl, rfl, .refl _ d⟩

theorem trans (a : WeirFrame d e) (b : WeirFrame e f) : WeirFrame d f := ⟨b.basins.trans a.basins, b.mem.trans a.mem, a.regs.trans b.regs⟩

theorem ite {c : Prop} [Decidable c] {e e' : Dev} (h : WeirFrame d e) (h' : WeirFrame d e') : WeirFrame d (if c then e else e') := by
  split <;> assumption

theorem foldl {α : Type} {g : Dev → α → Dev} (h : ∀ d a, WeirFrame d (g d a)) (l : List α) (d : Dev) : WeirFrame d (l.foldl g d) :=
  List.foldlRecOn l g (motive := WeirFrame d) (refl d) fun _ hd a _ => hd.trans (h _ a)

theorem sf {r : Reg} (x : Fld) (n : Nat) (h : (r.name == .pbuWeirStalls) = false) : WeirFrame d (d.sf r x n) := ⟨rfl, rfl, .sf x n h⟩

theorem of_paid (h : Paid d e) : WeirFrame d e := by
  refine ⟨h.basins, h.mem, ⟨fun r hr => h.regs.rd r ?_⟩⟩
  rw [beq_iff_eq.mp hr]
  rfl

theorem basin? (h : WeirFrame d e) (l : Nat) : e.basin? l = d.basin? l := by
  unfold Dev.basin?
  rw [h.basins]

end WeirFrame

theorem Dev.joinShares_weir (d : Dev) (now c region : Nat) : WeirFrame d (d.joinShares now c region) := by
  unfold Dev.joinShares
  split
  · extract_lets fab d0 others
    have h0 : WeirFrame d d0 := ⟨rfl, rfl, .of_regs rfl⟩
    clear_value d0
    split
    · split
      · exact h0.trans ⟨rfl, rfl, .wn _ rfl⟩
      · exact h0
    · exact h0
  · exact .refl d

theorem Dev.weirChoose_weir (d : Dev) (now l : Nat) : WeirFrame d (d.weirChoose now l) := by
  have hswitch (e : Dev) (out inn region : Nat) : WeirFrame e (e.startSwitch now out inn region) := ⟨rfl, rfl, .of_regs rfl⟩
  unfold Dev.weirChoose
  extract_lets region cands d1
  have h1 : WeirFrame d d1 := .foldl (fun d _ => d.joinShares_weir ..) cands d
  clear_value d1 cands
  split
  · exact h1
  · split
    · split
      · split
        · extract_lets d2
          have h2 : WeirFrame d1 d2 := .sf _ _ rfl
          exact (h1.trans h2).trans ⟨rfl, rfl, .of_regs rfl⟩
        · exact h1
      · exact .ite (h1.trans (hswitch ..)) h1
    · exact .ite (h1.trans (hswitch ..)) h1

theorem Dev.syncWeirs_weir (d : Dev) : WeirFrame d d.syncWeirs := by
  unfold Dev.syncWeirs
  exact .foldl (fun d _ => (WeirFrame.sf _ _ rfl).trans (.sf _ _ rfl)) _ d

theorem Dev.weirsAfter_weir (d : Dev) (now l : Nat) : WeirFrame d (d.weirsAfter now l) := by
  unfold Dev.weirsAfter
  exact .ite (d.syncWeirs_weir.trans (Dev.weirChoose_weir ..)) d.syncWeirs_weir

theorem Basin.entry_setEntry (b : Basin) (e : Nat) (x : SbEntry) : (b.setEntry e x).entry e = x := by
  unfold Basin.setEntry Basin.entry tgetD
  rw [tget_tset]
  rfl

theorem Basin.entry_setEntry_ne {e k : Nat} (b : Basin) (h : k ≠ e) (x : SbEntry) : (b.setEntry e x).entry k = b.entry k := by
  unfold Basin.setEntry Basin.entry tgetD
  rw [tget_tset_ne h]

/-- What the end of a tile leaves of registers and memory, and the basin that it comes to. -/
structure BasinStep (d e : Dev) (l : Nat) (b' : Basin) : Prop where
  basin : e.basin? l = some b'
  mem : e.mem = d.mem
  regs : e.regs = d.regs

theorem Dev.basin?_setBasin (d : Dev) (l : Nat) (b : Basin) : (d.setBasin l b).basin? l = some b := by
  unfold Dev.setBasin Dev.basin?
  exact tget_tset ..

theorem Dev.modEntry_step {d : Dev} {l : Nat} {b : Basin} (hb : d.basin? l = some b) (now e : Nat) (f : SbEntry → SbEntry) :
    BasinStep d (d.modEntry now l e f) l (b.setEntry e (f (b.entry e))) := by
  unfold Dev.modEntry
  rw [hb]
  exact ⟨Dev.basin?_setBasin .., rfl, rfl⟩

theorem Dev.setMask_step {d : Dev} {l : Nat} {b : Basin} (hb : d.basin? l = some b) (e slot : Nat) :
    BasinStep d (d.setMask l e slot []) l { b with masks := tdel b.masks (e * 16 + slot) } := by
  unfold Dev.setMask
  rw [hb]
  exact ⟨Dev.basin?_setBasin .., rfl, rfl⟩

theorem Dev.sheetBack_of_none {d : Dev} {l : Nat} {b : Basin} (now e : Nat) (hb : d.basin? l = some b) (hs : b.sheets = []) : d.sheetBack now l e = d := by
  unfold Dev.sheetBack
  simp only [hb, hs, List.find?_nil]

/-- A local operand slot is free again (R124). -/
theorem Dev.freeSlot_local {d : Dev} {l e : Nat} {b : Basin} (now slot : Nat) (hb : d.basin? l = some b) (hk : (b.entry e).kind = 0) (hs : b.sheets = []) :
    BasinStep d (d.freeSlot now l e (some slot)) l
      { b.setEntry e ((b.entry e).giveBack slot) with masks := tdel (b.setEntry e ((b.entry e).giveBack slot)).masks (e * 16 + slot) } := by
  have h1 := Dev.modEntry_step hb now e fun y => y.giveBack slot
  have h2 := Dev.setMask_step h1.basin e slot
  unfold Dev.freeSlot
  simp only [hb]
  rw [Dev.sheetBack_of_none now e h2.basin hs, if_neg (by simp [hk]), if_neg (by simp [hk])]
  exact ⟨h2.basin, h2.mem.trans h1.mem, h2.regs.trans h1.regs⟩

theorem Dev.freeSlot_none (d : Dev) (now l e : Nat) : d.freeSlot now l e none = d := by
  unfold Dev.freeSlot
  split
  · next h _ => cases h
  · rfl

/-- A local result slot is ready (R124). -/
theorem Dev.postResult_local {d : Dev} {l w : Nat} {b : Basin} {r : Running} (now : Nat) (hb : d.basin? l = some b) (hk : (b.entry (stOut w)).kind = 0) (hp : r.post = true) :
    BasinStep d (d.postResult now l w r) l (b.setEntry (stOut w) ((b.entry (stOut w)).post r.slotOut now)) := by
  unfold Dev.postResult
  simp only [hb]
  rw [if_neg (by simp [hk]), if_neg (by simp [hp]), if_neg (by simp [hk])]
  exact Dev.modEntry_step hb ..

/-- A stage whose operand and result are local and that has no other slots: the operand is free, the result ready (R124). -/
theorem Dev.slotsMoved_local {d : Dev} {l w : Nat} {b : Basin} {r : Running} (now : Nat) (hb : d.basin? l = some b) (hp : r.post = true) (hka : (b.entry (stInA w)).kind = 0)
    (hsb : r.slotB = none) (hsp : r.slotParam = none) (hko : (b.entry (stOut w)).kind = 0) (hne : stOut w ≠ stInA w) (hs : b.sheets = []) :
    ∃ b', BasinStep d (d.slotsMoved now l w r) l b' ∧ b'.running = b.running ∧ b'.entry (stInA w) = (b.entry (stInA w)).giveBack r.slotA ∧
      b'.entry (stOut w) = (b.entry (stOut w)).post r.slotOut now := by
  have hfree := Dev.freeSlot_local now r.slotA hb hka hs
  have hkeep (x : SbEntry) (m : Tbl (List Nat)) : ({ b.setEntry (stInA w) x with masks := m } : Basin).entry (stOut w) = b.entry (stOut w) := b.entry_setEntry_ne hne x
  have hpost := Dev.postResult_local now hfree.basin (by rw [hkeep]; exact hko) hp
  have heq : d.slotsMoved now l w r = (d.freeSlot now l (stInA w) (some r.slotA)).postResult now l w r := by
    unfold Dev.slotsMoved
    simp only [hsb, hsp, ite_self, Dev.freeSlot_none]
  rw [heq]
  refine ⟨_, ⟨hpost.basin, hpost.mem.trans hfree.mem, hpost.regs.trans hfree.regs⟩, rfl, ?_, ?_⟩
  · rw [Basin.entry_setEntry_ne _ hne.symm]
    exact b.entry_setEntry ..
  · rw [Basin.entry_setEntry, hkeep]

/-- The registers and memory as a stage stops: STALLS counts, the memory is as before. -/
theorem Dev.tileStopped_stops (d : Dev) (now l i cycles stalls : Nat) (b : Basin) (r : Running) :
    (d.tileStopped now l i cycles stalls b r).basin? l = some { b with running := tdel b.running i, chargedTo := max b.chargedTo now } ∧
      (d.tileStopped now l i cycles stalls b r).rn (r1 .pbuWeirStalls (l / 64)) = (d.rn (r1 .pbuWeirStalls (l / 64)) + min (min 2048 cycles) stalls) % 2 ^ 64 ∧
      (d.tileStopped now l i cycles stalls b r).mem = d.mem := by
  unfold Dev.tileStopped
  extract_lets d2
  have h2 : WeirFrame (d.setBasin l { b with running := tdel b.running i, chargedTo := max b.chargedTo now }) d2 := .of_paid (Dev.chargeBasin_paid ..)
  refine ⟨(h2.basin? l).trans (Dev.basin?_setBasin ..), ?_, h2.mem⟩
  rw [Dev.rn_wn, Nat.mod_mod, Dev.rn_of_rd (h2.regs.rd _ rfl)]
  rfl

theorem tileEnd_ends {s : State} {t l st cycles stalls : Nat} {b : Basin} {r : Running} (hb : s.dev.basin? l = some b) (hr : tget b.running st = some r) (hw : r.worked = true) :
    Answers (.tileEnd t l st cycles stalls) s fun s' => ∃ d1 : Dev, s' = { s with dt := s.now t, dev := s'.dev } ∧
      s'.dev = ((d1.cnlDrain (s.now t)).endSteps (s.now t)).settleEnds (s.now t) ∧ (∀ b', d1.basin? l = some b' → tget b'.running st = none) :=
  ⟨_, rfl, s.dev.tileEnd (s.now t) l st cycles stalls, rfl, rfl, Dev.tileEnd_idle _ _ _ hb hr hw⟩

theorem tileEnd_local {s : State} {t l st cycles stalls : Nat} {b : Basin} {r : Running} (hb : s.dev.basin? l = some b) (hr : tget b.running st = some r) (hw : r.worked = true)
    (hp : r.post = true) (hka : (b.entry (stInA (b.stages.getD st 0))).kind = 0) (hsb : r.slotB = none) (hsp : r.slotParam = none)
    (hko : (b.entry (stOut (b.stages.getD st 0))).kind = 0) (hne : stOut (b.stages.getD st 0) ≠ stInA (b.stages.getD st 0)) (hlast : stLast (b.stages.getD st 0) = false)
    (hs : b.sheets = []) :
    Answers (.tileEnd t l st cycles stalls) s fun s' => ∃ (d1 : Dev) (b' : Basin), s'.dev = ((d1.cnlDrain (s.now t)).endSteps (s.now t)).settleEnds (s.now t) ∧
      d1.basin? l = some b' ∧ tget b'.running st = none ∧ b'.entry (stInA (b.stages.getD st 0)) = (b.entry (stInA (b.stages.getD st 0))).giveBack r.slotA ∧
      b'.entry (stOut (b.stages.getD st 0)) = (b.entry (stOut (b.stages.getD st 0))).post r.slotOut (s.now t) ∧
      d1.rn (r1 .pbuWeirStalls (l / 64)) = (s.dev.rn (r1 .pbuWeirStalls (l / 64)) + min (min 2048 cycles) stalls) % 2 ^ 64 ∧ d1.mem = s.dev.mem := by
  obtain ⟨hb1, hstalls, hmem⟩ := s.dev.tileStopped_stops (s.now t) l st cycles stalls b r
  obtain ⟨b', hstep, hrun, hin, hout⟩ := Dev.slotsMoved_local (s.now t) hb1 hp hka hsb hsp hko hne hs
  have hweir := Dev.weirsAfter_weir ((s.dev.tileStopped (s.now t) l st cycles stalls b r).slotsMoved (s.now t) l (b.stages.getD st 0) r) (s.now t) l
  refine ⟨_, rfl, s.dev.tileEnd (s.now t) l st cycles stalls, b', rfl, ?_⟩
  rw [Dev.tileEnd_eq (s.now t) cycles stalls hb hr hw]
  dsimp only
  rw [hlast, if_neg (by simp)]
  refine ⟨(hweir.basin? l).trans hstep.basin, ?_, hin, hout, ?_, hweir.mem.trans (hstep.mem.trans hmem)⟩
  · rw [hrun]
    exact tget_tdel ..
  · rw [Dev.rn_of_rd (hweir.regs.rd _ rfl), Dev.rn_of_rd (Dev.rd_of_regs hstep.regs _)]
    exact hstalls

/-! ### A switch that ends -/

theorem tget_foldl_tset_of_ne {α : Type} {l t : Tbl α} {k : Nat} (h : k ∉ l.map Prod.fst) : tget (l.foldl (fun bs e => tset bs e.1 e.2) t) k = tget t k := by
  induction l generalizing t with
  | nil => rfl
  | cons e l ih =>
    obtain ⟨he, hl⟩ := not_or.mp (List.mem_cons.not.mp h)
    exact (ih hl).trans (tget_tset_ne he)

/-- Entries of distinct keys written in turn all stand. -/
theorem tget_foldl_tset {α : Type} {l t : Tbl α} {e : Nat × α} (hn : (l.map Prod.fst).Nodup) (he : e ∈ l) : tget (l.foldl (fun bs e => tset bs e.1 e.2) t) e.1 = some e.2 := by
  induction l generalizing t with
  | nil => cases he
  | cons a l ih =>
    obtain ⟨ha, hl⟩ := List.nodup_cons.mp hn
    rcases List.mem_cons.mp he with rfl | he
    · exact (tget_foldl_tset_of_ne ha).trans (tget_tset ..)
    · exact ih hl he

theorem mem_foldl_tset {α : Type} {l t : Tbl α} {p : Nat × α} (h : p ∈ l.foldl (fun bs e => tset bs e.1 e.2) t) : p ∈ t ∨ p ∈ l := by
  induction l generalizing t with
  | nil => exact .inl h
  | cons a l ih =>
    rcases ih h with h | h
    · rcases mem_tset h with h | rfl
      · exact .inl h
      · exact .inr List.mem_cons_self
    · exact .inr (List.mem_cons_of_mem _ h)

/-- Carry and the weirs leave basins and the states of contexts; switches in progress go on (R93, R113). -/
structure CarryFrame (d e : Dev) : Prop where
  basins : e.fab.basins = d.fab.basins
  state : ∀ c, e.ctxState c = d.ctxState c
  switches : ∀ y ∈ d.fab.switches, y ∈ e.fab.switches

namespace CarryFrame

variable {d e f : Dev}

theorem refl (d : Dev) : CarryFrame d d := ⟨rfl, fun _ => rfl, fun _ h => h⟩

theorem trans (a : CarryFrame d e) (b : CarryFrame e f) : CarryFrame d f :=
  ⟨b.basins.trans a.basins, fun c => (b.state c).trans (a.state c), fun y hy => b.switches y (a.switches y hy)⟩

theorem of_regs (hr : e.regs = d.regs) (hb : e.fab.basins = d.fab.basins) (hs : ∀ y ∈ d.fab.switches, y ∈ e.fab.switches) : CarryFrame d e :=
  ⟨hb, fun _ => Dev.ctxState_of_rd (Dev.rd_of_regs hr _), hs⟩

theorem sf_other {r : Reg} (x : Fld) (n : Nat) (h : r.name ≠ .pbuCtxCfg) : CarryFrame d (d.sf r x n) :=
  ⟨rfl, fun _ => Dev.ctxState_of_rd (Dev.rd_sf_ne (Reg.ne_of_name h.symm)), fun _ h => h⟩

theorem wn {r : Reg} (n : Nat) (h : r.name ≠ .pbuCtxCfg) : CarryFrame d (d.wn r n) :=
  ⟨rfl, fun _ => Dev.ctxState_of_rd (Dev.rd_wn_ne (Reg.ne_of_name h.symm)), fun _ h => h⟩

/-- CARRY is written beside STATE. -/
theorem sf_carry (k n : Nat) : CarryFrame d (d.sf (r1 .pbuCtxCfg k) F.pbuCtxCfg.CARRY n) := by
  refine ⟨rfl, fun c => ?_, fun _ h => h⟩
  by_cases hc : c = k
  · subst hc
    exact Dev.f_sf_ne n (by unfold Fld.ok; decide) (by decide)
  · exact Dev.ctxState_of_rd (Dev.rd_sf_ne (Reg.ne_of_index hc))

theorem ite {c : Prop} [Decidable c] {e e' : Dev} (h : CarryFrame d e) (h' : CarryFrame d e') : CarryFrame d (if c then e else e') := by
  split <;> assumption

theorem foldl {α : Type} {g : Dev → α → Dev} (h : ∀ d a, CarryFrame d (g d a)) (l : List α) (d : Dev) : CarryFrame d (l.foldl g d) :=
  List.foldlRecOn l g (motive := CarryFrame d) (refl d) fun _ hd a _ => hd.trans (h _ a)

end CarryFrame

theorem Dev.joinShares_carry (d : Dev) (now c region : Nat) : CarryFrame d (d.joinShares now c region) := by
  unfold Dev.joinShares
  split
  · extract_lets fab d0 others
    have h0 : CarryFrame d d0 := .of_regs rfl rfl fun _ h => h
    clear_value d0
    split
    · split
      · exact h0.trans (.wn _ (by simp))
      · exact h0
    · exact h0
  · exact .refl d

theorem Dev.startSwitch_carry (d : Dev) (now out inn region : Nat) : CarryFrame d (d.startSwitch now out inn region) :=
  .of_regs rfl rfl fun _ h => List.mem_cons_of_mem _ h

theorem Dev.carrySwitch_carry (d : Dev) (now by_ holder : Nat) : CarryFrame d (d.carrySwitch now by_ holder) := by
  unfold Dev.carrySwitch
  extract_lets region d1 resident
  have h1 : CarryFrame d d1 := d.joinShares_carry ..
  clear_value d1 region resident
  have hswitch (out : Nat) : CarryFrame d (d1.startSwitch now out holder region) := h1.trans (Dev.startSwitch_carry ..)
  split
  · exact .refl d
  · split
    · exact hswitch _
    · split
      · exact h1
      · split
        · exact .ite (hswitch _) h1
        · exact hswitch _

theorem Dev.syncCarries_carry (d : Dev) (now : Nat) : CarryFrame d (d.syncCarries now) := .of_regs rfl rfl fun _ h => h

theorem Dev.addCarry_carry (d : Dev) (now root payer by_ n holder : Nat) : CarryFrame d (d.addCarry now root payer by_ n holder) := by
  unfold Dev.addCarry
  split
  · exact .refl d
  · extract_lets fab d1
    have h1 : CarryFrame d d1 := .of_regs rfl rfl fun _ h => h
    exact ((h1.trans (.sf_carry holder 1)).trans (Dev.carrySwitch_carry ..)).trans (Dev.syncCarries_carry ..)

theorem Dev.startCarry_carry (d : Dev) (now n ctx : Nat) : CarryFrame d (d.startCarry now n ctx) := by
  unfold Dev.startCarry
  extract_lets up root payer depth chain d1
  have h1 : CarryFrame d d1 := .foldl (fun d _ => d.addCarry_carry ..) _ d
  clear_value d1
  exact .ite h1 (h1.trans (.of_regs rfl rfl fun _ h => h))

theorem Dev.carrySaved_carry (d : Dev) (now c : Nat) : CarryFrame d (d.carrySaved now c) := by
  unfold Dev.carrySaved
  refine .ite (.refl d) (.foldl (fun d e => ?_) _ d)
  split
  · exact .ite (d.startCarry_carry ..) (.refl d)
  · exact .refl d

theorem Dev.carryResume_carry (d : Dev) (now : Nat) : CarryFrame d (d.carryResume now) := .foldl (fun d _ => d.carrySwitch_carry ..) _ d

theorem Dev.syncWeirs_carry (d : Dev) : CarryFrame d d.syncWeirs :=
  .foldl (fun d _ => (CarryFrame.sf_other _ _ (by simp)).trans (.sf_other _ _ (by simp))) _ d

/-- The charges of a switch (R99). -/
theorem Dev.chargeSwitch_paid (d : Dev) (now : Nat) (x : Switch) : Paid d (d.chargeSwitch now x) := by
  unfold Dev.chargeSwitch
  extract_lets d1 d2 cycles ls
  have h1 : Paid d d1 := .ite (.refl d) (d.charge_paid ..)
  have h2 : Paid d1 d2 := d1.charge_paid ..
  exact (h1.trans h2).trans (.foldl (fun d _ => d.chargeBasin_paid ..) ls d2)

theorem Dev.requeueParts_fab (d : Dev) (c : Nat) : (d.requeueParts c).fab = d.fab := Dev.syncEngines_fab ..

theorem Dev.saveCtx_eq {d : Dev} {c : Nat} {x : Ctx} (now : Nat) (hx : d.ctx? c = some x) :
    ∃ m, d.saveCtx now c = ({ d with mem := m, fab := { d.fab with
      basins := d.fab.basins.filter fun e => e.2.ctx != c
      saved := tset d.fab.saved c (d.fab.basins.filter fun e => e.2.ctx == c)
      ctxs := tmod d.fab.ctxs c fun x => { x with savedAt := now, away := x.blocked || x.basins.any fun l => d.gated (d.payer c) (l / 64) } } } : Dev).sf
        (r1 .pbuCtxCfg c) F.pbuCtxCfg.STATE 3 := by
  unfold Dev.saveCtx
  rw [hx]
  exact ⟨_, rfl⟩

theorem Dev.restoreCtx_eq {d : Dev} {c : Nat} {x : Ctx} (now : Nat) (hx : d.ctx? c = some x) :
    ∃ m, d.restoreCtx now c = ({ d with mem := m, fab := { d.fab with
      basins := (tgetD d.fab.saved c []).foldl (fun (bs : Tbl Basin) (e : Nat × Basin) => tset bs e.1 e.2) d.fab.basins
      saved := tdel d.fab.saved c
      ctxs := tmod d.fab.ctxs c fun x => { x with runSince := now, lastChange := now, began := true } } } : Dev).sf (r1 .pbuCtxCfg c) F.pbuCtxCfg.STATE 2 := by
  unfold Dev.restoreCtx
  rw [hx]
  exact ⟨_, rfl⟩

/-- A context that is saved: its basins and its state (R97, R98). -/
theorem Dev.saveCtx_saves {d : Dev} {c : Nat} (now : Nat) (hc : (d.ctx? c).isSome = true) :
    (d.saveCtx now c).fab.basins = (d.fab.basins.filter fun e => e.2.ctx != c) ∧ (∀ k, k ≠ c → tgetD (d.saveCtx now c).fab.saved k [] = tgetD d.fab.saved k []) ∧
      (d.saveCtx now c).ctxState c = 3 ∧ (d.saveCtx now c).fab.switches = d.fab.switches ∧ ∀ k, ((d.saveCtx now c).ctx? k).isSome = (d.ctx? k).isSome := by
  obtain ⟨x, hx⟩ := Option.isSome_iff_exists.mp hc
  obtain ⟨m, heq⟩ := Dev.saveCtx_eq now hx
  rw [heq]
  refine ⟨rfl, fun k hk => ?_, Dev.ctxState_sf _ c 3 (by decide), rfl, fun k => ?_⟩
  · exact congrArg (Option.getD · []) (tget_tset_ne hk)
  · unfold Dev.ctx?
    rw [Dev.sf_fab, tget_tmod]
    split
    · rw [Option.isSome_map]
    · rfl

/-- A context that runs again: its basins as they were saved, and its state (R97, R98). -/
theorem Dev.restoreCtx_restores {d : Dev} {c : Nat} (now : Nat) (hc : (d.ctx? c).isSome = true) :
    (d.restoreCtx now c).fab.basins = (tgetD d.fab.saved c []).foldl (fun bs e => tset bs e.1 e.2) d.fab.basins ∧ (d.restoreCtx now c).ctxState c = 2 ∧
      (∀ k, k ≠ c → (d.restoreCtx now c).ctxState k = d.ctxState k) ∧ (d.restoreCtx now c).fab.switches = d.fab.switches := by
  obtain ⟨x, hx⟩ := Option.isSome_iff_exists.mp hc
  obtain ⟨m, heq⟩ := Dev.restoreCtx_eq now hx
  rw [heq]
  exact ⟨rfl, Dev.ctxState_sf _ c 2 (by decide), fun k hk => Dev.ctxState_of_rd (Dev.rd_sf_ne (Reg.ne_of_index hk)), rfl⟩

/-- The device up to the restore: the switch is over and charged, the outgoing context saved (R98, R99). -/
def Dev.switchedOut (d : Dev) (now : Nat) (x : Switch) : Dev :=
  let d2 := ({ d with fab := { d.fab with switches := d.fab.switches.erase x } }).chargeSwitch now x
  if x.out = x.inn then d2 else (d2.requeueParts x.out).saveCtx now x.out

theorem Dev.switchDone_eq {d : Dev} {now region : Nat} {x : Switch}
    (h : d.fab.switches.find? (fun x => x.region == region && decide (x.doneAt ≤ now) && (x.out == x.inn || d.drained x.out)) = some x) :
    d.switchDone now region = ((((d.switchedOut now x).restoreCtx now x.inn).syncWeirs).carrySaved now x.out).carryResume now := by
  unfold Dev.switchDone
  rw [h]
  rfl

/-- What stands before the restore. -/
structure SwitchedOut (d e : Dev) (x : Switch) : Prop where
  saved : tgetD e.fab.saved x.inn [] = tgetD d.fab.saved x.inn []
  inn : (e.ctx? x.inn).isSome = true
  switches : e.fab.switches = d.fab.switches.erase x
  out : x.out ≠ x.inn → e.ctxState x.out = 3 ∧ ∀ p ∈ e.fab.basins, p.2.ctx ≠ x.out

theorem CtxFrame.isSome {d e : Dev} (h : CtxFrame d e) (c : Nat) : (e.ctx? c).isSome = (d.ctx? c).isSome := by
  have hl := congrArg Option.isSome (h.life c)
  rwa [Option.isSome_map, Option.isSome_map] at hl

theorem Dev.switchedOut_saves {d : Dev} {x : Switch} (now : Nat) (hout : (d.ctx? x.out).isSome = true) (hinn : (d.ctx? x.inn).isSome = true) :
    SwitchedOut d (d.switchedOut now x) x := by
  unfold Dev.switchedOut
  extract_lets fab d2
  have h1 : CtxFrame d { d with fab := { d.fab with switches := d.fab.switches.erase x } } := .of_ctxs rfl rfl
  have h2 : Paid { d with fab := { d.fab with switches := d.fab.switches.erase x } } d2 := Dev.chargeSwitch_paid ..
  have hctx (c : Nat) : (d2.ctx? c).isSome = (d.ctx? c).isSome := (h1.trans h2.frame).isSome c
  split
  · next heq => exact ⟨by rw [h2.saved], (hctx _).trans hinn, h2.switches, fun h => absurd heq h⟩
  · next hne =>
    have hq := d2.requeueParts_fab x.out
    have hqc (c : Nat) : ((d2.requeueParts x.out).ctx? c).isSome = (d.ctx? c).isSome := by
      unfold Dev.ctx? at hctx ⊢
      rw [hq]
      exact hctx c
    obtain ⟨hb, hsaved, hstate, hsw, hctx'⟩ := Dev.saveCtx_saves now ((hqc _).trans hout)
    refine ⟨?_, (hctx' _).trans ((hqc _).trans hinn), ?_, fun _ => ⟨hstate, fun p hp => ?_⟩⟩
    · rw [hsaved _ (Ne.symm hne), hq, h2.saved]
    · rw [hsw, hq, h2.switches]
    · rw [hb] at hp
      simpa using (List.mem_filter.mp hp).2

theorem contextSwitchDone_ends {s : State} {t region : Nat} {x : Switch}
    (hx : s.dev.fab.switches.find? (fun x => x.region == region && decide (x.doneAt ≤ s.now t) && (x.out == x.inn || s.dev.drained x.out)) = some x)
    (hout : (s.dev.ctx? x.out).isSome = true) (hinn : (s.dev.ctx? x.inn).isSome = true) :
    Answers (.contextSwitchDone t region) s fun s' => s' = { s with dt := s.now t, dev := s'.dev } ∧ s'.dev.ctxState x.inn = 2 ∧
      (x.out ≠ x.inn → s'.dev.ctxState x.out = 3 ∧ ((∀ e ∈ tgetD s.dev.fab.saved x.inn [], e.2.ctx = x.inn) → ∀ e ∈ s'.dev.fab.basins, e.2.ctx ≠ x.out)) ∧
      (∀ e ∈ tgetD s.dev.fab.saved x.inn [], ((tgetD s.dev.fab.saved x.inn []).map Prod.fst).Nodup → s'.dev.basin? e.1 = some e.2) ∧
      (∀ y ∈ s.dev.fab.switches.erase x, y ∈ s'.dev.fab.switches) := by
  have h := s.dev.switchedOut_saves (s.now t) hout hinn
  obtain ⟨hb, hstate, hother, hsw⟩ := Dev.restoreCtx_restores (s.now t) h.inn
  rw [h.saved] at hb
  refine ⟨_, rfl, rfl, ?_⟩
  dsimp only
  rw [Dev.switchDone_eq hx]
  have hcarry := (((s.dev.switchedOut (s.now t) x).restoreCtx (s.now t) x.inn).syncWeirs_carry.trans (Dev.carrySaved_carry _ (s.now t) x.out)).trans (Dev.carryResume_carry _ (s.now t))
  refine ⟨(hcarry.state _).trans hstate, fun hne => ⟨?_, fun hown p hp => ?_⟩, fun e he hn => ?_, fun y hy => hcarry.switches y ?_⟩
  · rw [hcarry.state, hother _ hne]
    exact (h.out hne).1
  · rw [hcarry.basins, hb] at hp
    rcases mem_foldl_tset hp with hp | hp
    · exact (h.out hne).2 p hp
    · rw [hown p hp]
      exact Ne.symm hne
  · unfold Dev.basin?
    rw [hcarry.basins, hb]
    exact tget_foldl_tset hn he
  · rw [hsw, h.switches]
    exact hy

/-- Settles O32: a clause each for a tile, a tile of local entries, whose basin nothing after its slots' moves touches, and a switch. -/
theorem tilesAndSwitchesEnd : Obligations.TilesAndSwitchesEnd := by
  unfold Obligations.TilesAndSwitchesEnd
  refine ⟨fun _ _ _ _ _ _ _ _ => tileEnd_ends, ?_, fun _ _ _ _ => contextSwitchDone_ends⟩
  intro s t l st cycles stalls b r hb hr hw hp w hka _ hsb _ hsp hko hne hlast hs
  exact tileEnd_local hb hr hw hp hka hsb hsp hko hne hlast hs

end Sys2Proof.Machine

/-! ## O39: sessions and contexts -/

namespace Sys2Proof.Machine

/-! ### What a completion leaves of sessions -/

theorem Dev.cplEntry_sessions (d : Dev) (now m w tag ctx st de : Nat) (b : List Byte) : (d.cplEntry now m w tag ctx st de b).stew.sessions = d.stew.sessions := by
  unfold Dev.cplEntry
  simp

theorem Dev.flushNotices_sessions (d : Dev) (now m k : Nat) : (d.flushNotices now m k).stew.sessions = d.stew.sessions := by
  induction k generalizing d with
  | zero => rfl
  | succ k ih =>
    refine (ih _).trans ?_
    unfold Dev.flushNotice
    split
    · rfl
    · split
      · exact Dev.cplEntry_sessions ..
      · rfl

theorem Dev.finish_sessions (d : Dev) (now : Nat) (r : Req) (st : Status) (de : Nat) (b : List Byte) : (d.finish now r st de b).stew.sessions = d.stew.sessions := by
  unfold Dev.finish
  rw [Dev.flushNotices_sessions, Dev.syncInflight_stew, Dev.cplEntry_sessions]

/-- SESSION stands beside INFLIGHT. -/
theorem Dev.syncInflight_session (d : Dev) (k m : Nat) : (d.syncInflight k).fb (r1 .mbxStat m) F.mbxStat.SESSION = d.fb (r1 .mbxStat m) F.mbxStat.SESSION := by
  unfold Dev.syncInflight
  by_cases hm : m = k
  · subst hm
    exact Dev.fb_sf_ne _ (by decide) (by decide)
  · exact Dev.fb_of_rd (Dev.rd_sf_ne (Reg.ne_of_index hm)) _

theorem Dev.finish_session (d : Dev) (now : Nat) (r : Req) (st : Status) (de : Nat) (b : List Byte) (m : Nat) :
    (d.finish now r st de b).fb (r1 .mbxStat m) F.mbxStat.SESSION = d.fb (r1 .mbxStat m) F.mbxStat.SESSION := by
  unfold Dev.finish
  rw [Dev.fb_of_rd ((Dev.flushNotices_notices _ now r.mbx 64).rd _ (by simp)), Dev.syncInflight_session, Dev.fb_of_rd (Dev.cplEntry_rd (by simp))]
  rfl

/-- The completion of a request, at its DT, among those written with it (R347). -/
theorem Dev.finish_cpl (d : Dev) (now : Nat) (r : Req) (st : Status) (de : Nat) (b : List Byte) :
    ∃ c ∈ (d.finish now r st de b).stew.cpls, c.mbx = r.mbx ∧ c.tag = r.tag ∧ c.status = (d.windowStatus r.ctx st).code ∧ c.dt = now := by
  unfold Dev.finish
  extract_lets stew d1
  obtain ⟨later, hl⟩ := (Dev.flushNotices_notices ((d1.cplEntry now r.mbx (d1.cplWord0 r) r.tag r.ctx (d1.windowStatus r.ctx st).code de b).syncInflight r.mbx) now r.mbx 64).cpls
  rw [hl, Dev.syncInflight_stew, Dev.cplEntry_cpls]
  exact ⟨_, List.mem_append_right _ List.mem_cons_self, rfl, rfl, rfl, rfl⟩

theorem gone_of_inflight {d e : Dev} {r : Req} (h : e.stew.inflight = d.stew.inflight) (hg : gone d r) : gone e r := by
  unfold gone Dev.req? at *
  rwa [h]

/-! ### HELLO -/

/-- A session's entry and its bit (R357). -/
def Dev.sessionSet (d : Dev) (m minor : Nat) : Dev := ({ d with stew := { d.stew with sessions := tset d.stew.sessions m minor } }).sf (r1 .mbxStat m) F.mbxStat.SESSION 1

theorem Dev.sessionSet_quiet (d : Dev) (m minor : Nat) : Quiet d (d.sessionSet m minor) :=
  .trans (e := { d with stew := { d.stew with sessions := tset d.stew.sessions m minor } }) ⟨rfl, rfl, .of_regs rfl⟩ (.sf _ _ rfl)

theorem Dev.sessionSet_session (d : Dev) (m minor : Nat) : (d.sessionSet m minor).fb (r1 .mbxStat m) F.mbxStat.SESSION = true := Dev.fb_sf _ _ true (by decide) rfl

/-- What HELLO answers (R357). -/
def Dev.helloBytes (d : Dev) (minor adopted : Nat) : List Byte :=
  leBytes 4 (minor * 2 ^ 20 + 2 ^ 26) ++ leBytes 4 d.highest ++ leBytes 4 d.stew.fwVersion ++ leBytes 2 d.own ++ leBytes 2 adopted

theorem Dev.helloBytes_length (d : Dev) (minor adopted : Nat) : (d.helloBytes minor adopted).length = 16 := by
  unfold Dev.helloBytes
  simp only [List.length_append, leBytes_length]

theorem Dev.openSession_eq (d : Dev) (now : Nat) (r : Req) (minor adopted : Nat) :
    d.openSession now r minor adopted = (d.sessionSet r.mbx minor).finish now r .ok 0 (d.helloBytes minor adopted) := rfl

theorem hello_opens {s : State} {t m seq : Nat} {r : Req} (hr : ready s t m seq 0x0001 r = true) (hk : s.dev.helloCheck m r = none)
    (hopen : s.dev.hasSession m = false ∨ r.flag 1 = false) :
    Answers (.hello t m seq) s fun s' => tget s'.dev.stew.sessions m = some ((s.dev.agreed r).getD 0) ∧ s'.dev.fb (r1 .mbxStat m) F.mbxStat.SESSION = true ∧
      served s.dev s'.dev r .ok 0 (s.dev.helloBytes ((s.dev.agreed r).getD 0) (if r.flag 0 then (s.dev.openCtxs m).length else 0)) ∧ ringKept s.dev s'.dev m := by
  refine command_answers (f := fun now d => d.hello now m seq) (form := fun _ => true) rfl rfl hr rfl hk fun hm _ _ => ?_
  dsimp only
  rw [if_neg (by rcases hopen with h | h <;> simp [h]), Dev.openSession_eq]
  generalize (if r.flag 0 then (s.dev.openCtxs m).length else 0) = adopted
  generalize (s.dev.agreed r).getD 0 = minor
  obtain ⟨hserved, hring⟩ := (s.dev.sessionSet_quiet r.mbx minor).finish (s.now t) r .ok 0 (b := s.dev.helloBytes minor adopted) (by simp [Dev.helloBytes_length])
  refine ⟨?_, (Dev.finish_session ..).trans ?_, hserved, hm ▸ hring⟩
  · rw [Dev.finish_sessions, ← hm]
    exact tget_tset ..
  · rw [← hm]
    exact Dev.sessionSet_session ..

theorem hello_resets {s : State} {t m seq : Nat} {r : Req} (hr : ready s t m seq 0x0001 r = true) (hk : s.dev.helloCheck m r = none) (hs : s.dev.hasSession m = true)
    (hf : r.flag 1 = true) : Answers (.hello t m seq) s fun s' => s'.dev = ((s.dev.decide' r).closeAll (s.now t) r).settleEnds (s.now t) := by
  refine command_answers (f := fun now d => d.hello now m seq) (form := fun _ => true) rfl rfl hr rfl hk fun _ _ _ => ?_
  dsimp only
  rw [if_pos ⟨hs, hf⟩]

/-! ### BYE -/

theorem Dev.openCtxs_of_nil {d : Dev} (h : d.fab.ctxs = []) (m : Nat) : d.openCtxs m = [] := by
  unfold Dev.openCtxs
  rw [h]
  rfl

theorem Dev.closeAll_of_nil {d : Dev} (h : d.fab.ctxs = []) (now : Nat) (r : Req) : d.closeAll now r = d := by
  unfold Dev.closeAll
  rw [Dev.openCtxs_of_nil h]
  rfl

theorem Dev.settleRuns_of_nil {d : Dev} (h : d.fab.cascades = []) (now : Nat) : d.settleRuns now = d := by
  unfold Dev.settleRuns
  rw [h]
  rfl

/-- A session without contexts ends: its entry and its SESSION bit go (R358). -/
theorem Dev.endSession_ends {d : Dev} (h : d.fab.ctxs = []) (now m : Nat) :
    tget (d.endSession now m).stew.sessions m = none ∧ (d.endSession now m).fb (r1 .mbxStat m) F.mbxStat.SESSION = false ∧
      (d.endSession now m).stew.inflight = d.stew.inflight ∧ (d.endSession now m).stew.cpls = d.stew.cpls := by
  unfold Dev.endSession
  extract_lets torn cells d1 fab stew d2
  have htorn : torn = [] := by
    unfold torn
    rw [h]
    rfl
  have h1 : d1 = d := by
    unfold d1 cells
    simp [htorn]
  refine ⟨tget_tdel .., Dev.fb_sf d2 _ false (by decide) rfl, ?_, ?_⟩
  · exact congrArg (·.stew.inflight) h1
  · exact congrArg (·.stew.cpls) h1

/-- A BYE that is alone in flight is over where no context is open. -/
theorem Dev.settleSessions_bye {d : Dev} {q : Req} (hin : d.stew.inflight = [q]) (hq : q.decided = true) (hc : q.code = 0x0002) (hctx : d.fab.ctxs = []) (now : Nat) :
    d.settleSessions now 2 = (d.finish now q .ok 0 []).endSession now q.mbx := by
  have hover : d.sessionOver q = true := by
    unfold Dev.sessionOver
    rw [hin, Dev.openCtxs_of_nil hctx]
    simp [hq, hc]
  have hempty : (d.finish now q .ok 0 []).stew.inflight = [] := by
    unfold Dev.finish
    rw [(Dev.flushNotices_notices _ now q.mbx 64).inflight, Dev.syncInflight_stew, Dev.cplEntry_inflight]
    simp [hin]
  have hnone : ((d.finish now q .ok 0 []).endSession now q.mbx).stew.inflight = [] :=
    (Dev.endSession_ends ((congrArg FabSt.ctxs (Dev.finish_fab ..)).trans hctx) ..).2.2.1.trans hempty
  have hlast (e : Dev) (he : e.stew.inflight = []) : e.settleSessions now 1 = e := by
    unfold Dev.settleSessions
    rw [he]
    rfl
  rw [Dev.settleSessions, hin, List.find?_cons_of_pos hover]
  dsimp only
  rw [if_pos hc]
  exact hlast _ hnone

/-- A BYE alone in flight completes, and its session ends (R358). -/
theorem Dev.bye_settles {d : Dev} {q : Req} (hin : d.stew.inflight = [q]) (hq : q.decided = true) (hc : q.code = 0x0002) (hctx : d.fab.ctxs = []) (hcasc : d.fab.cascades = [])
    (now : Nat) :
    tget (d.settleEnds now).stew.sessions q.mbx = none ∧ (d.settleEnds now).fb (r1 .mbxStat q.mbx) F.mbxStat.SESSION = false ∧ gone (d.settleEnds now) q ∧
      ∃ c ∈ (d.settleEnds now).stew.cpls, c.mbx = q.mbx ∧ c.tag = q.tag ∧ c.status = Status.ok.code ∧ c.dt = now := by
  have hsettle : d.settleEnds now = (d.finish now q .ok 0 []).endSession now q.mbx := by
    have hlen : d.fab.cascades.length + d.fab.ctxs.length = 0 := by
      rw [hcasc, hctx]
      rfl
    unfold Dev.settleEnds
    dsimp only
    rw [Dev.settleRuns_of_nil hcasc, hlen, hin, if_pos (by simp [hc, hq])]
    exact Dev.settleSessions_bye hin hq hc hctx _
  obtain ⟨hsess, hbit, hinfl, hcpls⟩ := Dev.endSession_ends (d := d.finish now q .ok 0 []) ((congrArg FabSt.ctxs (Dev.finish_fab ..)).trans hctx) now q.mbx
  obtain ⟨hgone, _⟩ := Dev.finish_served (old := d) (d := d) rfl now q .ok 0 []
  obtain ⟨c, hc, hcm, hctag, hcst, hcdt⟩ := d.finish_cpl now q .ok 0 []
  have hst : d.windowStatus q.ctx .ok = .ok := by
    unfold Dev.windowStatus Dev.ctx?
    rw [hctx]
    rfl
  rw [hsettle]
  exact ⟨hsess, hbit, gone_of_inflight hinfl hgone, c, by rw [hcpls]; exact hc, hcm, hctag, by rw [hcst, hst], hcdt⟩

theorem bye_ends {s : State} {t m seq : Nat} {r : Req} (hr : ready s t m seq 0x0002 r = true) (hk : s.dev.byeCheck r = none) (hin : s.dev.stew.inflight = [r])
    (hctx : s.dev.fab.ctxs = []) (hcasc : s.dev.fab.cascades = []) :
    Answers (.bye t m seq) s fun s' => tget s'.dev.stew.sessions m = none ∧ s'.dev.fb (r1 .mbxStat m) F.mbxStat.SESSION = false ∧ gone s'.dev r ∧
      (∃ c ∈ s'.dev.stew.cpls, c.mbx = m ∧ c.tag = r.tag ∧ c.status = Status.ok.code ∧ c.dt = s.now t) := by
  have hcode : r.code = 0x0002 := by
    unfold ready at hr
    simp only [Bool.and_eq_true, beq_iff_eq] at hr
    obtain ⟨⟨⟨_, hc⟩, _⟩, _⟩ := hr
    exact hc
  refine command_answers (f := fun now d => d.bye now m seq) (form := fun _ => true) rfl rfl hr rfl hk fun hm _ _ => ?_
  subst hm
  have hq : (s.dev.decide' r).stew.inflight = [{ r with decided := true }] := by simp [Dev.decide', hin]
  have h := Dev.bye_settles hq rfl hcode hctx hcasc (s.now t)
  dsimp only
  rw [Dev.closeAll_of_nil (d := s.dev.decide' r) hctx, ite_self]
  exact h

/-! ### CTX_OPEN -/

/-- The register of a context that opens (R91). -/
def Dev.ctxCfg (d : Dev) (c : Nat) (r : Req) : Dev :=
  ((d.wr (r1 .pbuCtxCfg c) (r1 .pbuCtxCfg c).reset).sf (r1 .pbuCtxCfg c) F.pbuCtxCfg.CLASS (r.fld 0 0 4)).sf (r1 .pbuCtxCfg c) F.pbuCtxCfg.SHARE (r.fld 0 16 16)

/-- A context's entry, and its counters at 0 (R91, R92). -/
def Dev.ctxEntered (d : Dev) (c : Nat) (x : Ctx) : Dev := (({ d with fab := { d.fab with ctxs := tset d.fab.ctxs c x } }).wn (r1 .pbuCtxConsumed c) 0).wn (r1 .sluCtxSpill c) 0

theorem Dev.ctxCfg_quiet (d : Dev) (c : Nat) (r : Req) : Quiet d (d.ctxCfg c r) := ((Quiet.wr _ rfl).trans (.sf _ _ rfl)).trans (.sf _ _ rfl)

theorem Dev.ctxEntered_quiet (d : Dev) (c : Nat) (x : Ctx) : Quiet d (d.ctxEntered c x) :=
  .trans (e := { d with fab := { d.fab with ctxs := tset d.fab.ctxs c x } }) ⟨rfl, rfl, .of_regs rfl⟩ ((Quiet.wn _ rfl).trans (.wn _ rfl))

theorem Dev.ctxEntered_rd (d : Dev) (c : Nat) (x : Ctx) : (d.ctxEntered c x).rd (r1 .pbuCtxCfg c) = d.rd (r1 .pbuCtxCfg c) :=
  ((Dev.rd_wn_ne (Reg.ne_of_name (by simp))).trans (Dev.rd_wn_ne (Reg.ne_of_name (by simp)))).trans (Dev.rd_of_regs rfl _)

theorem Dev.ctxEntered_ctx? (d : Dev) (c : Nat) (x : Ctx) (k : Nat) : (d.ctxEntered c x).ctx? k = if k = c then some x else d.ctx? k := by
  split
  · next h =>
    subst h
    exact tget_tset ..
  · next h => exact tget_tset_ne h

theorem Dev.ctxCfg_class (d : Dev) (c : Nat) (r : Req) : (d.ctxCfg c r).ctxClass c = r.fld 0 0 4 := by
  unfold Dev.ctxCfg Dev.ctxClass
  rw [Dev.f_sf_ne _ (by unfold Fld.ok; decide) (by decide), Dev.f_sf _ _ _ (by unfold Fld.ok; decide)]
  exact Nat.mod_eq_of_lt (r.fld_lt ..)

theorem Dev.ctxCfg_share (d : Dev) (c : Nat) (r : Req) : (d.ctxCfg c r).f (r1 .pbuCtxCfg c) F.pbuCtxCfg.SHARE = r.fld 0 16 16 := by
  unfold Dev.ctxCfg
  rw [Dev.f_sf _ _ _ (by unfold Fld.ok; decide)]
  exact Nat.mod_eq_of_lt (r.fld_lt ..)

theorem reset_pbuCtxCfg (c : Nat) : (r1 .pbuCtxCfg c).reset = 1 := rfl

theorem Dev.ctxCfg_state (d : Dev) (c : Nat) (r : Req) : (d.ctxCfg c r).ctxState c = 0 := by
  unfold Dev.ctxCfg Dev.ctxState
  rw [Dev.f_sf_ne _ (by unfold Fld.ok; decide) (by decide), Dev.f_sf_ne _ (by unfold Fld.ok; decide) (by decide)]
  unfold Dev.f
  rw [Dev.rd_wr, reset_pbuCtxCfg]
  decide

/-- The completion of a CTX_OPEN leaves the context as it was opened. -/
theorem Dev.ctxOpened_finish (d : Dev) (now c : Nat) (r : Req) (x : Ctx) :
    let e := ((d.ctxCfg c r).ctxEntered c x).finish now r .ok c []
    e.ctx? c = some x ∧ e.ctxClass c = r.fld 0 0 4 ∧ e.f (r1 .pbuCtxCfg c) F.pbuCtxCfg.SHARE = r.fld 0 16 16 ∧ e.ctxState c = 0 ∧ (∀ k, k ≠ c → e.ctx? k = d.ctx? k) ∧
      served d e r .ok c [] ∧ ringKept d e r.mbx := by
  intro e
  obtain ⟨hserved, hring⟩ := ((d.ctxCfg_quiet c r).trans (Dev.ctxEntered_quiet _ c x)).finish now r .ok c (b := []) (by simp)
  have hrd : e.rd (r1 .pbuCtxCfg c) = (d.ctxCfg c r).rd (r1 .pbuCtxCfg c) := (Dev.finish_rd (by simp) (by simp)).trans (Dev.ctxEntered_rd ..)
  have hctx (k : Nat) : e.ctx? k = ((d.ctxCfg c r).ctxEntered c x).ctx? k := by
    unfold e Dev.ctx?
    rw [Dev.finish_fab]
  refine ⟨?_, (Dev.f_of_rd hrd _).trans (d.ctxCfg_class c r), (Dev.f_of_rd hrd _).trans (d.ctxCfg_share c r), (Dev.f_of_rd hrd _).trans (d.ctxCfg_state c r), fun k hk => ?_, hserved, hring⟩
  · rw [hctx, Dev.ctxEntered_ctx?, if_pos rfl]
  · rw [hctx, Dev.ctxEntered_ctx?, if_neg hk]
    rfl

theorem ctxOpen_opens {s : State} {t m seq c : Nat} {r : Req} (hr : ready s t m seq 0x0101 r = true) (hk : s.dev.ctxOpenCheck m r = none) (hc : s.dev.freeCtx = some c) :
    Answers (.ctxOpen t m seq) s fun s' => s'.dev.ctx? c = some { mbx := m, cls := r.fld 0 0 4, seed := if r.w32 4 = 0 then s.now t % 2 ^ 32 else r.w32 4 } ∧ s'.dev.ctxClass c = r.fld 0 0 4 ∧
      s'.dev.f (r1 .pbuCtxCfg c) F.pbuCtxCfg.SHARE = r.fld 0 16 16 ∧ s'.dev.ctxState c = 0 ∧ (∀ k, k ≠ c → s'.dev.ctx? k = s.dev.ctx? k) ∧ served s.dev s'.dev r .ok c [] ∧
      ringKept s.dev s'.dev m := by
  refine command_answers (f := fun now d => d.ctxOpen now m seq) (form := fun _ => true) rfl rfl hr rfl hk fun hm _ _ => ?_
  subst hm
  have h := s.dev.ctxOpened_finish (s.now t) c r { mbx := r.mbx, cls := r.fld 0 0 4, seed := if r.w32 4 = 0 then s.now t % 2 ^ 32 else r.w32 4 }
  dsimp only at h ⊢
  rw [hc]
  exact h

/-! ### CTX_CLOSE -/

theorem Dev.startUnload_frame (d : Dev) (now h : Nat) (ms : Nat × Nat) (by_ : Nat) : CtxFrame d (d.startUnload now h ms by_) := by
  unfold Dev.startUnload
  split
  · exact .refl d
  · extract_lets d1 d2 k
    have h1 : CtxFrame d d1 := by
      unfold d1
      split
      · exact .trans (.of_fab (Dev.dropWait_fab ..)) (Dev.finishRun_frame ..)
      · exact .refl d
    have h2 : CtxFrame d1 d2 := by
      unfold d2
      split
      · exact .of_fab (Dev.finishAt_fab ..)
      · exact .refl d1
    have hk : CtxFrame d2 k.2 := .of_fab (Dev.draw_2_fab ..)
    exact ((h1.trans h2).trans hk).trans ((Dev.modCascade_frame ..).trans (.of_fab (Dev.dropT0Needs_fab ..)))

theorem Dev.supersedeCtx_fab (d : Dev) (now c by_ : Nat) : (d.supersedeCtx now c by_).fab = d.fab := foldl_fab (fun _ _ => Dev.finish_fab ..) _ d

theorem Dev.leaveSeqs_fab (d : Dev) (now c by_ : Nat) (key : Key) : (d.leaveSeqs now c by_ key).fab = d.fab := by
  unfold Dev.leaveSeqs
  extract_lets queued d1
  have h1 : d1.fab = d.fab := by
    refine foldl_fab (fun d e => ?_) queued d
    extract_lets kv e1 e2
    have h2 : e2.fab = d.fab := (Dev.finishAt_fab ..).trans (Dev.dropWait_fab ..)
    clear_value e2
    split
    · exact (Dev.finishAt_fab ..).trans h2
    · exact h2
  exact h1

/-- A context that starts to close stands with the SEQ that closes it (R354). -/
theorem Dev.startClose_closing {d : Dev} {c : Nat} (hc : (d.ctx? c).isSome = true) (now q by_ : Nat) (key : Key) :
    ((d.startClose now c q by_ key).ctx? c).elim false (fun x => x.closing == some q) = true := by
  obtain ⟨x, hx⟩ := Option.isSome_iff_exists.mp hc
  unfold Dev.startClose
  extract_lets fab d1 d2 mine
  have h1 : d1.ctx? c = some { x with closing := some q, endedAt := now } := by
    unfold d1 Dev.ctx? at *
    rw [tget_tmod, if_pos rfl, hx]
    rfl
  have h2 : CtxFrame d1 d2 := .of_fab ((Dev.leaveSeqs_fab ..).trans (Dev.supersedeCtx_fab ..))
  have h3 : CtxFrame d1 (mine.foldl (fun (d : Dev) h => d.startUnload now h noCmd by_) d2) := h2.trans (.foldl (fun d h => d.startUnload_frame ..) mine d2)
  have hlife := h3.life c
  rw [h1] at hlife
  obtain ⟨y, hy, hyx⟩ := Option.map_eq_some_iff.mp hlife
  rw [hy]
  exact beq_iff_eq.mpr (congrArg Prod.snd hyx)

/-- A command of a context that may be decided finds it (R352, R355). -/
theorem Dev.ctx?_isSome_of_permFail {d : Dev} {r : Req} (h : d.permFail r = none) (h1 : r.code ≠ 0x0001) (h2 : r.code ≠ 0x0002) (h3 : r.code ≠ 0x0101) :
    (d.ctx? r.ctx).isSome = true := by
  unfold Dev.permFail at h
  rw [if_neg (by simp [h1, h2]), if_neg h3] at h
  have hctx := firstFail_none.mp h _ (List.mem_cons_of_mem _ List.mem_cons_self)
  split at hctx
  · next x hx => simp [hx]
  · cases hctx

theorem ctxClose_closes {s : State} {t m seq : Nat} {r : Req} (hr : ready s t m seq 0x0102 r = true) (hk : s.dev.ctxCloseCheck r = none) :
    Answers (.ctxClose t m seq) s fun s' => ∃ d1 : Dev, s'.dev = d1.settleEnds (s.now t) ∧ (d1.ctx? r.ctx).elim false (fun x => x.closing == some r.seq) = true := by
  have hcode : r.code = 0x0102 := by
    unfold ready at hr
    simp only [Bool.and_eq_true, beq_iff_eq] at hr
    obtain ⟨⟨⟨_, hc⟩, _⟩, _⟩ := hr
    exact hc
  have hperm : s.dev.permFail r = none := firstFail_none.mp hk _ (by simp)
  have hctx : (s.dev.ctx? r.ctx).isSome = true := Dev.ctx?_isSome_of_permFail hperm (by simp [hcode]) (by simp [hcode]) (by simp [hcode])
  exact command_answers (f := fun now d => d.ctxClose now m seq) (form := fun _ => true) rfl rfl hr rfl hk fun _ _ _ =>
    ⟨_, rfl, Dev.startClose_closing (d := s.dev.decide' r) hctx ..⟩

/-! ### CTX_SHARES -/

/-- Of entries written in turn the last of a key stands. -/
theorem tget_foldl_tset_range {k v : Nat → Nat} {n i : Nat} (t : Tbl Nat) (hi : i < n) (h : ∀ j, i < j → j < n → k j ≠ k i) :
    tget ((List.range n).foldl (fun s j => tset s (k j) (v j)) t) (k i) = some (v i) := by
  induction n with
  | zero => omega
  | succ n ih =>
    rw [List.range_succ, List.foldl_append]
    by_cases hn : i = n
    · subst hn
      exact tget_tset ..
    · exact (tget_tset_ne (h n (by omega) (by omega)).symm).trans (ih (by omega) fun j hj hjn => h j hj (by omega))

theorem ctxShares_shares {s : State} {t m seq i : Nat} {r : Req} (hr : ready s t m seq 0x0103 r = true) (hk : s.dev.ctxSharesCheck m r = none) (hi : i < r.fld 0 0 8)
    (hlast : ∀ j, i < j → j < r.fld 0 0 8 → r.fld (4 + 4 * j) 0 10 ≠ r.fld (4 + 4 * i) 0 10) :
    Answers (.ctxShares t m seq) s fun s' => tget s'.dev.pbu.shares (r.fld (4 + 4 * i) 0 10) = some (r.fld (4 + 4 * i) 16 16) ∧ served s.dev s'.dev r .ok 0 [] ∧
      ringKept s.dev s'.dev m := by
  refine command_answers (f := fun now d => d.ctxShares now m seq) (form := fun _ => true) rfl rfl hr rfl hk fun hm _ _ => ?_
  dsimp only
  generalize hw : ({ s.dev with pbu := { s.dev.pbu with shares := _ } } : Dev) = d1
  have hq : Quiet s.dev d1 := hw ▸ ⟨rfl, rfl, .of_regs rfl⟩
  obtain ⟨hserved, hring⟩ := hq.finish (s.now t) r .ok 0 (b := []) (by simp)
  refine ⟨?_, hserved, hm ▸ hring⟩
  rw [Dev.finish_pbu, ← hw]
  exact tget_foldl_tset_range (k := fun j => r.fld (4 + 4 * j) 0 10) (v := fun j => r.fld (4 + 4 * j) 16 16) _ hi hlast

/-- Settles O39: a clause each for HELLO, HELLO with RESET, BYE, CTX_OPEN, CTX_CLOSE and CTX_SHARES. -/
theorem sessionCommands : Obligations.SessionCommands := by
  unfold Obligations.SessionCommands
  exact ⟨fun _ _ _ _ _ => hello_opens, fun _ _ _ _ _ => hello_resets, fun _ _ _ _ _ => bye_ends, fun _ _ _ _ _ _ => ctxOpen_opens, fun _ _ _ _ _ => ctxClose_closes,
    fun _ _ _ _ _ _ => ctxShares_shares⟩

end Sys2Proof.Machine

/-! ## O46: objects, cells, the KV pool, needs, pins and evictions -/

namespace Sys2Proof.Machine

/-! ### The object table -/

theorem Dev.modObj_of_tget {d : Dev} {i : Nat} {o : Obj} (h : tget d.slu.objs i = some o) (f : Obj → Obj) : d.modObj i f = d.setObj i (f o) := by
  unfold Dev.modObj
  rw [h]

@[simp] theorem Dev.modObj_stew (d : Dev) (i : Nat) (f : Obj → Obj) : (d.modObj i f).stew = d.stew := by unfold Dev.modObj; split <;> rfl
@[simp] theorem Dev.modObj_pbu (d : Dev) (i : Nat) (f : Obj → Obj) : (d.modObj i f).pbu = d.pbu := by unfold Dev.modObj; split <;> rfl
@[simp] theorem Dev.modObj_kv (d : Dev) (i : Nat) (f : Obj → Obj) : (d.modObj i f).kv = d.kv := by unfold Dev.modObj; split <;> rfl
@[simp] theorem Dev.modObj_reqs (d : Dev) (i : Nat) (f : Obj → Obj) : (d.modObj i f).slu.reqs = d.slu.reqs := by unfold Dev.modObj; split <;> rfl

theorem Dev.tget_setObj (d : Dev) (i : Nat) (o : Obj) : tget (d.setObj i o).slu.objs i = some o := tget_tset ..

theorem Dev.tget_modObj (d : Dev) (i j : Nat) (f : Obj → Obj) :
    tget (d.modObj i f).slu.objs j = if j = i then (tget d.slu.objs j).map f else tget d.slu.objs j := by
  cases h : tget d.slu.objs i with
  | none =>
    have hd : d.modObj i f = d := by
      unfold Dev.modObj
      rw [h]
    rw [hd]
    split
    · next hj => rw [hj, h]; rfl
    · rfl
  | some o =>
    rw [Dev.modObj_of_tget h]
    split
    · next hj => rw [hj, Dev.tget_setObj, h]; rfl
    · next hj => exact tget_tset_ne hj

/-- An object that its id finds stands at the id's index with the id's tag (R179). -/
theorem Dev.obj?_eq_some {d : Dev} {id : Nat} {o : Obj} : d.obj? id = some o ↔ tget d.slu.objs (idIndex id) = some o ∧ o.tag = id / 65536 := by
  unfold Dev.obj?
  cases tget d.slu.objs (idIndex id) with
  | none => simp
  | some x =>
    dsimp only
    split
    · next h =>
      constructor
      · rintro ⟨rfl⟩
        exact ⟨rfl, h⟩
      · exact And.left
    · next h =>
      constructor
      · exact nofun
      · rintro ⟨⟨rfl⟩, ht⟩
        exact absurd ht h

theorem Dev.obj?_of_free {d : Dev} {id : Nat} (h : tget d.slu.objs (idIndex id) = none) : d.obj? id = none := by
  unfold Dev.obj?
  rw [h]

theorem Dev.obj?_of_objs {d e : Dev} (h : e.slu.objs = d.slu.objs) (id : Nat) : e.obj? id = d.obj? id := by
  unfold Dev.obj?
  rw [h]

/-! ### What the lock's machinery leaves alone -/

/-- What locks, moves and completions leave: the fabric, the budgets, the KV cache; no object appears, no request comes into flight, and completions stay written. -/
structure LockFrame (d e : Dev) : Prop where
  fab : e.fab = d.fab
  pbu : e.pbu = d.pbu
  kv : e.kv = d.kv
  absent : ∀ i, tget d.slu.objs i = none → tget e.slu.objs i = none
  gone : ∀ r, gone d r → gone e r
  cpls : ∃ later, e.stew.cpls = later ++ d.stew.cpls

namespace LockFrame

variable {d e f : Dev}

theorem refl (d : Dev) : LockFrame d d := ⟨rfl, rfl, rfl, fun _ h => h, fun _ h => h, [], rfl⟩

theorem trans (a : LockFrame d e) (b : LockFrame e f) : LockFrame d f := by
  obtain ⟨l, hl⟩ := a.cpls
  obtain ⟨k, hk⟩ := b.cpls
  exact ⟨b.fab.trans a.fab, b.pbu.trans a.pbu, b.kv.trans a.kv, fun i h => b.absent i (a.absent i h), fun r h => b.gone r (a.gone r h), k ++ l, by rw [hk, hl, List.append_assoc]⟩

/-- A step beside the steward that makes no object. -/
theorem of_stew (hfab : e.fab = d.fab) (hpbu : e.pbu = d.pbu) (hkv : e.kv = d.kv) (hstew : e.stew = d.stew)
    (habsent : ∀ i, tget d.slu.objs i = none → tget e.slu.objs i = none) : LockFrame d e :=
  ⟨hfab, hpbu, hkv, habsent, fun _ h => gone_of_inflight (congrArg _ hstew) h, [], by rw [hstew]; rfl⟩

theorem of_objs (hfab : e.fab = d.fab) (hpbu : e.pbu = d.pbu) (hkv : e.kv = d.kv) (hstew : e.stew = d.stew) (hobjs : e.slu.objs = d.slu.objs) : LockFrame d e :=
  of_stew hfab hpbu hkv hstew fun i h => by rwa [hobjs]

theorem foldl {α : Type} {g : Dev → α → Dev} (h : ∀ d a, LockFrame d (g d a)) (l : List α) (d : Dev) : LockFrame d (l.foldl g d) :=
  List.foldlRecOn l g (motive := LockFrame d) (refl d) fun _ he a _ => he.trans (h _ a)

theorem modObj (d : Dev) (i : Nat) (f : Obj → Obj) : LockFrame d (d.modObj i f) :=
  of_stew (by simp) (by simp) (by simp) (by simp) fun j h => by
    rw [Dev.tget_modObj, h]
    split <;> rfl

theorem modReq (d : Dev) (r : Nat) (f : SluReq → SluReq) : LockFrame d (d.modReq r f) := of_objs rfl rfl rfl rfl rfl

theorem addReq (d : Dev) (x : SluReq) : LockFrame d (d.addReq x).2 := of_objs rfl rfl rfl rfl rfl

theorem syncEngine (d : Dev) (n : Nat) : LockFrame d (d.syncEngine n) := of_objs rfl rfl rfl rfl rfl

theorem syncEngines (d : Dev) : LockFrame d d.syncEngines := by
  unfold Dev.syncEngines
  exact foldl syncEngine _ d

theorem queuePart (d : Dev) (now r eng index : Nat) (x : Desc) (st : PartState) (area : Option (Loc × Nat)) : LockFrame d (d.queuePart now r eng index x st area) :=
  of_objs rfl rfl rfl rfl rfl

theorem finish (d : Dev) (now : Nat) (r : Req) (st : Status) (de : Nat) (b : List Byte) : LockFrame d (d.finish now r st de b) := by
  refine ⟨by simp, by simp, by simp, fun i h => by simpa using h, fun x h => ?_, ?_⟩
  · unfold Machine.gone Dev.req? Dev.finish at *
    rw [(Dev.flushNotices_notices _ now r.mbx 64).inflight, Dev.syncInflight_stew, Dev.cplEntry_inflight]
    rw [List.find?_eq_none] at h ⊢
    exact fun y hy => h y (List.mem_filter.mp hy).1
  · unfold Dev.finish
    extract_lets stew d1
    obtain ⟨later, hl⟩ := (Dev.flushNotices_notices ((d1.cplEntry now r.mbx (d1.cplWord0 r) r.tag r.ctx (d1.windowStatus r.ctx st).code de b).syncInflight r.mbx) now r.mbx 64).cpls
    rw [hl, Dev.syncInflight_stew, Dev.cplEntry_cpls]
    exact ⟨later ++ [_], (List.append_cons later _ d.stew.cpls)⟩

theorem finishAt (d : Dev) (now : Nat) (ms : Nat × Nat) (st : Status) (de : Nat) (b : List Byte) : LockFrame d (d.finishAt now ms st de b) := by
  unfold Dev.finishAt
  split
  · exact finish ..
  · exact refl d

theorem finishPurpose (d : Dev) (now : Nat) (p : Purpose) (st : Status) (de : Nat) : LockFrame d (d.finishPurpose now p st de) := by
  cases p with
  | place => exact finishAt ..
  | writeBack => exact finishAt ..
  | initCopy => exact finishAt ..
  | safe => exact refl d
  | list => exact refl d
  | kv => exact refl d

theorem dropCopy (d : Dev) (i t : Nat) : LockFrame d (d.dropCopy i t) := modObj ..

theorem dropReq (d : Dev) (r : Nat) : LockFrame d (d.dropReq r) := by
  unfold Dev.dropReq
  refine .trans ?_ (syncEngines _)
  exact of_objs rfl rfl rfl rfl rfl

theorem cutReq (d : Dev) (r : Nat) (st : Status) : LockFrame d (d.cutReq r st) := (modReq ..).trans (syncEngines _)

theorem startMove {now i cls ctx : Nat} {o : Obj} {src dst : Loc} {key : Key} {p : Purpose} {making : Option (Nat × Nat)} {x : Nat × Dev}
    (h : d.startMove now i o src dst cls ctx key p making = some x) : LockFrame d x.2 := by
  unfold Dev.startMove at h
  split at h
  · cases h
  · cases h
    exact ((addReq ..).trans (modObj ..)).trans (queuePart ..)

theorem tryPromote (d : Dev) (now i : Nat) (q : LockReq) : LockFrame d (d.tryPromote now i q) := by
  unfold Dev.tryPromote
  split
  · exact finishAt ..
  · dsimp only
    split
    · exact (modObj ..).trans (finishAt ..)
    · split
      · split
        · next h => exact startMove h
        · exact finishAt ..
      · exact finishAt ..

theorem tryEvict (d : Dev) (now i : Nat) (q : LockReq) : LockFrame d (d.tryEvict now i q) := by
  unfold Dev.tryEvict
  split
  · exact finishAt ..
  · dsimp only
    split
    · exact finishAt ..
    · split
      · exact (modObj ..).trans (finishAt ..)
      · split
        · split
          · split
            · split
              · next h => exact startMove h
              · exact finishAt ..
            · exact finishAt ..
          · exact refl d
        · exact ((modObj ..).trans (dropCopy ..)).trans (finishAt ..)

theorem serveLock (d : Dev) (now i : Nat) (q : LockReq) : LockFrame d (d.serveLock now i q) := by
  unfold Dev.serveLock
  split
  · exact tryPromote ..
  · exact tryPromote ..
  · exact tryEvict ..
  · exact tryEvict ..
  · split
    · exact ((modObj ..).trans (modReq ..)).trans (syncEngines _)
    · exact refl d

theorem passLock (d : Dev) (now i : Nat) (f g : Obj → Obj) (q : LockReq) : LockFrame d (((d.modObj i f).modObj i g).serveLock now i q) :=
  ((modObj ..).trans (modObj ..)).trans (serveLock ..)

theorem unlock (d : Dev) (now i k : Nat) : LockFrame d (d.unlock now i k) := by
  induction k generalizing d with
  | zero => exact modObj ..
  | succ k ih =>
    unfold Dev.unlock
    dsimp only
    split
    · exact modObj ..
    · split
      · exact modObj ..
      · split
        · split
          · exact (passLock ..).trans (ih _)
          · exact passLock ..
        · exact passLock ..

theorem unlockOf (d : Dev) (now r : Nat) (m : Option (Nat × Nat)) : LockFrame d (d.unlockOf now r m) := by
  unfold Dev.unlockOf
  split
  · split
    · exact unlock ..
    · exact refl d
  · exact refl d

theorem cancelMove (d : Dev) (now r by_ : Nat) : LockFrame d (d.cancelMove now r by_) := by
  unfold Dev.cancelMove
  split
  · exact refl d
  · dsimp only
    split
    · exact ((finishPurpose ..).trans (cutReq ..)).trans (unlockOf ..)
    · exact ((finishPurpose ..).trans (dropReq ..)).trans (unlockOf ..)

theorem turnAway (d : Dev) (now : Nat) (q : LockReq) (st : Status) (de : Nat) : LockFrame d (d.turnAway now q st de) := by
  unfold Dev.turnAway
  split
  · exact (cutReq ..).trans (unlockOf ..)
  · exact finishAt ..

/-- What was served stays served (R347). -/
theorem served {old : Dev} {r : Req} {st : Status} {de : Nat} {b : List Byte} (h : LockFrame d e) (hs : served old d r st de b) : served old e r st de b := by
  obtain ⟨hgone, later, earlier, c, hc, hrest⟩ := hs
  obtain ⟨l, hl⟩ := h.cpls
  refine ⟨h.gone r hgone, l ++ later, earlier, c, by simp only [hl, hc, List.append_assoc], ?_⟩
  rwa [Dev.windowStatus_of_eq h.fab h.pbu]

end LockFrame


/-! ### An object goes -/

/-- What stands when the object at an index is removed: no object at it and none that was not, no request that had gone, and no KV pool of it. -/
structure ObjGone (i : Nat) (d e : Dev) : Prop where
  free : tget e.slu.objs i = none
  absent : ∀ j, tget d.slu.objs j = none → tget e.slu.objs j = none
  gone : ∀ r, gone d r → gone e r
  poolNone : d.kv.pool = none → e.kv.pool = none
  pool : ∀ p, d.kv.pool = some p → i = idIndex p.t1 ∨ i = idIndex p.t2 → e.kv.pool = none

/-- Of a device that keeps what the lock's machinery keeps, the object and the pool whose it is go. -/
theorem ObjGone.of_freeObj {d e : Dev} (i : Nat) (h : LockFrame d e) :
    ObjGone i d ((if e.kv.pool.elim false (fun p => idIndex p.t1 == i || idIndex p.t2 == i) then { e with kv := { e.kv with pool := none } } else e).freeObj i) := by
  have habsent (j : Nat) (hj : tget e.slu.objs j = none) : tget (tdel e.slu.objs i) j = none := tget_tdel_of_none hj
  split
  · exact ⟨tget_tdel .., fun j hj => habsent j (h.absent j hj), fun r hr => gone_of_inflight rfl (h.gone r hr), fun _ => rfl, fun _ _ _ => rfl⟩
  · next hp =>
    refine ⟨tget_tdel .., fun j hj => habsent j (h.absent j hj), fun r hr => gone_of_inflight rfl (h.gone r hr), fun hn => (congrArg KvSt.pool h.kv).trans hn, fun p hd hi => ?_⟩
    rw [h.kv, hd] at hp
    rcases hi with hi | hi <;> simp [hi] at hp

theorem Dev.removeObj_objGone (d : Dev) (now i : Nat) : ObjGone i d (d.removeObj now i) := by
  unfold Dev.removeObj
  extract_lets moves d1 d2
  have hmoves : LockFrame d d1 := .foldl (fun _ _ => .cancelMove ..) _ _
  have hqueue : LockFrame d d2 := by
    unfold d2
    clear_value d1
    split
    · exact hmoves.trans (.foldl (fun _ _ => .turnAway ..) _ _)
    · exact hmoves
  clear_value d2
  exact .of_freeObj i hqueue

theorem Dev.finish_gone (d : Dev) (now : Nat) (r : Req) (st : Status) (de : Nat) (b : List Byte) : gone (d.finish now r st de b) r :=
  (Dev.finish_served (old := d) rfl now r st de b).1

theorem objDelete_deletes {s : State} {t m seq : Nat} {r : Req} (hr : ready s t m seq 0x0301 r = true) (hf : r.flag 0 = true) (hkind : r.kind4 < 4)
    (hk : s.dev.objDeleteCheck r = none) :
    Answers (.objDelete t m seq) s fun s' => (r.kind4 = 2 → tget s'.dev.cells (r.w32 4) = none) ∧ (r.kind4 ≠ 2 → s'.dev.obj? (r.w32 4) = none) ∧
      (r.kind4 ≠ 2 → ∀ p, s.dev.kv.pool = some p → (idIndex (r.w32 4) = idIndex p.t1 ∨ idIndex (r.w32 4) = idIndex p.t2) → s'.dev.kv.pool = none) ∧ gone s'.dev r := by
  refine command_answers (f := fun now d => d.objDelete now m seq) (form := fun r => r.flag 0 && decide (r.kind4 < 4)) rfl rfl hr (by simp [hf, hkind]) hk fun _ _ _ => ?_
  by_cases hcell : r.kind4 = 2
  · simp only [hcell, beq_self_eq_true, if_true]
    refine ⟨fun _ => ?_, nofun, nofun, Dev.finish_gone ..⟩
    rw [Dev.finish_cells]
    exact tget_tdel ..
  · have hcell' : (r.kind4 == 2) = false := by simpa using hcell
    have hremoved {e : Dev} (h : tget e.slu.objs (idIndex (r.w32 4)) = none) : (e.finish (s.now t) r .ok 0 []).obj? (r.w32 4) = none :=
      Dev.obj?_of_free (by rwa [Dev.finish_slu])
    have hgone := s.dev.removeObj_objGone (s.now t) (idIndex (r.w32 4))
    simp only [hcell', Bool.false_eq_true, if_false]
    refine ⟨fun h => absurd h hcell, ?_⟩
    cases hpool : s.dev.kv.pool with
    | none => exact ⟨fun _ => hremoved hgone.free, nofun, Dev.finish_gone ..⟩
    | some p =>
      dsimp only
      split
      · next hi =>
        have h1 := s.dev.removeObj_objGone (s.now t) (idIndex p.t1)
        have h2 := (s.dev.removeObj (s.now t) (idIndex p.t1)).removeObj_objGone (s.now t) (idIndex p.t2)
        refine ⟨fun _ => hremoved ?_, fun _ _ _ _ => ?_, Dev.finish_gone ..⟩
        · change tget ((s.dev.removeObj (s.now t) (idIndex p.t1)).removeObj (s.now t) (idIndex p.t2)).slu.objs (idIndex (r.w32 4)) = none
          rcases hi with hi | hi
          · rw [hi]
            exact h2.absent _ h1.free
          · rw [hi]
            exact h2.free
        · rw [Dev.finish_kv]
          exact h2.poolNone (h1.pool p hpool (.inl rfl))
      · next hi =>
        refine ⟨fun _ => hremoved hgone.free, fun _ p' hp' hi' => absurd hi' ?_, Dev.finish_gone ..⟩
        cases hp'
        exact hi

/-! ### Releases of copies -/

/-- What an eviction that nothing forces leaves of its object: tag and pins, the tiers without a copy, and the needs where its tier has none. -/
structure ObjKept (t : Nat) (o o' : Obj) : Prop where
  tag : o'.tag = o.tag
  pins : o'.pins = o.pins
  absent : ∀ u, o.copy u = none → o'.copy u = none
  needs : o.needsIn t = [] → o'.needs = o.needs

theorem ObjKept.refl (t : Nat) (o : Obj) : ObjKept t o o := ⟨rfl, rfl, fun _ h => h, fun _ => rfl⟩

theorem Obj.needsIn_eq_nil {o : Obj} {t : Nat} : o.needsIn t = [] ↔ ∀ p ∈ o.needs, p.1 ≠ t := by
  unfold Obj.needsIn
  simp

theorem Obj.afterEvict_of_needsIn {o : Obj} {t : Nat} (h : o.needsIn t = []) (ctx : Nat) (force : Bool) : o.afterEvict t ctx force = o.needs := by
  rw [Obj.needsIn_eq_nil] at h
  exact List.filter_eq_self.mpr fun p hp => by simp [h p hp]

theorem Dev.startMove_obj {d : Dev} {now i cls ctx : Nat} {o o1 : Obj} {src dst : Loc} {key : Key} {p : Purpose} {making : Option (Nat × Nat)} {x : Nat × Dev}
    (h : d.startMove now i o src dst cls ctx key p making = some x) (ho : tget d.slu.objs i = some o1) :
    tget x.2.slu.objs i = some { o1 with lock := some d.slu.nextReq } := by
  unfold Dev.startMove at h
  split at h
  · cases h
  · cases h
    refine (Dev.tget_modObj (d.addReq _).2 i i _).trans ?_
    rw [if_pos rfl]
    exact congrArg _ ho

theorem Dev.tget_modObj_self {d : Dev} {i : Nat} {o : Obj} (ho : tget d.slu.objs i = some o) (f : Obj → Obj) : tget (d.modObj i f).slu.objs i = some (f o) := by
  rw [Dev.tget_modObj, if_pos rfl, ho]
  rfl

theorem Dev.tget_dropCopy {d : Dev} {i t : Nat} {o : Obj} (ho : tget d.slu.objs i = some o) (ht : t ≠ o.home) :
    tget (d.dropCopy i t).slu.objs i = some { o with copies := tdel o.copies t, dirty := o.dirty && o.highest != t } := by
  unfold Dev.dropCopy
  rw [Dev.tget_modObj_self ho, if_neg ht]

/-- An object whose needs an eviction of a tier has removed (R182, R184). -/
def Obj.evicted (o : Obj) (t ctx : Nat) (force : Bool) : Obj := { o with needs := o.afterEvict t ctx force }

/-- The needs after an unforced eviction, in an object otherwise the same, are kept where there were none in the tier. -/
theorem ObjKept.afterEvict (t : Nat) (o : Obj) (ctx : Nat) (force : Bool) : ObjKept t o (o.evicted t ctx force) :=
  ⟨rfl, rfl, fun _ h => h, fun h => o.afterEvict_of_needsIn h ctx force⟩

theorem Dev.tryEvict_kept {d : Dev} {i : Nat} {q : LockReq} {o : Obj} (ho : tget d.slu.objs i = some o) (now : Nat) :
    ∃ o', tget (d.tryEvict now i q).slu.objs i = some o' ∧ ObjKept q.tier o o' := by
  have hstays {e : Dev} (he : e.slu = d.slu) : ∃ o', tget e.slu.objs i = some o' ∧ ObjKept q.tier o o' := ⟨o, by rwa [he], .refl ..⟩
  unfold Dev.tryEvict
  rw [ho]
  dsimp only
  split
  · exact hstays (by simp)
  · split
    · rw [Dev.finishAt_slu]
      exact ⟨_, Dev.tget_modObj_self ho _, .afterEvict ..⟩
    · next hout =>
      split
      · split
        · split
          · split
            · next h => exact ⟨_, Dev.startMove_obj h ho, rfl, rfl, fun _ h => h, fun _ => rfl⟩
            · exact hstays (by simp)
          · exact hstays (by simp)
        · exact hstays rfl
      · rw [Dev.finishAt_slu]
        exact ⟨_, Dev.tget_dropCopy (Dev.tget_modObj_self ho _) fun h => hout (.inl h), rfl, rfl, fun u hu => tget_tdel_of_none hu, fun h => o.afterEvict_of_needsIn h ..⟩

/-! ### The lock where nothing contends -/

/-- A request for a free lock behind which none waits is served (R187). -/
theorem Dev.requestLock_free {d : Dev} {i : Nat} {q : LockReq} {o : Obj} (ho : tget d.slu.objs i = some o) (hlock : o.lock = none) (hqueue : o.queue = []) (now : Nat) :
    d.requestLock now i q = (d.setObj i o).serveLock now i q := by
  have hset (p : LockReq → Bool) : d.modObj i (fun o => { o with queue := o.queue.filter p }) = d.setObj i o := by
    rw [Dev.modObj_of_tget ho, hqueue, List.filter_nil, ← hqueue]
  unfold Dev.requestLock
  simp [ho, hlock, hqueue, hset, Dev.tget_setObj, Obj.unlocked]

/-- An unforced eviction collides with nothing: it is served, waits or is turned away (R187). -/
theorem Dev.requestLock_evict {d : Dev} {i : Nat} {q : LockReq} {o : Obj} (hq : q.kind = .evict) (ho : tget d.slu.objs i = some o) (now : Nat) :
    d.requestLock now i q = if o.unlocked then (d.setObj i o).serveLock now i q
      else if o.queue.length < 8 then (d.setObj i o).modObj i fun o => { o with queue := insertLock q o.queue }
      else (d.setObj i o).turnAway now q .busy 0 := by
  have hnone : d.promoting q = false := by
    unfold Dev.promoting
    rw [hq]
  unfold Dev.requestLock
  rw [ho]
  dsimp only
  generalize o.lock.bind (fun r => (tget d.slu.reqs r).map fun x => (r, x)) = holder
  cases holder <;> simp [hq, hnone, Dev.modObj_of_tget ho, Dev.tget_setObj]

theorem Dev.serveLock_evict {q : LockReq} (hq : q.kind = .evict ∨ q.kind = .force) (d : Dev) (now i : Nat) : d.serveLock now i q = d.tryEvict now i q := by
  unfold Dev.serveLock
  rcases hq with hq | hq <;> rw [hq]

theorem Dev.turnAway_evict {q : LockReq} (hq : q.kind = .evict) (d : Dev) (now : Nat) (st : Status) (de : Nat) :
    d.turnAway now q st de = d.finishAt now (q.mbx, q.seq) st de [] := by
  unfold Dev.turnAway
  rw [hq]

theorem LockFrame.setObj {d : Dev} {i : Nat} {o : Obj} (ho : tget d.slu.objs i = some o) (o' : Obj) : LockFrame d (d.setObj i o') := by
  rw [← Dev.modObj_of_tget ho fun _ => o']
  exact .modObj ..

theorem LockFrame.requestLock_evict {d : Dev} {i : Nat} {q : LockReq} {o : Obj} (hq : q.kind = .evict) (ho : tget d.slu.objs i = some o) (now : Nat) :
    LockFrame d (d.requestLock now i q) := by
  rw [Dev.requestLock_evict hq ho]
  split
  · exact (setObj ho o).trans (.serveLock ..)
  · split
    · exact (setObj ho o).trans (.modObj ..)
    · exact (setObj ho o).trans (.turnAway ..)

theorem Dev.requestLock_evict_kept {d : Dev} {i : Nat} {q : LockReq} {o : Obj} (hq : q.kind = .evict) (ho : tget d.slu.objs i = some o) (now : Nat) :
    ∃ o', tget (d.requestLock now i q).slu.objs i = some o' ∧ ObjKept q.tier o o' := by
  rw [Dev.requestLock_evict hq ho]
  split
  · rw [Dev.serveLock_evict (.inl hq)]
    exact Dev.tryEvict_kept (Dev.tget_setObj ..) now
  · split
    · exact ⟨_, Dev.tget_modObj_self (Dev.tget_setObj ..) _, rfl, rfl, fun _ h => h, fun _ => rfl⟩
    · rw [Dev.turnAway_evict hq, Dev.finishAt_slu]
      exact ⟨o, Dev.tget_setObj .., .refl ..⟩

/-- The release of what nothing needs or pins leaves an object's pins (R182). -/
theorem Dev.releaseIdle_kept {d : Dev} {i : Nat} {o : Obj} (ho : tget d.slu.objs i = some o) (now c : Nat) (key : Key) :
    LockFrame d (d.releaseIdle now c i key) ∧ ∃ o', tget (d.releaseIdle now c i key).slu.objs i = some o' ∧ o'.pins = o.pins := by
  unfold Dev.releaseIdle
  refine List.foldlRecOn (List.range 3) _ (motive := fun e => LockFrame d e ∧ ∃ o', tget e.slu.objs i = some o' ∧ o'.pins = o.pins) ⟨.refl d, o, ho, rfl⟩ ?_
  rintro e ⟨hframe, o1, ho1, hpins⟩ t -
  rw [ho1]
  dsimp only
  split
  · obtain ⟨o2, ho2, hkept⟩ := e.requestLock_evict_kept (q := ⟨key, 256, 0, c, t, .evict⟩) rfl ho1 now
    exact ⟨hframe.trans (.requestLock_evict rfl ho1 now), o2, ho2, hkept.pins.trans hpins⟩
  · exact ⟨hframe, o1, ho1, hpins⟩

theorem objPinRelease_releases {s : State} {t m seq : Nat} {r : Req} (hr : ready s t m seq 0x0303 r = true) (hf : r.flag 0 = true) (hk : s.dev.objPinReleaseCheck r = none) :
    Answers (.objPinRelease t m seq) s fun s' => gone s'.dev r ∧ ∀ o, s'.dev.obj? (r.w32 0) = some o → (r.tier, r.ctx) ∉ o.pins := by
  have hnamed : (s.dev.obj? (r.w32 0)).isSome = true := by
    have h := firstFail_none.mp hk (needCfg (s.dev.obj? (r.w32 0)).isSome 0) (by simp)
    exact need_none.mp h
  refine command_answers (f := fun now d => d.objPinRelease now m seq) (form := fun r => r.flag 0) rfl rfl hr hf hk fun _ _ _ => ?_
  obtain ⟨o, hobj⟩ := Option.isSome_iff_exists.mp hnamed
  obtain ⟨ho, -⟩ := Dev.obj?_eq_some.mp hobj
  dsimp only
  have hset := Dev.tget_modObj_self ho fun o => { o with pins := o.pins.filter (· != (r.tier, r.ctx)) }
  generalize s.dev.modObj (idIndex (r.w32 0)) (fun o => { o with pins := o.pins.filter (· != (r.tier, r.ctx)) }) = d at hset ⊢
  have hgone := d.finish_gone (s.now t) r .ok 0 []
  have hset' : tget (d.finish (s.now t) r .ok 0 []).slu.objs (idIndex (r.w32 0)) = some { o with pins := o.pins.filter (· != (r.tier, r.ctx)) } := by
    rw [Dev.finish_slu]
    exact hset
  generalize d.finish (s.now t) r .ok 0 [] = e at hgone hset' ⊢
  rw [hset']
  dsimp only
  split
  · have hremoved := e.removeObj_objGone (s.now t) (idIndex (r.w32 0))
    refine ⟨hremoved.gone r hgone, fun x hx => ?_⟩
    rw [Dev.obj?_of_free hremoved.free] at hx
    cases hx
  · obtain ⟨hframe, o', ho', hpins⟩ := Dev.releaseIdle_kept hset' (s.now t) r.ctx (r.key s.dev)
    refine ⟨hframe.gone r hgone, fun x hx => ?_⟩
    obtain ⟨hx, -⟩ := Dev.obj?_eq_some.mp hx
    cases ho'.symm.trans hx
    rw [hpins]
    simp

/-- A release that is tried again leaves of its object the tag, the needs and the tiers without a copy, and all of it unless the object is stuck (R182). -/
theorem Dev.retryStuck_kept {d : Dev} {i : Nat} {o : Obj} (ho : tget d.slu.objs i = some o) (now : Nat) (q : LockReq) :
    LockFrame d (d.retryStuck now i q) ∧ ∃ o', tget (d.retryStuck now i q).slu.objs i = some o' ∧ o'.tag = o.tag ∧ o'.needs = o.needs ∧
      (∀ u, o.copy u = none → o'.copy u = none) ∧ (o.stuck = false → o' = o) := by
  unfold Dev.retryStuck
  rw [ho]
  dsimp only
  split
  · next h =>
    obtain ⟨hstuck, -, -, -, hneeds⟩ := h
    obtain ⟨o', ho', hkept⟩ := d.requestLock_evict_kept (q := { q with mbx := 256, seq := 0, tier := o.highest, kind := .evict }) rfl ho now
    exact ⟨.requestLock_evict rfl ho now, o', ho', hkept.tag, hkept.needs hneeds, hkept.absent, fun h => absurd hstuck (by simp [h])⟩
  · exact ⟨.refl d, o, ho, rfl, rfl, fun _ h => h, fun _ => rfl⟩

/-! ### Space for copies -/

theorem map_tset_of_tget {α β : Type} {t : Tbl α} {k : Nat} {v w : α} {f : α → β} (h : tget t k = some w) (hv : f v = f w) :
    (tset t k v).map (fun e => f e.2) = t.map fun e => f e.2 := by
  induction t with
  | nil => cases h
  | cons e t ih =>
    obtain ⟨j, x⟩ := e
    unfold tget at h
    unfold tset
    split at h
    · next hj =>
      cases h
      rw [if_pos hj]
      simp [hv]
    · next hj =>
      rw [if_neg hj]
      simp [ih h]

/-- What decides where a copy goes and which engine moves it is the same: the fabric, the open requests, the taken areas, the rings, and each object's copies and size. -/
structure SameRoom (d e : Dev) : Prop where
  fab : e.fab = d.fab
  reqs : e.slu.reqs = d.slu.reqs
  nextReq : e.slu.nextReq = d.slu.nextReq
  areas : e.slu.areas = d.slu.areas
  bases : ∀ m, e.rd (r1 .mbxBase m) = d.rd (r1 .mbxBase m)
  spots : e.slu.objs.map (fun x => (x.2.copies, x.2.size)) = d.slu.objs.map fun x => (x.2.copies, x.2.size)

namespace SameRoom

variable {d e f : Dev}

theorem trans (a : SameRoom d e) (b : SameRoom e f) : SameRoom d f :=
  ⟨b.fab.trans a.fab, b.reqs.trans a.reqs, b.nextReq.trans a.nextReq, b.areas.trans a.areas, fun m => (b.bases m).trans (a.bases m), b.spots.trans a.spots⟩

theorem decide' (d : Dev) (r : Req) : SameRoom d (d.decide' r) := ⟨rfl, rfl, rfl, rfl, fun _ => rfl, rfl⟩

theorem finishAt (d : Dev) (now : Nat) (ms : Nat × Nat) (st : Status) (de : Nat) (b : List Byte) : SameRoom d (d.finishAt now ms st de b) :=
  ⟨by simp, by simp, by simp, by simp, fun _ => Dev.finishAt_rd (by simp) (by simp), by simp⟩

theorem setObj {i : Nat} {o o' : Obj} (ho : tget d.slu.objs i = some o) (hcopies : o'.copies = o.copies) (hsize : o'.size = o.size) : SameRoom d (d.setObj i o') :=
  ⟨rfl, rfl, rfl, rfl, fun _ => rfl, map_tset_of_tget (f := fun x : Obj => (x.copies, x.size)) ho (by rw [hcopies, hsize])⟩

theorem engineRoom (h : SameRoom d e) (hroom : engineRoom d) : Machine.engineRoom e := by
  unfold Machine.engineRoom Dev.partsOn at *
  rwa [h.reqs]

theorem flatMap_spots (h : SameRoom d e) {α : Type} (f : Tbl Loc → Nat → List α) :
    (e.slu.objs.flatMap fun x => f x.2.copies x.2.size) = d.slu.objs.flatMap fun x => f x.2.copies x.2.size := by
  have h := congrArg (List.flatMap fun c => f c.1 c.2) h.spots
  rwa [List.flatMap_map, List.flatMap_map] at h

theorem filterMap_spots (h : SameRoom d e) {α : Type} (f : Tbl Loc → Nat → Option α) :
    (e.slu.objs.filterMap fun x => f x.2.copies x.2.size) = d.slu.objs.filterMap fun x => f x.2.copies x.2.size := by
  have h := congrArg (List.filterMap fun c => f c.1 c.2) h.spots
  rwa [List.filterMap_map, List.filterMap_map] at h

theorem extents (h : SameRoom d e) (t : Nat) : e.extents t = d.extents t := by
  have hcopies := h.flatMap_spots fun c n => match tget c t with
    | some l => [(l.addr, tierRound t n)]
    | none => []
  unfold Dev.extents
  rw [h.reqs, h.areas]
  refine congrArg (· ++ _) (congrArg (· ++ _) (congrArg₂ (· ++ ·) ?_ hcopies))
  simp only [Dev.fb, Dev.f, Dev.ring, h.bases]

theorem t0Place (h : SameRoom d e) (c n : Nat) : e.t0Place c n = d.t0Place c n := by
  have hcopies : (e.slu.objs.filterMap fun e => (e.2.copy 0).map fun l => (l, e.2.size)) = d.slu.objs.filterMap fun e => (e.2.copy 0).map fun l => (l, e.2.size) :=
    h.filterMap_spots fun c n => (tget c 0).map fun l => (l, n)
  unfold Dev.t0Place
  rw [hcopies, h.reqs, h.fab]

theorem copyPlace (h : SameRoom d e) (c t n : Nat) : e.copyPlace c t n = d.copyPlace c t n := by
  unfold Dev.copyPlace Dev.findSpace
  rw [h.t0Place, h.extents]

end SameRoom

/-- A queue with room on some engine takes a part (log entry 21). -/
theorem Dev.pickEngine_isSome {d : Dev} (h : engineRoom d) : ∃ n, d.pickEngine (fun _ => true) = some n := by
  obtain ⟨n, hn, hroom⟩ := h
  have hfold (l : List Nat) (k : Option Nat) (hl : l ≠ [] ∨ k.isSome) :
      (l.foldl (fun m n => match m with
        | none => some n
        | some k => if (d.partsOn n .queued).length < (d.partsOn k .queued).length then some n else some k) k).isSome := by
    induction l generalizing k with
    | nil => exact hl.resolve_left fun h => h rfl
    | cons a l ih =>
      refine ih _ (.inr ?_)
      cases k with
      | none => rfl
      | some k =>
        dsimp only
        split <;> rfl
  refine Option.isSome_iff_exists.mp (hfold _ none (.inl fun hnil => ?_))
  have hmem : n ∈ (List.range 12).filter fun n => true && decide ((d.partsOn n .queued).length < 64) := by simp [hn, hroom]
  rw [hnil] at hmem
  cases hmem

theorem Dev.syncEngine_slu (d : Dev) (n : Nat) : (d.syncEngine n).slu = d.slu := rfl

theorem Dev.tget_modReq {d : Dev} {r : Nat} {q : SluReq} (hq : tget d.slu.reqs r = some q) (f : SluReq → SluReq) : tget (d.modReq r f).slu.reqs r = some (f q) :=
  tget_tmod.trans ((if_pos rfl).trans (congrArg _ hq))

/-- A part queued for a request stands at the end of its parts (R191). -/
theorem Dev.tget_queuePart {d : Dev} {r : Nat} {q : SluReq} (hq : tget d.slu.reqs r = some q) (now eng index : Nat) (x : Desc) (st : PartState) (area : Option (Loc × Nat)) :
    ∃ q', tget (d.queuePart now r eng index x st area).slu.reqs r = some q' ∧ q'.making = q.making ∧ q'.stage = q.stage ∧ q'.parts.length = q.parts.length + 1 := by
  unfold Dev.queuePart
  dsimp only
  rw [Dev.syncEngine_slu]
  exact ⟨_, Dev.tget_modReq (d := (d.draw (0x0500 + eng) now).2) hq _, rfl, rfl, List.length_append⟩

/-- With room on an engine a move starts: the steward stays as it was, and the new request makes its copy in the place taken, as one part (R193, R203). -/
theorem Dev.startMove_starts {d : Dev} (h : engineRoom d) (now i : Nat) (o : Obj) (src dst : Loc) (cls ctx : Nat) (key : Key) (p : Purpose) (making : Option (Nat × Nat)) :
    ∃ e, d.startMove now i o src dst cls ctx key p making = some (d.slu.nextReq, e) ∧ e.stew = d.stew ∧
      ∃ x, tget e.slu.reqs d.slu.nextReq = some x ∧ x.making = making ∧ x.stage = some (dst, o.size) ∧ x.parts.length = 1 := by
  obtain ⟨eng, heng⟩ := Dev.pickEngine_isSome h
  unfold Dev.startMove
  rw [heng]
  refine ⟨_, rfl, Dev.modObj_stew .., ?_⟩
  generalize hx : ({ purpose := p, ctx := ctx, cls := cls, key := key, making := making, stage := some (dst, o.size) } : SluReq) = x
  have hreq : tget ((d.addReq x).2.modObj i fun o => { o with lock := some (d.addReq x).1 }).slu.reqs (d.addReq x).1 = some x := by
    rw [Dev.modObj_reqs]
    exact tget_tset ..
  obtain ⟨q, hq, hmaking, hstage, hparts⟩ := Dev.tget_queuePart hreq now eng 0 (moveDesc o (objId i o) (Pack.parse (d.locBytes src 0 128)) cls ctx src dst) .queued none
  subst hx
  exact ⟨q, hq, hmaking, hstage, hparts⟩

/-! ### OBJ_PLACE and OBJ_PIN -/

theorem Dev.req?_decide' {d : Dev} {m seq : Nat} {r : Req} (hreq : d.req? m seq = some r) : (d.decide' r).req? m seq = some { r with decided := true } := by
  have hkeeps : ((fun x : Req => x.mbx == m && x.seq == seq) ∘ fun x => if x.mbx = r.mbx ∧ x.seq = r.seq then { x with decided := true } else x) = fun x => x.mbx == m && x.seq == seq := by
    funext x
    dsimp only [Function.comp]
    split <;> rfl
  unfold Dev.req? at hreq ⊢
  unfold Dev.decide'
  rw [List.find?_map, hkeeps, hreq]
  simp

/-- A request that the steward has decided is served when it is finished by its mailbox and number (R347). -/
theorem Dev.finishAt_decided {d e : Dev} {m seq : Nat} {r : Req} (hreq : d.req? m seq = some r) (h : e.stew = (d.decide' r).stew) (now : Nat) (st : Status) (de : Nat)
    (b : List Byte) : served d (e.finishAt now (m, seq) st de b) r st de b :=
  Dev.finishAt_served (old := d.decide' r) (ms := (m, seq)) h (Dev.req?_decide' hreq) now st de b

/-- An object with a need recorded, or a need and a pin (R181, R184). -/
def Obj.recorded (o : Obj) (p : Nat × Nat) (pin : Bool) : Obj := { o with needs := addPair o.needs p, pins := if pin then addPair o.pins p else o.pins }

/-- Where the copy stands, a need or pin is recorded at once (R181, R184). -/
theorem Dev.recordNeed_records {d : Dev} {r : Req} {o : Obj} (hobj : d.obj? (r.w32 0) = some o) (hcopy : (o.copy r.tier).isSome = true) (hev : d.evicting o r.tier = false)
    (now : Nat) (pin : Bool) :
    served d (d.recordNeed now r pin) r .ok 0 [] ∧ ∃ o', (d.recordNeed now r pin).obj? (r.w32 0) = some o' ∧ o'.needs = addPair o.needs (r.tier, r.ctx) ∧
      o'.pins = (if pin then addPair o.pins (r.tier, r.ctx) else o.pins) ∧ o'.copies = o.copies := by
  obtain ⟨ho, htag⟩ := Dev.obj?_eq_some.mp hobj
  have hrecord : d.recordNeed now r pin = (d.setObj (idIndex (r.w32 0)) (o.recorded (r.tier, r.ctx) pin)).finish now r .ok 0 [] := by
    unfold Dev.recordNeed
    simp only [ho, hcopy, hev, and_self, if_true, Dev.modObj_of_tget ho]
    rfl
  rw [hrecord]
  have hserved := Dev.finish_served (old := d) (d := d.setObj (idIndex (r.w32 0)) (o.recorded (r.tier, r.ctx) pin)) rfl now r .ok 0 []
  refine ⟨hserved, o.recorded (r.tier, r.ctx) pin, Dev.obj?_eq_some.mpr ⟨?_, htag⟩, rfl, rfl, rfl⟩
  rw [Dev.finish_slu]
  exact Dev.tget_setObj ..

/-- Where there is no copy, nothing contends and there is room, a move makes the copy (R181, R187). -/
theorem Dev.recordNeed_moves {d : Dev} {m seq : Nat} {r : Req} {o : Obj} {src dst : Loc} (hreq : d.req? m seq = some r) (hobj : d.obj? (r.w32 0) = some o)
    (hcopy : o.copy r.tier = none) (hlock : o.lock = none) (hqueue : o.queue = []) (hroom : engineRoom d) (hsrc : o.below r.tier = some src)
    (hdst : d.copyPlace r.ctx r.tier o.size = some dst) (now : Nat) (pin : Bool) :
    awaits (d.recordNeed now r pin) m seq ∧ ∃ x, tget (d.recordNeed now r pin).slu.reqs d.slu.nextReq = some x ∧ x.making = some (idIndex (r.w32 0), r.tier) ∧
      x.stage = some (dst, o.size) ∧ x.parts.length = 1 := by
  obtain ⟨ho, -⟩ := Dev.obj?_eq_some.mp hobj
  let q : LockReq := ⟨r.key d, r.mbx, r.seq, r.ctx, r.tier, if pin then .pin else .place⟩
  have hrecord : d.recordNeed now r pin = ((d.decide' r).setObj (idIndex (r.w32 0)) o).tryPromote now (idIndex (r.w32 0)) q := by
    have hserve (e : Dev) : e.serveLock now (idIndex (r.w32 0)) q = e.tryPromote now (idIndex (r.w32 0)) q := by
      unfold Dev.serveLock q
      cases pin <;> rfl
    rw [← hserve, ← Dev.requestLock_free (d := d.decide' r) ho hlock hqueue]
    unfold Dev.recordNeed
    simp only [ho, hcopy, Option.isSome_none, Bool.false_eq_true, false_and, if_false]
    rfl
  have hsame : SameRoom d ((d.decide' r).setObj (idIndex (r.w32 0)) o) := .trans (.decide' d r) (.setObj ho rfl rfl)
  have hawaits : awaits ((d.decide' r).setObj (idIndex (r.w32 0)) o) m seq := awaits_of_inflight rfl (Dev.decide'_awaits hreq)
  have hset : tget ((d.decide' r).setObj (idIndex (r.w32 0)) o).slu.objs (idIndex (r.w32 0)) = some o := Dev.tget_setObj ..
  rw [hrecord]
  generalize (d.decide' r).setObj (idIndex (r.w32 0)) o = e at hsame hawaits hset ⊢
  obtain ⟨f, hstart, hstew, x, hx, hmaking, hstage, hparts⟩ := Dev.startMove_starts (hsame.engineRoom hroom) now (idIndex (r.w32 0)) o src dst (e.ctxClass r.ctx) r.ctx (r.key d)
    (.place r.mbx r.seq r.ctx (q.kind == .pin)) (some (idIndex (r.w32 0), r.tier))
  have hmoved : e.tryPromote now (idIndex (r.w32 0)) q = f := by
    unfold Dev.tryPromote
    simp only [hset, show q.tier = r.tier from rfl, show q.ctx = r.ctx from rfl, hcopy, hsrc, hsame.copyPlace, hdst]
    rw [show q.key = r.key d from rfl, show q.mbx = r.mbx from rfl, show q.seq = r.seq from rfl, hstart]
  rw [hmoved]
  exact ⟨awaits_of_inflight (congrArg _ hstew) hawaits, x, by rw [← hsame.nextReq, hx], hmaking, hstage, hparts⟩

theorem objPlaceOrPin_records {s : State} {t m seq : Nat} {r : Req} {o : Obj} {pin : Bool} (hr : ready s t m seq (if pin then 0x0303 else 0x0302) r = true)
    (hf : pin = true → r.flag 0 = false) (hk : (if pin then s.dev.objPinCheck r else s.dev.objPlaceCheck r) = none) (hobj : s.dev.obj? (r.w32 0) = some o) :
    Answers (if pin then .objPin t m seq else .objPlace t m seq) s fun s' =>
      ((o.copy r.tier).isSome = true → s.dev.evicting o r.tier = false → served s.dev s'.dev r .ok 0 [] ∧
        ∃ o', s'.dev.obj? (r.w32 0) = some o' ∧ o'.needs = addPair o.needs (r.tier, r.ctx) ∧ o'.pins = (if pin then addPair o.pins (r.tier, r.ctx) else o.pins) ∧ o'.copies = o.copies) ∧
      (∀ src dst, o.copy r.tier = none → o.lock = none → o.queue = [] → engineRoom s.dev → o.below r.tier = some src → s.dev.copyPlace r.ctx r.tier o.size = some dst → awaits s'.dev m seq ∧
        ∃ x, tget s'.dev.slu.reqs s.dev.slu.nextReq = some x ∧ x.making = some (idIndex (r.w32 0), r.tier) ∧ x.stage = some (dst, o.size) ∧ x.parts.length = 1) := by
  cases pin with
  | false =>
    exact command_answers (f := fun now d => d.objPlace now m seq) (form := fun _ => true) rfl rfl hr rfl hk fun _ _ hreq =>
      ⟨fun hcopy hev => Dev.recordNeed_records hobj hcopy hev _ false, fun _ _ hcopy hlock hqueue hroom hsrc hdst => Dev.recordNeed_moves hreq hobj hcopy hlock hqueue hroom hsrc hdst _ false⟩
  | true =>
    exact command_answers (f := fun now d => d.objPin now m seq) (form := fun r => !r.flag 0) rfl rfl hr (by simp [hf rfl]) hk fun _ _ hreq =>
      ⟨fun hcopy hev => Dev.recordNeed_records hobj hcopy hev _ true, fun _ _ hcopy hlock hqueue hroom hsrc hdst => Dev.recordNeed_moves hreq hobj hcopy hlock hqueue hroom hsrc hdst _ true⟩

/-! ### OBJ_EVICT -/

theorem Obj.copy_highest {o : Obj} (h : o.highest < o.home) : (o.copy o.highest).isSome = true := by
  unfold Obj.highest at h ⊢
  cases hl : lowest 4 (fun t => thas o.copies t) with
  | none =>
    rw [hl] at h
    exact absurd h (Nat.lt_irrefl _)
  | some x =>
    obtain ⟨-, hx, -⟩ := lowest_spec hl
    rwa [thas_eq] at hx

/-- At home, or under a pin, the copy stays, and the needs that the eviction names go (R182, R184). -/
theorem Dev.tryEvict_stays {d : Dev} {i : Nat} {q : LockReq} {o : Obj} (ho : tget d.slu.objs i = some o) (hforce : q.kind = .force → o.pinsIn q.tier = [])
    (h : q.tier = o.home ∨ o.pinsIn q.tier ≠ []) (now : Nat) :
    d.tryEvict now i q = (d.setObj i (o.evicted q.tier q.ctx (q.kind == .force))).finishAt now (q.mbx, q.seq) .ok 0 [] := by
  have hstays : q.tier = o.home ∨ o.copy q.tier = none ∨ o.pinsIn q.tier ≠ [] ∨ ((o.afterEvict q.tier q.ctx (q.kind == .force)).any fun p => p.1 == q.tier) = true :=
    h.imp_right fun h => .inr (.inl h)
  unfold Dev.tryEvict
  simp only [ho]
  split
  · next hk hp =>
    rw [hforce (by simpa using hk)] at hp
    cases hp
  · rw [if_pos hstays, Dev.modObj_of_tget ho]
    rfl

/-- What lets a copy go: it stands above home, and nothing pins it or needs it after the eviction (R182, R184). -/
structure Obj.Releases (o : Obj) (q : LockReq) : Prop where
  home : q.tier ≠ o.home
  pins : o.pinsIn q.tier = []
  copy : (o.copy q.tier).isSome = true
  needs : ∀ p ∈ o.afterEvict q.tier q.ctx (q.kind == .force), p.1 ≠ q.tier

theorem Obj.Releases.not_stays {o : Obj} {q : LockReq} (h : o.Releases q) :
    ¬(q.tier = o.home ∨ o.copy q.tier = none ∨ o.pinsIn q.tier ≠ [] ∨ ((o.afterEvict q.tier q.ctx (q.kind == .force)).any fun p => p.1 == q.tier) = true) := by
  rintro (hh | hc | hp | hn)
  · exact h.home hh
  · have hcopy := h.copy
    rw [hc] at hcopy
    cases hcopy
  · exact hp h.pins
  · obtain ⟨p, hp, ht⟩ := List.any_eq_true.mp hn
    exact h.needs p hp (by simpa using ht)

/-- A clean copy, or one that is not the highest, goes at once (R182). -/
theorem Dev.tryEvict_drops {d : Dev} {i : Nat} {q : LockReq} {o : Obj} (ho : tget d.slu.objs i = some o) (hrel : o.Releases q) (hclean : o.dirty = false ∨ q.tier ≠ o.highest) (now : Nat) :
    d.tryEvict now i q = ((d.setObj i (o.evicted q.tier q.ctx (q.kind == .force))).dropCopy i q.tier).finishAt now (q.mbx, q.seq) .ok 0 [] := by
  have hclean' : ¬(o.dirty = true ∧ q.tier = o.highest) := by
    rintro ⟨hd, ht⟩
    rcases hclean with h | h
    · simp [h] at hd
    · exact h ht
  unfold Dev.tryEvict
  simp only [ho]
  split
  · next hp =>
    rw [hrel.pins] at hp
    cases hp
  · rw [if_neg hrel.not_stays, if_neg hclean', Dev.modObj_of_tget ho]
    rfl

/-- A dirty highest copy is written back to the next copy below, into space that a move takes (R182, R193). -/
theorem Dev.tryEvict_writesBack {d : Dev} {i : Nat} {q : LockReq} {o : Obj} {lower dst : Loc} (ho : tget d.slu.objs i = some o) (hrel : o.Releases q) (hdirty : o.dirty = true)
    (hhighest : q.tier = o.highest) (hroom : engineRoom d) (hlower : o.below q.tier = some lower) (hdst : d.copyPlace q.ctx lower.tier o.size = some dst) (now : Nat) :
    (d.tryEvict now i q).stew = d.stew ∧ tget (d.tryEvict now i q).slu.objs i = some { o with lock := some d.slu.nextReq } ∧
      ∃ x, tget (d.tryEvict now i q).slu.reqs d.slu.nextReq = some x ∧ x.making = some (i, lower.tier) ∧ x.stage = some (dst, o.size) := by
  obtain ⟨src, hsrc⟩ := Option.isSome_iff_exists.mp hrel.copy
  obtain ⟨e, hstart, hstew, x, hx, hmaking, hstage, -⟩ := Dev.startMove_starts hroom now i o src dst (d.ctxClass q.ctx) q.ctx q.key
    (.writeBack q.mbx q.seq q.tier (q.kind == .force)) (some (i, lower.tier))
  have hmoved : d.tryEvict now i q = e := by
    unfold Dev.tryEvict
    simp only [ho]
    split
    · next hp =>
      rw [hrel.pins] at hp
      cases hp
    · rw [if_neg hrel.not_stays, if_pos ⟨hdirty, hhighest⟩]
      simp only [hsrc, hlower, hdst, hstart]
  rw [hmoved]
  exact ⟨hstew, Dev.startMove_obj hstart ho, x, hx, hmaking, hstage⟩

/-- The lock request of an OBJ_EVICT (R187). -/
def Dev.evictReq (d : Dev) (r : Req) : LockReq := ⟨r.key d, r.mbx, r.seq, r.ctx, r.tier, if r.flag 0 then .force else .evict⟩

theorem Dev.evictReq_force (d : Dev) (r : Req) : ((d.evictReq r).kind == .force) = r.flag 0 := by
  unfold Dev.evictReq
  cases r.flag 0 <;> rfl

/-- OBJ_EVICT of an object nothing contends for: the eviction runs, then a release that failed is tried again (R182, R187). -/
def Dev.evictFreely (d : Dev) (now i : Nat) (r : Req) (o : Obj) : Dev := ((d.decide' r).setObj i o).tryEvict now i (d.evictReq r)

theorem Dev.requestLock_evictReq {d : Dev} {i : Nat} {r : Req} {o : Obj} (ho : tget d.slu.objs i = some o) (hlock : o.lock = none) (hqueue : o.queue = []) (now : Nat) :
    (d.decide' r).requestLock now i (d.evictReq r) = d.evictFreely now i r o := by
  rw [Dev.requestLock_free (d := d.decide' r) ho hlock hqueue, Dev.serveLock_evict]
  · rfl
  · unfold Dev.evictReq
    cases r.flag 0 with
    | false => exact .inl rfl
    | true => exact .inr rfl

/-- Checks passed, FORCE names no pinned tier (R184). -/
theorem Dev.pinsIn_of_objEvictCheck {d : Dev} {r : Req} {o : Obj} (hk : d.objEvictCheck r = none) (hobj : d.obj? (r.w32 0) = some o) (hf : r.flag 0 = true) : o.pinsIn r.tier = [] := by
  have h := firstFail_none.mp hk _ (List.mem_cons_of_mem _ (List.mem_cons_of_mem _ List.mem_cons_self))
  rw [hobj] at h
  dsimp only at h
  rw [hf] at h
  cases hpins : o.pinsIn r.tier with
  | nil => rfl
  | cons c pins =>
    rw [hpins] at h
    cases h

/-- At home or under a pin OBJ_EVICT completes with the needs it names gone (R182, R184). -/
theorem Dev.evictFreely_stays {d : Dev} {m seq : Nat} {r : Req} {o : Obj} (hreq : d.req? m seq = some r) (hm : r.mbx = m) (hs : r.seq = seq)
    (hforce : r.flag 0 = true → o.pinsIn r.tier = []) (hobj : d.obj? (r.w32 0) = some o) (h : r.tier = o.home ∨ o.pinsIn r.tier ≠ []) (now : Nat) :
    served d (d.evictFreely now (idIndex (r.w32 0)) r o) r .ok 0 [] ∧ SameRoom d (d.evictFreely now (idIndex (r.w32 0)) r o) ∧
      tget (d.evictFreely now (idIndex (r.w32 0)) r o).slu.objs (idIndex (r.w32 0)) = some (o.evicted r.tier r.ctx (r.flag 0)) := by
  obtain ⟨ho, -⟩ := Dev.obj?_eq_some.mp hobj
  have hset : tget ((d.decide' r).setObj (idIndex (r.w32 0)) o).slu.objs (idIndex (r.w32 0)) = some o := Dev.tget_setObj ..
  have hsame : SameRoom d ((d.decide' r).setObj (idIndex (r.w32 0)) o) := .trans (.decide' d r) (.setObj ho rfl rfl)
  have hfree (hq : (d.evictReq r).kind = .force) : o.pinsIn (d.evictReq r).tier = [] := hforce ((d.evictReq_force r).symm.trans (by simp [hq]))
  have hevict := Dev.tryEvict_stays hset hfree h now
  rw [Dev.evictReq_force] at hevict
  have hroom := hsame.trans (.setObj (o' := (o.evicted r.tier r.ctx (r.flag 0))) hset rfl rfl)
  have hnow := Dev.tget_setObj ((d.decide' r).setObj (idIndex (r.w32 0)) o) (idIndex (r.w32 0)) (o.evicted r.tier r.ctx (r.flag 0))
  have hserved := Dev.finishAt_decided (e := ((d.decide' r).setObj (idIndex (r.w32 0)) o).setObj (idIndex (r.w32 0)) (o.evicted r.tier r.ctx (r.flag 0)))
    hreq rfl now .ok 0 []
  unfold Dev.evictFreely
  rw [hevict]
  refine ⟨?_, .trans hroom (.finishAt ..), ?_⟩
  · subst hm hs
    exact hserved
  · rw [Dev.finishAt_slu]
    exact hnow

theorem Dev.dropCopy_stew (d : Dev) (i t : Nat) : (d.dropCopy i t).stew = d.stew := Dev.modObj_stew ..

/-- A clean copy, or one that is not the highest, is gone when OBJ_EVICT completes (R182). -/
theorem Dev.evictFreely_drops {d : Dev} {m seq : Nat} {r : Req} {o : Obj} (hreq : d.req? m seq = some r) (hm : r.mbx = m) (hs : r.seq = seq)
    (hrel : o.Releases (d.evictReq r)) (hclean : o.dirty = false ∨ r.tier ≠ o.highest) (now i : Nat) :
    served d (d.evictFreely now i r o) r .ok 0 [] ∧
      tget (d.evictFreely now i r o).slu.objs i = some { o.evicted r.tier r.ctx (r.flag 0) with copies := tdel o.copies r.tier, dirty := o.dirty && o.highest != r.tier } := by
  have hset : tget ((d.decide' r).setObj i o).slu.objs i = some o := Dev.tget_setObj ..
  unfold Dev.evictFreely
  rw [Dev.tryEvict_drops hset hrel hclean, Dev.evictReq_force]
  refine ⟨?_, ?_⟩
  · subst hm hs
    refine Dev.finishAt_decided hreq ?_ ..
    exact Dev.dropCopy_stew ..
  · rw [Dev.finishAt_slu]
    exact Dev.tget_dropCopy (Dev.tget_setObj ..) hrel.home

/-- A dirty highest copy moves down while OBJ_EVICT waits (R182). -/
theorem Dev.evictFreely_writesBack {d : Dev} {m seq : Nat} {r : Req} {o : Obj} {lower dst : Loc} (hreq : d.req? m seq = some r) (hobj : d.obj? (r.w32 0) = some o)
    (hrel : o.Releases (d.evictReq r)) (hdirty : o.dirty = true) (hhighest : r.tier = o.highest) (hroom : engineRoom d) (hlower : o.below r.tier = some lower)
    (hdst : d.copyPlace r.ctx lower.tier o.size = some dst) (now : Nat) :
    awaits (d.evictFreely now (idIndex (r.w32 0)) r o) m seq ∧ tget (d.evictFreely now (idIndex (r.w32 0)) r o).slu.objs (idIndex (r.w32 0)) = some { o with lock := some d.slu.nextReq } ∧
      ∃ x, tget (d.evictFreely now (idIndex (r.w32 0)) r o).slu.reqs d.slu.nextReq = some x ∧ x.making = some (idIndex (r.w32 0), lower.tier) ∧ x.stage = some (dst, o.size) := by
  obtain ⟨ho, -⟩ := Dev.obj?_eq_some.mp hobj
  have hset : tget ((d.decide' r).setObj (idIndex (r.w32 0)) o).slu.objs (idIndex (r.w32 0)) = some o := Dev.tget_setObj ..
  have hsame : SameRoom d ((d.decide' r).setObj (idIndex (r.w32 0)) o) := .trans (.decide' d r) (.setObj ho rfl rfl)
  obtain ⟨hstew, hmoved⟩ := Dev.tryEvict_writesBack hset hrel hdirty hhighest (hsame.engineRoom hroom) hlower ((hsame.copyPlace ..).trans hdst) now
  exact ⟨awaits_of_inflight (congrArg _ hstew) (awaits_of_inflight rfl (Dev.decide'_awaits hreq)), hmoved⟩

/-- A stuck dirty copy that nothing keeps is written back when its release is tried again (R182). -/
theorem Dev.retryStuck_writesBack {d : Dev} {i : Nat} {q : LockReq} {o : Obj} {lower dst : Loc} (ho : tget d.slu.objs i = some o) (hlock : o.lock = none) (hqueue : o.queue = [])
    (hstuck : o.stuck = true) (hother : o.highest ≠ q.tier) (habove : o.highest < o.home) (hpins : o.pinsIn o.highest = []) (hneeds : o.needsIn o.highest = []) (hdirty : o.dirty = true)
    (hroom : engineRoom d) (hlower : o.below o.highest = some lower) (hdst : d.copyPlace q.ctx lower.tier o.size = some dst) (now : Nat) :
    ∃ x, tget (d.retryStuck now i q).slu.reqs d.slu.nextReq = some x ∧ x.making = some (i, lower.tier) ∧ x.stage = some (dst, o.size) := by
  have hset : tget (d.setObj i o).slu.objs i = some o := Dev.tget_setObj ..
  have hsame : SameRoom d (d.setObj i o) := .setObj ho rfl rfl
  have hrel : o.Releases { q with mbx := 256, seq := 0, tier := o.highest, kind := .evict } := by
    refine ⟨Nat.ne_of_lt habove, hpins, Obj.copy_highest habove, ?_⟩
    rw [Obj.afterEvict_of_needsIn hneeds]
    exact Obj.needsIn_eq_nil.mp hneeds
  obtain ⟨-, -, hx⟩ := Dev.tryEvict_writesBack hset hrel hdirty rfl (hsame.engineRoom hroom) hlower ((hsame.copyPlace ..).trans hdst) now
  unfold Dev.retryStuck
  simp only [ho]
  rw [if_pos ⟨hstuck, hother, habove, hpins, hneeds⟩, Dev.requestLock_free ho hlock hqueue, Dev.serveLock_evict (.inl rfl)]
  exact hx

theorem objEvict_evicts {s : State} {t m seq : Nat} {r : Req} {o : Obj} (hr : ready s t m seq 0x0304 r = true) (hk : s.dev.objEvictCheck r = none)
    (hobj : s.dev.obj? (r.w32 0) = some o) (hlock : o.lock = none) (hqueue : o.queue = []) :
    Answers (.objEvict t m seq) s fun s' =>
      ((r.tier = o.home ∨ (o.pinsIn r.tier).isEmpty = false) → served s.dev s'.dev r .ok 0 [] ∧
        ∃ o', s'.dev.obj? (r.w32 0) = some o' ∧ (o.stuck = false → o'.copies = o.copies) ∧ o'.needs = o.afterEvict r.tier r.ctx (r.flag 0)) ∧
      (∀ lower dst, o.stuck = true → r.tier = o.home → o.highest < o.home → o.pinsIn o.highest = [] → o.needsIn o.highest = [] → o.dirty = true → engineRoom s.dev →
        o.below o.highest = some lower → s.dev.copyPlace r.ctx lower.tier o.size = some dst →
        ∃ x, tget s'.dev.slu.reqs s.dev.slu.nextReq = some x ∧ x.making = some (idIndex (r.w32 0), lower.tier) ∧ x.stage = some (dst, o.size)) ∧
      (r.tier ≠ o.home → o.pinsIn r.tier = [] → (o.copy r.tier).isSome = true → (∀ p ∈ o.afterEvict r.tier r.ctx (r.flag 0), p.1 ≠ r.tier) →
        ((o.dirty = false ∨ r.tier ≠ o.highest) → served s.dev s'.dev r .ok 0 [] ∧ ∃ o', s'.dev.obj? (r.w32 0) = some o' ∧ o'.copy r.tier = none ∧ o'.needs = o.afterEvict r.tier r.ctx (r.flag 0)) ∧
        (∀ lower dst, o.dirty = true → r.tier = o.highest → engineRoom s.dev → o.below r.tier = some lower → s.dev.copyPlace r.ctx lower.tier o.size = some dst →
          awaits s'.dev m seq ∧ ∃ x, tget s'.dev.slu.reqs s.dev.slu.nextReq = some x ∧ x.making = some (idIndex (r.w32 0), lower.tier) ∧ x.stage = some (dst, o.size))) := by
  obtain ⟨ho, htag⟩ := Dev.obj?_eq_some.mp hobj
  have hforce (hf : r.flag 0 = true) : o.pinsIn r.tier = [] := Dev.pinsIn_of_objEvictCheck hk hobj hf
  refine command_answers (f := fun now d => d.objEvict now m seq) (form := fun _ => true)
    (effect := fun r => ((s.dev.decide' r).requestLock (s.now t) (idIndex (r.w32 0)) (s.dev.evictReq r)).retryStuck (s.now t) (idIndex (r.w32 0)) (s.dev.evictReq r))
    rfl rfl hr rfl hk fun hm hs hreq => ?_
  dsimp only
  rw [Dev.requestLock_evictReq ho hlock hqueue]
  refine ⟨fun hkeep => ?_, fun lower dst hstuck hhome habove hpins hneeds hdirty hroom hlower hdst => ?_, fun hhome hpins hcopy hneeds => ?_⟩
  · obtain ⟨hserved, -, hnow⟩ := Dev.evictFreely_stays hreq hm hs hforce hobj (hkeep.imp_right fun h => by simpa using h) (s.now t)
    obtain ⟨hframe, o', ho', htag', hneeds', -, hsame⟩ := Dev.retryStuck_kept hnow (s.now t) (s.dev.evictReq r)
    exact ⟨hframe.served hserved, o', Dev.obj?_eq_some.mpr ⟨ho', htag'.trans htag⟩, fun h => (congrArg Obj.copies (hsame h)).trans rfl, hneeds'⟩
  · obtain ⟨-, hsame, hnow⟩ := Dev.evictFreely_stays hreq hm hs hforce hobj (.inl hhome) (s.now t)
    rw [← hsame.nextReq]
    refine Dev.retryStuck_writesBack hnow hlock hqueue hstuck ?_ habove hpins ?_ hdirty (hsame.engineRoom hroom) hlower ((hsame.copyPlace ..).trans hdst) (s.now t)
    · exact fun h => Nat.ne_of_lt habove (h.trans hhome)
    · exact Obj.needsIn_eq_nil.mpr fun p hp => Obj.needsIn_eq_nil.mp hneeds p (List.mem_filter.mp hp).1
  · have hrel : o.Releases (s.dev.evictReq r) := ⟨hhome, hpins, hcopy, by rwa [Dev.evictReq_force]⟩
    refine ⟨fun hclean => ?_, fun lower dst hdirty hhighest hroom hlower hdst => ?_⟩
    · obtain ⟨hserved, hnow⟩ := Dev.evictFreely_drops hreq hm hs hrel hclean (s.now t) (idIndex (r.w32 0))
      obtain ⟨hframe, o', ho', htag', hneeds', habsent, -⟩ := Dev.retryStuck_kept hnow (s.now t) (s.dev.evictReq r)
      exact ⟨hframe.served hserved, o', Dev.obj?_eq_some.mpr ⟨ho', htag'.trans htag⟩, habsent _ (tget_tdel ..), hneeds'⟩
    · obtain ⟨hawaits, hnow, hx⟩ := Dev.evictFreely_writesBack hreq hobj hrel hdirty hhighest hroom hlower hdst (s.now t)
      have hidle : ∀ e : Dev, tget e.slu.objs (idIndex (r.w32 0)) = some { o with lock := some s.dev.slu.nextReq } →
          e.retryStuck (s.now t) (idIndex (r.w32 0)) (s.dev.evictReq r) = e := fun e he => by
        unfold Dev.retryStuck
        rw [he]
        exact if_neg fun ⟨_, h, _⟩ => h hhighest.symm
      rw [hidle _ hnow]
      exact ⟨hawaits, hx⟩

/-! ### OBJ_CREATE -/

/-- Bytes put at a place change memory and flash alone. -/
theorem Dev.locPut_flash (d : Dev) (l : Loc) (off n : Nat) (rel : Memory) : ∃ mem flash, d.locPut l off n rel = { d with mem := mem, slu := { d.slu with flash := flash } } := by
  unfold Dev.locPut
  generalize d.pieces l off n = ps
  induction ps generalizing d with
  | nil => exact ⟨d.mem, d.slu.flash, rfl⟩
  | cons p ps ih =>
    rw [List.foldl_cons]
    dsimp only
    split
    · exact ih { d with slu := { d.slu with flash := _ } }
    · exact ih { d with mem := _ }

theorem idIndex_objId {i : Nat} (h : i < 65536) (o : Obj) : idIndex (objId i o) = i := by
  unfold idIndex objId
  omega

theorem Dev.obj?_objId {d : Dev} {i : Nat} {o : Obj} (hi : i < 65536) (ho : tget d.slu.objs i = some o) : d.obj? (objId i o) = some o := by
  refine Dev.obj?_eq_some.mpr ⟨by rwa [idIndex_objId hi], ?_⟩
  unfold objId
  omega

/-- A new object: at a free index, of the kind, size, home and creator given, with its home copy and no pin; requests, the steward and the KV cache stay (R179). -/
structure NewObj (d e : Dev) (kind size home creator i : Nat) (o : Obj) : Prop where
  index : i < 65536
  free : tget d.slu.objs i = none
  objs : e.slu.objs = tset d.slu.objs i o
  kind : o.kind = kind
  size : o.size = size
  home : o.home = home
  creator : o.creator = creator
  copy : (o.copy o.home).isSome = true
  pins : o.pins = []
  reqs : e.slu.reqs = d.slu.reqs
  stew : e.stew = d.stew

theorem Dev.newObj_makes {d e : Dev} {kind size home creator id : Nat} {pool : Bool} (h : d.newObj kind size home creator pool = some (id, e)) :
    ∃ i o, id = objId i o ∧ NewObj d e kind size home creator i o := by
  unfold Dev.newObj at h
  split at h
  · next i a hi _ =>
    obtain ⟨hlt, hfree, -⟩ := lowest_spec hi
    dsimp only at h
    simp only [Option.some.injEq, Prod.mk.injEq] at h
    obtain ⟨hid, he⟩ := h
    obtain ⟨mem, flash, hput⟩ := Dev.locPut_flash (({ d with slu := { d.slu with tags := tset d.slu.tags i ((tget d.slu.tags i).elim 0 fun t => (t + 1) % 65536) } } : Dev).setObj i
      { tag := (tget d.slu.tags i).elim 0 fun t => (t + 1) % 65536, kind := kind, size := size, home := home, creator := creator, pool := pool,
        copies := [(home, ({ tier := home, addr := a } : Loc))] }) { tier := home, addr := a } 0 size []
    rw [hput] at he
    subst he hid
    refine ⟨i, _, rfl, hlt, ?_, rfl, rfl, rfl, rfl, rfl, ?_, rfl, rfl, rfl⟩
    · simpa [thas_eq] using (Bool.and_eq_true_iff.mp hfree).2
    · simp [Obj.copy, tget]
  · cases h

namespace NewObj

variable {d e : Dev} {kind size home creator i : Nat} {o : Obj}

theorem obj? (h : NewObj d e kind size home creator i o) : e.obj? (objId i o) = some o :=
  Dev.obj?_objId h.index (by rw [h.objs, tget_tset])

/-- The index was free, so the id named no object. -/
theorem fresh (h : NewObj d e kind size home creator i o) : d.obj? (objId i o) = none :=
  Dev.obj?_of_free (by rw [idIndex_objId h.index, h.free])

/-- Objects there were before are as they were. -/
theorem kept (h : NewObj d e kind size home creator i o) {id : Nat} {x : Obj} (hx : d.obj? id = some x) : e.obj? id = some x := by
  obtain ⟨ht, htag⟩ := Dev.obj?_eq_some.mp hx
  have hne : idIndex id ≠ i := fun heq => by
    rw [heq, h.free] at ht
    cases ht
  exact Dev.obj?_eq_some.mpr ⟨by rwa [h.objs, tget_tset_ne hne], htag⟩

theorem pinned1 (h : NewObj d e kind size home creator i o) {id : Nat} {x : Obj × Loc} (hx : d.pinned1 id = some x) : e.pinned1 id = some x := by
  unfold Dev.pinned1 at hx ⊢
  split at hx
  · next hobj => rwa [h.kept hobj]
  · cases hx

theorem engineRoom (h : NewObj d e kind size home creator i o) (hroom : engineRoom d) : Machine.engineRoom e := by
  unfold Machine.engineRoom Dev.partsOn at *
  rwa [h.reqs]

end NewObj

/-- The copy of INIT starts where INIT is pinned and an engine has room: the new object is locked by its request (R360). -/
theorem Dev.initCopy_starts {d : Dev} {now id init : Nat} {r : Req} {o : Obj} {x : Obj × Loc} (hinit : d.pinned1 init = some x)
    (hobj : d.obj? id = some o) (hcopy : (o.copy o.home).isSome = true) (hroom : engineRoom d) :
    ∃ e n, d.initCopy now r id init = some e ∧ e.stew = d.stew ∧ e.obj? id = some { o with lock := some n } := by
  obtain ⟨ho, htag⟩ := Dev.obj?_eq_some.mp hobj
  obtain ⟨eng, heng⟩ := Dev.pickEngine_isSome hroom
  obtain ⟨dst, hdst⟩ := Option.isSome_iff_exists.mp hcopy
  unfold Dev.initCopy
  simp only [hinit, hobj, heng, hdst]
  refine ⟨_, d.slu.nextReq, rfl, Dev.modObj_stew .., Dev.obj?_eq_some.mpr ⟨?_, htag⟩⟩
  exact Dev.tget_modObj_self (d := (d.addReq _).2) ho _

theorem objCreate_creates {s : State} {t m seq : Nat} {r : Req} (hr : ready s t m seq 0x0301 r = true) (hf : r.flag 0 = false) (hkind : r.kind4 < 2) (hk : s.dev.objCreateCheck r = none)
    (hroom : r.w32 4 = 0 ∨ engineRoom s.dev) :
    Answers (.objCreate t m seq) s fun s' => ∃ id o, s.dev.obj? id = none ∧ s'.dev.obj? id = some o ∧ o.kind = r.kind4 ∧ o.size = r.w64 8 ∧ o.home = r.fld 0 4 2 ∧ o.creator = r.ctx ∧
      (o.copy o.home).isSome = true ∧ o.pins = [] ∧ (r.w32 4 = 0 → served s.dev s'.dev r .ok id []) ∧ (r.w32 4 ≠ 0 → awaits s'.dev m seq ∧ o.lock.isSome = true) := by
  have hchecks := firstFail_none.mp hk
  have hnew : (s.dev.newObj r.kind4 (r.w64 8) (r.fld 0 4 2) r.ctx false).isSome = true :=
    need_none.mp (hchecks (need (s.dev.newObj r.kind4 (r.w64 8) (r.fld 0 4 2) r.ctx false).isSome .busy 0) (by simp))
  have hpinned (h : r.w32 4 ≠ 0) : (s.dev.pinned1 (r.w32 4)).isSome = true := by
    have h3 := hchecks (if r.w32 4 = 0 then none else s.dev.needPinned (r.w32 4) 4) (by simp)
    rw [if_neg h] at h3
    exact need_none.mp h3
  obtain ⟨⟨id, e⟩, hid⟩ := Option.isSome_iff_exists.mp hnew
  obtain ⟨i, o, rfl, hmade⟩ := Dev.newObj_makes hid
  refine command_answers (f := fun now d => d.objCreate now m seq) (form := fun r => !r.flag 0 && decide (r.kind4 < 2)) rfl rfl hr (by simp [hf, hkind]) hk fun _ _ hreq => ?_
  dsimp only
  rw [hid]
  dsimp only
  split
  · next hzero =>
    refine ⟨_, o, hmade.fresh, ?_, hmade.kind, hmade.size, hmade.home, hmade.creator, hmade.copy, hmade.pins, fun _ => ?_, fun h => absurd hzero h⟩
    · rw [Dev.obj?_of_objs (congrArg SluSt.objs (Dev.finish_slu ..))]
      exact hmade.obj?
    · exact Dev.finish_served (congrArg StewSt.cpls hmade.stew) ..
  · next hinit =>
    obtain ⟨x, hx⟩ := Option.isSome_iff_exists.mp (hpinned hinit)
    obtain ⟨f, n, hstart, hstew, hlocked⟩ := Dev.initCopy_starts (d := e.decide' r) (now := s.now t) (r := r) (hmade.pinned1 hx) hmade.obj? hmade.copy
      (hmade.engineRoom (hroom.resolve_left hinit))
    rw [hstart]
    have hreq' : e.req? m seq = some r := by
      unfold Dev.req? at hreq ⊢
      rwa [hmade.stew]
    exact ⟨_, { o with lock := some n }, hmade.fresh, hlocked, hmade.kind, hmade.size, hmade.home, hmade.creator, hmade.copy, hmade.pins, fun h => absurd h hinit, fun _ =>
      ⟨awaits_of_inflight (congrArg _ hstew) (Dev.decide'_awaits hreq'), rfl⟩⟩

/-- The cell that an OBJ_CREATE of a cell makes (R106, R107). -/
def Req.newCell (r : Req) : Cell :=
  { type := r.fld 0 4 2, broken := false, owner := r.ctx, ceiling := r.fld 0 6 4, count := r.w32 4, target := r.fld 8 0 16,
    hold := r.fld 8 16 16, phase := false, users := [], session := some r.mbx, waiters := [], creator := r.ctx }

/-- A new cell takes a free number (R107). -/
theorem Dev.newCell_makes {d e : Dev} {n : Nat} {x : Cell} (h : d.newCell x = some (n, e)) : tget d.cells n = none ∧ e = d.setCell n x := by
  unfold Dev.newCell at h
  split at h
  · next hn =>
    obtain ⟨-, hfree, -⟩ := lowest_spec hn
    cases h
    exact ⟨by simpa [thas_eq] using hfree, rfl⟩
  · cases h

theorem objCreateCell_creates {s : State} {t m seq : Nat} {r : Req} (hr : ready s t m seq 0x0301 r = true) (hf : r.flag 0 = false) (hkind : r.kind4 = 2)
    (hk : s.dev.objCreateCellCheck r = none) :
    Answers (.objCreateCell t m seq) s fun s' => ∃ n x, tget s.dev.cells n = none ∧ tget s'.dev.cells n = some x ∧ x.type = r.fld 0 4 2 ∧ x.owner = r.ctx ∧ x.ceiling = r.fld 0 6 4 ∧
      x.count = r.w32 4 ∧ x.target = r.fld 8 0 16 ∧ x.hold = r.fld 8 16 16 ∧ x.broken = false ∧ x.waiters = [] ∧ served s.dev s'.dev r .ok n [] ∧ ringKept s.dev s'.dev m := by
  have hnew : (s.dev.newCell r.newCell).isSome = true := need_none.mp (firstFail_none.mp hk (need (s.dev.newCell r.newCell).isSome .busy 0) (by simp [Req.newCell]))
  obtain ⟨⟨n, e⟩, hn⟩ := Option.isSome_iff_exists.mp hnew
  obtain ⟨hfree, rfl⟩ := Dev.newCell_makes hn
  refine command_answers (f := fun now d => d.objCreateCell now m seq) (form := fun r => !r.flag 0 && r.kind4 == 2)
    (effect := fun r => match s.dev.newCell r.newCell with
      | some (n, d1) => d1.finish (s.now t) r .ok n []
      | none => s.dev) rfl rfl hr (by simp [hf, hkind]) hk fun hm _ _ => ?_
  dsimp only
  rw [hn]
  dsimp only
  obtain ⟨hserved, hring⟩ := Quiet.finish (old := s.dev) (d := s.dev.setCell n r.newCell) ⟨rfl, rfl, .of_regs rfl⟩ (s.now t) r .ok n (b := []) (by simp)
  refine ⟨n, r.newCell, hfree, ?_, rfl, rfl, rfl, rfl, rfl, rfl, rfl, rfl, hserved, hm ▸ hring⟩
  rw [Dev.finish_cells]
  exact tget_tset ..

/-- The two objects of a new KV pool stand, and the pool names them (R221). -/
theorem Dev.newPool_makes {d e : Dev} {ctx frame n1 n2 a b : Nat} (h : d.newPool ctx frame n1 n2 = some (a, b, e)) :
    e.stew = d.stew ∧ (e.obj? a).isSome = true ∧ (e.obj? b).isSome = true ∧
      ∃ p, e.kv.pool = some p ∧ p.t1 = a ∧ p.t2 = b ∧ p.frameBytes = frame ∧ p.t1Frames = n1 ∧ p.t2Frames = n2 := by
  unfold Dev.newPool at h
  split at h
  · cases h
  · next a' d1 h1 =>
    split at h
    · cases h
    · next b' d2 h2 =>
      cases h
      obtain ⟨i, o, rfl, hfirst⟩ := Dev.newObj_makes h1
      obtain ⟨j, o', rfl, hsecond⟩ := Dev.newObj_makes h2
      exact ⟨hsecond.stew.trans hfirst.stew, Option.isSome_iff_exists.mpr ⟨_, hsecond.kept hfirst.obj?⟩, Option.isSome_iff_exists.mpr ⟨_, hsecond.obj?⟩, _, rfl, rfl, rfl, rfl, rfl, rfl⟩

theorem objCreateKvPool_creates {s : State} {t m seq : Nat} {r : Req} (hr : ready s t m seq 0x0301 r = true) (hf : r.flag 0 = false) (hkind : r.kind4 = 3)
    (hk : s.dev.objCreateKvPoolCheck r = none) :
    Answers (.objCreateKvPool t m seq) s fun s' => ∃ p, s'.dev.kv.pool = some p ∧ p.frameBytes = r.w32 4 ∧ p.t1Frames = r.w32 8 ∧ p.t2Frames = r.w32 12 ∧
      (s'.dev.obj? p.t1).isSome = true ∧ (s'.dev.obj? p.t2).isSome = true ∧ served s.dev s'.dev r .ok p.t1 (leBytes 4 p.t2 ++ leBytes 4 0) := by
  have hnew : (s.dev.newPool r.ctx (r.w32 4) (r.w32 8) (r.w32 12)).isSome = true :=
    (Bool.and_eq_true_iff.mp (need_none.mp (firstFail_none.mp hk (need (s.dev.kv.pool.isNone && (s.dev.newPool r.ctx (r.w32 4) (r.w32 8) (r.w32 12)).isSome) .busy 0) (by simp)))).2
  obtain ⟨⟨a, b, e⟩, hpool⟩ := Option.isSome_iff_exists.mp hnew
  obtain ⟨hstew, ha, hb, p, hp, rfl, rfl, hframe, h1, h2⟩ := Dev.newPool_makes hpool
  refine command_answers (f := fun now d => d.objCreateKvPool now m seq) (form := fun r => !r.flag 0 && r.kind4 == 3) rfl rfl hr (by simp [hf, hkind]) hk fun _ _ _ => ?_
  dsimp only
  rw [hpool]
  dsimp only
  have hobj (id : Nat) : (e.syncKv.finish (s.now t) r .ok p.t1 (leBytes 4 p.t2 ++ leBytes 4 0)).obj? id = e.obj? id :=
    Dev.obj?_of_objs (congrArg SluSt.objs (Dev.finish_slu e.syncKv (s.now t) r .ok p.t1 _)) id
  refine ⟨p, ?_, hframe, h1, h2, by rwa [hobj], by rwa [hobj], Dev.finish_served (d := e.syncKv) (congrArg StewSt.cpls hstew) ..⟩
  rw [Dev.finish_kv]
  exact hp

/-- Settles O46: each command by what it does to its object, cell or pool, and the eviction by the three courses a release takes. -/
theorem objectCommands : Obligations.ObjectCommands := by
  unfold Obligations.ObjectCommands
  exact ⟨fun _ _ _ _ _ => objCreate_creates, fun _ _ _ _ _ => objCreateCell_creates, fun _ _ _ _ _ => objCreateKvPool_creates, fun _ _ _ _ _ => objDelete_deletes,
    fun _ _ _ _ _ _ _ => objPlaceOrPin_records, fun _ _ _ _ _ => objPinRelease_releases, fun _ _ _ _ _ _ => objEvict_evicts⟩

end Sys2Proof.Machine

/-! ## What sending over the Canal link leaves -/

namespace Sys2Proof.Machine

/-- Between two devices the Canal link's ports alone differ (R401, R403). -/
structure PortsOnly (d e : Dev) : Prop where
  eq : e = { d with cnl := { d.cnl with ports := e.cnl.ports } }

namespace PortsOnly

variable {d e f : Dev}

theorem refl (d : Dev) : PortsOnly d d := ⟨rfl⟩

theorem trans (a : PortsOnly d e) (b : PortsOnly e f) : PortsOnly d f := by
  refine ⟨b.eq.trans ?_⟩
  rw [a.eq]

theorem modCnl (p : Nat) (g : CnlPort → CnlPort) : PortsOnly d (d.modCnl p g) := ⟨rfl⟩

theorem foldl {α : Type} {g : Dev → α → Dev} (h : ∀ d a, PortsOnly d (g d a)) (l : List α) (d : Dev) : PortsOnly d (l.foldl g d) :=
  List.foldlRecOn l g (motive := PortsOnly d) (refl d) fun _ hd a _ => hd.trans (h _ a)

theorem cnlPump (now p : Nat) : PortsOnly d (d.cnlPump now p) := by
  unfold Dev.cnlPump
  split
  · exact refl d
  · exact modCnl ..

theorem cnlOn (now p : Nat) (x : CnlFlit) : PortsOnly d (d.cnlOn now p x) := (modCnl ..).trans (cnlPump ..)

theorem cnlSend (now type dst vc : Nat) (body : List Nat) (payload : List Byte) : PortsOnly d (d.cnlSend now type dst vc body payload) := by
  unfold Dev.cnlSend
  split
  · exact cnlOn ..
  · exact refl d

theorem cnlReturn (now p vc : Nat) : PortsOnly d (d.cnlReturn now p vc) := cnlOn ..

theorem mem (h : PortsOnly d e) : e.mem = d.mem := (congrArg Dev.mem h.eq :)
theorem regs (h : PortsOnly d e) : e.regs = d.regs := (congrArg Dev.regs h.eq :)
theorem parts (h : PortsOnly d e) : e.cnl.parts = d.cnl.parts := (congrArg (fun x : Dev => x.cnl.parts) h.eq :)
theorem outcomes (h : PortsOnly d e) : e.cnl.outcomes = d.cnl.outcomes := (congrArg (fun x : Dev => x.cnl.outcomes) h.eq :)

end PortsOnly

/-- What the fabric hands to the link leaves memory as it is. -/
theorem Dev.cnlDrain_mem (d : Dev) (now : Nat) : (d.cnlDrain now).mem = d.mem := by
  unfold Dev.cnlDrain
  extract_lets rs cs cls fab d0 d1
  have h1 : PortsOnly d0 d1 := .foldl (fun _ _ => .cnlSend ..) rs d0
  exact (PortsOnly.foldl (fun _ _ => .cnlSend ..) cs.1 d1).mem.trans h1.mem

end Sys2Proof.Machine

/-! ## O31: flits and credits -/

namespace Sys2Proof.Machine

/-! ### Charges leave the mesh -/

/-- The flits on their way, to basins here and to other modules, are as before (R132, R134). -/
structure MeshKept (d e : Dev) : Prop where
  flits : e.fab.flits = d.fab.flits
  remote : e.fab.remote = d.fab.remote

namespace MeshKept

variable {d e f : Dev}

theorem refl (d : Dev) : MeshKept d d := ⟨rfl, rfl⟩

theorem trans (a : MeshKept d e) (b : MeshKept e f) : MeshKept d f := ⟨b.flits.trans a.flits, b.remote.trans a.remote⟩

theorem of_fab (h : e.fab = d.fab) : MeshKept d e := ⟨by rw [h], by rw [h]⟩

theorem ite {c : Prop} [Decidable c] {e e' : Dev} (h : MeshKept d e) (h' : MeshKept d e') : MeshKept d (if c then e else e') := by
  split <;> assumption

theorem foldl {α : Type} {g : Dev → α → Dev} (h : ∀ d a, MeshKept d (g d a)) (l : List α) (d : Dev) : MeshKept d (l.foldl g d) :=
  List.foldlRecOn l g (motive := MeshKept d) (refl d) fun _ hd a _ => hd.trans (h _ a)

theorem gate (now c k : Nat) : MeshKept d (d.gate now c k) := ⟨rfl, rfl⟩

theorem wn (r : Reg) (n : Nat) : MeshKept d (d.wn r n) := ⟨rfl, rfl⟩

theorem addUsed (c k n : Nat) : MeshKept d (d.addUsed c k n) := ⟨rfl, rfl⟩

theorem overrunClass (c : Nat) : MeshKept d (d.overrunClass c) := by
  refine of_fab ?_
  unfold Dev.overrunClass
  rw [Dev.raise_fab]
  dsimp only
  split <;> rfl

theorem donorExhausted (now dn k : Nat) : MeshKept d (d.donorExhausted now dn k) :=
  ((overrunClass dn).trans (gate ..)).trans (foldl (fun d _ => ite (gate ..) (refl d)) _ _)

theorem drawDonor (now c k rest : Nat) : MeshKept d (d.drawDonor now c k rest) := by
  unfold Dev.drawDonor
  extract_lets dn r fresh mine others given left next d0 d1 d2
  have h0 : MeshKept d d0 := foldl (fun _ _ => wn ..) _ d
  have h1 : MeshKept d0 d1 := ⟨rfl, rfl⟩
  have h2 : MeshKept d1 d2 := by
    refine foldl (fun d x => ?_) _ d1
    exact (addUsed ..).trans (ite (ite (refl _) ⟨rfl, rfl⟩) ⟨rfl, rfl⟩)
  exact ((h0.trans h1).trans h2).trans ⟨rfl, rfl⟩

theorem chargeNow (now c k n : Nat) : MeshKept d (d.chargeNow now c k n) := by
  unfold Dev.chargeNow
  extract_lets was
  split
  · exact (addUsed c k n).trans (ite (overrunClass ..) (refl _))
  · split
    · next own rest d1 dOver d2 dn dnWas d3 _ _ =>
      have h2 : MeshKept d d2 := (addUsed ..).trans (ite ((overrunClass c).trans (ite (gate ..) (refl _))) (refl d1))
      have h3 : MeshKept d2 d3 := drawDonor ..
      exact ite h2 ((h2.trans h3).trans (ite (donorExhausted ..) (refl _)))
    · exact (addUsed c k n).trans (ite (donorExhausted ..) (refl _))

/-- Injection slots are charged without touching a flit (R83). -/
theorem charge (now c k n : Nat) : MeshKept d (d.charge now c k n) := by
  unfold Dev.charge
  exact ite ⟨rfl, rfl⟩ (chargeNow ..)

theorem modRunning (l i : Nat) (g : Running → Running) : MeshKept d (d.modRunning l i g) := by
  unfold Dev.modRunning
  split
  · exact ⟨rfl, rfl⟩
  · exact refl d

theorem modEntry (now l e : Nat) (g : SbEntry → SbEntry) : MeshKept d (d.modEntry now l e g) := by
  unfold Dev.modEntry
  split
  · exact ⟨rfl, rfl⟩
  · exact refl d

end MeshKept

/-! ### Stages at work -/

theorem Dev.atWork_eq_some {d : Dev} {l i kind : Nat} {b : Basin} {r : Running} {w : Nat} :
    d.atWork l i kind = some (b, r, w) ↔ d.basin? l = some b ∧ tget b.running i = some r ∧ w = b.stages.getD i 0 ∧ stKind w = kind ∧ r.worked = false := by
  unfold Dev.atWork
  constructor
  · intro h
    split at h
    · next b' hb =>
      split at h
      · next r' hr =>
        split at h
        · next hk =>
          cases h
          exact ⟨hb, hr, rfl, hk⟩
        · cases h
      · cases h
    · cases h
  · rintro ⟨hb, hr, rfl, hk⟩
    simp only [hb, hr]
    exact if_pos hk

theorem Dev.modRunning_eq {d : Dev} {l : Nat} {b : Basin} (hb : d.basin? l = some b) (i : Nat) (f : Running → Running) :
    d.modRunning l i f = d.setBasin l { b with running := tmod b.running i f } := by
  unfold Dev.modRunning
  rw [hb]

theorem tget_tmod_of_tget {α : Type} {t : Tbl α} {k : Nat} {v : α} (h : tget t k = some v) (f : α → α) : tget (tmod t k f) k = some (f v) := by
  rw [tget_tmod, if_pos rfl, h]
  rfl

/-! ### FORWARD -/

/-- The device once the next flit of a FORWARD is on the mesh, or waits for the link (R132, R134, R139). -/
def Dev.flitOut (d : Dev) (now l : Nat) (b : Basin) (r : Running) (w : Nat) : Dev :=
  let data := d.mem.read (d.slotAddr l (b.entry (stInA w)) r.slotA + 256 * r.sent) (min 256 (d.slotBytes w r - 256 * r.sent))
  let k := d.draw (0x1000 + b.ctx) now
  let mk (dst : Nat) : Flit := ⟨l, dst, (b.entry (stOut w)).peerEntry, stOut w, r.sent, data, decide (r.sent + 1 = d.slotFlits w r), 1, k.1⟩
  if stRemote w then { k.2 with fab := { k.2.fab with remote := k.2.fab.remote ++ [(stModule w, mk (remoteDst w))] } }
  else { k.2 with fab := { k.2.fab with flits := k.2.fab.flits ++ (d.targets b.ctx w).map mk } }

/-- The device once the stage has counted its flit: with the last one it has worked and its outbound entry gives a credit (R124). -/
def Dev.flitCounted (d : Dev) (now l i e : Nat) (last : Bool) : Dev :=
  let d1 := d.modRunning l i fun r => { r with sent := r.sent + 1, worked := last }
  if last then d1.modEntry now l e fun x => { x with credits := x.credits - 1 } else d1

theorem Dev.injectFlit_eq {d : Dev} {l i : Nat} {b : Basin} {r : Running} {w : Nat} (hwork : d.atWork l i 7 = some (b, r, w)) (hopen : d.gated (d.payer b.ctx) 6 = false) (now : Nat) :
    d.injectFlit now l i = ((d.flitOut now l b r w).charge now ((d.flitOut now l b r w).payer b.ctx) 6 1).flitCounted now l i (stOut w) (decide (r.sent + 1 = d.slotFlits w r)) := by
  unfold Dev.injectFlit
  simp only [hwork]
  rw [if_neg (by simp [hopen])]
  rfl

theorem Dev.flitOut_basins (d : Dev) (now l : Nat) (b : Basin) (r : Running) (w : Nat) : (d.flitOut now l b r w).fab.basins = d.fab.basins := by
  unfold Dev.flitOut
  dsimp only
  split <;> rfl

theorem Dev.flitOut_mem (d : Dev) (now l : Nat) (b : Basin) (r : Running) (w : Nat) : (d.flitOut now l b r w).mem = d.mem := by
  unfold Dev.flitOut
  dsimp only
  split <;> rfl

theorem Dev.flitCounted_mesh (d : Dev) (now l i e : Nat) (last : Bool) : MeshKept d (d.flitCounted now l i e last) :=
  (MeshKept.modRunning ..).trans (.ite (.modEntry ..) (.refl _))

theorem Dev.modEntry_mem (d : Dev) (now l e : Nat) (f : SbEntry → SbEntry) : (d.modEntry now l e f).mem = d.mem := by
  obtain ⟨fab, h⟩ := d.modEntry_eq now l e f
  rw [h]

theorem Dev.modRunning_mem (d : Dev) (l i : Nat) (f : Running → Running) : (d.modRunning l i f).mem = d.mem := by
  unfold Dev.modRunning
  split <;> rfl

theorem Dev.flitCounted_mem (d : Dev) (now l i e : Nat) (last : Bool) : (d.flitCounted now l i e last).mem = d.mem := by
  unfold Dev.flitCounted
  dsimp only
  split
  · exact (Dev.modEntry_mem ..).trans (Dev.modRunning_mem ..)
  · exact Dev.modRunning_mem ..

theorem Dev.flitCounted_basin {d : Dev} {l i : Nat} {b : Basin} {r : Running} (hb : d.basin? l = some b) (hr : tget b.running i = some r) (now e : Nat) (last : Bool) :
    ∃ b', (d.flitCounted now l i e last).basin? l = some b' ∧ tget b'.running i = some { r with sent := r.sent + 1, worked := last } ∧
      (last = true → (b'.entry e).credits = (b.entry e).credits - 1) := by
  have hrun := Dev.basin?_setBasin d l { b with running := tmod b.running i fun r => { r with sent := r.sent + 1, worked := last } }
  have hsent := tget_tmod_of_tget hr fun r => { r with sent := r.sent + 1, worked := last }
  unfold Dev.flitCounted
  rw [Dev.modRunning_eq hb]
  dsimp only
  cases last with
  | true =>
    rw [if_pos rfl]
    refine ⟨_, (Dev.modEntry_step hrun ..).basin, hsent, fun _ => ?_⟩
    rw [Basin.entry_setEntry]
    rfl
  | false => exact ⟨_, hrun, hsent, nofun⟩

theorem forward_injects {s : State} {t l st : Nat} {b : Basin} {r : Running} {w : Nat} (hwork : s.dev.atWork l st 7 = some (b, r, w)) (hopen : s.dev.gated (s.dev.payer b.ctx) 6 = false) :
    let data := s.dev.mem.read (s.dev.slotAddr l (b.entry (stInA w)) r.slotA + 256 * r.sent) (min 256 (s.dev.slotBytes w r - 256 * r.sent))
    let last := decide (r.sent + 1 = s.dev.slotFlits w r)
    Answers (.forward t l st 1) s fun s' => ∃ (d1 : Dev) (k : Key), s'.dev = d1.cnlDrain (s.now t) ∧ k.dt = s.now t ∧
      (stRemote w = false → d1.fab.flits = s.dev.fab.flits ++ (s.dev.targets b.ctx w).map fun dst => ⟨l, dst, (b.entry (stOut w)).peerEntry, stOut w, r.sent, data, last, 1, k⟩) ∧
      (stRemote w = true → d1.fab.flits = s.dev.fab.flits ∧
        d1.fab.remote = s.dev.fab.remote ++ [(stModule w, ⟨l, remoteDst w, (b.entry (stOut w)).peerEntry, stOut w, r.sent, data, last, 1, k⟩)]) ∧
      (∃ b', d1.basin? l = some b' ∧ tget b'.running st = some { r with sent := r.sent + 1, worked := last } ∧
        (last = true → (b'.entry (stOut w)).credits = (b.entry (stOut w)).credits - 1)) ∧ s'.dev.mem = s.dev.mem := by
  intro data last
  obtain ⟨hb, hr, -, -, -⟩ := Dev.atWork_eq_some.mp hwork
  let out := s.dev.flitOut (s.now t) l b r w
  let paid := out.charge (s.now t) (out.payer b.ctx) 6 1
  have hpaid : Paid out paid := out.charge_paid ..
  have hmesh : MeshKept out (paid.flitCounted (s.now t) l st (stOut w) last) := (MeshKept.charge ..).trans (paid.flitCounted_mesh ..)
  have hb1 : paid.basin? l = some b := by
    unfold Dev.basin?
    rw [hpaid.basins, Dev.flitOut_basins]
    exact hb
  refine ⟨_, rfl, s.dev.injectFlit (s.now t) l st, (s.dev.draw (0x1000 + b.ctx) (s.now t)).1, rfl, rfl, ?_⟩
  rw [Dev.injectFlit_eq hwork hopen]
  refine ⟨fun hlocal => hmesh.flits.trans ?_, fun hremote => ⟨hmesh.flits.trans ?_, hmesh.remote.trans ?_⟩, Dev.flitCounted_basin hb1 hr .., ?_⟩
  · unfold out Dev.flitOut
    rw [hlocal]
    rfl
  · unfold out Dev.flitOut
    rw [hremote]
    rfl
  · unfold out Dev.flitOut
    rw [hremote]
    rfl
  · refine (Dev.cnlDrain_mem ..).trans ?_
    show (s.dev.injectFlit (s.now t) l st).mem = s.dev.mem
    rw [Dev.injectFlit_eq hwork hopen, Dev.flitCounted_mem, hpaid.mem, Dev.flitOut_mem]

/-! ### FLIT_DELIVER -/

/-- A flit with a free slot to fill is written there, and with the last one the slot becomes ready (R124, R132). -/
theorem Dev.landFlit_eq {d : Dev} {f : Flit} {b : Basin} {slot : Nat} {rest : List Nat} (now : Nat) (hb : d.basin? f.dst = some b) (hfree : (b.entry f.entry).freeQ = slot :: rest) :
    d.landFlit now f = (let d1 : Dev := { d with mem := d.mem.write (d.slotAddr f.dst (b.entry f.entry) slot + 256 * f.index) (f.data.take ((b.entry f.entry).size - 256 * f.index)) }
      if f.last then d1.modEntry now f.dst f.entry fun e => ({ e with freeQ := rest } : SbEntry).post slot now else d1) := by
  unfold Dev.landFlit
  simp only [hb, hfree]

/-- What a landed flit writes, and the slot that its last one makes ready (R124, R132). -/
structure Landed (d e : Dev) (now : Nat) (f : Flit) (b : Basin) (slot : Nat) (rest : List Nat) : Prop where
  flits : e.fab.flits = d.fab.flits
  ready : f.last = true → ∃ b', e.basin? f.dst = some b' ∧ (b'.entry f.entry).readyQ = (b.entry f.entry).readyQ ++ [(slot, now)] ∧ (b'.entry f.entry).freeQ = rest
  mem : e.mem = d.mem.write (d.slotAddr f.dst (b.entry f.entry) slot + 256 * f.index) (f.data.take ((b.entry f.entry).size - 256 * f.index))

theorem Dev.landFlit_lands {d : Dev} {f : Flit} {b : Basin} {slot : Nat} {rest : List Nat} (now : Nat) (hb : d.basin? f.dst = some b) (hfree : (b.entry f.entry).freeQ = slot :: rest) :
    Landed d (d.landFlit now f) now f b slot rest := by
  rw [Dev.landFlit_eq now hb hfree]
  extract_lets d1
  have hb1 : d1.basin? f.dst = some b := hb
  cases hlast : f.last with
  | true =>
    rw [if_pos rfl]
    refine ⟨(MeshKept.modEntry ..).flits, fun _ => ⟨_, (Dev.modEntry_step hb1 ..).basin, ?_⟩, Dev.modEntry_mem ..⟩
    rw [Basin.entry_setEntry]
    exact ⟨rfl, rfl⟩
  | false => exact ⟨rfl, fun h => absurd (hlast.symm.trans h) (by decide), rfl⟩

theorem flitDeliver_lands {s : State} {t src dst entry : Nat} {f : Flit} {b : Basin} {slot : Nat} {rest : List Nat}
    (hf : s.dev.fab.flits.find? (fun f => f.src == src && f.dst == dst) = some f) (hentry : f.entry = entry) (hb : s.dev.basin? dst = some b)
    (hfree : (b.entry entry).freeQ = slot :: rest) :
    Answers (.flitDeliver t src dst entry) s fun s' => ∃ d1 : Dev, s'.dev = d1.settleEnds (s.now t) ∧ d1.fab.flits = s.dev.fab.flits.erase f ∧
      (f.last = true → ∃ b', d1.basin? dst = some b' ∧ (b'.entry entry).readyQ = (b.entry entry).readyQ ++ [(slot, s.now t)] ∧ (b'.entry entry).freeQ = rest) ∧
      (let at_ := s.dev.slotAddr dst (b.entry entry) slot + 256 * f.index
       let bytes := f.data.take ((b.entry entry).size - 256 * f.index)
       d1.mem.read at_ bytes.length = bytes ∧ ∀ a, (a < at_ ∨ at_ + bytes.length ≤ a) → d1.mem.get a = s.dev.mem.get a) := by
  obtain ⟨-, rfl⟩ : f.src = src ∧ f.dst = dst := by simpa using List.find?_some hf
  subst hentry
  have hland := Dev.landFlit_lands (d := { s.dev with fab := { s.dev.fab with flits := s.dev.fab.flits.erase f } }) (s.now t) hb hfree
  refine ⟨_, rfl, Dev.landFlit { s.dev with fab := { s.dev.fab with flits := s.dev.fab.flits.erase f } } (s.now t) f, ?_, hland.flits, hland.ready, ?_⟩
  · simp only [hf]
    exact if_pos trivial
  · intro at_ bytes
    rw [hland.mem]
    exact ⟨Memory.read_write, fun _ ha => Memory.get_write_outside ha⟩

theorem flitDeliver_elsewhere {s : State} {t src dst entry : Nat} {f : Flit} (hf : s.dev.fab.flits.find? (fun f => f.src == src && f.dst == dst) = some f) (hentry : f.entry ≠ entry) :
    exec (.flitDeliver t src dst entry) s = .next { s with dt := s.now t } := by
  show execFlitDeliver t src dst entry s = _
  unfold execFlitDeliver
  rw [State.run_eq]
  simp only [hf]
  rw [if_neg hentry]

/-! ### CREDIT_RETURN -/

/-- An outbound entry has one more credit, by a change of the fabric alone that leaves these credits to come (R124, R134). -/
structure Credited (d e : Dev) (l entry : Nat) (b : Basin) (left : List CreditBack) : Prop where
  eq : e = { d with fab := e.fab }
  credits : e.fab.credits = left
  entry : ∃ b', e.basin? l = some b' ∧ (b'.entry entry).credits = (b.entry entry).credits + 1

theorem Dev.modEntry_credited {d : Dev} {l : Nat} {b : Basin} (hb : d.basin? l = some b) (now e : Nat) (left : List CreditBack) :
    Credited d (({ d with fab := { d.fab with credits := left } } : Dev).modEntry now l e fun x => { x with credits := x.credits + 1 }) l e b left := by
  have hb1 : ({ d with fab := { d.fab with credits := left } } : Dev).basin? l = some b := hb
  have hstep := Dev.modEntry_step hb1 now e fun x => { x with credits := x.credits + 1 }
  refine ⟨?_, ?_, _, hstep.basin, ?_⟩
  · obtain ⟨fab, h⟩ := Dev.modEntry_eq { d with fab := { d.fab with credits := left } } now l e fun x => { x with credits := x.credits + 1 }
    rw [h]
  · unfold Dev.modEntry
    rw [hb1]
    rfl
  · rw [Basin.entry_setEntry]

theorem creditReturn_joins {s : State} {t l e : Nat} {b : Basin} (hb : s.dev.basin? l = some b) (hlocal : s.dev.remoteBack l e = none) (hsome : s.dev.consumers l e ≠ [])
    (hall : ∀ c ∈ s.dev.consumers l e, (⟨l, e, c⟩ : CreditBack) ∈ s.dev.fab.credits) :
    Answers (.creditReturn t l e) s fun s' => ∃ d1 : Dev, s'.dev = d1.settleEnds (s.now t) ∧ d1 = { s.dev with fab := d1.fab } ∧
      ∃ b', d1.basin? l = some b' ∧ (b'.entry e).credits = (b.entry e).credits + 1 := by
  have hfreed : s.dev.consumers l e ≠ [] ∧ ((s.dev.consumers l e).all fun c => s.dev.fab.credits.any fun k => k == ⟨l, e, c⟩) = true := by
    refine ⟨hsome, List.all_eq_true.mpr fun c hc => List.any_eq_true.mpr ⟨_, hall c hc, beq_self_eq_true _⟩⟩
  have hback : Credited s.dev (s.dev.creditReturn (s.now t) l e) l e b ((s.dev.consumers l e).foldl (fun (ks : List CreditBack) c => ks.erase ⟨l, e, c⟩) s.dev.fab.credits) := by
    unfold Dev.creditReturn
    simp only [hlocal]
    rw [if_pos hfreed]
    exact Dev.modEntry_credited hb ..
  exact ⟨_, rfl, _, rfl, hback.eq, hback.entry⟩

theorem creditReturn_remote {s : State} {t l e : Nat} {b : Basin} {k : CreditBack} (hb : s.dev.basin? l = some b) (hk : s.dev.remoteBack l e = some k) :
    Answers (.creditReturn t l e) s fun s' => ∃ d1 : Dev, s'.dev = d1.settleEnds (s.now t) ∧ d1 = { s.dev with fab := d1.fab } ∧ d1.fab.credits = s.dev.fab.credits.erase k ∧
      ∃ b', d1.basin? l = some b' ∧ (b'.entry e).credits = (b.entry e).credits + 1 := by
  have hback : Credited s.dev (s.dev.creditReturn (s.now t) l e) l e b (s.dev.fab.credits.erase k) := by
    unfold Dev.creditReturn
    simp only [hk]
    exact Dev.modEntry_credited hb ..
  exact ⟨_, rfl, _, rfl, hback.eq, hback.credits, hback.entry⟩

/-- Settles O31: a clause each for FORWARD, a delivered flit, one bound for another entry, and credits of this and of another module. -/
theorem flitsAndCredits : Obligations.FlitsAndCredits := by
  unfold Obligations.FlitsAndCredits
  exact ⟨fun _ _ _ _ _ _ _ => forward_injects, fun _ _ _ _ _ _ _ _ _ => flitDeliver_lands, fun _ _ _ _ _ _ => flitDeliver_elsewhere, fun _ _ _ _ _ => creditReturn_joins,
    fun _ _ _ _ _ _ => creditReturn_remote⟩

end Sys2Proof.Machine

/-! ## O27: the dispatch of a stage -/

namespace Sys2Proof.Machine

/-- The lowest number that passes a test is the one found. -/
theorem lowest_of_least {n i : Nat} {p : Nat → Bool} (hi : i < n) (hp : p i = true) (hleast : ∀ j, j < i → p j = false) : lowest n p = some i := by
  cases h : lowest n p with
  | none => exact absurd (hp.symm.trans (lowest_none h i hi)) (by decide)
  | some k =>
    obtain ⟨-, hk, hbelow⟩ := lowest_spec h
    rcases Nat.lt_trichotomy k i with hlt | rfl | hlt
    · exact absurd (hk.symm.trans (hleast k hlt)) (by decide)
    · rfl
    · exact absurd (hp.symm.trans (hbelow i hlt)) (by decide)

theorem lowest_of_all {n : Nat} {p : Nat → Bool} (h : ∀ j, p j = false) : lowest n p = none := by
  cases hk : lowest n p with
  | none => rfl
  | some k => exact absurd ((h k).symm.trans (lowest_spec hk).2.1) (by decide)

/-! ### What a dispatch changes -/

/-- The weirs' states are kept in registers. -/
theorem Dev.syncWeirs_eq (d : Dev) : d.syncWeirs = { d with regs := d.syncWeirs.regs } := by
  unfold Dev.syncWeirs
  refine List.foldlRecOn (motive := fun e : Dev => e = { d with regs := e.regs }) _ _ rfl fun e he r _ => ?_
  rw [he]
  rfl

theorem Dev.syncWeirs_keeps (d : Dev) : KeepsRegs (· != .pbuWeirStat) d d.syncWeirs := by
  unfold Dev.syncWeirs
  exact .foldl (fun d _ => (KeepsRegs.sf _ _ rfl).trans (.sf _ _ rfl)) _ d

theorem Dev.traceDispatch_eq (d : Dev) (now l i : Nat) (b : Basin) (w : Nat) : d.traceDispatch now l i b w = { d with fab := (d.traceDispatch now l i b w).fab } := by
  unfold Dev.traceDispatch
  split <;> rfl

/-- A stage of a basin runs from now on: the trace, the basin with its slots taken, the context's last change, DISPATCHED (R100, R124, R128, R460). -/
def Dev.dispatched (d : Dev) (now l i : Nat) (b b1 : Basin) (r : Running) : Dev :=
  let d1 := (d.traceDispatch now l i b (b.stages.getD i 0)).setBasin l { b1 with running := tset b1.running i r }
  let d2 := { d1 with fab := { d1.fab with ctxs := tmod d1.fab.ctxs b.ctx fun c => { c with lastChange := now } } }
  (d2.wn (r1 .pbuWeirDispatched (l / 64)) ((d2.rn (r1 .pbuWeirDispatched (l / 64)) + 1) % 2 ^ 64)).syncWeirs

theorem Dev.dispatched_eq (d : Dev) (now l i : Nat) (b b1 : Basin) (r : Running) :
    d.dispatched now l i b b1 r = { d with fab := (d.dispatched now l i b b1 r).fab, regs := (d.dispatched now l i b b1 r).regs } := by
  unfold Dev.dispatched
  rw [Dev.syncWeirs_eq, Dev.traceDispatch_eq]
  rfl

theorem Dev.dispatched_basin (d : Dev) (now l i : Nat) (b b1 : Basin) (r : Running) : (d.dispatched now l i b b1 r).basin? l = some { b1 with running := tset b1.running i r } := by
  unfold Dev.dispatched Dev.basin?
  rw [Dev.syncWeirs_fab]
  exact Dev.basin?_setBasin ..

theorem Dev.dispatched_counts (d : Dev) (now l i : Nat) (b b1 : Basin) (r : Running) :
    (d.dispatched now l i b b1 r).rn (r1 .pbuWeirDispatched (l / 64)) = (d.rn (r1 .pbuWeirDispatched (l / 64)) + 1) % 2 ^ 64 := by
  unfold Dev.dispatched
  rw [Dev.traceDispatch_eq, Dev.rn_of_rd ((Dev.syncWeirs_keeps _).rd _ rfl), Dev.rn_wn, Nat.mod_mod]
  rfl

/-! ### The dispatch -/

/-- The slots a dispatch takes: one of the parameters where the stage names them; the basin stays of its context and chain (R122, R124). -/
structure SlotsTaken (b b1 : Basin) (w : Nat) (param : Option Nat) : Prop where
  param : param.isSome = true ↔ stParam w ≠ 63
  ctx : b1.ctx = b.ctx
  stages : b1.stages = b.stages

/-- A dispatch takes slots; then the stage runs, or its context is torn down where the dimensions of its parameter slot do not fit (R122, R128). -/
theorem Dev.startStage_cases (d : Dev) (now l i : Nat) (b : Basin) :
    ∃ (param : Option Nat) (b1 : Basin) (r : Running), SlotsTaken b b1 (b.stages.getD i 0) param ∧ (r.worked = false ∧ r.sent = 0 ∧ r.at_ = now) ∧
      d.startStage now l i b =
        if param.isSome && !(d.dimsFit (b.stages.getD i 0) b (d.dimsFor l (b.stages.getD i 0) b param) (d.winOf l i)) then d.teardown now b.ctx .illegalConfig
        else d.dispatched now l i b b1 r := by
  unfold Dev.startStage
  extract_lets w a b1 q2 p2 q3 p3 m o b4 r d1 fab d2
  have hb2 : p2.2.ctx = b.ctx ∧ p2.2.stages = b.stages ∧ (stInB w ≠ 63 → p2.1.isSome = true) := by
    unfold p2
    split_ifs with h63
    · exact ⟨rfl, rfl, fun h => absurd h63 h⟩
    · exact ⟨rfl, rfl, fun _ => rfl⟩
    · exact ⟨rfl, rfl, fun _ => rfl⟩
  obtain ⟨hctx2, hstages2, hslotB⟩ := hb2
  have hb3 : p3.2.ctx = b.ctx ∧ p3.2.stages = b.stages ∧ (p3.1.isSome = true ↔ stParam w ≠ 63) := by
    unfold p3
    split_ifs with h63 hA hB
    · exact ⟨hctx2, hstages2, by simp [h63]⟩
    · exact ⟨hctx2, hstages2, by simp [h63]⟩
    · exact ⟨hctx2, hstages2, iff_of_true (hslotB (hB ▸ h63)) h63⟩
    · exact ⟨hctx2, hstages2, by simp [h63]⟩
  obtain ⟨hctx3, hstages3, hparam⟩ := hb3
  refine ⟨p3.1, b4, r, ⟨hparam, ?_, ?_⟩, ⟨rfl, rfl, rfl⟩, rfl⟩
  · unfold b4
    split_ifs
    · exact hctx3
    · exact hctx3
  · unfold b4
    split_ifs
    · exact hstages3
    · exact hstages3

theorem execStageDispatch_starts {s : State} {l i : Nat} {b : Basin} (t : Nat) (hb : s.dev.basin? l = some b) (hi : i < hdrNstage b.header)
    (hfit : s.dev.dispatchable (s.now t) l b i = true) (hleast : ∀ j, j < i → s.dev.dispatchable (s.now t) l b j = false) :
    exec (.stageDispatch t l) s = .next { s with dt := s.now t, dev := s.dev.startStage (s.now t) l i b } := by
  have hnext : s.dev.nextStage (s.now t) l b = some i := lowest_of_least hi hfit hleast
  show execStageDispatch t l s = _
  unfold execStageDispatch
  rw [State.run_eq]
  simp only [hb, hnext]

theorem stageDispatch_runs {s : State} {t l i : Nat} {b : Basin} (hb : s.dev.basin? l = some b) (hi : i < hdrNstage b.header) (hfit : s.dev.dispatchable (s.now t) l b i = true)
    (hleast : ∀ j, j < i → s.dev.dispatchable (s.now t) l b j = false)
    (hdims : stParam (b.stages.getD i 0) ≠ 63 → ∀ slot, s.dev.dimsFit (b.stages.getD i 0) b (s.dev.dimsFor l (b.stages.getD i 0) b (some slot)) (s.dev.winOf l i) = true) :
    Answers (.stageDispatch t l) s fun s' =>
      (∃ b' r, s'.dev.basin? l = some b' ∧ tget b'.running i = some r ∧ r.worked = false ∧ r.sent = 0 ∧ r.at_ = s.now t ∧ b'.ctx = b.ctx ∧ b'.stages = b.stages) ∧
      s'.dev.rn (r1 .pbuWeirDispatched (l / 64)) = (s.dev.rn (r1 .pbuWeirDispatched (l / 64)) + 1) % 2 ^ 64 ∧
      s' = { s with dt := s.now t, dev := { s.dev with fab := s'.dev.fab, regs := s'.dev.regs } } := by
  obtain ⟨param, b1, r, htaken, ⟨hworked, hsent, hat⟩, hstart⟩ := s.dev.startStage_cases (s.now t) l i b
  have hfits : (param.isSome && !(s.dev.dimsFit (b.stages.getD i 0) b (s.dev.dimsFor l (b.stages.getD i 0) b param) (s.dev.winOf l i))) = false := by
    cases param with
    | none => rfl
    | some slot => rw [hdims (htaken.param.mp rfl) slot]; rfl
  rw [hfits, if_neg Bool.false_ne_true] at hstart
  refine ⟨_, execStageDispatch_starts t hb hi hfit hleast, ?_⟩
  rw [hstart]
  exact ⟨⟨_, r, Dev.dispatched_basin .., tget_tset .., hworked, hsent, hat, htaken.ctx, htaken.stages⟩, Dev.dispatched_counts ..,
    congrArg (fun d : Dev => { s with dt := s.now t, dev := d }) (Dev.dispatched_eq ..)⟩

theorem stageDispatch_tearsDown {s : State} {t l i : Nat} {b : Basin} (hb : s.dev.basin? l = some b) (hi : i < hdrNstage b.header) (hfit : s.dev.dispatchable (s.now t) l b i = true)
    (hleast : ∀ j, j < i → s.dev.dispatchable (s.now t) l b j = false) (hparam : stParam (b.stages.getD i 0) ≠ 63)
    (hdims : ∀ slot, s.dev.dimsFit (b.stages.getD i 0) b (s.dev.dimsFor l (b.stages.getD i 0) b (some slot)) (s.dev.winOf l i) = false) :
    Answers (.stageDispatch t l) s fun s' => s'.dev = s.dev.teardown (s.now t) b.ctx .illegalConfig := by
  obtain ⟨param, b1, r, htaken, -, hstart⟩ := s.dev.startStage_cases (s.now t) l i b
  obtain ⟨slot, rfl⟩ := Option.isSome_iff_exists.mp (htaken.param.mpr hparam)
  rw [hdims slot] at hstart
  exact ⟨_, execStageDispatch_starts t hb hi hfit hleast, hstart.trans (if_pos rfl)⟩

/-- With no dispatchable stage the event cannot happen and only DT moves (log entry 3). -/
theorem stageDispatch_idle {s : State} {t l : Nat} {b : Basin} (hb : s.dev.basin? l = some b) (hnone : ∀ j, s.dev.dispatchable (s.now t) l b j = false) :
    exec (.stageDispatch t l) s = .next { s with dt := s.now t } := by
  have hnext : s.dev.nextStage (s.now t) l b = none := lowest_of_all hnone
  show execStageDispatch t l s = _
  unfold execStageDispatch
  rw [State.run_eq]
  simp only [hb, hnext]

/-- Settles O27: the lowest dispatchable stage runs, or tears its context down where its dimensions do not fit; without one nothing happens. -/
theorem lowestStageIsDispatched : Obligations.LowestStageIsDispatched := by
  unfold Obligations.LowestStageIsDispatched
  exact ⟨fun _ _ _ _ _ => stageDispatch_runs, fun _ _ _ _ _ => stageDispatch_tearsDown, fun _ _ _ _ => stageDispatch_idle⟩

end Sys2Proof.Machine

/-! ## O28: the operations of the stages -/

namespace Sys2Proof.Machine

/-! ### Planes of a tile -/

theorem elemBits_even (fmt : Nat) : ∃ k, elemBits fmt = 2 * k := by
  unfold elemBits
  split_ifs
  exacts [⟨16, rfl⟩, ⟨8, rfl⟩, ⟨3, rfl⟩, ⟨2, rfl⟩, ⟨4, rfl⟩]

theorem packBits_length (w : Nat) (es : List Nat) : (packBits w es).length = (es.length * w + 7) / 8 := leBytes_length ..

/-- Elements packed four by four take the bytes of their plane (R147). -/
theorem packPlane_length (fmt : Nat) (es : List Nat) : (packPlane fmt es).length = planeSize fmt es.length := by
  induction es using packPlane.induct with
  | case1 => simp [packPlane, planeSize]
  | case2 a b c e rest ih =>
    obtain ⟨k, hk⟩ := elemBits_even fmt
    rw [packPlane, List.length_append, packBits_length, ih, planeSize, planeSize, hk]
    simp only [List.length_cons, List.length_nil, Nat.add_mul]
    omega
  | case3 es hne hshort =>
    rw [packPlane]
    · exact packBits_length ..
    · exact hne
    · exact hshort

theorem scaleBytes_length (fmt : Nat) (ss : List Nat) : (scaleBytes fmt ss).length = ss.length * unitBytes fmt := by
  unfold scaleBytes
  simp [List.length_flatMap, List.map_const']

/-- A tile's writing leaves what lies outside its planes. -/
theorem Dev.putTile_outside {d : Dev} {x : Tile} {es ss : List Nat} {a : Nat} (hs : ss.length = unitsOf x.fmt x.n x.ch) (ha : outsideTile x es.length a) :
    (d.putTile x es ss).mem.get a = d.mem.get a := by
  obtain ⟨helems, hscales⟩ := ha
  refine (Memory.get_write_outside ?_).trans (Memory.get_write_outside ?_)
  · rwa [scaleBytes_length, hs]
  · rwa [packPlane_length]

/-! ### Operations that write a tile -/

/-- Memory and the count of free values alone differ, memory only at addresses the predicate does not name. -/
structure TileWritten (d e : Dev) (kept : Nat → Prop) : Prop where
  eq : e = { d with mem := e.mem, free := e.free }
  mem : ∀ a, kept a → e.mem.get a = d.mem.get a

theorem TileWritten.putTile {d : Dev} {x : Tile} {es ss : List Nat} {n : Nat} (f : Nat) (hn : es.length = n) (hs : ss.length = unitsOf x.fmt x.n x.ch) :
    TileWritten d (({ d with free := f } : Dev).putTile x es ss) (outsideTile x n) :=
  ⟨rfl, fun _ ha => Dev.putTile_outside hs (hn ▸ ha)⟩

theorem TileWritten.mono {d e : Dev} {kept kept' : Nat → Prop} (h : TileWritten d e kept) (hk : ∀ a, kept' a → kept a) : TileWritten d e kept' := ⟨h.eq, fun a ha => h.mem a (hk a ha)⟩

theorem Dev.moveTile_written (d : Dev) (x out : Tile) (chIn chOut : Nat → Nat) (pick : Nat → Pick) (pad : FV) :
    TileWritten d (d.moveTile x out chIn chOut pick pad) (outsideTile out out.n) := by
  unfold Dev.moveTile
  extract_lets units all ss es
  exact .putTile _ (by simp [es, all]) (by simp [ss, units])

theorem Dev.loadTile_written (d : Dev) (w : Nat) (m : Dims) (r : Option WinRec) (at_ : WinAt) (a b out : Tile) : TileWritten d (d.loadTile w m r at_ a b out) (outsideTile out out.n) := by
  unfold Dev.loadTile
  dsimp only
  split <;> exact Dev.moveTile_written ..

/-- A list that grows by k elements at each step. -/
theorem length_foldl_fst {α β γ : Type} {k : Nat} {f : List α × β → γ → List α × β} (h : ∀ acc o, (f acc o).1.length = acc.1.length + k) (l : List γ) (acc : List α × β) :
    (l.foldl f acc).1.length = acc.1.length + l.length * k := by
  induction l generalizing acc with
  | nil => simp
  | cons o l ih =>
    rw [List.foldl_cons, ih, h, List.length_cons, Nat.succ_mul]
    omega

theorem Dev.putVals_written {d : Dev} {x : Tile} {given : Option (List Nat)} (w : Nat) (chan : Nat → Nat) (lanes : List Nat) (vs : List FV)
    (hgiven : ∀ ss, given = some ss → ss.length = unitsOf x.fmt x.n x.ch) : TileWritten d (d.putVals w x chan given lanes vs).2 (outsideTile x vs.length) := by
  unfold Dev.putVals
  extract_lets units ss step r
  refine .putTile _ ?_ ?_
  · have hlen : r.1.length = _ := length_foldl_fst (k := 1) (fun acc o => by simp [step]) (List.range vs.length) ([], lanes)
    rw [hlen]
    simp
  · unfold ss
    cases given with
    | none => simp [units]
    | some ss => exact hgiven ss rfl

/-! ### Operations that change a basin too -/

/-- The fabric, memory and the count of free values alone differ; basin l comes to be b, cascades stay, memory differs only at addresses the predicate does not name. -/
structure FabricStep (d e : Dev) (l : Nat) (b : Basin) (kept : Nat → Prop) : Prop where
  eq : e = { d with fab := e.fab, mem := e.mem, free := e.free }
  cascades : e.fab.cascades = d.fab.cascades
  basin : e.basin? l = some b
  mem : ∀ a, kept a → e.mem.get a = d.mem.get a

namespace FabricStep

variable {d e : Dev} {l : Nat} {b b' : Basin} {kept : Nat → Prop}

theorem refl (hb : d.basin? l = some b) (kept : Nat → Prop) : FabricStep d d l b kept := ⟨rfl, rfl, hb, fun _ _ => rfl⟩

theorem of_tile (hb : d.basin? l = some b) (h : TileWritten d e kept) : FabricStep d e l b kept := by
  refine ⟨?_, ?_, ?_, h.mem⟩
  · rw [h.eq]
  · rw [h.eq]
  · rw [h.eq]
    exact hb

theorem mono {kept' : Nat → Prop} (h : FabricStep d e l b kept) (hk : ∀ a, kept' a → kept a) : FabricStep d e l b kept' := ⟨h.eq, h.cascades, h.basin, fun a ha => h.mem a (hk a ha)⟩

theorem tile {f : Dev} (h : FabricStep d e l b kept) (ht : TileWritten e f kept) : FabricStep d f l b kept := by
  refine ⟨?_, ?_, ?_, fun a ha => (ht.mem a ha).trans (h.mem a ha)⟩
  · rw [ht.eq, h.eq]
  · rw [ht.eq]
    exact h.cascades
  · rw [ht.eq]
    exact h.basin

theorem setBasin (h : FabricStep d e l b kept) (b' : Basin) : FabricStep d (e.setBasin l b') l b' kept := by
  refine ⟨?_, h.cascades, Dev.basin?_setBasin .., h.mem⟩
  unfold Dev.setBasin
  rw [h.eq]

theorem free (h : FabricStep d e l b kept) (n : Nat) : FabricStep d { e with free := n } l b kept := by
  refine ⟨?_, h.cascades, h.basin, h.mem⟩
  rw [h.eq]

theorem passParams (h : FabricStep d e l b kept) (r : Running) : FabricStep d (e.passParams r) l b kept := by
  unfold Dev.passParams
  split
  · exact h
  · exact h.free _

theorem setMask (h : FabricStep d e l b kept) (k slot : Nat) (mask : List Nat) : ∃ m, FabricStep d (e.setMask l k slot mask) l { b with masks := m } kept := by
  unfold Dev.setMask
  rw [h.basin]
  exact ⟨_, h.setBasin _⟩

theorem modRunning (h : FabricStep d e l b kept) (i : Nat) (f : Running → Running) : FabricStep d (e.modRunning l i f) l { b with running := tmod b.running i f } kept := by
  rw [Dev.modRunning_eq h.basin]
  exact h.setBasin _

theorem worked (h : FabricStep d e l b kept) (i : Nat) : FabricStep d (e.worked l i) l { b with running := tmod b.running i fun r => { r with worked := true } } kept := h.modRunning ..

/-- A result that goes to its slot: the stage has worked, the rounding generators have moved on (R164, R171). -/
theorem putResult {w run : Nat} {out : Tile} {given : Option (List Nat)} {vs : List FV} (h : FabricStep d e l b (outsideTile out vs.length)) (i : Nat)
    (hgiven : ∀ ss, given = some ss → ss.length = unitsOf out.fmt out.n out.ch) :
    ∃ lfsr, FabricStep d (e.putResult l i w out run given vs) l { b with lfsr := lfsr, running := tmod b.running i fun r => { r with worked := true } } (outsideTile out vs.length) := by
  unfold Dev.putResult
  simp only [h.basin]
  have hput := h.tile (Dev.putVals_written w (· / max 1 run) b.lfsr vs hgiven)
  simp only [hput.basin]
  exact ⟨_, (hput.setBasin _).worked i⟩

/-- A command that ends in such a step, its stage worked in the basin, does its operation within the fabric. -/
theorem answers {s : State} {t st : Nat} {i : Instr} {r : Running} {post : Bool} {x : Basin} (h : FabricStep s.dev e l b kept) (hexec : exec i s = s.run t fun _ _ => e)
    (hrun : tget b.running st = some { r with worked := true, post := post }) (hentries : b.entries = x.entries) (hctx : b.ctx = x.ctx) (hstages : b.stages = x.stages) :
    Answers i s fun s' => stageWorked s'.dev l st x r post ∧ fabricOnly s s' t kept :=
  ⟨_, hexec, ⟨b, h.basin, hrun, hentries, hctx, hstages⟩, congrArg (fun d : Dev => { s with dt := s.now t, dev := d }) h.eq, h.mem⟩

end FabricStep

theorem tget_worked {t : Tbl Running} {st : Nat} {r : Running} (hr : tget t st = some r) :
    tget (tmod t st fun r => { r with worked := true }) st = some { r with worked := true, post := r.post } := tget_tmod_of_tget hr _

/-! ### LOAD and STORE -/

theorem load_works {s : State} {t l st : Nat} {row0 : WinAt} {b : Basin} {r : Running} {w : Nat} (hwork : s.dev.atWork l st 0 = some (b, r, w)) :
    Answers (.load t l st row0) s fun s' => stageWorked s'.dev l st b r r.post ∧
      fabricOnly s s' t (outsideTile (s.dev.tileOut l b r w (s.dev.winOf l st)) (s.dev.tileOut l b r w (s.dev.winOf l st)).n) := by
  obtain ⟨hb, hr, -, -, -⟩ := Dev.atWork_eq_some.mp hwork
  have hexec : ∃ mask, exec (.load t l st row0) s = s.run t fun _ _ => ((s.dev.loadTile w r.dims (s.dev.winOf l st) row0 (s.dev.tileA l b r w (s.dev.winOf l st) row0)
      ((s.dev.tileB l b r w).getD Tile.none) (s.dev.tileOut l b r w (s.dev.winOf l st))).setMask l (stOut w) r.slotOut mask).worked l st := by
    show ∃ mask, execLoad t l st row0 s = _
    unfold execLoad
    simp only [State.run_eq, hwork]
    exact ⟨_, rfl⟩
  obtain ⟨mask, hexec⟩ := hexec
  obtain ⟨m, hmask⟩ := (FabricStep.of_tile hb (Dev.loadTile_written ..)).setMask (stOut w) r.slotOut mask
  exact (hmask.worked st).answers hexec (tget_worked hr) rfl rfl rfl

/-- In a format without scales the elements that a slot has room for lie in the slot. -/
theorem planeSize_le_of_room {x : Tile} {n : Nat} (hne : x.room ≠ x.n) (hn : n ≤ x.room) : planeSize x.fmt n ≤ x.size ∧ unitsOf x.fmt n x.ch = 0 := by
  unfold Tile.room at hne hn
  split_ifs at hne hn with hscaled
  · exact absurd rfl hne
  · have hfmt : blockScaled x.fmt = false ∧ x.fmt ≠ 0x0B := by simpa using hscaled
    constructor
    · unfold planeSize
      have h8 := (Nat.le_div_iff_mul_le (by unfold elemBits; split_ifs <;> omega)).mp hn
      omega
    · unfold unitsOf
      simp [hfmt]

theorem Dev.storeTile_written (d : Dev) (w : Nat) (m : Dims) (a b out : Tile) :
    TileWritten d (d.storeTile w m a b out) fun x => outsideTile out out.n x ∧ (x < out.addr ∨ out.addr + out.size ≤ x) := by
  unfold Dev.storeTile
  extract_lets plain idx top
  split
  · exact (Dev.moveTile_written ..).mono fun _ h => h.1
  · refine (Dev.moveTile_written ..).mono fun x ⟨hplanes, hslot⟩ => ?_
    by_cases hroom : out.room = out.n
    · simpa only [if_pos hroom] using hplanes
    · simp only [if_neg hroom]
      obtain ⟨hsize, hunits⟩ := planeSize_le_of_room (n := top) hroom (Nat.min_le_left ..)
      refine ⟨by dsimp only; omega, ?_⟩
      dsimp only
      rw [hunits]
      omega

theorem store_works {s : State} {t l st : Nat} {b : Basin} {r : Running} {w : Nat} (hwork : s.dev.atWork l st 6 = some (b, r, w)) :
    Answers (.store t l st) s fun s' => stageWorked s'.dev l st b r r.post ∧
      fabricOnly s s' t fun a => outsideTile (s.dev.tileOut l b r w none) (s.dev.tileOut l b r w none).n a ∧
        (a < (s.dev.tileOut l b r w none).addr ∨ (s.dev.tileOut l b r w none).addr + (s.dev.tileOut l b r w none).size ≤ a) := by
  obtain ⟨hb, hr, -, -, -⟩ := Dev.atWork_eq_some.mp hwork
  have hexec : exec (.store t l st) s = s.run t fun _ _ => (s.dev.storeTile w r.dims (s.dev.tileA l b r w none ⟨0, 0⟩) ((s.dev.tileB l b r w).getD Tile.none)
      (s.dev.tileOut l b r w none)).worked l st := by
    show execStore t l st s = _
    unfold execStore
    simp only [State.run_eq, hwork]
  exact ((FabricStep.of_tile hb (Dev.storeTile_written ..)).worked st).answers hexec (tget_worked hr) rfl rfl rfl

/-! ### VECTOR and CONVERT -/

theorem vector_works {s : State} {t l st : Nat} {b : Basin} {r : Running} {w : Nat} (hwork : s.dev.atWork l st 2 = some (b, r, w)) :
    Answers (.vector t l st) s fun s' => stageWorked s'.dev l st b r r.post ∧ fabricOnly s s' t (outsideTile (s.dev.tileOut l b r w none) (s.dev.tileA l b r w none ⟨0, 0⟩).n) := by
  obtain ⟨hb, hr, -, -, -⟩ := Dev.atWork_eq_some.mp hwork
  have hexec : ∃ n mask vs, vs.length = (s.dev.tileA l b r w none ⟨0, 0⟩).n ∧ exec (.vector t l st) s = s.run t fun _ _ =>
      (({ s.dev.passParams r with free := n } : Dev).setMask l (stOut w) r.slotOut mask).putResult l st w (s.dev.tileOut l b r w none) (r.dim1 * r.dim2) none vs := by
    show ∃ n mask vs, _ ∧ execVector t l st s = _
    unfold execVector
    simp only [State.run_eq, hwork]
    refine ⟨_, _, _, ?_, rfl⟩
    simp [Dev.vectorVals]
  obtain ⟨n, mask, vs, hlen, hexec⟩ := hexec
  rw [← hlen]
  obtain ⟨m, hmask⟩ := (((FabricStep.refl hb (outsideTile (s.dev.tileOut l b r w none) vs.length)).passParams r).free n).setMask (stOut w) r.slotOut mask
  obtain ⟨lfsr, hput⟩ := hmask.putResult (given := none) st nofun
  exact hput.answers hexec (tget_worked hr) rfl rfl rfl

theorem convert_works {s : State} {t l st : Nat} {b : Basin} {r : Running} {w : Nat} (hwork : s.dev.atWork l st 5 = some (b, r, w)) :
    Answers (.convert t l st) s fun s' => stageWorked s'.dev l st b r r.post ∧ fabricOnly s s' t (outsideTile (s.dev.tileOut l b r w none) (s.dev.tileA l b r w none ⟨0, 0⟩).n) := by
  obtain ⟨hb, hr, -, -, -⟩ := Dev.atWork_eq_some.mp hwork
  let out := s.dev.tileOut l b r w none
  have hexec : ∃ mask given vs, vs.length = (s.dev.tileA l b r w none ⟨0, 0⟩).n ∧ (∀ ss, given = some ss → ss.length = unitsOf out.fmt out.n out.ch) ∧
      exec (.convert t l st) s = s.run t fun _ _ => (s.dev.setMask l (stOut w) r.slotOut mask).putResult l st w out (r.dim1 * r.dim2) given vs := by
    show ∃ mask given vs, _ ∧ _ ∧ execConvert t l st s = _
    unfold execConvert
    simp only [State.run_eq, hwork]
    refine ⟨_, _, _, ?_, fun ss hss => ?_, rfl⟩
    · simp [Dev.vals]
    · split at hss
      · split at hss
        · cases hss
          simp [out]
        · cases hss
      · cases hss
  obtain ⟨mask, given, vs, hlen, hgiven, hexec⟩ := hexec
  rw [← hlen]
  obtain ⟨m, hmask⟩ := (FabricStep.refl hb (outsideTile out vs.length)).setMask (stOut w) r.slotOut mask
  obtain ⟨lfsr, hput⟩ := hmask.putResult st hgiven
  exact hput.answers hexec (tget_worked hr) rfl rfl rfl

/-! ### REDUCE -/

theorem Dev.reduceVals_length (d : Dev) (w : Nat) (m : Dims) (mask : List Nat) (a : Tile) : (d.reduceVals w m mask a).1.length = m.d0 * m.d2 := by
  unfold Dev.reduceVals
  extract_lets run
  rw [length_foldl_fst (k := 1) (fun acc o => ?_)]
  · simp
  · dsimp only
    split
    · simp
    · split <;> simp

theorem Dev.runningSums_length (d : Dev) (m : Dims) (sums : List Nat) (a : Tile) : (d.runningSums m sums a).1.length = min 64 m.d2 := by
  unfold Dev.runningSums
  extract_lets run
  rw [length_foldl_fst (k := 1) (fun acc c => by simp)]
  simp

/-- REDUCE 4 before its chain's last tile keeps the running sums and writes no slot (R253). -/
theorem reduce_sums {s : State} {t l st : Nat} {b : Basin} {r : Running} {w : Nat} (kept : Nat → Prop) (hwork : s.dev.atWork l st 3 = some (b, r, w)) (hsub : stSubop w = 4) :
    Answers (.reduce t l st false) s fun s' => stageWorked s'.dev l st b r false ∧ fabricOnly s s' t kept := by
  obtain ⟨hb, hr, -, -, -⟩ := Dev.atWork_eq_some.mp hwork
  have hexec : ∃ n sums, exec (.reduce t l st false) s = s.run t fun _ _ =>
      ((({ s.dev with free := n } : Dev).setBasin l { b with sums := sums }).modRunning l st fun r => { r with post := false }).worked l st := by
    show ∃ n sums, execReduce t l st false s = _
    unfold execReduce
    simp only [State.run_eq, hwork]
    rw [if_pos hsub]
    exact ⟨_, _, rfl⟩
  obtain ⟨n, sums, hexec⟩ := hexec
  have hstep := (((FabricStep.refl hb kept).free n).setBasin { b with sums := sums }).modRunning st fun r => { r with post := false }
  exact (hstep.worked st).answers hexec (tget_worked (tget_tmod_of_tget hr fun r => { r with post := false })) rfl rfl rfl

/-- Any other REDUCE writes its values to the result slot (R160, R162, R253). -/
theorem reduce_writes {s : State} {t l st : Nat} {last : Bool} {b : Basin} {r : Running} {w : Nat} (hwork : s.dev.atWork l st 3 = some (b, r, w)) (hlast : ¬ (stSubop w = 4 ∧ last = false)) :
    Answers (.reduce t l st last) s fun s' => stageWorked s'.dev l st b r r.post ∧
      fabricOnly s s' t (outsideTile (s.dev.tileOut l b r w none) (if stSubop w = 4 then r.dim2 else r.dim0 * r.dim2)) := by
  obtain ⟨hb, hr, -, -, -⟩ := Dev.atWork_eq_some.mp hwork
  let out := s.dev.tileOut l b r w none
  by_cases hsub : stSubop w = 4
  · obtain rfl : last = true := by simpa [hsub] using hlast
    have hexec : ∃ n n' sums vs, vs.length = r.dim2 ∧ exec (.reduce t l st true) s = s.run t fun _ _ =>
        ({ (({ s.dev with free := n } : Dev).setBasin l { b with sums := sums }).passParams r with free := n' } : Dev).putResult l st w out r.dim2 none vs := by
      show ∃ n n' sums vs, _ ∧ execReduce t l st true s = _
      unfold execReduce
      simp only [State.run_eq, hwork, hsub, if_true]
      refine ⟨_, _, _, _, ?_, rfl⟩
      rw [List.length_append, List.length_map, Dev.runningSums_length]
      simp only [Running.dims, List.length_map, List.length_range]
      omega
    obtain ⟨n, n', sums, vs, hlen, hexec⟩ := hexec
    rw [if_pos hsub, ← hlen]
    have hstep := ((((FabricStep.refl hb (outsideTile out vs.length)).free n).setBasin { b with sums := sums }).passParams r).free n'
    obtain ⟨lfsr, hput⟩ := hstep.putResult (w := w) (run := r.dim2) (given := none) st nofun
    exact hput.answers hexec (tget_worked hr) rfl rfl rfl
  · have hexec : ∃ n vs, vs.length = r.dim0 * r.dim2 ∧ exec (.reduce t l st last) s = s.run t fun _ _ => ({ s.dev with free := n } : Dev).putResult l st w out r.dim2 none vs := by
      show ∃ n vs, _ ∧ execReduce t l st last s = _
      unfold execReduce
      simp only [State.run_eq, hwork]
      rw [if_neg hsub]
      exact ⟨_, _, Dev.reduceVals_length .., rfl⟩
    obtain ⟨n, vs, hlen, hexec⟩ := hexec
    rw [if_neg hsub, ← hlen]
    obtain ⟨lfsr, hput⟩ := ((FabricStep.refl hb (outsideTile out vs.length)).free n).putResult (w := w) (run := r.dim2) (given := none) st nofun
    exact hput.answers hexec (tget_worked hr) rfl rfl rfl

theorem reduce_works {s : State} {t l st : Nat} {last : Bool} {b : Basin} {r : Running} {w : Nat} (hwork : s.dev.atWork l st 3 = some (b, r, w)) :
    Answers (.reduce t l st last) s fun s' => stageWorked s'.dev l st b r (if stSubop w = 4 ∧ last = false then false else r.post) ∧
      fabricOnly s s' t (outsideTile (s.dev.tileOut l b r w none) (if stSubop w = 4 then r.dim2 else r.dim0 * r.dim2)) := by
  by_cases h : stSubop w = 4 ∧ last = false
  · obtain ⟨hsub, rfl⟩ := h
    rw [if_pos ⟨hsub, rfl⟩]
    exact reduce_sums _ hwork hsub
  · rw [if_neg h]
    exact reduce_writes hwork h

/-! ### NORMALISE -/

theorem softmaxRow_length (xs : List FV) (k : Nat) : (softmaxRow xs k).1.length = xs.length := by
  unfold softmaxRow
  split
  · simp
  · split <;> simp

theorem layerRow_length (sub : Nat) (eps : FV) (xs : List FV) (k : Nat) : (layerRow sub eps xs k).1.length = xs.length := by
  unfold layerRow
  extract_lets n sum mean c q rs
  rw [List.length_map]
  unfold c
  split <;> simp

theorem Dev.normVals_length (d : Dev) (w : Nat) (m : Dims) (eps : Nat) (op : AttnOp) (stats : List (Nat × Nat)) (a : Tile) :
    (d.normVals w m eps op stats a).1.length = m.d0 * (m.d1 * m.d2) := by
  unfold Dev.normVals
  extract_lets run vscale
  rw [length_foldl_fst (k := run) (fun acc i => ?_)]
  · simp [run]
  · dsimp only
    split <;> simp [softmaxRow_length, layerRow_length]

/-- P over the sheet is written at the operand; without attention nothing is (R212, R217). -/
theorem Dev.overSheet_written (d : Dev) (l : Nat) (op : AttnOp) (a out : Tile) : TileWritten d (d.overSheet l op a out) fun x => x < a.addr ∨ a.addr + 2 * out.n ≤ x := by
  unfold Dev.overSheet
  split
  · exact ⟨rfl, fun _ ha => Memory.get_put_outside ha⟩
  · exact ⟨rfl, fun _ _ => rfl⟩

theorem Dev.overSheet_of_none {d : Dev} {l : Nat} {b : Basin} (hb : d.basin? l = some b) (hattn : d.attnAt b.ctx l = none) (op : AttnOp) (a out : Tile) : d.overSheet l op a out = d := by
  unfold Dev.overSheet
  rw [hb, Option.bind_some, hattn]
  cases op <;> rfl

theorem Dev.attnAt_of_cascades {d e : Dev} (h : e.fab.cascades = d.fab.cascades) (c l : Nat) : e.attnAt c l = d.attnAt c l := by
  unfold Dev.attnAt Dev.attnOf
  rw [h]

theorem normalise_works {s : State} {t l st : Nat} {op : AttnOp} {b : Basin} {r : Running} {w : Nat} (hwork : s.dev.atWork l st 4 = some (b, r, w)) :
    let w' := s.dev.attnWord l w op
    let a := s.dev.tileA l b r w' none ⟨0, 0⟩
    let out := s.dev.tileOut l b r w' none
    Answers (.normalise t l st op) s fun s' => stageWorked s'.dev l st b r r.post ∧
      fabricOnly s s' t (fun x => outsideTile out (r.dim0 * (r.dim1 * r.dim2)) x ∧ (x < a.addr ∨ a.addr + 2 * out.n ≤ x)) ∧
      (s.dev.attnAt b.ctx l = none → ∀ x, outsideTile out (r.dim0 * (r.dim1 * r.dim2)) x → s'.dev.mem.get x = s.dev.mem.get x) := by
  intro w' a out
  obtain ⟨hb, hr, -, -, -⟩ := Dev.atWork_eq_some.mp hwork
  have hexec : ∃ n stats vs, vs.length = r.dim0 * (r.dim1 * r.dim2) ∧ exec (.normalise t l st op) s = s.run t fun _ _ =>
      ((({ s.dev with free := n } : Dev).setBasin l { b with stats := stats }).putResult l st w' out (r.dim1 * r.dim2) none vs).overSheet l op a out := by
    show ∃ n stats vs, _ ∧ execNormalise t l st op s = _
    unfold execNormalise
    simp only [State.run_eq, hwork]
    exact ⟨_, _, _, Dev.normVals_length .., rfl⟩
  obtain ⟨n, stats, vs, hlen, hexec⟩ := hexec
  rw [← hlen]
  obtain ⟨lfsr, hput⟩ := (((FabricStep.refl hb (outsideTile out vs.length)).free n).setBasin { b with stats := stats }).putResult (w := w') (run := r.dim1 * r.dim2) (given := none) st nofun
  have hover := (hput.mono fun x (hx : outsideTile out vs.length x ∧ (x < a.addr ∨ a.addr + 2 * out.n ≤ x)) => hx.1).tile ((Dev.overSheet_written _ l op a out).mono fun x hx => hx.2)
  obtain ⟨s', hs', hworked, hfabric⟩ := hover.answers hexec (tget_worked hr) rfl rfl rfl
  refine ⟨s', hs', hworked, hfabric, fun hnone x hx => ?_⟩
  cases hexec.symm.trans hs'
  dsimp only
  rw [Dev.overSheet_of_none hput.basin ((Dev.attnAt_of_cascades hput.cascades ..).trans hnone)]
  exact hput.mem x hx


/-! ### MATRIX -/

/-- Bits below the ones that are replaced. -/
theorem bits_withBits_below {v lo w x lo' w' : Nat} (h : lo' + w' ≤ lo) : bits (withBits v lo w x) lo' w' = bits v lo' w' := by
  have key (a : Nat) : a / 2 ^ lo' % 2 ^ w' = a % 2 ^ lo / 2 ^ lo' % 2 ^ w' := by
    rw [show lo = lo' + (lo - lo') by omega, Nat.pow_add, Nat.mod_mul_right_div_self, Nat.mod_mod_of_dvd]
    exact Nat.pow_dvd_pow 2 (by omega)
  unfold bits
  rw [key (withBits v lo w x), key v]
  exact congrArg (fun n => n / 2 ^ lo' % 2 ^ w') (bits_replace v lo w x).1

theorem stSubop_withBits {v lo w x : Nat} (h : 103 ≤ lo) : stSubop (withBits v lo w x) = stSubop v := bits_withBits_below h

/-- Attention changes a stage's formats and not its suboperation (R212). -/
theorem Dev.stSubop_attnWord (d : Dev) (l w : Nat) (op : AttnOp) : stSubop (d.attnWord l w op) = stSubop w := by
  unfold Dev.attnWord
  cases (d.basin? l).bind fun b => d.attnAt b.ctx l with
  | none => rfl
  | some a =>
    cases op with
    | none => rfl
    | scores slot layer group fk fq per =>
      dsimp only
      split <;> simp [stSubop_withBits]
    | probs => simp [stSubop_withBits]
    | output =>
      dsimp only
      split <;> simp [stSubop_withBits]

/-- Accumulation changes the accumulators of its basin and no memory (R153 to R158). -/
theorem Dev.matrixAcc_step {d : Dev} {l : Nat} {b : Basin} (hb : d.basin? l = some b) (w : Nat) (m : Dims) (x y : Tile) (kept : Nat → Prop) :
    ∃ acc ints rows cols, acc.length = m.d0 * m.d1 ∧ (d.matrixAcc l w m x y).mem = d.mem ∧
      FabricStep d (d.matrixAcc l w m x y) l { b with acc := acc, accInt := ints, rowScale := rows, colScale := cols } kept := by
  unfold Dev.matrixAcc
  simp only [hb]
  refine ⟨_, _, _, _, ?_, rfl, ((FabricStep.refl hb kept).free _).setBasin _⟩
  rw [length_foldl_fst (k := 1) (fun acc o => ?_)]
  · simp
  · split <;> simp

theorem matrix_accumulates {s : State} {t l st : Nat} {op : AttnOp} {b : Basin} {r : Running} {w : Nat} (kept : Nat → Prop) (hwork : s.dev.atWork l st 1 = some (b, r, w)) (hsub : stSubop w ≠ 2) :
    Answers (.matrix t l st op) s fun s' => stageWorked s'.dev l st b r r.post ∧
      (s'.dev.mem = s.dev.mem ∧ ∃ b', s'.dev.basin? l = some b' ∧ b'.acc.length = r.dim0 * r.dim1) ∧ fabricOnly s s' t kept := by
  obtain ⟨hb, hr, -, -, -⟩ := Dev.atWork_eq_some.mp hwork
  have hexec : ∃ x y, exec (.matrix t l st op) s = s.run t fun _ _ => (s.dev.matrixAcc l (s.dev.attnWord l w op) r.dims x y).worked l st := by
    show ∃ x y, execMatrix t l st op s = _
    unfold execMatrix
    simp only [State.run_eq, hwork, Dev.stSubop_attnWord, if_neg hsub]
    exact ⟨_, _, rfl⟩
  obtain ⟨x, y, hexec⟩ := hexec
  obtain ⟨acc, ints, rows, cols, hlen, hmem, hacc⟩ := Dev.matrixAcc_step hb (s.dev.attnWord l w op) r.dims x y kept
  have hstep := hacc.worked st
  obtain ⟨s', hs', hworked, hfabric⟩ := hstep.answers hexec (tget_worked hr) rfl rfl rfl
  refine ⟨s', hs', hworked, ?_, hfabric⟩
  cases hexec.symm.trans hs'
  exact ⟨(Dev.modRunning_mem ..).trans hmem, _, hstep.basin, hlen⟩

theorem Dev.attnDrain_length (d : Dev) (l : Nat) (m : Dims) (scale : Nat) (x : Basin) (op : AttnOp) (vs : List FV) : (d.attnDrain l m scale x op vs).1.length = vs.length := by
  unfold Dev.attnDrain
  split <;> simp

/-- A drain writes its result tile, moves the rounding generators and keeps the row statistics (R158, R164, R213). -/
theorem Dev.matrixDrain_step {d : Dev} {l : Nat} {b : Basin} (hb : d.basin? l = some b) (w : Nat) (m : Dims) (scale : Nat) (op : AttnOp) (out : Tile) :
    ∃ lfsr stats, FabricStep d (d.matrixDrain l w m scale op out) l { b with lfsr := lfsr, stats := stats } (outsideTile out (m.d0 * m.d1)) := by
  have hdrain : ∃ n vs stats, vs.length = m.d0 * m.d1 ∧ d.matrixDrain l w m scale op out =
      (let put := ({ d with free := n } : Dev).putVals w out (· / m.d1) none b.lfsr vs
       put.2.setBasin l { b with lfsr := put.1, stats := stats }) := by
    unfold Dev.matrixDrain
    simp only [hb]
    refine ⟨_, _, _, ?_, rfl⟩
    rw [Dev.attnDrain_length]
    simp
  obtain ⟨n, vs, stats, hlen, hdrain⟩ := hdrain
  rw [hdrain, ← hlen]
  have hput := ((FabricStep.refl hb (outsideTile out vs.length)).free n).tile (Dev.putVals_written (given := none) w (· / m.d1) b.lfsr vs nofun)
  exact ⟨_, _, hput.setBasin _⟩

theorem matrix_drains {s : State} {t l st : Nat} {op : AttnOp} {b : Basin} {r : Running} {w : Nat} (hwork : s.dev.atWork l st 1 = some (b, r, w)) (hsub : stSubop w = 2) :
    ∃ d1 lfsr stats, exec (.matrix t l st op) s = (s.run t fun now _ => (d1.spillSheet now l st op (s.dev.attnWord l w op) r).worked l st) ∧
      FabricStep s.dev d1 l { b with lfsr := lfsr, stats := stats } (outsideTile (s.dev.tileOut l b r (s.dev.attnWord l w op) none) (r.dim0 * r.dim1)) := by
  obtain ⟨hb, -, -, -, -⟩ := Dev.atWork_eq_some.mp hwork
  have hexec : ∃ scale, exec (.matrix t l st op) s = s.run t fun now _ =>
      (((s.dev.matrixDrain l (s.dev.attnWord l w op) r.dims scale op (s.dev.tileOut l b r (s.dev.attnWord l w op) none)).passParams r).spillSheet now l st op (s.dev.attnWord l w op) r).worked l st := by
    show ∃ scale, execMatrix t l st op s = _
    unfold execMatrix
    simp only [State.run_eq, hwork, Dev.stSubop_attnWord, if_pos hsub]
    exact ⟨_, rfl⟩
  obtain ⟨scale, hexec⟩ := hexec
  obtain ⟨lfsr, stats, hdrain⟩ := Dev.matrixDrain_step hb (s.dev.attnWord l w op) r.dims scale op (s.dev.tileOut l b r (s.dev.attnWord l w op) none)
  exact ⟨_, lfsr, stats, hexec, hdrain.passParams r⟩

theorem Dev.spillAt_of_cascades {d e : Dev} (h : e.fab.cascades = d.fab.cascades) (c l : Nat) : e.spillAt c l = d.spillAt c l := by
  unfold Dev.spillAt
  rw [h]

/-- Without a spill area the sheet stays in its slot (R217). -/
theorem Dev.spillSheet_of_none {d : Dev} {l : Nat} {b : Basin} (hb : d.basin? l = some b) (hnone : d.spillAt b.ctx l = none) (now st : Nat) (op : AttnOp) (w : Nat) (r : Running) :
    d.spillSheet now l st op w r = d := by
  unfold Dev.spillSheet
  cases op with
  | scores => simp only [hb, hnone]
  | none | probs | output => rfl

theorem matrix_works {s : State} {t l st : Nat} {op : AttnOp} {b : Basin} {r : Running} {w : Nat} (hwork : s.dev.atWork l st 1 = some (b, r, w)) (hstays : s.dev.spillAt b.ctx l = none ∨ stSubop w ≠ 2) :
    Answers (.matrix t l st op) s fun s' => stageWorked s'.dev l st b r r.post ∧
      (stSubop w ≠ 2 → s'.dev.mem = s.dev.mem ∧ ∃ b', s'.dev.basin? l = some b' ∧ b'.acc.length = r.dim0 * r.dim1) ∧
      fabricOnly s s' t (outsideTile (s.dev.tileOut l b r (s.dev.attnWord l w op) none) (r.dim0 * r.dim1)) := by
  by_cases hsub : stSubop w = 2
  · have hnone := hstays.resolve_right fun h => h hsub
    obtain ⟨-, hr, -, -, -⟩ := Dev.atWork_eq_some.mp hwork
    obtain ⟨d1, lfsr, stats, hexec, hdrain⟩ := matrix_drains (t := t) (op := op) hwork hsub
    have hspill := (Dev.spillAt_of_cascades hdrain.cascades b.ctx l).trans hnone
    rw [State.run_eq, Dev.spillSheet_of_none hdrain.basin hspill, ← State.run_eq (f := fun _ _ => d1.worked l st)] at hexec
    obtain ⟨s', hs', hworked, hfabric⟩ := (hdrain.worked st).answers hexec (tget_worked hr) rfl rfl rfl
    exact ⟨s', hs', hworked, fun h => absurd hsub h, hfabric⟩
  · obtain ⟨s', hs', hworked, hacc, hfabric⟩ := matrix_accumulates (op := op) (t := t) _ hwork hsub
    exact ⟨s', hs', hworked, fun _ => hacc, hfabric⟩

/-! ### A sheet that spills -/

/-- A stretch taken out of a memory reads as the memory does there. -/
theorem Memory.get_slice {m : Memory} {a n i : Nat} (h : i < n) : (m.slice a n).get i = m.get (a + i) := by
  unfold Memory.slice
  induction m with
  | nil => rfl
  | cons c rest ih =>
    by_cases hc : a ≤ c.1 ∧ c.1 < a + n
    · rw [List.filter_cons_of_pos (by simpa using hc), List.map_cons]
      simp only [Memory.get, ih]
      by_cases hi : c.1 = a + i
      · rw [if_pos (by omega), if_pos hi]
      · rw [if_neg (by omega), if_neg hi]
    · rw [List.filter_cons_of_neg (by simpa using hc), ih]
      simp only [Memory.get]
      rw [if_neg (by omega)]

/-- A copied stretch reads as its source, which stays as it was beside it. -/
theorem Memory.read_copy {m : Memory} {dest here n : Nat} (h : dest + n ≤ here ∨ here + n ≤ dest) :
    (m.copy dest n m here).read dest n = (m.copy dest n m here).read here n := by
  unfold Memory.read Memory.copy
  refine List.map_congr_left fun i hi => ?_
  have hi := List.mem_range.mp hi
  rw [Memory.get_put_inside hi, Memory.get_slice hi, Memory.get_put_outside (by omega)]

/-- The device as a sheet of n bytes leaves its slot for the spill area, before the near-store charges (R217). -/
def Dev.sheetOut (d : Dev) (l st entry : Nat) (b : Basin) (here dest n : Nat) : Dev :=
  (({ d with mem := d.mem.copy dest n d.mem here } : Dev).setBasin l { b with sheets := b.sheets ++ [(entry, dest, n)] }).modRunning l st fun r => { r with post := false }

theorem Dev.spillSheet_paid {d : Dev} {l slot fk : Nat} {b : Basin} {a : AttnRec} {at_ : Nat} {q : KvSeq} (hb : d.basin? l = some b) (hspill : d.spillAt b.ctx l = some (a, at_))
    (hseq : tget d.kv.seqs slot = some q) (hnotlast : fk / max 1 (blockWidth (q.len + q.grow) a.heads a.bf16) < (q.len + q.grow - 1) / max 1 (blockWidth (q.len + q.grow) a.heads a.bf16))
    (now st layer group fq per w : Nat) (r : Running) :
    Paid (d.sheetOut l st (stOut w) b (d.slotAddr l (b.entry (stOut w)) r.slotOut) (at_ + a.rowBytes fk) (tileBytes (stFmtOut w) (r.dim0 * r.dim1) r.dim0 false))
      (d.spillSheet now l st (.scores slot layer group fk fq per) w r) := by
  unfold Dev.spillSheet
  simp only [hb, hspill, hseq]
  rw [if_neg (by omega)]
  exact (Dev.charge_paid ..).trans (Dev.charge_paid ..)

theorem Dev.slotAddr_of_regs {d e : Dev} (h : e.regs = d.regs) (l : Nat) (x : SbEntry) (slot : Nat) : e.slotAddr l x slot = d.slotAddr l x slot := by
  unfold Dev.slotAddr Dev.storeAddr
  rw [Dev.physical_of_regs h]

theorem matrix_spills {s : State} {t l st slot layer group fk fq per at_ : Nat} {b : Basin} {r : Running} {w : Nat} {a : AttnRec} {q : KvSeq}
    (hwork : s.dev.atWork l st 1 = some (b, r, w)) (hsub : stSubop w = 2) (hspill : s.dev.spillAt b.ctx l = some (a, at_)) (hseq : tget s.dev.kv.seqs slot = some q) :
    let op := AttnOp.scores slot layer group fk fq per
    let w' := s.dev.attnWord l w op
    let width := max 1 (blockWidth (q.len + q.grow) a.heads a.bf16)
    let n := tileBytes (stFmtOut w') (r.dim0 * r.dim1) r.dim0 false
    let dest := at_ + a.rowBytes fk
    let here := s.dev.slotAddr l (b.entry (stOut w')) r.slotOut
    fk / width < (q.len + q.grow - 1) / width → (dest + n ≤ here ∨ here + n ≤ dest) →
    Answers (.matrix t l st op) s fun s' => stageWorked s'.dev l st b r false ∧ s'.dev.mem.read dest n = s'.dev.mem.read here n ∧
      ∃ b', s'.dev.basin? l = some b' ∧ b'.sheets = b.sheets ++ [(stOut w', dest, n)] := by
  intro op w' width n dest here hnotlast hapart
  obtain ⟨-, hr, -, -, -⟩ := Dev.atWork_eq_some.mp hwork
  obtain ⟨d1, lfsr, stats, hexec, hdrain⟩ := matrix_drains (t := t) (op := op) hwork hsub
  let b1 : Basin := { b with lfsr := lfsr, stats := stats }
  let b2 : Basin := { b1 with sheets := b.sheets ++ [(stOut w', dest, n)], running := tmod b.running st fun r => { r with post := false } }
  have hkv : d1.kv = s.dev.kv := (congrArg Dev.kv hdrain.eq :)
  have hhere : d1.slotAddr l (b1.entry (stOut w')) r.slotOut = here := Dev.slotAddr_of_regs (congrArg Dev.regs hdrain.eq :) ..
  have hpaid := Dev.spillSheet_paid hdrain.basin ((Dev.spillAt_of_cascades hdrain.cascades b.ctx l).trans hspill) (hkv ▸ hseq) hnotlast (s.now t) st layer group fq per w' r
  rw [hhere] at hpaid
  have hsheet : (d1.sheetOut l st (stOut w') b1 here dest n).basin? l = some b2 := by
    unfold Dev.sheetOut
    rw [Dev.modRunning_eq (Dev.basin?_setBasin ..)]
    exact Dev.basin?_setBasin ..
  have hsheetMem : (d1.sheetOut l st (stOut w') b1 here dest n).mem = d1.mem.copy dest n d1.mem here := Dev.modRunning_mem ..
  have hbasin : (d1.spillSheet (s.now t) l st op w' r).basin? l = some b2 := (congrArg (tget · l) hpaid.basins).trans hsheet
  have hworked : ((d1.spillSheet (s.now t) l st op w' r).worked l st).basin? l = some { b2 with running := tmod b2.running st fun r => { r with worked := true } } := by
    unfold Dev.worked
    rw [Dev.modRunning_eq hbasin]
    exact Dev.basin?_setBasin ..
  have hmem : ((d1.spillSheet (s.now t) l st op w' r).worked l st).mem = d1.mem.copy dest n d1.mem here := (Dev.modRunning_mem ..).trans (hpaid.mem.trans hsheetMem)
  refine ⟨_, hexec, ⟨_, hworked, tget_worked (tget_tmod_of_tget hr fun r => { r with post := false }), rfl, rfl, rfl⟩, ?_, _, hworked, rfl⟩
  dsimp only
  rw [hmem]
  exact Memory.read_copy hapart

/-- Settles O28: each operation as a step of the fabric that leaves memory outside its result as it was. -/
theorem stagesDoTheirOperation : Obligations.StagesDoTheirOperation := by
  unfold Obligations.StagesDoTheirOperation
  exact ⟨fun _ _ _ _ _ _ _ _ => load_works, fun _ _ _ _ _ _ _ _ => matrix_works, fun _ _ _ _ _ _ _ _ _ _ _ _ _ _ _ _ => matrix_spills, fun _ _ _ _ _ _ _ => vector_works,
    fun _ _ _ _ _ _ _ _ => reduce_works, fun _ _ _ _ _ _ _ _ => normalise_works, fun _ _ _ _ _ _ _ => convert_works, fun _ _ _ _ _ _ _ => store_works⟩

end Sys2Proof.Machine

/-! ## O59: the Canal link and commits between modules -/

namespace Sys2Proof.Machine

/-! ### Ports -/

theorem Dev.cnlPort_modCnl (d : Dev) (p : Nat) (f : CnlPort → CnlPort) : (d.modCnl p f).cnlPort p = f (d.cnlPort p) := tgetD_tset ..

theorem Dev.cnlPort_modCnl_ne {d : Dev} {p q : Nat} (h : q ≠ p) (f : CnlPort → CnlPort) : (d.modCnl p f).cnlPort q = d.cnlPort q := tgetD_tset_ne h

/-- A port that has sent, or has flits to send: what it has received and its count of failed replays are as before (R403). -/
structure CnlPort.Sent (x y : CnlPort) : Prop where
  eq : y = { x with out := y.out, replay := y.replay, txSeq := y.txSeq, credits := y.credits, stuckAt := y.stuckAt }

namespace CnlPort.Sent

variable {x y z : CnlPort}

theorem refl (x : CnlPort) : Sent x x := ⟨rfl⟩

theorem trans (a : Sent x y) (b : Sent y z) : Sent x z := by
  refine ⟨b.eq.trans ?_⟩
  rw [a.eq]

theorem rxSeq (h : Sent x y) : y.rxSeq = x.rxSeq := (congrArg CnlPort.rxSeq h.eq :)
theorem answer (h : Sent x y) : y.answer = x.answer := (congrArg CnlPort.answer h.eq :)
theorem failures (h : Sent x y) : y.failures = x.failures := (congrArg CnlPort.failures h.eq :)

theorem sendOne (x : CnlPort) : Sent x x.sendOne := by
  unfold CnlPort.sendOne
  split
  · exact refl x
  · dsimp only
    split <;> exact ⟨rfl⟩

theorem sendAll (x : CnlPort) (n : Nat) : Sent x (x.sendAll n) := by
  induction n generalizing x with
  | zero => exact refl x
  | succ n ih => exact (sendOne x).trans (ih _)

/-- A change of port p alone that sends, seen at every port. -/
theorem modCnl {d : Dev} {p : Nat} {f : CnlPort → CnlPort} (h : Sent (d.cnlPort p) (f (d.cnlPort p))) (q : Nat) : Sent (d.cnlPort q) ((d.modCnl p f).cnlPort q) := by
  by_cases hq : q = p
  · subst hq
    rwa [Dev.cnlPort_modCnl]
  · rw [Dev.cnlPort_modCnl_ne hq]
    exact refl _

theorem cnlPump (d : Dev) (now p q : Nat) : Sent (d.cnlPort q) ((d.cnlPump now p).cnlPort q) := by
  unfold Dev.cnlPump
  split
  · exact refl _
  · exact modCnl ((sendAll ..).trans ⟨rfl⟩) q

theorem cnlOn (d : Dev) (now p : Nat) (f : CnlFlit) (q : Nat) : Sent (d.cnlPort q) ((d.cnlOn now p f).cnlPort q) := (modCnl ⟨rfl⟩ q).trans (cnlPump ..)

end CnlPort.Sent

/-! ### Reception of a flit -/

/-- The device once the next flit in order is acknowledged and a data flit's link credit is on its way back (R403). -/
def Dev.acknowledged (d : Dev) (now : Nat) (f : FlitIn) (x : CnlFlit) : Dev :=
  let d1 := d.modCnl f.port fun p => { p with rxSeq := (f.seq + 1) % 65536, answer := some (true, f.seq) }
  if x.isData then d1.cnlReturn now f.port x.vc else d1

theorem Dev.acknowledged_ports (d : Dev) (now : Nat) (f : FlitIn) (x : CnlFlit) : PortsOnly d (d.acknowledged now f x) := by
  unfold Dev.acknowledged
  dsimp only
  split
  · exact (PortsOnly.modCnl ..).trans (.cnlReturn ..)
  · exact .modCnl ..

theorem Dev.acknowledged_port (d : Dev) (now : Nat) (f : FlitIn) (x : CnlFlit) :
    ((d.acknowledged now f x).cnlPort f.port).rxSeq = (f.seq + 1) % 65536 ∧ ((d.acknowledged now f x).cnlPort f.port).answer = some (true, f.seq) := by
  let d1 := d.modCnl f.port fun p => { p with rxSeq := (f.seq + 1) % 65536, answer := some (true, f.seq) }
  have hport : d1.cnlPort f.port = { d.cnlPort f.port with rxSeq := (f.seq + 1) % 65536, answer := some (true, f.seq) } := Dev.cnlPort_modCnl ..
  have hsent : CnlPort.Sent (d1.cnlPort f.port) ((d.acknowledged now f x).cnlPort f.port) := by
    unfold Dev.acknowledged
    dsimp only
    split
    · exact .cnlOn ..
    · exact .refl _
  rw [hsent.rxSeq, hsent.answer, hport]
  exact ⟨rfl, rfl⟩

namespace PortsOnly

variable {d e : Dev}

theorem module (h : PortsOnly d e) : e.module = d.module := (congrArg Dev.module h.eq :)
theorem fab (h : PortsOnly d e) : e.fab = d.fab := (congrArg Dev.fab h.eq :)
theorem waits (h : PortsOnly d e) : e.waits = d.waits := (congrArg Dev.waits h.eq :)
theorem pow (h : PortsOnly d e) : e.pow = d.pow := (congrArg Dev.pow h.eq :)
theorem pbu (h : PortsOnly d e) : e.pbu = d.pbu := (congrArg Dev.pbu h.eq :)
theorem reads (h : PortsOnly d e) : e.cnl.reads = d.cnl.reads := (congrArg (fun x : Dev => x.cnl.reads) h.eq :)
theorem coords (h : PortsOnly d e) : e.cnl.coords = d.cnl.coords := (congrArg (fun x : Dev => x.cnl.coords) h.eq :)
theorem cnl (h : PortsOnly d e) : e = { d with cnl := e.cnl } := by rw [h.eq]
theorem own (h : PortsOnly d e) : e.own = d.own := congrArg (· % 4) h.module

end PortsOnly

theorem Dev.cnlRx_inOrder {s : State} {f : FlitIn} (hin : inOrder s f) (now type : Nat) (body : List Nat) (payload : List Byte) (serve : Dev → Dev) :
    s.dev.cnlRx now f.port f.seq f.bad (flitOf f type body payload) serve = serve (s.dev.acknowledged now f (flitOf f type body payload)) := by
  obtain ⟨hup, hgood, hseq, hdst⟩ := hin
  unfold Dev.cnlRx
  simp only [hup, hgood]
  rw [if_neg (by decide), if_neg (by decide), if_neg (not_not_intro hseq)]
  exact if_pos (hdst.trans (Dev.acknowledged_ports ..).own.symm)

/-- A command that serves a flit in order does what it serves to the device that has acknowledged the flit (R401, R403). -/
theorem received_of_serve {s : State} {t type : Nat} {i : Instr} {f : FlitIn} {body : List Nat} {payload : List Byte} {serve : Nat → Dev → Dev} {effect : Dev → Dev → Prop}
    (hin : inOrder s f) (hexec : exec i s = s.run t fun now d => d.cnlServe now f type body payload (serve now))
    (h : ∀ d0, PortsOnly s.dev d0 → effect d0 (serve (s.now t) d0)) : Answers i s fun s' => received s s' t f effect := by
  have hports := s.dev.acknowledged_ports (s.now t) f (flitOf f type body payload)
  obtain ⟨hrx, hanswer⟩ := s.dev.acknowledged_port (s.now t) f (flitOf f type body payload)
  refine ⟨_, hexec, _, _, hports.eq, hrx, hanswer, h _ hports, ?_⟩
  dsimp only
  unfold Dev.cnlServe
  rw [Dev.cnlRx_inOrder hin]

/-! ### DATA and CREDIT -/

theorem data_lands {s : State} {t srcBasin basin entry srcEntry index slot : Nat} {f : FlitIn} {last : Bool} {key : KeyIn} {data : List Byte} {b : Basin} {rest : List Nat}
    (hin : inOrder s f) (hbasin : basin < 256) (hb : s.dev.basin? basin = some b) (hfree : (b.entry entry).freeQ = slot :: rest) :
    Answers (.data t f srcBasin basin entry srcEntry index last key data) s fun s' => received s s' t f fun d0 d1 =>
      (let at_ := s.dev.slotAddr basin (b.entry entry) slot + 256 * index
       let bytes := (data.take 256).take ((b.entry entry).size - 256 * index)
       d1.mem.read at_ bytes.length = bytes ∧ ∀ a, (a < at_ ∨ at_ + bytes.length ≤ a) → d1.mem.get a = d0.mem.get a) ∧
      (last = true → ∃ b', d1.basin? basin = some b' ∧ (b'.entry entry).readyQ = (b.entry entry).readyQ ++ [(slot, s.now t)]) := by
  have hexec : exec (.data t f srcBasin basin entry srcEntry index last key data) s = execData t f srcBasin basin entry srcEntry index last key data s := rfl
  unfold execData at hexec
  refine received_of_serve hin hexec fun d0 hp => ?_
  let flit : Flit := { src := 256 * (f.src + 1) + srcBasin, dst := basin, entry := entry, srcEntry := srcEntry, index := index, data := data.take 256, last := last, copies := 1, key := keyOf key }
  have hb0 : d0.basin? flit.dst = some b := (congrArg (fun x : FabSt => tget x.basins basin) hp.fab).trans hb
  have hland := Dev.landFlit_lands (s.now t) hb0 hfree
  have hone : d0.rowTargets f.src srcBasin srcEntry basin entry = [basin] := if_pos hbasin
  have haddr : d0.slotAddr flit.dst (b.entry flit.entry) slot = s.dev.slotAddr basin (b.entry entry) slot := Dev.slotAddr_of_regs hp.regs ..
  rw [hone, List.foldl_cons, List.foldl_nil, hland.mem, haddr]
  refine ⟨⟨Memory.read_write, fun _ ha => Memory.get_write_outside ha⟩, fun hlast => ?_⟩
  obtain ⟨b', hb', hready, -⟩ := hland.ready hlast
  exact ⟨b', hb', hready⟩

theorem credit_returns {s : State} {t basin entry consumer count v0 v1 : Nat} {f : FlitIn} (hin : inOrder s f) :
    Answers (.credit t f basin entry consumer count v0 v1) s fun s' => received s s' t f fun d0 d1 =>
      d1.fab.credits = d0.fab.credits ++ (if count = 0 then [] else List.replicate (min count 16) ⟨basin, entry, 256 * (f.src + 1) + consumer⟩) ∧
      ∃ d : Dev, d1 = d.cnlPump (s.now t) f.port ∧ (d.cnlPort f.port).credits = [min 64 ((d0.cnlPort f.port).credits.getD 0 0 + v0), min 64 ((d0.cnlPort f.port).credits.getD 1 0 + v1)] := by
  have hexec : exec (.credit t f basin entry consumer count v0 v1) s = execCredit t f basin entry consumer count v0 v1 s := rfl
  unfold execCredit at hexec
  refine received_of_serve hin hexec fun d0 hp => ⟨?_, _, rfl, ?_⟩
  · rw [(PortsOnly.cnlPump ..).fab]
    split
    · exact (List.append_nil _).symm
    · rfl
  · split
    · exact congrArg CnlPort.credits (Dev.cnlPort_modCnl ..)
    · have hport (g : CnlPort → CnlPort) : ((d0.modCnl f.port g).remoteCredit f.src basin entry consumer count).cnlPort f.port = g (d0.cnlPort f.port) := Dev.cnlPort_modCnl ..
      rw [hport]
      rfl

/-! ### Requests for memory -/

theorem PortsOnly.canalOk {d e : Dev} (h : PortsOnly d e) (latch : Bool) (now a n : Nat) (x : Acc) : e.canalOk latch now a n x = d.canalOk latch now a n x := by
  rw [h.eq]
  rfl

theorem PortsOnly.farHolds {d e : Dev} (h : PortsOnly d e) (a n : Nat) : e.farHolds a n = d.farHolds a n := by
  unfold Dev.farHolds Dev.windowOpen
  rw [h.pbu]

theorem PortsOnly.memBytes {d e : Dev} (h : PortsOnly d e) (a n : Nat) : e.memBytes a n = d.memBytes a n := by
  rw [h.eq]
  rfl

theorem memRd_answers {s : State} {t tag addr len : Nat} {f : FlitIn} (hin : inOrder s f) (hok : s.dev.canalOk s.latchClosed (s.now t) addr len .read = true) :
    Answers (.memRd t f tag addr len) s fun s' => received s s' t f fun d0 d1 =>
      (s.dev.farHolds addr len = false → d1 = d0.cnlSend (s.now t) ftMemCpl f.src 1 [tag, 0] (s.dev.memBytes addr len)) ∧
      (s.dev.farHolds addr len = true → d1 = { d0 with pbu := { d0.pbu with farHeld := d0.pbu.farHeld ++ [⟨7, 0, addr, len, [], 0, some (f.src, tag)⟩] } }) := by
  have hexec : exec (.memRd t f tag addr len) s = execMemRd t f tag addr len s := rfl
  unfold execMemRd at hexec
  refine received_of_serve hin hexec fun d0 hp => ?_
  dsimp only
  rw [if_pos ((hp.canalOk ..).trans hok), hp.farHolds, hp.memBytes]
  refine ⟨fun hnow => ?_, fun hheld => ?_⟩
  · rw [if_neg (by simp [hnow])]
    rfl
  · rw [if_pos hheld]
    rfl

theorem memWr_answers {s : State} {t tag addr : Nat} {f : FlitIn} {data : List Byte} (hin : inOrder s f) (hplace : placeOf addr data.length = .main)
    (hnow : s.dev.farHolds addr data.length = false) (hok : s.dev.canalOk s.latchClosed (s.now t) addr data.length .write = true) :
    Answers (.memWr t f tag addr data) s fun s' => received s s' t f fun d0 d1 => ∃ d : Dev, d1 = d.cnlSend (s.now t) ftMemCpl f.src 1 [tag, 0] [] ∧ d = { d0 with mem := d.mem } ∧
      d.mem.read addr data.length = data ∧ ∀ a, (a < addr ∨ addr + data.length ≤ a) → d.mem.get a = s.dev.mem.get a := by
  have hexec : exec (.memWr t f tag addr data) s = execMemWr t f tag addr data s := rfl
  unfold execMemWr at hexec
  refine received_of_serve hin hexec fun d0 hp => ⟨{ d0 with mem := d0.mem.write addr data }, ?_, rfl, Memory.read_write, fun a ha => ?_⟩
  · have hwrite : d0.memWrite addr data = { d0 with mem := d0.mem.write addr data } := by
      unfold Dev.memWrite
      rw [hplace]
    dsimp only
    rw [if_pos ((hp.canalOk ..).trans hok), if_neg (by simp [hp.farHolds, hnow]), hwrite]
    rfl
  · rw [← hp.mem]
    exact Memory.get_write_outside ha

theorem memCpl_answers {s : State} {t tag status n off cls : Nat} {f : FlitIn} {data bs : List Byte} (hin : inOrder s f) (hreads : s.dev.cnl.reads = [⟨tag, f.src, n, off, bs, cls⟩]) :
    Answers (.memCpl t f tag status data) s fun s' => received s s' t f fun d0 d1 =>
      let d : Dev := { d0 with cnl := { d0.cnl with reads := [] }, bus := if status ≠ 0 then .accessFault else if n = 0 then .ok else .bytes data }
      (cls ≠ 8 → d1 = d) ∧ (cls = 8 → d1 = d.answered (s.now t) 8 n) := by
  have hexec : exec (.memCpl t f tag status data) s = execMemCpl t f tag status data s := rfl
  unfold execMemCpl at hexec
  refine received_of_serve hin hexec fun d0 hp => ?_
  have hfind : d0.cnl.reads.find? (fun x => x.tag == tag && x.dst == f.src) = some ⟨tag, f.src, n, off, bs, cls⟩ := by
    rw [hp.reads, hreads]
    simp
  have herase : d0.cnl.reads.erase ⟨tag, f.src, n, off, bs, cls⟩ = [] := by
    rw [hp.reads, hreads]
    simp
  intro d
  simp only [hfind, herase]
  refine ⟨fun hcls => ?_, fun hcls => ?_⟩
  · exact if_neg fun h => hcls h.1
  · rw [hcls]

/-! ### Acknowledgement and replay -/

theorem ack_acknowledges {s : State} {t port seq : Nat} (hup : s.dev.portUp port = true) :
    Answers (.ack t port seq) s fun s' => ∃ d : Dev, s'.dev = d.cnlPump (s.now t) port ∧ (d.cnlPort port).replay = (s.dev.cnlPort port).acked seq ∧
      s' = { s with dt := s.now t, dev := { s.dev with cnl := s'.dev.cnl } } := by
  have hexec : exec (.ack t port seq) s = execAck t port seq s := rfl
  unfold execAck at hexec
  rw [State.run_eq, if_pos hup] at hexec
  refine ⟨_, hexec, _, rfl, congrArg CnlPort.replay (Dev.cnlPort_modCnl ..), ?_⟩
  exact congrArg (fun d : Dev => { s with dt := s.now t, dev := d }) ((PortsOnly.modCnl ..).trans (.cnlPump ..)).cnl

theorem nak_replays {s : State} {t port seq : Nat} (hup : s.dev.portUp port = true) (hheld : ((s.dev.cnlPort port).replay.any fun e => e.1 == seq) = true) :
    Answers (.nak t port seq) s fun s' => ∃ d : Dev, s'.dev = d.cnlPump (s.now t) port ∧ (d.cnlPort port).replay = (s.dev.cnlPort port).replay.dropWhile (fun e => e.1 != seq) ∧
      (d.cnlPort port).failures = (s.dev.cnlPort port).failures + b2n (s.dev.cnlPort port).replaying ∧ (d.cnlPort port).replaying = true ∧
      s' = { s with dt := s.now t, dev := { s.dev with cnl := s'.dev.cnl, regs := s'.dev.regs } } := by
  have hexec : exec (.nak t port seq) s = execNak t port seq s := rfl
  unfold execNak at hexec
  rw [State.run_eq, if_pos ⟨hup, hheld⟩] at hexec
  have hport (g : CnlPort → CnlPort) (r : Reg) (x : Fld) : ((s.dev.modCnl port g).incSat r x).cnlPort port = g (s.dev.cnlPort port) := Dev.cnlPort_modCnl ..
  refine ⟨_, hexec, _, rfl, congrArg CnlPort.replay (hport ..), congrArg CnlPort.failures (hport ..), congrArg CnlPort.replaying (hport ..), ?_⟩
  have hpump (d : Dev) (h : d = { s.dev with cnl := d.cnl, regs := d.regs }) : d.cnlPump (s.now t) port = { s.dev with cnl := (d.cnlPump (s.now t) port).cnl, regs := (d.cnlPump (s.now t) port).regs } := by
    refine (PortsOnly.cnlPump ..).cnl.trans ?_
    rw [(PortsOnly.cnlPump ..).regs, h]
  exact congrArg (fun d : Dev => { s with dt := s.now t, dev := d }) (hpump (Dev.incSat (s.dev.modCnl port _) _ _) rfl)

/-! ### PTP -/

theorem ptp_stamps {s : State} {t : Nat} {f : FlitIn} {data : List Byte} (hin : inOrder s f) :
    Answers (.ptp t f data) s fun s' => received s s' t f fun d0 d1 => d1.cnl.ptp = d0.cnl.ptp ++ [data] ∧
      ∃ k : Key, k.dt = s.now t ∧ k.src = s.dev.src (0x0151 + 2 * f.port) ∧ d1.recs = ⟨k, .sync, s.dev.elastic 2 (6 + f.port), [s.now t]⟩ :: d0.recs := by
  have hexec : exec (.ptp t f data) s = execPtp t f data s := rfl
  unfold execPtp at hexec
  refine received_of_serve hin hexec fun d0 hp => ⟨rfl, ⟨s.now t, d0.src (0x0151 + 2 * f.port), d0.cntOf (0x0151 + 2 * f.port)⟩, rfl, ?_, ?_⟩
  · exact congrArg (fun m => m % 4 * 0x4000 + (0x0151 + 2 * f.port)) hp.module
  · have helastic : d0.elastic 2 (6 + f.port) = s.dev.elastic 2 (6 + f.port) := congrArg (fun n => n.testBit (6 + f.port)) (Dev.f_of_rd (Dev.rd_of_regs hp.regs _) _)
    dsimp only
    rw [helastic]
    exact Dev.emit_recs ..

/-! ### Two-phase commits: preparing and voting -/

theorem Dev.partOf_of_fab {d e : Dev} (hfab : e.fab = d.fab) (hmodule : e.module = d.module) (id : Nat) : e.partOf id = d.partOf id := by
  unfold Dev.partOf Dev.own
  rw [hfab, hmodule]

/-- A part without a vote that votes YES has voted at this instant (R405). -/
theorem Dev.castVote_voted {d : Dev} {now : Nat} {p : TpcPart} (hp : p ∈ d.cnl.parts) (hvote : p.vote = none) :
    { p with vote := some (true, now), askedAt := now } ∈ (d.castVote now p.id .ok).cnl.parts := by
  have hsome : ((d.cnl.parts.find? fun q => q.id == p.id && q.vote.isNone).isSome) = true := by
    rw [List.find?_isSome]
    exact ⟨p, hp, by simp [hvote]⟩
  obtain ⟨q, hq⟩ := Option.isSome_iff_exists.mp hsome
  unfold Dev.castVote
  simp only [hq, if_true]
  rw [(PortsOnly.cnlSend ..).parts]
  exact List.mem_map.mpr ⟨p, hp, if_pos rfl⟩

theorem prepare_votes {s : State} {t kind subject arg h : Nat} {f : FlitIn} {key : KeyIn} {c : Cascade} (hin : inOrder s f) (hnew : (s.dev.cnl.parts.any fun p => p.id == keyOf key) = false)
    (hkind : kind = 1) (hpart : s.dev.partOf subject = some (h, c)) (hbound : c.bound = true) (hidle : c.run = none) :
    Answers (.prepare t f key kind subject arg) s fun s' => received s s' t f fun _ d1 =>
      ∃ p ∈ d1.cnl.parts, p.id = keyOf key ∧ p.coord = f.src ∧ p.subject = subject ∧ p.arg = arg ∧ p.vote = some (true, s.now t) := by
  have hexec : exec (.prepare t f key kind subject arg) s = execPrepare t f key kind subject arg s := rfl
  unfold execPrepare at hexec
  refine received_of_serve hin hexec fun d0 hp => ?_
  subst hkind
  let p : TpcPart := { id := keyOf key, coord := f.src, kind := 1, subject := subject, arg := arg }
  let d1 : Dev := { d0 with cnl := { d0.cnl with parts := d0.cnl.parts ++ [p] } }
  have hpart1 : d1.partOf subject = some (h, c) := (Dev.partOf_of_fab (d := s.dev) hp.fab hp.module subject).trans hpart
  have hprepare : d0.prepare (s.now t) p = d1.castVote (s.now t) p.id .ok := by
    unfold Dev.prepare
    dsimp only
    rw [if_neg (show 1 ≠ 3 by decide), hpart1]
    dsimp only
    rw [if_neg (show 1 ≠ 0 by decide), if_pos rfl, if_pos hbound, hidle]
    rfl
  rw [if_neg (by rw [hp.parts, hnew]; decide)]
  refine ⟨{ p with vote := some (true, s.now t), askedAt := s.now t }, ?_, rfl, rfl, rfl, rfl, rfl⟩
  show _ ∈ (d0.prepare (s.now t) p).cnl.parts
  rw [hprepare]
  exact Dev.castVote_voted (by simp [d1]) rfl

/-! ### Votes that arrive -/

theorem Dev.onTime_of_regs {d e : Dev} (h : e.regs = d.regs) (w : Wait) (stamp : Nat) : e.onTime w stamp = d.onTime w stamp := by
  unfold Dev.onTime
  rw [Dev.rn_of_rd (Dev.rd_of_regs h _)]

/-- A wait that has its outcome does not expire again (R47). -/
theorem Dev.expire_over {d : Dev} {now id : Nat} {w : Wait} (hw : tget d.waits id = some w) {o : Bool} (hout : w.outcome = some o) : d.expire now id = (false, d) := by
  unfold Dev.expire
  simp [hw, hout]

/-- A wait that expired takes an on-time arrival as LATE_ACCEPTED, for the almanac alone (R47, R48). -/
theorem Dev.arrive_late {d : Dev} {now id : Nat} {w : Wait} {k : Key} (hw : tget d.waits id = some w) (hout : w.outcome = some false) (hon : d.onTime w k.dt = true) :
    d.arrive now id k = (.lateAccepted, d.waitAlm now w k false) := by
  unfold Dev.arrive
  simp [hw, hout, hon]

/-- A pending wait commits ARRIVED with an on-time arrival delivered by D + G, its key the deadline's (R46, R48). -/
theorem Dev.arrive_commits {d : Dev} {now id : Nat} {w : Wait} {k : Key} (hw : tget d.waits id = some w) (hout : w.outcome = none) (hon : d.onTime w k.dt = true)
    (hin : now ≤ w.deadline + w.guard) :
    (d.arrive now id k).1 = .arrived ∧ (d.arrive now id k).2.cnl = d.cnl ∧
      ∃ x : Key, x.dt = w.deadline ∧ tget (d.arrive now id k).2.waits id = some { w with outcome := some true, key := some x } := by
  unfold Dev.arrive
  simp only [hw, hout, hon, hin, true_and, if_true]
  refine ⟨?_, (d.draw w.src w.deadline).1, rfl, ?_⟩
  · split
    · simp [Dev.waitAlm, Dev.alm, Dev.commitWait]
    · simp [Dev.commitWait]
  · split
    · simp [Dev.waitAlm, Dev.alm, Dev.commitWait]
    · simp [Dev.commitWait]

theorem Dev.waitAny_dropWait (d : Dev) (o : WaitOwner) : (d.dropWait o).waitAny o = none := by
  unfold Dev.waitAny Dev.dropWait
  simp

theorem Dev.waitAlm_cnl (d : Dev) (now : Nat) (w : Wait) (k : Key) (arrived : Bool) : (d.waitAlm now w k arrived).cnl = d.cnl := by simp [Dev.waitAlm, Dev.alm]

theorem vote_counts {s : State} {t status castAt n : Nat} {f : FlitIn} {key : KeyIn} {w : Wait} (hin : inOrder s f) (hany : s.dev.waitAny (.vote (txOf (keyOf key)) f.src) = some (n, w))
    (hw : tget s.dev.waits n = some w) (hon : s.dev.onTime w castAt = true) :
    Answers (.vote t f key status castAt) s fun s' => received s s' t f fun d0 d1 =>
      (w.outcome = some false → d1.waitAny (.vote (txOf (keyOf key)) f.src) = none ∧ d1.cnl = d0.cnl) ∧
      (w.outcome = none → s.now t ≤ w.deadline + w.guard → ∃ d : Dev, d1 = d.tpcVote (s.now t) (keyOf key) f.src status ∧ d.cnl = d0.cnl ∧
        ∃ k : Key, k.dt = w.deadline ∧ tget d.waits n = some { w with outcome := some true, key := some k }) := by
  have hexec : exec (.vote t f key status castAt) s = execVote t f key status castAt s := rfl
  unfold execVote at hexec
  refine received_of_serve hin hexec fun d0 hp => ?_
  have hany0 : d0.waitAny (.vote (txOf (keyOf key)) f.src) = some (n, w) := by
    unfold Dev.waitAny
    rw [hp.waits]
    exact hany
  have hw0 : tget (d0.foreignKey castAt (f.src * 0x4000 + 0x0150)).2.waits n = some w := (congrArg (tget · n) hp.waits).trans hw
  have hon0 : (d0.foreignKey castAt (f.src * 0x4000 + 0x0150)).2.onTime w (d0.foreignKey castAt (f.src * 0x4000 + 0x0150)).1.dt = true := (Dev.onTime_of_regs hp.regs ..).trans hon
  have hcnl0 : (d0.foreignKey castAt (f.src * 0x4000 + 0x0150)).2.cnl = d0.cnl := rfl
  simp only [hany0]
  generalize d0.foreignKey castAt (f.src * 0x4000 + 0x0150) = k at hw0 hon0 hcnl0 ⊢
  refine ⟨fun hout => ?_, fun hout hdue => ?_⟩
  · rw [Dev.expire_over hw0 hout]
    dsimp only
    rw [Dev.arrive_late hw0 hout hon0, if_neg (by decide), if_neg (show Arrival.lateAccepted ≠ .arrived by decide), if_pos hout]
    exact ⟨Dev.waitAny_dropWait .., (Dev.waitAlm_cnl ..).trans hcnl0⟩
  · obtain ⟨harrived, hcnl, x, hx, hwait⟩ := Dev.arrive_commits (now := s.now t) hw0 hout hon0 hdue
    rw [Dev.expire_pending hw0 hdue]
    dsimp only
    rw [if_neg (by decide), if_pos harrived]
    exact ⟨_, rfl, hcnl.trans hcnl0, x, hx, hwait⟩

/-! ### Two-phase commits: outcomes -/

/-- A participant that answers DONE forgets the transaction (R405). -/
theorem Dev.tpcSendDone_of_parts {d : Dev} {p : TpcPart} (hparts : d.cnl.parts = [p]) (now : Nat) :
    (d.tpcSendDone now p.id).cnl.parts = [] ∧ (d.tpcSendDone now p.id).cnl.outcomes = d.cnl.outcomes := by
  have hfind : d.cnl.parts.find? (fun q => q.id == p.id) = some p := by simp [hparts]
  unfold Dev.tpcSendDone
  simp only [hfind]
  rw [(PortsOnly.cnlSend ..).parts, (PortsOnly.cnlSend ..).outcomes]
  exact ⟨by simp [hparts], rfl⟩

/-- Where this module holds nothing of the subject, an outcome is applied by answering DONE (R405). -/
theorem Dev.applyPart_of_none {d : Dev} {p : TpcPart} (hcascade : p.kind ≠ 3 → d.partOf p.subject = none) (hreq : p.kind = 3 → d.splitReq p.subject p.arg = none) (now : Nat) (ok : Bool) :
    d.applyPart now p ok = d.tpcSendDone now p.id := by
  unfold Dev.applyPart
  by_cases hkind : p.kind = 3
  · rw [if_pos hkind, hreq hkind]
    rfl
  · rw [if_neg hkind, hcascade hkind]

theorem Dev.splitReq_of_slu {d e : Dev} (hslu : e.slu = d.slu) (hfab : e.fab = d.fab) (id req : Nat) : e.splitReq id req = d.splitReq id req := by
  unfold Dev.splitReq Dev.cascade?
  rw [hslu, hfab]

theorem PortsOnly.slu {d e : Dev} (h : PortsOnly d e) : e.slu = d.slu := (congrArg Dev.slu h.eq :)

theorem decide_applies {s : State} {t : Nat} {f : FlitIn} {key : KeyIn} {commit : Bool} {p : TpcPart} (hin : inOrder s f) (hparts : s.dev.cnl.parts = [p]) (hid : p.id = keyOf key)
    (hopen : p.decided = false) (hcascade : p.kind ≠ 3 → s.dev.partOf p.subject = none) (hreq : p.kind = 3 → s.dev.splitReq p.subject p.arg = none) :
    Answers (.decide t f key commit) s fun s' => received s s' t f fun d0 d1 => d1.cnl.outcomes = (p.id, commit, s.now t) :: d0.cnl.outcomes ∧ d1.cnl.parts = [] := by
  have hexec : exec (.decide t f key commit) s = execDecide t f key commit s := rfl
  unfold execDecide at hexec
  refine received_of_serve hin hexec fun d0 hp => ?_
  have hfind : d0.cnl.parts.find? (fun q => q.id == keyOf key && !q.decided) = some p := by
    rw [hp.parts, hparts]
    simp [hid, hopen]
  let d1 : Dev := { d0 with cnl := { d0.cnl with outcomes := (p.id, commit, s.now t) :: d0.cnl.outcomes } }
  have hparts1 : d1.cnl.parts = [p] := hp.parts.trans hparts
  have hcascade1 : p.kind ≠ 3 → d1.partOf p.subject = none := fun h => (Dev.partOf_of_fab (d := s.dev) hp.fab hp.module _).trans (hcascade h)
  have hreq1 : p.kind = 3 → d1.splitReq p.subject p.arg = none := fun h => (Dev.splitReq_of_slu (d := s.dev) hp.slu hp.fab _ _).trans (hreq h)
  simp only [hfind]
  show (d1.applyPart (s.now t) p commit).cnl.outcomes = _ ∧ (d1.applyPart (s.now t) p commit).cnl.parts = []
  rw [Dev.applyPart_of_none hcascade1 hreq1]
  exact (Dev.tpcSendDone_of_parts hparts1 _).symm

theorem query_answers {s : State} {t at_ : Nat} {f : FlitIn} {key : KeyIn} {commit : Bool} (hin : inOrder s f) (hknown : s.dev.cnl.outcomes = [(keyOf key, commit, at_)])
    (hkept : s.now t ≤ at_ + 1000000000) :
    Answers (.query t f key) s fun s' => received s s' t f fun d0 d1 => d1 = d0.cnlSend (s.now t) ftDecide f.src 0 (tpcBody (keyOf key) 0 0 (b2n commit) 0) [] := by
  have hexec : exec (.query t f key) s = execQuery t f key s := rfl
  unfold execQuery at hexec
  refine received_of_serve hin hexec fun d0 hp => ?_
  have hfind : d0.cnl.outcomes.find? (fun o => o.1 == keyOf key && decide (s.now t ≤ o.2.2 + 1000000000)) = some (keyOf key, commit, at_) := by
    rw [hp.outcomes, hknown]
    simp [hkept]
  simp only [hfind]

theorem done_counts {s : State} {t : Nat} {f : FlitIn} {key : KeyIn} {x : TpcCoord} (hin : inOrder s f) (hcoords : s.dev.cnl.coords = [x]) (hid : x.id = keyOf key)
    (hout : x.outcome.isSome = true) (hnew : x.done.contains f.src = false) :
    Answers (.done t f key) s fun s' => received s s' t f fun d0 d1 => ∃ d : Dev, d1 = d.tpcFinish (s.now t) ∧ d = { d0 with cnl := { d0.cnl with coords := [{ x with done := f.src :: x.done }] } } := by
  have hexec : exec (.done t f key) s = execDone t f key s := rfl
  unfold execDone at hexec
  refine received_of_serve hin hexec fun d0 hp => ⟨_, rfl, ?_⟩
  rw [hp.coords, hcoords, List.map_singleton, if_pos ⟨hid, hout, by rw [hnew]; rfl⟩]

theorem decideTimeout_asks {s : State} {t : Nat} {key : KeyIn} {p : TpcPart} (hparts : s.dev.cnl.parts = [p]) (hid : p.id = keyOf key) (hvoted : p.vote.isSome = true) (hopen : p.decided = false)
    (hdue : 10000000 ≤ s.dev.elapsed p.askedAt (s.now t)) :
    Answers (.decideTimeout t key) s fun s' => ∃ d1 : Dev, s'.dev = d1.settleEnds (s.now t) ∧
      (p.rounds < 3 → d1.mem = s.dev.mem ∧ d1.cnl.parts = [{ p with rounds := p.rounds + 1, askedAt := s.now t }]) ∧
      (3 ≤ p.rounds → p.kind ≠ 0 → (p.kind = 3 → s.dev.splitReq p.subject p.arg = none) → d1.cnl.parts = []) := by
  have hexec : exec (.decideTimeout t key) s = execDecideTimeout t key s := rfl
  unfold execDecideTimeout at hexec
  have hfind : s.dev.cnl.parts.find? (fun q => q.id == keyOf key && q.vote.isSome && !q.decided) = some p := by simp [hparts, hid, hvoted, hopen]
  refine ⟨_, hexec, _, rfl, fun hrounds => ?_, fun hrounds hbind hreq => ?_⟩
  · unfold Dev.decideTimeout
    simp only [hfind, hrounds, if_true]
    rw [if_neg (Nat.not_lt.mpr hdue)]
    have hasks := PortsOnly.foldl (fun (d : Dev) m => PortsOnly.cnlSend (d := d) (s.now t) ftQuery m 0 (tpcBody (keyOf key) p.kind p.subject 0 0) [])
    rw [(hasks ..).mem, (hasks ..).parts, hparts]
    exact ⟨rfl, congrArg (fun q => [q]) (if_pos hid)⟩
  · unfold Dev.decideTimeout
    simp only [hfind, hbind, if_false]
    rw [if_neg (Nat.not_lt.mpr hdue), if_neg (Nat.not_lt.mpr hrounds)]
    have hsame : (if p.kind = 3 then (s.dev.splitReq p.subject p.arg).elim s.dev fun e => s.dev.decideReq (s.now t) e.1 false 0 else s.dev) = s.dev := by
      split
      · next hkind =>
        rw [hreq hkind]
        rfl
      · rfl
    rw [hsame, hparts]
    simp [hid]

/-! ### Training, retraining and timeouts of a port -/

/-- Of the registers, port p's status alone differs; memory and the power domains are as before (R403). -/
structure PortStatOnly (d e : Dev) (p : Nat) : Prop where
  rd : ∀ g, g ≠ r1 .cnlPortStat p → e.rd g = d.rd g
  mem : e.mem = d.mem
  pow : e.pow = d.pow

namespace PortStatOnly

variable {d e e' : Dev} {p : Nat}

theorem trans (a : PortStatOnly d e p) (b : PortStatOnly e e' p) : PortStatOnly d e' p := ⟨fun g hg => (b.rd g hg).trans (a.rd g hg), b.mem.trans a.mem, b.pow.trans a.pow⟩

theorem of_regs (hregs : e.regs = d.regs) (hmem : e.mem = d.mem) (hpow : e.pow = d.pow) : PortStatOnly d e p := ⟨fun _ _ => Dev.rd_of_regs hregs _, hmem, hpow⟩

theorem refl (d : Dev) (p : Nat) : PortStatOnly d d p := of_regs rfl rfl rfl

theorem sf (h : PortStatOnly d e p) (x : Fld) (n : Nat) : PortStatOnly d (e.sf (r1 .cnlPortStat p) x n) p := h.trans ⟨fun _ hg => Dev.rd_sf_ne hg, rfl, rfl⟩

theorem setCnl (h : PortStatOnly d e p) (c : CnlSt) : PortStatOnly d { e with cnl := c } p := h.trans (of_regs rfl rfl rfl)

theorem modCnl (h : PortStatOnly d e p) (q : Nat) (g : CnlPort → CnlPort) : PortStatOnly d (e.modCnl q g) p := h.setCnl _

theorem raise (h : PortStatOnly d e p) (x : Nat) : PortStatOnly d (e.raise x) p := h.trans (of_regs (Dev.raise_regs ..) (Dev.raise_mem ..) (Dev.raise_pow ..))

theorem almMc (h : PortStatOnly d e p) (kind sev now : Nat) (body : List Nat) : PortStatOnly d (e.almMc kind sev now body) p :=
  h.trans (of_regs (Dev.almPost_regs ..) (Dev.almPost_mem ..) (Dev.almPost_pow ..))

theorem cnlPump (h : PortStatOnly d e p) (now q : Nat) : PortStatOnly d (e.cnlPump now q) p :=
  h.trans (of_regs (PortsOnly.cnlPump ..).regs (PortsOnly.cnlPump ..).mem (PortsOnly.cnlPump ..).pow)

theorem on (h : PortStatOnly d e p) (pd : Nat) : e.on pd = d.on pd := congrArg (fun x : PowSt => x.on.contains pd) h.pow

end PortStatOnly

theorem Fld.ok_of_le {x : Fld} (h : x.lo + x.w ≤ 64) : x.ok := h

theorem Dev.rd_sf (d : Dev) (r : Reg) (x : Fld) (n : Nat) : (d.sf r x n).rd r = fput (d.rd r) x n := Dev.rd_wr ..

theorem Dev.portUp_iff {d : Dev} {p : Nat} : d.portUp p = true ↔ p < 2 ∧ d.on 165 = true ∧ d.fb (r1 .cnlPortStat p) F.cnlPortStat.UP = true := by simp [Dev.portUp, and_assoc]

theorem fget_lanes (v : Word) (lanes : Nat) : fget (fput v F.cnlPortStat.LANES (if lanes < 8 then 4 else 8)) F.cnlPortStat.LANES = if lanes < 8 then 4 else 8 := by
  rw [fget_fput _ (Fld.ok_of_le (by decide))]
  split <;> rfl

/-- The device once a port has retrained on its lanes and sends again (R403). -/
def Dev.retrained (d : Dev) (now p lanes : Nat) : Dev :=
  ((((d.sf (r1 .cnlPortStat p) F.cnlPortStat.RETRAINED 1).modCnl p fun x => { x with failures := 0, replaying := false, stuckAt := none }).raise (872 + p)).sf
    (r1 .cnlPortStat p) F.cnlPortStat.LANES (if lanes < 8 then 4 else 8)).cnlPump now p

theorem Dev.retrained_stat (d : Dev) (now p lanes : Nat) : PortStatOnly d (d.retrained now p lanes) p :=
  (((((PortStatOnly.refl d p).sf ..).modCnl ..).raise ..).sf ..).cnlPump ..

theorem Dev.retrained_rd (d : Dev) (now p lanes : Nat) : (d.retrained now p lanes).rd (r1 .cnlPortStat p) =
    fput (fput (d.rd (r1 .cnlPortStat p)) F.cnlPortStat.RETRAINED 1) F.cnlPortStat.LANES (if lanes < 8 then 4 else 8) := by
  unfold Dev.retrained
  rw [Dev.rd_of_regs (PortsOnly.cnlPump ..).regs, Dev.rd_sf, Dev.rd_of_regs (Dev.raise_regs ..)]
  exact congrArg (fput · _ _) (Dev.rd_sf ..)

theorem Dev.cnlPort_of_cnl {d e : Dev} (h : e.cnl = d.cnl) (p : Nat) : e.cnlPort p = d.cnlPort p := congrArg (fun c : CnlSt => tgetD c.ports p {}) h

theorem Dev.retrained_failures (d : Dev) (now p lanes : Nat) : ((d.retrained now p lanes).cnlPort p).failures = 0 := by
  refine (CnlPort.Sent.cnlPump ..).failures.trans ?_
  exact congrArg CnlPort.failures ((Dev.cnlPort_of_cnl (Dev.raise_cnl ..) p).trans (Dev.cnlPort_modCnl ..))

theorem canalRetrain_runs {s : State} {t port lanes : Nat} (hup : s.dev.portUp port = true) (hfailed : 4 ≤ (s.dev.cnlPort port).failures) (hlanes : 4 ≤ lanes) :
    Answers (.canalRetrain t port lanes) s fun s' => s'.dev.fb (r1 .cnlPortStat port) F.cnlPortStat.RETRAINED = true ∧ s'.dev.f (r1 .cnlPortStat port) F.cnlPortStat.LANES = (if lanes < 8 then 4 else 8) ∧
      s'.dev.portUp port = true ∧ (s'.dev.cnlPort port).failures = 0 ∧ (∀ g, g ≠ r1 .cnlPortStat port → s'.dev.rd g = s.dev.rd g) ∧ s'.dev.mem = s.dev.mem := by
  have hexec : exec (.canalRetrain t port lanes) s = execCanalRetrain t port lanes s := rfl
  unfold execCanalRetrain at hexec
  rw [State.run_eq, if_pos ⟨hup, hfailed⟩] at hexec
  dsimp only at hexec
  rw [if_neg (Nat.not_lt.mpr hlanes)] at hexec
  obtain ⟨hport, hon, hfb⟩ := Dev.portUp_iff.mp hup
  have hstat := s.dev.retrained_stat (s.now t) port lanes
  refine ⟨_, hexec, ?_, ?_, Dev.portUp_iff.mpr ⟨hport, (hstat.on 165).trans hon, ?_⟩, Dev.retrained_failures .., hstat.rd, hstat.mem⟩
  · refine congrArg (fget · F.cnlPortStat.RETRAINED == 1) (Dev.retrained_rd ..) |>.trans ?_
    rw [fget_fput_ne _ (Fld.ok_of_le (by decide)) (by decide), fget_fput _ (Fld.ok_of_le (by decide))]
    rfl
  · exact (congrArg (fget · F.cnlPortStat.LANES) (Dev.retrained_rd ..)).trans (fget_lanes ..)
  · refine congrArg (fget · F.cnlPortStat.UP == 1) (Dev.retrained_rd ..) |>.trans ?_
    rw [fget_fput_ne _ (Fld.ok_of_le (by decide)) (by decide), fget_fput_ne _ (Fld.ok_of_le (by decide)) (by decide)]
    exact hfb

/-- The interrupt sources of the two ports are assigned (R376). -/
theorem eicListed_canalPort {port : Nat} (h : port < 2) : eicListed (872 + port) = true := by
  obtain rfl | rfl : port = 0 ∨ port = 1 := by omega
  · decide
  · decide

theorem creditTimeout_retrains {s : State} {t port a : Nat} (hup : s.dev.portUp port = true) (hstuck : (s.dev.cnlPort port).stuckAt = some a) (hdue : 10000 ≤ s.dev.elapsed a (s.now t)) :
    Answers (.creditTimeout t port) s fun s' => s'.dev.fb (r1 .cnlPortStat port) F.cnlPortStat.CREDIT_TO = true ∧ 4 ≤ (s'.dev.cnlPort port).failures ∧ (s'.dev.cnlPort port).stuckAt = none ∧
      (s.dev.on 156 = true → s'.dev.eic.pend.contains (872 + port) = true) ∧ (∀ g, g ≠ r1 .cnlPortStat port → s'.dev.rd g = s.dev.rd g) ∧ s'.dev.mem = s.dev.mem := by
  have hexec : exec (.creditTimeout t port) s = execCreditTimeout t port s := rfl
  unfold execCreditTimeout at hexec
  simp only [State.run_eq, hstuck] at hexec
  rw [if_pos ⟨hup, hdue⟩] at hexec
  let r := r1 .cnlPortStat port
  let d1 := (s.dev.sf r F.cnlPortStat.CREDIT_TO 1).modCnl port fun x => { x with failures := max 4 x.failures, stuckAt := none }
  have hstat1 : PortStatOnly s.dev d1 port := ((PortStatOnly.refl s.dev port).sf ..).modCnl ..
  have hstat := hstat1.raise (872 + port)
  have hport : (d1.raise (872 + port)).cnlPort port = { s.dev.cnlPort port with failures := max 4 (s.dev.cnlPort port).failures, stuckAt := none } :=
    (Dev.cnlPort_of_cnl (Dev.raise_cnl ..) port).trans (Dev.cnlPort_modCnl ..)
  have htimeout : (d1.raise (872 + port)).fb r F.cnlPortStat.CREDIT_TO = true :=
    (Dev.fb_of_rd (Dev.rd_of_regs (Dev.raise_regs ..) r) _).trans (Dev.fb_sf s.dev r true (by decide) (by decide))
  have hfailures : 4 ≤ ((d1.raise (872 + port)).cnlPort port).failures := by
    rw [hport]
    exact Nat.le_max_left ..
  exact ⟨_, hexec, htimeout, hfailures, congrArg CnlPort.stuckAt hport, fun heic => Dev.raise_pend (eicListed_canalPort (Dev.portUp_iff.mp hup).1) ((hstat1.on 156).trans heic), hstat.rd, hstat.mem⟩

/-- The device once port p's peer and this module's index stand in its status (R399). -/
def Dev.peerSeen (d : Dev) (p peer : Nat) : Dev := (d.sf (r1 .cnlPortStat p) F.cnlPortStat.PEER (peer % 4)).sf (r1 .cnlPortStat p) F.cnlPortStat.MODULE d.own

theorem Dev.peerSeen_stat (d : Dev) (p peer : Nat) : PortStatOnly d (d.peerSeen p peer) p := ((PortStatOnly.refl d p).sf ..).sf ..

theorem Dev.peerSeen_up (d : Dev) (p peer : Nat) : (d.peerSeen p peer).fb (r1 .cnlPortStat p) F.cnlPortStat.UP = d.fb (r1 .cnlPortStat p) F.cnlPortStat.UP :=
  (Dev.fb_sf_ne _ (by decide) (by decide)).trans (Dev.fb_sf_ne _ (by decide) (by decide))

/-- The device once a port has come up on its lanes in a ring, its link state new (R399). -/
def Dev.portTrained (d : Dev) (p lanes ring : Nat) : Dev :=
  let r := r1 .cnlPortStat p
  let d1 := (((d.sf r F.cnlPortStat.INDEX_ERR 0).sf r F.cnlPortStat.UP 1).sf r F.cnlPortStat.LANES (if lanes < 8 then 4 else 8)).modCnl p fun _ => {}
  ({ d1 with cnl := { d1.cnl with ring := ring } } : Dev).raise (872 + p)

/-- The device where a port stays down, its peer's index breaking the rule (R399). -/
def Dev.indexRefused (d : Dev) (now p peer ring : Nat) : Dev := ((d.sf (r1 .cnlPortStat p) F.cnlPortStat.INDEX_ERR 1).almMc 0x051 2 now [p, peer, ring]).raise (872 + p)

theorem Dev.portTrained_stat (d : Dev) (p lanes ring : Nat) : PortStatOnly d (d.portTrained p lanes ring) p :=
  ((((((PortStatOnly.refl d p).sf ..).sf ..).sf ..).modCnl ..).setCnl _).raise _

theorem Dev.indexRefused_stat (d : Dev) (now p peer ring : Nat) : PortStatOnly d (d.indexRefused now p peer ring) p := (((PortStatOnly.refl d p).sf ..).almMc ..).raise ..

theorem Dev.portTrained_rd (d : Dev) (p lanes ring : Nat) : (d.portTrained p lanes ring).rd (r1 .cnlPortStat p) =
    fput (fput (fput (d.rd (r1 .cnlPortStat p)) F.cnlPortStat.INDEX_ERR 0) F.cnlPortStat.UP 1) F.cnlPortStat.LANES (if lanes < 8 then 4 else 8) := by
  refine (Dev.rd_of_regs (Dev.raise_regs ..) _).trans ((Dev.rd_sf ..).trans ?_)
  rw [Dev.rd_sf, Dev.rd_sf]

theorem Dev.portTrained_cnl (d : Dev) (p lanes ring : Nat) : (d.portTrained p lanes ring).cnl.ring = ring ∧ (d.portTrained p lanes ring).cnlPort p = {} := by
  unfold Dev.portTrained Dev.cnlPort
  dsimp only
  rw [Dev.raise_cnl]
  exact ⟨rfl, tgetD_tset ..⟩

theorem Dev.indexRefused_rd (d : Dev) (now p peer ring : Nat) : (d.indexRefused now p peer ring).rd (r1 .cnlPortStat p) = fput (d.rd (r1 .cnlPortStat p)) F.cnlPortStat.INDEX_ERR 1 :=
  (Dev.rd_of_regs (Dev.raise_regs ..) _).trans ((Dev.rd_of_regs (Dev.almPost_regs ..) _).trans (Dev.rd_sf ..))

theorem Dev.indexRefused_cnl (d : Dev) (now p peer ring : Nat) : (d.indexRefused now p peer ring).cnl = d.cnl := (Dev.raise_cnl ..).trans (Dev.almPost_cnl ..)

theorem canalPortTraining_eq {s : State} {t port lanes peer ring : Nat} (hport : port < 2) (hon : s.dev.on 165 = true) (hdown : s.dev.portUp port = false) :
    exec (.canalPortTraining t port lanes peer ring) s = s.run t fun now d =>
      if d.peerOk port peer ring = false then (d.peerSeen port peer).indexRefused now port peer ring
      else if lanes < 4 then (d.peerSeen port peer).sf (r1 .cnlPortStat port) F.cnlPortStat.INDEX_ERR 0
      else (d.peerSeen port peer).portTrained port lanes ring := by
  have hexec : exec (.canalPortTraining t port lanes peer ring) s = execCanalPortTraining t port lanes peer ring s := rfl
  unfold execCanalPortTraining at hexec
  rw [State.run_eq, if_neg (by simp [hport, hon, hdown])] at hexec
  exact hexec

theorem canalPortTraining_trains {s : State} {t port lanes peer ring : Nat} (hport : port < 2) (hon : s.dev.on 165 = true) (hdown : s.dev.portUp port = false) :
    Answers (.canalPortTraining t port lanes peer ring) s fun s' =>
      (s.dev.peerOk port peer ring = true → 4 ≤ lanes → s'.dev.portUp port = true ∧ s'.dev.f (r1 .cnlPortStat port) F.cnlPortStat.LANES = (if lanes < 8 then 4 else 8) ∧ s'.dev.cnl.ring = ring ∧
        s'.dev.cnlPort port = {}) ∧
      (s.dev.peerOk port peer ring = false → s'.dev.fb (r1 .cnlPortStat port) F.cnlPortStat.INDEX_ERR = true ∧ s'.dev.portUp port = false ∧ s'.dev.cnl = s.dev.cnl) ∧
      (∀ g, g ≠ r1 .cnlPortStat port → s'.dev.rd g = s.dev.rd g) ∧ s'.dev.mem = s.dev.mem := by
  have hseen := s.dev.peerSeen_stat port peer
  have hexec := canalPortTraining_eq (t := t) (lanes := lanes) (peer := peer) (ring := ring) hport hon hdown
  rw [State.run_eq] at hexec
  by_cases hpeer : s.dev.peerOk port peer ring = false
  · rw [if_pos hpeer] at hexec
    have hstat := hseen.trans (Dev.indexRefused_stat _ (s.now t) port peer ring)
    refine ⟨_, hexec, fun h => absurd (hpeer.symm.trans h) (by decide), fun _ => ⟨?_, ?_, Dev.indexRefused_cnl ..⟩, hstat.rd, hstat.mem⟩
    · unfold Dev.fb Dev.f
      rw [Dev.indexRefused_rd, fget_fput _ (Fld.ok_of_le (by decide))]
      rfl
    · have hup : ((s.dev.peerSeen port peer).indexRefused (s.now t) port peer ring).fb (r1 .cnlPortStat port) F.cnlPortStat.UP = s.dev.fb (r1 .cnlPortStat port) F.cnlPortStat.UP := by
        refine Eq.trans ?_ (s.dev.peerSeen_up port peer)
        unfold Dev.fb Dev.f
        rw [Dev.indexRefused_rd, fget_fput_ne _ (Fld.ok_of_le (by decide)) (by decide)]
      unfold Dev.portUp at hdown ⊢
      rw [hstat.on, hup]
      exact hdown
  · rw [if_neg hpeer] at hexec
    by_cases hlanes : lanes < 4
    · rw [if_pos hlanes] at hexec
      have hstat := hseen.sf F.cnlPortStat.INDEX_ERR 0
      exact ⟨_, hexec, fun _ h => absurd hlanes (Nat.not_lt.mpr h), fun h => absurd h hpeer, hstat.rd, hstat.mem⟩
    · rw [if_neg hlanes] at hexec
      have hstat := hseen.trans (Dev.portTrained_stat _ port lanes ring)
      obtain ⟨hring, hfresh⟩ := Dev.portTrained_cnl (s.dev.peerSeen port peer) port lanes ring
      refine ⟨_, hexec, fun _ _ => ⟨Dev.portUp_iff.mpr ⟨hport, (hstat.on 165).trans hon, ?_⟩, ?_, hring, hfresh⟩, fun h => absurd h hpeer, hstat.rd, hstat.mem⟩
      · unfold Dev.fb Dev.f
        rw [Dev.portTrained_rd, fget_fput_ne _ (Fld.ok_of_le (by decide)) (by decide), fget_fput _ (Fld.ok_of_le (by decide))]
        rfl
      · unfold Dev.f
        rw [Dev.portTrained_rd, fget_lanes]

/-- Settles O59: a flit in order serves the device that has acknowledged it, clause by clause; the port's own events change its status alone. -/
theorem canalCommands : Obligations.CanalCommands := by
  unfold Obligations.CanalCommands
  refine ⟨?_, ?_, ?_, ?_, ?_, ?_, ?_, ?_, ?_, ?_, ?_, ?_, ?_, ?_, ?_, ?_, ?_⟩
  · exact fun _ _ _ _ _ _ _ _ _ _ _ _ _ _ => data_lands
  · exact fun _ _ _ _ _ _ _ _ _ => credit_returns
  · exact fun _ _ _ _ _ _ => memRd_answers
  · exact fun _ _ _ _ _ _ => memWr_answers
  · exact fun _ _ _ _ _ _ _ _ _ _ => memCpl_answers
  · exact fun _ _ _ _ => ack_acknowledges
  · exact fun _ _ _ _ => nak_replays
  · exact fun _ _ _ _ => ptp_stamps
  · exact fun _ _ _ _ _ _ _ _ _ => prepare_votes
  · exact fun _ _ _ _ _ _ _ _ => vote_counts
  · exact fun _ _ _ _ _ _ => decide_applies
  · exact fun _ _ _ _ _ _ => query_answers
  · exact fun _ _ _ _ _ => done_counts
  · exact fun _ _ _ _ => decideTimeout_asks
  · exact fun _ _ _ _ => canalRetrain_runs
  · exact fun _ _ _ _ => creditTimeout_retrains
  · exact fun _ _ _ _ _ _ => canalPortTraining_trains

end Sys2Proof.Machine

/-! ## O30: floating elements decoded and encoded back -/

namespace Sys2Proof.Machine

/-! ### The fields of an element -/

theorem b2n_eq_toNat (b : Bool) : b2n b = b.toNat := by cases b <;> rfl

/-- The highest bit is what is left above the others. -/
theorem b2n_bit_top {v k : Nat} (hv : v < 2 ^ (k + 1)) : b2n (bit v k) = v / 2 ^ k := by
  have htop : v / 2 ^ k < 2 := Nat.div_lt_of_lt_mul hv
  rw [b2n_eq_toNat, bit, Nat.toNat_testBit, Nat.mod_eq_of_lt htop]

/-- Sign, exponent and mantissa make up the element (R144). -/
theorem Layout.pack_fields (l : Layout) {v : Nat} (hv : v < 2 ^ (l.eb + l.mb + 1)) :
    l.pack (bit v (l.eb + l.mb)) (bits v l.mb l.eb) (bits v 0 l.mb) = v := by
  have hmant : bits v 0 l.mb = v % 2 ^ l.mb := by simp [bits]
  unfold Layout.pack
  rw [b2n_bit_top hv, hmant, bits, Nat.add_comm l.eb, Nat.pow_add, ← Nat.div_div_eq_div_mul]
  calc v / 2 ^ l.mb / 2 ^ l.eb * (2 ^ l.mb * 2 ^ l.eb) + v / 2 ^ l.mb % 2 ^ l.eb * 2 ^ l.mb + v % 2 ^ l.mb
      = (2 ^ l.eb * (v / 2 ^ l.mb / 2 ^ l.eb) + v / 2 ^ l.mb % 2 ^ l.eb) * 2 ^ l.mb + v % 2 ^ l.mb := by ring
    _ = v := by rw [Nat.div_add_mod, Nat.div_add_mod']

/-! ### Rounding leaves what the layout holds -/

/-- In its own unit a value is whole. -/
theorem quantise_self (m : Nat) (e : Int) (rnd : Option Nat) : quantise m e e rnd = m := by simp [quantise]

theorem binade_normal {mb m : Nat} (hm : m < 2 ^ mb) (e : Int) : binade (2 ^ mb + m) e = mb + e := by
  have hlog : Nat.log2 (2 ^ mb + m) = mb := (Nat.log2_eq_iff (by omega)).mpr ⟨by omega, by rw [Nat.pow_succ]; omega⟩
  rw [binade, hlog]

theorem binade_subnormal_lt {mb m : Nat} (h0 : m ≠ 0) (hm : m < 2 ^ mb) (e : Int) : binade m e < mb + e := by
  have hlog : Nat.log2 m < mb := (Nat.log2_lt h0).mpr hm
  unfold binade
  omega

theorem Layout.encode_subnormal (l : Layout) (rnd : Option Nat) (sat s : Bool) {m : Nat} (hm : m < 2 ^ l.mb) :
    l.encode rnd sat (.fin s m (1 - l.bias - l.mb)) = l.pack s 0 m := by
  by_cases h0 : m = 0
  · simp [Layout.encode, h0]
  · have hunit : max (binade m (1 - l.bias - l.mb)) (1 - (l.bias : Int)) - l.mb = 1 - l.bias - l.mb := by
      have := binade_subnormal_lt h0 hm (1 - l.bias - l.mb)
      omega
    have hcarry : ¬ 2 ^ (l.mb + 1) ≤ m := by rw [Nat.pow_succ]; omega
    simp only [Layout.encode, hunit, quantise_self, if_neg h0, if_neg hcarry, if_pos hm]

theorem Layout.encode_normal (l : Layout) (rnd : Option Nat) (sat s : Bool) {ex m : Nat} (hex : ex ≠ 0) (hm : m < 2 ^ l.mb)
    (htop : ¬ (l.topExp < ex ∨ (ex = l.topExp ∧ l.topMant < m))) :
    l.encode rnd sat (.fin s (2 ^ l.mb + m) (ex - l.bias - l.mb)) = l.pack s ex m := by
  have hunit : max (binade (2 ^ l.mb + m) (ex - l.bias - l.mb)) (1 - (l.bias : Int)) - l.mb = ex - l.bias - l.mb := by
    rw [binade_normal hm]
    omega
  have h0 : 2 ^ l.mb + m ≠ 0 := by have := Nat.two_pow_pos l.mb; omega
  have hcarry : ¬ 2 ^ (l.mb + 1) ≤ 2 ^ l.mb + m := by rw [Nat.pow_succ]; omega
  have hexp : ((ex : Int) - l.bias - l.mb + l.mb + l.bias).toNat = ex := by omega
  simp only [Layout.encode, hunit, quantise_self, if_neg h0, if_neg hcarry, if_neg (Nat.not_lt.mpr (Nat.le_add_right ..)), hexp,
    Nat.add_sub_cancel_left, if_neg htop]

theorem Layout.encode_inf (l : Layout) (rnd : Option Nat) (s : Bool) (hieee : l.special = 1) :
    l.encode rnd false (.inf s) = l.pack s (2 ^ l.eb - 1) 0 := by simp [Layout.encode, Layout.overflow, hieee]

/-- Fields that stand for no infinity and no NaN are at most those of the largest finite value. -/
theorem Layout.fields_le_top (l : Layout) {ex m : Nat} (hex : ex < 2 ^ l.eb) (hm : m < 2 ^ l.mb)
    (hieee : ¬ (l.special = 1 ∧ ex = 2 ^ l.eb - 1)) (hnan : ¬ (l.special = 2 ∧ ex = 2 ^ l.eb - 1 ∧ m = 2 ^ l.mb - 1)) :
    ¬ (l.topExp < ex ∨ (ex = l.topExp ∧ l.topMant < m)) := by
  unfold Layout.topExp Layout.topMant
  split <;> split <;> omega

/-! ### The round trip -/

/-- An element of any layout that is no NaN is encoded back unchanged, whatever the rounding, where infinities do not saturate (R144, R167). -/
theorem Layout.encode_decode (l : Layout) (rnd : Option Nat) {v : Nat} (hv : v < 2 ^ (l.eb + l.mb + 1)) (hnan : l.decode v ≠ .nan) :
    l.encode rnd false (l.decode v) = v := by
  have hex : bits v l.mb l.eb < 2 ^ l.eb := Nat.mod_lt _ (Nat.two_pow_pos _)
  have hm : bits v 0 l.mb < 2 ^ l.mb := Nat.mod_lt _ (Nat.two_pow_pos _)
  have hpack := l.pack_fields hv
  unfold Layout.decode at hnan ⊢
  dsimp only at hnan ⊢
  split at hnan
  case isTrue hieee =>
    split at hnan
    case isTrue hzero =>
      rw [hieee.2, hzero] at hpack
      rwa [if_pos hieee, if_pos hzero, l.encode_inf rnd _ hieee.1]
    case isFalse => exact absurd rfl hnan
  case isFalse hieee =>
    split at hnan
    case isTrue => exact absurd rfl hnan
    case isFalse hones =>
      rw [if_neg hieee, if_neg hones]
      split
      case isTrue hsub =>
        rw [hsub] at hpack
        rwa [l.encode_subnormal rnd false _ hm]
      case isFalse hnorm => rwa [l.encode_normal rnd false _ hnorm hm (l.fields_le_top hex hm hieee hones)]

/-- Settles O30: the round trip of every layout, for that of binary32. -/
theorem binary32RoundTrip : Obligations.Binary32RoundTrip := by
  unfold Obligations.Binary32RoundTrip
  exact fun _ hv hnan => fp32.encode_decode none hv hnan

end Sys2Proof.Machine

/-! ## O44: parts of the sluice start and land -/

namespace Sys2Proof.Machine

/-! ### Where places lie, and what stands there -/

/-- The registers that map logical basins to physical ones (R135). -/
def RegName.isRepair (x : RegName) : Bool := x == .pbuFabRepairLo || x == .pbuFabRepairHi

/-- The same bytes at the same places: memory and flash, the objects and requests whose places they are, and where the basins' stores lie. -/
structure SamePlaces (d e : Dev) : Prop where
  mem : e.mem = d.mem
  flash : e.slu.flash = d.slu.flash
  objs : e.slu.objs = d.slu.objs
  reqs : e.slu.reqs = d.slu.reqs
  basins : e.fab.basins = d.fab.basins
  saved : e.fab.saved = d.fab.saved
  areas : ∀ c, (e.ctx? c).map Ctx.saveArea = (d.ctx? c).map Ctx.saveArea
  repair : KeepsRegs RegName.isRepair d e

namespace SamePlaces

variable {d e f : Dev}

theorem refl (d : Dev) : SamePlaces d d := ⟨rfl, rfl, rfl, rfl, rfl, rfl, fun _ => rfl, .refl _ d⟩

theorem trans (a : SamePlaces d e) (b : SamePlaces e f) : SamePlaces d f :=
  ⟨b.mem.trans a.mem, b.flash.trans a.flash, b.objs.trans a.objs, b.reqs.trans a.reqs, b.basins.trans a.basins, b.saved.trans a.saved,
    fun c => (b.areas c).trans (a.areas c), a.repair.trans b.repair⟩

/-- An update beside memory, the sluice and the fabric. -/
theorem of_regs (hm : e.mem = d.mem) (hs : e.slu = d.slu) (hf : e.fab = d.fab) (hr : KeepsRegs RegName.isRepair d e) : SamePlaces d e :=
  ⟨hm, by rw [hs], by rw [hs], by rw [hs], by rw [hf], by rw [hf], fun c => by unfold Dev.ctx?; rw [hf], hr⟩

theorem storeAddr (h : SamePlaces d e) (l : Nat) : e.storeAddr l = d.storeAddr l := by
  have hrepair (col : Nat) : e.repairByte col = d.repairByte col := by
    unfold Dev.repairByte
    rw [Dev.rn_of_rd (h.repair.rd _ rfl), Dev.rn_of_rd (h.repair.rd _ rfl)]
  unfold Dev.storeAddr Dev.physical
  rw [hrepair]

theorem storeOf (h : SamePlaces d e) (c l : Nat) : e.storeOf c l = d.storeOf c l := by
  have hbasin : e.basin? l = d.basin? l := by unfold Dev.basin?; rw [h.basins]
  have harea := h.areas c
  unfold Dev.storeOf
  rw [hbasin, h.saved, h.storeAddr]
  cases hd : d.ctx? c with
  | none =>
    rw [hd, Option.map_none, Option.map_eq_none_iff] at harea
    rw [harea]
  | some x =>
    rw [hd, Option.map_some, Option.map_eq_some_iff] at harea
    obtain ⟨y, hy, hxy⟩ := harea
    rw [hy]
    cases (tgetD d.fab.saved c []).findIdx? fun e => e.1 == l <;> simp only [hxy]

theorem pieces (h : SamePlaces d e) (l : Loc) (off n : Nat) : e.pieces l off n = d.pieces l off n := by
  unfold Dev.pieces
  simp only [h.storeOf]

theorem locSlice (h : SamePlaces d e) (l : Loc) (off n : Nat) : e.locSlice l off n = d.locSlice l off n := by
  unfold Dev.locSlice
  rw [h.pieces, h.mem, h.flash]

theorem locBytes (h : SamePlaces d e) (l : Loc) (off n : Nat) : e.locBytes l off n = d.locBytes l off n := by
  unfold Dev.locBytes
  rw [h.locSlice]

theorem tileSource (h : SamePlaces d e) (i tile : Nat) : e.tileSource i tile = d.tileSource i tile := by
  unfold Dev.tileSource
  simp only [h.objs, h.reqs, h.locBytes]

theorem packOf (h : SamePlaces d e) (x : Desc) : e.packOf x = d.packOf x := by
  unfold Dev.packOf
  rw [h.tileSource, h.locBytes]

theorem touched (h : SamePlaces d e) (t a n : Nat) : e.touched t a n = d.touched t a n := by
  unfold Dev.touched
  simp only [h.objs, h.pieces]

end SamePlaces

/-! ### Charges leave the sluice and its places -/

/-- Beside what `Paid` says: the sluice and the contexts' save areas are as before a charge. -/
structure Spent (d e : Dev) : Prop where
  slu : e.slu = d.slu
  areas : ∀ c, (e.ctx? c).map Ctx.saveArea = (d.ctx? c).map Ctx.saveArea

namespace Spent

variable {d e f : Dev}

theorem refl (d : Dev) : Spent d d := ⟨rfl, fun _ => rfl⟩

theorem trans (a : Spent d e) (b : Spent e f) : Spent d f := ⟨b.slu.trans a.slu, fun c => (b.areas c).trans (a.areas c)⟩

theorem of_fab (hs : e.slu = d.slu) (hf : e.fab = d.fab) : Spent d e := ⟨hs, fun c => by unfold Dev.ctx?; rw [hf]⟩

theorem ite {c : Prop} [Decidable c] {e e' : Dev} (h : Spent d e) (h' : Spent d e') : Spent d (if c then e else e') := by
  split <;> assumption

theorem foldl {α : Type} {g : Dev → α → Dev} (h : ∀ d a, Spent d (g d a)) (l : List α) (d : Dev) : Spent d (l.foldl g d) :=
  List.foldlRecOn l g (motive := Spent d) (refl d) fun _ hd a _ => hd.trans (h _ a)

theorem wn (d : Dev) (r : Reg) (n : Nat) : Spent d (d.wn r n) := of_fab rfl rfl

theorem gate (now c k : Nat) : Spent d (d.gate now c k) := by
  refine ⟨rfl, fun i => ?_⟩
  show (tget (tmap d.fab.ctxs fun e x => if d.ctxState e == 3 && d.paidIn c k e x then { x with away := true } else x) i).map Ctx.saveArea = _
  rw [tget_tmap, Option.map_map]
  refine congrArg (Option.map · _) (funext fun x => ?_)
  dsimp only [Function.comp]
  split <;> rfl

theorem overrunClass (c : Nat) : Spent d (d.overrunClass c) := by
  refine of_fab ?_ ?_
  · unfold Dev.overrunClass
    rw [Dev.raise_slu]
    dsimp only
    split <;> rfl
  · unfold Dev.overrunClass
    rw [Dev.raise_fab]
    dsimp only
    split <;> rfl

theorem donorExhausted (now dn k : Nat) : Spent d (d.donorExhausted now dn k) :=
  ((overrunClass dn).trans (gate ..)).trans (foldl (fun d _ => ite (gate ..) (refl d)) _ _)

theorem drawDonor (now c k rest : Nat) : Spent d (d.drawDonor now c k rest) := by
  unfold Dev.drawDonor
  extract_lets dn r fresh mine others given left next d0 d1 d2
  have h0 : Spent d d0 := foldl (fun _ _ => wn ..) _ d
  have h1 : Spent d0 d1 := of_fab rfl rfl
  have h2 : Spent d1 d2 := by
    refine foldl (fun d x => ?_) _ d1
    exact .trans (e := d.addUsed x.cls k (x.rest - x.got)) (of_fab rfl rfl) (ite (ite (refl _) (of_fab rfl rfl)) (of_fab rfl rfl))
  exact ((h0.trans h1).trans h2).trans (of_fab rfl rfl)

theorem chargeNow (now c k n : Nat) : Spent d (d.chargeNow now c k n) := by
  have hused (d : Dev) (c n : Nat) : Spent d (d.addUsed c k n) := of_fab rfl rfl
  unfold Dev.chargeNow
  extract_lets was
  split
  · exact (hused ..).trans (ite (overrunClass ..) (refl _))
  · split
    · next own rest d1 dOver d2 dn dnWas d3 _ _ =>
      have h2 : Spent d d2 := (hused ..).trans (ite ((overrunClass c).trans (ite (gate ..) (refl _))) (refl d1))
      have h3 : Spent d2 d3 := drawDonor ..
      exact ite h2 ((h2.trans h3).trans (ite (donorExhausted ..) (refl _)))
    · exact (hused ..).trans (ite (donorExhausted ..) (refl _))

theorem charge (now c k n : Nat) : Spent d (d.charge now c k n) := by
  unfold Dev.charge
  exact ite (of_fab rfl rfl) (chargeNow ..)

end Spent

theorem Dev.charge_samePlaces (d : Dev) (now c k n : Nat) : SamePlaces d (d.charge now c k n) := by
  have hp : Paid d (d.charge now c k n) := d.charge_paid ..
  have hs : Spent d (d.charge now c k n) := .charge ..
  refine ⟨hp.mem, by rw [hs.slu], by rw [hs.slu], by rw [hs.slu], hp.basins, hp.saved, hs.areas, ⟨fun r hr => hp.regs.rd r ?_⟩⟩
  unfold RegName.isRepair at hr
  unfold RegName.isBeyondCharge
  grind

end Sys2Proof.Machine

namespace Sys2Proof.Machine

/-! ### Bytes issued, pages pinned, notes of a landing -/

theorem Dev.issueBytes_samePlaces (now cls : Nat) (ks : List Nat) : ∀ (k n : Nat) (d : Dev), SamePlaces d (d.issueBytes now cls ks k n).2
  | 0, _, d => .refl d
  | k + 1, n, d => by
    unfold Dev.issueBytes
    split
    · exact .refl d
    · exact .trans (List.foldlRecOn ks _ (motive := SamePlaces d) (.refl d) fun _ h _ _ => h.trans (Dev.charge_samePlaces ..)) (issueBytes_samePlaces ..)

theorem Dev.issueBytes_paid (now cls : Nat) (ks : List Nat) : ∀ (k n : Nat) (d : Dev), Paid d (d.issueBytes now cls ks k n).2
  | 0, _, d => .refl d
  | k + 1, n, d => by
    unfold Dev.issueBytes
    split
    · exact .refl d
    · exact .trans (.foldl (fun d _ => d.charge_paid ..) ks d) (issueBytes_paid ..)

theorem Dev.landNotes_samePlaces (d : Dev) (n : Landing) : SamePlaces d (d.landNotes n) :=
  .of_regs rfl rfl rfl (((KeepsRegs.sf _ _ rfl).trans (.sf _ _ rfl)).trans (.sf _ _ rfl))

theorem SamePlaces.with_kv (d : Dev) (k : KvSt) : SamePlaces d { d with kv := k } := .of_regs rfl rfl rfl (.of_regs rfl)

theorem Dev.formatFault_samePlaces (d : Dev) (now : Nat) (b : List Nat) :
    SamePlaces d (((d.sf (r0 .kvStat) F.kvStat.FMT_FAULT 1).raise 209).almMc 0x053 2 now b) :=
  .of_regs (by simp) (by simp) (by simp) ((KeepsRegs.sf (r := r0 .kvStat) F.kvStat.FMT_FAULT 1 rfl).trans (.of_regs (by simp)))

theorem Dev.kvPin_samePlaces (d : Dev) (now r : Nat) : SamePlaces d (d.kvPin now r) := by
  unfold Dev.kvPin
  split
  case h_2 => exact .refl d
  case h_1 =>
    refine List.foldlRecOn _ _ (motive := SamePlaces d) (.refl d) fun e he i _ => he.trans ?_
    extract_lets slot
    split
    case h_2 => exact .refl e
    case h_1 s g _ _ =>
      extract_lets d1
      have h1 : SamePlaces e d1 := by
        unfold d1
        split
        · exact .refl e
        · exact .with_kv e _
      split
      · exact h1
      · exact (h1.trans (.with_kv d1 _)).trans (Dev.formatFault_samePlaces ..)

/-! ### Parts on an engine -/

theorem Dev.partsOn_of_reqs {d e : Dev} (h : e.slu.reqs = d.slu.reqs) (eng : Nat) (st : PartState) : e.partsOn eng st = d.partsOn eng st := by
  unfold Dev.partsOn
  rw [h]

theorem Dev.mem_partsOn {d : Dev} {eng r : Nat} {st : PartState} {p : Part} :
    (r, p) ∈ d.partsOn eng st ↔ ∃ x, (r, x) ∈ d.slu.reqs ∧ p ∈ x.parts ∧ p.engine = eng ∧ p.state = st := by
  simp [Dev.partsOn, and_assoc]

theorem Dev.mem_partsOn_of_tget {d : Dev} {eng r : Nat} {x : SluReq} {p : Part} (hx : tget d.slu.reqs r = some x) (hp : p ∈ x.parts) (he : p.engine = eng) :
    (r, p) ∈ d.partsOn eng p.state :=
  mem_partsOn.2 ⟨x, mem_of_tget hx, hp, he, rfl⟩

/-- A change of a request that brings no part into a state on an engine leaves the engine without such parts. -/
theorem Dev.partsOn_modReq_nil {d : Dev} {eng : Nat} {st : PartState} (h : d.partsOn eng st = []) (r : Nat) {f : SluReq → SluReq}
    (hf : ∀ x, ∀ p ∈ (f x).parts, p.engine = eng → p.state = st → ∃ q ∈ x.parts, q.engine = eng ∧ q.state = st) : (d.modReq r f).partsOn eng st = [] := by
  refine List.eq_nil_iff_forall_not_mem.2 fun e he => ?_
  obtain ⟨y, hy, hp, heng, hst⟩ := mem_partsOn.1 he
  obtain ⟨a, ha, hay⟩ := List.mem_map.1 (show (e.1, y) ∈ tmod d.slu.reqs r f from hy)
  have hnone : ∀ q ∈ a.2.parts, ¬ (q.engine = eng ∧ q.state = st) := fun q hq hq' =>
    List.eq_nil_iff_forall_not_mem.1 h (a.1, q) (mem_partsOn.2 ⟨a.2, ha, hq, hq'⟩)
  split at hay
  · obtain ⟨-, rfl⟩ := Prod.mk.inj hay
    obtain ⟨q, hq, hq'⟩ := hf _ _ hp heng hst
    exact hnone q hq hq'
  · subst hay
    exact hnone _ hp ⟨heng, hst⟩

/-- An engine none of whose parked parts may go on resumes none (R192). -/
theorem Dev.resumeParked_of_gated {d : Dev} {eng : Nat} (h : ∀ e ∈ d.partsOn eng .parked, d.partGated e.2 = true) (now : Nat) : d.resumeParked now eng = d := by
  have hnone : ((d.partsOn eng .parked).find? fun e => !d.partGated e.2) = none :=
    List.find?_eq_none.2 fun e he => by simp [h e he]
  unfold Dev.resumeParked
  rw [hnone]
  split <;> rfl

/-- A part of the page table waits for no room: none is let in (R191). -/
theorem Dev.admitHeld_of_noneWaits {d : Dev} {eng : Nat} (h : noneWaits d eng) : d.admitHeld eng = d := by
  unfold Dev.admitHeld
  extract_lets waits
  have hnone : waits = none := by
    refine List.find?_eq_none.2 fun e he => ?_
    split
    · next hp => exact absurd hp (h e he _ _ _)
    · simp
  rw [hnone]

end Sys2Proof.Machine

namespace Sys2Proof.Machine

/-! ### The lock of an object nobody waits for -/

theorem Dev.syncEngines_slu (d : Dev) : d.syncEngines.slu = d.slu :=
  List.foldlRecOn _ _ (motive := fun (e : Dev) => e.slu = d.slu) rfl fun _ h _ _ => h

/-- A lock that nobody waits for is just let go (R187). -/
theorem Dev.unlock_of_free {d : Dev} {i : Nat} {o : Obj} (ho : tget d.slu.objs i = some o) (hq : o.queue = []) (now k : Nat) :
    d.unlock now i k = d.modObj i fun o => { o with lock := none } := by
  cases k with
  | zero => rfl
  | succ k =>
    unfold Dev.unlock
    dsimp only
    rw [Dev.tget_modObj_self ho]
    dsimp only
    rw [hq]

/-- A request lets go of an object that no other waits for: no request changes (R187). -/
theorem Dev.unlockOf_reqs {d : Dev} {r : Nat} {making : Option (Nat × Nat)}
    (h : ∀ i tier o, making = some (i, tier) → tget d.slu.objs i = some o → o.lock = some r → o.queue = []) (now : Nat) :
    (d.unlockOf now r making).slu.reqs = d.slu.reqs := by
  unfold Dev.unlockOf
  split
  case h_2 => rfl
  case h_1 i tier =>
    split
    case isFalse => rfl
    case isTrue hl =>
      obtain ⟨o, ho, hol⟩ := Option.bind_eq_some_iff.1 hl
      rw [Dev.unlock_of_free ho (h i tier o rfl ho hol), Dev.modObj_reqs]

/-! ### An engine starts a part -/

/-- A fold that keeps the better of two finds the candidate that ranks before each other one. -/
theorem foldl_eq_first {α : Type} {g : Option α → α → Option α} {better : α → α → Bool} {l : List α} {a : α} (ha : a ∈ l)
    (h : ∀ e ∈ l, e = a ∨ (better a e = true ∧ better e a = false)) (hnone : ∀ e, g none e = some e)
    (hsome : ∀ b e, g (some b) e = if better e b then some e else some b) : l.foldl g none = some a := by
  have key : ∀ (l : List α) (m : Option α), (∀ e ∈ l, e = a ∨ (better a e = true ∧ better e a = false)) → (∀ b, m = some b → b = a ∨ better a b = true) →
      a ∈ l ∨ m = some a → l.foldl g m = some a := by
    intro l
    induction l with
    | nil => exact fun m _ _ hm => hm.resolve_left List.not_mem_nil
    | cons e l ih =>
      intro m hl hm ham
      rw [List.foldl_cons]
      have he := hl e (List.mem_cons_self ..)
      refine ih _ (fun x hx => hl x (List.mem_cons_of_mem _ hx)) (fun b hb => ?_) ?_
      · cases m <;> grind
      · cases m <;> grind
  exact key l none h (by simp) (.inl ha)

/-- An idle engine that lets in, parks and resumes nothing starts its first-ranked part, at most one in 64 ns (R191). -/
theorem Dev.descriptorStart_of_first {d : Dev} {now eng : Nat} {a : Nat × Part} (hidle : d.runningPart eng = none) (hwait : noneWaits d eng)
    (hpark : ∀ e ∈ d.partsOn eng .parked, d.partGated e.2 = true) (hgap : thas d.slu.lastStart eng = false ∨ 64 ≤ d.elapsed (tgetD d.slu.lastStart eng 0) now)
    (ha : a ∈ d.partsOn eng .queued) (hopen : d.gated (d.partPayer a.2) 7 = false)
    (hfirst : ∀ e ∈ d.partsOn eng .queued, d.gated (d.partPayer e.2) 7 = false → e = a ∨ (d.rankFirst a e = true ∧ d.rankFirst e a = false)) :
    d.descriptorStart now eng = d.startPart now a.1 a.2 := by
  have hgap' : ¬(d.elapsed (tgetD d.slu.lastStart eng 0) now < 64 ∧ thas d.slu.lastStart eng = true) := by
    rintro ⟨hlt, hhas⟩
    rcases hgap with h | h
    · rw [h] at hhas; cases hhas
    · omega
  unfold Dev.descriptorStart
  rw [admitHeld_of_noneWaits hwait]
  dsimp only
  rw [hidle]
  dsimp only
  rw [resumeParked_of_gated hpark, hidle, if_neg (by simp), if_neg hgap', foldl_eq_first (better := d.rankFirst) (a := a) ?_ ?_ ?_ ?_]
  · exact List.mem_filter.2 ⟨ha, by simp [hopen]⟩
  · intro e he
    obtain ⟨hmem, hgate⟩ := List.mem_filter.1 he
    exact hfirst e hmem (by simpa using hgate)
  · exact fun _ => rfl
  · exact fun _ _ => rfl

/-- The engine and the class of a part that starts are charged, its start is noted, and what it reads is pinned. -/
def Dev.startCharged (d : Dev) (now r : Nat) (p : Part) : Dev :=
  let d1 := d.charge now (d.partPayer p) 7 1
  ({ d1 with slu := { d1.slu with lastStart := tset d1.slu.lastStart p.engine now } }).kvPin now r

theorem Dev.startCharged_samePlaces (d : Dev) (now r : Nat) (p : Part) : SamePlaces d (d.startCharged now r p) := by
  have hnote (e : Dev) (t : Tbl Nat) : SamePlaces e { e with slu := { e.slu with lastStart := t } } := ⟨rfl, rfl, rfl, rfl, rfl, rfl, fun _ => rfl, .of_regs rfl⟩
  exact ((d.charge_samePlaces ..).trans (hnote _ _)).trans (Dev.kvPin_samePlaces ..)

/-- Starting notes the engine's last start. -/
theorem Dev.startCharged_lastStart (d : Dev) (now r : Nat) (p : Part) : tget (d.startCharged now r p).slu.lastStart p.engine = some now := by
  have hpin (e : Dev) : (e.kvPin now r).slu = e.slu := by
    unfold Dev.kvPin
    split
    case h_2 => rfl
    case h_1 =>
      refine List.foldlRecOn _ _ (motive := fun (x : Dev) => x.slu = e.slu) rfl fun x hx i _ => Eq.trans ?_ hx
      extract_lets slot
      split
      case h_2 => rfl
      case h_1 s g _ _ =>
        extract_lets d1
        have h1 : d1.slu = x.slu := by
          unfold d1
          split <;> rfl
        split
        · exact h1
        · simp [h1]
  unfold Dev.startCharged
  rw [hpin]
  exact tget_tset ..

/-- A request's first part with a bad header cuts the request off (R189). -/
theorem Dev.startPart_of_bad {d : Dev} {r : Nat} {x : SluReq} {p : Part} (now : Nat) (hx : tget d.slu.reqs r = some x) (hop : p.desc.op = 0) (hsrc : p.desc.entrySrc = false)
    (hfirst : (x.parts.all fun q => q.startAt == 0) = true) (hbad : packOk (d.packOf p.desc) = false) :
    d.startPart now r p = (((d.startCharged now r p).modReq r fun x => { x.cut .badConfig with lastEngine := p.engine }).syncEngines).unlockOf now r x.making := by
  unfold Dev.startPart
  rw [hx]
  exact if_pos ⟨hop, hsrc, hfirst, by rw [← (d.startCharged_samePlaces now r p).packOf] at hbad; exact hbad⟩

/-- The staging of a copy whose first part starts takes the pack's header, or what the overwritten place holds (R189, R203). -/
def Dev.stageHead (d : Dev) (x : SluReq) (p : Part) : Dev :=
  match x.stage with
  | some (l, n) =>
    if (x.parts.all fun q => q.startAt == 0) = false then d
    else if x.rewrites then
      (match x.making.bind fun m => (tget d.slu.objs m.1).bind fun o => o.copy m.2 with
       | some c => d.locPut l 0 n (d.locSlice c 0 n)
       | none => d)
    else if p.desc.op = 0 then d.locPut l 0 (packHead (Pack.parse (d.packOf p.desc)).tiles) (Memory.relOf 0 (d.packOf p.desc)) else d
  | none => d

/-- Any other part runs from now on (R191). -/
theorem Dev.startPart_of_good {d : Dev} {r : Nat} {x : SluReq} {p : Part} (now : Nat) (hx : tget d.slu.reqs r = some x)
    (hgood : p.desc.op = 0 → p.desc.entrySrc = false → (x.parts.all fun q => q.startAt == 0) = true → packOk (d.packOf p.desc) = true) :
    d.startPart now r p =
      (((d.startCharged now r p).stageHead x p).modPart r p.index fun p => { p with state := .running, startAt := max 1 now }).syncEngine p.engine := by
  unfold Dev.startPart
  rw [hx]
  refine if_neg ?_
  rintro ⟨hop, hsrc, hfirst, hbad⟩
  have hok := hgood hop hsrc hfirst
  rw [← (d.startCharged_samePlaces now r p).packOf] at hok
  exact Bool.false_ne_true (hbad.symm.trans hok)

theorem Dev.stageHead_flash (d : Dev) (x : SluReq) (p : Part) : ∃ mem flash, d.stageHead x p = { d with mem := mem, slu := { d.slu with flash := flash } } := by
  unfold Dev.stageHead
  split
  · split
    · exact ⟨_, _, rfl⟩
    · split
      · split
        · exact Dev.locPut_flash ..
        · exact ⟨_, _, rfl⟩
      · split
        · exact Dev.locPut_flash ..
        · exact ⟨_, _, rfl⟩
  · exact ⟨_, _, rfl⟩

theorem Dev.stageHead_reqs (d : Dev) (x : SluReq) (p : Part) : (d.stageHead x p).slu.reqs = d.slu.reqs := by
  obtain ⟨mem, flash, h⟩ := d.stageHead_flash x p
  rw [h]

theorem Dev.stageHead_lastStart (d : Dev) (x : SluReq) (p : Part) : (d.stageHead x p).slu.lastStart = d.slu.lastStart := by
  obtain ⟨mem, flash, h⟩ := d.stageHead_flash x p
  rw [h]

theorem Dev.tget_modPart {d : Dev} {r : Nat} {x : SluReq} (hx : tget d.slu.reqs r = some x) (index : Nat) (f : Part → Part) :
    tget (d.modPart r index f).slu.reqs r = some { x with parts := x.parts.map fun p => if p.index = index then f p else p } :=
  Dev.tget_modReq hx _

/-- After a change of the parts of an index, each part of that index is a changed one. -/
theorem mem_map_index {l : List Part} {index : Nat} {f : Part → Part} {q : Part}
    (hq : q ∈ l.map fun p => if p.index = index then f p else p) (hi : q.index = index) : ∃ p ∈ l, p.index = index ∧ q = f p := by
  obtain ⟨p, hp, rfl⟩ := List.mem_map.1 hq
  by_cases h : p.index = index
  · exact ⟨p, hp, h, if_pos h⟩
  · rw [if_neg h] at hi
    exact absurd hi h

/-- A part that starts is the running one of its index, and its engine has started something (R191). -/
theorem descriptorStart_starts {s : State} {t eng r : Nat} {x : SluReq} {p : Part} (hon : s.dev.sluiceOn eng = true)
    (hstart : s.dev.descriptorStart (s.now t) eng = s.dev.startPart (s.now t) r p) (hx : tget s.dev.slu.reqs r = some x) (hp : p ∈ x.parts) (heng : p.engine = eng)
    (hgood : p.desc.op = 0 → p.desc.entrySrc = false → (x.parts.all fun q => q.startAt == 0) = true → packOk (s.dev.packOf p.desc) = true) :
    Answers (.descriptorStart t eng) s fun s' => tget s'.dev.slu.lastStart eng = some (s.now t) ∧
      ∃ x', tget s'.dev.slu.reqs r = some x' ∧ (∀ q ∈ x'.parts, q.index = p.index → q.state = .running ∧ q.startAt = max 1 (s.now t)) ∧ ∃ q ∈ x'.parts, q.index = p.index := by
  refine ⟨_, rfl, ?_⟩
  dsimp only
  rw [if_pos hon, hstart, Dev.startPart_of_good (s.now t) hx hgood, Dev.syncEngine_slu]
  have hreq : tget ((s.dev.startCharged (s.now t) r p).stageHead x p).slu.reqs r = some x := by
    rw [Dev.stageHead_reqs, (s.dev.startCharged_samePlaces ..).reqs, hx]
  refine ⟨?_, _, Dev.tget_modPart hreq .., fun q hq hi => ?_, ?_⟩
  · show tget ((s.dev.startCharged (s.now t) r p).stageHead x p).slu.lastStart eng = _
    rw [Dev.stageHead_lastStart, ← heng, Dev.startCharged_lastStart]
  · obtain ⟨q0, -, -, rfl⟩ := mem_map_index hq hi
    exact ⟨rfl, rfl⟩
  · exact ⟨_, List.mem_map_of_mem hp, by rw [if_pos rfl]⟩

/-- The request of a part that starts on a bad header ends with BADCONFIG (R189). -/
theorem descriptorStart_cuts {s : State} {t eng r : Nat} {x : SluReq} {p : Part} (hon : s.dev.sluiceOn eng = true)
    (hstart : s.dev.descriptorStart (s.now t) eng = s.dev.startPart (s.now t) r p) (hx : tget s.dev.slu.reqs r = some x) (hop : p.desc.op = 0) (hsrc : p.desc.entrySrc = false)
    (hlock : ∀ i tier o, x.making = some (i, tier) → tget s.dev.slu.objs i = some o → o.lock = some r → o.queue = [])
    (hfirst : (x.parts.all fun q => q.startAt == 0) = true) (hbad : packOk (s.dev.packOf p.desc) = false) :
    Answers (.descriptorStart t eng) s fun s' => ∃ x', tget s'.dev.slu.reqs r = some x' ∧ x'.status = some Status.badConfig.code ∧ (∀ q ∈ x'.parts, q.state = .ended) := by
  refine ⟨_, rfl, ?_⟩
  dsimp only
  rw [if_pos hon, hstart, Dev.startPart_of_bad (s.now t) hx hop hsrc hfirst hbad]
  have hsame := s.dev.startCharged_samePlaces (s.now t) r p
  refine ⟨{ x.cut .badConfig with lastEngine := p.engine }, ?_, rfl, fun q hq => ?_⟩
  · rw [Dev.unlockOf_reqs, Dev.syncEngines_slu]
    · exact Dev.tget_modReq (hsame.reqs ▸ hx) _
    · intro i tier o hm ho hl
      rw [Dev.syncEngines_slu] at ho
      exact hlock i tier o hm (by rw [← hsame.objs]; exact ho) hl
  · obtain ⟨q0, -, rfl⟩ := List.mem_map.1 hq
    rfl

end Sys2Proof.Machine

namespace Sys2Proof.Machine

/-! ### A landing's data leave registers and requests -/

/-- Registers and requests are as before data moved. -/
structure DataMoved (d e : Dev) : Prop where
  regs : e.regs = d.regs
  reqs : e.slu.reqs = d.slu.reqs

namespace DataMoved

variable {d e f : Dev}

theorem refl (d : Dev) : DataMoved d d := ⟨rfl, rfl⟩

theorem trans (a : DataMoved d e) (b : DataMoved e f) : DataMoved d f := ⟨b.regs.trans a.regs, b.reqs.trans a.reqs⟩

theorem locPut (d : Dev) (l : Loc) (off n : Nat) (rel : Memory) : DataMoved d (d.locPut l off n rel) := by
  obtain ⟨mem, flash, h⟩ := d.locPut_flash l off n rel
  rw [h]
  exact ⟨rfl, rfl⟩

theorem modEntry (d : Dev) (now l e : Nat) (f : SbEntry → SbEntry) : DataMoved d (d.modEntry now l e f) := by
  obtain ⟨fab, h⟩ := d.modEntry_eq now l e f
  rw [h]
  exact ⟨rfl, rfl⟩

theorem modObj (d : Dev) (i : Nat) (f : Obj → Obj) : DataMoved d (d.modObj i f) := ⟨by unfold Dev.modObj; split <;> rfl, Dev.modObj_reqs ..⟩

theorem foldl {α : Type} {g : Dev → α → Dev} (h : ∀ d a, DataMoved d (g d a)) (l : List α) (d : Dev) : DataMoved d (l.foldl g d) :=
  List.foldlRecOn l g (motive := DataMoved d) (refl d) fun _ hd a _ => hd.trans (h _ a)

theorem putRaw (d : Dev) (x : Desc) (off n : Nat) (data : Memory) : DataMoved d (d.putRaw x off n data) :=
  (locPut ..).trans (foldl (fun _ _ => modObj ..) _ _)

theorem putPositions (d : Dev) (slot page lo hi : Nat) (image : Memory) : DataMoved d (d.putPositions slot page lo hi image) := by
  unfold Dev.putPositions
  split
  · exact List.foldlRecOn _ _ (motive := DataMoved d) (refl d) fun _ h _ _ => h.trans ⟨rfl, rfl⟩
  · exact refl d

theorem landPut (d : Dev) (now r : Nat) (p : Part) (len : Nat) (data : Memory) : DataMoved d (d.landPut now r p len data) := by
  unfold Dev.landPut
  extract_lets x idx off le k kv q
  split
  · exact refl d
  split
  · split
    · split
      · extract_lets query tile d1
        have h1 : DataMoved d d1 := by
          unfold d1
          split
          · exact ⟨rfl, rfl⟩
          · exact refl d
        exact h1.trans ((locPut ..).trans (modEntry ..))
      · exact refl d
    · exact refl d
  split
  · exact refl d
  split
  · exact putPositions ..
  · exact putPositions ..
  · exact ⟨rfl, rfl⟩
  · exact ⟨rfl, rfl⟩
  · exact refl d
  · split
    · exact locPut ..
    · split
      · split
        · exact locPut ..
        · exact refl d
      · extract_lets d1 old
        split
        · exact (locPut ..).trans (locPut ..)
        · exact locPut ..
    · exact putRaw ..

theorem landFree (d : Dev) (now : Nat) (p : Part) (skip : Bool) : DataMoved d (d.landFree now p skip) := by
  unfold Dev.landFree
  split
  · exact modEntry ..
  · exact refl d

end DataMoved

/-! ### A landing counts its bytes and ends its part -/

/-- A landing's bytes and units are counted, and the part whose last unit landed has ended (R190). -/
def Dev.landCount (d : Dev) (eng r : Nat) (p : Part) (units len : Nat) : Dev :=
  ((((d.wn (r1 .sluEngBytes eng) ((d.rn (r1 .sluEngBytes eng) + len) % 2 ^ 64)).modReq r fun x => { x with bytes := x.bytes + len }).modPart r p.index fun p =>
    { p with pos := p.pos + units, prog := 0, state := if p.desc.count ≤ p.pos + units then .ended else p.state })).syncEngine eng

/-- After a part's last unit its request may arrive, and the engine goes on (R190, R192, R197). -/
def Dev.landLast (d : Dev) (now eng r : Nat) : Dev :=
  let d1 := d.modReq r fun x => { x with lastEngine := eng }
  (match tget d1.slu.reqs r with
    | some x => if x.allEnded && x.failMask == 0 && !x.staged then d1.sluiceArrive now r else d1
    | none => d1).resumeParked now eng

/-- The data of a landing whose bytes are all issued, put where they go; skip: nothing moves for it, and its slot stays. -/
def Dev.landMove (d : Dev) (now r : Nat) (p : Part) (len : Nat) (skip : Bool) : Dev := (d.landPut now r p len (d.landData r p len)).landFree now p skip

/-- A landing that can take place and whose bytes are all issued moves its data, and ends its part with the last. -/
theorem Dev.tileLand_of_issued {d : Dev} {now eng n r : Nat} {p : Part} (hrun : d.runningPart eng = some (r, p)) (hcan : d.canLand r p = true) :
    let units := landUnits d r p n
    let len := d.landBytes r p units
    let q := d.issueBytes now (d.partPayer p) (d.resources p) (len / 65536 + 2) (len - p.prog)
    q.1 = 0 → d.tileLand now eng n =
      let d4 := (q.2.landMove now r p len (d.kvSkips r p)).landCount eng r p units len
      if p.pos + units < p.desc.count then d4 else d4.landLast now eng r := by
  intro units len q hq
  unfold Dev.tileLand
  rw [hrun]
  exact (if_neg (by simp [hcan])).trans (if_neg (not_not_intro hq))

theorem Dev.landMove_dataMoved (d : Dev) (now r : Nat) (p : Part) (len : Nat) (skip : Bool) : DataMoved d (d.landMove now r p len skip) :=
  (DataMoved.landPut ..).trans (.landFree ..)

end Sys2Proof.Machine

namespace Sys2Proof.Machine

theorem Dev.kvItem_of_same {d e : Dev} (hreqs : e.slu.reqs = d.slu.reqs) (r : Nat) (p : Part) : e.kvItem r p = d.kvItem r p := by
  unfold Dev.kvItem Dev.purposeOf
  rw [hreqs]

theorem Dev.kvSkips_of_same {d e : Dev} (hreqs : e.slu.reqs = d.slu.reqs) (hkv : e.kv = d.kv) (r : Nat) (p : Part) : e.kvSkips r p = d.kvSkips r p := by
  unfold Dev.kvSkips Dev.kvRuns
  rw [kvItem_of_same hreqs, hkv]

theorem SamePlaces.resources {d e : Dev} (h : SamePlaces d e) (p : Part) : e.resources p = d.resources p := by
  unfold Dev.resources Dev.srcTier
  rw [h.tileSource]

/-- What lets a part land: places, the page table, the retraining window (R97, R193, R197). -/
theorem SamePlaces.canLand {d e : Dev} (h : SamePlaces d e) (hkv : e.kv = d.kv) (hpbu : e.pbu = d.pbu) (r : Nat) (p : Part) : e.canLand r p = d.canLand r p := by
  have hframe (page : Nat) : e.frameOf page = d.frameOf page := by unfold Dev.frameOf; rw [hkv]
  have hvac : e.vacating = d.vacating := by
    unfold Dev.vacating Dev.leavingPages
    rw [h.reqs, funext hframe]
  have hcopy : e.copying = d.copying := by unfold Dev.copying; rw [h.reqs]
  unfold Dev.canLand Dev.basin? Dev.residentCtx Dev.windowOpen
  rw [h.reqs, h.basins, hpbu, h.resources, Dev.kvSkips_of_same h.reqs hkv, Dev.kvItem_of_same h.reqs, hvac, hcopy]
  simp only [hframe]

theorem Dev.landNotes_canLand (d : Dev) (n : Landing) (r : Nat) (p : Part) : (d.landNotes n).canLand r p = d.canLand r p :=
  (d.landNotes_samePlaces n).canLand rfl rfl r p

/-- A saturating count holds the sum, as far as its field does. -/
theorem Dev.f_addSat (d : Dev) (r : Reg) {x : Fld} (hx : x.ok) (k : Nat) : (d.addSat r x k).f r x = min (2 ^ x.w - 1) (d.f r x + k) := by
  refine (Dev.f_sf d r _ hx).trans (Nat.mod_eq_of_lt ?_)
  have := Nat.two_pow_pos x.w
  omega

theorem KeepsRegs.modReq {p : RegName → Bool} (d : Dev) (r : Nat) (f : SluReq → SluReq) : KeepsRegs p d (d.modReq r f) := .of_regs rfl

theorem Dev.landNotes_keepsRegs (d : Dev) (n : Landing) : KeepsRegs (fun x => x != .sluFarEcc && x != .sluNearEcc) d (d.landNotes n) :=
  ((KeepsRegs.sf _ _ rfl).trans (.sf _ _ rfl)).trans (.sf _ _ rfl)

/-- The far store's corrected lines that a landing found are counted (R208). -/
theorem Dev.landNotes_farFixed (d : Dev) (n : Landing) :
    (d.landNotes n).f (r0 .sluFarEcc) F.sluFarEcc.CE = min (2 ^ F.sluFarEcc.CE.w - 1) (d.f (r0 .sluFarEcc) F.sluFarEcc.CE + n.farFixed) := by
  unfold Dev.landNotes
  have hother (e : Dev) (x : Fld) (k : Nat) : (e.addSat (r0 .sluNearEcc) x k).f (r0 .sluFarEcc) F.sluFarEcc.CE = e.f (r0 .sluFarEcc) F.sluFarEcc.CE :=
    Dev.f_sf_reg (by decide)
  rw [hother, hother]
  exact Dev.f_addSat _ _ (show F.sluFarEcc.CE.lo + F.sluFarEcc.CE.w ≤ 64 by decide) _

theorem Dev.syncEngine_keepsRegs {p : RegName → Bool} (d : Dev) (n : Nat) (h : p .sluEngStat = false) : KeepsRegs p d (d.syncEngine n) :=
  ((KeepsRegs.sf _ _ h).trans (.sf _ _ h)).trans (.sf _ _ h)

/-- A landing of units of a part, counted in its request. -/
def SluReq.landed (x : SluReq) (p : Part) (units len : Nat) : SluReq :=
  { x with bytes := x.bytes + len, parts := x.parts.map fun q =>
      if q.index = p.index then { q with pos := q.pos + units, prog := 0, state := if q.desc.count ≤ q.pos + units then .ended else q.state } else q }

theorem Dev.landCount_req {d : Dev} {r : Nat} {x : SluReq} (hx : tget d.slu.reqs r = some x) (eng : Nat) (p : Part) (units len : Nat) :
    tget (d.landCount eng r p units len).slu.reqs r = some (x.landed p units len) := by
  unfold Dev.landCount
  rw [Dev.syncEngine_slu]
  exact Dev.tget_modPart (Dev.tget_modReq (d := d.wn _ _) hx _) ..

theorem Dev.landCount_engBytes (d : Dev) (eng r : Nat) (p : Part) (units len : Nat) :
    (d.landCount eng r p units len).rn (r1 .sluEngBytes eng) = (d.rn (r1 .sluEngBytes eng) + len) % 2 ^ 64 := by
  have hsync (e : Dev) : KeepsRegs (· == .sluEngBytes) e (e.syncEngine eng) := e.syncEngine_keepsRegs eng rfl
  refine (Dev.rn_of_rd ((hsync _).rd (r1 .sluEngBytes eng) rfl)).trans ?_
  exact (Dev.rn_wn ..).trans (Nat.mod_mod ..)

theorem Dev.landCount_keepsRegs {keep : RegName → Bool} (hbytes : keep .sluEngBytes = false) (hstat : keep .sluEngStat = false) (d : Dev) (eng r : Nat) (p : Part) (units len : Nat) :
    KeepsRegs keep d (d.landCount eng r p units len) :=
  (KeepsRegs.wn (d := d) (r := r1 .sluEngBytes eng) _ hbytes).trans ((KeepsRegs.modReq _ r _).trans ((KeepsRegs.modReq _ r _).trans (Dev.syncEngine_keepsRegs _ eng hstat)))

/-- A landing parks nothing. -/
theorem Dev.landCount_parked {d : Dev} {eng : Nat} (h : d.partsOn eng .parked = []) (r : Nat) (p : Part) (units len : Nat) :
    (d.landCount eng r p units len).partsOn eng .parked = [] := by
  refine Dev.partsOn_modReq_nil (d := (d.wn _ _).modReq r _) (Dev.partsOn_modReq_nil (d := d.wn _ _) h r ?_) r ?_
  · exact fun x q hq he hs => ⟨q, hq, he, hs⟩
  · intro x q hq he hs
    obtain ⟨q0, hq0, rfl⟩ := List.mem_map.1 hq
    refine ⟨q0, hq0, ?_⟩
    split at he
    · next hi =>
      rw [if_pos hi] at hs
      dsimp only at hs
      split at hs
      · cases hs
      · exact ⟨he, hs⟩
    · next hi =>
      rw [if_neg hi] at hs
      exact ⟨he, hs⟩

/-- The arrival of a request that nothing waits for takes a key, no more (R197). -/
theorem Dev.sluiceArrive_of_unwaited {d : Dev} {r : Nat} {x : SluReq} (hx : tget d.slu.reqs r = some x) (hwait : x.wait = none) (hstall : x.stall = none) (hspill : x.spill = 0)
    (now : Nat) : d.sluiceArrive now r = (d.draw (0x0500 + x.lastEngine) now).2 := by
  unfold Dev.sluiceArrive
  simp [hx, hwait, hstall, hspill]

/-- After the last unit of a part of a request that nothing waits for, on an engine with nothing parked: the engine is noted in the request. -/
theorem Dev.landLast_of_unwaited {d : Dev} {eng r : Nat} {x : SluReq} (hx : tget d.slu.reqs r = some x) (hwait : x.wait = none) (hstall : x.stall = none) (hspill : x.spill = 0)
    (hpark : d.partsOn eng .parked = []) (now : Nat) :
    (d.landLast now eng r).regs = d.regs ∧ tget (d.landLast now eng r).slu.reqs r = some { x with lastEngine := eng } := by
  have hx1 : tget (d.modReq r fun x => { x with lastEngine := eng }).slu.reqs r = some { x with lastEngine := eng } := Dev.tget_modReq hx _
  have hpark1 : (d.modReq r fun x => { x with lastEngine := eng }).partsOn eng .parked = [] :=
    Dev.partsOn_modReq_nil hpark r fun y q hq he hs => ⟨q, hq, he, hs⟩
  have hregs : (d.modReq r fun x => { x with lastEngine := eng }).regs = d.regs := rfl
  unfold Dev.landLast
  generalize (d.modReq r fun x => { x with lastEngine := eng }) = d1 at *
  have hstay (e : Dev) (he : e.slu.reqs = d1.slu.reqs) : e.resumeParked now eng = e := by
    refine Dev.resumeParked_of_gated (fun a ha => ?_) now
    rw [Dev.partsOn_of_reqs he, hpark1] at ha
    cases ha
  dsimp only
  rw [hx1]
  dsimp only
  split
  · rw [Dev.sluiceArrive_of_unwaited hx1 hwait hstall hspill, hstay (d1.draw _ _).2 rfl]
    exact ⟨hregs, hx1⟩
  · rw [hstay d1 rfl]
    exact ⟨hregs, hx1⟩

/-- The registers that a landing's counts leave: neither its bytes' count nor the engine's status. -/
def RegName.isBesideLanding (x : RegName) : Bool := x != .sluEngBytes && x != .sluEngStat

/-- A landing whose bytes are all issued: what was moved and counted (R190, R196). -/
theorem execTileLand_of_issued {s : State} {t eng r units len : Nat} {n : Landing} {p : Part} (hon : s.dev.sluiceOn eng = true) (hrun : s.dev.runningPart eng = some (r, p))
    (hcan : s.dev.canLand r p = true) (hunits : landUnits (s.dev.landNotes n) r p n.units = units) (hlen : (s.dev.landNotes n).landBytes r p units = len) :
    let d0 := s.dev.landNotes n
    let q := d0.issueBytes (s.now t) (d0.partPayer p) (d0.resources p) (len / 65536 + 2) (len - p.prog)
    q.1 = 0 → exec (.tileLand t eng n) s = .next { s with dt := s.now t, dev :=
      let d4 := (q.2.landMove (s.now t) r p len (d0.kvSkips r p)).landCount eng r p units len
      if p.pos + units < p.desc.count then d4 else d4.landLast (s.now t) eng r } := by
  intro d0 q hq
  subst hunits hlen
  have hrun0 : d0.runningPart eng = some (r, p) := hrun
  have hcan0 : d0.canLand r p = true := (Dev.landNotes_canLand ..).trans hcan
  have hland := Dev.tileLand_of_issued (now := s.now t) (n := n.units) hrun0 hcan0 hq
  show execTileLand t eng n s = _
  unfold execTileLand State.run
  dsimp only
  rw [if_pos hon, hrun]
  dsimp only
  rw [if_pos hcan, hland]

/-- A landing's units and bytes are counted, its last unit ends its part (R190, R192, R208). -/
theorem tileLand_counts {s : State} {t eng r : Nat} {n : Landing} {x : SluReq} {p : Part} (hon : s.dev.sluiceOn eng = true) (hrun : s.dev.runningPart eng = some (r, p))
    (hx : tget s.dev.slu.reqs r = some x) (hcan : s.dev.canLand r p = true) :
    let d0 := s.dev.landNotes n
    let units := landUnits d0 r p n.units
    let len := d0.landBytes r p units
    (d0.issueBytes (s.now t) (d0.partPayer p) (d0.resources p) (len / 65536 + 2) (len - p.prog)).1 = 0 →
    (p.pos + units < p.desc.count ∨ (x.wait = none ∧ x.stall = none ∧ x.spill = 0 ∧ s.dev.partsOn eng .parked = [])) →
    Answers (.tileLand t eng n) s fun s' =>
      tget s'.dev.slu.reqs r = some { x.landed p units len with lastEngine := if p.pos + units < p.desc.count then x.lastEngine else eng } ∧
      s'.dev.rn (r1 .sluEngBytes eng) = (s.dev.rn (r1 .sluEngBytes eng) + len) % 2 ^ 64 ∧
      s'.dev.f (r0 .sluFarEcc) F.sluFarEcc.CE = min (2 ^ F.sluFarEcc.CE.w - 1) (s.dev.f (r0 .sluFarEcc) F.sluFarEcc.CE + n.farFixed) := by
  intro d0 units len hq hlast
  have hexec := execTileLand_of_issued (t := t) (n := n) hon hrun hcan rfl rfl hq
  refine ⟨_, hexec, ?_⟩
  dsimp only
  have hpaid := Dev.issueBytes_paid (s.now t) (d0.partPayer p) (d0.resources p) (len / 65536 + 2) (len - p.prog) d0
  have hissue := Dev.issueBytes_samePlaces (s.now t) (d0.partPayer p) (d0.resources p) (len / 65536 + 2) (len - p.prog) d0
  generalize (d0.issueBytes (s.now t) (d0.partPayer p) (d0.resources p) (len / 65536 + 2) (len - p.prog)).2 = d1 at *
  have hmove := d1.landMove_dataMoved (s.now t) r p len (d0.kvSkips r p)
  generalize d1.landMove (s.now t) r p len (d0.kvSkips r p) = d2 at *
  have hreqs : d2.slu.reqs = s.dev.slu.reqs := hmove.reqs.trans hissue.reqs
  have hx4 := Dev.landCount_req (hreqs ▸ hx) eng p units len
  have hrd (q : Reg) (hq : q.name.isBeyondCharge = true) : d2.rd q = d0.rd q := (Dev.rd_of_regs hmove.regs q).trans (hpaid.regs.rd q hq)
  have hbytes : (d2.landCount eng r p units len).rn (r1 .sluEngBytes eng) = (s.dev.rn (r1 .sluEngBytes eng) + len) % 2 ^ 64 := by
    rw [Dev.landCount_engBytes, Dev.rn_of_rd (hrd _ rfl), Dev.rn_of_rd ((s.dev.landNotes_keepsRegs n).rd _ rfl)]
  have hce : (d2.landCount eng r p units len).f (r0 .sluFarEcc) F.sluFarEcc.CE
      = min (2 ^ F.sluFarEcc.CE.w - 1) (s.dev.f (r0 .sluFarEcc) F.sluFarEcc.CE + n.farFixed) := by
    rw [Dev.f_of_rd ((d2.landCount_keepsRegs (keep := RegName.isBesideLanding) rfl rfl eng r p units len).rd (r0 .sluFarEcc) rfl), Dev.f_of_rd (hrd _ rfl)]
    exact s.dev.landNotes_farFixed n
  by_cases hmore : p.pos + units < p.desc.count
  · rw [if_pos hmore, if_pos hmore]
    exact ⟨hx4, hbytes, hce⟩
  · obtain ⟨hwait, hstall, hspill, hpark⟩ := hlast.resolve_left hmore
    have hpark2 : d2.partsOn eng .parked = [] := (Dev.partsOn_of_reqs hreqs ..).trans hpark
    obtain ⟨hregs, hx5⟩ := Dev.landLast_of_unwaited hx4 hwait hstall hspill (Dev.landCount_parked hpark2 ..) (s.now t)
    rw [if_neg hmore, if_neg hmore, Dev.rn_of_rd (Dev.rd_of_regs hregs _), Dev.f_of_rd (Dev.rd_of_regs hregs _)]
    exact ⟨hx5, hbytes, hce⟩

end Sys2Proof.Machine

namespace Sys2Proof.Machine

/-! ### A plain move copies bytes -/

/-- What a place outside T0 and the flash holds are bytes of memory. -/
theorem Dev.get_locSlice {l : Loc} (h0 : l.tier ≠ 0) (h3 : l.tier ≠ 3) (d : Dev) {off n i : Nat} (hi : i < n) : (d.locSlice l off n).get i = d.mem.get (l.addr + off + i) := by
  have hflash : (l.tier == 3) = false := beq_false_of_ne h3
  have hid : (fun c : Host.Cell => (c.1 + 0, c.2)) = id := rfl
  unfold Dev.locSlice Dev.pieces
  rw [if_neg h0, hflash]
  simp only [List.flatMap_cons, List.flatMap_nil, List.append_nil, Bool.false_eq_true, if_false]
  rw [hid, List.map_id, Memory.get_slice hi]

theorem Dev.mem_locPut {l : Loc} (h0 : l.tier ≠ 0) (h3 : l.tier ≠ 3) (d : Dev) (off n : Nat) (rel : Memory) :
    (d.locPut l off n rel).mem = d.mem.put (l.addr + off) n (rel.slice 0 n) := by
  have hflash : (l.tier == 3) = false := beq_false_of_ne h3
  unfold Dev.locPut Dev.pieces
  rw [if_neg h0, hflash]
  rfl

theorem Dev.putRaw_of_untouched {d : Dev} {x : Desc} {off n : Nat} (h : d.touched x.dstTier (x.dstAddr + off) n = []) (data : Memory) :
    d.putRaw x off n data = d.locPut (rawLoc x.dstTier x.dstAddr) off n data := by
  unfold Dev.putRaw
  rw [h]
  rfl

theorem rawLoc_of_ram {t : Nat} (h : t ≠ 3) (a : Nat) : rawLoc t a = flat 1 a := by
  unfold rawLoc
  rw [if_neg h]

/-- A write to a descriptor's raw destination, of no object's copy, puts its bytes there and leaves the rest of memory. -/
theorem Dev.putRaw_mem {d : Dev} {x : Desc} {off n : Nat} (hflash : x.dstTier ≠ 3) (h : d.touched x.dstTier (x.dstAddr + off) n = []) (data : Memory) :
    (∀ i, i < n → (d.putRaw x off n data).mem.get (x.dstAddr + off + i) = data.get i) ∧
      ∀ a, (a < x.dstAddr + off ∨ x.dstAddr + off + n ≤ a) → (d.putRaw x off n data).mem.get a = d.mem.get a := by
  rw [Dev.putRaw_of_untouched h, rawLoc_of_ram hflash, Dev.mem_locPut Nat.one_ne_zero (by show 1 ≠ 3; decide)]
  refine ⟨fun i hi => ?_, fun a ha => Memory.get_put_outside ha⟩
  exact (Memory.get_put_inside hi).trans (by rw [Memory.get_slice hi, Nat.zero_add])

/-- A landing of a list's plain move, whose part and request have no staging, goes to the descriptor's raw destination (R190). -/
theorem Dev.landMove_of_plain {d : Dev} {r h li : Nat} {x : SluReq} {p : Part} (hx : tget d.slu.reqs r = some x) (hpurpose : x.purpose = .list h li) (hstage : x.stage = none)
    (harea : p.area = none) (hop : p.desc.op = 1) (hsrc : p.desc.entrySrc = false) (hdst : p.desc.entryDst = false) (hobj : p.desc.object = 0) (now len : Nat) (skip : Bool) :
    d.landMove now r p len skip = d.putRaw p.desc (64 * (p.desc.first + p.pos)) len (d.locSlice (rawLoc p.desc.srcTier p.desc.srcAddr) (64 * (p.desc.first + p.pos)) len) := by
  have hpur : d.purposeOf r = some (.list h li) := by unfold Dev.purposeOf; rw [hx, Option.map_some, hpurpose]
  have hitem : d.kvItem r p = none := by unfold Dev.kvItem; rw [hpur]
  have hskips : d.kvSkips r p = false := by unfold Dev.kvSkips; rw [hitem]
  have hsafe : d.isSafe r = false := by unfold Dev.isSafe; rw [hpur]
  have hreq : (tgetD d.slu.reqs r noReq) = x := by unfold tgetD; rw [hx]; rfl
  have hdata : d.landData r p len = d.locSlice (rawLoc p.desc.srcTier p.desc.srcAddr) (64 * (p.desc.first + p.pos)) len := by
    unfold Dev.landData
    simp [hop, hsrc, hitem, hobj]
  have hput (data : Memory) : d.landPut now r p len data = d.putRaw p.desc (64 * (p.desc.first + p.pos)) len data := by
    unfold Dev.landPut
    simp [hskips, hdst, hsafe, hitem, hreq, harea, hstage, hop]
  unfold Dev.landMove Dev.landFree
  rw [hdata, hput, if_neg (by simp [hsrc])]

theorem Dev.resumeParked_mem (d : Dev) (now eng : Nat) : (d.resumeParked now eng).mem = d.mem := by
  unfold Dev.resumeParked
  split
  · rfl
  · split <;> rfl

/-- After the last unit of a part of a request that nothing waits for memory stays. -/
theorem Dev.landLast_mem {d : Dev} {r : Nat} {x : SluReq} (hx : tget d.slu.reqs r = some x) (hwait : x.wait = none) (hstall : x.stall = none) (hspill : x.spill = 0) (now eng : Nat) :
    (d.landLast now eng r).mem = d.mem := by
  have hx1 : tget (d.modReq r fun x => { x with lastEngine := eng }).slu.reqs r = some { x with lastEngine := eng } := Dev.tget_modReq hx _
  unfold Dev.landLast
  dsimp only
  rw [Dev.resumeParked_mem, hx1]
  dsimp only
  split
  · rw [Dev.sluiceArrive_of_unwaited hx1 hwait hstall hspill]
    rfl
  · rfl

/-- A landing of a list's plain move copies its bytes, and no others change (R186, R190). -/
theorem tileLand_copies {s : State} {t eng r h li : Nat} {n : Landing} {x : SluReq} {p : Part} (hon : s.dev.sluiceOn eng = true) (hrun : s.dev.runningPart eng = some (r, p))
    (hx : tget s.dev.slu.reqs r = some x) (hpurpose : x.purpose = .list h li) (hstage : x.stage = none) (harea : p.area = none) (hwait : x.wait = none) (hstall : x.stall = none)
    (hspill : x.spill = 0) (hop : p.desc.op = 1) (hsrc : p.desc.entrySrc = false) (hdst : p.desc.entryDst = false) (hobj : p.desc.object = 0) (hsrcTier : p.desc.srcTier ≠ 3)
    (hdstTier : p.desc.dstTier ≠ 3) (hcan : s.dev.canLand r p = true) :
    let units := min (max 1 n.units) (p.desc.count - p.pos)
    let off := 64 * (p.desc.first + p.pos)
    let d0 := s.dev.landNotes n
    (d0.issueBytes (s.now t) (d0.partPayer p) (d0.resources p) (64 * units / 65536 + 2) (64 * units - p.prog)).1 = 0 →
    s.dev.touched p.desc.dstTier (p.desc.dstAddr + off) (64 * units) = [] →
    Answers (.tileLand t eng n) s fun s' =>
      (∀ i, i < 64 * units → s'.dev.mem.get (p.desc.dstAddr + off + i) = s.dev.mem.get (p.desc.srcAddr + off + i)) ∧
      ∀ a, (a < p.desc.dstAddr + off ∨ p.desc.dstAddr + off + 64 * units ≤ a) → s'.dev.mem.get a = s.dev.mem.get a := by
  intro units off d0 hq hfree
  have hitem : d0.kvItem r p = none := by
    unfold Dev.kvItem Dev.purposeOf
    rw [show tget d0.slu.reqs r = some x from hx, Option.map_some, hpurpose]
  have hunits : landUnits d0 r p n.units = units := by
    unfold landUnits
    rw [hitem, if_neg (by simp [hop])]
  have hlen : d0.landBytes r p units = 64 * units := by
    unfold Dev.landBytes
    rw [hitem]
    exact if_neg (by simp [hop])
  have hexec := execTileLand_of_issued (t := t) (n := n) hon hrun hcan hunits hlen hq
  refine ⟨_, hexec, ?_⟩
  dsimp only
  have hissue := Dev.issueBytes_samePlaces (s.now t) (d0.partPayer p) (d0.resources p) (64 * units / 65536 + 2) (64 * units - p.prog) d0
  generalize (d0.issueBytes (s.now t) (d0.partPayer p) (d0.resources p) (64 * units / 65536 + 2) (64 * units - p.prog)).2 = d1 at *
  have hsame : SamePlaces s.dev d1 := (s.dev.landNotes_samePlaces n).trans hissue
  have hx1 : tget d1.slu.reqs r = some x := hsame.reqs ▸ hx
  have hmoved := d1.landMove_dataMoved (s.now t) r p (64 * units) (d0.kvSkips r p)
  rw [Dev.landMove_of_plain hx1 hpurpose hstage harea hop hsrc hdst hobj] at hmoved ⊢
  obtain ⟨hin, hout⟩ := Dev.putRaw_mem hdstTier ((hsame.touched ..).trans hfree) (d1.locSlice (rawLoc p.desc.srcTier p.desc.srcAddr) off (64 * units))
  have hend : ∀ d2 : Dev, d2.slu.reqs = d1.slu.reqs →
      (if p.pos + units < p.desc.count then d2.landCount eng r p units (64 * units) else (d2.landCount eng r p units (64 * units)).landLast (s.now t) eng r).mem = d2.mem := by
    intro d2 hreqs
    split
    · rfl
    · exact Dev.landLast_mem (Dev.landCount_req (hreqs ▸ hx1) ..) hwait hstall hspill ..
  rw [hend _ hmoved.reqs]
  refine ⟨fun i hi => ?_, fun a ha => (hout a ha).trans (by rw [hsame.mem])⟩
  rw [hin i hi, rawLoc_of_ram hsrcTier, Dev.get_locSlice Nat.one_ne_zero (by show 1 ≠ 3; decide) _ hi, hsame.mem]
  rfl

/-- Settles O44: a first-ranked part starts or is cut off with a bad header, a landing counts, and a plain one copies. -/
theorem partsStartAndLand : Obligations.PartsStartAndLand := by
  unfold Obligations.PartsStartAndLand
  refine ⟨?_, ?_, ?_, ?_⟩
  · intro s t eng r x p hon hidle hx hp heng hst hgap hopen hwait hpark hfirst hgood
    have hmem : (r, p) ∈ s.dev.partsOn eng .queued := hst ▸ Dev.mem_partsOn_of_tget hx hp heng
    exact descriptorStart_starts hon (Dev.descriptorStart_of_first hidle hwait hpark hgap hmem hopen hfirst) hx hp heng hgood
  · intro s t eng r x p hon hidle hx _ _ _ hnew honly hopen hop hsrc hwait hpark hlock hfirst hbad
    have hstart := Dev.descriptorStart_of_first (now := s.now t) (a := (r, p)) hidle hwait hpark (.inl hnew) (by simp [honly]) hopen (by simp [honly])
    exact descriptorStart_cuts hon hstart hx hop hsrc hlock hfirst hbad
  · intro s t eng r n x p hon hrun hx hcan
    exact tileLand_counts hon hrun hx hcan
  · intro s t eng r n x p h li hon hrun hx hpurpose hstage harea hwait hstall hspill hop hsrc hdst hobj hsrcTier hdstTier hcan
    exact tileLand_copies hon hrun hx hpurpose hstage harea hwait hstall hspill hop hsrc hdst hobj hsrcTier hdstTier hcan

end Sys2Proof.Machine

/-! ## O45: requests of the sluice commit, complete and fail -/

namespace Sys2Proof.Machine

/-! ### A request of this module alone commits -/

/-- A request that lists no parts elsewhere votes for nothing (R207). -/
theorem Dev.splitStep_of_whole {d : Dev} {r : Nat} {x : SluReq} (hx : tget d.slu.reqs r = some x) (hwhole : ∀ h li, x.purpose = .list h li → x.nparts ≤ x.parts.length) (now : Nat) :
    d.splitStep now r = d := by
  have hsplit : d.splitOf x = none := by
    unfold Dev.splitOf
    split
    · next h li hp =>
      refine Option.bind_eq_none_iff.2 fun c _ => if_neg ?_
      have := hwhole h li hp
      omega
    · rfl
  unfold Dev.splitStep
  rw [hx]
  dsimp only
  rw [hsplit]

/-- A request that may commit (R203): its parts have all ended and none failed. -/
def SluReq.ripe (x : SluReq) : Prop := x.allEnded = true ∧ x.failMask = 0 ∧ x.status = none ∧ x.committed = false

theorem Dev.moveCommit_of_kvMoves {d : Dev} {r : Nat} {x : SluReq} (hx : tget d.slu.reqs r = some x) (hripe : x.ripe) (hkv : x.kvMoves = true) (now : Nat) :
    d.moveCommit now r = d.kvCommit now r := by
  obtain ⟨hended, hmask, hstatus, hopen⟩ := hripe
  unfold Dev.moveCommit
  simp [hx, hended, hmask, hstatus, hopen, hkv]

/-- A staged request that nothing waits for commits on a key of its engine (R197, R203). -/
theorem Dev.moveCommit_of_staged {d : Dev} {r : Nat} {x : SluReq} (hx : tget d.slu.reqs r = some x) (hripe : x.ripe) (hkv : x.kvMoves = false) (hstaged : x.staged = true)
    (hwait : x.wait = none) (hstall : x.stall = none) (hspill : x.spill = 0) (now : Nat) :
    d.moveCommit now r = (d.draw (0x0500 + x.lastEngine) now).2.commitMove now r := by
  obtain ⟨hended, hmask, hstatus, hopen⟩ := hripe
  have hcommit : d.commitStaged now r = (d.draw (0x0500 + x.lastEngine) now).2.commitMove now r := by
    unfold Dev.commitStaged
    rw [Dev.sluiceArrive_of_unwaited hx hwait hstall hspill]
    simp [hx, hstatus]
  unfold Dev.moveCommit
  simp [hx, hended, hmask, hstatus, hopen, hkv, hstaged, hcommit]

/-- A request without staged areas of its parts moves no bytes when it commits. -/
theorem Dev.commitAreas_of_none {x : SluReq} (h : ∀ p ∈ x.parts, p.area = none) (d : Dev) : d.commitAreas x = d :=
  List.foldlRecOn (motive := fun (e : Dev) => e = d) x.parts _ rfl fun e he p hp => by
    rw [h p hp]
    exact he

theorem SluReq.staged_of_stage {x : SluReq} {l : Loc} {n : Nat} (h : x.stage = some (l, n)) (hl : l.tier ≠ 0) : x.staged = true := by
  unfold SluReq.staged
  simp [h, hl]

/-- The object of a placement that commits: the new copy, the need and the pin (R181, R182). -/
def Obj.placed (o : Obj) (tier ctx : Nat) (l : Loc) (pin : Bool) : Obj :=
  { o with copies := tset o.copies tier l, needs := addPair o.needs (tier, ctx), pins := if pin then addPair o.pins (tier, ctx) else o.pins }

/-- A request as a commit leaves it (R203). -/
def SluReq.afterCommit (x : SluReq) : SluReq :=
  { x with committed := true, stage := none, making := none, parts := x.parts.map fun (p : Part) => { p with area := none } }

/-- A placement commits: the copy stands, the command is answered, the lock passes (R181, R182, R203). -/
theorem Dev.commitMove_of_place {d : Dev} {r m q ctx i tier n : Nat} {pin : Bool} {x : SluReq} {l : Loc} (hx : tget d.slu.reqs r = some x) (hpurpose : x.purpose = .place m q ctx pin)
    (hstage : x.stage = some (l, n)) (hmaking : x.making = some (i, tier)) (hareas : ∀ p ∈ x.parts, p.area = none) (now : Nat) :
    d.commitMove now r = (((d.modReq r SluReq.afterCommit).modObj i fun o => o.placed tier ctx l pin).finishAt now (m, q) .ok 0 []).unlock now i 9 := by
  unfold Dev.commitMove
  rw [hx]
  dsimp only
  rw [Dev.commitAreas_of_none hareas, hstage, hpurpose, hmaking]
  rfl

theorem moveCommit_places {s : State} {t r m q ctx i tier n : Nat} {pin : Bool} {x : SluReq} {o : Obj} {l : Loc} {rq : Req} (hx : tget s.dev.slu.reqs r = some x)
    (hpurpose : x.purpose = .place m q ctx pin) (hstage : x.stage = some (l, n)) (hl : l.tier ≠ 0) (hmaking : x.making = some (i, tier)) (hripe : x.ripe)
    (hwait : x.wait = none) (hstall : x.stall = none) (hspill : x.spill = 0) (hareas : ∀ p ∈ x.parts, p.area = none) (ho : tget s.dev.slu.objs i = some o) (hqueue : o.queue = [])
    (hreq : s.dev.req? m q = some rq) :
    Answers (.moveCommit t r) s fun s' => (∃ o', tget s'.dev.slu.objs i = some o' ∧ o'.copy tier = some l ∧ (∀ k, k ≠ tier → o'.copy k = o.copy k) ∧
      o'.needs = addPair o.needs (tier, ctx) ∧ o'.pins = (if pin then addPair o.pins (tier, ctx) else o.pins) ∧ o'.lock = none) ∧ served s.dev s'.dev rq .ok 0 [] ∧
      (∀ y, tget s'.dev.slu.reqs r = some y → y.committed = true) := by
  refine ⟨_, rfl, ?_⟩
  dsimp only
  have hlist : ∀ h li, x.purpose = .list h li → x.nparts ≤ x.parts.length := fun h li hp => by rw [hpurpose] at hp; cases hp
  have hkv : x.kvMoves = false := by unfold SluReq.kvMoves; rw [hpurpose]
  rw [Dev.splitStep_of_whole hx hlist, Dev.moveCommit_of_staged hx hripe hkv (SluReq.staged_of_stage hstage hl) hwait hstall hspill]
  set d0 := (s.dev.draw (0x0500 + x.lastEngine) (s.now t)).2 with hd0
  have hx0 : tget d0.slu.reqs r = some x := hx
  rw [Dev.commitMove_of_place hx0 hpurpose hstage hmaking hareas]
  set d1 := (d0.modReq r SluReq.afterCommit).modObj i fun o => o.placed tier ctx l pin with hd1
  have hstew : d1.stew = s.dev.stew := by rw [hd1]; simp [hd0]
  have ho1 : tget d1.slu.objs i = some (o.placed tier ctx l pin) := Dev.tget_modObj_self (d := d0.modReq r SluReq.afterCommit) ho _
  have hx1 : tget d1.slu.reqs r = some x.afterCommit := by
    rw [hd1, Dev.modObj_reqs]
    exact Dev.tget_modReq hx0 _
  set d2 := d1.finishAt (s.now t) (m, q) .ok 0 [] with hd2
  have hslu : d2.slu = d1.slu := by rw [hd2]; simp
  have hserved : served s.dev d2 rq .ok 0 [] := Dev.finishAt_served (ms := (m, q)) hstew hreq ..
  have ho2 : tget d2.slu.objs i = some (o.placed tier ctx l pin) := by rw [hslu, ho1]
  refine ⟨⟨{ o.placed tier ctx l pin with lock := none }, ?_, ?_⟩, (LockFrame.unlock ..).served hserved, fun y hy => ?_⟩
  · rw [Dev.unlock_of_free ho2 hqueue]
    exact Dev.tget_modObj_self ho2 _
  · exact ⟨tget_tset .., fun k hk => tget_tset_ne hk, rfl, rfl, rfl⟩
  · rw [Dev.unlock_of_free ho2 hqueue, Dev.modObj_reqs, hslu, hx1] at hy
    cases hy
    rfl

/-! ### A swap commits -/

/-- The pages of a list of items stand in a tier at the items' frames (R232). -/
theorem tget_foldl_frames {items : List (Nat × Nat)} {pg fr : Nat} (hone : ∀ f, (pg, f) ∈ items → f = fr) (tier : Nat) (t : Tbl KvPage) (g : KvPage) (hg : tget t pg = some g) :
    ∃ g', tget (items.foldl (fun ps i => tmod ps i.1 fun g => { g with tier := tier, frame := i.2, state := if g.fill = 16 then 2 else 1 }) t) pg = some g' ∧
      g'.fill = g.fill ∧ g'.refs = g.refs ∧ ((pg, fr) ∈ items ∨ (g.tier = tier ∧ g.frame = fr) → g'.tier = tier ∧ g'.frame = fr) := by
  induction items generalizing t g with
  | nil => exact ⟨g, hg, rfl, rfl, fun h => h.resolve_left List.not_mem_nil⟩
  | cons a items ih =>
    have hone' : ∀ f, (pg, f) ∈ items → f = fr := fun f hf => hone f (List.mem_cons_of_mem _ hf)
    rw [List.foldl_cons]
    by_cases ha : a.1 = pg
    · have hfr : a.2 = fr := hone a.2 (by rw [← ha]; exact List.mem_cons_self ..)
      obtain ⟨g', hg', hfill, hrefs, hplace⟩ := ih hone' _ _ (tget_tmod.trans ((if_pos ha.symm).trans (congrArg _ hg)))
      exact ⟨g', hg', hfill, hrefs, fun _ => hplace (.inr ⟨rfl, hfr⟩)⟩
    · obtain ⟨g', hg', hfill, hrefs, hplace⟩ := ih hone' _ g ((tget_tmod.trans (if_neg (Ne.symm ha))).trans hg)
      refine ⟨g', hg', hfill, hrefs, fun h => hplace (h.imp_left fun hmem => (List.mem_cons.1 hmem).resolve_left fun heq => ha (by rw [← heq]))⟩

theorem moveCommit_swapsOut {s : State} {t r slot pg fr : Nat} {x : SluReq} {items : List (Nat × Nat)} {g : KvPage} (hx : tget s.dev.slu.reqs r = some x)
    (hpurpose : x.purpose = .kv slot .swapOut items) (hripe : x.ripe) (hmem : (pg, fr) ∈ items) (hone : ∀ f, (pg, f) ∈ items → f = fr) (hg : tget s.dev.kv.pages pg = some g) :
    Answers (.moveCommit t r) s fun s' =>
      (∃ g', tget s'.dev.kv.pages pg = some g' ∧ g'.tier = 2 ∧ g'.frame = fr ∧ g'.fill = g.fill ∧ g'.refs = g.refs) ∧ s'.dev.mem = s.dev.mem := by
  refine ⟨_, rfl, ?_⟩
  dsimp only
  have hlist : ∀ h li, x.purpose = .list h li → x.nparts ≤ x.parts.length := fun h li hp => by rw [hpurpose] at hp; cases hp
  have hkv : x.kvMoves = true := by unfold SluReq.kvMoves; rw [hpurpose]
  rw [Dev.splitStep_of_whole hx hlist, Dev.moveCommit_of_kvMoves hx hripe hkv]
  unfold Dev.kvCommit
  rw [hx]
  dsimp only
  rw [hpurpose]
  obtain ⟨g', hg', hfill, hrefs, hplace⟩ := tget_foldl_frames hone 2 s.dev.kv.pages g hg
  obtain ⟨htier, hframe⟩ := hplace (.inl hmem)
  exact ⟨⟨g', hg', htier, hframe, hfill, hrefs⟩, rfl⟩

/-! ### A staged area of a list's part commits -/

/-- The staged area of a request's only part goes to its destination (R203). -/
theorem Dev.commitMove_of_area {d : Dev} {r : Nat} {x : SluReq} {p : Part} {a : Loc × Nat} (hx : tget d.slu.reqs r = some x)
    (hstage : x.stage = none) (hparts : x.parts = [p]) (harea : p.area = some a) (now : Nat) :
    d.commitMove now r = (d.putRaw p.desc (p.desc.span (Pack.parse (d.packOf p.desc))).1 a.2 (d.locSlice a.1 0 a.2)).modReq r SluReq.afterCommit := by
  have hcommit : d.commitAreas x = d.putRaw p.desc (p.desc.span (Pack.parse (d.packOf p.desc))).1 a.2 (d.locSlice a.1 0 a.2) := by
    unfold Dev.commitAreas
    rw [hparts, List.foldl_cons, List.foldl_nil, harea]
  unfold Dev.commitMove
  rw [hx]
  dsimp only
  rw [hcommit, hstage]
  rfl

theorem moveCommit_copiesArea {s : State} {t r h li tier l n : Nat} {x : SluReq} {p : Part} (hx : tget s.dev.slu.reqs r = some x) (hpurpose : x.purpose = .list h li)
    (hstage : x.stage = none) (hparts : x.parts = [p]) (harea : p.area = some (flat tier l, n)) (htier : tier = 1 ∨ tier = 2)
    (hstaged : p.desc.staged = true) (hdst : p.desc.entryDst = false) (hflash : p.desc.dstTier ≠ 3) (hnparts : x.nparts = 1) (hripe : x.ripe)
    (hwait : x.wait = none) (hstall : x.stall = none) (hspill : x.spill = 0) :
    let to_ := p.desc.dstAddr + (p.desc.span (Pack.parse (s.dev.packOf p.desc))).1
    s.dev.touched p.desc.dstTier to_ n = [] →
    Answers (.moveCommit t r) s fun s' => (∃ y, tget s'.dev.slu.reqs r = some y ∧ y.committed = true ∧ ∀ q ∈ y.parts, q.area = none) ∧
      (∀ i, i < n → s'.dev.mem.get (to_ + i) = s.dev.mem.get (l + i)) ∧ ∀ a, (a < to_ ∨ to_ + n ≤ a) → s'.dev.mem.get a = s.dev.mem.get a := by
  intro to_ hfree
  refine ⟨_, rfl, ?_⟩
  dsimp only
  have hlist : ∀ h li, x.purpose = .list h li → x.nparts ≤ x.parts.length := fun _ _ _ => by rw [hnparts, hparts]; exact Nat.le_refl 1
  have hkv : x.kvMoves = false := by unfold SluReq.kvMoves; rw [hpurpose]
  have hst : x.staged = true := by unfold SluReq.staged; simp [hparts, hstaged, hdst]
  rw [Dev.splitStep_of_whole hx hlist, Dev.moveCommit_of_staged hx hripe hkv hst hwait hstall hspill]
  set d0 := (s.dev.draw (0x0500 + x.lastEngine) (s.now t)).2 with hd0
  have hsame : SamePlaces s.dev d0 := .of_regs rfl rfl rfl (.of_regs rfl)
  have hx0 : tget d0.slu.reqs r = some x := hx
  rw [Dev.commitMove_of_area hx0 hstage hparts harea, hsame.packOf]
  have hput := DataMoved.putRaw d0 p.desc (p.desc.span (Pack.parse (s.dev.packOf p.desc))).1 n (d0.locSlice (flat tier l) 0 n)
  obtain ⟨hin, hout⟩ := Dev.putRaw_mem hflash ((hsame.touched ..).trans hfree) (d0.locSlice (flat tier l) 0 n)
  refine ⟨⟨x.afterCommit, Dev.tget_modReq (hput.reqs ▸ hx0) _, rfl, fun q hq => ?_⟩, fun i hi => ?_, hout⟩
  · obtain ⟨q0, -, rfl⟩ := List.mem_map.1 hq
    rfl
  · refine (hin i hi).trans ((Dev.get_locSlice ?_ ?_ _ hi).trans ?_)
    · show tier ≠ 0
      omega
    · show tier ≠ 3
      omega
    · rfl

end Sys2Proof.Machine

namespace Sys2Proof.Machine

/-! ### A request completes with its record -/

/-- The completion record of a request (R195). -/
def Dev.recordOf (d : Dev) (x : SluReq) (key : Key) : List Byte :=
  key.bytes ++ leBytes 4 ((d.windowStatus x.ctx (statusOf x.outcome)).code * 2 ^ 16 + x.failMask) ++ leBytes 4 (x.reqId * 2 ^ 16) ++ leBytes 8 x.bytes

theorem Dev.recordOf_length (d : Dev) (x : SluReq) (key : Key) : (d.recordOf x key).length = 32 := by
  simp [Dev.recordOf, Key.bytes_length]

/-- A request's context has changed last now, where it completes (R195). -/
def Dev.touchCtx (d : Dev) (c now : Nat) : Dev := { d with fab := { d.fab with ctxs := tmod d.fab.ctxs c fun c => { c with lastChange := now } } }

theorem Dev.touchCtx_windowStatus (d : Dev) (c now ctx : Nat) (st : Status) : (d.touchCtx c now).windowStatus ctx st = d.windowStatus ctx st := by
  have hcls : ((d.touchCtx c now).ctx? ctx).map Ctx.cls = (d.ctx? ctx).map Ctx.cls := by
    show (tget (tmod d.fab.ctxs c fun c => { c with lastChange := now }) ctx).map Ctx.cls = (tget d.fab.ctxs ctx).map Ctx.cls
    rw [tget_tmod]
    split
    · rw [Option.map_map]
      rfl
    · rfl
  unfold Dev.windowStatus
  cases h : d.ctx? ctx with
  | none =>
    rw [h, Option.map_none, Option.map_eq_none_iff] at hcls
    rw [hcls]
    cases st <;> rfl
  | some y =>
    rw [h, Option.map_some, Option.map_eq_some_iff] at hcls
    obtain ⟨z, hz, hcls⟩ := hcls
    rw [hz]
    cases st with
    | ok => simp only [hcls]; rfl
    | _ => rfl

/-- The device after the completion record of a request is written, where it has one. -/
def Dev.recorded (d : Dev) (now : Nat) (x : SluReq) : Dev :=
  let k := d.draw (0x0500 + x.lastEngine) now
  if x.crec = 0 then k.2 else { k.2 with mem := k.2.mem.write x.crec (d.recordOf x k.1) }

/-- A request is forgotten, or kept for the stalled layer that waits for it (R195, R200). -/
def Dev.dropDone (d : Dev) (r : Nat) (x : SluReq) : Dev :=
  if x.leavesStall then ((d.dropWait (.needBy r)).modReq r fun x => { x with closed := true, stage := none, making := none, parts := [] }).syncEngines else d.dropReq r

/-- A request that has nothing left to commit and no cell: its record, its command, its end (R195). -/
theorem Dev.completeReq_of_place {d : Dev} {r m q ctx : Nat} {pin : Bool} {x : SluReq} (hx : tget d.slu.reqs r = some x) (hpurpose : x.purpose = .place m q ctx pin)
    (hmask : x.failMask ≠ 0) (hstatus : x.status = none) (hcell : x.cellOp = 0) (now : Nat) :
    d.completeReq now r = (((d.recorded now x).finishAt now (m, q) .partialFail x.failMask []).dropDone r x).unlockOf now r x.making := by
  have hout : x.outcome = Status.partialFail.code := by unfold SluReq.outcome; rw [hstatus]; exact if_pos hmask
  have hst : statusOf x.outcome = .partialFail := by rw [hout]; decide
  have hunstaged : (x.making.isSome && x.status.isNone && x.failMask == 0 && !x.committed) = false := by simp [hmask]
  have hbad : ¬(x.outcome = 0 ∨ x.outcome = Status.expired.code) := by rw [hout]; decide
  simp only [Dev.completeReq, hx, hunstaged, hcell, hbad, hpurpose, Bool.false_eq_true, if_true, if_false]
  simp only [Dev.dropDone, Dev.recorded, Dev.recordOf, Dev.finishPurpose, hst]

theorem Dev.completeReq_of_list {d : Dev} {r : Nat} {x : SluReq} (hx : tget d.slu.reqs r = some x)
    (hmask : x.failMask = 0) (hstatus : x.status = none) (hmaking : x.making = none) (hcell : x.cellOp = 0) (now : Nat) :
    d.completeReq now r = (d.recorded now x).dropReq r := by
  have hout : x.outcome = 0 ∨ x.outcome = Status.expired.code := by
    unfold SluReq.outcome
    rw [hstatus]
    dsimp only
    rw [if_neg (not_not_intro hmask)]
    split
    · exact .inr rfl
    · exact .inl rfl
  have hstall : x.leavesStall = false := by
    unfold SluReq.leavesStall
    have hquiet : ([Status.ok, .expired, .superseded, .faultTorndown].map Status.code).contains x.outcome = true := by
      rcases hout with h | h
      · rw [h]; decide
      · rw [h]; decide
    rw [hquiet, Bool.not_true, Bool.and_false]
  simp only [Dev.completeReq, hx, hmaking, hcell, hout, hstall, Option.isSome_none, Bool.false_and, Bool.false_eq_true, if_true, if_false]
  rfl

/-- A request whose last part has ended and that waits for no commit, no vote and no layer completes (R195); no context is torn down for it. -/
theorem Dev.requestComplete_of_ready {d : Dev} {r : Nat} {x : SluReq} (hx : tget d.slu.reqs r = some x) (hsafe : ∀ u v w, x.purpose ≠ .safe u v w)
    (hkv : ∀ slot m items, x.purpose ≠ .kv slot m items) (hended : x.allEnded = true) (hstatus : x.status = none) (hclosed : x.closed = false)
    (hvote : (d.cnl.coords.any fun y => y.kind == 3 && y.id == x.key) = false) (hcommit : x.failMask = 0 → x.staged = true → x.committed = true)
    (hdelivers : x.failMask ≠ 0 → (x.parts.any fun p => p.desc.entryDst) = false) (now : Nat) :
    d.requestComplete now r = (d.touchCtx x.ctx now).completeReq now r := by
  have hmoves : x.kvMoves = false := by
    unfold SluReq.kvMoves
    split
    · next h => exact absurd h (hkv _ _ _)
    · next h => exact absurd h (hkv _ _ _)
    · next h => exact absurd h (hkv _ _ _)
    · rfl
  have hwaiting : (x.status.isNone && x.failMask == 0 && !x.committed && (x.staged || x.kvMoves)) = false := by
    rw [hmoves, Bool.or_false]
    by_cases hmask : x.failMask = 0
    · cases hst : x.staged with
      | false => simp
      | true => simp [hcommit hmask hst]
    · simp [hmask]
  have hnotSafe : (match x.purpose with
      | .safe _ _ _ => true
      | _ => false) = false := by
    split
    · next h => exact absurd h (hsafe _ _ _)
    · rfl
  have hdone (e : Dev) (failed : Bool) : e.kvRequestDone now r x.purpose failed = e := by
    unfold Dev.kvRequestDone
    split
    · next h => exact absurd h (hkv _ _ _)
    · rfl
  have hstays : ¬(x.failMask ≠ 0 ∧ (x.parts.any fun p => p.desc.entryDst) = true ∧ x.spill = 0) := by
    rintro ⟨hmask, hany, -⟩
    rw [hdelivers hmask] at hany
    cases hany
  have hrefused : (x.spill != 0 && !x.expired && (x.status == some Status.busy.code || x.status == some Status.badConfig.code || x.status == some Status.badReserved.code)) = false := by
    simp [hstatus]
  unfold Dev.requestComplete
  rw [hx]
  refine (if_neg ?_).trans ?_
  · rintro (h | h | h | h | h)
    · rw [hended] at h; cases h
    · rw [hwaiting] at h; cases h
    · rw [hclosed] at h; cases h
    · exact Bool.false_ne_true (hnotSafe.symm.trans h)
    · rw [hvote] at h; cases h
  · refine (if_neg hstays).trans ?_
    rw [hdone, hrefused]
    rfl

end Sys2Proof.Machine

namespace Sys2Proof.Machine

/-- A stretch of the bytes just written reads as they are. -/
theorem Memory.le_write_part (m : Memory) (a : Nat) (pre mid post : List Byte) : (m.write a (pre ++ mid ++ post)).le (a + pre.length) mid.length = leNat mid := by
  unfold Memory.le
  refine congrArg leNat (List.ext_getElem (by simp [Memory.read]) fun i h1 h2 => ?_)
  have hlen : pre.length + i < (pre ++ mid ++ post).length := by simp only [List.length_append]; omega
  have hget : (pre ++ mid ++ post)[pre.length + i]'hlen = mid[i] := by
    rw [List.getElem_append_left (by simp only [List.length_append]; omega), List.getElem_append_right (by omega)]
    simp
  rw [← hget]
  simp only [Memory.read, List.getElem_map, List.getElem_range]
  rw [Nat.add_assoc, Memory.get_write_inside hlen, List.getD_eq_getElem _ _ hlen]

/-- What the completion record of a request holds (R195). -/
theorem Dev.recordOf_fields (d : Dev) (x : SluReq) (key : Key) (m : Memory) (a : Nat) (hmask : x.failMask = 0) :
    (m.write a (d.recordOf x key)).le a 8 = key.dt % 2 ^ 64 ∧
      (m.write a (d.recordOf x key)).le (a + 16) 4 = (d.windowStatus x.ctx (statusOf x.outcome)).code * 2 ^ 16 ∧
      (m.write a (d.recordOf x key)).le (a + 20) 4 = x.reqId * 2 ^ 16 % 2 ^ 32 ∧ (m.write a (d.recordOf x key)).le (a + 24) 8 = x.bytes % 2 ^ 64 := by
  set st := leBytes 4 ((d.windowStatus x.ctx (statusOf x.outcome)).code * 2 ^ 16 + x.failMask) with hst
  have hcode := Status.code_lt (d.windowStatus x.ctx (statusOf x.outcome))
  refine ⟨?_, ?_, ?_, ?_⟩
  · have h := Memory.le_write_part m a [] (leBytes 8 key.dt) (leBytes 4 key.cnt ++ leBytes 2 key.src ++ leBytes 2 0 ++ st ++ leBytes 4 (x.reqId * 2 ^ 16) ++ leBytes 8 x.bytes)
    simpa [Dev.recordOf, Key.bytes, hst, leNat_leBytes] using h
  · have h := Memory.le_write_part m a key.bytes st (leBytes 4 (x.reqId * 2 ^ 16) ++ leBytes 8 x.bytes)
    rw [hst, leNat_leBytes, hmask, Nat.add_zero, Nat.mod_eq_of_lt (by omega), leBytes_length, Key.bytes_length] at h
    simpa [Dev.recordOf, hmask] using h
  · have h := Memory.le_write_part m a (key.bytes ++ st) (leBytes 4 (x.reqId * 2 ^ 16)) (leBytes 8 x.bytes)
    simpa [Dev.recordOf, leNat_leBytes, Key.bytes_length, hst] using h
  · have h := Memory.le_write_part m a (key.bytes ++ st ++ leBytes 4 (x.reqId * 2 ^ 16)) (leBytes 8 x.bytes) []
    simpa [Dev.recordOf, leNat_leBytes, Key.bytes_length, hst] using h

theorem Dev.dropReq_mem (d : Dev) (r : Nat) : (d.dropReq r).mem = d.mem := by
  have hsync (e : Dev) : e.syncEngines.mem = e.mem := List.foldlRecOn _ _ (motive := fun (f : Dev) => f.mem = e.mem) rfl fun _ h _ _ => h
  exact hsync _

theorem Dev.dropReq_gone (d : Dev) (r : Nat) : tget (d.dropReq r).slu.reqs r = none := by
  unfold Dev.dropReq
  rw [Dev.syncEngines_slu]
  exact tget_tdel ..

theorem requestComplete_records {s : State} {t r h li : Nat} {x : SluReq} (hdt : s.dt ≤ dtMax) (hx : tget s.dev.slu.reqs r = some x) (hpurpose : x.purpose = .list h li)
    (hended : x.allEnded = true) (hmask : x.failMask = 0) (hstatus : x.status = none) (hmaking : x.making = none) (hclosed : x.closed = false)
    (hcommit : x.staged = true → x.committed = true) (hvote : (s.dev.cnl.coords.any fun y => y.kind == 3 && y.id == x.key) = false) (hcell : x.cellOp = 0) (hcrec : x.crec ≠ 0) :
    Answers (.requestComplete t r) s fun s' => ∃ d1 : Dev, s'.dev = d1.settleEnds (s.now t) ∧ tget d1.slu.reqs r = none ∧ d1.mem.le x.crec 8 = s.now t ∧
      d1.mem.le (x.crec + 16) 4 = (s.dev.windowStatus x.ctx (if x.expired then .expired else .ok)).code * 2 ^ 16 ∧ d1.mem.le (x.crec + 20) 4 = x.reqId * 2 ^ 16 % 2 ^ 32 ∧
      d1.mem.le (x.crec + 24) 8 = x.bytes % 2 ^ 64 ∧ ∀ a, (a < x.crec ∨ x.crec + 32 ≤ a) → d1.mem.get a = s.dev.mem.get a := by
  have hwhole : ∀ h li, x.purpose = .list h li → x.nparts ≤ x.parts.length := fun _ _ _ => by
    unfold SluReq.allEnded at hended
    simp [hstatus] at hended
    exact hended.1
  set d0 := s.dev.touchCtx x.ctx (s.now t) with hd0
  have hdone : (s.dev.splitStep (s.now t) r).requestComplete (s.now t) r = (d0.recorded (s.now t) x).dropReq r := by
    rw [Dev.splitStep_of_whole hx hwhole, Dev.requestComplete_of_ready hx (by simp [hpurpose]) (by simp [hpurpose]) hended hstatus hclosed hvote (fun _ => hcommit) (absurd hmask)]
    exact Dev.completeReq_of_list (d := d0) hx hmask hstatus hmaking hcell _
  refine ⟨_, rfl, (d0.recorded (s.now t) x).dropReq r, congrArg (Dev.settleEnds · (s.now t)) hdone, Dev.dropReq_gone .., ?_⟩
  have hmem : ((d0.recorded (s.now t) x).dropReq r).mem = s.dev.mem.write x.crec (d0.recordOf x (d0.draw (0x0500 + x.lastEngine) (s.now t)).1) := by
    rw [Dev.dropReq_mem]
    unfold Dev.recorded
    dsimp only
    rw [if_neg hcrec]
    rfl
  have hst : statusOf x.outcome = if x.expired then .expired else .ok := by
    unfold SluReq.outcome
    rw [hstatus]
    dsimp only
    rw [if_neg (not_not_intro hmask)]
    cases x.expired <;> decide
  obtain ⟨hkey, hword, hid, hbytes⟩ := d0.recordOf_fields x (d0.draw (0x0500 + x.lastEngine) (s.now t)).1 s.dev.mem x.crec hmask
  have hnow : s.now t < 2 ^ 64 := Nat.lt_of_le_of_lt (s.now_le t hdt) (by decide)
  rw [hst, hd0, Dev.touchCtx_windowStatus] at hword
  rw [hmem]
  refine ⟨hkey.trans (Nat.mod_eq_of_lt hnow), hword, hid, hbytes, fun a ha => Memory.get_write_outside ?_⟩
  rwa [Dev.recordOf_length]

/-! ### A placement with a failed part -/

theorem LockFrame.dropDone (d : Dev) (r : Nat) (x : SluReq) : LockFrame d (d.dropDone r x) := by
  unfold Dev.dropDone
  split
  · refine .trans ?_ (.syncEngines _)
    exact .of_objs rfl rfl rfl rfl rfl
  · exact .dropReq ..

theorem requestComplete_fails {s : State} {t r m q ctx : Nat} {pin : Bool} {x : SluReq} {rq : Req} (hx : tget s.dev.slu.reqs r = some x) (hpurpose : x.purpose = .place m q ctx pin)
    (hended : x.allEnded = true) (hmask : x.failMask ≠ 0) (hstatus : x.status = none) (hclosed : x.closed = false)
    (hvote : (s.dev.cnl.coords.any fun y => y.kind == 3 && y.id == x.key) = false) (hcell : x.cellOp = 0) (hreq : s.dev.req? m q = some rq)
    (hplaces : (x.parts.all fun p => !p.desc.entryDst) = true) :
    Answers (.requestComplete t r) s fun s' => ∃ d1 : Dev, s'.dev = d1.settleEnds (s.now t) ∧ gone d1 rq ∧ wrote s.dev d1 rq Status.partialFail.code x.failMask [] := by
  have hwhole : ∀ h li, x.purpose = .list h li → x.nparts ≤ x.parts.length := fun h li hp => by rw [hpurpose] at hp; cases hp
  have hnone : (x.parts.any fun p => p.desc.entryDst) = false := by
    rw [List.any_eq_false]
    exact fun p hp => by simpa using List.all_eq_true.1 hplaces p hp
  set d0 := s.dev.touchCtx x.ctx (s.now t) with hd0
  have hdone : (s.dev.splitStep (s.now t) r).requestComplete (s.now t) r =
      (((d0.recorded (s.now t) x).finishAt (s.now t) (m, q) .partialFail x.failMask []).dropDone r x).unlockOf (s.now t) r x.making := by
    rw [Dev.splitStep_of_whole hx hwhole,
      Dev.requestComplete_of_ready hx (by simp [hpurpose]) (by simp [hpurpose]) hended hstatus hclosed hvote (fun h => absurd h hmask) (fun _ => hnone)]
    exact Dev.completeReq_of_place (d := d0) hx hpurpose hmask hstatus hcell _
  have hstew : (d0.recorded (s.now t) x).stew = s.dev.stew := by
    unfold Dev.recorded
    dsimp only
    split <;> rfl
  have hserved := Dev.finishAt_served (ms := (m, q)) hstew hreq (s.now t) .partialFail x.failMask []
  obtain ⟨hgone, hwrote⟩ := ((LockFrame.dropDone _ r x).trans (.unlockOf _ (s.now t) r x.making)).served hserved
  exact ⟨_, rfl, _, congrArg (Dev.settleEnds · (s.now t)) hdone, hgone, hwrote⟩

end Sys2Proof.Machine

namespace Sys2Proof.Machine

/-! ### Uncorrectable lines of the far store -/

/-- What an uncorrectable line of the far store writes to the ECC registers (R208). -/
theorem Dev.eccUncorrectable_far (d : Dev) (now a : Nat) :
    (d.eccUncorrectable now 2 a).fb (r0 .sluFarEcc) F.sluFarEcc.UE_FLAG = true ∧ (d.eccUncorrectable now 2 a).f (r0 .sluFarEccAddr) F.sluFarEccAddr.ADDR = a % 2 ^ 48 ∧
      (d.eccUncorrectable now 2 a).f (r0 .sluFarEcc) F.sluFarEcc.CE = d.f (r0 .sluFarEcc) F.sluFarEcc.CE ∧ (d.eccUncorrectable now 2 a).mem = d.mem := by
  set d1 := d.incSat (r0 .sluFarEcc) F.sluFarEcc.UE with hd1
  set d2 := d1.sf (r0 .sluFarEcc) F.sluFarEcc.UE_FLAG 1 with hd2
  set d3 := d2.sf (r0 .sluFarEccAddr) F.sluFarEccAddr.ADDR a with hd3
  have hecc : d.eccUncorrectable now 2 a = (d3.raise 224).almMc 0x050 2 now [a] := rfl
  have hrd (q : Reg) : (d.eccUncorrectable now 2 a).rd q = d3.rd q := Dev.rd_of_regs (by rw [hecc]; simp) q
  have hfar : d3.rd (r0 .sluFarEcc) = d2.rd (r0 .sluFarEcc) := Dev.rd_sf_ne (by decide)
  refine ⟨?_, ?_, ?_, ?_⟩
  · rw [Dev.fb_of_rd (hrd _), Dev.fb_of_rd hfar]
    exact Dev.fb_sf d1 _ true (by decide) rfl
  · rw [Dev.f_of_rd (hrd _)]
    exact Dev.f_sf d2 _ a (show F.sluFarEccAddr.ADDR.lo + F.sluFarEccAddr.ADDR.w ≤ 64 by decide)
  · rw [Dev.f_of_rd (hrd _), Dev.f_of_rd hfar, hd2, Dev.f_sf_ne 1 (show F.sluFarEcc.UE_FLAG.lo + F.sluFarEcc.UE_FLAG.w ≤ 64 by decide) (by decide)]
    exact Dev.f_sf_ne _ (show F.sluFarEcc.UE.lo + F.sluFarEcc.UE.w ≤ 64 by decide) (by decide)
  · rw [hecc]
    simp [hd3, hd2, hd1, Dev.incSat]

theorem patrolScrub_counts {s : State} {t n ce : Nat} {ue : Option Nat} (h0 : s.dev.on 158 = true) (h1 : s.dev.on 159 = true) (hwindow : s.dev.windowOpen = false) :
    Answers (.patrolScrub t n ce ue) s fun s' =>
      s'.dev.f (r0 .sluFarEcc) F.sluFarEcc.CE = min (2 ^ F.sluFarEcc.CE.w - 1) (s.dev.f (r0 .sluFarEcc) F.sluFarEcc.CE + ce) ∧
      (∀ a, ue = some a → s'.dev.fb (r0 .sluFarEcc) F.sluFarEcc.UE_FLAG = true ∧ s'.dev.f (r0 .sluFarEccAddr) F.sluFarEccAddr.ADDR = a % 2 ^ 48) ∧ s'.dev.mem = s.dev.mem := by
  refine ⟨_, rfl, ?_⟩
  dsimp only
  rw [if_pos ⟨h0, h1, hwindow⟩]
  have hpaid : Paid s.dev (s.dev.charge (s.now t) 5 5 n) := Dev.charge_paid ..
  have hce : ((s.dev.charge (s.now t) 5 5 n).addSat (r0 .sluFarEcc) F.sluFarEcc.CE ce).f (r0 .sluFarEcc) F.sluFarEcc.CE
      = min (2 ^ F.sluFarEcc.CE.w - 1) (s.dev.f (r0 .sluFarEcc) F.sluFarEcc.CE + ce) := by
    rw [Dev.f_addSat _ _ (show F.sluFarEcc.CE.lo + F.sluFarEcc.CE.w ≤ 64 by decide), Dev.f_of_rd (hpaid.regs.rd (r0 .sluFarEcc) rfl)]
  cases ue with
  | none => exact ⟨hce, by simp, hpaid.mem⟩
  | some a =>
    obtain ⟨hflag, haddr, hkeep, hmem⟩ := ((s.dev.charge (s.now t) 5 5 n).addSat (r0 .sluFarEcc) F.sluFarEcc.CE ce).eccUncorrectable_far (s.now t) a
    refine ⟨hkeep.trans hce, ?_, hmem.trans hpaid.mem⟩
    rintro b ⟨⟩
    exact ⟨hflag, haddr⟩

end Sys2Proof.Machine

namespace Sys2Proof.Machine

/-! ### An engine goes on after a failure -/

theorem Dev.runningPart_engine {d : Dev} {eng r : Nat} {p : Part} (h : d.runningPart eng = some (r, p)) : p.engine = eng := by
  obtain ⟨-, -, -, heng, -⟩ := Dev.mem_partsOn.1 (List.mem_of_head? h)
  exact heng

/-- A write of a field leaves each flag that lies beside it. -/
theorem Dev.fb_sf_beside {x y : Fld} (hx : x.lo + x.w ≤ 64) (hd : y.lo + y.w ≤ x.lo ∨ x.lo + x.w ≤ y.lo) (d : Dev) (q r : Reg) (n : Nat) : (d.sf r x n).fb q y = d.fb q y := by
  by_cases h : q = r
  · rw [h, Dev.fb_sf_ne n hx hd]
  · exact Dev.fb_of_rd (Dev.rd_sf_ne h) y

/-- The counts of an engine's queue leave what became of its parts (R191). -/
theorem Dev.syncEngine_history {y : Fld} (hy : y = F.sluEngStat.FAILED ∨ y = F.sluEngStat.RETRIED) (d : Dev) (q : Reg) (n : Nat) : (d.syncEngine n).fb q y = d.fb q y := by
  unfold Dev.syncEngine
  rcases hy with rfl | rfl
  · exact (Dev.fb_sf_beside (by decide) (by decide) ..).trans ((Dev.fb_sf_beside (by decide) (by decide) ..).trans (Dev.fb_sf_beside (by decide) (by decide) ..))
  · exact (Dev.fb_sf_beside (by decide) (by decide) ..).trans ((Dev.fb_sf_beside (by decide) (by decide) ..).trans (Dev.fb_sf_beside (by decide) (by decide) ..))

/-- Resuming changes nothing, or lets one parked part of the engine run (R192). -/
theorem Dev.resumeParked_cases (d : Dev) (now eng : Nat) :
    d.resumeParked now eng = d ∨ ∃ e ∈ d.partsOn eng .parked,
      d.resumeParked now eng = (d.modPart e.1 e.2.index fun p => { p with state := .running, parks := (p.parkedAt, now) :: p.parks }).syncEngine eng := by
  unfold Dev.resumeParked
  split
  · exact .inl rfl
  · split
    · next e he => exact .inr ⟨e, List.mem_of_find?_eq_some he, rfl⟩
    · exact .inl rfl

theorem Dev.resumeParked_history {y : Fld} (hy : y = F.sluEngStat.FAILED ∨ y = F.sluEngStat.RETRIED) (d : Dev) (now eng : Nat) (q : Reg) :
    (d.resumeParked now eng).fb q y = d.fb q y := by
  obtain h | ⟨e, -, h⟩ := d.resumeParked_cases now eng
  · rw [h]
  · rw [h, Dev.syncEngine_history hy]
    rfl

theorem Dev.resumeParked_eic (d : Dev) (now eng : Nat) : (d.resumeParked now eng).eic = d.eic := by
  obtain h | ⟨e, -, h⟩ := d.resumeParked_cases now eng
  · rw [h]
  · rw [h]
    rfl

theorem Dev.tget_modReq_ne {d : Dev} {j r : Nat} (h : j ≠ r) (f : SluReq → SluReq) : tget (d.modReq r f).slu.reqs j = tget d.slu.reqs j :=
  tget_tmod.trans (if_neg h)

/-- Resuming changes parts of a request at most; those of an index that is parked nowhere on the engine stay. -/
theorem Dev.resumeParked_req {d : Dev} {r : Nat} {x : SluReq} (hx : tget d.slu.reqs r = some x) (now eng : Nat) :
    ∃ x', tget (d.resumeParked now eng).slu.reqs r = some x' ∧ x'.failMask = x.failMask ∧
      ∀ i, (∀ e ∈ d.partsOn eng .parked, e.1 = r → e.2.index ≠ i) → ∀ q ∈ x'.parts, q.index = i → q ∈ x.parts := by
  obtain h | ⟨e, he, h⟩ := d.resumeParked_cases now eng
  · exact ⟨x, by rw [h, hx], rfl, fun _ _ q hq _ => hq⟩
  · rw [h, Dev.syncEngine_slu]
    by_cases hr : e.1 = r
    · rw [hr]
      refine ⟨_, Dev.tget_modPart hx .., rfl, fun i hi q hq hqi => ?_⟩
      obtain ⟨p, hp, rfl⟩ := List.mem_map.1 hq
      by_cases hp' : p.index = e.2.index
      · rw [if_pos hp'] at hqi
        exact absurd (hp'.symm.trans hqi) (hi e he hr)
      · rw [if_neg hp']
        exact hp
    · exact ⟨x, (Dev.tget_modReq_ne (Ne.symm hr) _).trans hx, rfl, fun _ _ q hq _ => hq⟩

/-! ### A part that fails for good -/

/-- The marks of a part that failed for good (R204, R205): the request's FAILMASK, FAILED, the event, the almanac. -/
def Dev.markFailed (d : Dev) (now r : Nat) (p : Part) : Dev :=
  (((((d.modPart r p.index fun p => { p with failed := true, state := .ended }).modReq r fun x =>
    { x with failMask := x.failMask ||| 2 ^ p.index, lastEngine := p.engine }).sf (r1 .sluEngStat p.engine) F.sluEngStat.FAILED 1).raise (212 + p.engine)).syncEngine
      p.engine).alm 0x051 2 p.key now [p.desc.srcAddr, p.desc.req, p.key.dt, p.key.src, p.key.cnt]

theorem Dev.markFailed_req {d : Dev} {r : Nat} {x : SluReq} (hx : tget d.slu.reqs r = some x) (now : Nat) (p : Part) :
    ∃ x', tget (d.markFailed now r p).slu.reqs r = some x' ∧ x'.failMask = x.failMask ||| 2 ^ p.index ∧ x'.spill = x.spill := by
  unfold Dev.markFailed
  rw [Dev.alm_slu, Dev.syncEngine_slu, Dev.raise_slu, Dev.sf_slu]
  exact ⟨_, Dev.tget_modReq (Dev.tget_modPart hx ..) _, rfl, rfl⟩

theorem Dev.markFailed_failed (d : Dev) (now r : Nat) (p : Part) : (d.markFailed now r p).fb (r1 .sluEngStat p.engine) F.sluEngStat.FAILED = true := by
  unfold Dev.markFailed
  rw [Dev.fb_of_rd (Dev.rd_of_regs (Dev.alm_regs ..) _), Dev.syncEngine_history (.inl rfl), Dev.fb_of_rd (Dev.rd_of_regs (Dev.raise_regs ..) _)]
  exact Dev.fb_sf _ _ true (by decide) rfl

theorem Dev.markFailed_pend {d : Dev} {p : Part} (heng : p.engine < 12) (hon : d.on 156 = true) (now r : Nat) : (d.markFailed now r p).eic.pend.contains (212 + p.engine) = true := by
  have hlisted : eicListed (212 + p.engine) = true := by
    unfold eicListed
    simp only [Bool.or_eq_true, Bool.and_eq_true, decide_eq_true_eq]
    omega
  unfold Dev.markFailed
  rw [Dev.alm_eic]
  exact Dev.raise_pend hlisted hon

/-- A failed part of a request without a spillway ends, and its engine goes on (R205, R206). -/
theorem Dev.partDead_of_unspilled {d : Dev} {r : Nat} {x : SluReq} (hx : tget d.slu.reqs r = some x) (hspill : x.spill = 0) (now : Nat) (p : Part) :
    d.partDead now r p = (d.markFailed now r p).resumeParked now p.engine := by
  obtain ⟨x', hx', -, hspill'⟩ := d.markFailed_req hx now p
  show (if (match tget (d.markFailed now r p).slu.reqs r with
    | some x => x.spill != 0 && !x.expired
    | none => false) = true then _ else d.markFailed now r p).resumeParked now p.engine = _
  rw [hx', if_neg (by simp [hspill', hspill])]

theorem partFail_dead {s : State} {t eng r : Nat} {why : PartFailure} {x : SluReq} {p : Part} (hwhy : why = .flash ∨ why = .access) (hon : s.dev.sluiceOn eng = true)
    (hrun : s.dev.runningPart eng = some (r, p)) (hx : tget s.dev.slu.reqs r = some x) (hspill : x.spill = 0) :
    Answers (.partFail t eng why) s fun s' => (∃ x', tget s'.dev.slu.reqs r = some x' ∧ x'.failMask = x.failMask ||| 2 ^ p.index) ∧
      s'.dev.fb (r1 .sluEngStat eng) F.sluEngStat.FAILED = true ∧ (s.dev.on 156 = true → s'.dev.eic.pend.contains (212 + eng) = true) := by
  have hdead : s.dev.partFail (s.now t) eng why = (s.dev.markFailed (s.now t) r p).resumeParked (s.now t) p.engine := by
    rw [← Dev.partDead_of_unspilled hx hspill]
    unfold Dev.partFail
    rw [hrun]
    rcases hwhy with rfl | rfl <;> rfl
  have hlt : eng < 12 := by
    unfold Dev.sluiceOn at hon
    simp only [Bool.and_eq_true, decide_eq_true_eq] at hon
    exact hon.1
  obtain ⟨x1, hx1, hmask1, -⟩ := s.dev.markFailed_req hx (s.now t) p
  obtain ⟨x2, hx2, hmask2, -⟩ := Dev.resumeParked_req hx1 (s.now t) p.engine
  have heng := Dev.runningPart_engine hrun
  refine ⟨_, rfl, ?_⟩
  dsimp only
  rw [if_pos hon, hdead]
  refine ⟨⟨x2, hx2, hmask2.trans hmask1⟩, ?_, fun h156 => ?_⟩
  · rw [← heng, Dev.resumeParked_history (.inl rfl), Dev.markFailed_failed]
  · rw [← heng, Dev.resumeParked_eic]
    exact Dev.markFailed_pend (heng ▸ hlt) h156 ..

end Sys2Proof.Machine

namespace Sys2Proof.Machine

/-! ### A part that failed once goes to another engine -/

theorem Dev.syncEngines_mem (d : Dev) : d.syncEngines.mem = d.mem :=
  List.foldlRecOn _ _ (motive := fun (e : Dev) => e.mem = d.mem) rfl fun _ h _ _ => h

theorem Dev.syncEngines_history {y : Fld} (hy : y = F.sluEngStat.FAILED ∨ y = F.sluEngStat.RETRIED) (d : Dev) (q : Reg) : d.syncEngines.fb q y = d.fb q y :=
  List.foldlRecOn _ _ (motive := fun (e : Dev) => e.fb q y = d.fb q y) rfl fun _ h _ _ => (Dev.syncEngine_history hy ..).trans h

/-- Moving a failed part's staging changes bytes and where the staging lies, and nothing where there is none (R204). -/
theorem Dev.restage_req {d : Dev} {r : Nat} {x : SluReq} (hx : tget d.slu.reqs r = some x) (p : Part) :
    ∃ x', tget (d.restage r p).slu.reqs r = some x' ∧ x'.failMask = x.failMask := by
  have hmoved (l : Loc) (n : Nat) (rel : Memory) (g : SluReq → SluReq) (hg : ∀ y, (g y).failMask = y.failMask) :
      ∃ x', tget ((d.locPut l 0 n rel).modReq r g).slu.reqs r = some x' ∧ x'.failMask = x.failMask :=
    ⟨g x, Dev.tget_modReq ((DataMoved.locPut d l 0 n rel).reqs ▸ hx) g, hg x⟩
  unfold Dev.restage
  rw [hx]
  dsimp only
  split
  · split
    · exact ⟨x, hx, rfl⟩
    · split
      · exact hmoved _ _ _ _ fun _ => rfl
      · exact ⟨x, hx, rfl⟩
  · split
    · exact ⟨x, hx, rfl⟩
    · split
      · exact hmoved _ _ _ _ fun _ => rfl
      · exact ⟨x, hx, rfl⟩
  · exact ⟨x, hx, rfl⟩

theorem Dev.restage_of_none {d : Dev} {r : Nat} {x : SluReq} {p : Part} (hx : tget d.slu.reqs r = some x) (hstage : x.stage = none) (harea : p.area = none) : d.restage r p = d := by
  unfold Dev.restage
  rw [hx]
  dsimp only
  rw [harea, hstage]

/-- A part as it is queued again on another engine (R204). -/
def Part.requeued (q : Part) (n : Nat) (key : Key) : Part :=
  { q with engine := n, key := key, state := .queued, retried := true, prog := 0, pos := if q.desc.entryDst || q.desc.entrySrc then q.pos else 0 }

/-- The part of a request queued again on engine n, before its old engine goes on (R204). -/
def Dev.requeue (d : Dev) (now r n : Nat) (p : Part) : Dev :=
  let k := (d.restage r p).draw (0x0500 + n) now
  (((k.2.modPart r p.index fun q => q.requeued n k.1).sf (r1 .sluEngStat n) F.sluEngStat.RETRIED 1).raise (212 + n)).syncEngines

/-- Another engine with room, the lowest-numbered (R204). -/
def Dev.otherEngine (d : Dev) (p : Part) : Option Nat := lowest 12 fun k => k != p.engine && decide ((d.partsOn k .queued).length < 64)

theorem Dev.partTransient_of_room {d : Dev} {n : Nat} {p : Part} (hretried : p.retried = false) (hroom : d.otherEngine p = some n) (now r : Nat) :
    d.partTransient now r p = (d.requeue now r n p).resumeParked now p.engine := by
  unfold Dev.otherEngine at hroom
  unfold Dev.partTransient
  rw [if_neg (by simp [hretried]), hroom]
  rfl

theorem Dev.requeue_req {d : Dev} {r : Nat} {x : SluReq} (hx : tget d.slu.reqs r = some x) (now n : Nat) (p : Part) :
    ∃ x', tget (d.requeue now r n p).slu.reqs r = some x' ∧ x'.failMask = x.failMask ∧
      ∀ q ∈ x'.parts, q.index = p.index → q.engine = n ∧ q.state = .queued ∧ q.retried = true := by
  obtain ⟨x0, hx0, hmask⟩ := Dev.restage_req hx p
  unfold Dev.requeue
  dsimp only
  rw [Dev.syncEngines_slu, Dev.raise_slu, Dev.sf_slu]
  refine ⟨_, Dev.tget_modPart (d := ((d.restage r p).draw _ _).2) hx0 .., hmask, fun q hq hi => ?_⟩
  obtain ⟨q0, -, -, rfl⟩ := mem_map_index hq hi
  exact ⟨rfl, rfl, rfl⟩

/-- The engine that a part has left has no parked part of its index in the request. -/
theorem Dev.requeue_left {d : Dev} {r n : Nat} {p : Part} (hn : n ≠ p.engine) (now : Nat) (st : PartState) :
    ∀ e ∈ (d.requeue now r n p).partsOn p.engine st, e.1 = r → e.2.index ≠ p.index := by
  rintro ⟨r', q⟩ he rfl hi
  obtain ⟨y, hy, hq, heng, -⟩ := Dev.mem_partsOn.1 he
  unfold Dev.requeue at hy
  dsimp only at hy
  rw [Dev.syncEngines_slu, Dev.raise_slu, Dev.sf_slu] at hy
  obtain ⟨a, -, ha⟩ := List.mem_map.1 hy
  split at ha
  · obtain ⟨-, rfl⟩ := Prod.mk.inj ha
    obtain ⟨q0, -, -, rfl⟩ := mem_map_index hq hi
    exact hn heng
  · next hne =>
    subst ha
    exact hne rfl

theorem Dev.requeue_retried (d : Dev) (now r n : Nat) (p : Part) : (d.requeue now r n p).fb (r1 .sluEngStat n) F.sluEngStat.RETRIED = true := by
  unfold Dev.requeue
  dsimp only
  rw [Dev.syncEngines_history (.inr rfl), Dev.fb_of_rd (Dev.rd_of_regs (Dev.raise_regs ..) _)]
  exact Dev.fb_sf _ _ true (by decide) rfl

theorem Dev.requeue_mem {d : Dev} {r : Nat} {x : SluReq} {p : Part} (hx : tget d.slu.reqs r = some x) (hstage : x.stage = none) (harea : p.area = none) (now n : Nat) :
    (d.requeue now r n p).mem = d.mem := by
  unfold Dev.requeue
  dsimp only
  rw [Dev.syncEngines_mem, Dev.raise_mem, Dev.restage_of_none hx hstage harea]
  rfl

/-- A first transient failure queues the part on another engine, without a mark in FAILMASK (R204). -/
theorem Dev.partTransient_requeues {d : Dev} {r n : Nat} {x : SluReq} {p : Part} (hx : tget d.slu.reqs r = some x) (hretried : p.retried = false) (hroom : d.otherEngine p = some n)
    (now : Nat) :
    (∃ x', tget (d.partTransient now r p).slu.reqs r = some x' ∧ x'.failMask = x.failMask ∧
      (∀ q ∈ x'.parts, q.index = p.index → q.engine = n ∧ q.state = .queued ∧ q.retried = true)) ∧
      (d.partTransient now r p).fb (r1 .sluEngStat n) F.sluEngStat.RETRIED = true ∧ (x.stage = none → p.area = none → (d.partTransient now r p).mem = d.mem) := by
  have hn : n ≠ p.engine := by
    obtain ⟨-, hother, -⟩ := lowest_spec hroom
    simp only [Bool.and_eq_true, bne_iff_ne] at hother
    exact hother.1
  obtain ⟨x1, hx1, hmask1, hparts1⟩ := Dev.requeue_req hx now n p
  obtain ⟨x2, hx2, hmask2, hparts2⟩ := Dev.resumeParked_req hx1 now p.engine
  rw [Dev.partTransient_of_room hretried hroom]
  refine ⟨⟨x2, hx2, hmask2.trans hmask1, fun q hq hi => ?_⟩, ?_, fun hstage harea => ?_⟩
  · exact hparts1 q (hparts2 p.index (Dev.requeue_left hn now .parked) q hq hi) hi
  · rw [Dev.resumeParked_history (.inr rfl), Dev.requeue_retried]
  · rw [Dev.resumeParked_mem, Dev.requeue_mem hx hstage harea]

/-- The notes of a near-store link's failure (R210). -/
def Dev.noteNearLink (d : Dev) : Dev := ((d.addSat (r0 .sluNearEcc) F.sluNearEcc.CRC_RETRY 4).sf (r0 .sluNearEcc) F.sluNearEcc.UE_FLAG 1).raise 225

/-- The events of a first transient failure: a link's, or 100 µs without an end (R204). -/
def transientAt (s : State) (t eng lastByte : Nat) (p : Part) (i : Instr) : Prop :=
  i = .partFail t eng .nearLink ∨ i = .partFail t eng .canalLink ∨
    (i = .partTimeout t eng lastByte ∧ p.startAt ≤ lastByte ∧ lastByte ≤ s.now t ∧ 100000 ≤ s.dev.activeSince p lastByte (s.now t))

/-- Each of them is a transient failure of the running part. -/
theorem exec_of_transientAt {s : State} {t eng lastByte r : Nat} {p : Part} {i : Instr} (hon : s.dev.sluiceOn eng = true) (hrun : s.dev.runningPart eng = some (r, p))
    (hi : transientAt s t eng lastByte p i) : ∃ d, (d = s.dev ∨ d = s.dev.noteNearLink) ∧ exec i s = .next { s with dt := s.now t, dev := d.partTransient (s.now t) r p } := by
  have hfail (why : PartFailure) : exec (.partFail t eng why) s = .next { s with dt := s.now t, dev := s.dev.partFail (s.now t) eng why } := by
    show execPartFail t eng why s = _
    unfold execPartFail State.run
    dsimp only
    rw [if_pos hon]
  rcases hi with rfl | rfl | ⟨rfl, hwhen⟩
  · refine ⟨_, .inr rfl, (hfail _).trans ?_⟩
    unfold Dev.partFail
    rw [hrun]
    rfl
  · refine ⟨_, .inl rfl, (hfail _).trans ?_⟩
    unfold Dev.partFail
    rw [hrun]
  · refine ⟨_, .inl rfl, ?_⟩
    show execPartTimeout t eng lastByte s = _
    unfold execPartTimeout State.run
    dsimp only
    rw [hrun]
    dsimp only
    rw [if_pos ⟨hon, hwhen⟩]

theorem transient_requeues {s : State} {t eng r n lastByte : Nat} {x : SluReq} {p : Part} {i : Instr} (hon : s.dev.sluiceOn eng = true) (hrun : s.dev.runningPart eng = some (r, p))
    (hx : tget s.dev.slu.reqs r = some x) (hretried : p.retried = false) (hroom : s.dev.otherEngine p = some n) (hi : transientAt s t eng lastByte p i) :
    Answers i s fun s' => (∃ x', tget s'.dev.slu.reqs r = some x' ∧ x'.failMask = x.failMask ∧ (∀ q ∈ x'.parts, q.index = p.index → q.engine = n ∧ q.state = .queued ∧ q.retried = true)) ∧
      s'.dev.fb (r1 .sluEngStat n) F.sluEngStat.RETRIED = true ∧ (x.stage = none → p.area = none → s'.dev.mem = s.dev.mem) := by
  obtain ⟨d, hd, hexec⟩ := exec_of_transientAt hon hrun hi
  have hsame : d.slu = s.dev.slu ∧ d.mem = s.dev.mem := by
    rcases hd with rfl | rfl
    · exact ⟨rfl, rfl⟩
    · exact ⟨(Dev.raise_slu ..).trans rfl, (Dev.raise_mem ..).trans rfl⟩
  obtain ⟨hslu, hmem⟩ := hsame
  have hroom' : d.otherEngine p = some n := by
    unfold Dev.otherEngine at hroom ⊢
    simpa only [Dev.partsOn_of_reqs (congrArg SluSt.reqs hslu)] using hroom
  obtain ⟨hreq, hflag, hkept⟩ := Dev.partTransient_requeues (hslu ▸ hx) hretried hroom' (s.now t)
  exact ⟨_, hexec, hreq, hflag, fun hstage harea => (hkept hstage harea).trans hmem⟩

end Sys2Proof.Machine

namespace Sys2Proof.Machine

/-! ### Registers that the sluice's own steps leave -/

/-- The registers that the sluice's lists, locks and spillways do not write: all but the completion ring's, the engines' status and the spill counts. -/
def RegName.isBesideSluice (x : RegName) : Bool := x != .mbxCpl && x != .mbxStat && x != .sluEngStat && x != .sluCtxSpill

/-- A step of the sluice that writes no other registers. -/
abbrev SluiceOnly (d e : Dev) : Prop := KeepsRegs RegName.isBesideSluice d e

namespace SluiceOnly

theorem modObj (d : Dev) (i : Nat) (f : Obj → Obj) : SluiceOnly d (d.modObj i f) := .of_regs (DataMoved.modObj d i f).regs

theorem with_slu (d : Dev) (x : SluSt) : SluiceOnly d { d with slu := x } := .of_regs rfl

theorem addReq (d : Dev) (x : SluReq) : SluiceOnly d (d.addReq x).2 := .of_regs rfl

theorem syncEngine (d : Dev) (n : Nat) : SluiceOnly d (d.syncEngine n) := d.syncEngine_keepsRegs n rfl

theorem syncEngines (d : Dev) : SluiceOnly d d.syncEngines := .foldl syncEngine _ d

theorem queuePart (d : Dev) (now r eng index : Nat) (x : Desc) (st : PartState) (area : Option (Loc × Nat)) : SluiceOnly d (d.queuePart now r eng index x st area) := by
  unfold Dev.queuePart
  refine .trans ?_ (syncEngine ..)
  exact .of_regs rfl

theorem openDeadline (d : Dev) (r dl eng : Nat) : SluiceOnly d (d.openDeadline r dl eng) := by
  unfold Dev.openDeadline
  split
  · exact .refl _ d
  · exact .of_regs rfl

theorem finishAt (d : Dev) (now : Nat) (ms : Nat × Nat) (st : Status) (de : Nat) (b : List Byte) : SluiceOnly d (d.finishAt now ms st de b) := by
  refine ⟨fun r hr => Dev.finishAt_rd ?_ ?_⟩ <;> rintro h <;> simp [h, RegName.isBesideSluice] at hr

theorem finishPurpose (d : Dev) (now : Nat) (p : Purpose) (st : Status) (de : Nat) : SluiceOnly d (d.finishPurpose now p st de) := by
  cases p with
  | place => exact finishAt ..
  | writeBack => exact finishAt ..
  | initCopy => exact finishAt ..
  | safe => exact .refl _ d
  | list => exact .refl _ d
  | kv => exact .refl _ d

theorem dropReq (d : Dev) (r : Nat) : SluiceOnly d (d.dropReq r) := by
  unfold Dev.dropReq
  refine .trans ?_ (syncEngines _)
  exact .of_regs rfl

theorem cutReq (d : Dev) (r : Nat) (st : Status) : SluiceOnly d (d.cutReq r st) := (KeepsRegs.modReq ..).trans (syncEngines _)

theorem startMove {d : Dev} {now i cls ctx : Nat} {o : Obj} {src dst : Loc} {key : Key} {p : Purpose} {making : Option (Nat × Nat)} {x : Nat × Dev}
    (h : d.startMove now i o src dst cls ctx key p making = some x) : SluiceOnly d x.2 := by
  unfold Dev.startMove at h
  split at h
  · cases h
  · cases h
    exact ((addReq ..).trans (modObj ..)).trans (queuePart ..)

theorem tryPromote (d : Dev) (now i : Nat) (q : LockReq) : SluiceOnly d (d.tryPromote now i q) := by
  unfold Dev.tryPromote
  split
  · exact finishAt ..
  · dsimp only
    split
    · exact (modObj ..).trans (finishAt ..)
    · split
      · split
        · next h => exact startMove h
        · exact finishAt ..
      · exact finishAt ..

theorem tryEvict (d : Dev) (now i : Nat) (q : LockReq) : SluiceOnly d (d.tryEvict now i q) := by
  unfold Dev.tryEvict
  split
  · exact finishAt ..
  · dsimp only
    split
    · exact finishAt ..
    · split
      · exact (modObj ..).trans (finishAt ..)
      · split
        · split
          · split
            · split
              · next h => exact startMove h
              · exact finishAt ..
            · exact finishAt ..
          · exact .refl _ d
        · exact ((modObj ..).trans (modObj ..)).trans (finishAt ..)

theorem serveLock (d : Dev) (now i : Nat) (q : LockReq) : SluiceOnly d (d.serveLock now i q) := by
  unfold Dev.serveLock
  split
  · exact tryPromote ..
  · exact tryPromote ..
  · exact tryEvict ..
  · exact tryEvict ..
  · split
    · exact ((modObj ..).trans (.modReq ..)).trans (syncEngines _)
    · exact .refl _ d

theorem passLock (d : Dev) (now i : Nat) (f g : Obj → Obj) (q : LockReq) : SluiceOnly d (((d.modObj i f).modObj i g).serveLock now i q) :=
  ((modObj ..).trans (modObj ..)).trans (serveLock ..)

theorem unlock (d : Dev) (now i k : Nat) : SluiceOnly d (d.unlock now i k) := by
  induction k generalizing d with
  | zero => exact modObj ..
  | succ k ih =>
    unfold Dev.unlock
    dsimp only
    split
    · exact modObj ..
    · split
      · exact modObj ..
      · split
        · split
          · exact (passLock ..).trans (ih _)
          · exact passLock ..
        · exact passLock ..

theorem unlockOf (d : Dev) (now r : Nat) (m : Option (Nat × Nat)) : SluiceOnly d (d.unlockOf now r m) := by
  unfold Dev.unlockOf
  split
  · split
    · exact unlock ..
    · exact .refl _ d
  · exact .refl _ d

theorem cancelMove (d : Dev) (now r by_ : Nat) : SluiceOnly d (d.cancelMove now r by_) := by
  unfold Dev.cancelMove
  split
  · exact .refl _ d
  · dsimp only
    split
    · exact ((finishPurpose ..).trans (cutReq ..)).trans (unlockOf ..)
    · exact ((finishPurpose ..).trans (dropReq ..)).trans (unlockOf ..)

theorem turnAway (d : Dev) (now : Nat) (q : LockReq) (st : Status) (de : Nat) : SluiceOnly d (d.turnAway now q st de) := by
  unfold Dev.turnAway
  split
  · exact (cutReq ..).trans (unlockOf ..)
  · exact finishAt ..

theorem requestLock (d : Dev) (now i : Nat) (q : LockReq) : SluiceOnly d (d.requestLock now i q) := by
  unfold Dev.requestLock
  split
  · exact turnAway ..
  · extract_lets against holder hit foes later winner d1 d2
    have hfoes : SluiceOnly d d1 := (modObj ..).trans (.foldl (fun _ _ => turnAway ..) _ _)
    have hcancel : SluiceOnly d d2 := by
      unfold d2
      clear_value d1 hit holder
      cases holder with
      | none => exact hfoes
      | some x =>
        dsimp only
        split
        · exact hfoes.trans (cancelMove ..)
        · exact hfoes
    split
    · exact turnAway ..
    · split
      · exact hcancel.trans (turnAway ..)
      · split
        · exact hcancel.trans (serveLock ..)
        · split
          · exact hcancel.trans (modObj ..)
          · exact hcancel.trans (turnAway ..)

theorem addListPart (d : Dev) (now r : Nat) (x : Desc) : SluiceOnly d (d.addListPart now r x) := by
  unfold Dev.addListPart
  extract_lets q s area eng mine
  clear_value area eng q
  split
  · extract_lets d1 d2
    have hpart : SluiceOnly d d1 := queuePart ..
    have hdeadline : SluiceOnly d d2 := by
      unfold d2
      clear_value d1
      split
      · exact hpart.trans (openDeadline ..)
      · exact hpart
    split
    · split
      · exact hdeadline
      · exact hdeadline.trans (requestLock ..)
    · exact hdeadline
  · exact cutReq ..

theorem queueDesc (d : Dev) (now h li : Nat) (x : Desc) : SluiceOnly d (d.queueDesc now h li x) := by
  unfold Dev.queueDesc
  extract_lets p d0 mk q0 whole s q
  have hdrawn : SluiceOnly d d0 := .of_regs rfl
  clear_value d0
  have hreq (y : SluReq) : SluiceOnly d (d0.addReq y).2 := hdrawn.trans (addReq ..)
  have hwhole (i t : Nat) (o : Obj) (b : Bool) : SluiceOnly d (whole i t o b) := by
    unfold whole
    split
    · exact hreq _
    · exact (hreq _).trans (addListPart ..)
  split
  · exact hreq _
  · split
    · exact hdrawn.trans (addListPart ..)
    · split
      · split
        · exact hreq _
        · split
          · split
            · exact hdrawn
            · exact hreq _
          · exact hwhole ..
      · split
        · split
          · exact hwhole ..
          · exact (hreq _).trans (addListPart ..)
        · exact (hreq _).trans (addListPart ..)

theorem listQueue (d : Dev) (now h li : Nat) : SluiceOnly d (d.listQueue now h li) := by
  unfold Dev.listQueue
  split
  · split
    · exact (with_slu d _).trans (queueDesc ..)
    · exact .refl _ d
  · exact .refl _ d

theorem listStart (d : Dev) (now h li : Nat) : SluiceOnly d (d.listStart now h li) := by
  unfold Dev.listStart
  split
  · exact .refl _ d
  · extract_lets slu d1
    have h1 : SluiceOnly d d1 := with_slu d _
    split
    · split
      · exact h1.trans (listQueue ..)
      · exact h1
    · exact h1

theorem countSpill (d : Dev) (h ctx : Nat) (stalled : Bool) : SluiceOnly d (d.countSpill h ctx stalled) := by
  unfold Dev.countSpill
  extract_lets d1
  have h1 : SluiceOnly d d1 := .of_regs rfl
  exact h1.trans (.sf _ _ rfl)

theorem postToken (d : Dev) (now l e : Nat) : SluiceOnly d (d.postToken now l e) := .of_regs (DataMoved.modEntry ..).regs

theorem takeSpillway (d : Dev) (now r : Nat) : SluiceOnly d (d.takeSpillway now r) := by
  unfold Dev.takeSpillway
  split
  · exact .refl _ d
  · split
    · split
      · exact .refl _ d
      · split
        · exact .refl _ d
        · split
          · exact ((countSpill ..).trans (listStart ..)).trans (postToken ..)
          · split
            · exact (countSpill ..).trans (postToken ..)
            · exact (countSpill ..).trans (.of_regs rfl)
    · exact .refl _ d

theorem resumeParked (d : Dev) (now eng : Nat) : SluiceOnly d (d.resumeParked now eng) := by
  obtain h | ⟨e, -, h⟩ := d.resumeParked_cases now eng
  · rw [h]
    exact .refl _ d
  · rw [h]
    exact (KeepsRegs.modReq ..).trans (syncEngine ..)

theorem markFailed (d : Dev) (now r : Nat) (p : Part) : SluiceOnly d (d.markFailed now r p) := by
  unfold Dev.markFailed
  refine .trans ?_ (.of_regs (Dev.alm_regs ..))
  refine .trans ?_ (syncEngine ..)
  exact (((KeepsRegs.modReq ..).trans (.modReq ..)).trans (.sf _ _ rfl)).trans (.raise _)

/-- A part that fails for good writes no ECC register (R204 to R206). -/
theorem partDead (d : Dev) (now r : Nat) (p : Part) : SluiceOnly d (d.partDead now r p) := by
  show SluiceOnly d ((if (match tget (d.markFailed now r p).slu.reqs r with
    | some x => x.spill != 0 && !x.expired
    | none => false) = true then ((d.markFailed now r p).modReq r fun x => { x with expired := true }).takeSpillway now r
    else d.markFailed now r p).resumeParked now p.engine)
  exact (KeepsRegs.ite ((markFailed ..).trans ((KeepsRegs.modReq ..).trans (takeSpillway ..))) (markFailed ..)).trans (resumeParked ..)

end SluiceOnly

theorem partFail_uncorrectable {s : State} {t eng a : Nat} (hon : s.dev.sluiceOn eng = true) (hrun : (s.dev.runningPart eng).isSome = true) :
    Answers (.partFail t eng (.uncorrectable 2 a)) s fun s' =>
      s'.dev.fb (r0 .sluFarEcc) F.sluFarEcc.UE_FLAG = true ∧ s'.dev.f (r0 .sluFarEccAddr) F.sluFarEccAddr.ADDR = a % 2 ^ 48 := by
  obtain ⟨⟨r, p⟩, hp⟩ := Option.isSome_iff_exists.1 hrun
  have hfail : s.dev.partFail (s.now t) eng (.uncorrectable 2 a) = (s.dev.eccUncorrectable (s.now t) 2 a).partDead (s.now t) r p := by
    unfold Dev.partFail
    rw [hp]
  have hkept := SluiceOnly.partDead (s.dev.eccUncorrectable (s.now t) 2 a) (s.now t) r p
  obtain ⟨hflag, haddr, -, -⟩ := s.dev.eccUncorrectable_far (s.now t) a
  refine ⟨_, rfl, ?_⟩
  dsimp only
  rw [if_pos hon, hfail, Dev.fb_of_rd (hkept.rd _ rfl), Dev.f_of_rd (hkept.rd _ rfl)]
  exact ⟨hflag, haddr⟩

/-- Settles O45: commits, records, failures for good and for once, and the scrub, clause by clause. -/
theorem requestsCommitAndFail : Obligations.RequestsCommitAndFail := by
  unfold Obligations.RequestsCommitAndFail
  refine ⟨?_, ?_, ?_, ?_, ?_, ?_, ?_, ?_, ?_⟩
  · intro s t r m q ctx i tier n pin x o l rq hx hpurpose hstage hl hmaking hended hmask hstatus hopen hwait hstall hspill hareas ho hqueue hreq
    exact moveCommit_places hx hpurpose hstage hl hmaking ⟨hended, hmask, hstatus, hopen⟩ hwait hstall hspill hareas ho hqueue hreq
  · intro s t r slot pg fr x items g hx hpurpose _ hended hmask hstatus hopen hmem hone hg
    exact moveCommit_swapsOut hx hpurpose ⟨hended, hmask, hstatus, hopen⟩ hmem hone hg
  · intro s t r h li tier l n x p hx hpurpose hstage _ hparts hstate harea htier hstaged hdst hflash hnparts hmask hstatus hopen hwait hstall hspill
    have hended : x.allEnded = true := by simp [SluReq.allEnded, SluReq.hereEnded, hparts, hstate, hnparts]
    exact moveCommit_copiesArea hx hpurpose hstage hparts harea htier hstaged hdst hflash hnparts ⟨hended, hmask, hstatus, hopen⟩ hwait hstall hspill
  · intro s t r h li x hdt hx hpurpose hended hmask hstatus hmaking hclosed hcommit hvote hcell hcrec
    exact requestComplete_records hdt hx hpurpose hended hmask hstatus hmaking hclosed hcommit hvote hcell hcrec
  · intro s t r m q ctx pin x rq hx hpurpose hended hmask hstatus hclosed hvote hcell hreq hplaces
    exact requestComplete_fails hx hpurpose hended hmask hstatus hclosed hvote hcell hreq hplaces
  · intro s t eng r why x p hwhy hon hrun hx hspill
    exact partFail_dead hwhy hon hrun hx hspill
  · intro s t eng a hon hrun
    exact partFail_uncorrectable hon hrun
  · intro s t eng r n lastByte x p i hon hrun hx hretried hroom hi
    exact transient_requeues hon hrun hx hretried hroom hi
  · intro s t n ce ue h0 h1 hwindow
    exact patrolScrub_counts h0 h1 hwindow

end Sys2Proof.Machine
